-- ==== Sys2Proof/Word.lean ====
section
/-!
DEFINITION. Word.lean: the word types of the device and the type of its sparse tables.
Every structure in memory and every register is little-endian (R7); packet headers are in network order.
-/
namespace Sys2Proof

/-- One byte. -/
abbrev Byte := BitVec 8

/-- A 32-bit word: the width of every register of the BAR0 map and of every Wick register. -/
abbrev Word := BitVec 32

/-- A 64-bit word: DTS (R35), bus addresses and DRAM words. -/
abbrev DWord := BitVec 64

/-- A sparse table: pairs of a key and a value, keys strictly rising, no entry at the value an unlisted key
reads as. The operations that keep this form stand in Machine/Tables.lean. -/
abbrev Table (α : Type) := List (Nat × α)

/-- A byte memory: a sparse table of bytes. An unlisted byte reads as zero (assumption 1). -/
abbrev Mem := Table Byte

end Sys2Proof
end

