-- ==== Sys2Proof/Syntax.lean ====
section
/-!
DEFINITION. Syntax.lean: the commands and events the device takes, one constructor per row of the opcode table, and
the types of their operands. An operand carries what the world outside decides: who writes, the value written, the
bytes that a read returned, what a decoder found in a bitstream (assumption 9).
-/
namespace Sys2Proof

/-- A master that issues orders (R27): the Lantern core, a function (0 the physical function, 1 to 15 the virtual
functions), or a channel program. -/
inductive Master where
  | lantern
  | fn (f : Fin 16)
  | chan (c : Fin 64)
deriving DecidableEq, Repr

/-- The time references of Table 02-2. -/
inductive TimeRef where
  | ptp | pps | clk10m
deriving DecidableEq, Repr

/-- What an Announce from the selected parent carries (R38, R493). -/
structure Announce where
  clockClass : BitVec 8
  clockAccuracy : BitVec 8
  timeSource : BitVec 8
  utcOffset : BitVec 16
  utcValid : Bool
  leap61 : Bool
  leap59 : Bool
deriving DecidableEq, Repr

/-- What a PCIe read of submission entries returns (R71, Table 03-9). -/
inductive FetchResult where
  /-- The bytes of the slots read, from the queue's next slot to fetch. -/
  | data (bytes : List Byte)
  /-- The same, poisoned. -/
  | poisoned (bytes : List Byte)
  /-- Unsupported Request or Completer Abort. -/
  | failed
deriving DecidableEq, Repr

/-- A resource that the Snuffer tests, retires, fences or isolates (Tables 14-8 and 14-9, R424). -/
inductive Resource where
  /-- A codec core. -/
  | core (c : Fin 8)
  /-- A SerDes lane. -/
  | lane (n : Fin 16)
  /-- A 1 KiB row of an SRAM bank (source 0x070 + bank). -/
  | sramRow (bank : Fin 16) (row : Nat)
  /-- A DRAM row, by the lowest device address in it (R492). -/
  | dramRow (address : Nat)
  /-- A DRAM pseudo-channel of a stack. -/
  | pseudoChannel (stack : Fin 2) (pc : Fin 32)
  /-- A resource isolated under ISOLATE, by its fault source and, for the DMA engine, its channel. -/
  | isolated (source : Nat) (index : Nat)
deriving DecidableEq, Repr

/-- A unit with a unit reset (Table 14-6, code 5). -/
inductive UnitId where
  | codec (c : Fin 8)
  | lamplighter (k : Fin 4)
  | lantern | compositor | switch | traffic | dma
deriving DecidableEq, Repr

/-- A fault message as a block sends it (R411); its DTS is the instant it is sent. -/
structure FaultIn where
  source : BitVec 10
  kind : BitVec 8
  address : BitVec 48
deriving DecidableEq, Repr

/-- One reading of every sensor (R447): temperatures in 0.25 °C (none: no reading), VIN in mV, the input current in mA,
the input power in mW averaged over 10 ms (R444), and each rail's voltage in mV and current in 10 mA. -/
structure SensorReading where
  temps : List (Option Int)
  vin : Nat
  iin : Nat
  pin : Nat
  rails : List (Nat × Nat)
deriving DecidableEq, Repr

/-- A text of many bytes, given by runs from an offset on; what no run gives is zero. -/
structure ByteRuns where
  length : Nat
  runs : List (Nat × List Byte)
deriving DecidableEq, Repr

/-- A microcode image (R214): its header and its plaintext. -/
structure McImage where
  header : List Byte
  plain : ByteRuns
deriving DecidableEq, Repr

/-- What a boot step finds (Table 15-3): whether it succeeded, and what its failure or its images say. -/
structure BootFacts where
  /-- The step's own outcome: CLK32K present (1), ROM CRC good (2), SRAM good (3), each DRAM stack trained (4). -/
  ok : Bool
  /-- SRAM rows that failed the BIST of step 3: bank and row. -/
  badRows : List (Fin 16 × Nat)
  /-- Pseudo-channels that failed the training of step 4. -/
  badChannels : List (Fin 2 × Fin 32)
  /-- Image verification at the start (R216, R460): image i, slot A then B, whether its signature and tag verify and its
  version. -/
  images : List (Bool × Nat × Bool × Nat)
  /-- The microcode images: 0 base or 1 patch, slot B, and what stands there. -/
  microcode : List (Fin 3 × Bool × McImage)
  /-- The configuration blob's signature verifies (R441), its VERSION and its pairs. -/
  blobOk : Bool
  blobVersion : Word
  blobPairs : List (Nat × Word)
deriving DecidableEq, Repr

/-- The reference clocks of R471. -/
inductive RefClock where
  | sys | eth0 | eth1 | pcie
deriving DecidableEq, Repr

/-- How writing and verifying an image ended (R117, R459): its signature and tag verify, with its VERSION and, of a microcode image,
its content; or a failure. -/
inductive ImageEnd where
  | verified (version : Word) (microcode : Option McImage)
  | badSignature
  | writeFailed (address : BitVec 48)
deriving DecidableEq, Repr

/-- What the header processor made of an access unit (Table 05-10). -/
inductive PicOutcome where
  /-- It has a picture whose headers were parsed. -/
  | picture
  /-- Parameter sets or a sequence header only. -/
  | noPicture
  /-- Slice data without any parseable slice or frame header. -/
  | unparsed
  /-- A temporal unit with show_existing_frame only: the pool entry shown. -/
  | showExisting (entry : Fin 24)
deriving DecidableEq, Repr

/-- A parameter set, sequence header or JPEG frame header (R129, R130): its identifier (its kind and number), whether it uses
an option outside Table 05-1, and the size and depth it declares. -/
structure PicSet where
  id : Nat
  unsupported : Bool
  width : Nat
  height : Nat
  tenBit : Bool
deriving DecidableEq, Repr

/-- A read of a reference picture by a block: which of the picture's references, and the bytes of its buffer. -/
structure RefRead where
  ref : Nat
  offset : Nat
  length : Nat
deriving DecidableEq, Repr

/-- A coding block that the hardware decodes: its place in raster order, the byte of the access unit up to which its entropy
decoding has read, the cycles it takes, whether it has a motion vector, and what it predicts from. -/
structure BlockFacts where
  index : Nat
  through : Nat
  cycles : Nat
  motion : Bool
  reads : List RefRead
deriving DecidableEq, Repr

/-- What is known of how a picture can be divided: its tile columns and rows, and HEVC's entropy_coding_sync (R159). -/
structure Tiling where
  cols : Nat
  rows : Nat
  sync : Bool
deriving DecidableEq, Repr

/-- What one cycle of a sequencer meets (R133, R212, R213): whether the header processor hands it a slice, tile or interval, on which
it starts at address 0; whether the parity of the microword or nanoword read is wrong; and the conditions of Table 07-5, bit n for
condition n. -/
structure SeqInput where
  command : Bool
  parity : Bool
  cond : BitVec 16
deriving DecidableEq, Repr

/-- One slice, tile or restart interval, in decoding order (R131, R133, R148). -/
structure SliceFacts where
  /-- Its first block, and whether its redundant_pic_cnt is above 0. -/
  first : Nat
  redundant : Bool
  /-- Where it starts in the access unit, how far its header goes, and the end of its coded-data window. -/
  start : Nat
  header : Nat
  stop : Nat
  /-- The counts its header gives, each with the standard's limit on it. -/
  counts : List (Nat × Nat)
  /-- What its header breaks otherwise (Table 05-9), 0 for nothing. -/
  headErr : Fin 12
  blocks : List BlockFacts
  /-- The error that ends its blocks (SYNTAX, ENTROPY, MARKER), 0 for none, and the block where it was found. -/
  err : Fin 12
  errAt : Nat
deriving DecidableEq, Repr

/-- A run of samples of a picture: luma (0), Cb (1) or Cr (2), the place of the first one, and their values. -/
structure SampleRun where
  plane : Fin 3
  x : Nat
  y : Nat
  values : List Nat
deriving DecidableEq, Repr

/-- What a decode job found in its access unit and what decoding it gives (chapter 5): the standards the chapter names decide
these, not the device's own rules (assumption 9). -/
structure PicFacts where
  outcome : PicOutcome
  /-- The parameter sets it carries, in order, and those that its picture refers to. -/
  sets : List PicSet
  refers : List Nat
  width : Nat
  height : Nat
  tenBit : Bool
  /-- Reference marking of this picture: 0 none, 1 short-term, 2 long-term. -/
  refKind : Fin 3
  forOutput : Bool
  /-- Pool entries whose reference mark the marking process clears, and those it turns long-term. -/
  released : List (Fin 24)
  converted : List (Fin 24)
  /-- Film grain applies: a display copy is written (R140). -/
  grain : Bool
  /-- POC or order hint, two's complement. -/
  order : Word
  cropXy : Word
  cropWh : Word
  /-- The colour description the stream signals (R144), as bytes 24 to 27 of Table 05-4. -/
  colour : Option (List Byte)
  /-- The pictures that the output process releases during this job, in output order: this picture (none) or a pool
  entry. -/
  outputs : List (Option (Fin 24))
  /-- Bytes of coded picture data (R149). -/
  coded : Nat
  /-- The size of a coding block of the picture (R150). -/
  blockW : Nat
  blockH : Nat
  /-- What its headers break before any slice (Table 05-9), 0 for nothing. -/
  headErr : Fin 12
  /-- It has more than one slice group (R131). -/
  groups : Bool
  /-- The references it names: pool entries, or none that is there. -/
  refs : List (Option (Fin 24))
  slices : List SliceFacts
  /-- Blocks whose collocated neighbour has a motion vector (R150). -/
  collocated : List Nat
  /-- The sampling of the source's chroma: one sample for `subX` by `subY` of luma; or none at all (R132). -/
  mono : Bool
  subX : Nat
  subY : Nat
  /-- The samples that the hardware decodes, those that MV_EXTRAPOLATE predicts, and those of the copy with grain. -/
  samples : List SampleRun
  predicted : List SampleRun
  grainy : List SampleRun
  /-- Its other writes: the block, the device address, the bytes (R147). -/
  raw : List (Nat × Nat × List Byte)
  /-- Cycles of the headers, of the seam pass (R160) and of concealment. -/
  headCycles : Nat
  seamCycles : Nat
  concealCycles : Nat
  picType : Fin 5
  randomAccess : Bool
  /-- The first poisoned byte that its reads of host space met (R153). -/
  hostPoison : Option Nat
  /-- The write of the status record failed (R155). -/
  statusLost : Bool
deriving DecidableEq, Repr

/-- One coding of a rung of a frame (R183): the frame QP that rate control picks, the bits of each 64 × 64 block in raster order, the
bytes of its slice or frame header and of each of its tiles, and the reconstruction of the blocks that are not SKIP. -/
structure CodingFacts where
  qp : Nat
  bits : List Nat
  head : List Byte
  tiles : List (List Byte)
  recon : List SampleRun
deriving DecidableEq, Repr

/-- What rate control and entropy coding gave for one rung of one frame (chapter 6): what the chapter leaves to them (assumption 9). -/
structure RungFacts where
  /-- The frame's target as rate control corrected it (Table 06-8), in bits, and its QP estimate. -/
  target : Nat
  rcQ : Word
  /-- Estimated bits of each pending settle pass, in raster order (R176). -/
  estimates : List Nat
  /-- AVG_QP of a frame in which no block is coded: no rule states it. -/
  avgQp : Byte
  /-- The codings of R183, in order. -/
  codings : List CodingFacts
  /-- The payloads of the parameter sets and SEI messages that the frame carries, in their order. -/
  bodies : List (List Byte)
  /-- The merge and AMVP candidates, or the reference MV stack, of each 64 × 64 block, in eighths of a sample (Table 06-5). -/
  candidates : List (Nat × List (Int × Int))
deriving DecidableEq, Repr

/-- What an encode job gave: one entry per rung, the luma of a source frame in host memory, whether poison reached its data, and
whether the write of a result record failed. -/
structure EncFacts where
  rungs : List RungFacts
  host : List SampleRun
  poisoned : Bool
  recordLost : Bool
deriving DecidableEq, Repr

/-- What firmware reads at a COMPOSE's SOURCE (R224, R226, R227): the still's header and pixels to copy, or the text
layer's descriptor, its glyph entries, the atlas header and its glyph count; none where a read failed. -/
structure PlaneData where
  header : List Byte
  glyphs : List Byte
  atlas : List Byte
  pixels : List Byte
  ok : Bool
deriving DecidableEq, Repr

/-- How a transfer on a peripheral or DMA subchannel ended (R271): the bytes received, how many bytes were moved, and
the sense code, poison or a lost unit. -/
structure TransferEnd where
  received : List Byte
  moved : Nat
  sense : Fin 11
  poisoned : Bool
  busError : Bool
  lost : Bool
deriving DecidableEq, Repr

/-- A request that reaches the cluster directory (R320). -/
inductive DirReq where
  | read | own | wb
deriving DecidableEq, Repr

/-- What the port's MAC and the buses report as a received frame's tail arrives: the bytes after the first 128, a PCS
code error, an uncorrectable FEC codeword and how many codewords were corrected, a poisoned cell, the HEAD that the
receive binding reads from host space (R341), a failed binding write, and the offset a slave PTP port measured. -/
structure TailFacts where
  rest : List Byte
  pcsError : Bool
  fecUncorr : Bool
  fecCorrected : Nat
  media : Bool
  ringHead : Word
  ringFail : Bool
  offset : Option Int
deriving DecidableEq, Repr

/-- What a read on the DMA engine's fabric port returned (R391): the bytes, the bytes with poison at an offset, or an
error response. Bytes of device space are read from the model's memory and those here are not used. -/
inductive DmaRead where
  | data (bytes : List Byte)
  | poisoned (bytes : List Byte) (offset : Nat)
  | failed
deriving DecidableEq, Repr

/-- A ledger that hardware corruption changed (R395, R396): law 1 to 6 less one, its instance, the change of its first
term as the auditor latches it, and whether an uncorrectable error struck it. -/
structure LedgerErr where
  law : Fin 6
  index : Nat
  delta : Int
  struck : Bool
deriving DecidableEq, Repr

/-- The commands and events of spec/opcode_table.json, one constructor per row. -/
inductive Instr where
  /-- TICK (R16). A tick of a tick group falls due on DTS and its ordered actions take effect. -/
  | tick (g : Fin 4)
  /-- STAGED_CHANGE_APPLY_AT_DTS (R25). A change armed in DTS mode reaches its instant and every unit swaps its staged values in. -/
  | stagedChangeApplyAtDts
  /-- REGISTER_WRITE (R18). A write to a register that has no row of its own, to its live or staging view. -/
  | registerWrite (m : Master) (off : Nat) (v : Word)
  /-- SYS_STAGE_CLAIM (R19). A write of CLAIM claims the staging session under R27. -/
  | sysStageClaim (m : Master) (v : Word)
  /-- STAGING_WRITE (R490). A register write to a staging view, which may claim a session implicitly or return the state to OPEN. -/
  | stagingWrite (m : Master) (off : Nat) (v : Word)
  /-- SYS_STAGE_CHECK (R21). A write of CHECK starts a check of the session's change. -/
  | sysStageCheck (m : Master) (v : Word)
  /-- STAGE_CHECK_END (R21). A stage check ends, and CHECKED or FAILED is entered with its code. -/
  | stageCheckEnd
  /-- SYS_STAGE_APPLY (R24). A write of APPLY arms the checked change for a tick or a DTS instant. -/
  | sysStageApply (m : Master) (v : Word)
  /-- SYS_STAGE_CANCEL (R33). A write of CANCEL cancels the owner's own session. -/
  | sysStageCancel (m : Master) (v : Word)
  /-- TIME_DTS_LO_READ (R37). A read of TIME_DTS_LO returns the low bits and latches the high bits. -/
  | timeDtsLoRead
  /-- TIME_SET_GO (R54). A write of GO steps DTS to TIME_SET, or is ignored with SET_REJ while a reference is qualified. -/
  | timeSetGo (m : Master) (v : Word)
  /-- ANNOUNCE_RECEIVED (R42). An Announce from the selected parent is taken as a valid PTP reference event. -/
  | announceReceived (port : Fin 17) (a : Announce)
  /-- PPS_IN_EDGE (R42). A valid PPS_IN edge gives the phase of the second. -/
  | ppsInEdge (rising : Bool)
  /-- REFERENCE_LOST (R42). A time reference's loss time runs out since its last valid event. -/
  | referenceLost (r : TimeRef)
  /-- REFERENCE_QUALIFIED (R50). A reference's qualification time runs out, and the servo slews or steps DTS. -/
  | referenceQualified (r : TimeRef) (delta : Int) (adj : Word)
  /-- HOLDOVER_SET (R43). The HOLDOVER condition is set when the last reference is lost or its announce intervals run out. -/
  | holdoverSet
  /-- HO_SPEC_EXPIRED (R43). Holdover time passes TIME_HO_SPEC and the advertised clock quality changes. -/
  | hoSpecExpired
  /-- SLEW_DONE (R50). A slew brings the offset below 1 µs and HOLDOVER clears. -/
  | slewDone
  /-- PPS_OUT_PULSE (R43). PPS_OUT pulses at a DTS second boundary. -/
  | ppsOutPulse
  /-- SUBMISSION_DOORBELL (R69). A submission doorbell write sets a new tail and may invalidate cached entries. -/
  | submissionDoorbell (f : Fin 16) (q : Fin 4096) (v : Word)
  /-- COMPLETION_DOORBELL (R69). A completion doorbell write moves the completion head and frees ring space. -/
  | completionDoorbell (f : Fin 16) (c : Fin 4096) (v : Word)
  /-- ENTRY_FETCHED (R71). A PCIe read of submission entries returns them to the entry cache, or fails under Table 03-9. -/
  | entryFetched (f : Fin 16) (q : Fin 4096) (r : FetchResult)
  /-- FETCH_COMPLETION_TIMEOUT (R93). A submission fetch meets a completion timeout and is retried once. -/
  | fetchCompletionTimeout (f : Fin 16) (q : Fin 4096)
  /-- ENTRY_DISPATCH (R74). The arbiter dispatches an entry once it is pending and a slot is free, checking its header. -/
  | entryDispatch
  /-- COMPLETION_POST (R78). A finished command's completion is written to its ring once there is room. -/
  | completionPost (f : Fin 16) (c : Fin 4096) (ok : Bool)
  /-- AGG_TIME_EXPIRY (R82). AGG_TIME passes since the oldest unsignalled completion and an MSI-X message is sent. -/
  | aggTimeExpiry (f : Fin 16) (c : Fin 4096)
  /-- COMPLETION_REPOST (R93). A completion whose write failed is re-posted 1 ms later, or the ring is frozen. -/
  | completionRepost (f : Fin 16) (c : Fin 4096) (ok : Bool)
  /-- PCIE_LINK_DOWN (R87). The data link layer reports DL_Down and host loss is declared. -/
  | pcieLinkDown
  /-- QMGR_HEARTBEAT (R87). A write is a heartbeat of the physical function. -/
  | qmgrHeartbeat (m : Master) (v : Word)
  /-- HEARTBEAT_TIMEOUT (R87). The physical function's heartbeat timeout runs out and host loss is declared. -/
  | heartbeatTimeout
  /-- VF_HEARTBEAT (R90). A virtual function's heartbeat write, which resumes its frozen queues. -/
  | vfHeartbeat (f : Fin 16) (v : Word)
  /-- VF_HEARTBEAT_TIMEOUT (R90). A virtual function misses its heartbeat and only its queues freeze. -/
  | vfHeartbeatTimeout (f : Fin 16)
  /-- FUNCTION_LEVEL_RESET (R85). A Function Level Reset drains and resets every queue and object of the function. -/
  | functionLevelReset (f : Fin 16)
  /-- ADMIN_QUEUE_ENABLE (R94). Setting EN creates the function's admin queue, or sets AQ_ERR. -/
  | adminQueueEnable (f : Fin 16)
  /-- ADMIN_QUEUE_DISABLE (R94). Clearing EN resets the function's queues as in R85. -/
  | adminQueueDisable (f : Fin 16)
  /-- ADMIN_QUEUE_READY (R94). RDY becomes 1 once the admin queue is created. -/
  | adminQueueReady (f : Fin 16)
  /-- QMGR_DB_ERR_READ (R70). A read of QMGR_DB_ERR returns and clears the ignored-doorbell count. -/
  | qmgrDbErrRead
  /-- IDENTIFY (R108). Writes the device or function identify structure to host memory. -/
  | identify (n : Fin 4096)
  /-- CREATE_CQ (R109). Creates a completion ring for a function. -/
  | createCq (n : Fin 4096)
  /-- DELETE_CQ (R111). Deletes a completion ring with no bound queues. -/
  | deleteCq (n : Fin 4096)
  /-- CREATE_SQ (R110). Creates a submission queue bound to an ACTIVE completion ring. -/
  | createSq (n : Fin 4096)
  /-- DELETE_SQ (R111). Deletes a submission queue under R84. -/
  | deleteSq (n : Fin 4096)
  /-- GET_FEATURE (R112). Returns the value of a feature. -/
  | getFeature (n : Fin 4096)
  /-- SET_QUEUE_ARB (R112). SET_FEATURE QUEUE_ARB sets a queue's weight and burst. -/
  | setQueueArb (n : Fin 4096)
  /-- SET_COMPLETION_AGG (R112). SET_FEATURE COMPLETION_AGG sets a ring's aggregation limits. -/
  | setCompletionAgg (n : Fin 4096)
  /-- SET_MODE_REQUEST (R437). SET_FEATURE MODE_REQUEST requests a mode and completes when it is entered. -/
  | setModeRequest (n : Fin 4096)
  /-- SET_SHARES (R113). Sets a tenant's decode and encode shares. -/
  | setShares (n : Fin 4096)
  /-- STAGE_CLAIM (R114). STAGE CLAIM claims the staging session through a submission queue. -/
  | stageClaim (n : Fin 4096)
  /-- STAGE_WRITE (R115). STAGE WRITE writes offset and value pairs to staging views. -/
  | stageWrite (n : Fin 4096)
  /-- STAGE_CHECK (R115). STAGE CHECK runs the stage check and completes when it ends. -/
  | stageCheck (n : Fin 4096)
  /-- STAGE_APPLY (R115). STAGE APPLY arms the change and completes when it applies or fails to. -/
  | stageApply (n : Fin 4096)
  /-- STAGE_CANCEL (R115). STAGE CANCEL cancels the holder's session. -/
  | stageCancel (n : Fin 4096)
  /-- STAGE_STATUS (R114). STAGE STATUS returns SYS_STAGE_STATUS. -/
  | stageStatus (n : Fin 4096)
  /-- ABORT (R116). Aborts the accepted entries of a queue that carry a given CID. -/
  | abort (n : Fin 4096)
  /-- NVS_UPDATE (R117). Starts writing an image into the inactive NVS slot. -/
  | nvsUpdate (n : Fin 4096)
  /-- NVS_UPDATE_END (R459). An image update finishes writing and verification and marks its slot valid and PENDING. -/
  | nvsUpdateEnd (image : Fin 3) (e : ImageEnd)
  /-- LOG_READ (R118). Copies event-log records to host memory. -/
  | logRead (n : Fin 4096)
  /-- OPEN (R119). Creates a stream, output or send queue and returns its handle. -/
  | openObject (n : Fin 4096) (pick : Nat) (params : List Byte)
  /-- CLOSE (R120). Destroys the object named by the handle after its jobs complete. -/
  | close (n : Fin 4096)
  /-- DECODE (R121). Submits one access unit to a decode stream. -/
  | decode (n : Fin 4096)
  /-- ENCODE (R122). Submits one source frame to an encode stream. -/
  | encode (n : Fin 4096)
  /-- COMPOSE (R123). Updates one plane of a compositor output. -/
  | compose (n : Fin 4096) (x : PlaneData)
  /-- SEND (R126). Places one Ethernet frame on a send queue. -/
  | send (n : Fin 4096) (data : List Byte)
  /-- CHANNEL_ALLOCATE (R264). CHANNEL ALLOCATE takes a free channel. -/
  | channelAllocate (n : Fin 4096) (pick : Nat)
  /-- CHANNEL_START (R264). CHANNEL START runs a channel program from its first CCW. -/
  | channelStart (n : Fin 4096)
  /-- CHANNEL_SUSPEND (R264). CHANNEL SUSPEND stops the channel before its next CCW. -/
  | channelSuspend (n : Fin 4096)
  /-- CHANNEL_RESUME (R264). CHANNEL RESUME refetches the CCW of a suspended channel. -/
  | channelResume (n : Fin 4096)
  /-- CHANNEL_HALT (R266). CHANNEL HALT stops the program with result STOPPED. -/
  | channelHalt (n : Fin 4096)
  /-- CHANNEL_CLEAR (R264). CHANNEL CLEAR halts the channel and clears it to IDLE. -/
  | channelClear (n : Fin 4096)
  /-- CODEC_JOB_START (R156). A codec core that falls free takes the next eligible job by class, debt and placement. -/
  | codecJobStart (x : Tiling) (w h : Nat)
  /-- PICTURE_END (R139). A decoded picture ends, applying marking, presentation, status record and completion. -/
  | pictureEnd (c : Fin 8) (p : PicFacts)
  /-- BUDGET_ABORT (R149). A picture reaches twice its frame budget and is aborted with concealment. -/
  | budgetAbort (c : Fin 8)
  /-- ENCODE_FRAME_END (R185). An encoded frame ends, writing checkpoint and result records and handing packets to the sink. -/
  | encodeFrameEnd (c : Fin 8) (e : EncFacts)
  /-- ENCODE_PACKET_RELEASE (R189). A paced RTP packet of an encoded frame is released to its send queue. -/
  | encodePacketRelease (stream : Fin 256)
  /-- SEQUENCER_WATCHDOG (R205). The microcode sequencer makes no progress for 1 ms and the core is reset. -/
  | sequencerWatchdog (c : Fin 8)
  /-- MICROWORD (R212). The sequencer issues a microword's nanoword and computes the next micro address. -/
  | microword (c : Fin 8) (x : SeqInput)
  /-- CORE_LEAVES_SERVICE (R206). A codec core leaves service, its jobs are redone and streams may be evicted. -/
  | coreLeavesService (c : Fin 8) (retired : Bool)
  /-- CORE_RESET_END (R205). A resetting codec core finishes reload and self-test and returns to service or retires. -/
  | coreResetEnd (c : Fin 8) (pass : Bool)
  /-- FRAME_BEGIN (R232). At LEAD before a tick, the compositor begins the frame and samples updates, pictures and dirty sets. -/
  | frameBegin (g : Fin 4)
  /-- COMPOSE_FRAME_END (R233). Composition of a group's frame ends. -/
  | composeFrameEnd (o : Fin 128) (equal poisoned : Nat)
  /-- ST2110_PACKET_SEND (R242). A paced ST 2110-20 packet of a flipped frame is sent. -/
  | st2110PacketSend (o : Fin 128) (payload : List Byte)
  /-- CCW_WRITE (R271). A WRITE CCW moves bytes to a peripheral or DMA subchannel. -/
  | ccwWrite (c : Fin 64) (w : List Byte) (pages : List DWord) (data : List Byte)
  /-- CCW_READ (R271). A READ CCW moves bytes from a peripheral to memory. -/
  | ccwRead (c : Fin 64) (w : List Byte) (pages : List DWord)
  /-- CCW_SENSE (R275). A SENSE CCW reads 32 bytes of sense data. -/
  | ccwSense (c : Fin 64) (w : List Byte) (pages : List DWord)
  /-- CCW_NOP (R252). A NOP CCW does nothing. -/
  | ccwNop (c : Fin 64) (w : List Byte)
  /-- CCW_TIC (R252). A TIC CCW takes the next CCW from its address. -/
  | ccwTic (c : Fin 64) (w : List Byte)
  /-- CCW_WAIT_TICK (R254). A WAIT_TICK CCW waits for a count of ticks of a group. -/
  | ccwWaitTick (c : Fin 64) (w : List Byte)
  /-- CCW_WAIT_EVENT (R255). A WAIT_EVENT CCW waits for masked event bits or a time-out. -/
  | ccwWaitEvent (c : Fin 64) (w : List Byte)
  /-- WAIT_EVENT_TIMEOUT (R255). A WAIT_EVENT time-out runs out and the CCW ends with SKIP_NEXT. -/
  | waitEventTimeout (c : Fin 64)
  /-- CCW_SET_TIMER (R256). A SET_TIMER CCW arms or cancels the channel timer. -/
  | ccwSetTimer (c : Fin 64) (w : List Byte)
  /-- CHANNEL_TIMER_EXPIRY (R256). The channel timer expires and sets the TIMER event bit. -/
  | channelTimerExpiry (c : Fin 64)
  /-- CCW_POST (R256). A POST CCW sets event bits of a channel of the same function. -/
  | ccwPost (c : Fin 64) (w : List Byte)
  /-- CCW_CALL (R277). A CALL CCW runs a customer routine in user mode. -/
  | ccwCall (c : Fin 64) (w : List Byte)
  /-- ROUTINE_TIMEOUT (R278). A customer routine runs past LIMIT and is stopped with a program error. -/
  | routineTimeout (c : Fin 64)
  /-- CCW_DECODE (R257). A DECODE CCW dispatches a decode job as the command would. -/
  | ccwDecode (c : Fin 64) (w : List Byte)
  /-- CCW_ENCODE (R257). An ENCODE CCW dispatches an encode job. -/
  | ccwEncode (c : Fin 64) (w : List Byte)
  /-- CCW_COMPOSE (R260). A COMPOSE CCW updates a plane of an output. -/
  | ccwCompose (c : Fin 64) (w : List Byte) (x : PlaneData)
  /-- CCW_SEND (R257). A SEND CCW places a frame on a send queue. -/
  | ccwSend (c : Fin 64) (w : List Byte) (data : List Byte)
  /-- CCW_CONTROL_STAGE (R261). A CONTROL CCW on STAGE carries out a staging sub-operation. -/
  | ccwControlStage (c : Fin 64) (w : List Byte) (pairs : List Byte)
  /-- STATUS_RING (R262). A CONTROL order on SELF sets or removes the channel's status ring. -/
  | statusRing (c : Fin 64) (w : List Byte) (order : List Byte)
  /-- UART_CONFIG (R270). A UART CONFIG order sets baud, framing and RS-485 control. -/
  | uartConfig (c : Fin 64) (w : List Byte) (order : List Byte)
  /-- UART_BREAK (R270). A UART BREAK order sends a break. -/
  | uartBreak (c : Fin 64) (w : List Byte) (order : List Byte)
  /-- SPI_CONFIG (R270). An SPI CONFIG order sets clock and mode. -/
  | spiConfig (c : Fin 64) (w : List Byte) (order : List Byte)
  /-- I2C_CONFIG (R270). An I2C CONFIG order sets the SCL rate. -/
  | i2cConfig (c : Fin 64) (w : List Byte) (order : List Byte)
  /-- BUS_CLEAR (R274). An I2C BUS_CLEAR order clocks nine pulses and a STOP. -/
  | busClear (c : Fin 64) (w : List Byte) (order : List Byte) (held : Bool)
  /-- CAN_CONFIG (R270). A CAN CONFIG order sets rates and FD options. -/
  | canConfig (c : Fin 64) (w : List Byte) (order : List Byte)
  /-- CAN_FILTER (R270). A CAN FILTER order sets a receive filter. -/
  | canFilter (c : Fin 64) (w : List Byte) (order : List Byte)
  /-- CAN_RECOVER (R270). A CAN RECOVER order leaves bus-off. -/
  | canRecover (c : Fin 64) (w : List Byte) (order : List Byte)
  /-- I2S_CONFIG (R270). An I2S CONFIG order sets sample rate, bits and slots. -/
  | i2sConfig (c : Fin 64) (w : List Byte) (order : List Byte)
  /-- GPIO_DRIVE (R270). A GPIO DRIVE order sets and clears pins. -/
  | gpioDrive (c : Fin 64) (w : List Byte) (order : List Byte)
  /-- GPIO_DIRECTION (R270). A GPIO DIRECTION order sets output pins. -/
  | gpioDirection (c : Fin 64) (w : List Byte) (order : List Byte)
  /-- GPIO_PULSE (R270). A GPIO PULSE order inverts pins for a width. -/
  | gpioPulse (c : Fin 64) (w : List Byte) (order : List Byte)
  /-- GPIO_EVENT (R270). A GPIO EVENT order binds a pin edge to a channel event bit. -/
  | gpioEvent (c : Fin 64) (w : List Byte) (order : List Byte)
  /-- GPIO_EDGE (R270). An input edge on a bound GPIO pin sets a channel event bit. -/
  | gpioEdge (pin : Fin 48) (rising : Bool)
  /-- CAN_FRAME_RX (R271). A received CAN frame that passes a filter is taken by a READ. -/
  | canFrameRx (k : Fin 2) (frame : List Byte)
  /-- PERIPHERAL_TRANSFER_END (R271). A peripheral or DMA transfer of a CCW ends and the CCW ends. -/
  | peripheralTransferEnd (c : Fin 64) (e : TransferEnd)
  /-- READ_TIMEOUT (R272). A READ receives nothing within TIMEOUT and ends with NO_RESPONSE. -/
  | readTimeout (c : Fin 64)
  /-- CCW_RETRY (R273). A CCW that ended with a retryable unit error is carried out again once the cause clears. -/
  | ccwRetry (c : Fin 64)
  /-- LINE_STUCK (R274). A UART receive line held low past BREAK_TO ends or marks the CCW. -/
  | lineStuck (u : Fin 8)
  /-- BUS_FAULT (R274). An I2C line still held low 35 ms after the fault ends the CCW. -/
  | busFault (k : Fin 4) (levels : BitVec 2)
  /-- LMP_CH_EVENT_WRITE (R255). A write of LMP_CH_EVENT sets USER event bits of a channel. -/
  | lmpChEventWrite (m : Master) (c : Fin 64) (v : Word)
  /-- ROUTINE_LOAD (R276). LOAD loads the selected customer routine. -/
  | routineLoad (m : Master) (v : Word)
  /-- ROUTINE_UNLOAD (R276). UNLOAD unloads the selected routine. -/
  | routineUnload (m : Master) (v : Word)
  /-- HANDOVER_RESUME (R282). A write of LMP_HANDOVER with RESUME requests the host's return. -/
  | handoverResume (m : Master) (v : Word)
  /-- HANDOVER_RESET (R282). A write of LMP_HANDOVER with RESET requests a reset of every function. -/
  | handoverReset (m : Master) (v : Word)
  /-- LAMPLIGHTER_STALL (R286). A CCW is not interpreted within 1 ms and STALL is sent. -/
  | lamplighterStall (k : Fin 4) (c : Fin 64)
  /-- ADD (R302). rd gets rs plus rt. -/
  | add (c : Fin 13) (rd rs rt : Fin 32)
  /-- SUB (R302). rd gets rs minus rt. -/
  | sub (c : Fin 13) (rd rs rt : Fin 32)
  /-- AND (R302). rd gets rs AND rt. -/
  | and (c : Fin 13) (rd rs rt : Fin 32)
  /-- OR (R302). rd gets rs OR rt. -/
  | or (c : Fin 13) (rd rs rt : Fin 32)
  /-- XOR (R302). rd gets rs XOR rt. -/
  | xor (c : Fin 13) (rd rs rt : Fin 32)
  /-- NOR (R302). rd gets NOT (rs OR rt). -/
  | nor (c : Fin 13) (rd rs rt : Fin 32)
  /-- SLT (R302). Signed set on less than. -/
  | slt (c : Fin 13) (rd rs rt : Fin 32)
  /-- SLTU (R302). Unsigned set on less than. -/
  | sltu (c : Fin 13) (rd rs rt : Fin 32)
  /-- SLL (R302). Left shift by a register. -/
  | sll (c : Fin 13) (rd rs rt : Fin 32)
  /-- SRL (R302). Logical right shift by a register. -/
  | srl (c : Fin 13) (rd rs rt : Fin 32)
  /-- SRA (R302). Arithmetic right shift by a register. -/
  | sra (c : Fin 13) (rd rs rt : Fin 32)
  /-- SLLI (R302). Left shift by an immediate. -/
  | slli (c : Fin 13) (rd rs : Fin 32) (sh : Fin 32)
  /-- SRLI (R302). Logical right shift by an immediate. -/
  | srli (c : Fin 13) (rd rs : Fin 32) (sh : Fin 32)
  /-- SRAI (R302). Arithmetic right shift by an immediate. -/
  | srai (c : Fin 13) (rd rs : Fin 32) (sh : Fin 32)
  /-- MUL (R302). Low 32 bits of a product. -/
  | mul (c : Fin 13) (rd rs rt : Fin 32)
  /-- MULH (R302). High 32 bits of a signed product. -/
  | mulh (c : Fin 13) (rd rs rt : Fin 32)
  /-- MULHU (R302). High 32 bits of an unsigned product. -/
  | mulhu (c : Fin 13) (rd rs rt : Fin 32)
  /-- DIVU (R302). Unsigned division, raising DIV_ZERO on zero. -/
  | divu (c : Fin 13) (rd rs rt : Fin 32)
  /-- REMU (R302). Unsigned remainder, raising DIV_ZERO on zero. -/
  | remu (c : Fin 13) (rd rs rt : Fin 32)
  /-- CLZ (R302). Counts leading zero bits. -/
  | clz (c : Fin 13) (rd rs : Fin 32)
  /-- BSWAP (R302). Reverses the four bytes of a register. -/
  | bswap (c : Fin 13) (rd rs : Fin 32)
  /-- ADDI (R303). Adds a sign-extended immediate. -/
  | addi (c : Fin 13) (rd rs : Fin 32) (imm : BitVec 16)
  /-- ANDI (R303). ANDs a zero-extended immediate. -/
  | andi (c : Fin 13) (rd rs : Fin 32) (imm : BitVec 16)
  /-- ORI (R303). ORs a zero-extended immediate. -/
  | ori (c : Fin 13) (rd rs : Fin 32) (imm : BitVec 16)
  /-- XORI (R303). XORs a zero-extended immediate. -/
  | xori (c : Fin 13) (rd rs : Fin 32) (imm : BitVec 16)
  /-- SLTI (R303). Signed compare with an immediate. -/
  | slti (c : Fin 13) (rd rs : Fin 32) (imm : BitVec 16)
  /-- SLTIU (R303). Unsigned compare with a sign-extended immediate. -/
  | sltiu (c : Fin 13) (rd rs : Fin 32) (imm : BitVec 16)
  /-- LUI (R303). Loads an immediate into the upper half. -/
  | lui (c : Fin 13) (rd : Fin 32) (imm : BitVec 16)
  /-- LB (R306). Sign-extending byte load with a delay slot. -/
  | lb (c : Fin 13) (rd rs : Fin 32) (seg : Fin 8) (imm : BitVec 13)
  /-- LBU (R306). Zero-extending byte load with a delay slot. -/
  | lbu (c : Fin 13) (rd rs : Fin 32) (seg : Fin 8) (imm : BitVec 13)
  /-- LH (R306). Sign-extending halfword load with a delay slot. -/
  | lh (c : Fin 13) (rd rs : Fin 32) (seg : Fin 8) (imm : BitVec 13)
  /-- LHU (R306). Zero-extending halfword load with a delay slot. -/
  | lhu (c : Fin 13) (rd rs : Fin 32) (seg : Fin 8) (imm : BitVec 13)
  /-- LW (R306). Word load with a delay slot. -/
  | lw (c : Fin 13) (rd rs : Fin 32) (seg : Fin 8) (imm : BitVec 13)
  /-- LDX (R309). Word load that sets a reservation. -/
  | ldx (c : Fin 13) (rd rs : Fin 32) (seg : Fin 8) (imm : BitVec 13)
  /-- SB (R303). Stores a byte. -/
  | sb (c : Fin 13) (rd rs : Fin 32) (seg : Fin 8) (imm : BitVec 13)
  /-- SH (R303). Stores a halfword. -/
  | sh (c : Fin 13) (rd rs : Fin 32) (seg : Fin 8) (imm : BitVec 13)
  /-- SW (R303). Stores a word. -/
  | sw (c : Fin 13) (rd rs : Fin 32) (seg : Fin 8) (imm : BitVec 13)
  /-- STX (R309). Conditional word store against the reservation. -/
  | stx (c : Fin 13) (rd rs : Fin 32) (seg : Fin 8) (imm : BitVec 13)
  /-- LSEG (R297). Loads a segment register from a descriptor. -/
  | lseg (c : Fin 13) (user : Bool) (n : Fin 8) (rs : Fin 32) (seg : Fin 8) (imm : BitVec 13)
  /-- SSEG (R297). Stores a segment register as a descriptor. -/
  | sseg (c : Fin 13) (user : Bool) (n : Fin 8) (rs : Fin 32) (seg : Fin 8) (imm : BitVec 13)
  /-- BEQ (R303). Branches if equal. -/
  | beq (c : Fin 13) (ra rb : Fin 32) (off : BitVec 16)
  /-- BNE (R303). Branches if not equal. -/
  | bne (c : Fin 13) (ra rb : Fin 32) (off : BitVec 16)
  /-- BLT (R303). Branches if signed less. -/
  | blt (c : Fin 13) (ra rb : Fin 32) (off : BitVec 16)
  /-- BGE (R303). Branches if signed greater or equal. -/
  | bge (c : Fin 13) (ra rb : Fin 32) (off : BitVec 16)
  /-- BLTU (R303). Branches if unsigned less. -/
  | bltu (c : Fin 13) (ra rb : Fin 32) (off : BitVec 16)
  /-- BGEU (R303). Branches if unsigned greater or equal. -/
  | bgeu (c : Fin 13) (ra rb : Fin 32) (off : BitVec 16)
  /-- J (R303). Jumps by a word offset. -/
  | j (c : Fin 13) (off : BitVec 26)
  /-- CALL (R300). Pushes the return address and jumps. -/
  | call (c : Fin 13) (off : BitVec 26)
  /-- JR (R303). Jumps to the address in rs. -/
  | jr (c : Fin 13) (rs : Fin 32)
  /-- CALLR (R300). Pushes the return address and jumps to rs. -/
  | callr (c : Fin 13) (rs : Fin 32)
  /-- LOOP (R307). Sets up a zero-overhead loop of rs iterations. -/
  | loop (c : Fin 13) (rs : Fin 32) (off : BitVec 16)
  /-- LOOPI (R307). Sets up a zero-overhead loop of an immediate count. -/
  | loopi (c : Fin 13) (count : BitVec 10) (off : BitVec 16)
  /-- RET (R300). Pops PC from the call stack. -/
  | ret (c : Fin 13)
  /-- ERET (R316). Returns from an exception or event. -/
  | eret (c : Fin 13)
  /-- TRAP (R304). Raises TRAP with a code. -/
  | trap (c : Fin 13) (code : BitVec 15)
  /-- BRK (R304). Halts under debug or raises BREAK. -/
  | brk (c : Fin 13)
  /-- WAIT (R304). Stops until an interrupt is pending for the core. -/
  | wait (c : Fin 13)
  /-- ATOM (R310). Makes the next n instructions run without interruption. -/
  | atom (c : Fin 13) (n : Fin 16)
  /-- PUSH (R299). Pushes a word onto the data stack. -/
  | push (c : Fin 13) (rs : Fin 32)
  /-- POP (R299). Pops a word from the data stack. -/
  | pop (c : Fin 13) (rd : Fin 32)
  /-- MFS (R294). Reads a special register. -/
  | mfs (c : Fin 13) (rd : Fin 32) (sr : Fin 32)
  /-- MTS (R294). Writes a special register. -/
  | mts (c : Fin 13) (sr : Fin 32) (rs : Fin 32)
  /-- LBRK (R308). Discards the innermost loop level. -/
  | lbrk (c : Fin 13)
  /-- FENCE (R311). Orders loads and stores across it. -/
  | fence (c : Fin 13)
  /-- CWB (R304). Writes back a data-cache line. -/
  | cwb (c : Fin 13) (rs : Fin 32) (seg : Fin 8)
  /-- CINV (R304). Invalidates a data-cache line. -/
  | cinv (c : Fin 13) (rs : Fin 32) (seg : Fin 8)
  /-- IINV (R304). Invalidates the instruction cache. -/
  | iinv (c : Fin 13)
  /-- INTERRUPT_ENTRY (R317). An asserted interrupt is accepted between instructions. -/
  | interruptEntry (c : Fin 13)
  /-- DBG_ACCESS (R323). A DBG data-register update starts an access to a core's debug register. -/
  | dbgAccess (d : BitVec 46)
  /-- HALT_REQ (R325). A write of HALT_REQ requests a debug halt. -/
  | haltReq (c : Fin 13)
  /-- DEBUG_HALT (R325). A requested halt takes effect at the next allowed instruction boundary. -/
  | debugHalt (c : Fin 13)
  /-- DEBUG_RESUME (R324). A write of RESUME resumes a halted core. -/
  | debugResume (c : Fin 13)
  /-- DEBUG_STEP (R326). A write of STEP runs one step of a halted core. -/
  | debugStep (c : Fin 13)
  /-- DREG_DATA_ACCESS (R324). A debug access to the selected core register. -/
  | dregDataAccess (c : Fin 13) (write : Bool) (v : Word)
  /-- DMEM_DATA_ACCESS (R327). A debug read or write of the word at DMEM_ADDR, with peek rules. -/
  | dmemDataAccess (c : Fin 13) (write : Bool) (v : Word)
  /-- DIR_READ (R320). A READ request reaches the cluster directory. -/
  | dirRead (r : Fin 5) (line : Fin 32768) (same : List (Fin 5 × DirReq))
  /-- DIR_OWN (R320). An OWN request reaches the cluster directory. -/
  | dirOwn (r : Fin 5) (line : Fin 32768) (same : List (Fin 5 × DirReq))
  /-- DIR_WB (R320). A WB of a modified line reaches the cluster directory. -/
  | dirWb (r : Fin 5) (line : Fin 32768) (same : List (Fin 5 × DirReq))
  /-- FRAME_HEAD_LOOKUP (R334). The first 128 bytes of a received frame are looked up, classified and learned. -/
  | frameHeadLookup (p : Fin 17) (head : List Byte)
  /-- FRAME_TAIL (R343). A received frame's tail arrives and is checked, metered and delivered. -/
  | frameTail (p : Fin 17) (t : TailFacts)
  /-- EGRESS_SELECT (R371). A port selects the highest eligible traffic class and starts a copy. -/
  | egressSelect (p : Fin 28)
  /-- COPY_TRANSMIT_END (R364). A copy finishes sending, debits its shapers and releases its cells. -/
  | copyTransmitEnd (p : Fin 28) (media : Bool)
  /-- MAC_AGING_PASS (R337). Once a second, learned MAC entries not seen for AGE_TIME are removed. -/
  | macAgingPass
  /-- TBL_WRITE (R339). SWC_TBL_CMD WRITE writes a table entry, live or staged. -/
  | tblWrite (m : Master) (v : Word)
  /-- TBL_READ (R339). SWC_TBL_CMD READ reads the live entry. -/
  | tblRead (m : Master) (v : Word)
  /-- TBL_INVALIDATE (R339). SWC_TBL_CMD INVALIDATE clears a table entry. -/
  | tblInvalidate (m : Master) (v : Word)
  /-- PORT_LOCK (R331). A training port achieves PCS lock and goes UP. -/
  | portLock (p : Fin 17)
  /-- TRAINING_RETRY (R331). A port still in TRAINING retries every 100 ms. -/
  | trainingRetry (p : Fin 17)
  /-- LINK_DOWN (R350). A port loses lock or alignment and leaves UP. -/
  | linkDown (p : Fin 17)
  /-- DOWN_RETRAIN (R331). A DOWN port goes to TRAINING after 100 ms. -/
  | downRetrain (p : Fin 17)
  /-- LANE_FAULT (R351). A lane loses signal or lock, or training fails. -/
  | laneFault (n : Fin 16)
  /-- SWC_CNT_LOW_READ (R354). A read of a counter's low word latches its high word. -/
  | swcCntLowRead (p : Fin 28) (c : Fin 32)
  /-- SWC_BUF_PEAK_READ (R355). A read of SWC_BUF_PEAK returns and clears the peak. -/
  | swcBufPeakRead
  /-- SWC_RB_DROP_READ (R355). A read of SWC_RB_DROP returns and clears binding drop counts. -/
  | swcRbDropRead (b : Fin 256)
  /-- WHEEL_TICK (R365). The timing wheel advances one 8 ns slot and serves its entries. -/
  | wheelTick
  /-- BUCKET_SWEEP (R361). The sweep refills each bucket at least once per 131,072 ticks. -/
  | bucketSweep
  /-- GATE_ENTRY_CHANGE (R369). A gate list moves to its next entry, or a staged list takes over at a cycle boundary. -/
  | gateEntryChange (p : Fin 17)
  /-- HIST_SAMPLE (R374). Every queue's depth and head-of-line delay are sampled into histograms. -/
  | histSample
  /-- HIST_SNAP (R375). A write of TRF_HIST_SEL with SNAP snapshots and may clear a histogram. -/
  | histSnap (m : Master) (v : Word)
  /-- TRF_TBL_WRITE (R376). TRF_TBL_CMD WRITE writes a shaper, meter or gate entry. -/
  | trfTblWrite (m : Master) (v : Word)
  /-- TRF_TBL_READ (R376). TRF_TBL_CMD READ reads the live entry. -/
  | trfTblRead (m : Master) (v : Word)
  /-- TRF_GATE_DROP_READ (R379). A read of TRF_GATE_DROP returns and clears the count. -/
  | trfGateDropRead (p : Fin 17)
  /-- TRF_RED_DROP_READ (R379). A read of TRF_RED_DROP returns and clears the count. -/
  | trfRedDropRead
  /-- BUFFER_REQUEST (R385). A request for a buffer is served within claim, from shared space or by fallback. -/
  | bufferRequest (pool : Fin 16) (owner : Fin 32)
  /-- BUFFER_TAKE (R387). A take adds one to a buffer's reference count. -/
  | bufferTake (a : BitVec 48)
  /-- BUFFER_DROP (R387). A drop subtracts one and frees the buffer at zero. -/
  | bufferDrop (a : BitVec 48)
  /-- DMA_START (R392). START runs a DMA channel's chain. -/
  | dmaStart (m : Master) (c : Fin 64) (v : Word)
  /-- DMA_STOP (R392). STOP stops a DMA channel at its next descriptor boundary. -/
  | dmaStop (m : Master) (c : Fin 64) (v : Word)
  /-- DMA_CLEAR (R392). CLEAR moves a DMA channel to IDLE. -/
  | dmaClear (m : Master) (c : Fin 64) (v : Word)
  /-- DMA_DESCRIPTOR_FETCH (R390). A DMA descriptor read returns and is checked. -/
  | dmaDescriptorFetch (c : Fin 64) (r : DmaRead)
  /-- DMA_BLOCK_END (R390). A DMA block is read and written, possibly ending a descriptor or chain. -/
  | dmaBlockEnd (c : Fin 64) (r : DmaRead) (writeFailed : Bool)
  /-- DMA_RETRY (R391). A failed DMA access is retried after 1 µs. -/
  | dmaRetry (c : Fin 64)
  /-- AUDIT_END (R396). The audit of a snapshot ends and reports any violation. -/
  | auditEnd (errs : List LedgerErr)
  /-- AUDIT_RELEASE (R396). A write of RELEASE releases the frozen snapshot. -/
  | auditRelease (m : Master) (v : Word)
  /-- BPM_POOL_REFUSED_READ (R398). A read of BPM_POOL_REFUSED returns and clears the count. -/
  | bpmPoolRefusedRead (n : Fin 16)
  /-- BPM_POOL_FALLBACKS_READ (R398). A read of BPM_POOL_FALLBACKS returns and clears the count. -/
  | bpmPoolFallbacksRead (n : Fin 16)
  /-- BPM_AUD_VIOL_READ (R398). A read of BPM_AUD_VIOL returns and clears the count. -/
  | bpmAudViolRead
  /-- CDC_POOL_EVICT_READ (R218). A read of CDC_POOL_EVICT returns and clears the count. -/
  | cdcPoolEvictRead
  /-- CMP_LATE_CNT_READ (R245). A read of CMP_LATE_CNT returns and clears the count. -/
  | cmpLateCntRead
  /-- CMP_OUT_MISSED_READ (R245). A read of CMP_OUT_MISSED returns and clears the count. -/
  | cmpOutMissedRead (o : Fin 128)
  /-- CMP_OUT_ST_SKIP_READ (R245). A read of CMP_OUT_ST_SKIP returns and clears the count. -/
  | cmpOutStSkipRead (o : Fin 128)
  /-- FAULT_MESSAGE (R411). A fault message is accepted, counted, reacted to and recorded. -/
  | faultMessage (m : Option FaultIn)
  /-- SEVERITY_WINDOW_END (R415). A source's window ends, its count returns to 0 and it stops being severe. -/
  | severityWindowEnd (src : Fin 256)
  /-- SELF_TEST_END (R422). A targeted self-test ends and the fault is classed transient or lasting. -/
  | selfTestEnd (r : Resource) (pass : Bool)
  /-- UNIT_RESET_END (R416). A unit reset ordered by the Snuffer ends. -/
  | unitResetEnd (u : UnitId)
  /-- RECOVERY_END (R439). RECOVERY finishes resets and rebuilds and ends in the resolved mode. -/
  | recoveryEnd
  /-- ICU_CLAIM_READ (R403). A read of ICU_CLAIM claims the selected source. -/
  | icuClaimRead (t : Fin 14)
  /-- ICU_COMPLETE (R404). A write completes the top source of a target's stack, or sends ICU_ORDER. -/
  | icuComplete (t : Fin 14) (v : Word)
  /-- ICU_PEND_SET (R409). Sets pending bits of the sources written as 1. -/
  | icuPendSet (w : Fin 32) (v : Word)
  /-- ICU_PEND_CLR (R409). Clears pending bits of the sources written as 1. -/
  | icuPendClr (w : Fin 32) (v : Word)
  /-- ICU_MASK_SET (R409). Masks the sources written as 1. -/
  | icuMaskSet (w : Fin 32) (v : Word)
  /-- ICU_MASK_CLR (R409). Unmasks the sources written as 1. -/
  | icuMaskClr (w : Fin 32) (v : Word)
  /-- SNUF_HALT (R427). A write of SNUF_CTRL.HALT orders HALT. -/
  | snufHalt (m : Master) (v : Word)
  /-- SNUF_FIRST_CLEAR (R420). A write of CLEAR clears the first-error record. -/
  | snufFirstClear (m : Master) (v : Word)
  /-- SNUF_RETEST (R424). A write with GO starts a retest of a retired, fenced or isolated resource. -/
  | snufRetest (m : Master) (v : Word)
  /-- SNUF_CORRECTED_READ (R433). A read of SNUF_CORRECTED returns and clears the count. -/
  | snufCorrectedRead
  /-- PATROL_SCRUB (R425). The patrol scrubber reads and corrects memory words. -/
  | patrolScrub (bank : Option (Fin 16)) (a : Nat)
  /-- FLICKER_TOGGLE (R428). FLICKER toggles every 1 ms while the liveness checks pass. -/
  | flickerToggle
  /-- TEST_UNLOCK (R429). A write to TEST_UNLOCK advances, completes or breaks the unlock sequence. -/
  | testUnlock (m : Master) (v : Word)
  /-- TEST_INJ_GO (R430). A write with GO injects a fault message. -/
  | testInjGo (m : Master) (v : Word)
  /-- PWR_MODE_REQ (R437). A write requests a mode. -/
  | pwrModeReq (m : Master) (v : Word)
  /-- MODE_TRANSITION_END (R436). A mode change completes its entry and exit times and the new mode is entered. -/
  | modeTransitionEnd
  /-- SENSOR_SAMPLE (R447). Sensors are sampled each millisecond, beginning caps, THERM_N or shutdown. -/
  | sensorSample (r : SensorReading)
  /-- CAP_END (R443). A cap ends after 10 s below its release threshold. -/
  | capEnd
  /-- CAP_GATE_MORE (R445). Each further second under a cap gates one more codec core. -/
  | capGateMore
  /-- RAIL_FAULT (R446). A regulator's protection trips and the device enters PILOT. -/
  | railFault (rail : Fin 10) (kind : Fin 3)
  /-- BROWN_OUT (R457). VIN falls below 2.60 V and load is shed. -/
  | brownOut
  /-- VIN_LOSS (R436). VIN falls below 2.30 V and the device enters OFF. -/
  | vinLoss
  /-- VIN_GOOD (R436). VIN has held at or above 2.70 V for 10 ms and OFF exit begins. -/
  | vinGood
  /-- BOOT_STEP_END (R440). A boot step ends and the next starts. -/
  | bootStepEnd (b : BootFacts)
  /-- TIME_WAIT_EXPIRY (R440). The TIME_WAIT of boot step 6 runs out with DTS running free. -/
  | timeWaitExpiry
  /-- PILOT_WAKE (R442). An edge of the PILOT_WAKE ball starts a wake or leaves STANDBY. -/
  | pilotWake (rising : Bool)
  /-- PILOT_TIMER (R442). The Pilot timer runs out and starts a wake. -/
  | pilotTimer
  /-- SMB_WAKE (R442). A sideband write addressed to the device wakes it in PILOT. -/
  | smbWake
  /-- PORST_N_ASSERT (R472). PORST_N taken low returns the device to PILOT. -/
  | porstNAssert
  /-- PORST_N_RELEASE (R472). PORST_N release taken starts the device at boot step 1 and samples straps. -/
  | porstNRelease (straps : BitVec 4)
  /-- WARM_RST_N_ASSERT (R473). WARM_RST_N low for 64 edges holds the device in warm reset. -/
  | warmRstNAssert
  /-- WARM_RST_N_RELEASE (R473). WARM_RST_N release runs the warm start. -/
  | warmRstNRelease
  /-- PCIE_PERST_N_ASSERT (R474). PCIE_PERST_N assertion resets the PCIe port and declares host loss. -/
  | pciePerstNAssert
  /-- PCIE_PERST_N_RELEASE (R474). PCIE_PERST_N release starts link training, or wakes the device in PILOT. -/
  | pciePerstNRelease
  /-- REFCLK_SYS_LOSS (R471). REFCLK_SYS shows no edge for one CLK32K period and the device shuts down to PILOT. -/
  | refclkSysLoss
  /-- REFCLK_LOSS (R471). A REFCLK_ETH or REFCLK_PCIE reference is lost. -/
  | refclkLoss (r : RefClock)
  /-- SMB_STUCK (R479). A sideband line held low over 35 ms resets the sideband controller. -/
  | smbStuck
  /-- FABRIC_ACCESS_TIMEOUT (R478). The fabric access timer expires and the access completes with an error. -/
  | fabricAccessTimeout (domain : Fin 9) (master : Fin 4) (index : Nat) (a : Nat)
  /-- SYS_FABRIC_CNT_READ (R488). A read of SYS_FABRIC_CNT returns and clears the count. -/
  | sysFabricCntRead
  /-- PWR_PIN_PEAK_READ (R462). A read of PWR_PIN_PEAK returns and clears the peak. -/
  | pwrPinPeakRead
  /-- JTAG_INSTRUCTION_LOAD (R480). An instruction is loaded into the TAP, and EXTEST, CLAMP or HIGHZ order HALT. -/
  | jtagInstructionLoad (code : BitVec 6)
  /-- READ_SENSORS (R463). Mailbox command returning the sensor readings. -/
  | readSensors
  /-- DEBUG_CHALLENGE (R461). Mailbox command returning a nonce and the serial. -/
  | debugChallenge (nonce : List Byte)
  /-- DEBUG_UNLOCK (R461). Mailbox command that verifies a signature and unlocks debug. -/
  | debugUnlock (good : Bool)
  /-- NVS_READ (R463). Mailbox command reading NVS bytes. -/
  | nvsRead
  /-- SET_ENDPOINT_ID (R449). MCTP control command setting the endpoint ID. -/
  | setEndpointId (op : Fin 4) (eid : Byte)
  /-- GET_ENDPOINT_ID (R449). MCTP control command returning the endpoint ID. -/
  | getEndpointId
  /-- GET_ENDPOINT_UUID (R449). MCTP control command returning the endpoint UUID. -/
  | getEndpointUuid
  /-- GET_MCTP_VERSION_SUPPORT (R449). MCTP control command returning version support. -/
  | getMctpVersionSupport (msgType : Byte)
  /-- GET_MESSAGE_TYPE_SUPPORT (R449). MCTP control command returning message type support. -/
  | getMessageTypeSupport
  /-- SETTID (R449). PLDM base command setting the terminus ID. -/
  | setTid (tid : Byte)
  /-- GETTID (R449). PLDM base command returning the terminus ID. -/
  | getTid
  /-- GETPLDMVERSION (R449). PLDM base command returning a version. -/
  | getPldmVersion (type : Byte)
  /-- GETPLDMTYPES (R449). PLDM base command returning supported types. -/
  | getPldmTypes
  /-- GETPLDMCOMMANDS (R449). PLDM base command returning supported commands. -/
  | getPldmCommands (type : Byte)
  /-- GETPDRREPOSITORYINFO (R449). PLDM platform command returning repository information. -/
  | getPdrRepositoryInfo
  /-- GETPDR (R449). PLDM platform command returning a PDR. -/
  | getPdr (handle : Word)
  /-- GETSENSORREADING (R449). PLDM platform command returning a numeric sensor reading. -/
  | getSensorReading (id : BitVec 16)
  /-- GETSTATESENSORREADINGS (R449). PLDM platform command returning state sensor readings. -/
  | getStateSensorReadings (id : BitVec 16)
  /-- SETSTATEEFFECTERSTATES (R437). PLDM platform command setting a state effecter, such as the mode request. -/
  | setStateEffecterStates (id : BitVec 16) (state : Byte)
  /-- SETNUMERICEFFECTERVALUE (R449). PLDM platform command setting a numeric effecter, such as PCAP. -/
  | setNumericEffecterValue (id : BitVec 16) (v : Word)
  /-- GETNUMERICEFFECTERVALUE (R449). PLDM platform command returning a numeric effecter value. -/
  | getNumericEffecterValue (id : BitVec 16)
  /-- SETEVENTRECEIVER (R449). PLDM platform command setting the event receiver. -/
  | setEventReceiver (enable : Byte) (addr : Byte)
  /-- QUERYDEVICEIDENTIFIERS (R449). PLDM firmware update command returning device identifiers. -/
  | queryDeviceIdentifiers
  /-- GETFIRMWAREPARAMETERS (R449). PLDM firmware update command returning firmware parameters. -/
  | getFirmwareParameters
  /-- REQUESTUPDATE (R450). PLDM command entering update mode. -/
  | requestUpdate
  /-- PASSCOMPONENTTABLE (R450). PLDM command passing the component table. -/
  | passComponentTable (cls comp : BitVec 16)
  /-- UPDATECOMPONENT (R450). PLDM command starting an update of one component image. -/
  | updateComponent (cls comp : BitVec 16) (size : Word)
  /-- REQUESTFIRMWAREDATA (R450). PLDM firmware data response received for a component transfer. -/
  | requestFirmwareData (data : List Byte)
  /-- TRANSFERCOMPLETE (R450). PLDM transfer-complete exchange for a component. -/
  | transferComplete (ok : Bool)
  /-- VERIFYCOMPLETE (R450). PLDM verify-complete exchange for a component. -/
  | verifyComplete (e : ImageEnd)
  /-- APPLYCOMPLETE (R450). PLDM apply-complete exchange for a component. -/
  | applyComplete (ok : Bool)
  /-- ACTIVATEFIRMWARE (R450). PLDM command reporting activation at the next start. -/
  | activateFirmware (selfContained : Bool)
  /-- GETSTATUS (R450). PLDM command returning update status. -/
  | getStatus
  /-- CANCELUPDATECOMPONENT (R450). PLDM command cancelling a component update. -/
  | cancelUpdateComponent
  /-- CANCELUPDATE (R450). PLDM command cancelling the update. -/
  | cancelUpdate
  /-- CLK10M_IN_EDGE (R42). A valid CLK10M_IN edge is a frequency reference event that can qualify the reference and hold off HOLDOVER. -/
  | clk10mInEdge
  /-- PTP_INTERVAL_EXPIRY (R39). An announce, Sync or delay request interval of an enabled PTP port runs out, and firmware sends the message, such as the Announce of a MASTER port with its clock quality. -/
  | ptpIntervalExpiry (port : Fin 17) (kind : Fin 3)
  /-- PCIE_LINK_UP (R474). PCIe link training ends and the link is up, so configuration requests are served and held completions can be written. -/
  | pcieLinkUp (width : Fin 17) (speed : Fin 6)
  /-- REFCLK_RETURN (R471). A lost REFCLK_ETH, REFCLK_PCIE or REFCLK_SYS reference returns, so ports may train again and a held wake may go on after 10 ms. -/
  | refclkReturn (r : RefClock)
  /-- NIGHT_CORE_CLOCK_GATE (R438). In NIGHT, a codec core that has had no job for 100 ms is clock-gated while it stays IN_SERVICE. -/
  | nightCoreClockGate (c : Fin 8)
  /-- RECOVERY_TIMEOUT (R439). A RECOVERY that has not ended within 1 s is carried out as HALT. -/
  | recoveryTimeout
  /-- LANTERN_WATCHDOG (R428). The Lantern watchdog is not served within 10 ms and expires, so FLICKER freezes and fault 0x001 kind WATCHDOG is sent with a minimum reaction of UNIT_RESET. -/
  | lanternWatchdog
  /-- PSEUDO_CHANNEL_SPARED (R422). The copy of a DRAM pseudo-channel to a spare pseudo-channel, made while service continues, ends and PC_SPARED is sent. -/
  | pseudoChannelSpared (stack : Fin 2) (pc : Fin 32)
deriving DecidableEq, Repr

end Sys2Proof
end

