-- ==== Sys2Proof/Config.lean ====
section
/-!
DEFINITION. Config.lean: what one device or its firmware fixes and the spec does not, and the free values.
Each is opaque: no proof can see its value, so a claim holds whatever it is (assumption 6 and assumption 4).
-/
namespace Sys2Proof.Config

/-- IDENT_ROM.BUILD, fused at manufacture (R32). -/
opaque romBuild : BitVec 16
/-- IDENT_SERIAL, fused at manufacture (R32). -/
opaque serial : BitVec 64
/-- The 64-bit word of the mask ROM at an offset. -/
opaque romWord : Nat → Byte
/-- The value firmware loads into TIME_PORT_LAT of a port at its start, by its lane mode (R40, Table 02-8 reset
"Firmware"). -/
opaque portLat (port mode : Nat) : BitVec 32
/-- The clock identity that PTP messages carry: the spec names the standard and not the identity (assumption 33). -/
opaque ptpIdentity : BitVec 64
/-- The addresses of a port in the PTP messages it sends (assumption 33). -/
opaque portMac : Nat → BitVec 48
/-- The IPv4 address of a port. -/
opaque portIp4 : Nat → BitVec 32
/-- The IPv6 address of a port. -/
opaque portIp6 : Nat → BitVec 128
/-- The bucket of a key (VID · 2^48 + MAC) in the MAC table: the hash is the device's own (R336). -/
opaque macHash : Nat → Nat
/-- The version that out-of-band management reports: of MCTP (0), of MCTP control (1), of PLDM over MCTP (2), and of PLDM type
t (16 + t); the spec names the standards without their versions (assumption 15). -/
opaque oobVersion : Nat → BitVec 32
/-- The endpoint's UUID, which the spec does not give (assumption 15). -/
opaque uuid : BitVec 128
/-- The bytes of a PDR after the ID of its sensor or effecter, which the spec does not give (assumption 15). -/
opaque pdrBody : Nat → List (BitVec 8)
/-- Whether the average of two chroma samples whose sum is odd is rounded up (R132, assumption 36). -/
opaque roundsUp : Nat → Nat → Bool
/-- A sample of the codec cores' polyphase downscaler: from so many samples to so many, at a place, from eight samples; the spec does
not give its coefficients (R172, assumption 36). -/
opaque downscale : Nat → Nat → Nat → List Nat → Nat
/-- A sample between samples: the filter of a format at eighths of a sample across and down, from an 8 × 8 window (R172). -/
opaque interpolate : Nat → Nat → Nat → List Nat → Nat
/-- λ as it follows from a block's QP (R172). -/
opaque lambda : Nat → Nat
/-- The estimated bits of a vector (R172). -/
opaque vectorBits : Int → Int → Nat
/-- How far a reference is padded beyond the picture's edges, in samples (R172). -/
opaque padding : Nat
/-- A free value: one the spec leaves open, drawn from a counter of the state (assumption 4). -/
opaque freeNat : Nat → Nat

end Sys2Proof.Config
end

