-- ==== Sys2Proof/Machine/CoreTypes.lean ====
section
/-!
DEFINITION. Machine/CoreTypes.lean: the state of device time, of the staging controller, of the event log and of the
messages the device sends (chapters 1, 2 and 15).
-/
namespace Sys2Proof.Machine

/-- The twelve modes of Table 00-3 (R5). -/
inductive Mode where
  | off | pilot | boot | provision | service | night | limited | continuity | standby | recovery | update | test
deriving DecidableEq, Repr

/-- What the device sends on its ports, newest first in `State.out`: only the fact of it is kept. -/
inductive OutMsg where
  /-- An MSI-X message of a function on a vector of that function's table (R82, R402). -/
  | msix (fn vector : Nat)
  /-- An uncorrectable or correctable error reported on PCIe. -/
  | aer (severity : Nat)
  /-- A frame leaves an external or management port. -/
  | frame (port : Nat) (bytes : List Byte) (stamp : DWord)
  /-- A frame leaves damaged: its frame check sequence is inverted (R332). -/
  | badFrame (port : Nat) (bytes : List Byte)
  /-- A PTP message of a MASTER port (R39): Announce 0, Sync 1, delay request 2. -/
  | ptp (port kind : Nat) (clockClass clockAccuracy timeSource : Nat)
  /-- A pulse on PPS_OUT begins (R43). -/
  | ppsOut (dts : DWord)
  /-- Bytes sent by a peripheral controller on a subchannel (R269, R271): on I2C the address byte first. -/
  | peripheral (subchannel : Nat) (bytes : List Byte)
  /-- UART_DE of a UART is driven around what it sends: so many bit times before the first start bit and after the last stop bit
  (R271). -/
  | driveEnable (uart lead lag : Nat)
  /-- A line condition or pulse that a CONTROL CCW orders (R270). -/
  | line (subchannel kind : Nat)
  /-- The words of host memory that a DMA write carries as poisoned TLPs, by address in units of 8 bytes (R391). -/
  | poisonedTlp (words : List Nat)
  /-- A reply on the SMBus sideband or the VDM route (R449). -/
  | mgmt (bytes : List Byte)
  /-- A reply of a Wick debug access (R324). -/
  | debug (core : Nat) (value : Nat)
deriving DecidableEq, Repr

/-- One record of an area of the NVS (Table 15-8), newest first in its area, and where in the area it starts. -/
structure LogRec where
  type : Nat
  fn : Nat
  seq : Nat
  dts : DWord
  payload : List Byte
  pos : Nat
deriving DecidableEq, Repr

/-- One time reference of Table 02-2: when it was enabled, its last valid event, the start of its current run of
valid events (all in units of 1/16 ns of elapsed REFCLK_SYS time), and whether it is qualified or lost (R42). -/
structure RefState where
  enabledAt : Option Nat
  lastEvent : Option Nat
  runStart : Option Nat
  qualified : Bool
  lost : Bool
deriving DecidableEq, Repr

/-- A step of DTS that waits (R51): its offset in units, the DTS at which the offset was measured, whether it waits
for NIGHT, and its cause as the log codes it (Table 15-13, type 5). -/
structure PendingStep where
  delta : Int
  measuredAt : Int
  needsNight : Bool
  cause : Nat
deriving DecidableEq, Repr

/-- One tick group (R44 to R46): the number of its last tick in 62 bits and the number of the next that occurs. -/
structure GroupState where
  last : BitVec 62
  next : Int
deriving DecidableEq, Repr

/-- The state of a PTP port (R39, R43). -/
inductive PtpPort where
  | listening | slave | master | passive
deriving DecidableEq, Repr

/-- The time unit (chapter 2). -/
structure TimeState where
  /-- Elapsed REFCLK_SYS time in units of 1/16 ns: the model's one clock of intervals (assumption 2). -/
  osc : Nat
  /-- Elapsed DTS units, slews included and steps left out (R256). -/
  run : Nat
  dts : DWord
  era : BitVec 16
  hiShadow : Word
  ptp : RefState
  pps : RefState
  clk10m : RefState
  /-- TIME_STATUS.REF: 0 none, 1 PTP, 2 PPS_IN with CLK10M_IN, 3 PPS_IN, 4 CLK10M_IN. -/
  selected : Nat
  /-- The last measured offset in units. -/
  offset : Int
  freqAdj : Word
  /-- What the frequency correction has not yet made of a whole unit, in 1/65,536,000,000 of one (R42). -/
  freqRem : Int
  utc : BitVec 19
  gmClass : BitVec 8
  gmAccuracy : BitVec 8
  gmSource : BitVec 8
  /-- A PTP or PPS_IN reference has been qualified since PORST_N (R493). -/
  traceable : Bool
  /-- When the last PTP or PPS_IN reference was lost (R493). -/
  traceLostAt : Nat
  holdover : Bool
  holdoverAt : Nat
  hoSpecPassed : Bool
  /-- When the last reference was disabled or boot step 6 ended without one, if HOLDOVER is still to be set (R43). -/
  noRefSince : Option Nat
  slewing : Bool
  slewLeft : Int
  step : Option PendingStep
  setRej : Bool
  groups : Vector GroupState 4
  stepOld : DWord
  stepNew : DWord
  stepDisp : Word
  stepCnt : Word
  /-- The overrun counts of the functions (R49). -/
  overruns : Table Nat
  /-- The PTP ports that are not listening. -/
  ptpPorts : Table PtpPort
  /-- When the slave port heard the first valid Sync of the current run of Announces (Table 02-2). -/
  ptpSync : Option Nat
  /-- The sequence number of the next PTP message, by 16 × port + message type. -/
  ptpSeq : Table Nat
  /-- PTP event stamps not yet taken (Table 02-7): port and stamp. -/
  stamps : List (Nat × DWord)
  /-- While a pulse is on PPS_OUT: when it ends. -/
  ppsHigh : Option Nat
  /-- The last DTS second for which PPS_OUT pulsed. -/
  ppsSecond : Int
deriving DecidableEq, Repr

/-- The stage states of Table 01-6. -/
inductive StageSt where
  | idle | opened | checking | checked | failed | armed | applied | cancelled
deriving DecidableEq, Repr

/-- The stage result codes of Table 01-7. -/
inductive StageCode where
  | pass | gateSum | shaperRate | poolReserve | tickRate | range | reference | admission | notChecked | late
  | conflict | busy | unitAbort
deriving DecidableEq, Repr

/-- The route through which a master holds the session (R27). -/
inductive Route where
  | reg | queue (n : Nat) | channel
deriving DecidableEq, Repr

/-- The instant of an armed change (R23). -/
inductive Armed where
  | tick (g : Fin 4) (k : Int)
  | dts (d : DWord)
deriving DecidableEq, Repr

/-- Who waits for the end of a check or of an apply (R115, R261): a command slot or a channel. -/
inductive Waiter where
  | slot (n : Nat)
  | channel (c : Nat) (async : Bool)
deriving DecidableEq, Repr

/-- A staged table entry: 0 the switch's tables, 1 the traffic unit's; the TABLE code; the index. A MAC entry, which is
found by its key, has (VID · 2^48 + MAC + 1) · 65,536 added to the index. -/
structure EntryKey where
  unit : Nat
  table : Nat
  index : Nat
deriving DecidableEq, Repr

/-- An object's setting that orders of two masters may contradict over (R28): the mode, an output's plane, and the
aggregation of a completion ring, which its owner and the physical function may set (Table 04-10). -/
inductive Setting where
  | mode
  | plane (output plane : Nat)
  | aggregation (ring : Nat)
deriving DecidableEq, Repr

/-- An order that set a setting, kept for one period of group A for R28's comparison with later orders: its opcode, its
DTS, the instant in elapsed DTS units, and the number of the plane update it made. -/
structure Order where
  setting : Setting
  value : Nat
  master : Master
  op : Nat
  dts : DWord
  ranAt : Nat
  id : Nat
deriving DecidableEq, Repr

/-- The staging controller (R18 to R34). -/
structure StageState where
  st : StageSt
  code : StageCode
  holder : Option (Master × Route)
  /-- When the holder's session was claimed (DTS), for the log of a CONFLICT. -/
  claimedAt : DWord
  failAddr : BitVec 23
  failItem : BitVec 16
  armed : Option Armed
  /-- Staging views that differ from the live view: live-view offset and staged value. -/
  regs : Table (Option Word)
  /-- Staged table entries. -/
  entries : List (EntryKey × List Byte)
  checkWaiter : Option Waiter
  applyWaiter : Option Waiter
  winner : Option Master
  loser : Option Master
  conflictDts : DWord
  orders : List Order
  /-- Applied values of registers whose unit's clock was stopped at the instant: they are swapped in as it returns (R25). -/
  late : Table (Option Word)
  /-- The fabric cycle of the Lantern core's last plain register write, and the offsets it wrote in it (R29). -/
  lanternCycle : Nat
  lanternWrites : List Nat
deriving DecidableEq, Repr

end Sys2Proof.Machine
end

