-- ==== Sys2Proof/Machine/RingTypes.lean ====
section
/-!
DEFINITION. Machine/RingTypes.lean: the state of the queue manager and of the commands it has accepted
(chapters 3 and 4).
-/
namespace Sys2Proof.Machine

/-- The queue and ring states of Table 03-6. -/
inductive QState where
  | absent | active | error | frozen | draining
deriving DecidableEq, Repr

/-- An entry in a queue's entry cache (R71): its first slot, its length in slots, its bytes, whether it is a PAD,
whether its header is faulty (R68), and whether the data it came in was poisoned (Table 03-9). -/
structure Cached where
  pos : Nat
  slots : Nat
  bytes : List Byte
  pad : Bool
  fault : Bool
  poisoned : Bool
deriving DecidableEq, Repr

/-- A submission queue (R61 to R76). -/
structure Sq where
  state : QState
  base : Nat
  size : Nat
  cq : Nat
  weight : Nat
  burst : Nat
  ordered : Bool
  head : Nat
  tail : Nat
  seq : BitVec 16
  cache : List Cached
  /-- The fetch that met a completion timeout has been retried (R93). -/
  retried : Bool
  /-- A recorded INVALIDATE (R88). -/
  invalidate : Bool
deriving DecidableEq, Repr

/-- A queue that does not exist. -/
def Sq.absent : Sq := ⟨.absent, 0, 0, 0, 0, 0, false, 0, 0, 0, [], false, false⟩

/-- A completion ring (R77 to R83). -/
structure Cq where
  state : QState
  base : Nat
  size : Nat
  vector : Nat
  aggCount : Nat
  aggTime : Nat
  /-- AGG_COUNT and AGG_TIME as set, which take effect at the next posted completion (Table 04-10). -/
  aggNext : Option (Nat × Nat)
  head : Nat
  tail : Nat
  phase : Bool
  /-- Completions posted since the last message that count towards it (R82). -/
  unsignalled : Nat
  /-- When the oldest of them was posted. -/
  oldestAt : Option Nat
  /-- The ring is full: set once per full event (R79). -/
  full : Bool
  /-- The slots whose completions are to be written again, in order (R89, R93), and from when. -/
  repost : List Nat
  repostAt : Nat
  /-- Frozen by a failed re-post (R93), not by host loss. -/
  writeFrozen : Bool
deriving DecidableEq, Repr

/-- A ring that does not exist. -/
def Cq.absent : Cq := ⟨.absent, 0, 0, 0, 0, 0, .none, 0, 0, true, 0, .none, false, [], 0, false⟩

/-- The common status codes of Table 04-5. -/
inductive Status where
  | ok | okRedone | okConcealed | invalidOpcode | invalidField | invalidQueue | noResource | busy | conflict
  | notPermitted | admissionDenied | aborted | deadlineMissed | evicted | dataError | mediaError | busError
  | deviceFault
deriving DecidableEq, Repr

/-- What a completion reports (Table 03-5). -/
structure Completion where
  status : Status
  result0 : Word
  result1 : Word
  detail : Option Word
  dts : DWord
deriving DecidableEq, Repr

/-- How far an accepted entry has come. -/
inductive Phase where
  /-- Dispatched, not yet carried out by firmware. -/
  | accepted
  /-- Carried out or under way: a unit or a wait will finish it. -/
  | running
  /-- Finished: its completion is held in the slot (R79). -/
  | finished
  /-- Its completion is in the ring, retained until the host's head passes it (R80). -/
  | posted
deriving DecidableEq, Repr

/-- A command slot in use (R73). -/
structure Slot where
  fn : Nat
  sq : Nat
  cq : Nat
  cid : Word
  seq : BitVec 16
  noInt : Bool
  bytes : List Byte
  phase : Phase
  completion : Completion
  /-- The order in which commands were accepted; once finished, the order in which they finished. -/
  finishNo : Nat
  /-- The ring position and phase the completion was written with (R80). -/
  ringPos : Nat
  ringPhase : Bool
  /-- SQHEAD as written. -/
  sqHead : Nat
  /-- The command's job was redone on another core (R86). -/
  redone : Bool
  /-- Its completion has been written to the ring: a write that failed leaves it retained, to be written again (R93). -/
  written : Bool
deriving DecidableEq, Repr

/-- A command that waits until completions have been written (R84, R116): its slot, the slots still to be written, how
many of them completed with ABORTED, and RESULT0 where that is not the count. -/
structure Barrier where
  slot : Nat
  on : List Nat
  aborted : Nat
  result0 : Option Nat
deriving DecidableEq, Repr

/-- The position of the arbiter within its round (R74). -/
structure Arb where
  /-- The next function whose admin queue is visited; 17 once the credit of the I/O queues is set. -/
  admin : Nat
  /-- The queues skipped for the rest of the round (R75). -/
  skipped : List Nat
  /-- The credit of each I/O queue in this round and its burst, as they stood when the round set them (R74). -/
  credit : Table (Nat × Nat)
  /-- Key of the next I/O queue this pass visits (function · 4,096 + queue). -/
  pos : Nat
  /-- The queue being visited and how many entries the visit may still dispatch. -/
  visit : Option (Nat × Nat)
  /-- This pass has dispatched an entry. -/
  served : Bool
deriving DecidableEq, Repr

/-- The queue manager (chapter 3). Queues and rings are keyed by function · 4,096 + number. -/
structure QmState where
  sqs : Table Sq
  cqs : Table Cq
  slots : Table (Option Slot)
  arb : Arb
  barriers : List Barrier
  finishNo : Nat
  cqFull : Bool
  slotsOut : Bool
  hostLost : Bool
  /-- RDY, AQ_ERR and a reset in progress (R85), per function. -/
  rdy : BitVec 16
  /-- EN was set and the admin queue is to become ready (R94). -/
  aqPending : BitVec 16
  aqErr : BitVec 16
  resetting : BitVec 16
  /-- QMGR_FN_LOST: a virtual function has missed its heartbeat (R90). -/
  fnLost : BitVec 16
  /-- The virtual functions whose queues a missed heartbeat holds FROZEN until their next heartbeat (R90). -/
  vfLost : BitVec 16
  linkUp : Bool
  linkWidth : Nat
  linkSpeed : Nat
  /-- The last heartbeat of each function, in elapsed units. -/
  beats : Table Nat
  dbErr : Nat
  dbErrFn : Nat
  dbErrCq : Bool
  dbErrQ : Nat
  orphans : Word
  /-- The generation of each object index: keyed by type · 65,536 + index (R98). -/
  gens : Table Nat
  /-- The decode and encode shares of the functions (R113). -/
  decShare : Table Nat
  encShare : Table Nat
  /-- The mode last requested, whether that request waits, and the status it completed with (Table 04-10). -/
  modeReq : Nat
  modeReqPending : Bool
  modeReqStatus : Nat
deriving DecidableEq, Repr

end Sys2Proof.Machine
end

