-- ==== Sys2Proof/Machine/CodecTypes.lean ====
section
/-!
DEFINITION. Machine/CodecTypes.lean: the state of the decode and encode streams, of their jobs and of the codec-core
pool (chapters 5 to 7).
-/
namespace Sys2Proof.Machine

/-- A target tick reference (R47), resolved: a group and a tick number in full. -/
structure Target where
  group : Fin 4
  tick : Int
deriving DecidableEq, Repr

/-- Where a job came from and who learns its end. -/
inductive JobOrigin where
  | slot (n : Nat)
  | channel (c : Nat) (async : Bool)
  /-- A flip of the stream's source output (R168). -/
  | flip
deriving DecidableEq, Repr

/-- How far a codec job has come. -/
inductive JobPhase where
  | waiting
  | running
  /-- To be redone on another core (R206). -/
  | redo
  /-- A decoded picture that waits for its presentation tick (R141). -/
  | ended
deriving DecidableEq, Repr

/-- What a decode job that has ended reports once its presentation tick is known (R121, Table 05-11): the status
record's bytes before and after PRES_TICK. -/
structure JobEnd where
  status : Status
  result1 : Nat
  detail : Option Nat
  head : List Byte
  tail : List Byte
deriving DecidableEq, Repr

/-- A codec job: a DECODE, an ENCODE or a flipped frame to encode. -/
structure CodecJob where
  id : Nat
  encode : Bool
  stream : Nat
  origin : JobOrigin
  fn : Nat
  seq : BitVec 16
  target : Target
  /-- The target as first resolved (R48: RETARGET allows three ticks). -/
  firstTarget : Int
  missed : Bool
  /-- DISCARD applies: never presented, or stopped (R48). -/
  discarded : Bool
  /-- A miss of this job is not counted: a step shortened its interval (R52). -/
  uncounted : Bool
  redone : Bool
  phase : JobPhase
  /-- Cores that run it, the lead first, and cores it holds until it has all its parts (R204). -/
  cores : List Nat
  parts : Nat
  startedAt : DWord
  /-- The elapsed time at its last start: a redone job starts anew (R206). -/
  runAt : Nat
  /-- Its function has been reset: nothing more is written to host memory for it (R85). -/
  mute : Bool
  budgetAbort : Bool
  /-- Input address and length; for an encode job the frame, the output address and size. -/
  addr : DWord
  length : Nat
  out : DWord
  outSize : Nat
  flags : Byte
  statusAddr : DWord
  /-- The pool entry of its picture, once it has a buffer; of its display copy at the end. -/
  entry : Option Nat
  /-- For an encode job: the reconstruction buffers it writes. -/
  recon : List Nat
  ends : Option JobEnd
  /-- For an encode job: the source tick, the damage mask of the top-rung blocks (bit 128·row + column), the frame held
  as its source, and whether damage was carried in. -/
  sourceTick : Int
  damage : Nat
  frame : Option Nat
  carried : Bool
  /-- The colour tags of its source frame (R166): primaries, transfer, matrix, and 1 for full range. -/
  colour : List Byte
deriving DecidableEq, Repr

/-- One entry of a stream's reference pool (Table 05-4) with the marks of Table 05-5. -/
structure PicEntry where
  buffer : Option Nat
  decoding : Bool
  refShort : Bool
  refLong : Bool
  outputPending : Bool
  /-- Holders other than the stream (R137): HELD is set while it is not 0. -/
  holders : Nat
  concealed : Bool
  poisoned : Bool
  grain : Bool
  tenBit : Bool
  ended : Bool
  order : Word
  cropXy : Word
  cropWh : Word
  colour : List Byte
  /-- The presentation tick, once fixed. -/
  presTick : Option Int
  width : Nat
  height : Nat
deriving DecidableEq, Repr

/-- An entry in which no picture is. -/
def PicEntry.free : PicEntry :=
  ⟨.none, false, false, false, false, 0, false, false, false, false, false, 0, 0, 0, [], .none, 0, 0⟩

/-- The states of Table 05-8. -/
inductive StreamSt where
  | active | evicted | closing
deriving DecidableEq, Repr

/-- A decode stream (R119, R136, R146). -/
structure DecStream where
  st : StreamSt
  fn : Nat
  gen : Nat
  group : Fin 4
  retarget : Bool
  format : Nat
  profile : Nat
  level : Nat
  cls : Nat
  width : Nat
  height : Nat
  rate : Nat
  tenBit : Bool
  kbps : Nat
  cost : Nat
  cycles : Nat
  opened : Nat
  /-- It has been evicted: its units stay released while it closes (R199). -/
  evicted : Bool
  /-- The cores that ran its previous job (R203). -/
  lastCores : List Nat
  /-- The parameter sets and sequence headers received on it (R129, R133). -/
  sets : List PicSet
  pool : Nat
  dpbMax : Nat
  reserved : Nat
  entries : List PicEntry
  seqNext : BitVec 16
  /-- The entry on show (R141). -/
  current : Option Nat
  curW : Nat
  curH : Nat
  concealed : Word
  skipped : Word
  decoded : Word
  overruns : Word
  credit : Nat
  closer : Option Nat
  drain : Bool
deriving DecidableEq, Repr

/-- The hypothetical reference decoder that a rung signals (Table 06-8): cbr_flag, bit rate in bit/s, CPB size in bits. -/
structure Hrd where
  cbr : Bool
  rate : Nat
  size : Nat
deriving DecidableEq, Repr

/-- A unit of a coded frame: a NAL unit of H.264 or HEVC or an OBU of AV1, with what the spec has it say (R164 to R166, R179, R181,
R182, R192). -/
inductive CodedUnit where
  /-- HEVC: the access unit delimiter of every picture (Table 06-2). -/
  | delimiter (key : Bool)
  /-- AV1: the start of a temporal unit in a stream written to memory. -/
  | temporalDelimiter
  | vps
  /-- H.264 and HEVC: pictures are never reordered (R164). -/
  | sps (reorder : Nat) (colour : List Byte) (hrd : Option Hrd)
  | pps (tileCols : Nat)
  /-- AV1: the sequence header with the screen content tools. -/
  | sequence (screen : Bool) (colour : List Byte) (hrd : Option Hrd)
  | bufferingPeriod
  | pictureTiming
  | recoveryPoint (frames : Nat)
  /-- The slice of a picture, or the frame of AV1 with show_frame and allow_high_precision_mv. -/
  | frame (key shown : Bool) (tileCols : Nat) (highPrecision : Bool)
  /-- Filler with a number of filler bytes. -/
  | filler (bytes : Nat)
  /-- HEVC end of sequence, H.264 end of stream. -/
  | endOfSequence
deriving DecidableEq, Repr

/-- A motion vector in eighths of a luma sample. -/
structure Vec where
  x : Int
  y : Int
deriving DecidableEq, Repr

/-- The vector that a search found for a partition and a reference (R172). -/
structure Motion where
  x : Nat
  y : Nat
  w : Nat
  h : Nat
  ref : Nat
  v : Vec
deriving DecidableEq, Repr

/-- Rate control and packetisation state of one rung (Table 06-9). -/
structure RungState where
  width : Nat
  height : Nat
  kbps : Nat
  sink : Option Nat
  /-- The pool its reconstruction buffers come from (R184). -/
  pool : Nat
  maxKbps : Nat
  cpbBits : Nat
  pktMax : Nat
  hdr : List Byte
  cpb : Word
  rcQ : Word
  rcErr : DWord
  /-- Device addresses of the references, reference 0 first. -/
  refs : List Nat
  rtpSeq : BitVec 16
  ipId : BitVec 16
  /-- Settle passes left per 64 × 64 block, and the mask of the carried damage, both by 128·row + column (R185). -/
  settle : Table Nat
  carried : Nat
  /-- The source ticks of the references (R172), and the QP that a block had when last DAMAGED (R176). -/
  refTicks : List Int
  dmgQp : Table Nat
  /-- The vectors and the units of its last frame. -/
  vectors : List Motion
  units : List CodedUnit
deriving DecidableEq, Repr

/-- A checkpoint (Table 06-9): VALID, the sequence of the frame it precedes, and all that coding it needs. -/
structure Checkpoint where
  valid : Bool
  seq : BitVec 16
  keyNext : Bool
  sinceKey : Nat
  refreshPos : Option Nat
  dts : DWord
  rungs : List RungState
deriving DecidableEq, Repr

/-- An RTP packet waiting to be handed to its send queue (R189): the stream and the core it comes from, its function, the queue, the
frame, the buffer of the bitstream that it is part of (R184), and when it is released. -/
structure Packet where
  stream : Nat
  core : Nat
  fn : Nat
  queue : Nat
  bytes : List Byte
  buffer : Option Nat
  due : Nat
deriving DecidableEq, Repr

/-- The records of a frame that ended before an earlier one of its stream (R190): the job, and the bytes of each rung's record. -/
structure OwedRecords where
  job : Nat
  mute : Bool
  records : List (List Byte)
deriving DecidableEq, Repr

/-- An encode stream (R119, R163 to R194). -/
structure EncStream where
  st : StreamSt
  fn : Nat
  gen : Nat
  group : Fin 4
  retarget : Bool
  format : Nat
  profile : Nat
  level : Nat
  cls : Nat
  width : Nat
  height : Nat
  rate : Nat
  tenBit : Bool
  rcMode : Nat
  settlePasses : Nat
  source : Option Nat
  cost : Nat
  cycles : Nat
  opened : Nat
  evicted : Bool
  lastCores : List Nat
  split : Nat
  contexts : Nat
  nref : Nat
  settleDq : Nat
  refresh : Bool
  psEvery : Bool
  screen : Bool
  qpMin : Nat
  qpMax : Nat
  qpI : Nat
  qpP : Nat
  keyInterval : Nat
  refreshFrames : Nat
  pace : Nat
  tier : Nat
  resultAddr : DWord
  resultCount : Nat
  resultPos : Nat
  seqNext : BitVec 16
  /-- The two checkpoints of R185, A and B. -/
  ckA : Checkpoint
  ckB : Checkpoint
  /-- Checkpoint B is the newer one. -/
  newer : Bool
  /-- The next frame is a key frame for another reason than KEY_NEXT: OPEN, END_OF_STREAM (R182). -/
  keyDue : Bool
  /-- The frame that runs is followed by a key frame: STANDBY came while it ran (R194). -/
  keyAfter : Bool
  /-- Records that wait for those of earlier frames. -/
  owed : List OwedRecords
  overruns : Word
  credit : Nat
  closer : Option Nat
  drain : Bool
deriving DecidableEq, Repr

/-- The states of a codec core (Table 07-7). -/
inductive CoreSt where
  | inService | gated | retired | resetting | noMicrocode
deriving DecidableEq, Repr

/-- The share of a split picture that a core works on (R160, R179): tile columns or tile rows from `lo` to below `hi`, or CTU
rows `first`, `first + step` and so on, each of which starts once the row above has completed two CTUs. -/
inductive PartShare where
  | whole
  | tileCols (lo hi : Nat)
  | tileRows (lo hi : Nat)
  | ctuRows (first step : Nat)
deriving DecidableEq, Repr

/-- A codec core with its sequencer (R205, R212, Table 07-7). -/
structure CodecCore where
  st : CoreSt
  /-- The job it runs, its part number; or the split job it is reserved for. -/
  job : Option Nat
  part : Nat
  reserved : Option Nat
  share : PartShare
  cycles : DWord
  jobs : Word
  redone : BitVec 16
  fault : BitVec 8
  mcBase : BitVec 16
  mcPatch : BitVec 8
  patchRej : Bool
  baseSlot : Bool
  patchSlot : Bool
  upc : BitVec 14
  ustack : List (BitVec 14)
  ustopped : Bool
  microStore : Table Word
  nanoStore : Table (BitVec 256)
  /-- The nanoword last issued. -/
  issued : BitVec 256
  /-- Words whose parity is wrong: nano-store or micro-store, and address (R213). -/
  badParity : List (Bool × Nat)
deriving DecidableEq, Repr

/-- The codec pool and its streams. -/
structure CodecState where
  cores : Vector CodecCore 8
  dec : Table (Option DecStream)
  enc : Table (Option EncStream)
  /-- The jobs in order of dispatch. -/
  jobs : List CodecJob
  jobSeq : Nat
  openSeq : Nat
  /-- The ring positions rr[c] of R156. -/
  rr : Vector Nat 3
  /-- Debt in cycles per function (R201). -/
  debt : Table Nat
  /-- Paced RTP packets, in order of release (R189). -/
  paced : List Packet
  evictions : BitVec 16
  /-- Cores that return to service at the next tick of group A (R209). -/
  returning : BitVec 8
  /-- The verified copy of R216 in the firmware region: versions, slots, words. -/
  copyLoaded : Bool
  copyBase : BitVec 16
  copyPatch : BitVec 8
  copyRej : Bool
  copyBaseSlot : Bool
  copyPatchSlot : Bool
  copyMicro : Table Word
  copyNano : Table (BitVec 256)
deriving DecidableEq, Repr

end Sys2Proof.Machine
end

