-- ==== Sys2Proof/Machine/ChannelTypes.lean ====
section
/-!
DEFINITION. Machine/ChannelTypes.lean: the state of the channels, the subchannels, the peripherals and the customer
routines (chapter 9).
-/
namespace Sys2Proof.Machine

/-- The channel states of Table 09-6. -/
inductive ChSt where
  | free | idle | active | waiting | suspended | halting | ended
deriving DecidableEq, Repr

/-- The CCW results of Table 09-16. -/
inductive CcwResult where
  | ok | skipNext | unitError | lengthError | programError | accessError | poison | unitLost | stopped
deriving DecidableEq, Repr

/-- The program error codes of Table 09-10 (none is 0). -/
inductive CcwCode where
  | none | invalidOpcode | invalidFlags | invalidSubchannel | protection | ticTic | align | address
  | hostUnavailable | routineFault | routineTimeout | range
deriving DecidableEq, Repr

/-- What a channel waits for. -/
inductive ChWait where
  | none
  /-- Ticks of a group still to come (R254). -/
  | ticks (g : Fin 4) (n : Nat)
  /-- An event of the mask, until an instant of elapsed time (R255). -/
  | event (mask : Word) (until_ : Option Nat)
  /-- A busy subchannel (R249). -/
  | subchannel (s : Nat)
  /-- A transfer on a subchannel that has begun; a READ's time-out. -/
  | transfer (s : Nat) (until_ : Option Nat)
  /-- A retryable error's cause to clear (R273). -/
  | retry (s : Nat) (until_ : Nat)
  /-- A unit job with ASYNC 0 (R259), or a STAGE operation. -/
  | job
  /-- A customer routine, until its limit (R278). -/
  | call (routine : Nat) (until_ : Nat)
deriving DecidableEq, Repr

/-- The CCW in progress, the last of its span: its space address and its bytes. -/
structure CurCcw where
  address : DWord
  bytes : List Byte
  /-- The first CCW of the span: its extension governs the transfer. -/
  first : List Byte
  /-- The data areas of the span so far: address (none where DISCARD is set) and bytes. -/
  areas : List (Option DWord × Nat)
  /-- The bytes a WRITE sends. -/
  data : List Byte
deriving DecidableEq, Repr

/-- A status ring (R262). -/
structure StatusRing where
  address : DWord
  slots : Nat
  vector : Nat
  pos : Nat
deriving DecidableEq, Repr

/-- Why a channel is to suspend before its next CCW. -/
inductive SuspendKind where
  | host | continuity | mode
deriving DecidableEq, Repr

/-- A channel (R254 to R268). -/
structure Channel where
  st : ChSt
  mark : Bool
  fn : Nat
  gen : Nat
  /-- The Lamplighter core that interprets its CCW (R250). -/
  core : Nat
  ccw : DWord
  cur : Option CurCcw
  wait : ChWait
  events : Word
  /-- The timer: when it expires in elapsed units, or what is left of it while timers stop (Table 09-14). -/
  timer : Option Nat
  timerLeft : Option Nat
  jobsDone : BitVec 16
  jobsFailed : BitVec 16
  csw : List Byte
  cswSeq : BitVec 16
  ring : Option StatusRing
  startSlot : Option Nat
  suspendSlots : List Nat
  haltSlots : List Nat
  suspend : Option SuspendKind
  /-- Suspended by a mode and resumed by itself (Table 09-14). -/
  byMode : Bool
  clearing : Bool
  /-- The next CCW is passed over (R253). -/
  skip : Bool
  /-- The last CCW was a TIC (code TIC_TIC). -/
  ticked : Bool
  /-- In a span: the next CCW's OPCODE and SUBCH are ignored (R253). -/
  spanning : Bool
  /-- The result of the CCW last begun, its code and its detail (Table 09-8). -/
  result : CcwResult
  code : CcwCode
  detail : Byte
  residual : Word
  subch : BitVec 16
  ccwAddr : DWord
  waitedFlag : Bool
  retriesUsed : Nat
deriving DecidableEq, Repr

/-- A channel that is not allocated. -/
def Channel.free : Channel :=
  ⟨.free, false, 0, 0, 0, 0, .none, .none, 0, .none, .none, 0, 0, List.replicate 32 0, 0, .none, .none, [], [],
   .none, false, false, false, false, false, .ok, .none, 0, 0, 0, 0, false, 0⟩

/-- Sense data of a peripheral (R275). -/
structure Sense where
  code : Byte
  retries : Nat
  levels : BitVec 16
  dts : DWord
deriving DecidableEq, Repr

/-- A GPIO event binding (Table 09-9). -/
structure GpioEvent where
  channel : Nat
  bit : Nat
  edge : Nat
deriving DecidableEq, Repr

/-- A customer routine that is loaded (R276): where its code lies in the routine area, and its header. -/
structure Routine where
  base : Nat
  codeLen : Nat
  dataLen : Nat
  entry : Nat
  mask : BitVec 16
  version : BitVec 16
deriving DecidableEq, Repr

/-- Lamplighter, its peripherals and its routines. -/
structure LmpState where
  chans : Table Channel
  /-- The channel each subchannel serves and the channels that wait for it, in order of arrival (R249). -/
  busy : Table (Option Nat)
  queues : Table (List Nat)
  cores : BitVec 4
  routines : Table (Option Routine)
  rtResult : Nat
  /-- The handover written and not yet in effect: true RESET (R282). -/
  handover : Option Bool
  /-- The last valid CONFIG order of each subchannel (Table 09-9), where one was given. -/
  config : Table (List Byte)
  sense : Table Sense
  /-- Unit errors of a channel on a subchannel since ALLOCATE (R275): keyed channel · 1,024 + subchannel. -/
  unitErrors : Table Nat
  /-- UARTs whose stuck line is recorded for their next CCW (R274). -/
  stuck : BitVec 8
  /-- CAN filters: keyed controller · 32 + index; the FILTER order's bytes. -/
  canFilters : Table (List Byte)
  /-- Frames received that passed a filter, oldest first, per controller. -/
  canRx : Table (List (List Byte))
  busOff : BitVec 2
  gpioOut : BitVec 48
  gpioDrive : BitVec 48
  gpioIn : BitVec 48
  /-- Pulses that run: the mask and when they end. -/
  gpioPulses : List (BitVec 48 × Nat)
  gpioEvents : Table (Option GpioEvent)
deriving DecidableEq, Repr

end Sys2Proof.Machine
end

