-- ==== Sys2Proof/Machine/CompositorTypes.lean ====
section
/-!
DEFINITION. Machine/CompositorTypes.lean: the state of the compositor's outputs (chapter 8).
Sets of 64 × 64 blocks are masks: bit 128·row + column.
-/
namespace Sys2Proof.Machine

/-- A picture of a decode stream that a plane holds: the stream's context, its generation, the entry and its buffer. -/
structure HeldPicture where
  stream : Nat
  gen : Nat
  entry : Nat
  buffer : Nat
deriving DecidableEq, Repr

/-- What a plane shows (Table 04-17). -/
structure Plane where
  /-- 0 disabled, 1 video, 2 still, 3 solid colour, 4 text. -/
  kind : Nat
  source : DWord
  dstXy : Word
  dstWh : Word
  srcXy : Word
  srcWh : Word
  alpha : Byte
  /-- Text: the atlas it names and its glyph count; a still copied by firmware: the buffer it is in. -/
  atlas : Option DWord
  glyphs : Nat
  buffer : Option Nat
deriving DecidableEq, Repr

/-- A disabled plane (R222). -/
def Plane.off : Plane := ⟨0, 0, 0, 0, 0, 0, 0, .none, 0, .none⟩

/-- A COMPOSE that is pending or taken into a frame (R235). -/
structure PlaneUpdate where
  id : Nat
  master : Master
  origin : JobOrigin
  plane : Nat
  content : Plane
  target : Target
  /-- Dispatched after the begin instant of its target's frame (R235). -/
  late : Bool
  taken : Bool
  /-- A later update of its master and plane supersedes it once composed (R125). -/
  supersededBy : Option Nat
  /-- What its plane held before it was applied: given up once the update has completed, and shown again where it ends
  with CONFLICT (R28). -/
  prev : Option Plane
deriving DecidableEq, Repr

/-- The frame an output is composing (R232 to R234). -/
structure OutFrame where
  tick : Int
  buffer : Nat
  ended : Bool
  dirty : Nat
  all : Bool
  /-- The planes as sampled, and the picture each shows in it. -/
  planes : List Plane
  pictures : List (Option HeldPicture)
  /-- The part of its picture that each video plane shows, in luma samples of the picture: x, y, width, height (R223). -/
  crops : List (Option (Nat × Nat × Nat × Nat))
  damage : Nat
  /-- When its composition ends, in elapsed units (R233). -/
  due : Nat
  /-- CMP_OUT_BG and DMG_MODE as they stood when it began: it finishes under them (R25). -/
  bg : Nat
  verified : Bool
  /-- Its colour tags (R230). -/
  colour : List Byte
deriving DecidableEq, Repr

/-- A damage bitmap (Table 08-5). -/
structure Bitmap where
  all : Bool
  verified : Bool
  held : Bool
  tick : Target
  dts : DWord
  seq : BitVec 16
  mask : Nat
deriving DecidableEq, Repr

/-- An ST 2110-20 frame waiting or being sent (R242): its buffer, its tick, the packets sent of it. -/
structure StFrame where
  buffer : Nat
  tick : Int
  sent : Nat
  total : Nat
  /-- The full device time from which its packets are spread, once it is being sent. -/
  start : Option Int
deriving DecidableEq, Repr

/-- The states of Table 08-1. -/
inductive OutSt where
  | closed | active | off | closing
deriving DecidableEq, Repr

/-- A compositor output (R220 to R242). -/
structure Output where
  st : OutSt
  fn : Nat
  gen : Nat
  group : Fin 4
  retarget : Bool
  width : Nat
  height : Nat
  tenBit : Bool
  route : Nat
  stQueue : Option Nat
  pool : Nat
  planes : List Plane
  updates : List PlaneUpdate
  frame : Option OutFrame
  /-- The frame on show: its buffer, and the pictures its planes show. -/
  onShow : Option Nat
  /-- The colour tags of the frame on show. -/
  tags : List Byte
  shown : List (Option HeldPicture)
  /-- The pictures its planes hold a reference to, each with its plane (R223). -/
  holds : List (Nat × HeldPicture)
  /-- Blocks that may differ, gathered since the last frame began, or kept from one that stopped (R236). -/
  dirty : Nat
  all : Bool
  late : Bool
  /-- A step of DTS shortened the interval to the next tick: a miss at it is not counted under R49 (R52). -/
  uncounted : Bool
  ring : List Bitmap
  seq : BitVec 16
  overruns : Word
  st2110 : List StFrame
  stSeq : Word
  closer : Option Nat
  drain : Bool
deriving DecidableEq, Repr

/-- A resident glyph atlas (R227): address, KiB, GLYPHS, and how many layers name it. -/
structure Atlas where
  address : DWord
  kib : Nat
  glyphs : Nat
  users : Nat
deriving DecidableEq, Repr

/-- The counters of an output's registers (Table 08-8): flips, missed frames, the last flip, ST 2110-20 frames skipped. -/
structure OutCounts where
  frames : Word
  missed : Word
  lastTick : Word
  stSkip : Word
deriving DecidableEq, Repr

/-- The compositor. -/
structure CmpState where
  outputs : Table (Option Output)
  atlases : List Atlas
  glyphCnt : Word
  lateCnt : Word
  updateSeq : Nat
  /-- The group whose frames run, and groups whose begin instant fell meanwhile (R233). -/
  group : Option (Fin 4)
  waiting : List (Fin 4)
  /-- The counters, by output: they outlive the output (R245). -/
  counts : Table OutCounts
deriving DecidableEq, Repr

end Sys2Proof.Machine
end

