-- ==== Sys2Proof/Machine/FaultTypes.lean ====
section
/-!
DEFINITION. Machine/FaultTypes.lean: the state of the interrupt controller and of the Snuffer (chapter 14).
-/
namespace Sys2Proof.Machine

/-- The interrupt controller (R401 to R410). Masks, routes and selections are registers. -/
structure IcuState where
  pend : BitVec 1024
  mask : BitVec 1024
  /-- The active stacks of the 14 targets, top first. -/
  claims : Vector (List Nat) 14
  /-- The scheme in force for each target: true grouped (R406), false fixed (R405). -/
  grouped : Vector Bool 14
  /-- The scheme the last change of mode calls for (R407). -/
  wanted : Bool
  orderErr : Bool
  /-- HOST was asserted when last looked at (R402). -/
  hostAsserted : Bool
  /-- The selections Pilot copied at entry to PILOT (R410): the sources of those enabled. -/
  pilotSel : List Nat
  pilotCause : Option Nat
deriving DecidableEq, Repr

/-- A fault message on its way to the Snuffer (R411), with what it implicates for a test or a reaction. -/
structure FaultMsg where
  source : BitVec 10
  kind : BitVec 8
  address : BitVec 48
  dts : DWord
  /-- FLAGS bit 5 of Table 14-3 (R426). -/
  part : Bool
  /-- The message was lost-message marked: OVERFLOW (R414). -/
  overflow : Bool
deriving DecidableEq, Repr

/-- A fault record (Table 14-3). -/
structure FaultRec where
  dts : DWord
  address : BitVec 48
  source : BitVec 10
  kind : BitVec 8
  flags : BitVec 8
  reaction : BitVec 8
  count : BitVec 8
  seq : BitVec 16
deriving DecidableEq, Repr

/-- The window of a fault source (R415). -/
structure SrcWin where
  start : Option DWord
  count : Nat
  severe : Bool
  events : Nat
deriving DecidableEq, Repr

/-- A targeted self-test or a retest that runs (R421, R424): what it tests, the message that started it (none for a
retest), when it began, and whether RECOVERY or STANDBY abandoned it (R423). -/
structure SelfTest where
  resource : Resource
  msg : Option FaultMsg
  startedAt : Nat
  abandoned : Bool
deriving DecidableEq, Repr

/-- What ordered a HALT (R427): a JTAG instruction's HALT ends only with PORST_N. -/
inductive HaltOrigin where
  | ordered | jtag
deriving DecidableEq, Repr

/-- The Snuffer (R411 to R430). -/
structure SnufState where
  queue : List FaultMsg
  overflow : Bool
  /-- A message was lost since the last accepted one (R414). -/
  lostSince : Bool
  seq : BitVec 16
  /-- The last 64 records, newest first (R419). -/
  hist : List FaultRec
  first : Option FaultRec
  wins : Table SrcWin
  tests : List SelfTest
  /-- When a resource last ended a test, in elapsed units (R421). -/
  ended : List (Resource × Nat)
  retiredCores : BitVec 8
  retiredLanes : BitVec 16
  /-- Fenced SRAM rows (Table 14-9): bank and row. -/
  fences : List (Nat × Nat)
  /-- Spare rows used per SRAM bank, of 32. -/
  spareRows : Table Nat
  /-- SRAM rows a spare has replaced. -/
  sparedRows : List (Nat × Nat)
  /-- Spared pseudo-channels: stack and pseudo-channel (at most two a stack). -/
  sparedPcs : List (Nat × Nat)
  /-- Pseudo-channels being copied to a spare (R422). -/
  copyingPcs : List (Nat × Nat)
  /-- Repairs used per bank of a pseudo-channel: keyed stack · 512 + pseudo-channel · 16 + bank. -/
  repairs : Table Nat
  /-- Resources isolated under ISOLATE (Table 14-6): fault source and index. -/
  isolated : List (Nat × Nat)
  /-- Resources out of service that set DEGRADED (R424). -/
  degrading : List Resource
  /-- Consecutive retests passed, per resource. -/
  passes : List (Resource × Nat)
  retest : Option Resource
  /-- SNUF_RETEST_STATUS.RESULT. -/
  retestResult : Nat
  corrected : Word
  halt : Option HaltOrigin
  flicker : Bool
  /-- FLICKER frozen by check 4 until the Lantern core's reset has ended (R428). -/
  flickerFrozen : Bool
  /-- When FLICKER last toggled, and when a message was last accepted, in elapsed units. -/
  flickerAt : Nat
  lastAccept : Nat
  /-- The liveness checks 1 to 4 that pass (Table 14-10). -/
  live : BitVec 4
  /-- How far the unlock sequence has come, and whether the registers are unlocked (R429). -/
  unlockPos : Nat
  unlocked : Bool
  /-- Units whose reset the Snuffer ordered and that has not ended (R416). -/
  resets : List UnitId
  /-- When the RECOVERY in progress began, and when the last one ended (R439). -/
  recoveryAt : Option Nat
  recoveryEnded : Option Nat
  /-- Words of the SRAM banks other than the on-die pools that hold a correctable error, and those that hold poison (R12, R425): bank
  and byte offset / 8. -/
  sramCorrectable : List (Nat × Nat)
  sramPoison : List (Nat × Nat)
deriving DecidableEq, Repr

end Sys2Proof.Machine
end

