-- ==== Sys2Proof/Machine/PoolTypes.lean ====
section
/-!
DEFINITION. Machine/PoolTypes.lean: the state of the buffer pools, of the DMA engine and of the auditor (chapter 13).
-/
namespace Sys2Proof.Machine

/-- An allocated buffer: its reference count and its owner tag (R382). A free buffer is not listed. -/
structure Buf where
  count : Nat
  tag : Nat
deriving DecidableEq, Repr

/-- The buffer pool manager, pools 1 to 15. Buffers are keyed pool · 2^21 + index, owners pool · 32 + owner. -/
structure PoolState where
  bufs : Table (Option Buf)
  use : Table Nat
  ear : Table Nat
  /-- References held per pool, as the holders' ledgers count them (R393, law 2). -/
  refs : Table Nat
  refused : Table Word
  fallbacks : Table Word
deriving DecidableEq, Repr

/-- The DMA channel states of Table 13-2. -/
inductive DmaSt where
  | idle | running | stopping | done | stopped | error
deriving DecidableEq, Repr

/-- A descriptor that a channel has fetched (Table 13-1). -/
structure DmaDesc where
  src : Nat
  dst : Nat
  count : Nat
  chain : Bool
  fill : Bool
  next : Nat
deriving DecidableEq, Repr

/-- A DMA channel (R389 to R392). -/
structure DmaCh where
  st : DmaSt
  isolated : Bool
  code : Nat
  retries : Nat
  /-- The current or next descriptor address. -/
  cur : DWord
  desc : Option DmaDesc
  resid : Nat
  bytes : DWord
  descs : Word
  /-- While a failed access waits to be retried: when (R391). -/
  retryAt : Option Nat
  /-- The access under way is a retry of one that failed. -/
  retrying : Bool
  /-- Ledgers since START (R393, law 6): bytes read, Σ COUNT of ended descriptors, bytes of FILL descriptors. -/
  readBytes : Nat
  endedBytes : Nat
  fillBytes : Nat
deriving DecidableEq, Repr

/-- A channel that has no chain. -/
def DmaCh.idle : DmaCh := ⟨.idle, false, 0, 0, 0, .none, 0, 0, 0, .none, false, 0, 0, 0⟩

/-- One instance of a conservation law as a snapshot latches it (R393, Table 13-10). -/
structure Ledger where
  law : Nat
  index : Nat
  unit : Nat
  terms : List Int
  failed : Bool
  lost : Bool
deriving DecidableEq, Repr

/-- A snapshot of the ledgers at a tick of group A. -/
structure Snapshot where
  tick : BitVec 62
  dts : DWord
  ledgers : List Ledger
deriving DecidableEq, Repr

/-- The auditor (R393 to R396, R495). -/
structure AuditState where
  /-- The snapshot taken at the last tick and not yet audited, and the instant its audit is due by. -/
  pending : Option Snapshot
  lastPass : Option Snapshot
  lastTick : BitVec 62
  pass : Word
  viol : Word
  failLaws : BitVec 6
  lost : List (Nat × Nat)
  /-- The ledgers, by law and index, that an uncorrectable error has struck and no audit has yet reported (R377, R395). -/
  struck : List (Nat × Nat)
  /-- The frozen snapshot: the failing and the last passing one, and the first violation's law, unit and index. -/
  frozen : Option (Snapshot × Option Snapshot)
  firstLaw : Nat
  firstUnit : Nat
  firstIndex : Nat
  /-- Law 5: accepted entries, completions posted and orphaned completions logged, per function. -/
  accepted : Table Nat
  posted : Table Nat
  orphaned : Table Nat
deriving DecidableEq, Repr

end Sys2Proof.Machine
end

