-- ==== Sys2Proof/Machine/PowerTypes.lean ====
section
/-!
DEFINITION. Machine/PowerTypes.lean: the state of the modes, the sensors, the start, the NVS, the mailbox, out-of-band
management and the pins (chapters 15 and 16).
-/
namespace Sys2Proof.Machine

/-- Who asked for a mode (R437). -/
inductive Requester where
  | command (slot : Nat)
  | register (m : Master)
  | outOfBand
deriving DecidableEq, Repr

/-- The causes of a change of mode as the log codes them (Table 15-13, type 2). -/
inductive ModeCause where
  | request | hostLoss | handover | capBegins | capEnds | reaction | update | boot | wake | warmReset | shutdown
deriving DecidableEq, Repr

/-- A change of mode in progress (R436). -/
structure ModeChange where
  /-- The mode to be entered; none: the one that R435 resolves. -/
  target : Option Mode
  cause : ModeCause
  /-- Who is still to be answered. -/
  requester : Option Requester
  /-- The master that asked for it, as the log names it. -/
  master : Option Master
  /-- The number of the mode that was requested. -/
  asked : Nat
  /-- When the exit and entry times have passed, in elapsed units. -/
  dueAt : Nat
  /-- It takes effect at the first tick of group A from then on (Table 15-1). -/
  atTick : Bool
deriving DecidableEq, Repr

/-- The state of an NVS slot as a boot control record gives it (Table 15-13). -/
inductive SlotState where
  | invalid | valid | pending
deriving DecidableEq, Repr

/-- One image of the NVS (R459): the active slot (true B), both slots' states and the versions they hold. -/
structure ImageState where
  active : Bool
  a : SlotState
  b : SlotState
  versionA : Word
  versionB : Word
deriving DecidableEq, Repr

/-- An image update that runs (R459): through NVS_UPDATE (its slot) or through PLDM, and whether OFFLINE. -/
structure Update where
  pldm : Bool
  slot : Option Nat
  fn : Nat
  offline : Bool
  length : Nat
  received : Nat
  /-- OFFLINE: the write has ended and the completion waits for the return from UPDATE (R459). -/
  outcome : Option (Status × Word)
deriving DecidableEq, Repr

/-- A record that is being written, or waits for the one before it (R453): its area (0 boot control, 1 retirement, 2 settings, 3 event
log), its sequence number, when its write begins and when its commit word has been written, in elapsed units. -/
structure NvsWrite where
  area : Nat
  seq : Nat
  begins : Nat
  ends : Nat
deriving DecidableEq, Repr

/-- The non-volatile store (Table 15-7). Records are newest first. -/
structure NvsState where
  images : Vector ImageState 3
  bootCtl : List LogRec
  retirement : List LogRec
  settings : List LogRec
  log : List LogRec
  /-- The last sequence number given in each area: boot control, retirement, settings, event log. -/
  seqs : Vector Nat 4
  shutdown : DWord
  /-- Persisted register values: PWR_BOOT_CFG, PWR_PILOT_CFG and PWR_CAP_CFG by live-view offset. -/
  persisted : Table (Option Word)
  /-- The writes not known to have ended, oldest first. -/
  writes : List NvsWrite
deriving DecidableEq, Repr

/-- The phases of a PLDM firmware update (DSP0267). -/
inductive PldmPhase where
  | idle | learn | ready | download | verify | apply | activate
deriving DecidableEq, Repr

/-- The MCTP endpoint and its PLDM terminus (R449, R450). -/
structure MgmtState where
  eid : Byte
  tid : Byte
  receiver : Option Byte
  phase : PldmPhase
  component : Option (Fin 3)
  offset : Nat
deriving DecidableEq, Repr

/-- The mailbox (R463). -/
structure MailState where
  busy : Bool
  cmd : Nat
  len : Nat
  status : Status
  rlen : Nat
  nonce : Option (List Byte)
  unlocked : Bool
deriving DecidableEq, Repr

/-- Power, modes, the start, sensors and pins. -/
structure PwrState where
  mode : Mode
  base : Mode
  /-- The mode that UPDATE or STANDBY was entered from. -/
  left : Mode
  /-- The mode that RECOVERY was entered from (R439). -/
  recFrom : Mode
  change : Option ModeChange
  resCode : Status
  resMode : Nat
  thermalCap : Bool
  powerCap : Bool
  /-- The thermal cap is held until the next start: more than four die sensors failed (R443). -/
  capHeld : Bool
  dramHot : BitVec 2
  thermN : Bool
  gated : BitVec 8
  /-- Since when each cap's release condition has held (R443, R444). -/
  thermalBelow : Option Nat
  powerBelow : Option Nat
  /-- When the cap in force began or last gated a further core (R445). -/
  capStep : Nat
  temps : Table (Int × Bool)
  tj : Int
  tjSensor : Nat
  vin : Nat
  iin : Nat
  pin : Nat
  pinPeak : Nat
  rails : Table (Nat × Nat)
  /-- A brown-out stands, from VIN falling below 2.60 V until OFF or the start that follows (R457, R458). -/
  brownOut : Bool
  /-- VIN has been good again for 10 ms since the brown-out that stands (R458). -/
  vinBack : Bool
  bootStep : Nat
  warm : Bool
  /-- The start in progress is a cold start, from the release of PORST_N (R473). -/
  cold : Bool
  /-- PWR_BOOT.LAST_OFF (R458). -/
  lastOff : Nat
  timeWaitEnd : Option Nat
  restartUsed : Bool
  /-- Images that fell back to their other slot at this start (Table 15-13, type 9). -/
  fellBack : BitVec 3
  /-- The configuration blob the start found: verified, VERSION, pairs. -/
  blobVersion : Word
  porstN : Bool
  warmRstN : Bool
  perstN : Bool
  /-- PILOT was entered from OFF, and no release of PORST_N has been taken since (R472). -/
  pilotFromOff : Bool
  /-- Step 1 found no CLK32K (Table 15-3). -/
  clk32kLost : Bool
  /-- The device stays in BOOT: the ROM CRC failed at step 2. -/
  romBad : Bool
  /-- In warm reset: WARM_RST_N taken low and not yet released (R473). -/
  inWarmReset : Bool
  /-- A release of PORST_N taken before PILOT was entered (R472). -/
  releaseHeld : Option (BitVec 4)
  straps : BitVec 4
  /-- Reference clocks lost: 0 REFCLK_SYS, 1 ETH0, 2 ETH1, 3 PCIe. -/
  clocksLost : BitVec 4
  /-- A wake held until REFCLK_SYS has run for 10 ms (R471). -/
  wakeHeld : Bool
  /-- Wakes are ignored until then, after a thermal shutdown (R442). -/
  wakesFrom : Nat
  pilotAt : Nat
  /-- PILOT_TIMER has not run out since PILOT was entered (Table 15-4). -/
  pilotTiming : Bool
  fabricDomain : Nat
  fabricMaster : Nat
  fabricAddr : Nat
  fabricCnt : Word
  tap : BitVec 6
  /-- PROVISION has been entered since the start (R476). -/
  provisioned : Bool
  /-- Codec cores clock-gated in NIGHT (R438). -/
  nightGated : BitVec 8
deriving DecidableEq, Repr

end Sys2Proof.Machine
end

