-- ==== Sys2Proof/Machine/SwitchTypes.lean ====
section
/-!
DEFINITION. Machine/SwitchTypes.lean: the state of the switch core and of the packet buffer (chapter 11) and of the
send queues (R119, R126).
-/
namespace Sys2Proof.Machine

/-- The port states of Table 11-3. -/
inductive PortSt where
  | disabled | training | up | down | retired
deriving DecidableEq, Repr

/-- A copy of a frame in an egress queue (R347): its queue, whether it is being sent, the cells it holds, whether its
first cell was granted at ECN_TH or above, whether it ends damaged because a later cell was refused (R349), and the tag
change it carries: 0 none, 1 a tag of its VLAN added, 2 the tag removed, 3 the VLAN of a priority tag filled in. -/
structure Copy where
  queue : Nat
  sending : Bool
  cells : Nat
  ce : Bool
  failed : Bool
  tag : Nat
deriving DecidableEq, Repr

/-- Where a frame came from, and who learns its end. -/
inductive Sender where
  | received
  | slot (n : Nat)
  | channel (c : Nat) (async : Bool)
  /-- A packet of an encode stream, from a codec core (R188). -/
  | encoder (core : Nat)
  | st2110
  | firmware
deriving DecidableEq, Repr

/-- A frame in the packet buffer: its bytes as far as they are in, from destination address through FCS. -/
structure Frame where
  id : Nat
  ingress : Nat
  /-- MAX_FRAME of its port as its first cell was accepted (R25). -/
  maxLen : Nat
  bytes : List Byte
  whole : Bool
  bad : Bool
  cells : Nat
  vid : Nat
  pcp : Nat
  arrival : DWord
  sender : Sender
  /-- TIMESTAMP was set, and the egress DTS of its first copy (R126). -/
  stampWanted : Bool
  stamp : Option DWord
  binding : Option Nat
  meter : Option Nat
  copies : List Copy
  sent : Nat
  dropped : Nat
  media : Nat
deriving DecidableEq, Repr

/-- A frame that waits on a send queue for its target tick or for its flow shaper (Table 12-1). -/
structure SendFrame where
  sender : Sender
  fn : Nat
  bytes : List Byte
  stampWanted : Bool
  /-- None: UNTIMED, or its tick has come. -/
  target : Option Target
  firstTarget : Int
  missed : Bool
  /-- DISCARD applies: it is dropped (R48). -/
  discarded : Bool
  /-- It ignores TARGET_TICK (Table 04-18). -/
  untimed : Bool
  /-- A step of DTS shortened the interval to its tick: its miss is not counted under R49 (R52). -/
  uncounted : Bool
  /-- The buffer that carries it: of it the frame is a holder until it leaves the queue (R11, R184). -/
  buffer : Option Nat
deriving DecidableEq, Repr

/-- A send queue object (Table 04-14). -/
structure SendQueue where
  fn : Nat
  gen : Nat
  group : Fin 4
  retarget : Bool
  /-- TARGET_KIND: 0 a port, 1 a multicast group. -/
  kind : Nat
  tc : Nat
  target : Nat
  vlan : Nat
  shaper : Nat
  waiting : List SendFrame
  closer : Option Nat
  drain : Bool
  /-- The stream's overrun count (R49). -/
  overruns : Word
deriving DecidableEq, Repr

/-- The run of a receive binding (R340, R341). -/
structure BindRun where
  tail : Nat
  /-- Bytes of the access unit in progress, none between units. -/
  active : Bool
  dropping : Bool
  data : List Byte
  ts : Word
  firstSeq : Nat
  packets : Nat
  loss : Bool
  truncated : Bool
  media : Bool
  stamp : DWord
  /-- The next sequence number expected, once a packet has been taken. -/
  nextSeq : Option Nat
  /-- The next delivered unit sets LOSS (R341). -/
  lossNext : Bool
  /-- A fragmented NAL unit or OBU is under way, and the bytes of that OBU so far. -/
  fragment : Bool
  part : List Byte
  units : Word
  full : BitVec 16
  gaps : BitVec 16
deriving DecidableEq, Repr

/-- A binding that has taken nothing. -/
def BindRun.fresh : BindRun := ⟨0, false, false, [], 0, 0, 0, false, false, false, 0, .none, false, false, [], 0, 0, 0⟩

/-- An entry of the MAC table (Table 11-6), kept under its bucket and way; AGE is counted from `seen`. -/
structure MacEntry where
  mac : Nat
  vid : Nat
  port : Nat
  fixed : Bool
  isGroup : Bool
  drop : Bool
  hit : Bool
  group : Nat
  /-- The elapsed seconds when the entry was last seen. -/
  seen : Nat
deriving DecidableEq, Repr

/-- The switch core. -/
structure SwcState where
  ports : Table PortSt
  /-- When a TRAINING or DOWN port next changes or retries, in elapsed units (Table 11-3). -/
  portDue : Table Nat
  counters : Table DWord
  cntLatch : Word
  frames : List Frame
  frameSeq : Nat
  /-- use[q] of R347. -/
  use : Table Nat
  allocated : Nat
  peak : Nat
  /-- F was below LOW_MARK when last looked at. -/
  low : Bool
  /-- The tables: entry bytes as a number, little-endian. -/
  vlan : Table Nat
  group : Table Nat
  classifier : Table (List Byte)
  mac : Table (Option MacEntry)
  binding : Table (List Byte)
  runs : Table BindRun
  tblData : Table Word
  tblErr : Bool
  sendQueues : Table (Option SendQueue)
  /-- The elapsed second of the last aging pass (R337). -/
  lastAging : Nat
deriving DecidableEq, Repr

end Sys2Proof.Machine
end

