-- ==== Sys2Proof/Machine/TrafficTypes.lean ====
section
/-!
DEFINITION. Machine/TrafficTypes.lean: the state of the traffic unit (chapter 12).
-/
namespace Sys2Proof.Machine

/-- A token bucket (R360): its tokens, its initial tokens, and the three totals since PORST_N, in units of R360. -/
structure Bucket where
  tokens : Int
  initial : Int
  credited : Nat
  debited : Nat
  discarded : Nat
deriving DecidableEq, Repr

/-- A bucket that starts with `n` units. -/
def Bucket.start (n : Nat) : Bucket := ⟨n, n, 0, 0, 0⟩

/-- A shaper (Table 12-3): its entry, its bucket, the tick of its last refill, and the rate in force since then
(R362). -/
structure Shaper where
  rate : Nat
  burst : Nat
  en : Bool
  lenMode : Bool
  ovh : Int
  bucket : Bucket
  last : Nat
  rateNow : Nat
deriving DecidableEq, Repr

/-- A shaper at reset: disabled, mode 1, OVH +20. -/
def Shaper.reset : Shaper := ⟨0, 0, false, true, 20, Bucket.start 0, 0, 0⟩

/-- A meter (Table 12-4): its entry, its buckets Tc and Te or Tp, its colour counts. -/
structure Meter where
  cir : Nat
  pir : Nat
  cbs : Nat
  ebs : Nat
  en : Bool
  trtcm : Bool
  lenMode : Bool
  redPass : Bool
  setYtc : Bool
  ovh : Int
  ytc : Nat
  tm : Nat
  tc : Bucket
  te : Bucket
  last : Nat
  cirNow : Nat
  pirNow : Nat
  green : Word
  yellow : Word
  red : Word
deriving DecidableEq, Repr

/-- A meter at reset: disabled, mode 0. -/
def Meter.reset : Meter :=
  ⟨0, 0, 0, 0, false, false, false, false, false, 0, 0, 0x7F, Bucket.start 0, Bucket.start 0, 0, 0, 0, 0, 0, 0⟩

/-- A gate control list (Tables 12-5 and 12-6): entries are an interval and the set of open gates. -/
structure GateList where
  base : DWord
  cycle : Nat
  count : Nat
  en : Bool
  entries : Table (Nat × BitVec 8)
deriving DecidableEq, Repr

/-- A list that is not enabled. -/
def GateList.none : GateList := ⟨0, 0, 0, false, []⟩

/-- The gates of a port: the list as written, the list in force, a list that waits for its boundary and the DTS of that
boundary (R370), and whether an error opened every gate (R377). -/
structure PortGates where
  list : GateList
  force : GateList
  pending : Option (GateList × Int)
  /-- The entry in force as of the last gate event. -/
  entry : Nat
  struck : Bool
deriving DecidableEq, Repr

/-- Gates at reset: no list, every gate open. -/
def PortGates.reset : PortGates := ⟨GateList.none, GateList.none, .none, 0, false⟩

/-- A histogram (R374): its 16 bins, its largest sample and that sample's DTS, its sample count. -/
structure Hist where
  bins : Table Nat
  max : Nat
  maxDts : DWord
  samples : Nat
deriving DecidableEq, Repr

/-- An empty histogram. -/
def Hist.empty : Hist := ⟨[], 0, 0, 0⟩

/-- The colours of a frame (R366). -/
inductive Colour where
  | green | yellow | red
deriving DecidableEq, Repr

/-- The traffic unit. Shapers are keyed 0 to 16,383 flow, 16,384 + q queue, 16,520 + p port; meters 0 to 16,383 flow,
16,384 + n tenant. -/
structure TrfState where
  shapers : Table Shaper
  meters : Table Meter
  /-- The tick whose slot was served last, and the wheel's entries: shaper number and the tick that serves it, in
  slot tick mod 4096 after (tick - P - 1) / 4096 further revolutions (R365). -/
  wheelPos : Nat
  wheel : List (Nat × Nat)
  gates : Table PortGates
  hists : Table Hist
  snap : Hist
  gateDrop : Table Word
  redDrop : Word
  tblData : Table Word
  tblErr : Bool
  /-- The DTS second multiple last sampled (R374). -/
  histLast : Int
  /-- The elapsed tick of the last sweep (R361). -/
  sweepLast : Nat
deriving DecidableEq, Repr

end Sys2Proof.Machine
end

