-- ==== Sys2Proof/Machine/WickTypes.lean ====
section
/-!
DEFINITION. Machine/WickTypes.lean: the state of the thirteen Wick cores, of the cluster directory and of the debug
module (chapter 10).
-/
namespace Sys2Proof.Machine

/-- A segment register (R296): base, limit and rights. -/
structure WSeg where
  base : BitVec 48
  limit : Word
  r : Bool
  w : Bool
  x : Bool
  c : Bool
deriving DecidableEq, Repr

/-- A segment that permits no access. -/
def WSeg.none : WSeg := ⟨0, 0, false, false, false, false⟩

/-- A line of a data cache: its line address (physical address / 64), its bytes, and whether it is dirty (M). -/
structure CacheLine where
  line : Nat
  bytes : List Byte
  dirty : Bool
deriving DecidableEq, Repr

/-- A customer routine under way on a core (R277, R319): its channel, and firmware's own PC, STATUS fields, CSP and
emergency frames. -/
structure WCall where
  channel : Nat
  pc : Word
  ie : Bool
  ld : Nat
  kcsp : Word
  ed : Nat
deriving DecidableEq, Repr

/-- A Wick core (R289 to R328). -/
structure WickCore where
  regs : Table Word
  pc : Word
  u : Bool
  ie : Bool
  ld : Nat
  ac : Nat
  cause : Word
  faddr : Word
  vbr : Word
  kdsp : Word
  kcsp : Word
  udsp : Word
  ucsp : Word
  ls : Vector Word 4
  le : Vector Word 4
  lc : Vector Word 4
  dtsh : Word
  /-- When the core last started, in elapsed units: CYCLE counts its 1.0 GHz cycles from then. -/
  since : Nat
  kscr0 : Word
  kscr1 : Word
  ksegs : Vector WSeg 8
  usegs : Vector WSeg 8
  ed : Nat
  mem : Mem
  /-- A load whose result is not yet committed (R306). -/
  load : Option (Fin 32 × Word)
  /-- The reserved line (R309). -/
  reservation : Option Nat
  dcache : List CacheLine
  /-- Lines the instruction cache holds. -/
  icache : List Nat
  waiting : Bool
  locked : Bool
  halted : Bool
  reason : BitVec 3
  haltReq : Bool
  /-- A breakpoint, watchpoint or BRK has called for a halt that waits for an ATOM block or a delay slot to end. -/
  due : Option (BitVec 3)
  /-- A debug step is in progress (R326). -/
  stepping : Bool
  brkHalt : Bool
  dregSel : BitVec 8
  dmemLo : Word
  dmemHi : BitVec 16
  autoinc : Bool
  peek : Bool
  bps : Vector Word 4
  wpAddr : Word
  wpCfg : BitVec 7
  /-- The channel whose CALL runs on this core, and what firmware goes on with when the CALL ends (R319). -/
  call : Option WCall
deriving DecidableEq, Repr

/-- The directory's state of a cluster line (Table 10-11); SHARED keeps the sharers, bit r for requester r. -/
inductive DirSt where
  | unowned
  | shared (who : BitVec 5)
  | owned (r : Fin 5)
deriving DecidableEq, Repr

/-- All Wick cores, the directory and the debug module. -/
structure WickState where
  cores : Vector WickCore 13
  dir : Table DirSt
  /-- RETRYs in a row of a requester for a line: keyed line · 8 + requester (R321). -/
  retries : Table Nat
  cluster : Mem
  lantern : Mem
  /-- The data and status of the debug module's last access (R323). -/
  dbgData : Word
  dbgStatus : BitVec 2
deriving DecidableEq, Repr

end Sys2Proof.Machine
end

