-- ==== Sys2Proof/Machine/State.lean ====
section
/-!
DEFINITION. Machine/State.lean: the state of the whole device, its state right after reset, and the reasons a step
can stop. The reset is the release of PORST_N (R8): every field is at the value the spec gives, or at the one that
the assumption log names.
-/
namespace Sys2Proof.Machine

/-- Faults of the model. The spec gives every command and event of the table an effect, so no meaning raises one. -/
inductive Fault where
  /-- Raised by no command. Safe: a state in which nothing stops allows all that the spec allows. -/
  | never
deriving DecidableEq, Repr

/-- Refusals of the model. -/
inductive Refusal where
  /-- Raised by an arm of the dispatch whose command has no meaning in the model yet. Safe: it stops. -/
  | notModelled (mnemonic : String)
deriving DecidableEq, Repr

/-- The device. -/
structure State where
  /-- The commands that wait, first in, first out. -/
  pending : List Instr
  time : TimeState
  stage : StageState
  qm : QmState
  codec : CodecState
  cmp : CmpState
  lmp : LmpState
  wick : WickState
  swc : SwcState
  trf : TrfState
  pool : PoolState
  dma : Table DmaCh
  /-- DMA_STATUS.REJECT (R392). -/
  dmaReject : Bool
  audit : AuditState
  icu : IcuState
  snuf : SnufState
  pwr : PwrState
  nvs : NvsState
  /-- The updates that run, by IMAGE (R459). -/
  updates : Table (Option Update)
  mgmt : MgmtState
  mail : MailState
  /-- What the device wrote to host memory. -/
  host : Mem
  /-- Device address space: DRAM and the general on-die pools, by Wick physical address (R13, Table 10-1). -/
  dev : Mem
  /-- 64-bit words of device space that hold poison, and those that hold a correctable error (R425): address / 8. -/
  poison : List Nat
  correctable : List Nat
  /-- RW fields that have been written: the register's word by live-view BAR0 offset, or by function times
  0x0100_0000 plus offset for a virtual function's page (R96); a register not listed holds its reset value. -/
  regs : Table (Option Word)
  /-- What the last read or request returned, zero-extended. -/
  rd : DWord
  out : List OutMsg
  /-- How many free values have been drawn (assumption 4). -/
  free : Nat
deriving DecidableEq, Repr

/-- The time unit at reset: DTS and ERA 0 (R54), nothing qualified (Table 02-8). -/
def TimeState.reset : TimeState where
  osc := 0
  run := 0
  dts := 0
  era := 0
  hiShadow := 0
  ptp := ⟨.none, .none, .none, false, false⟩
  pps := ⟨.none, .none, .none, false, false⟩
  clk10m := ⟨.none, .none, .none, false, false⟩
  selected := 0
  offset := 0
  freqAdj := 0
  freqRem := 0
  utc := 0
  gmClass := 248
  gmAccuracy := 0xFE
  gmSource := 0xA0
  traceable := false
  traceLostAt := 0
  holdover := false
  holdoverAt := 0
  hoSpecPassed := false
  noRefSince := .none
  slewing := false
  slewLeft := 0
  step := .none
  setRej := false
  groups := Vector.replicate 4 ⟨0, 0⟩
  stepOld := 0
  stepNew := 0
  stepDisp := 0
  stepCnt := 0
  overruns := []
  ptpPorts := []
  ptpSync := .none
  ptpSeq := []
  stamps := []
  ppsHigh := .none
  ppsSecond := 0

/-- The staging controller at reset: IDLE, PASS (Table 01-10). -/
def StageState.reset : StageState where
  st := .idle
  code := .pass
  holder := .none
  claimedAt := 0
  failAddr := 0
  failItem := 0
  armed := .none
  regs := []
  entries := []
  checkWaiter := .none
  applyWaiter := .none
  winner := .none
  loser := .none
  conflictDts := 0
  orders := []
  late := []
  lanternCycle := 0
  lanternWrites := []

/-- The queue manager at reset: no queue, no ring, every slot free. -/
def QmState.reset : QmState where
  sqs := []
  cqs := []
  slots := []
  arb := ⟨0, [], [], 0, .none, false⟩
  barriers := []
  finishNo := 0
  cqFull := false
  slotsOut := false
  hostLost := false
  rdy := 0
  aqPending := 0
  aqErr := 0
  resetting := 0
  fnLost := 0
  vfLost := 0
  linkUp := false
  linkWidth := 0
  linkSpeed := 0
  beats := []
  dbErr := 0
  dbErrFn := 0
  dbErrCq := false
  dbErrQ := 0
  orphans := 0
  gens := []
  decShare := []
  encShare := []
  modeReq := 0
  modeReqPending := false
  modeReqStatus := 0

/-- A codec core at reset: NO_MICROCODE (Table 07-7). -/
def CodecCore.reset : CodecCore where
  st := .noMicrocode
  job := .none
  part := 0
  reserved := .none
  share := .whole
  cycles := 0
  jobs := 0
  redone := 0
  fault := 0
  mcBase := 0
  mcPatch := 0
  patchRej := false
  baseSlot := false
  patchSlot := false
  upc := 0
  ustack := []
  ustopped := true
  microStore := []
  nanoStore := []
  issued := 0
  badParity := []

/-- The codec pool at reset. -/
def CodecState.reset : CodecState where
  cores := Vector.replicate 8 CodecCore.reset
  dec := []
  enc := []
  jobs := []
  jobSeq := 0
  openSeq := 0
  rr := Vector.replicate 3 0
  debt := []
  paced := []
  evictions := 0
  returning := 0
  copyLoaded := false
  copyBase := 0
  copyPatch := 0
  copyRej := false
  copyBaseSlot := false
  copyPatchSlot := false
  copyMicro := []
  copyNano := []

/-- The compositor at reset: every output CLOSED (Table 08-1). -/
def CmpState.reset : CmpState where
  outputs := []
  atlases := []
  glyphCnt := 0
  lateCnt := 0
  updateSeq := 0
  group := .none
  waiting := []
  counts := []

/-- Lamplighter at reset: every channel FREE, every core in service (Table 09-15). -/
def LmpState.reset : LmpState where
  chans := []
  busy := []
  queues := []
  cores := 0xF
  routines := []
  rtResult := 0
  handover := .none
  config := []
  sense := []
  unitErrors := []
  stuck := 0
  canFilters := []
  canRx := []
  busOff := 0
  gpioOut := 0
  gpioDrive := 0
  gpioIn := 0
  gpioPulses := []
  gpioEvents := []

/-- A Wick core at its start (R328, Tables 10-2 and 10-12). -/
def WickCore.reset : WickCore where
  regs := []
  pc := 0
  u := false
  ie := false
  ld := 0
  ac := 0
  cause := 0
  faddr := 0
  vbr := 0
  kdsp := 0
  kcsp := 0
  udsp := 0
  ucsp := 0
  ls := Vector.replicate 4 0
  le := Vector.replicate 4 0
  lc := Vector.replicate 4 0
  dtsh := 0
  since := 0
  kscr0 := 0
  kscr1 := 0
  ksegs := #v[⟨0x004000000000, 0x00200000, true, false, true, true⟩, WSeg.none, WSeg.none, WSeg.none,
    WSeg.none, WSeg.none, WSeg.none, WSeg.none]
  usegs := Vector.replicate 8 WSeg.none
  ed := 0
  mem := []
  load := .none
  reservation := .none
  dcache := []
  icache := []
  waiting := false
  locked := false
  halted := false
  reason := 0
  haltReq := false
  due := .none
  stepping := false
  brkHalt := false
  dregSel := 0
  dmemLo := 0
  dmemHi := 0
  autoinc := false
  peek := true
  bps := Vector.replicate 4 0
  wpAddr := 0
  wpCfg := 0
  call := .none

/-- The Wick cores, the directory and the debug module at reset. -/
def WickState.reset : WickState where
  cores := Vector.replicate 13 WickCore.reset
  dir := []
  retries := []
  cluster := []
  lantern := []
  dbgData := 0
  dbgStatus := 0

/-- The switch core at reset: external ports DISABLED, no tables, no frame (Tables 11-12 and 11-14). -/
def SwcState.reset : SwcState where
  ports := []
  portDue := []
  counters := []
  cntLatch := 0
  frames := []
  frameSeq := 0
  use := []
  allocated := 0
  peak := 0
  low := false
  vlan := []
  group := []
  classifier := []
  mac := []
  binding := []
  runs := []
  tblData := []
  tblErr := false
  sendQueues := []
  lastAging := 0

/-- The traffic unit at reset: every entry at its reset value, the wheel clear (R378). -/
def TrfState.reset : TrfState where
  shapers := []
  meters := []
  wheelPos := 0
  wheel := []
  gates := []
  hists := []
  snap := Hist.empty
  gateDrop := []
  redDrop := 0
  tblData := []
  tblErr := false
  histLast := 0
  sweepLast := 0

/-- The buffer pools at reset: pools 1 to 15 disabled (R381). -/
def PoolState.reset : PoolState := ⟨[], [], [], [], [], []⟩

/-- The auditor at reset. -/
def AuditState.reset : AuditState where
  pending := .none
  lastPass := .none
  lastTick := 0
  pass := 0
  viol := 0
  failLaws := 0
  lost := []
  struck := []
  frozen := .none
  firstLaw := 0
  firstUnit := 0
  firstIndex := 0
  accepted := []
  posted := []
  orphaned := []

/-- The interrupt controller at reset: nothing pending, every source masked (Table 14-11). -/
def IcuState.reset : IcuState where
  pend := 0
  mask := BitVec.allOnes 1024
  claims := Vector.replicate 14 []
  grouped := Vector.replicate 14 true
  wanted := true
  orderErr := false
  hostAsserted := false
  pilotSel := []
  pilotCause := .none

/-- The Snuffer at reset. -/
def SnufState.reset : SnufState where
  queue := []
  overflow := false
  lostSince := false
  seq := 0
  hist := []
  first := .none
  wins := []
  tests := []
  ended := []
  retiredCores := 0
  retiredLanes := 0
  fences := []
  spareRows := []
  sparedRows := []
  sparedPcs := []
  copyingPcs := []
  repairs := []
  isolated := []
  degrading := []
  passes := []
  retest := .none
  retestResult := 0
  corrected := 0
  halt := .none
  flicker := false
  flickerFrozen := false
  flickerAt := 0
  lastAccept := 0
  live := 0
  unlockPos := 0
  unlocked := false
  resets := []
  recoveryAt := .none
  recoveryEnded := .none
  sramCorrectable := []
  sramPoison := []

/-- Power and modes just after the release of PORST_N: BOOT, step 1, a cold start (R440, R472). -/
def PwrState.reset : PwrState where
  mode := .boot
  base := .service
  left := .service
  recFrom := .service
  change := .none
  resCode := .ok
  resMode := 0
  thermalCap := false
  powerCap := false
  capHeld := false
  dramHot := 0
  thermN := true
  gated := 0
  thermalBelow := .none
  powerBelow := .none
  capStep := 0
  temps := []
  tj := 0
  tjSensor := 0
  vin := 0
  iin := 0
  pin := 0
  pinPeak := 0
  rails := []
  brownOut := false
  vinBack := false
  bootStep := 1
  warm := false
  cold := true
  lastOff := 0
  timeWaitEnd := .none
  restartUsed := false
  fellBack := 0
  blobVersion := 0
  porstN := true
  warmRstN := true
  perstN := true
  pilotFromOff := false
  clk32kLost := false
  romBad := false
  inWarmReset := false
  releaseHeld := .none
  straps := 0
  clocksLost := 0
  wakeHeld := false
  wakesFrom := 0
  pilotAt := 0
  pilotTiming := false
  fabricDomain := 0
  fabricMaster := 0
  fabricAddr := 0
  fabricCnt := 0
  tap := 1
  provisioned := false
  nightGated := 0

/-- The non-volatile store as a device that has never been written holds it (assumption 14). -/
def NvsState.reset : NvsState where
  images := Vector.replicate 3 ⟨false, .invalid, .invalid, 0, 0⟩
  bootCtl := []
  retirement := []
  settings := []
  log := []
  seqs := Vector.replicate 4 0
  shutdown := 0
  persisted := []
  writes := []

/-- The whole device right after reset. -/
def State.reset : State where
  pending := []
  time := TimeState.reset
  stage := StageState.reset
  qm := QmState.reset
  codec := CodecState.reset
  cmp := CmpState.reset
  lmp := LmpState.reset
  wick := WickState.reset
  swc := SwcState.reset
  trf := TrfState.reset
  pool := PoolState.reset
  dma := []
  dmaReject := false
  audit := AuditState.reset
  icu := IcuState.reset
  snuf := SnufState.reset
  pwr := PwrState.reset
  nvs := NvsState.reset
  updates := []
  mgmt := ⟨0, 0, .none, .idle, .none, 0⟩
  mail := ⟨false, 0, 0, .ok, 0, .none, false⟩
  host := []
  dev := []
  poison := []
  correctable := []
  regs := []
  rd := 0
  out := []
  free := 0

end Sys2Proof.Machine
end

