-- ==== Sys2Proof/Machine/Tables.lean ====
section
/-!
DEFINITION. Machine/Tables.lean: the operations over sparse tables and over byte memories.
A table is canonical when its keys strictly rise and no entry holds the default; `Table.set` keeps that form.
-/
namespace Sys2Proof

/-- The value at a key; the default where the key is not listed. -/
def Table.get {α : Type} (d : α) : Table α → Nat → α
  | [], _ => d
  | (k, v) :: t, i => if k = i then v else Table.get d t i

/-- The entries of a table without the key `i`. -/
def Table.del {α : Type} : Table α → Nat → Table α
  | [], _ => []
  | (k, v) :: t, i => if k = i then Table.del t i else (k, v) :: Table.del t i

/-- Put an entry in key order, replacing the one at the key. -/
def Table.put {α : Type} : Table α → Nat → α → Table α
  | [], i, x => [(i, x)]
  | (k, v) :: t, i, x =>
    if k = i then (i, x) :: t else if i < k then (i, x) :: (k, v) :: t else (k, v) :: Table.put t i x

/-- Write a key: an entry at the default is not listed. -/
def Table.set {α : Type} [DecidableEq α] (d : α) (t : Table α) (i : Nat) (x : α) : Table α :=
  if x = d then Table.del t i else Table.put t i x

/-- Apply a function to the value at a key. -/
def Table.upd {α : Type} [DecidableEq α] (d : α) (t : Table α) (i : Nat) (f : α → α) : Table α :=
  Table.set d t i (f (Table.get d t i))

/-- Keys strictly rise and lie above `lo`, and no entry holds the default. -/
def Table.wfFrom {α : Type} [DecidableEq α] (d : α) : Nat → Table α → Bool
  | _, [] => true
  | lo, (k, v) :: t => decide (lo ≤ k) && decide (v ≠ d) && Table.wfFrom d (k + 1) t

/-- The canonical form of a table. -/
def Table.wf {α : Type} [DecidableEq α] (d : α) (t : Table α) : Bool := Table.wfFrom d 0 t

/-- The keys that are listed. -/
def Table.keys {α : Type} (t : Table α) : List Nat := t.map Prod.fst

/-- The least number below `n` that the test accepts. -/
def firstBelow (n : Nat) (p : Nat → Bool) : Option Nat := (List.range n).find? p

/-- How many numbers below `n` the test accepts. -/
def countBelow (n : Nat) (p : Nat → Bool) : Nat := ((List.range n).filter p).length

/-- One byte of a memory. -/
def Mem.byte (m : Mem) (a : Nat) : Byte := Table.get 0 m a

/-- Write one byte of a memory. -/
def Mem.setByte (m : Mem) (a : Nat) (b : Byte) : Mem := Table.set 0 m a b

/-- The canonical form of a byte memory. -/
def Mem.wf (m : Mem) : Bool := Table.wf 0 m

/-- `n` bytes from address `a`, lowest address first. -/
def Mem.bytes (m : Mem) (a : Nat) : Nat → List Byte
  | 0 => []
  | n + 1 => m.byte a :: Mem.bytes m (a + 1) n

/-- The entries that a list of bytes from address `a` makes: a zero byte is not listed. -/
def Mem.cells (a : Nat) : List Byte → Mem
  | [] => []
  | b :: bs => if b = 0 then Mem.cells (a + 1) bs else (a, b) :: Mem.cells (a + 1) bs

/-- Write a list of bytes from address `a`. -/
def Mem.setBytes (m : Mem) (a : Nat) (bs : List Byte) : Mem :=
  m.filter (fun e => decide (e.1 < a)) ++ Mem.cells a bs ++ m.filter (fun e => decide (a + bs.length ≤ e.1))

/-- The number that bytes spell, little-endian (R7). -/
def leNat : List Byte → Nat
  | [] => 0
  | b :: bs => b.toNat + 256 * leNat bs

/-- The `n` little-endian bytes of a number (R7). -/
def leBytes : Nat → Nat → List Byte
  | 0, _ => []
  | n + 1, x => BitVec.ofNat 8 x :: leBytes n (x / 256)

/-- The number that bytes spell in network order. -/
def beNat (bs : List Byte) : Nat := leNat bs.reverse

/-- The `n` bytes of a number in network order. -/
def beBytes (n x : Nat) : List Byte := (leBytes n x).reverse

/-- `n` bytes of a list from position `i`, little-endian, as a number. -/
def fieldLe (bs : List Byte) (i n : Nat) : Nat := leNat ((bs.drop i).take n)

/-- `n` bytes of a list from position `i`, in network order, as a number. -/
def fieldBe (bs : List Byte) (i n : Nat) : Nat := beNat ((bs.drop i).take n)

/-- Bits `hi` down to `lo` of a number. -/
def bits (x hi lo : Nat) : Nat := (x / 2 ^ lo) % 2 ^ (hi + 1 - lo)

/-- Bit `i` of a number. -/
def bit (x i : Nat) : Bool := (x / 2 ^ i) % 2 == 1

/-- A number's one bit as 0 or 1. -/
def b2n (b : Bool) : Nat := if b then 1 else 0

/-- Divide, rounding up. -/
def ceilDiv (a b : Nat) : Nat := (a + b - 1) / b

/-- Saturating increment of a count whose greatest value is `top`. -/
def satInc (top x : Nat) : Nat := if x < top then x + 1 else top

/-- Saturating addition to a count whose greatest value is `top`. -/
def satAdd (top x y : Nat) : Nat := min top (x + y)

/-- Replace position `i` of a list; a list shorter than that stays. -/
def setAt {α : Type} : List α → Nat → α → List α
  | [], _, _ => []
  | _ :: t, 0, x => x :: t
  | h :: t, n + 1, x => h :: setAt t n x

/-- Apply a function at position `i` of a list. -/
def updAt {α : Type} : List α → Nat → (α → α) → List α
  | [], _, _ => []
  | h :: t, 0, f => f h :: t
  | h :: t, n + 1, f => h :: updAt t n f

/-- Put an element into a sorted list, before the first it may precede. -/
def insertBy {α : Type} (le : α → α → Bool) (x : α) : List α → List α
  | [] => [x]
  | h :: t => if le x h then x :: h :: t else h :: insertBy le x t

/-- Sort a list. -/
def insertionSort {α : Type} (le : α → α → Bool) (l : List α) : List α := l.foldr (insertBy le) []

/-- Run a state change for each element of a list, first to last. -/
def forEach {α σ : Type} (l : List α) (s : σ) (f : α → σ → σ) : σ := l.foldl (fun s x => f x s) s

end Sys2Proof
end

