-- ==== Sys2Proof/Machine/Ops.lean ====
section
/-!
DEFINITION. Machine/Ops.lean: the operations every unit uses: the passage of time, stored registers, the memories with
their poison, the ports, the interrupt controller's pending bits, fault messages and the event log.
-/
namespace Sys2Proof.Machine

/-- The code of a mode (Table 00-3). -/
def Mode.code : Mode → Nat
  | .off => 0 | .pilot => 1 | .boot => 2 | .provision => 3 | .service => 4 | .night => 5 | .limited => 6
  | .continuity => 7 | .standby => 8 | .recovery => 9 | .update => 10 | .test => 11

/-- SERVICE, NIGHT, LIMITED or CONTINUITY. -/
def Mode.media : Mode → Bool
  | .service | .night | .limited | .continuity => true
  | _ => false

/-- The modes without ticks (Table 02-6). -/
def Mode.dark : Mode → Bool
  | .off | .pilot | .boot => true
  | _ => false

/-- A number of DTS units in a second. -/
def second : Nat := 16000000000
/-- A number of DTS units in a millisecond. -/
def millisecond : Nat := 16000000
/-- A number of DTS units in a microsecond. -/
def microsecond : Nat := 16000

/-- The full device time in units: ERA · 2^64 + DTS (R35). An ERA with its top bit set stands for a time before the PTP
epoch, which a backward step can reach. -/
def State.fullTime (s : State) : Int := s.time.era.toInt * (2 ^ 64 : Nat) + (s.time.dts.toNat : Nat)

/-- Set the full device time (R35). -/
def State.setFullTime (s : State) (t : Int) : State :=
  let n := (t % (2 ^ 80 : Nat)).toNat
  { s with time := { s.time with dts := BitVec.ofNat 64 n, era := BitVec.ofNat 16 (n / 2 ^ 64) } }

/-- The elapsed time in units of 1/16 ns. -/
def State.now (s : State) : Nat := s.time.osc

/-- The word of a register that holds RW fields, by live-view offset, as a number: `reset` where it has not been
written. -/
def State.regOr (s : State) (reset off : Nat) : Nat :=
  match Table.get .none s.regs off with
  | some v => v.toNat
  | none => reset

/-- Write the stored word of a register. -/
def State.setReg (s : State) (off : Nat) (v : Word) : State :=
  { s with regs := Table.set .none s.regs off (some v) }

/-- Return the stored words of the registers from `lo` to below `hi` to their reset values. -/
def State.clearRegs (s : State) (lo hi : Nat) : State :=
  { s with regs := s.regs.filter (fun e => !(decide (lo ≤ e.1) && decide (e.1 < hi))) }

/-- The largest slew of an interval of `n` units: TIME_RET_CFG.SLEW_MAX ppm of it, no more than is left (R50). -/
def State.slewPart (s : State) (n : Nat) : Int :=
  let ppm := bits (s.regOr 0x6405 0x10034) 15 8
  let most : Int := (n * ppm / 1000000 : Nat)
  if s.time.slewLeft < 0 then - (min most (-s.time.slewLeft)) else min most s.time.slewLeft

/-- DTS runs in this mode (Table 02-6). -/
def State.timeKept (s : State) : Bool :=
  match s.pwr.mode with
  | .off | .pilot => false
  | _ => true

/-- The units in 2^−16 ppm of which the frequency correction is counted (Table 02-8): 2^16 × 10^6. -/
def freqUnit : Int := 65536000000

/-- The frequency correction of `n` units of REFCLK_SYS time, in whole units of DTS: TIME_FREQ_ADJ of the interval, with
what was left of it before (R42). -/
def State.freqPart (s : State) (n : Nat) : Int := (n * s.time.freqAdj.toInt + s.time.freqRem) / freqUnit

/-- Let `n` units of elapsed time pass, of which DTS makes `n + k + f`: `k` by a slew and `f` by the frequency
correction, whose remainder is kept. -/
def State.pass (s : State) (n : Nat) (k f : Int) : State :=
  let s1 := { s with time := { s.time with
    osc := s.time.osc + n, run := ((s.time.run + n : Nat) + k + f).toNat, slewLeft := s.time.slewLeft - k
    freqRem := s.time.freqRem + n * s.time.freqAdj.toInt - f * freqUnit } }
  if s.timeKept then s1.setFullTime (s.fullTime + n + k + f) else s1

/-- Let `n` units of elapsed time pass: DTS runs from REFCLK_SYS as the frequency correction disciplines it (R42), slewing
where a slew is in progress (R50). -/
def State.advance (s : State) (n : Nat) : State := s.pass n (s.slewPart n) (s.freqPart n)

/-- Let time pass until an instant of elapsed time, if it is later than now. -/
def State.advanceTo (s : State) (t : Nat) : State := if s.time.osc < t then s.advance (t - s.time.osc) else s

/-- Let `d` units of DTS pass: the elapsed time is what the slew and the frequency correction leave of them, rounded to a
whole unit (R42, R50). -/
def State.advanceDts (s : State) (d : Nat) : State :=
  let k := s.slewPart d
  let n := (((d : Int) - k) * freqUnit / (freqUnit + s.time.freqAdj.toInt)).toNat
  s.pass n k ((d : Int) - k - n)

/-- Let time pass until the full device time is `t`, if that is later than now. -/
def State.advanceToDts (s : State) (t : Int) : State :=
  if s.fullTime < t then s.advanceDts (t - s.fullTime).toNat else s

/-- Let time pass until `t` DTS units have elapsed, if that is later than now (R256). -/
def State.advanceToRun (s : State) (t : Nat) : State :=
  if s.time.run < t then s.advanceDts (t - s.time.run) else s

/-- The block idles: one unit of time passes (assumption 2). -/
def idle (s : State) : State := s.advance 1

/-- A message leaves the device. -/
def State.emit (s : State) (m : OutMsg) : State := { s with out := m :: s.out }

/-- Draw a free value (assumption 4). -/
def State.drawFree (s : State) : Nat × State := (Config.freeNat s.free, { s with free := s.free + 1 })

/-- What a read, or a request, returns. -/
def State.setRd (s : State) (n : Nat) : State := { s with rd := BitVec.ofNat 64 n }

/-- HALT is in force: every unit but Pilot, the Lantern core and the configuration space is stopped (R427). -/
def State.halted (s : State) : Bool := s.snuf.halt.isSome

/-- The device neither stands in OFF, PILOT or BOOT, nor in HALT, nor in warm reset: its units work. -/
def State.live (s : State) : Bool := !s.pwr.mode.dark && !s.halted && !s.pwr.inWarmReset

/-- The units work and no brown-out has shed the load: the codec cores, the compositor and the SerDes lanes run (R457). -/
def State.loaded (s : State) : Bool := s.live && !s.pwr.brownOut

/-- The register block answers: the device is powered and not in PILOT. -/
def State.powered (s : State) : Bool :=
  match s.pwr.mode with
  | .off | .pilot => false
  | _ => !s.pwr.inWarmReset

/-- The blocks that BAR0 reaches before PROVISION is first entered: IDENT, SYS, PWR and the mailbox (R476). -/
def earlyBlock (off : Nat) : Bool := decide (off < 0x10000) || (decide (0x60000 ≤ off) && decide (off < 0x80000))

/-- An access through BAR0 to a live-view or staging offset has an effect (R476). -/
def State.bar0 (s : State) (off : Nat) : Bool := s.powered && (s.pwr.provisioned || earlyBlock off)

/-- The physical function or the Lantern core: the masters that reach BAR0's register blocks (R33). -/
def masterDirect : Master → Bool
  | .lantern => true
  | .fn f => f == 0
  | .chan _ => false

/-- A register access of a master has an effect: BAR0 is the physical function's; the Lantern core reaches the
registers over the fabric. -/
def State.access (s : State) (m : Master) (off : Nat) : Bool :=
  match m with
  | .lantern => s.powered
  | .fn f => f == 0 && s.bar0 off
  | .chan _ => false

/-- The Snuffer and the ICU run: in every mode except OFF and PILOT, in BOOT from boot step 3 (R431). -/
def State.collectorRuns (s : State) : Bool :=
  match s.pwr.mode with
  | .off | .pilot => false
  | .boot => decide (3 ≤ s.pwr.bootStep)
  | _ => true

/-- The bytes that a record with a payload of `len` bytes occupies, its trailer included (R452). -/
def recSize (len : Nat) : Nat := 64 * ceilDiv (32 + len) 64 + 64

/-- Put a record into an area of `size` bytes that is written as a ring: one that does not fit before the end starts at the
beginning, and records are overwritten oldest first (R456). -/
def placeRecord (l : List LogRec) (size : Nat) (r : LogRec) : List LogRec :=
  let n := recSize r.payload.length
  let next := match l.head? with
    | some x => x.pos + recSize x.payload.length
    | none => 0
  let wraps := decide (size < next + n)
  let p := if wraps then 0 else next
  { r with pos := p } :: l.filter (fun x =>
    (decide (x.pos + recSize x.payload.length ≤ p) || decide (p + n ≤ x.pos)) && !(wraps && decide (next ≤ x.pos)))

/-- The write of a record begins: each write of up to 64 bytes takes 0.5 µs, the clearing of the commit word, the data, the CRC and the
commit word in turn (R453); a record waits for the one before it. -/
def NvsState.startWrite (n : NvsState) (area seq len now : Nat) : NvsState :=
  let l := n.writes.filter (fun w => decide (now < w.ends))
  let t := match l.getLast? with | some w => w.ends | none => now
  { n with writes := l ++ [⟨area, seq, t, t + (ceilDiv (32 + len) 64 + 3) * (microsecond / 2)⟩] }

/-- Append a record to the event log (R452, R456): its sequence number counts up from 1. In a brown-out no new record is
started (R457). -/
def State.logRecord (s : State) (type fn : Nat) (payload : List Byte) : State :=
  if s.pwr.brownOut then s
  else
    let q := s.nvs.seqs[3] + 1
    { s with nvs := ({ s.nvs with
      log := placeRecord s.nvs.log 0x1000000 ⟨type, fn, q, s.time.dts, payload, 0⟩
      seqs := s.nvs.seqs.set 3 q } : NvsState).startWrite 3 q payload.length s.now }

/-! ### Interrupt sources -/

/-- ICU_SRC_CFG[n] (Table 14-11). -/
def State.srcCfg (s : State) (n : Nat) : Nat := s.regOr 0x800F (0x41000 + 4 * n)

/-- A source is pending, unmasked and routed to target `t`. -/
def State.srcReady (s : State) (t n : Nat) : Bool :=
  s.icu.pend.getLsbD n && !s.icu.mask.getLsbD n && bits (s.srcCfg n) 3 0 == t

/-- ICU_CFG.SPLIT: values above 8 act as 8. -/
def State.icuSplit (s : State) : Nat := min 8 (bits (s.regOr 0x400 0x40000) 11 8)

/-- The group of a source (R406). -/
def State.srcGroup (s : State) (n : Nat) : Nat := bits (s.srcCfg n) 15 8 / 2 ^ s.icuSplit

/-- The rank of a source: group, then sub-priority, then number (R406), as one number. -/
def State.srcRank (s : State) (n : Nat) : Nat := bits (s.srcCfg n) 15 8 * 1024 + n

/-- The source of least rank in a list. -/
def State.bestSource (s : State) : List Nat → Option Nat
  | [] => none
  | n :: t =>
    match s.bestSource t with
    | none => some n
    | some m => if s.srcRank m < s.srcRank n then some m else some n

/-- The sources that are pending, unmasked and routed to target `t`, in ascending order. -/
def State.readySources (s : State) (t : Nat) : List Nat :=
  if s.icu.pend &&& ~~~s.icu.mask = 0 then [] else (List.range 1024).filter (s.srcReady t)

/-- The source that the scheme in force has ready to claim for target `t` (R405, R406). -/
def State.readySource (s : State) (t : Fin 14) : Option Nat :=
  let l := s.readySources t
  let st := s.icu.claims[t]
  if s.icu.grouped[t] then
    match s.bestSource l with
    | none => none
    | some n =>
      match st with
      | [] => some n
      | top :: _ => if s.srcGroup n < s.srcGroup top ∧ st.length < 8 then some n else none
  else if st.isEmpty then l.head? else none

/-- When HOST changes from not asserted to asserted, one MSI-X message is sent on ICU_HOST_VEC, if enabled (R402). -/
def State.hostCheck (s : State) : State :=
  let a := (s.readySource 13).isSome
  let s1 := { s with icu := { s.icu with hostAsserted := a } }
  let v := s.regOr 0 0x40008
  if a && !s.icu.hostAsserted && bit v 16 then s1.emit (.msix 0 (bits v 10 0)) else s1

/-- Raise an interrupt source: its pending bit is set (R401). -/
def State.raise (s : State) (n : Nat) : State :=
  if s.collectorRuns then
    { s with icu := { s.icu with pend := s.icu.pend ||| (1 <<< n) } }.hostCheck
  else s

/-! ### Fault messages -/

/-- Send a fault message to the Snuffer (R411); one that finds the input queue of 256 full is lost (R414). -/
def State.faultPart (s : State) (part : Bool) (source kind address : Nat) : State :=
  if s.collectorRuns then
    if s.snuf.queue.length < 256 then
      { s with snuf := { s.snuf with
        queue := s.snuf.queue ++
          [⟨BitVec.ofNat 10 source, BitVec.ofNat 8 kind, BitVec.ofNat 48 address, s.time.dts, part, s.snuf.lostSince⟩]
        lostSince := false } }
    else
      { s with snuf := { s.snuf with overflow := true, lostSince := true } }.raise 7
  else s

/-- Send a fault message. -/
def State.fault (s : State) (source kind address : Nat) : State := s.faultPart false source kind address

/-! ### Memories -/

/-- DRAM, by Wick physical address and by device address (R13). -/
def inDram (a : Nat) : Bool := decide (a < 0x800000000)
/-- The general on-die pools (Table 10-1). -/
def inOnDie (a : Nat) : Bool := decide (0x1000000000 ≤ a) && decide (a < 0x1000800000)
/-- The firmware region (Table 01-3). -/
def inFirmware (a : Nat) : Bool := decide (a < 0x40000000)
/-- A range of device space, all in DRAM or all in the on-die pools. -/
def inDevice (a n : Nat) : Bool :=
  (inDram a && decide (a + n ≤ 0x800000000)) || (inOnDie a && decide (a + n ≤ 0x1000800000))

/-- The fault source and address of a word of device space: its DRAM stack by address bit 8 (R492), or bank 0x07E with
the byte offset. -/
def eccSource (a : Nat) : Nat × Nat :=
  if inDram a then (0x080 + bits a 8 8, a) else (0x07E, a - 0x1000000000)

/-- Send CORRECTED (1) or UNCORRECTED (2) for the words of a list (R425, R426). -/
def State.eccFaults (s : State) (part : Bool) (kind : Nat) (ws : List Nat) : State :=
  forEach ws s (fun w s => s.faultPart part (eccSource (8 * w)).1 kind (eccSource (8 * w)).2)

/-- A word's bytes all lie within the range of `n` bytes from `a`. -/
def wholeWord (a n w : Nat) : Bool := decide (a ≤ 8 * w) && decide (8 * w + 8 ≤ a + n)
/-- A word has a byte within the range of `n` bytes from `a`. -/
def touchesWord (a n w : Nat) : Bool := decide (a < 8 * w + 8) && decide (8 * w < a + n)

/-- Write bytes to device space: a whole word gets fresh check bits and loses its error or poison (R425); a partial
write corrects a correctable word and leaves a poisoned one poisoned, and sends the message with PARTIAL (R426). -/
def State.devWrite (s : State) (a : Nat) (bs : List Byte) : State :=
  let n := bs.length
  let part := fun w => touchesWord a n w && !wholeWord a n w
  let ce := s.correctable.filter part
  let ue := s.poison.filter part
  let s1 := { s with
    dev := s.dev.setBytes a bs
    poison := s.poison.filter (fun w => !wholeWord a n w)
    correctable := s.correctable.filter (fun w => !touchesWord a n w) }
  (s1.eccFaults true 1 ce).eccFaults true 2 ue

/-- The poisoned words a range touches. -/
def State.poisonIn (s : State) (a n : Nat) : List Nat := s.poison.filter (touchesWord a n)

/-- What reading a range of device space does: words with a correctable error are corrected and reported, poisoned
words are reported (R425). -/
def State.devRead (s : State) (a n : Nat) : State :=
  let ce := s.correctable.filter (touchesWord a n)
  let s1 := { s with correctable := s.correctable.filter (fun w => !touchesWord a n w) }
  (s1.eccFaults false 1 ce).eccFaults false 2 (s.poisonIn a n)

/-- Put a word in a sorted list of words. -/
def insertWord : List Nat → Nat → List Nat
  | [], w => [w]
  | h :: t, w => if w = h then h :: t else if w < h then w :: h :: t else h :: insertWord t w

/-- Mark the words of a range of device space as poisoned. -/
def State.poisonWords (s : State) (ws : List Nat) : State :=
  { s with poison := ws.foldl insertWord s.poison }

/-- Write bytes to host memory. -/
def State.hostWrite (s : State) (a : Nat) (bs : List Byte) : State := { s with host := s.host.setBytes a bs }

/-- Write bytes at a 64-bit address whose bit 63 selects host space (0) or device space (1). -/
def State.spaceWrite (s : State) (a : DWord) (bs : List Byte) : State :=
  if a.getLsbD 63 then s.devWrite (a.toNat % 2 ^ 63) bs else s.hostWrite a.toNat bs

end Sys2Proof.Machine
end

