-- ==== Sys2Proof/Machine/Operands.lean ====
section
/-!
DEFINITION. Machine/Operands.lean: the codes and the fields of commands, completions and addresses: the common status
codes, the numbering of masters, object handles, and the forms in which a command names a time.
-/
namespace Sys2Proof.Machine

/-- The common status codes (Table 04-5). -/
def Status.code : Status → Nat
  | .ok => 0x00 | .okRedone => 0x01 | .okConcealed => 0x02 | .invalidOpcode => 0x10 | .invalidField => 0x11
  | .invalidQueue => 0x12 | .noResource => 0x13 | .busy => 0x14 | .conflict => 0x15 | .notPermitted => 0x16
  | .admissionDenied => 0x17 | .aborted => 0x20 | .deadlineMissed => 0x21 | .evicted => 0x22 | .dataError => 0x30
  | .mediaError => 0x31 | .busError => 0x32 | .deviceFault => 0x40

/-- A status that counts as success (R105). -/
def Status.good (x : Status) : Bool := decide (x.code ≤ 2)

/-- The class of a master, coded as SYS_STAGE_STATUS.OWNER (Table 01-10). -/
def masterClass : Master → Nat
  | .lantern => 1
  | .fn f => if f.val = 0 then 2 else 3
  | .chan _ => 4

/-- The number of a master within its class (Table 01-10). -/
def masterNumber : Master → Nat
  | .lantern => 0
  | .fn f => f.val
  | .chan c => c.val

/-- The place of a master in the order of precedence (R27): lower is higher. -/
def masterRank : Master → Nat
  | .lantern => 0
  | .fn f => 1 + f.val
  | .chan c => 17 + c.val

/-- A handle (Table 04-1): type 1 decode stream, 2 encode stream, 3 output, 4 send queue, 5 channel. -/
def handleOf (type index fn gen : Nat) : Nat := index % 65536 + 65536 * type + 2 ^ 24 * (fn % 16) + 2 ^ 32 * gen

/-- The space bit of a 64-bit address: device (true) or host (false). -/
def isDevice (a : DWord) : Bool := a.getLsbD 63
/-- The address within its space. -/
def spaceOff (a : DWord) : Nat := a.toNat % 2 ^ 63

end Sys2Proof.Machine
end

