-- ==== Sys2Proof/Machine/Clock.lean ====
section
/-!
DEFINITION. Machine/Clock.lean: tick groups, target ticks and overrun counts (R44 to R49).
-/
namespace Sys2Proof.Machine

/-- The rate N/D Hz of a rate code (Table 02-4); code 15 is illegal and no check lets it through. -/
def rateOf (code : Nat) : Nat × Nat :=
  match code with
  | 0 => (24, 1) | 1 => (25, 1) | 2 => (30, 1) | 3 => (48, 1) | 4 => (50, 1) | 5 => (60, 1) | 6 => (100, 1)
  | 7 => (120, 1) | 8 => (240, 1) | 9 => (24000, 1001) | 10 => (30000, 1001) | 11 => (48000, 1001)
  | 12 => (60000, 1001) | 13 => (120000, 1001) | 14 => (240000, 1001) | _ => (60, 1)

/-- TIME_GRP_CFG[g]. -/
def State.grpCfg (s : State) (g : Nat) : Nat := s.regOr (if g = 0 then 11 else 10) (0x10050 + 4 * g)
/-- The rate of a group in Hz, as numerator and denominator. -/
def State.grpRate (s : State) (g : Nat) : Nat × Nat := rateOf (bits (s.grpCfg g) 4 1)
/-- The period of a group is this number of DTS units over the second number (R44). -/
def State.period (s : State) (g : Nat) : Nat × Nat := (second * (s.grpRate g).2, (s.grpRate g).1)
/-- The period of a group in whole DTS units. -/
def State.periodUnits (s : State) (g : Nat) : Nat := (s.period g).1 / (s.period g).2
/-- TICK_EPOCH, as a full device time of ERA 0: DESIGN CHOICE, assumption 33. -/
def State.tickEpoch (s : State) : Int := (s.regOr 0 0x10040 + 2 ^ 32 * s.regOr 0 0x10044 : Nat)

/-- The full device time of tick `k` of a group: the first unit at or after TICK_EPOCH + k × P, TICK_EPOCH taken as a time of
ERA 0 (R44; that it is not taken modulo 2^64 is a DESIGN CHOICE, assumption 33). -/
def State.tickTime (s : State) (g : Nat) (k : Int) : Int := s.tickEpoch - (-(k * (s.period g).1)) / ((s.period g).2 : Nat)
/-- The number of the last tick of a group at or before a time. -/
def State.tickBefore (s : State) (g : Nat) (t : Int) : Int := ((t - s.tickEpoch) * (s.period g).2) / ((s.period g).1 : Nat)
/-- The number of the first tick of a group at or after a time. -/
def State.tickFrom (s : State) (g : Nat) (t : Int) : Int := s.tickBefore g (t - 1) + 1

/-- The group's next tick that occurs. -/
def State.nextTick (s : State) (g : Fin 4) : Int := s.time.groups[g].next
/-- Set a group's next tick. -/
def State.setNext (s : State) (g : Fin 4) (k : Int) : State :=
  { s with time.groups := s.time.groups.set g { s.time.groups[g] with next := k } }

/-- A tick number in 62 bits (R46). -/
def tick62 (k : Int) : BitVec 62 := BitVec.ofInt 62 k
/-- A target tick as a 64-bit reference (R47). -/
def Target.ref (t : Target) : Nat := t.group.val * 2 ^ 62 + (tick62 t.tick).toNat
/-- The tick of a group that a 62-bit number names, by its difference from the group's last tick (R46). -/
def State.tickOf (s : State) (g : Fin 4) (n : Nat) : Int :=
  let last := s.nextTick g - 1
  last + (BitVec.ofNat 62 n - tick62 last).toInt

/-- The value of a target tick reference that names the next tick (R47). -/
def nextRef : Nat := 0x3FFFFFFFFFFFFFFF

/-- Resolve a target tick reference at dispatch (R47). -/
def State.resolve (s : State) (ref : Nat) : Target :=
  let g : Fin 4 := Fin.ofNat 4 (ref / 2 ^ 62)
  let n := ref % 2 ^ 62
  if n = nextRef then
    let p : Int := ((s.period g.val).1 + (s.period g.val).2 - 1) / (s.period g.val).2
    ⟨g, max (s.nextTick g) (s.tickFrom g.val (s.fullTime + p))⟩
  else ⟨g, s.tickOf g n⟩

/-- The instant of a target. -/
def State.targetTime (s : State) (t : Target) : Int := s.tickTime t.group.val t.tick
/-- A target is past: its tick has occurred. -/
def State.isPast (s : State) (t : Target) : Bool := decide (t.tick < s.nextTick t.group)
/-- A job that names this target is eligible: it names the next tick of the group, or an earlier one (R16, step 6). -/
def State.isDue (s : State) (t : Target) : Bool := decide (t.tick ≤ s.nextTick t.group)

/-- A missing job adds one to the count of its function (R49); ICU source 24. -/
def State.overrun (s : State) (fn : Nat) : State :=
  { s with time.overruns := Table.upd 0 s.time.overruns fn (satInc 0xFFFFFFFF) }.raise 24

/-- One more of a saturating 32-bit count. -/
def incWord (w : Word) : Word := BitVec.ofNat 32 (satInc 0xFFFFFFFF w.toNat)

/-- The RTP timestamp of an instant (R189). -/
def rtpStamp (t : Int) : Nat := ((t * 9 / 1600000) % (2 ^ 32 : Nat)).toNat

/-- The group's ticks begin: its next tick is the first after now. -/
def State.startGroup (s : State) (g : Fin 4) : State :=
  let k := s.tickBefore g.val s.fullTime
  { s with time.groups := s.time.groups.set g ⟨tick62 k, k + 1⟩ }

end Sys2Proof.Machine
end

