-- ==== Sys2Proof/Machine/Levels.lean ====
section
/-!
DEFINITION. Machine/Levels.lean: the figures of the standards' levels that the costs of R196, the pools of R135 and the
limits of R163 refer to. The spec names ITU-T H.264 Table A-1, H.265 Tables A.8 and A.9 and the AV1 levels of Annex A;
the figures are PRESUMED from those standards (assumption 17).
-/
namespace Sys2Proof.Machine

/-- What a level allows: the code at OPEN, bit rate in kbit/s, picture size and luma rate (in macroblocks for H.264, in
samples for HEVC and AV1), greatest width and height, decoded-picture-buffer size in macroblocks for H.264. -/
structure Level where
  code : Nat
  kbps : Nat
  size : Nat
  rate : Nat
  maxW : Nat
  maxH : Nat
  dpb : Nat
deriving DecidableEq, Repr

/-- H.264 levels, by level_idc. -/
def levelsH264 : List Level :=
  [⟨9, 128, 99, 1485, 0, 0, 396⟩, ⟨10, 64, 99, 1485, 0, 0, 396⟩, ⟨11, 192, 396, 3000, 0, 0, 900⟩,
   ⟨12, 384, 396, 6000, 0, 0, 2376⟩, ⟨13, 768, 396, 11880, 0, 0, 2376⟩, ⟨20, 2000, 396, 11880, 0, 0, 2376⟩,
   ⟨21, 4000, 792, 19800, 0, 0, 4752⟩, ⟨22, 4000, 1620, 20250, 0, 0, 8100⟩, ⟨30, 10000, 1620, 40500, 0, 0, 8100⟩,
   ⟨31, 14000, 3600, 108000, 0, 0, 18000⟩, ⟨32, 20000, 5120, 216000, 0, 0, 20480⟩,
   ⟨40, 20000, 8192, 245760, 0, 0, 32768⟩, ⟨41, 50000, 8192, 245760, 0, 0, 32768⟩,
   ⟨42, 50000, 8704, 522240, 0, 0, 34816⟩, ⟨50, 135000, 22080, 589824, 0, 0, 110400⟩,
   ⟨51, 240000, 36864, 983040, 0, 0, 184320⟩, ⟨52, 240000, 36864, 2073600, 0, 0, 184320⟩]

/-- HEVC levels, by general_level_idc, Main tier. -/
def levelsHevc : List Level :=
  [⟨30, 128, 36864, 552960, 0, 0, 0⟩, ⟨60, 1500, 122880, 3686400, 0, 0, 0⟩, ⟨63, 3000, 245760, 7372800, 0, 0, 0⟩,
   ⟨90, 6000, 552960, 16588800, 0, 0, 0⟩, ⟨93, 10000, 983040, 33177600, 0, 0, 0⟩,
   ⟨120, 12000, 2228224, 66846720, 0, 0, 0⟩, ⟨123, 20000, 2228224, 133693440, 0, 0, 0⟩,
   ⟨150, 25000, 8912896, 267386880, 0, 0, 0⟩, ⟨153, 40000, 8912896, 534773760, 0, 0, 0⟩,
   ⟨156, 60000, 8912896, 1069547520, 0, 0, 0⟩, ⟨180, 60000, 35651584, 1069547520, 0, 0, 0⟩,
   ⟨183, 120000, 35651584, 2139095040, 0, 0, 0⟩]

/-- AV1 levels, by seq_level_idx, Main tier. -/
def levelsAv1 : List Level :=
  [⟨0, 1500, 147456, 4423680, 2048, 1152, 0⟩, ⟨1, 3000, 278784, 8363520, 2816, 1584, 0⟩,
   ⟨4, 6000, 665856, 19975680, 4352, 2448, 0⟩, ⟨5, 10000, 1065024, 31950720, 5504, 3096, 0⟩,
   ⟨8, 12000, 2359296, 70778880, 6144, 3456, 0⟩, ⟨9, 20000, 2359296, 141557760, 6144, 3456, 0⟩,
   ⟨12, 30000, 8912896, 267386880, 8192, 4352, 0⟩, ⟨13, 40000, 8912896, 534773760, 8192, 4352, 0⟩,
   ⟨14, 60000, 8912896, 1069547520, 8192, 4352, 0⟩, ⟨15, 60000, 8912896, 1069547520, 8192, 4352, 0⟩,
   ⟨16, 60000, 35651584, 1069547520, 16384, 8704, 0⟩, ⟨17, 100000, 35651584, 2139095040, 16384, 8704, 0⟩]

/-- The levels of a format: 0 H.264, 1 HEVC, 2 AV1. -/
def levelsOf (format : Nat) : List Level :=
  match format with
  | 0 => levelsH264 | 1 => levelsHevc | 2 => levelsAv1 | _ => []

/-- The level of a code: a code that names no level is taken as the next level above it (R196). -/
def levelOf (format code : Nat) : Option Level := (levelsOf format).find? (fun l => decide (code ≤ l.code))

/-- The maximum bit rate in kbit/s that R196 takes for KBPS 0: H.264 High has the factor 1,250. -/
def levelKbps (format profile code : Nat) : Nat :=
  match levelOf format code with
  | some l => if format = 0 ∧ profile = 100 then l.kbps * 5 / 4 else l.kbps
  | none => 0

/-- DPB_MAX of R135: the largest decoded-picture buffer for the level and size, 8 for AV1, 0 for JPEG. -/
def dpbMax (format code w h : Nat) : Nat :=
  match format with
  | 0 => min 16 ((((levelOf 0 code).map Level.dpb).getD 0) / max 1 (ceilDiv w 16 * ceilDiv h 16))
  | 1 =>
    let m := ((levelOf 1 code).map Level.size).getD 0
    if w * h * 4 ≤ m then 16 else if w * h * 2 ≤ m then 12 else if w * h * 4 ≤ 3 * m then 8 else 6
  | 2 => 8
  | _ => 0

/-- A size lies within a level's picture size (R163). -/
def sizeInLevel (format code w h : Nat) : Bool :=
  match levelOf format code with
  | none => false
  | some l => if format = 0 then decide (ceilDiv w 16 * ceilDiv h 16 ≤ l.size) else decide (w * h ≤ l.size)

/-- One dimension lies within a level's limit (R163): `most` is the level's own; for H.264 and HEVC no dimension is above the square
root of eight times the picture size. -/
def dimInLevel (format code n : Nat) (most : Level → Nat) : Bool :=
  match levelOf format code with
  | none => false
  | some l =>
    let a := if format = 0 then ceilDiv n 16 else n
    if format = 2 then decide (n ≤ most l) else decide (a * a ≤ 8 * l.size)

/-- MaxCPB of the H.264 levels, by level_idc, in units of 1,000 bits; the High profile has the factor 1,250. -/
def cpbH264 : List (Nat × Nat) :=
  [(9, 350), (10, 175), (11, 500), (12, 1000), (13, 2000), (20, 2000), (21, 4000), (22, 4000), (30, 10000), (31, 14000),
   (32, 20000), (40, 25000), (41, 62500), (42, 62500), (50, 135000), (51, 240000), (52, 240000)]

/-- MaxCPB of the HEVC levels in units of 1,000 bits: Main tier and High tier, which the levels below 4 do not have. -/
def cpbHevc : List (Nat × Nat × Nat) :=
  [(30, 350, 350), (60, 1500, 1500), (63, 3000, 3000), (90, 6000, 6000), (93, 10000, 10000), (120, 12000, 30000),
   (123, 20000, 50000), (150, 25000, 100000), (153, 40000, 160000), (156, 60000, 240000), (180, 60000, 240000),
   (183, 120000, 480000)]

/-- The largest CPB of a level in bits (Table 06-4): for AV1 one second at the level's bit rate. -/
def levelCpb (format profile code tier : Nat) : Nat :=
  let c := ((levelOf format code).map Level.code).getD 0
  match format with
  | 0 => ((cpbH264.find? (fun e => e.1 == c)).map Prod.snd).getD 0 * (if profile = 100 then 1250 else 1000)
  | 1 => ((cpbHevc.find? (fun e => e.1 == c)).map (fun e => if tier = 1 then e.2.2 else e.2.1)).getD 0 * 1000
  | _ => levelKbps format profile code * 1000

/-- How far a vector may point up or down under its level, in luma samples (R172): H.264 Table A-1; HEVC and AV1 bound the vector
itself. -/
def verticalRange (format code : Nat) : Nat :=
  match format with
  | 0 => if code ≤ 10 then 64 else if code ≤ 20 then 128 else if code ≤ 30 then 256 else 512
  | 1 => 8192
  | _ => 2048

/-- A size at a rate in units of 0.001 Hz lies within a level's luma rate (R163). -/
def rateInLevel (format code w h rate : Nat) : Bool :=
  match levelOf format code with
  | none => false
  | some l =>
    let a := if format = 0 then ceilDiv w 16 else w
    let b := if format = 0 then ceilDiv h 16 else h
    decide (a * b * rate ≤ l.rate * 1000)

end Sys2Proof.Machine
end

