-- ==== Sys2Proof/Machine/Pools.lean ====
section
/-!
DEFINITION. Machine/Pools.lean: the buffer pool manager, pools 1 to 15 (R381 to R388).
A buffer is named by pool · 2^21 + index, an owner of a pool by pool · 32 + owner.
-/
namespace Sys2Proof.Machine

/-- BPM_POOL_CFG[p]. -/
def State.poolCfg (s : State) (p : Nat) : Nat := s.regOr 0 (0x80100 + 32 * p)
/-- log2 of the buffer size. -/
def State.poolClass (s : State) (p : Nat) : Nat := bits (s.poolCfg p) 4 0
/-- The fallback pool, 0 for none. -/
def State.poolFallback (s : State) (p : Nat) : Nat := bits (s.poolCfg p) 9 6
/-- The pool is one of 1 to 15 and enabled. -/
def State.poolEn (s : State) (p : Nat) : Bool := decide (1 ≤ p) && decide (p < 16) && bit (s.poolCfg p) 10
/-- BASE, a device address. -/
def State.poolBase (s : State) (p : Nat) : Nat :=
  s.regOr 0 (0x80104 + 32 * p) + 2 ^ 32 * bits (s.regOr 0 (0x80108 + 32 * p)) 15 0
/-- COUNT of an enabled pool; a disabled pool has no buffer. -/
def State.poolCount (s : State) (p : Nat) : Nat :=
  if s.poolEn p then bits (s.regOr 0 (0x8010C + 32 * p)) 20 0 else 0
/-- BPM_OWN_MIN. -/
def State.ownMin (s : State) (p o : Nat) : Nat := bits (s.regOr 0 (0x81000 + 128 * p + 4 * o)) 20 0
/-- USE. -/
def State.ownUse (s : State) (p o : Nat) : Nat := Table.get 0 s.pool.use (32 * p + o)
/-- EAR. -/
def State.ownEar (s : State) (p o : Nat) : Nat := Table.get 0 s.pool.ear (32 * p + o)

/-- The sum of a function over the 32 owners. -/
def sumOwners (f : Nat → Nat) : Nat := (List.range 32).foldl (fun n o => n + f o) 0

/-- Buffers of a pool whose free bit is 1 (BPM_POOL_FREE). -/
def State.poolFree (s : State) (p : Nat) : Nat := s.poolCount p - sumOwners (s.ownUse p)

/-- F, the free shared space of a pool (R383). -/
def State.poolShared (s : State) (p : Nat) : Int :=
  ((s.poolCount p : Nat) : Int) - (sumOwners (s.ownMin p) : Nat)
    - (sumOwners (fun o => max (s.ownUse p o) (s.ownEar p o) - s.ownMin p o) : Nat)

/-- A request of an owner is granted within its claim or from shared space (R385). A disabled pool has no buffers (R381). -/
def State.poolGrants (s : State) (p o : Nat) : Bool :=
  s.poolEn p && (decide (s.ownUse p o < max (s.ownMin p o) (s.ownEar p o)) || decide (0 < s.poolShared p))

/-- The first index missing from a list of ascending indexes. -/
def firstGap : List Nat → Nat → Nat
  | [], i => i
  | k :: t, i => if k = i then firstGap t (i + 1) else if k < i then firstGap t i else i

/-- The lowest index of a pool whose free bit is 1. -/
def State.poolFirst (s : State) (p : Nat) : Nat :=
  firstGap ((s.pool.bufs.filter (fun e => e.1 / 2 ^ 21 == p)).map (fun e => e.1 % 2 ^ 21)) 0

/-- The key of a buffer. -/
def bufKey (p i : Nat) : Nat := p * 2 ^ 21 + i
/-- The pool of a buffer. -/
def bufPool (b : Nat) : Nat := b / 2 ^ 21
/-- The device address a buffer starts at (R381). -/
def State.bufAddr (s : State) (b : Nat) : Nat := s.poolBase (bufPool b) + b % 2 ^ 21 * 2 ^ s.poolClass (bufPool b)

/-- The buffer that starts at an address, in an enabled pool (R387's pointer check). -/
def State.bufAt (s : State) (a : Nat) : Option Nat :=
  match firstBelow 16 (fun p => s.poolEn p && decide (s.poolBase p ≤ a)
      && decide (a < s.poolBase p + s.poolCount p * 2 ^ s.poolClass p)) with
  | some p =>
    let d := a - s.poolBase p
    if d % 2 ^ s.poolClass p = 0 then some (bufKey p (d / 2 ^ s.poolClass p)) else none
  | none => none

/-- ICU source 256 is raised when FREE falls below the pool's mark (Table 13-8). -/
def State.lowMark (s before : State) (p : Nat) : State :=
  let m := bits (s.regOr 0 (0x80114 + 32 * p)) 20 0
  if m ≠ 0 ∧ m ≤ before.poolFree p ∧ s.poolFree p < m then s.raise 256 else s

/-- Give a buffer to an owner, with count 1, held by the requester. -/
def State.grant (s : State) (b o : Nat) : State :=
  let p := bufPool b
  ({ s with pool := { s.pool with
      bufs := Table.set .none s.pool.bufs b (some ⟨1, o⟩)
      use := Table.upd 0 s.pool.use (32 * p + o) (· + 1)
      refs := Table.upd 0 s.pool.refs p (· + 1) } } : State).lowMark s p

/-- The chain of pools that serves a request (R385), at most `fuel` steps long. -/
def State.requestFrom (s : State) (o first : Nat) : Nat → Nat → Option Nat × State
  | 0, _ => (none, s)
  | fuel + 1, p =>
    if p = 0 then (none, s)
    else if s.poolGrants p o then
      let b := bufKey p (s.poolFirst p)
      let s1 := if p = first then s else
        { s with pool.fallbacks := Table.upd 0 s.pool.fallbacks p (fun w => BitVec.ofNat 32 (satInc 0xFFFFFFFF w.toNat)) }
      (some b, s1.grant b o)
    else
      let s1 := { s with
        pool.refused := Table.upd 0 s.pool.refused p (fun w => BitVec.ofNat 32 (satInc 0xFFFFFFFF w.toNat)) }
      s1.requestFrom o first fuel (s1.poolFallback p)

/-- A request for one buffer by owner `o`, starting at pool `p`; ICU source 257 when no pool is left (Table 13-8). -/
def State.request (s : State) (p o : Nat) : Option Nat × State :=
  match s.requestFrom o p 16 p with
  | (some b, t) => (some b, t)
  | (none, t) => (none, t.raise 257)

/-- A buffer of the on-die pools lies in a fenced SRAM row (Table 14-9). -/
def State.fencedBuf (s : State) (b : Nat) : Bool :=
  let a := s.bufAddr b
  inOnDie a && s.snuf.fences.any (fun f => f.1 == 14 && decide (a - 0x1000000000 < f.2 * 1024 + 1024)
    && decide (f.2 * 1024 < a - 0x1000000000 + 2 ^ s.poolClass (bufPool b)))

/-- A take on a buffer, by its key (R387). The flag says that it was carried out. -/
def State.takeBuf (s : State) (b : Nat) : State :=
  match Table.get .none s.pool.bufs b with
  | none => (s.fault 0x040 1 (s.bufAddr b)).raise 260
  | some u =>
    if u.count = 65535 then (s.fault 0x040 2 (s.bufAddr b)).raise 260
    else { s with pool := { s.pool with
      bufs := Table.set .none s.pool.bufs b (some { u with count := u.count + 1 })
      refs := Table.upd 0 s.pool.refs (bufPool b) (· + 1) } }

/-- A drop on a buffer, by its key (R387): at count 0 the buffer is freed and USE of its tag falls. A buffer in a
fenced row passes to the Snuffer's holder ledger instead and stays allocated, tagged to firmware (Table 14-9). -/
def State.dropBuf (s : State) (b : Nat) : State :=
  match Table.get .none s.pool.bufs b with
  | none => (s.fault 0x040 1 (s.bufAddr b)).raise 260
  | some u =>
    let p := bufPool b
    if u.count = 0 then (s.fault 0x040 3 (s.bufAddr b)).raise 260
    else if 1 < u.count then { s with pool := { s.pool with
      bufs := Table.set .none s.pool.bufs b (some { u with count := u.count - 1 })
      refs := Table.upd 0 s.pool.refs p (· - 1) } }
    else if s.fencedBuf b then { s with pool := { s.pool with
      bufs := Table.set .none s.pool.bufs b (some ⟨1, 16⟩)
      use := Table.upd 0 (Table.upd 0 s.pool.use (32 * p + u.tag) (· - 1)) (32 * p + 16) (· + 1) } }
    else { s with pool := { s.pool with
      bufs := Table.set .none s.pool.bufs b .none
      use := Table.upd 0 s.pool.use (32 * p + u.tag) (· - 1)
      refs := Table.upd 0 s.pool.refs p (· - 1) } }

/-- Take and drop for a holder that may hold nothing. -/
def State.dropOpt (s : State) : Option Nat → State
  | some b => s.dropBuf b
  | none => s

/-- Raise an owner's EAR in a pool by `n` where F stays at 0 or above (R384). -/
def State.earmark (s : State) (p o n : Nat) : Option State :=
  let t := { s with pool.ear := Table.upd 0 s.pool.ear (32 * p + o) (· + n) }
  if 0 ≤ t.poolShared p then some t else none

/-- Lower an owner's EAR when the object is destroyed (R384). -/
def State.unearmark (s : State) (p o n : Nat) : State :=
  { s with pool.ear := Table.upd 0 s.pool.ear (32 * p + o) (· - n) }

/-- The enabled pool of least CLASS whose buffers hold `n` bytes (R135), the lowest-numbered of them. -/
def State.poolFor (s : State) (n : Nat) : Option Nat :=
  let fits := (List.range 16).filter (fun p => s.poolEn p && decide (n ≤ 2 ^ s.poolClass p))
  fits.foldl (fun best p => match best with
    | none => some p
    | some q => if s.poolClass p < s.poolClass q then some p else some q) none

/-- A pool holds an allocated buffer or an earmark (R381). -/
def State.poolBusy (s : State) (p : Nat) : Bool :=
  s.pool.bufs.any (fun e => e.1 / 2 ^ 21 == p) || decide (0 < sumOwners (s.ownEar p))

/-- A pool that an applied change enabled starts with every buffer free, every count 0 and USE 0 (R382). -/
def State.poolFresh (s : State) (p : Nat) : State :=
  { s with pool := { s.pool with
    bufs := s.pool.bufs.filter (fun e => e.1 / 2 ^ 21 != p)
    use := s.pool.use.filter (fun e => e.1 / 32 != p)
    refs := Table.set 0 s.pool.refs p 0 } }

/-- BUFFER_REQUEST: a request for a buffer is served within claim, from shared space or by fallback (R385). The read
word returns the buffer's address, or 0 where none is given. -/
def execBufferRequest (pool : Fin 16) (owner : Fin 32) (s : State) : Host.Outcome State Fault Refusal :=
  .next <|
    if s.live then
      match s.request pool.val owner.val with
      | (some b, t) => t.setRd (t.bufAddr b)
      | (none, t) => t.setRd 0
    else s

/-- BPM_POOL_REFUSED_READ: the read returns and clears the count (R398). -/
def execBpmPoolRefusedRead (n : Fin 16) (s : State) : Host.Outcome State Fault Refusal :=
  .next <|
    if s.bar0 (0x80118 + 32 * n.val) then
      { s with rd := (Table.get 0 s.pool.refused n.val).zeroExtend 64, pool.refused := Table.set 0 s.pool.refused n.val 0 }
    else s.setRd 0

/-- BPM_POOL_FALLBACKS_READ: the read returns and clears the count (R398). -/
def execBpmPoolFallbacksRead (n : Fin 16) (s : State) : Host.Outcome State Fault Refusal :=
  .next <|
    if s.bar0 (0x8011C + 32 * n.val) then
      { s with rd := (Table.get 0 s.pool.fallbacks n.val).zeroExtend 64, pool.fallbacks := Table.set 0 s.pool.fallbacks n.val 0 }
    else s.setRd 0

end Sys2Proof.Machine
end

