-- ==== Sys2Proof/Machine/Microcode.lean ====
section
/-!
DEFINITION. Machine/Microcode.lean: microcode images, their headers and records (R214, R215).
-/
namespace Sys2Proof.Machine

/-- A byte of a plaintext: what no run gives is zero. -/
def textByte (x : ByteRuns) (k : Nat) : Nat :=
  ((x.runs.findSome? (fun r => if r.1 ≤ k ∧ k < r.1 + r.2.length then r.2[k - r.1]? else none)).map BitVec.toNat).getD 0
/-- A little-endian word of `n` bytes of a plaintext. -/
def textWord (x : ByteRuns) (k n : Nat) : Nat := (List.range n).foldl (fun v i => v + 2 ^ (8 * i) * textByte x (k + i)) 0

/-- VERSION of an image's header. -/
def mcVersionOf (m : McImage) : BitVec 16 := BitVec.ofNat 16 (fieldLe m.header 8 2)
/-- PATCH_LEVEL. -/
def mcLevelOf (m : McImage) : BitVec 8 := BitVec.ofNat 8 (fieldLe m.header 10 1)
/-- BASE_REQ. -/
def mcBaseReq (m : McImage) : BitVec 16 := BitVec.ofNat 16 (fieldLe m.header 12 2)

/-- A word of an image for the stores: the nano-store or the micro-store, its address, its value. -/
abbrev StoreWord := Bool × Nat × Nat

/-- The records of a patch from a place on, `n` of them: none where one is out of range; else their words and where they end. -/
def mcRecords (x : ByteRuns) : Nat → Nat → Option (List StoreWord × Nat)
  | 0, k => some ([], k)
  | n + 1, k =>
    let head := textWord x k 4
    let addr := bits head 13 0
    let nano := bit head 14
    let count := bits head 31 16
    let size := if nano then 32 else 4
    if bit head 15 || count == 0 || decide (16384 < count) || decide ((if nano then 1024 else 16384) < addr + count) then none
    else
      match mcRecords x n (k + 4 + size * count) with
      | some (l, e) => some ((List.range count).map (fun i => (nano, addr + i, textWord x (k + 4 + size * i) size)) ++ l, e)
      | none => none

/-- The words of a base image that its runs touch: the micro-store, then the nano-store (R214). -/
def mcBaseWords (x : ByteRuns) : List StoreWord :=
  x.runs.flatMap (fun r =>
    (List.range r.2.length).filterMap (fun i =>
      let k := r.1 + i
      if k < 65536 then if i = 0 ∨ k % 4 = 0 then some (false, k / 4, textWord x (k / 4 * 4) 4) else none
      else if k < 98304 then
        if i = 0 ∨ k % 32 = 0 then some (true, (k - 65536) / 32, textWord x (k / 32 * 32) 32) else none
      else none))

/-- The words of an image, where every field of its header and its records is in range (R215, Table 07-6). -/
def mcWordsOf (patch : Bool) (m : McImage) : Option (List StoreWord) :=
  let f := fun i n => fieldLe m.header i n
  let records := f 14 2
  if m.header.length = 64 ∧ f 0 4 = 0x4C5A434D ∧ f 4 1 = b2n patch ∧ f 5 1 = 1 ∧ f 6 2 = 0 ∧ f 11 1 = 0 ∧ f 48 16 = 0
      ∧ f 16 4 = m.plain.length then
    if patch then
      if f 10 1 = 0 ∨ records = 0 ∨ 256 < records then none
      else
        match mcRecords m.plain records 0 with
        | some (l, e) => if e = m.plain.length then some l else none
        | none => none
    else if f 10 1 = 0 ∧ f 12 2 = 0 ∧ records = 0 ∧ m.plain.length = 98304 then some (mcBaseWords m.plain) else none
  else none

/-- An image passes R215 beyond its signature and tag: a microcode base (0) or patch (1) has its fields in range. -/
def imageInRange (i : Fin 3) (m : Option McImage) : Bool :=
  i == 2 || m.any (fun m => (mcWordsOf (i == 1) m).isSome)

/-- Put words into the copy in the firmware region (R216). -/
def loadWords (l : List StoreWord) (c : CodecState) : CodecState :=
  l.foldl (fun c w =>
    if w.1 then { c with copyNano := Table.set 0 c.copyNano w.2.1 (BitVec.ofNat 256 w.2.2) }
    else { c with copyMicro := Table.set 0 c.copyMicro w.2.1 (BitVec.ofNat 32 w.2.2) }) c

end Sys2Proof.Machine
end

