-- ==== Sys2Proof/Machine/Packets.lean ====
section
/-!
DEFINITION. Machine/Packets.lean: what the switch reads in and writes to the bytes of a frame: the frame check
sequence, tags, IP headers, the classifier key, and the RTP payloads that a receive binding takes apart
(R333, R335, R340, R344, R347).
-/
namespace Sys2Proof.Machine

/-! ### Frame check sequence -/

/-- One bit of the CRC-32 of IEEE 802.3. -/
def crcBit (c : Nat) : Nat := if c % 2 = 1 then Nat.xor (c / 2) 0xEDB88320 else c / 2

/-- One byte of the CRC-32. -/
def crcByte (c : Nat) (b : Byte) : Nat :=
  crcBit (crcBit (crcBit (crcBit (crcBit (crcBit (crcBit (crcBit (Nat.xor c b.toNat))))))))

/-- The CRC-32 of a list of bytes. -/
def crc32 (bs : List Byte) : Nat := Nat.xor (bs.foldl crcByte 0xFFFFFFFF) 0xFFFFFFFF

/-- The frame check sequence as it is sent. -/
def fcsOf (bs : List Byte) : List Byte := leBytes 4 (crc32 bs)

/-- The stomped frame check sequence: the bitwise inverse (R343). -/
def stompOf (bs : List Byte) : List Byte := leBytes 4 (Nat.xor (crc32 bs) 0xFFFFFFFF)

/-- A frame without its check sequence, and its check sequence. -/
def frameBody (bs : List Byte) : List Byte := bs.take (bs.length - 4)
/-- The last four bytes of a frame. -/
def frameFcs (bs : List Byte) : List Byte := bs.drop (bs.length - 4)

/-! ### Headers -/

/-- A frame has a C-tag. -/
def hasTag (bs : List Byte) : Bool := fieldBe bs 12 2 == 0x8100
/-- The tag control information of a tagged frame. -/
def tagInfo (bs : List Byte) : Nat := fieldBe bs 14 2
/-- The EtherType after any C-tag. -/
def etherType (bs : List Byte) : Nat := if hasTag bs then fieldBe bs 16 2 else fieldBe bs 12 2
/-- Where the payload begins. -/
def payloadAt (bs : List Byte) : Nat := if hasTag bs then 18 else 14
/-- The destination address as a number, byte 0 lowest. -/
def dstMac (bs : List Byte) : Nat := fieldLe bs 0 6
/-- The source address. -/
def srcMac (bs : List Byte) : Nat := fieldLe bs 6 6
/-- An address with its group bit set. -/
def isMulticast (mac : Nat) : Bool := mac % 2 == 1
/-- The broadcast address. -/
def broadcast : Nat := 2 ^ 48 - 1

/-- An IPv4 frame. -/
def isIpv4 (bs : List Byte) : Bool := etherType bs == 0x0800
/-- An IPv6 frame. -/
def isIpv6 (bs : List Byte) : Bool := etherType bs == 0x86DD
/-- The IPv4 protocol or IPv6 Next Header; 0 in other frames. -/
def ipProto (bs : List Byte) : Nat :=
  let o := payloadAt bs
  if isIpv4 bs then fieldBe bs (o + 9) 1 else if isIpv6 bs then fieldBe bs (o + 6) 1 else 0
/-- The DSCP and ECN bits as one byte, DSCP high. -/
def trafficByte (bs : List Byte) : Nat :=
  let o := payloadAt bs
  if isIpv4 bs then fieldBe bs (o + 1) 1 else if isIpv6 bs then bits (fieldBe bs o 2) 11 4 else 0
/-- The frame is IP with ECT(0) or ECT(1). -/
def isEct (bs : List Byte) : Bool := trafficByte bs % 4 == 1 || trafficByte bs % 4 == 2
/-- A fragment: an IPv4 frame with an offset or more fragments, or an IPv6 frame whose Next Header is 44. -/
def isFragment (bs : List Byte) : Bool :=
  (isIpv4 bs && fieldBe bs (payloadAt bs + 6) 2 % 0x4000 != 0)
    || (isIpv6 bs && ipProto bs == 44)
/-- Where the L4 header begins. -/
def l4At (bs : List Byte) : Nat :=
  let o := payloadAt bs
  if isIpv4 bs then o + 4 * (fieldBe bs o 1 % 16) else o + 40
/-- The L4 ports can be read: TCP or UDP, and no fragment other than the first (R335). -/
def hasPorts (bs : List Byte) : Bool :=
  (isIpv4 bs || isIpv6 bs) && (ipProto bs == 6 || ipProto bs == 17)
    && !(isIpv4 bs && fieldBe bs (payloadAt bs + 6) 2 % 0x2000 != 0)

/-- The key of the flow classifier from the first bytes of a frame, its ingress port and its VLAN (Table 11-7). -/
def classKey (bs : List Byte) (inport vid : Nat) : List Byte :=
  let o := payloadAt bs
  let t := trafficByte bs
  let ip := fun (v4 v6 : Nat) =>
    if isIpv4 bs then ((bs.drop (o + v4)).take 4) ++ List.replicate 12 (0 : Byte)
    else if isIpv6 bs then (bs.drop (o + v6)).take 16 else []
  let pad := fun (n : Nat) (l : List Byte) => l ++ List.replicate (n - l.length) (0 : Byte)
  leBytes 1 inport ++ leBytes 1 (b2n (hasTag bs) + 2 * b2n (isIpv6 bs) + 4 * b2n (isFragment bs)) ++ leBytes 2 vid
    ++ leBytes 2 (etherType bs) ++ leBytes 1 (ipProto bs) ++ leBytes 1 (t / 4 + 64 * (t % 4))
    ++ pad 16 (ip 12 8) ++ pad 16 (ip 16 24)
    ++ leBytes 2 (if hasPorts bs then fieldBe bs (l4At bs) 2 else 0)
    ++ leBytes 2 (if hasPorts bs then fieldBe bs (l4At bs + 2) 2 else 0) ++ leBytes 4 0

/-- A key matches an entry: (key XOR KEY) AND MASK is zero (R335). -/
def keyMatches : List Byte → List Byte → List Byte → Bool
  | k :: ks, e :: es, m :: ms => ((k ^^^ e) &&& m) == 0 && keyMatches ks es ms
  | _, _, _ => true

/-- A reserved multicast address, 01-80-C2-00-00-00 to -0F (R333). -/
def isReserved (bs : List Byte) : Bool := fieldBe bs 0 5 == 0x0180C20000 && decide (fieldBe bs 5 1 < 16)
/-- The address of PAUSE frames. -/
def isPause (bs : List Byte) : Bool := isReserved bs && fieldBe bs 5 1 == 1

/-- A PTP message, under the profile in use: by EtherType, or by UDP port 319 or 320 where the profile allows UDP
(R333). -/
def isPtp (profile : Nat) (bs : List Byte) : Bool :=
  etherType bs == 0x88F7 || (profile != 1 && hasPorts bs && ipProto bs == 17
    && (fieldBe bs (l4At bs + 2) 2 == 319 || fieldBe bs (l4At bs + 2) 2 == 320))

/-- A PTP event message: its messageType is below 4, or it is sent to UDP port 319. -/
def isPtpEvent (bs : List Byte) : Bool :=
  if etherType bs == 0x88F7 then decide (fieldBe bs (payloadAt bs) 1 % 16 < 4) else fieldBe bs (l4At bs + 2) 2 == 319

/-! ### Changes made as a copy leaves (R344) -/

/-- Add a C-tag. -/
def addTag (bs : List Byte) (pcp vid : Nat) : List Byte :=
  bs.take 12 ++ beBytes 2 0x8100 ++ beBytes 2 (pcp % 8 * 8192 + vid % 4096) ++ bs.drop 12
/-- Remove the C-tag. -/
def dropTag (bs : List Byte) : List Byte := bs.take 12 ++ bs.drop 16
/-- Fill in the VLAN of a priority tag. -/
def fillTag (bs : List Byte) (vid : Nat) : List Byte :=
  bs.take 14 ++ beBytes 2 (tagInfo bs / 4096 * 4096 + vid % 4096) ++ bs.drop 16
/-- The change of a copy's tag. -/
def retag (kind : Nat) (bs : List Byte) (pcp vid : Nat) : List Byte :=
  match kind with
  | 1 => addTag bs pcp vid | 2 => dropTag bs | 3 => fillTag bs vid | _ => bs

/-- One's complement sum of two 16-bit words. -/
def onesAdd (a b : Nat) : Nat := if 65535 < a + b then a + b - 65535 else a + b

/-- Mark a frame CE, and update the IPv4 header checksum under RFC 1624 (R347). -/
def markCe (bs : List Byte) : List Byte :=
  let o := payloadAt bs
  if isIpv4 bs then
    let m := fieldBe bs o 2
    let m' := m / 4 * 4 + 3
    let hc := fieldBe bs (o + 10) 2
    let hc' := 65535 - onesAdd (onesAdd (65535 - hc) (65535 - m)) m'
    let b1 := setAt bs (o + 1) (BitVec.ofNat 8 m')
    setAt (setAt b1 (o + 10) (BitVec.ofNat 8 (hc' / 256))) (o + 11) (BitVec.ofNat 8 hc')
  else if isIpv6 bs then updAt bs (o + 1) (· ||| 0x30)
  else bs

/-! ### RTP (R340) -/

/-- The UDP payload of a frame without its check sequence; none where it carries no UDP or is a fragment. -/
def udpPayload (bs : List Byte) : Option (List Byte) :=
  if hasPorts bs && ipProto bs == 17 && !isFragment bs then
    some ((bs.drop (l4At bs + 8)).take (fieldBe bs (l4At bs + 4) 2 - 8))
  else none

/-- An RTP packet: marker, sequence number, timestamp, payload without header extension and padding. -/
structure Rtp where
  marker : Bool
  seq : Nat
  ts : Nat
  payload : List Byte
deriving DecidableEq, Repr

/-- The RTP packet that UDP payload bytes spell; none where its version is not 2. -/
def rtpOf (u : List Byte) : Option Rtp :=
  let b0 := fieldBe u 0 1
  if u.length < 12 ∨ b0 / 64 ≠ 2 then none
  else
    let h := 12 + 4 * (b0 % 16)
    let ext := if bit b0 4 then 4 + 4 * fieldBe u (h + 2) 2 else 0
    let pad := if bit b0 5 then fieldBe u (u.length - 1) 1 else 0
    some ⟨bit (fieldBe u 1 1) 7, fieldBe u 2 2, fieldBe u 4 4, (u.take (u.length - pad)).drop (h + ext)⟩

/-- An Annex B start code. -/
def startCode : List Byte := [0, 0, 0, 1]

/-- The NAL units of an aggregation packet, each after a start code: 16-bit sizes (RFC 6184, RFC 7798). -/
def aggregated : Nat → List Byte → List Byte
  | 0, _ => []
  | n + 1, bs =>
    let len := fieldBe bs 0 2
    if bs.length < 3 ∨ len = 0 then []
    else startCode ++ (bs.drop 2).take len ++ aggregated n (bs.drop (2 + len))

/-- What the payload of a packet adds to the unit, and the fragment that then stands open: bytes, whether a fragment
is under way, and its bytes where they wait. -/
abbrev Taken := List Byte × Bool × List Byte

/-- Take an H.264 payload: single NAL units, STAP-A and FU-A (RFC 6184, packetization-mode 1). -/
def takeH264 (p : List Byte) (open_ : Bool) : Taken :=
  let b0 := fieldBe p 0 1
  let t := b0 % 32
  if 1 ≤ t ∧ t ≤ 23 then (startCode ++ p, false, [])
  else if t = 24 then (aggregated p.length (p.drop 1), false, [])
  else if t = 28 then
    let fu := fieldBe p 1 1
    if bit fu 7 then (startCode ++ BitVec.ofNat 8 (b0 / 32 * 32 + fu % 32) :: p.drop 2, !bit fu 6, [])
    else if open_ then (p.drop 2, !bit fu 6, [])
    else ([], false, [])
  else ([], false, [])

/-- Take an HEVC payload: single NAL units, aggregation packets and fragmentation units (RFC 7798 without DONL). -/
def takeHevc (p : List Byte) (open_ : Bool) : Taken :=
  let b0 := fieldBe p 0 1
  let t := b0 / 2 % 64
  if t = 48 then (aggregated p.length (p.drop 2), false, [])
  else if t = 49 then
    let fu := fieldBe p 2 1
    if bit fu 7 then
      (startCode ++ BitVec.ofNat 8 (b0 / 128 * 128 + b0 % 2 + fu % 64 * 2) :: (p.drop 1).take 1 ++ p.drop 3, !bit fu 6, [])
    else if open_ then (p.drop 3, !bit fu 6, [])
    else ([], false, [])
  else if t < 48 then (startCode ++ p, false, [])
  else ([], false, [])

/-- The leb128 number at the head of a list, and how many bytes it takes. -/
def leb128 : Nat → List Byte → Nat × Nat
  | 0, _ => (0, 0)
  | _, [] => (0, 0)
  | n + 1, b :: bs =>
    if b.toNat < 128 then (b.toNat, 1)
    else
      let (v, k) := leb128 n bs
      (b.toNat % 128 + 128 * v, k + 1)

/-- A number as leb128. -/
def toLeb128 : Nat → Nat → List Byte
  | 0, _ => []
  | n + 1, v => if v < 128 then [BitVec.ofNat 8 v] else BitVec.ofNat 8 (v % 128 + 128) :: toLeb128 n (v / 128)

/-- An OBU with obu_has_size_field 1; a temporal delimiter is left out. -/
def sizedObu (o : List Byte) : List Byte :=
  match o with
  | [] => []
  | h :: t =>
    if bits h.toNat 6 3 = 2 then []
    else if bit h.toNat 1 then o
    else
      let ext := if bit h.toNat 2 then 1 else 0
      (h ||| 2) :: t.take ext ++ toLeb128 8 (t.drop ext).length ++ t.drop ext

/-- The OBU elements of an AV1 payload: W is the count in the aggregation header, 0 for unknown. -/
def obuElements : Nat → Nat → Nat → List Byte → List (List Byte)
  | 0, _, _, _ => []
  | n + 1, w, i, bs =>
    if bs.isEmpty then []
    else if w ≠ 0 ∧ i + 1 = w then [bs]
    else
      let (len, k) := leb128 8 bs
      (bs.drop k).take len :: obuElements n w (i + 1) (bs.drop (k + len))

/-- Take an AV1 payload (AOMedia RTP payload format): elements that continue are held until they are whole. -/
def takeAv1 (p : List Byte) (open_ : Bool) (part : List Byte) : Taken :=
  let h := fieldBe p 0 1
  let els := obuElements p.length (bits h 5 4) 0 (p.drop 1)
  let els1 := match els with
    | [] => []
    | e :: t => if bit h 7 then (if open_ then (part ++ e) :: t else t) else e :: t
  if bit h 6 then
    match els1.getLast? with
    | some e => ((els1.dropLast.map sizedObu).flatten, true, e)
    | none => ([], false, [])
  else ((els1.map sizedObu).flatten, false, [])

/-- Take a payload of a binding's FORMAT: 1 H.264, 2 HEVC, 3 AV1. -/
def takePayload (format : Nat) (p : List Byte) (open_ : Bool) (part : List Byte) : Taken :=
  match format with
  | 1 => takeH264 p open_
  | 2 => takeHevc p open_
  | _ => takeAv1 p open_ part

/-- The temporal delimiter placed first in an AV1 unit (R340). -/
def temporalDelimiter : List Byte := [0x12, 0x00]

/-! ### Sending RTP (R188) -/

/-- The sum of 16-bit words in network order, an odd last byte padded with zero. -/
def wordSum : List Byte → Nat
  | a :: b :: t => a.toNat * 256 + b.toNat + wordSum t
  | [a] => a.toNat * 256
  | [] => 0

/-- The Internet checksum of bytes added to a start value. -/
def inetSum (start : Nat) (bs : List Byte) : Nat :=
  let n := start + wordSum bs
  let m := n % 65536 + n / 65536
  65535 - (m % 65536 + m / 65536) % 65536

/-- Replace the bytes of a list from position `i`. -/
def patch (bs : List Byte) (i : Nat) (new : List Byte) : List Byte := bs.take i ++ new ++ bs.drop (i + new.length)

/-- Fill a header template for one RTP packet and append its payload: lengths, identification, checksums, sequence
number, timestamp and marker (R188). -/
def fillPacket (hdr : List Byte) (ipId seq ts : Nat) (marker : Bool) (payload : List Byte) : List Byte :=
  let v4 := fieldBe hdr 12 2 == 0x0800
  let udp := if v4 then 34 else 54
  let len := hdr.length - udp + payload.length
  let h1 := if v4 then patch (patch (patch hdr 16 (beBytes 2 (20 + len))) 18 (beBytes 2 ipId)) 24 [0, 0]
    else patch hdr 18 (beBytes 2 len)
  let h2 := if v4 then patch h1 24 (beBytes 2 (inetSum 0 ((h1.drop 14).take 20))) else h1
  let h3 := patch (patch h2 (udp + 4) (beBytes 2 len)) (udp + 6) [0, 0]
  let b1 := fieldBe hdr (udp + 9) 1 % 128 + 128 * b2n marker
  let h4 := patch (patch (patch h3 (udp + 9) (beBytes 1 b1)) (udp + 10) (beBytes 2 seq)) (udp + 12) (beBytes 4 ts)
  let addrs := if v4 then (h4.drop 26).take 8 else (h4.drop 22).take 32
  let c := inetSum (len + 17) (addrs ++ h4.drop udp ++ payload)
  patch h4 (udp + 6) (beBytes 2 (if c = 0 then 65535 else c)) ++ payload

/-- A header template is legal (R188): IPv4 or IPv6 by its length and EtherType, UDP, RTP version 2 without CSRCs and
extension. -/
def templateOk (hdr : List Byte) : Bool :=
  let v4 := fieldBe hdr 12 2 == 0x0800
  let v6 := fieldBe hdr 12 2 == 0x86DD
  let proto := if v4 then fieldBe hdr 23 1 else fieldBe hdr 20 1
  let rtp := fieldBe hdr (if v4 then 42 else 62) 1
  (v4 || v6) && proto == 17 && rtp / 64 == 2 && rtp % 16 == 0 && !bit rtp 4

end Sys2Proof.Machine
end

