-- ==== Sys2Proof/Machine/Bitstream.lean ====
section
/-!
DEFINITION. Machine/Bitstream.lean: the units of a coded frame, their framing in a byte stream, and the RTP payloads they are cut
into (R164 to R166, R181, R182, R188, R192).
-/
namespace Sys2Proof.Machine

/-! ### Units and their headers -/

/-- The units whose payload the facts of a frame supply: parameter sets and SEI messages. -/
def CodedUnit.hasBody : CodedUnit → Bool
  | .vps | .sps _ _ _ | .pps _ | .sequence _ _ _ | .bufferingPeriod | .pictureTiming | .recoveryPoint _ => true
  | _ => false

/-- A parameter set: in RTP they travel together (Table 06-10). -/
def CodedUnit.isParameterSet : CodedUnit → Bool
  | .vps | .sps _ _ _ | .pps _ => true
  | _ => false

/-- The NAL unit header of H.264. -/
def headerH264 : CodedUnit → List Byte
  | .sps _ _ _ => [0x67]
  | .pps _ => [0x68]
  | .frame key _ _ _ => if key then [0x65] else [0x41]
  | .filler _ => [0x0C]
  | .endOfSequence => [0x0B]
  | _ => [0x06]

/-- The NAL unit header of HEVC. -/
def headerHevc : CodedUnit → List Byte
  | .delimiter _ => [0x46, 0x01]
  | .vps => [0x40, 0x01]
  | .sps _ _ _ => [0x42, 0x01]
  | .pps _ => [0x44, 0x01]
  | .frame key _ _ _ => if key then [0x28, 0x01] else [0x02, 0x01]
  | .filler _ => [0x4C, 0x01]
  | .endOfSequence => [0x48, 0x01]
  | _ => [0x4E, 0x01]

/-- The OBU header of AV1, without a size field. -/
def headerAv1 : CodedUnit → List Byte
  | .temporalDelimiter => [0x10]
  | .sequence _ _ _ => [0x08]
  | .filler _ => [0x78]
  | _ => [0x30]

/-- The header of a unit in a format. -/
def unitHeader (format : Nat) (u : CodedUnit) : List Byte :=
  match format with
  | 0 => headerH264 u
  | 1 => headerHevc u
  | _ => headerAv1 u

/-- The bytes of a frame's tiles: in AV1 every tile but the last has its size in front, less one, in four bytes. -/
def tileBytes (format : Nat) : List (List Byte) → List Byte
  | [] => []
  | [t] => t
  | t :: u :: l => (if format = 2 then leBytes 4 (t.length - 1) else []) ++ t ++ tileBytes format (u :: l)

/-- The payload of a unit: the delimiter and the filler are fixed by the standards, the frame is its header and its tiles. -/
def unitPayload (format : Nat) (given frame : List Byte) : CodedUnit → List Byte
  | .delimiter key => if key then [0x10] else [0x30]
  | .temporalDelimiter | .endOfSequence => []
  | .filler n => List.replicate n (if format = 2 then 0 else 0xFF) ++ [0x80]
  | .frame _ _ _ _ => frame
  | _ => given

/-- The units of a frame with their bytes, header first: `bodies` supplies those payloads that the facts give, in order. -/
def unitBytes (format : Nat) (frame : List Byte) : List CodedUnit → List (List Byte) → List (CodedUnit × List Byte)
  | [], _ => []
  | u :: t, bodies =>
    (u, unitHeader format u ++ unitPayload format (bodies.headD []) frame u)
      :: unitBytes format frame t (if u.hasBody then bodies.drop 1 else bodies)

/-- A unit in a byte stream: after a start code under Annex B, or an OBU with obu_has_size_field 1 (R166). -/
def streamed (format : Nat) (b : List Byte) : List Byte :=
  if format = 2 then
    match b with
    | [] => []
    | h :: t => (h ||| 2) :: toLeb128 8 t.length ++ t
  else startCode ++ b

/-- The byte stream of a frame. -/
def byteStream (format : Nat) (l : List (CodedUnit × List Byte)) : List Byte := (l.map (fun u => streamed format u.2)).flatten

/-! ### The units of a frame -/

/-- What decides the units of a frame: its stream's format and tools, whether it is a key frame, whether it opens a refresh cycle of
so many frames, whether its stream is written to memory, whether parameter sets go before it, and whether the sequence ends. -/
structure FramePlan where
  format : Nat
  key : Bool
  cycle : Option Nat
  toMemory : Bool
  sets : Bool
  ends : Bool
  screen : Bool
  colour : List Byte
  hrd : Option Hrd
  tileCols : Nat
deriving DecidableEq, Repr

/-- The units before the filler. Parameter sets go before each key frame, before the first frame of each refresh cycle, and before
every frame under PS_EVERY (R166); buffering period and picture timing where HRD parameters are signalled (R181); the recovery
point with the first frame of a cycle (R182). -/
def FramePlan.units (p : FramePlan) : List CodedUnit :=
  let sei := (if p.hrd.isSome then (if p.sets then [.bufferingPeriod] else []) ++ [.pictureTiming] else [])
    ++ (match p.cycle with | some f => [.recoveryPoint f] | none => [])
  match p.format with
  | 0 => (if p.sets then [.sps 0 p.colour p.hrd, .pps 1] else []) ++ sei ++ [.frame p.key true 1 false]
  | 1 => [.delimiter p.key] ++ (if p.sets then [.vps, .sps 0 p.colour p.hrd, .pps p.tileCols] else []) ++ sei
      ++ [.frame p.key true p.tileCols false]
  | _ => (if p.toMemory then [.temporalDelimiter] else []) ++ (if p.sets then [.sequence p.screen p.colour p.hrd] else [])
      ++ [.frame p.key true p.tileCols (!p.key)]

/-- The unit that ends a coded sequence (R192): AV1 has none. -/
def FramePlan.last (p : FramePlan) : List CodedUnit := if p.ends && p.format != 2 then [.endOfSequence] else []

/-- The bytes of a filler unit in a byte stream but for its filler bytes. -/
def fillerRoom (format : Nat) : Nat := if format = 0 then 6 else if format = 1 then 7 else 3

/-- The filler that adds at least so many bits (Table 06-8). -/
def fillerFor (format bits : Nat) : List CodedUnit :=
  if bits = 0 then [] else [.filler (ceilDiv bits 8 - fillerRoom format)]

/-! ### RTP payloads (Table 06-10) -/

/-- A list cut into pieces of at most `n` bytes. -/
def pieces (n : Nat) : Nat → List Byte → List (List Byte)
  | 0, _ => []
  | k + 1, l => if l.isEmpty then [] else l.take n :: pieces n k (l.drop n)

/-- The pieces with marks for the first and the last one. -/
def markEnds (l : List (List Byte)) : List (Bool × Bool × List Byte) :=
  (List.range l.length).map (fun k => (k == 0, k + 1 == l.length, l.getD k []))

/-- The payloads of an H.264 NAL unit: a single NAL unit packet, or FU-A where it is larger. -/
def fuA (room : Nat) (b : List Byte) : List (List Byte) :=
  let h := fieldBe b 0 1
  if b.length ≤ room then [b]
  else (markEnds (pieces (max 1 (room - 2)) b.length (b.drop 1))).map (fun p =>
    beBytes 1 (h / 32 * 32 + 28) ++ beBytes 1 (128 * b2n p.1 + 64 * b2n p.2.1 + h % 32) ++ p.2.2)

/-- The payloads of an HEVC NAL unit: a single NAL unit packet, or FU where it is larger. -/
def fuHevc (room : Nat) (b : List Byte) : List (List Byte) :=
  let h := fieldBe b 0 1
  if b.length ≤ room then [b]
  else (markEnds (pieces (max 1 (room - 3)) b.length (b.drop 2))).map (fun p =>
    beBytes 1 (h / 128 * 128 + 98 + h % 2) ++ (b.drop 1).take 1
      ++ beBytes 1 (128 * b2n p.1 + 64 * b2n p.2.1 + h / 2 % 64) ++ p.2.2)

/-- One payload for all parameter sets: STAP-A of H.264, AP of HEVC. -/
def aggregate (format : Nat) (l : List (List Byte)) : List Byte :=
  (if format = 0 then [0x78] else [0x60, 0x01]) ++ (l.map (fun b => beBytes 2 b.length ++ b)).flatten

/-- The payloads of an OBU: one OBU element in a packet, Z and Y where it goes on from or into another, N on the first packet of a
coded video sequence. -/
def obuPayloads (room : Nat) (starts : Bool) (b : List Byte) : List (List Byte) :=
  (markEnds (pieces (max 1 (room - 1)) b.length b)).map (fun p =>
    beBytes 1 (128 * b2n (!p.1) + 64 * b2n (!p.2.1) + 16 + 8 * b2n (starts && p.1)) ++ p.2.2)

/-- The RTP payloads of a frame's units, none above `room` bytes. -/
def rtpPayloads (format room : Nat) (key : Bool) (l : List (CodedUnit × List Byte)) : List (List Byte) :=
  if format = 2 then
    let obus := (l.filter (fun u => u.1 != .temporalDelimiter)).map Prod.snd
    match obus with
    | [] => []
    | b :: t => obuPayloads room key b ++ (t.map (obuPayloads room false)).flatten
  else
    let cut := if format = 0 then fuA room else fuHevc room
    let before := l.takeWhile (fun u => !u.1.isParameterSet)
    let sets := (l.filter (fun u => u.1.isParameterSet)).map Prod.snd
    let after := (l.drop before.length).filter (fun u => !u.1.isParameterSet)
    let one := aggregate format sets
    (before.map (fun u => cut u.2)).flatten
      ++ (if 1 < sets.length ∧ one.length ≤ room then [one] else (sets.map cut).flatten)
      ++ (after.map (fun u => cut u.2)).flatten

end Sys2Proof.Machine
end

