-- ==== Sys2Proof/Machine/Picture.lean ====
section
/-!
DEFINITION. Machine/Picture.lean: where the samples of a picture stand (R134), what decoding an access unit's slices comes to
(R131, R147 to R153), and the concealment of blocks (R150).
-/
namespace Sys2Proof.Machine

/-! ### The layout of Table 05-2 -/

/-- The stride S of the planes of a buffer. -/
def frameStride (w : Nat) (ten : Bool) : Nat := ceilDiv (w * (if ten then 2 else 1)) 256 * 256
/-- The bytes of the luma plane, S × Ha. -/
def lumaBytes (w h : Nat) (ten : Bool) : Nat := frameStride w ten * (ceilDiv h 64 * 64)
/-- The bytes of a frame without the motion side area (R220). -/
def outFrameBytes (w h : Nat) (ten : Bool) : Nat := lumaBytes w h ten + lumaBytes w h ten / 2
/-- The bytes of a buffer that holds a picture with its motion side area. -/
def pictureBytes (w h : Nat) (ten : Bool) : Nat := outFrameBytes w h ten + ceilDiv h 64 * 64 / 16 * ceilDiv w 16 * 32

/-- The offset of a sample of plane 0 (luma), 1 (Cb) or 2 (Cr). -/
def sampleAt (w h : Nat) (ten : Bool) (plane x y : Nat) : Nat :=
  let b := if ten then 2 else 1
  if plane = 0 then frameStride w ten * y + b * x
  else lumaBytes w h ten + frameStride w ten * y + b * (2 * x + (plane - 1))

/-- A sample as it is stored: one byte, or a little-endian word with the value in bits 15 to 6 (R134). -/
def sampleBytes (ten : Bool) (v : Nat) : List Byte := if ten then leBytes 2 (v % 1024 * 64) else leBytes 1 (v % 256)

/-- A sample of a picture in a buffer at a device address. -/
def State.pixelAt (s : State) (base w h : Nat) (ten : Bool) (plane x y : Nat) : Nat :=
  let a := base + sampleAt w h ten plane x y
  if ten then leNat (s.dev.bytes a 2) / 64 else leNat (s.dev.bytes a 1)

/-! ### JPEG images (R132) -/

/-- The average of a pair of chroma samples; the rounding of a half is the device's own (assumption 36). -/
def pairAverage (a b : Nat) : Nat := (a + b + (if Config.roundsUp a b then 1 else 0)) / 2

/-- A sample of a plane of the source, as its runs give it. -/
def runSample (l : List SampleRun) (plane x y : Nat) : Option Nat :=
  (l.find? (fun r => r.plane.val == plane && r.y == y && decide (r.x ≤ x) && decide (x < r.x + r.values.length))).bind
    (fun r => r.values[x - r.x]?)

/-- A chroma sample of a row of the source at 4:2:0 spacing: pairs are averaged where the source is not halved there. -/
def rowChroma (p : PicFacts) (plane x y : Nat) : Option Nat :=
  if p.subX = 2 then runSample p.samples plane x y
  else
    match runSample p.samples plane (2 * x) y with
    | none => none
    | some a => if p.width ≤ 2 * x + 1 then some a else (runSample p.samples plane (2 * x + 1) y).map (pairAverage a)

/-- A chroma sample of an image as it is converted to 4:2:0: first along the rows, then down the columns. -/
def jpegChroma (p : PicFacts) (plane x y : Nat) : Option Nat :=
  if p.subY = 2 then rowChroma p plane x y
  else
    match rowChroma p plane x (2 * y) with
    | none => none
    | some a => if p.height ≤ 2 * y + 1 then some a else (rowChroma p plane x (2 * y + 1)).map (pairAverage a)

/-- The runs of samples that a JPEG image comes to: its luma, and its chroma converted to 4:2:0, or 128 throughout where it has a
single component. -/
def jpegRuns (p : PicFacts) : List SampleRun :=
  let cw := ceilDiv p.width 2
  let luma := p.samples.filter (fun r => r.plane == 0)
  luma ++ ((List.range (ceilDiv p.height 2)).map (fun y =>
    if p.mono then [⟨1, 0, y, List.replicate cw 128⟩, ⟨2, 0, y, List.replicate cw 128⟩]
    else (List.range cw).flatMap (fun x =>
      (jpegChroma p 1 x y).toList.map (fun v => ⟨1, x, y, [v]⟩) ++ (jpegChroma p 2 x y).toList.map (fun v => ⟨2, x, y, [v]⟩)))).flatten

/-! ### Blocks -/

/-- Blocks in a row of the picture. -/
def blockCols (p : PicFacts) : Nat := ceilDiv p.width (max 1 p.blockW)
/-- Coding blocks in the picture. -/
def picBlocks (p : PicFacts) : Nat := blockCols p * ceilDiv p.height (max 1 p.blockH)
/-- The block that holds a sample of a plane. -/
def blockOf (p : PicFacts) (plane x y : Nat) : Nat :=
  let k := if plane = 0 then 1 else 2
  k * y / max 1 p.blockH * (blockCols p) + k * x / max 1 p.blockW

/-- The writes that runs of samples come to in a buffer: the block, the device address and the bytes. -/
def runWrites (p : PicFacts) (base : Nat) (l : List SampleRun) : List (Nat × Nat × List Byte) :=
  l.flatMap (fun r => (List.range r.values.length).map (fun k =>
    (blockOf p r.plane.val (r.x + k) r.y, base + sampleAt p.width p.height p.tenBit r.plane.val (r.x + k) r.y,
      sampleBytes p.tenBit (r.values.getD k 0))))

/-! ### Decoding the slices (R131, R147 to R153) -/

/-- The frame budget of R149 in cycles. -/
def frameBudget (format w h coded : Nat) : Nat :=
  let px := ceilDiv (4 * w * h) 10
  if format = 3 then px else max px (ceilDiv (ceilDiv (32 * coded) 3 + ceilDiv (w * h) 8) 2)

/-- TEST_CODEC makes the jobs of a core take STRETCH % of their cycles (R430). -/
def State.stretched (s : State) (c n : Nat) : Nat :=
  let w := s.regOr (100 * 65536) 0x400050
  let pct := bits w 24 16
  if bit w c && decide (100 ≤ pct) && decide (pct ≤ 400) then n * pct / 100 else n

/-- What decoding the slices of a picture has come to. -/
structure Scan where
  /-- The blocks decoded and those that had a motion vector. -/
  good : List Nat
  motion : List Nat
  /-- The error kinds of headers, and those of blocks with their places, in decoding order. -/
  heads : List Nat
  errs : List (Nat × Nat)
  cycles : Nat
  aborted : Bool
  /-- Blocks predicted through the replacement of a missing reference, and blocks that read a poisoned reference area. -/
  replaced : List Nat
  spoilt : List Nat
  /-- The entries of the references that held poison. -/
  poisonedRefs : List Nat
  media : Bool
  /-- Where the previous slice that was decoded ended. -/
  last : Nat
  /-- The blocks in the order in which they were come to. -/
  seen : List Nat
  /-- How far the access unit has been read, and the reads of reference buffers, by device address and length. -/
  read : Nat
  areas : List (Nat × Nat)
deriving DecidableEq, Repr

/-- The reads of an access unit from `lo` to below `hi` meet poison (R153). -/
def State.unitPoisoned (s : State) (j : CodecJob) (p : PicFacts) (lo hi : Nat) : Bool :=
  if j.addr.getLsbD 63 then decide (lo < hi) && !(s.poisonIn (j.addr.toNat % 2 ^ 63 + lo) (hi - lo)).isEmpty
  else p.hostPoison.any (fun o => decide (lo ≤ o) && decide (o < hi))

/-- An entry that holds a reference picture. -/
def PicEntry.isRef (e : PicEntry) : Bool := e.buffer.isSome && (e.refShort || e.refLong)

/-- The entry of a reference that the picture names, where it is there (R151). -/
def refEntry (p : PicFacts) (d : List PicEntry) (r : Nat) : Option (Nat × Nat) :=
  ((p.refs[r]?).bind id).bind (fun e =>
    (d[e.val]?).bind (fun x => if x.isRef then x.buffer.map (fun b => (e.val, b)) else none))

/-- The reads of a block of the references that are there: the entry, the device address and the length. -/
def State.refReads (s : State) (d : List PicEntry) (p : PicFacts) (b : BlockFacts) : List (Nat × Nat × Nat) :=
  b.reads.filterMap (fun r => (refEntry p d r.ref).map (fun e => (e.1, s.bufAddr e.2 + r.offset, r.length)))

/-- The entries of the poisoned references among the reads of a block. -/
def State.poisonedReads (s : State) (d : List PicEntry) (p : PicFacts) (b : BlockFacts) : List Nat :=
  ((s.refReads d p b).filter (fun r => r.2.2 != 0 && !(s.poisonIn r.2.1 r.2.2).isEmpty)).map Prod.fst

/-- Decode the blocks of a slice until one meets its error: data past LENGTH or the slice's window (TRUNCATED), poison in the
bitstream (MEDIA), twice the budget (BUDGET), or the error that the slice itself ends with. -/
def State.scanBlocks (s : State) (j : CodecJob) (d : List PicEntry) (p : PicFacts) (limit core : Nat) (x : SliceFacts) :
    List BlockFacts → Scan → Scan
  | [], a => if x.err.val = 0 then a else { a with errs := a.errs ++ [(x.err.val, x.errAt)], seen := a.seen ++ [x.errAt] }
  | b :: t, a0 =>
    let a := { a0 with seen := a0.seen ++ [b.index], read := max a0.read (min b.through (min x.stop j.length)) }
    let n := a.cycles + b.cycles
    if j.length < b.through ∨ x.stop < b.through then { a with errs := a.errs ++ [(4, b.index)] }
    else if s.unitPoisoned j p x.start b.through then { a with errs := a.errs ++ [(9, b.index)], media := true }
    else if limit < s.stretched core n then { a with errs := a.errs ++ [(8, b.index)], aborted := true, cycles := n }
    else
      let bad := s.poisonedReads d p b
      let miss := b.reads.any (fun r => (refEntry p d r.ref).isNone)
      s.scanBlocks j d p limit core x t { a with
        good := a.good ++ [b.index], motion := if b.motion then a.motion ++ [b.index] else a.motion, cycles := n
        replaced := if miss then a.replaced ++ [b.index] else a.replaced
        spoilt := if bad.isEmpty then a.spoilt else a.spoilt ++ [b.index]
        errs := if bad.isEmpty then a.errs else a.errs ++ [(9, b.index)]
        poisonedRefs := a.poisonedRefs ++ bad, media := a.media || !bad.isEmpty, last := b.index + 1
        areas := a.areas ++ (s.refReads d p b).map Prod.snd }

/-- Decode one slice, tile or restart interval: in an H.264 stream of profile 66 a redundant slice is passed over, and one of
several slice groups or out of order is not decoded (R131); nor is one whose header breaks a bound or cannot be read (R148). -/
def State.scanSlice (s : State) (j : CodecJob) (d : DecStream) (p : PicFacts) (limit core : Nat) (x : SliceFacts) (a : Scan) : Scan :=
  let read := max a.read (min x.header j.length)
  let head := fun (k : Nat) => { a with heads := a.heads ++ [k], read := read }
  if a.aborted then a
  else if d.format = 0 ∧ d.profile = 66 ∧ x.redundant = true then a
  else if d.format = 0 ∧ d.profile = 66 ∧ (p.groups = true ∨ x.first < a.last) then head 6
  else if x.counts.any (fun c => decide (c.2 < c.1)) then head 1
  else if j.length < x.header then head 4
  else if s.unitPoisoned j p x.start x.header then { head 9 with media := true }
  else if x.headErr.val ≠ 0 then head x.headErr.val
  else s.scanBlocks j d.entries p limit core x x.blocks { a with read := read }

/-- Decode a picture's slices in order. Its header errors come first: what its headers break, and a missing reference. -/
def State.scan (s : State) (j : CodecJob) (d : DecStream) (p : PicFacts) (limit core : Nat) : Scan :=
  let heads := (if p.headErr.val = 0 then [] else [p.headErr.val])
    ++ (if (List.range p.refs.length).any (fun r => (refEntry p d.entries r).isNone) then [3] else [])
  let a : Scan := ⟨[], [], heads, [], p.headCycles, j.budgetAbort, [], [], [], false, 0, [], 0, []⟩
  -- an abort that has struck already leaves the blocks that the facts give as decoded
  let b := forEach p.slices { a with aborted := false } (s.scanSlice j d p limit core)
  let n := b.cycles + p.seamCycles
  { b with aborted := b.aborted || j.budgetAbort || decide (limit ≤ s.stretched core n), cycles := n }

/-- The reads that decoding a picture makes: its access unit in device space, and the reference areas (R425). -/
def State.scanReads (s : State) (j : CodecJob) (a : Scan) : State :=
  let s1 := if j.addr.getLsbD 63 && decide (0 < a.read) then s.devRead (j.addr.toNat % 2 ^ 63) a.read else s
  forEach a.areas s1 (fun r s => if 0 < r.2 then s.devRead r.1 r.2 else s)

/-! ### Writes and windows (R147) -/

/-- A write of `n` bytes lies within one of the windows of a job. -/
def inWindow (wins : List (Nat × Nat)) (a n : Nat) : Bool := wins.any (fun v => decide (v.1 ≤ a) && decide (a + n ≤ v.1 + v.2))

/-- The hardware's writes of a picture: those within the windows of the job; every other one is suppressed. -/
def State.pictureWrites (s : State) (wins : List (Nat × Nat)) (l : List (Nat × Nat × List Byte)) : State :=
  forEach l s (fun w s => if inWindow wins w.2.1 w.2.2.length then s.devWrite w.2.1 w.2.2 else s)

/-- The writes that fall outside the windows: their blocks and addresses. -/
def strayWrites (wins : List (Nat × Nat)) (l : List (Nat × Nat × List Byte)) : List (Nat × Nat) :=
  (l.filter (fun w => !inWindow wins w.2.1 w.2.2.length)).map (fun w => (w.1, w.2.1))

/-! ### Concealment (R150) -/

/-- The reference nearest in output order, other than the picture's own entry: the lower-numbered of two (assumption 36). -/
def nearestRef (d : List PicEntry) (own : Nat) (order : Word) : Option PicEntry :=
  let far := fun (n : Nat) => ((d.getD n PicEntry.free).order.toInt - order.toInt).natAbs
  let refs := (List.range d.length).filter (fun n => n != own && (d.getD n PicEntry.free).isRef)
  (refs.foldl (fun b n => match b with
    | none => some n
    | some m => if far n < far m then some n else some m) none).map (fun n => d.getD n PicEntry.free)

/-- The parts of a block as rows: plane, first sample, row, and number of samples. -/
def blockRows (p : PicFacts) (k : Nat) : List (Nat × Nat × Nat × Nat) :=
  let x := k % max 1 (blockCols p) * p.blockW
  let y := k / max 1 (blockCols p) * p.blockH
  let w := min p.blockW (p.width - x)
  let h := min p.blockH (p.height - y)
  (List.range h).map (fun r => (0, x, y + r, w))
    ++ ((List.range (ceilDiv h 2)).map (fun r => [(1, x / 2, y / 2 + r, ceilDiv w 2), (2, x / 2, y / 2 + r, ceilDiv w 2)])).flatten

/-- Fill a block's samples with a function of plane and place. -/
def State.fillBlock (s : State) (base : Nat) (p : PicFacts) (k : Nat) (f : State → Nat → Nat → Nat → Nat) : State :=
  forEach (blockRows p k) s (fun r s =>
    let (plane, x, y, n) := r
    if plane = 0 then
      s.devWrite (base + sampleAt p.width p.height p.tenBit 0 x y)
        ((List.range n).flatMap (fun i => sampleBytes p.tenBit (f s 0 (x + i) y)))
    else
      forEach (List.range n) s (fun i s =>
        s.devWrite (base + sampleAt p.width p.height p.tenBit plane (x + i) y) (sampleBytes p.tenBit (f s plane (x + i) y))))

/-- GREY: mid-level luma and chroma. -/
def State.greyBlock (s : State) (base : Nat) (p : PicFacts) (k : Nat) : State :=
  s.fillBlock base p k (fun _ _ _ _ => if p.tenBit then 512 else 128)

/-- COPY: the collocated area of a reference, whose last sample stands for places beyond it and whose depth is brought to that of
the picture (assumption 36). -/
def State.copyBlock (s : State) (base : Nat) (p : PicFacts) (k : Nat) (e : PicEntry) : State :=
  let from_ := s.bufAddr (e.buffer.getD 0)
  s.fillBlock base p k (fun s plane x y =>
    let c := if plane = 0 then 1 else 2
    let v := s.pixelAt from_ e.width e.height e.tenBit plane (min x (ceilDiv e.width c - 1)) (min y (ceilDiv e.height c - 1))
    if e.tenBit == p.tenBit then v else if p.tenBit then 4 * v else v / 4)

/-- The area of a reference that COPY would read for a block holds poison. -/
def State.copyPoisoned (s : State) (p : PicFacts) (k : Nat) (e : PicEntry) : Bool :=
  let from_ := s.bufAddr (e.buffer.getD 0)
  (blockRows p k).any (fun r =>
    let b := if e.tenBit then 2 else 1
    !(s.poisonIn (from_ + sampleAt e.width e.height e.tenBit r.1 r.2.1 r.2.2.1) (b * r.2.2.2 * (if r.1 = 0 then 1 else 2))).isEmpty)

/-- A method of concealment. -/
inductive Conceal where
  | motion | copy | grey
deriving DecidableEq, Repr

/-- The method for a block: motion of a correctly decoded left, upper or collocated neighbour in an inter picture, then a copy of
the nearest reference, then grey. A block that would read poison is grey (R150, R153). -/
def State.concealBy (s : State) (p : PicFacts) (a : Scan) (lost : List Nat) (near : Option PicEntry) (k : Nat) : Conceal :=
  let cols := (blockCols p)
  let moves := fun n => a.motion.contains n && !lost.contains n
  if a.spoilt.contains k then .grey
  else if (p.picType == 1 || p.picType == 2) && ((decide (0 < k % max 1 cols) && moves (k - 1)) || (decide (cols ≤ k) && moves (k - cols))
      || p.collocated.contains k) then .motion
  else
    match near with
    | some e => if s.copyPoisoned p k e then .grey else .copy
    | none => .grey

/-- Conceal the lost blocks of a picture, in raster order. -/
def State.concealBlocks (s : State) (base : Nat) (p : PicFacts) (near : Option PicEntry) (l : List (Nat × Conceal)) : State :=
  forEach l s (fun b s =>
    match b.2 with
    | .motion =>
      forEach ((runWrites p base p.predicted).filter (fun w => w.1 == b.1)) s (fun w s => s.devWrite w.2.1 w.2.2)
    | .copy => match near with
      | some e => s.copyBlock base p b.1 e
      | none => s
    | .grey => s.greyBlock base p b.1)

/-- What a picture came to: its concealed blocks and their methods, those predicted from a replacement, its first error and the
place of that error. -/
structure Shown where
  conceal : List (Nat × Conceal)
  count : Nat
  err : Nat
  errPos : Nat
deriving DecidableEq, Repr

/-- The first error in decoding order, header errors first; a block that nothing covered comes last (R148, R151, R154). -/
def firstError (heads : List Nat) (errs : List (Nat × Nat)) (lost : List Nat) (aborted : Bool) : Nat × Nat :=
  match heads, errs, lost with
  | k :: _, _, _ => (k, 0xFFFFFFFF)
  | [], e :: _, _ => e
  | [], [], b :: _ => (if aborted then 8 else 4, b)
  | [], [], [] => (if aborted then 8 else 0, 0xFFFFFFFF)

/-- The block errors of a picture with those of its suppressed writes put before any later block's (R147). -/
def withStrays (order : List Nat) (errs stray : List (Nat × Nat)) : List (Nat × Nat) :=
  let l := (stray.map (fun w => (10, w.1))) ++ errs
  insertionSort (fun a b : Nat × Nat => decide (order.idxOf a.2 ≤ order.idxOf b.2)) l

/-- The blocks of a picture that are concealed, their number, and its first error. -/
def State.judge (s : State) (d : DecStream) (n : Nat) (p : PicFacts) (a : Scan) (stray : List (Nat × Nat)) : Shown :=
  let gone := fun k => !a.good.contains k || a.spoilt.contains k || stray.any (fun w => w.1 == k)
  let lost := (List.range (picBlocks p)).filter gone
  let near := nearestRef d.entries n p.order
  let extra := (a.replaced.filter (fun k => !gone k)).eraseDups.length
  let bare := (List.range (picBlocks p)).filter (fun k => !a.good.contains k)
  let (err, pos) := firstError a.heads (withStrays a.seen a.errs stray) bare a.aborted
  ⟨lost.map (fun k => (k, s.concealBy p a lost near k)), lost.length + extra, err, pos⟩

end Sys2Proof.Machine
end

