-- ==== Sys2Proof/Machine/Encode.lean ====
section
/-!
DEFINITION. Machine/Encode.lean: the classes and QPs of a frame's blocks, the frame's target and the HRD, the codings of a rung, and
its reconstruction (R173 to R184).
-/
namespace Sys2Proof.Machine

/-! ### Checkpoints (R185) -/

/-- The checkpoint that precedes the next frame (R185). -/
def EncStream.ck (e : EncStream) : Checkpoint := if e.newer then e.ckB else e.ckA
/-- Change the checkpoint that precedes the next frame. -/
def EncStream.updCk (e : EncStream) (f : Checkpoint → Checkpoint) : EncStream :=
  if e.newer then { e with ckB := f e.ckB } else { e with ckA := f e.ckA }

/-! ### Damage (R173, R178) -/

/-- A block of a mask, by column and row. -/
def blockBit (mask col row : Nat) : Bool := bit mask (128 * row + col)

/-- A block of a lower rung is damaged when a top-rung block that covers part of its source area is (R178). -/
def rungDamaged (mask w0 h0 w h col row : Nat) : Bool :=
  let lo := fun (i n0 n : Nat) => i * 64 * n0 / max 1 n / 64
  let hi := fun (i n0 n : Nat) => (ceilDiv (min n ((i + 1) * 64) * n0) (max 1 n) - 1) / 64
  let cols := (List.range (hi col w0 w + 1 - lo col w0 w)).map (· + lo col w0 w)
  let rows := (List.range (hi row h0 h + 1 - lo row h0 h)).map (· + lo row h0 h)
  rows.any (fun y => cols.any (fun x => blockBit mask x y))

/-- The blocks of a rung in raster order, by 128·row + column. -/
def RungState.blocks (r : RungState) : List Nat :=
  let bw := ceilDiv r.width 64
  (List.range (bw * ceilDiv r.height 64)).map (fun k => 128 * (k / bw) + k % bw)

/-- The mask of the blocks of a rung that a mask of top-rung blocks damages. -/
def RungState.damageOf (r : RungState) (w0 h0 mask : Nat) : Nat :=
  r.blocks.foldl (fun m b =>
    if rungDamaged mask w0 h0 r.width r.height (b % 128) (b / 128) then Nat.lor m (2 ^ b) else m) 0

/-! ### Classes and QPs (R174 to R176, R181 to R183) -/

/-- The classes of Table 06-6. -/
inductive BlockClass where
  | key | refresh | damaged | settle | skip
deriving DecidableEq, Repr

/-- What a frame's coding rests on: key frame; the coding of R183 (0 the first, 1 with every SETTLE block as SKIP, 2 with every block
as SKIP); the frame QP. -/
structure Pass where
  key : Bool
  mode : Nat
  qp : Nat
deriving DecidableEq, Repr

/-- The frame QP, which lies within QP_MIN and QP_MAX: QP_I or QP_P in constant-QP mode, else what rate control picks; QP_MAX when the
frame is coded a second time (R181, R183). -/
def EncStream.frameQp (e : EncStream) (key again : Bool) (given : Nat) : Nat :=
  let qp := if again then e.qpMax else if e.rcMode = 2 then (if key then e.qpI else e.qpP) else given
  max e.qpMin (min e.qpMax qp)

/-- The QP of a settle pass: that of the block when last DAMAGED less k × SETTLE_DQ, no lower than QP_MIN (R176). -/
def EncStream.settleQp (e : EncStream) (dmg left : Nat) : Nat := max e.qpMin (dmg - (e.settlePasses + 1 - left) * e.settleDq)

/-- A block lies in the refresh columns of a frame (R182). -/
def EncStream.inRefresh (e : EncStream) (r : RungState) (col : Nat) : Bool :=
  let bw := ceilDiv r.width 64
  let fr := max 1 e.refreshFrames
  match e.ck.refreshPos with
  | some q => decide (q * bw / fr ≤ col) && decide (col < (q + 1) * bw / fr)
  | none => false

/-- The class of a block before its settle passes are asked for: KEY, REFRESH, DAMAGED, or none of them. -/
def EncStream.ownClass (e : EncStream) (r : RungState) (p : Pass) (mask b : Nat) : Option BlockClass :=
  if p.mode = 2 then none
  else if p.key then some .key
  else if e.inRefresh r (b % 128) then some .refresh
  else if rungDamaged mask e.width e.height r.width r.height (b % 128) (b / 128) || bit r.carried b then some .damaged
  else none

/-- A coding of a rung under way: the settle map, the QPs of the last DAMAGED coding, the spare bits, the estimates still to be used,
and the class and QP of each block. -/
structure Coding where
  settle : Table Nat
  dmgQp : Table Nat
  spare : Nat
  estimates : List Nat
  blocks : List (Nat × BlockClass × Nat)
deriving DecidableEq, Repr

/-- Code one block (Table 06-6). -/
def Coding.block (c : Coding) (e : EncStream) (p : Pass) (own : Option BlockClass) (b : Nat) : Coding :=
  let left := Table.get 0 c.settle b
  let put := fun (k : BlockClass) (qp : Nat) => c.blocks ++ [(b, k, qp)]
  match own with
  | some .damaged => { c with
      blocks := put .damaged p.qp, settle := Table.set 0 c.settle b e.settlePasses, dmgQp := Table.set 0 c.dmgQp b p.qp }
  | some k => { c with blocks := put k p.qp, settle := Table.set 0 c.settle b 0 }
  | none =>
    if left = 0 ∨ p.mode = 2 then { c with blocks := put .skip 0 }
    else
      let est := c.estimates.headD 0
      let rest := c.estimates.drop 1
      if p.mode = 0 && (e.rcMode == 2 || decide (est ≤ c.spare)) then { c with
        blocks := put .settle (e.settleQp (Table.get 0 c.dmgQp b) left), settle := Table.set 0 c.settle b (left - 1)
        spare := c.spare - est, estimates := rest }
      else { c with blocks := put .skip 0, estimates := rest }

/-- Code a rung of a frame: the spare bits are the target less the bits of the KEY, REFRESH and DAMAGED blocks (R176). -/
def codeRung (e : EncStream) (r : RungState) (f : RungFacts) (x : CodingFacts) (p : Pass) (mask target : Nat) : Coding :=
  let own := r.blocks.map (fun b => (b, e.ownClass r p mask b))
  let spent := (List.range own.length).foldl (fun n k =>
    if ((own.getD k (0, none)).2).isSome then n + x.bits.getD k 0 else n) 0
  own.foldl (fun c o => c.block e p o.2 o.1) ⟨r.settle, r.dmgQp, target - spent, f.estimates, []⟩

/-- The blocks of a class. -/
def Coding.count (c : Coding) (k : BlockClass) : Nat := (c.blocks.filter (fun b => b.2.1 == k)).length
/-- KEY, REFRESH and DAMAGED blocks. -/
def Coding.damaged (c : Coding) : Nat := c.count .key + c.count .refresh + c.count .damaged
/-- The cycles of one coding of a rung (Table 06-7). -/
def Coding.cycles (c : Coding) : Nat := c.damaged * 3277 + c.count .settle * 1229 + 24000

/-- AVG_QP: the average QP of the coded blocks; of none, what the facts say (assumption 36). -/
def Coding.averageQp (c : Coding) (given : Nat) : Nat :=
  let l := (c.blocks.filter (fun b => b.2.1 != .skip)).map (fun b => b.2.2)
  let sum := l.foldl (· + ·) 0
  if l.length = 0 then given
  else if sum % l.length = 0 then sum / l.length
  else sum / l.length + b2n (Config.roundsUp sum l.length)

/-! ### Targets and the HRD (R181, R183) -/

/-- KBPS × 1,000 / frame rate bits, at `a` / `b` frames a second. -/
def frameBits (kbps a b : Nat) : Nat := kbps * 1000 * b / max 1 a

/-- The frame's target: what rate control corrected it to, at most MAX_KBPS in mode 1 and at most the target of every frame in mode 3
(Table 06-8). -/
def EncStream.target (e : EncStream) (r : RungState) (a b given : Nat) : Nat :=
  match e.rcMode with
  | 1 => min given (frameBits r.maxKbps a b)
  | 3 => min given (frameBits r.kbps a b)
  | _ => given

/-- The HRD that a rung signals (Table 06-8); none in constant-QP mode. -/
def EncStream.hrd (e : EncStream) (r : RungState) (a b : Nat) : Option Hrd :=
  match e.rcMode with
  | 0 => some ⟨true, r.kbps * 1000, r.cpbBits⟩
  | 1 => some ⟨false, r.maxKbps * 1000, r.cpbBits⟩
  | 3 => some ⟨false, r.kbps * 1000, frameBits r.kbps a b⟩
  | _ => none

/-- The CPB's fullness before a frame is taken out: a period's bits have come in, up to its size. -/
def Hrd.before (h : Hrd) (cpb a b : Nat) : Nat := min h.size (cpb + h.rate * b / max 1 a)

/-- Bits of filler that a frame needs so that the CPB does not overflow before the next frame is taken out: under cbr_flag 1
(Table 06-8). -/
def Hrd.fillerBits (h : Hrd) (cpb a b bits : Nat) : Nat :=
  if h.cbr then h.before cpb a b - bits + h.rate * b / max 1 a - h.size else 0

/-! ### Coding a rung (R183, R184) -/

/-- One coding of a rung with all that comes of it: how it was coded, its classes, its units before filler and their bytes, and
whether it conforms to the HRD. -/
structure Coded where
  pass : Pass
  coding : Coding
  units : List (CodedUnit × List Byte)
  fits : Bool
deriving DecidableEq, Repr

/-- What a rung's coding takes from its stream and its job besides the rung itself. -/
structure RungTask where
  key : Bool
  mask : Nat
  /-- Frames per second. -/
  num : Nat
  den : Nat
  ends : Bool
  colour : List Byte
deriving DecidableEq, Repr

/-- The plan of a frame's units. -/
def EncStream.plan (e : EncStream) (r : RungState) (t : RungTask) : FramePlan :=
  let starts := !t.key && e.refresh && e.ck.refreshPos == some 0
  { format := e.format, key := t.key, cycle := if starts then some e.refreshFrames else none, toMemory := r.sink.isNone
    sets := t.key || starts || e.psEvery, ends := t.ends, screen := e.screen, colour := t.colour, hrd := e.hrd r t.num t.den
    tileCols := e.split }

/-- The bits of a frame's units as a byte stream. -/
def unitBits (format : Nat) (l : List (CodedUnit × List Byte)) : Nat := 8 * (byteStream format l).length

/-- Code a rung once: the n-th coding of R183. -/
def EncStream.codeOnce (e : EncStream) (r : RungState) (f : RungFacts) (t : RungTask) (n : Nat) : Coded :=
  let x := f.codings.getD n ⟨0, [], [], [], []⟩
  let p : Pass := ⟨t.key, if t.key then 0 else n, e.frameQp t.key (decide (0 < n)) x.qp⟩
  let plan := e.plan r t
  let frame := x.head ++ tileBytes e.format ((List.range e.split).map (fun k => x.tiles.getD k []))
  let units := unitBytes e.format frame (plan.units ++ plan.last) f.bodies
  { pass := p, coding := codeRung e r f x p t.mask (e.target r t.num t.den f.target), units := units
    fits := match plan.hrd with
      | some h => decide (unitBits e.format units ≤ h.before r.cpb.toNat t.num t.den)
      | none => true }

/-- The codings of a rung, the last one first: a second one where the first does not conform, and for an inter frame a third, with
every block as SKIP (R183). -/
def EncStream.codings (e : EncStream) (r : RungState) (f : RungFacts) (t : RungTask) : List Coded :=
  let a := e.codeOnce r f t 0
  if a.fits then [a]
  else
    let b := e.codeOnce r f t 1
    if b.fits || t.key then [b, a] else [e.codeOnce r f t 2, b, a]

/-! ### The reconstruction (R175, R184) -/

/-- The rows of a block in a buffer of a rung: offset and length, luma and then the interleaved chroma. -/
def RungState.blockSpans (r : RungState) (ten : Bool) (b : Nat) : List (Nat × Nat) :=
  let x := b % 128 * 64
  let y := b / 128 * 64
  let w := min 64 (r.width - x)
  let h := min 64 (r.height - y)
  let n := if ten then 2 else 1
  (List.range h).map (fun k => (sampleAt r.width r.height ten 0 x (y + k), n * w))
    ++ (List.range (ceilDiv h 2)).map (fun k => (sampleAt r.width r.height ten 1 (x / 2) (y / 2 + k), 2 * n * ceilDiv w 2))

/-- The block of a rung that holds a sample. -/
def blockOfSample (plane x y : Nat) : Nat :=
  let k := if plane = 0 then 64 else 32
  128 * (y / k) + x / k

/-- Write the reconstruction of a rung to a device address: a SKIP block is the collocated area of reference 0. -/
def State.writeRecon (s : State) (r : RungState) (ten : Bool) (at_ : Nat) (c : Coding) (runs : List SampleRun) : State :=
  let s1 := forEach (c.blocks.filter (fun b => b.2.1 == .skip)) s (fun b s =>
    match r.refs with
    | [] => s
    | a :: _ => forEach (r.blockSpans ten b.1) s (fun w s => s.devWrite (at_ + w.1) (s.dev.bytes (a + w.1) w.2)))
  let own := fun k => c.blocks.any (fun b => b.1 == k && b.2.1 != .skip)
  forEach runs s1 (fun v s => forEach (List.range v.values.length) s (fun k s =>
    if own (blockOfSample v.plane.val (v.x + k) v.y) then
      s.devWrite (at_ + sampleAt r.width r.height ten v.plane.val (v.x + k) v.y) (sampleBytes ten (v.values.getD k 0))
    else s))

end Sys2Proof.Machine
end

