-- ==== Sys2Proof/Machine/Motion.lean ====
section
/-!
DEFINITION. Machine/Motion.lean: motion search on inter frames (R172, R178): the pyramid, the levels of Table 06-5, their costs, and
the candidates of the lower rungs. Vectors are in eighths of a luma sample.
-/
namespace Sys2Proof.Machine

/-! ### Samples -/

/-- The luma of a picture as the search reads it. -/
abbrev Luma := Int → Int → Nat

/-- A picture's luma beyond its edges is that of its edge samples. -/
def padded (w h : Nat) (f : Nat → Nat → Nat) : Luma := fun x y =>
  f (min (w - 1) x.toNat) (min (h - 1) y.toNat)

/-- The luma of a buffer. -/
def State.luma (s : State) (base w h : Nat) (ten : Bool) : Luma := padded w h (fun x y => s.pixelAt base w h ten 0 x y)

/-- A sample scaled in one dimension by the 8-tap downscaler. -/
def tap8 (n m : Nat) (x : Int) (f : Int → Nat) : Nat :=
  Config.downscale n m x.toNat ((List.range 8).map (fun (k : Nat) => f (x * n / max 1 m - 3 + k)))

/-- A picture scaled from one size to another. -/
def scaledLuma (w0 h0 w1 h1 : Nat) (f : Luma) : Luma :=
  if w0 = w1 ∧ h0 = h1 then f else fun x y => tap8 h0 h1 y (fun v => tap8 w0 w1 x (fun u => f u v))

/-- A level of the pyramid, at 1/`k` in each dimension. -/
def pyramid (w h k : Nat) (f : Luma) : Luma := scaledLuma w h (ceilDiv w k) (ceilDiv h k) f

/-! ### Costs -/

/-- An area of a picture. -/
structure Area where
  x : Int
  y : Int
  w : Nat
  h : Nat
deriving DecidableEq, Repr

/-- The samples of an area, row by row. -/
def Area.samples (a : Area) (f : Luma) : List Nat :=
  (List.range a.h).flatMap (fun (j : Nat) => (List.range a.w).map (fun (i : Nat) => f (a.x + i) (a.y + j)))

/-- The sum of absolute differences of two lists of samples. -/
def sadOf (l m : List Nat) : Nat := (List.zipWith (fun a b : Nat => ((a : Int) - b).natAbs) l m).foldl (· + ·) 0

/-- The Hadamard transform of four values. -/
def hadamard4 : List Int → List Int
  | [a, b, c, d] => [a + b + c + d, a - b + c - d, a + b - c - d, a - b - c + d]
  | l => l

/-- The sum of the magnitudes of the transformed difference in a 4 × 4 part of an area; the spec does not give the size of the
transform (assumption 36). -/
def hadamardPart (f g : Luma) (x y u v : Int) : Nat :=
  let rows := (List.range 4).map (fun (j : Nat) => hadamard4 ((List.range 4).map (fun (i : Nat) => (f (x + i) (y + j) : Int) - g (u + i) (v + j))))
  ((List.range 4).map (fun i => (hadamard4 (rows.map (fun r => r.getD i 0))).foldl (fun n c => n + c.natAbs) 0)).foldl (· + ·) 0

/-- The Hadamard-transformed difference of an area and the one at (u, v) of another picture. -/
def hadamardDiff (a : Area) (f g : Luma) (u v : Int) : Nat :=
  (List.range (a.h / 4)).foldl (fun n (j : Nat) => (List.range (a.w / 4)).foldl (fun n (i : Nat) =>
    n + hadamardPart f g (a.x + 4 * i) (a.y + 4 * j) (u + 4 * i) (v + 4 * j)) n) 0

/-- The `n` best of a list of vectors by cost, the earlier of two equal ones first. -/
def bestVecs (n : Nat) (cost : Vec → Nat) (l : List Vec) : List Vec :=
  ((insertionSort (fun a b : Vec × Nat => decide (a.2 ≤ b.2)) (l.map (fun v => (v, cost v)))).take n).map Prod.fst

/-- The vectors of a window of ± `rx` × ± `ry` steps around a centre. -/
def window (c : Vec) (rx ry step : Nat) : List Vec :=
  (List.range (2 * ry + 1)).flatMap (fun (j : Nat) => (List.range (2 * rx + 1)).map (fun (i : Nat) =>
    ⟨c.x + step * ((i : Int) - rx), c.y + step * ((j : Int) - ry)⟩))

/-! ### What a search is given -/

/-- A search on one rung of a frame: its size and format, the vertical range, the source and the references with their temporal
distances, the columns that vectors may point into, and the vectors of the previous frame. -/
structure Search where
  width : Nat
  height : Nat
  format : Nat
  range : Nat
  source : Luma
  refs : List (Luma × Int)
  clean : Option Nat
  previous : List Motion

/-- Vectors are clipped to the level's vertical range and to the reference's padded area (R172). -/
def Search.clip (z : Search) (a : Area) (v : Vec) : Vec :=
  let lim := fun (lo hi n : Int) => max lo (min hi n)
  let pad : Int := Config.padding
  ⟨lim (8 * (-pad - a.x)) (8 * ((z.width : Int) + pad - a.w - a.x)) v.x,
   lim (8 * (-pad - a.y)) (8 * ((z.height : Int) + pad - a.h - a.y)) (lim (-(8 * z.range)) (8 * z.range) v.y)⟩

/-- Within a refresh cycle a block in columns already refreshed takes vectors only into such columns (R182). -/
def Search.allows (z : Search) (a : Area) (v : Vec) : Bool :=
  match z.clean with
  | none => true
  | some cols => decide (8 * (64 * cols : Int) < 8 * (a.x + a.w)) || decide (8 * (a.x + a.w) + v.x ≤ 8 * (64 * cols : Nat))

/-- The vectors that a search tries: clipped, allowed. -/
def Search.tried (z : Search) (a : Area) (l : List Vec) : List Vec := ((l.map (z.clip a)).filter (z.allows a)).eraseDups

/-- Vectors of the previous frame over a place, onto reference 0. -/
def Search.collocated (z : Search) (x y : Nat) : List Vec :=
  ((z.previous.find? (fun m => m.ref == 0 && decide (m.x ≤ x) && decide (x < m.x + m.w) && decide (m.y ≤ y) && decide (y < m.y + m.h))).map
    Motion.v).toList

/-! ### Levels L2 and L1 (Table 06-5) -/

/-- The cost of a vector on a level of the pyramid. -/
def Search.sad (z : Search) (k : Nat) (a : Area) (v : Vec) : Nat :=
  match z.refs with
  | [] => 0
  | (g, _) :: _ =>
    let src := pyramid z.width z.height k z.source
    let ref := pyramid z.width z.height k g
    let b : Area := ⟨a.x / k, a.y / k, a.w / k, a.h / k⟩
    sadOf (b.samples src) (({ b with x := b.x + v.x / (8 * k), y := b.y + v.y / (8 * k) } : Area).samples ref)

/-- L2: every position of ±128 × ±64 at 1/4 scale, centred on zero; the 2 best of a 32 × 32 area. -/
def Search.l2 (z : Search) (x y : Nat) : List Vec :=
  let a : Area := ⟨x, y, 32, 32⟩
  bestVecs 2 (z.sad 4 a) (z.tried a (window ⟨0, 0⟩ 128 64 32))

/-- L1 on one 16 × 16 area: ±16 × ±16 at 1/2 scale around the survivors of L2, the left and upper neighbours' vectors and the
collocated vector of the previous frame; the 2 best. `done` holds the areas before it. -/
def Search.l1 (z : Search) (two : List Vec) (done : List (Nat × Nat × List Vec)) (x y : Nat) : List Vec :=
  let a : Area := ⟨x, y, 16, 16⟩
  let at_ := fun (u v : Nat) => ((done.find? (fun d => d.1 == u && d.2.1 == v)).map (fun d => d.2.2)).getD []
  let cands := two ++ (if 16 ≤ x then at_ (x - 16) y else []) ++ (if 16 ≤ y then at_ x (y - 16) else []) ++ z.collocated x y
  bestVecs 2 (z.sad 2 a) (z.tried a (cands.flatMap (fun c => window c 16 16 16)))

/-- L2 and L1 on a 64 × 64 block: the survivors of each 16 × 16 area, put behind those before them. -/
def Search.coarse (z : Search) (done : List (Nat × Nat × List Vec)) (b : Nat) : List (Nat × Nat × List Vec) :=
  let x0 := b % 128 * 64
  let y0 := b / 128 * 64
  (List.range 4).foldl (fun l q =>
    let two := z.l2 (x0 + q % 2 * 32) (y0 + q / 2 * 32)
    (List.range 4).foldl (fun l k =>
      let x := x0 + q % 2 * 32 + k % 2 * 16
      let y := y0 + q / 2 * 32 + k / 2 * 16
      (x, y, z.l1 two l x y) :: l) l) done

/-! ### Level L0 and sub-pel refinement -/

/-- The partition sizes of Table 06-2. -/
def partitionSizes (format : Nat) : List (Nat × Nat) :=
  match format with
  | 0 => [(16, 16), (16, 8), (8, 16), (8, 8)]
  | 1 => [64, 32, 16, 8].flatMap (fun n => [(n, n), (n, n / 2), (n / 2, n)])
  | _ => [64, 32, 16].flatMap (fun n => [(n, n), (n, n / 2), (n / 2, n)]) ++ [(8, 8)]

/-- The partitions of a 64 × 64 block that have a part inside the picture. -/
def Search.partitions (z : Search) (b : Nat) : List Area :=
  let x0 := b % 128 * 64
  let y0 := b / 128 * 64
  ((partitionSizes z.format).flatMap (fun p => (List.range (64 / p.2)).flatMap (fun (j : Nat) => (List.range (64 / p.1)).map (fun (i : Nat) =>
    (⟨x0 + p.1 * i, y0 + p.2 * j, p.1, p.2⟩ : Area))))).filter (fun a => decide (a.x < z.width) && decide (a.y < z.height))

/-- A candidate scaled to a reference by the ratio of temporal distances. -/
def scaleVec (v : Vec) (d d0 : Int) : Vec := if d0 = 0 then v else ⟨v.x * d / d0, v.y * d / d0⟩

/-- A sample at eighths of a sample of a reference. -/
def sampleBetween (format : Nat) (g : Luma) (x y : Int) (v : Vec) : Nat :=
  let u := x + v.x / 8
  let w := y + v.y / 8
  if v.x % 8 = 0 ∧ v.y % 8 = 0 then g u w
  else Config.interpolate format (v.x % 8).toNat (v.y % 8).toNat (({ x := u - 3, y := w - 3, w := 8, h := 8 } : Area).samples g)

/-- The cost of L0 and sub-pel: the Hadamard-transformed difference plus λ times the estimated vector bits. -/
def Search.cost (z : Search) (qp : Nat) (a : Area) (g : Luma) (v : Vec) : Nat :=
  hadamardDiff a z.source (fun x y => sampleBetween z.format g x y v) a.x a.y + Config.lambda qp * Config.vectorBits v.x v.y

/-- The best vector of a partition onto one reference: whole samples within ± `r` of each candidate, then half-pel, quarter-pel and,
in AV1, eighth-pel steps. -/
def Search.refine (z : Search) (qp r : Nat) (a : Area) (g : Luma) (cands : List Vec) : Option Vec :=
  let best := fun (l : List Vec) => (bestVecs 1 (z.cost qp a g) (z.tried a l)).head?
  let whole := fun (v : Vec) => (⟨(v.x + 4) / 8 * 8, (v.y + 4) / 8 * 8⟩ : Vec)
  let steps := if z.format = 2 then [4, 2, 1] else [4, 2]
  steps.foldl (fun b k => b.bind (fun v => best (window v 1 1 k))) (best (cands.flatMap (fun c => window (whole c) r r 8)))

/-- L0 and sub-pel on a 64 × 64 block: the best vector of each partition onto each reference. -/
def Search.fine (z : Search) (qp r b : Nat) (cands : Area → Nat → List Vec) : List Motion :=
  (z.partitions b).flatMap (fun a => (List.range z.refs.length).flatMap (fun k =>
    match z.refs[k]? with
    | none => []
    | some (g, _) => ((z.refine qp r a g (cands a k)).map (fun v =>
        (⟨a.x.toNat, a.y.toNat, a.w, a.h, k, v⟩ : Motion))).toList))

/-- The search of the top rung on its DAMAGED blocks, each with its QP: `given` are the candidates that the format's own rules add. -/
def Search.top (z : Search) (blocks : List (Nat × Nat)) (given : Nat → List Vec) : List Motion :=
  let coarse : List (Nat × Nat × List Vec) := blocks.foldl (fun l b => z.coarse l b.1) []
  let dist := fun (k : Nat) => ((z.refs[k]?).map Prod.snd).getD 0
  blocks.flatMap (fun b => z.fine b.2 8 b.1 (fun a k =>
    ((coarse.filter (fun c => decide (a.x < c.1 + 16) && decide ((c.1 : Int) < a.x + a.w) && decide (a.y < c.2.1 + 16)
      && decide ((c.2.1 : Int) < a.y + a.h))).flatMap (fun c => c.2.2) ++ given b.1 ++ [(⟨0, 0⟩ : Vec)]).map (fun v => scaleVec v (dist k) (dist 0))))

/-- The search of a lower rung: around the top rung's vectors of the collocated area, scaled and rounded to quarter-pel, ±4 × ±4
whole samples, then sub-pel (R178). -/
def Search.lower (z : Search) (w0 h0 : Nat) (top : List Motion) (blocks : List (Nat × Nat)) : List Motion :=
  let quarter := fun (n : Int) (m k : Nat) => (2 * n * m + 2 * k) / (4 * (max 1 k : Nat)) * 2
  blocks.flatMap (fun b => z.fine b.2 4 b.1 (fun a k =>
    let x := (a.x.toNat + a.w / 2) * w0 / max 1 z.width
    let y := (a.y.toNat + a.h / 2) * h0 / max 1 z.height
    (top.filter (fun m => m.ref == k && decide (m.x ≤ x) && decide (x < m.x + m.w) && decide (m.y ≤ y) && decide (y < m.y + m.h))).map
      (fun m => ⟨quarter m.v.x z.width w0, quarter m.v.y z.height h0⟩)))

end Sys2Proof.Machine
end

