-- ==== Sys2Proof/Machine/Rings.lean ====
section
/-!
DEFINITION. Machine/Rings.lean: the rings of the host: queues, entry caches, command slots, completions and their
posting (R57 to R93). A queue or ring is keyed function · 4,096 + number.
-/
namespace Sys2Proof.Machine

/-- The key of a queue or ring. -/
def qKey (f q : Nat) : Nat := f * 4096 + q
/-- The function of a key. -/
def keyFn (k : Nat) : Nat := k / 4096
/-- A submission queue. -/
def State.sq (s : State) (k : Nat) : Sq := Table.get Sq.absent s.qm.sqs k
/-- Replace a submission queue. -/
def State.setSq (s : State) (k : Nat) (q : Sq) : State := { s with qm.sqs := Table.set Sq.absent s.qm.sqs k q }
/-- A completion ring. -/
def State.cq (s : State) (k : Nat) : Cq := Table.get Cq.absent s.qm.cqs k
/-- Replace a completion ring. -/
def State.setCq (s : State) (k : Nat) (c : Cq) : State := { s with qm.cqs := Table.set Cq.absent s.qm.cqs k c }
/-- A command slot. -/
def State.slot (s : State) (n : Nat) : Option Slot := Table.get .none s.qm.slots n
/-- Replace a command slot. -/
def State.setSlot (s : State) (n : Nat) (x : Option Slot) : State :=
  { s with qm.slots := Table.set .none s.qm.slots n x }
/-- The slots in use, with their numbers. -/
def State.slotList (s : State) : List (Nat × Slot) :=
  s.qm.slots.filterMap (fun e => e.2.map (fun x => (e.1, x)))

/-- QMGR_FN_SLOTS[f]: SLOT_MIN and SLOT_MAX. -/
def State.slotMin (s : State) (f : Nat) : Nat := bits (s.regOr (if f = 0 then 4096 * 65536 else 0) (0x20108 + 16 * f)) 12 0
/-- SLOT_MAX. -/
def State.slotMax (s : State) (f : Nat) : Nat := bits (s.regOr (if f = 0 then 4096 * 65536 else 0) (0x20108 + 16 * f)) 28 16
/-- The slots in use by a function. -/
def State.slotsUsed (s : State) (f : Nat) : Nat := (s.slotList.filter (fun e => e.2.fn == f)).length
/-- The free slots. -/
def State.slotsFree (s : State) : Nat := 4096 - s.qm.slots.length

/-- A function may take a slot (R73). -/
def State.mayTake (s : State) (f : Nat) : Bool :=
  let others := (List.range 16).foldl (fun n g => if g = f then n else n + (s.slotMin g - s.slotsUsed g)) 0
  decide (0 < s.slotsFree) && (decide (s.slotsUsed f < s.slotMin f) ||
    (decide (s.slotsUsed f < s.slotMax f) && decide (others < s.slotsFree)))

/-- SLOTS_OUT and ICU source 292 when no function may take a slot (R73). -/
def State.slotsCheck (s : State) : State :=
  let out := !(List.range 16).any s.mayTake
  let s1 := { s with qm.slotsOut := out }
  if out && !s.qm.slotsOut then s1.raise 292 else s1

/-- A command finishes: its completion is held in its slot (R79). -/
def State.finish (s : State) (n : Nat) (st : Status) (r0 r1 : Nat) (detail : Option Nat) : State :=
  match s.slot n with
  | none => s
  | some x =>
    match x.phase with
    | .finished | .posted => s
    | _ =>
      { s.setSlot n (some { x with
          phase := .finished, finishNo := s.qm.finishNo
          completion := ⟨st, BitVec.ofNat 32 r0, BitVec.ofNat 32 r1, detail.map (BitVec.ofNat 32), s.time.dts⟩ }) with
        qm.finishNo := s.qm.finishNo + 1 }

/-- DETAIL: the offset of the offending field and the extra code (Table 03-5, R102). -/
def detailOf (offset extra : Nat) : Option Nat := some (offset + 256 * extra)

/-- The command in a slot is carried out by a unit or waits: it has started. -/
def State.start (s : State) (n : Nat) : State :=
  match s.slot n with
  | some x => s.setSlot n (some { x with phase := .running })
  | none => s

/-- An entry of the queue earlier than `seq`, in the window of R76. -/
def seqBefore (a b : BitVec 16) : Bool := a != b && decide ((b - a).toNat < 32768)

/-- A finished command may be posted to its ring: on an ORDERED queue every earlier entry of the queue has been
posted (R81). -/
def State.mayPost (s : State) (x : Slot) : Bool :=
  x.phase == .finished && (!(s.sq (qKey x.fn x.sq)).ordered || s.slotList.all (fun e =>
    !(e.2.fn == x.fn && e.2.sq == x.sq && seqBefore e.2.seq x.seq) || e.2.phase == .posted))

/-- Of two candidates the one that finished first. -/
def earlier (a b : Nat × Slot) : Nat × Slot := if b.2.finishNo < a.2.finishNo then b else a

/-- The completion a ring posts next: the first finished of those that may be posted (R81). -/
def State.nextPost (s : State) (f c : Nat) : Option (Nat × Slot) :=
  match s.slotList.filter (fun e => e.2.fn == f && e.2.cq == c && s.mayPost e.2) with
  | [] => none
  | h :: t => some (t.foldl earlier h)

/-- The 32 bytes of a completion (Table 03-5). -/
def completionBytes (x : Slot) : List Byte :=
  x.cid.toNat |> leBytes 4 |>.append (leBytes 2 x.sq ++ leBytes 2 x.sqHead ++ leBytes 2 x.seq.toNat
    ++ leBytes 1 x.completion.status.code
    ++ leBytes 1 (b2n x.ringPhase + 2 * b2n x.completion.detail.isSome)
    ++ leBytes 4 x.completion.result0.toNat ++ leBytes 4 x.completion.result1.toNat
    ++ leBytes 4 ((x.completion.detail.getD 0).toNat) ++ leBytes 8 x.completion.dts.toNat)

/-- A ring is full: one more completion would make its tail equal its head (R79). -/
def Cq.isFull (c : Cq) : Bool := decide (0 < c.size) && (c.tail + 1) % c.size == c.head

/-- A ring takes completions: it exists, is not frozen by a failed re-post (R93) and not being reset. -/
def Cq.takes (c : Cq) : Bool := (c.state == .active || c.state == .frozen) && !c.writeFrozen

/-- A completion has been written to its ring. -/
def Slot.done (x : Slot) : Bool := x.phase == .posted && x.written

/-- A queue in DRAINING whose last completion is settled becomes ABSENT (R84). -/
def State.settleQueue (s : State) (k : Nat) : State :=
  if (s.sq k).state = .draining ∧
      s.slotList.all (fun e => !(qKey e.2.fn e.2.sq == k) || e.2.done) then s.setSq k Sq.absent
  else s

/-- A completion has been written or logged: commands that waited for it go on (R84, R116). -/
def State.releaseBarriers (s : State) (n : Nat) (aborted : Bool) : State :=
  let bs := s.qm.barriers.map (fun b =>
    if b.on.contains n then { b with on := b.on.filter (· != n), aborted := b.aborted + b2n aborted } else b)
  let s1 := { s with qm.barriers := bs.filter (fun b => !b.on.isEmpty) }
  forEach (bs.filter (fun b => b.on.isEmpty)) s1 (fun b s => s.finish b.slot .ok (b.result0.getD b.aborted) 0 none)

/-- A command waits for the completions of `on` to be written; with none it finishes at once. -/
def State.waitFor (s : State) (b : Barrier) : State :=
  if b.on.isEmpty then s.finish b.slot .ok (b.result0.getD b.aborted) 0 none
  else { s.start b.slot with qm.barriers := s.qm.barriers ++ [b] }

/-- A setting of the aggregation takes effect. -/
def Cq.settled (c : Cq) : Cq :=
  match c.aggNext with
  | some (n, t) => { c with aggCount := n, aggTime := t, aggNext := none }
  | none => c

/-- Count a posted completion towards its ring's message, and send the message when AGG_COUNT is reached (R82). -/
def Cq.counted (c : Cq) (noInt : Bool) (now : Nat) : Cq × Bool :=
  if noInt then (c, false)
  else
    let u := c.unsignalled + 1
    if max 1 c.aggCount ≤ u then ({ c with unsignalled := 0, oldestAt := none }, true)
    else ({ c with unsignalled := u, oldestAt := some (c.oldestAt.getD now) }, false)

/-- A completion of a slot has been written for the first time: it counts as posted and towards its ring's message (R82),
and what waited for it goes on (R84, R116). -/
def State.wrote (s : State) (k n : Nat) (x : Slot) : State :=
  let r := s.cq k
  let (r1, msg) := r.settled.counted x.noInt s.now
  let s1 := (s.setSlot n (some { x with written := true })).setCq k r1
  let s2 := { s1 with audit.posted := Table.upd 0 s1.audit.posted x.fn (· + 1) }
  let s3 := if msg then s2.emit (.msix x.fn r.vector) else s2
  (s3.settleQueue (qKey x.fn x.sq)).releaseBarriers n (x.completion.status == Status.aborted)

/-- COMPLETION_POST: the next finished completion of a ring is written at the ring's tail (R77 to R82). `ok` is false
where the PCIe write met an error: the completion is retained and written again 1 ms later (R93). -/
def State.post (s : State) (f c : Nat) (ok : Bool) : State :=
  let k := qKey f c
  let r := s.cq k
  if !(r.takes && s.qm.linkUp) || r.isFull || !r.repost.isEmpty then s
  else
    match s.nextPost f c with
    | none => s
    | some (n, x) =>
      let x1 := { x with
        phase := .posted, ringPos := r.tail, ringPhase := r.phase, sqHead := (s.sq (qKey f x.sq)).head }
      let wrap := (r.tail + 1) % r.size == 0
      let r1 := { r with
        tail := (r.tail + 1) % r.size, phase := if wrap then !r.phase else r.phase
        repost := if ok then [] else [n], repostAt := millisecond + s.now }
      let full := r1.isFull && !r1.full
      let s1 := (s.setSlot n (some x1)).setCq k { r1 with full := r1.isFull }
      let s2 := if full then { s1 with qm.cqFull := true }.raise 291 else s1
      if ok then (s2.hostWrite (r.base + 32 * r.tail) (completionBytes x1)).wrote k n x1 else s2.emit (.aer 1)

/-- COMPLETION_REPOST: the first completion that waits to be written again is written to the same ring slot with the
same content and PHASE (R80); a second failure freezes the ring (R93). -/
def State.repost (s : State) (f c : Nat) (ok : Bool) : State :=
  let k := qKey f c
  match (s.cq k).repost with
  | [] => s
  | n :: t =>
    if !s.qm.linkUp then s
    else
      let s1 := s.advanceTo (s.cq k).repostAt
      let r := s1.cq k
      if ok then
        match s1.slot n with
        | some x =>
          let s2 := (s1.setCq k { r with repost := t }).hostWrite (r.base + 32 * x.ringPos) (completionBytes x)
          if x.written then s2 else s2.wrote k n x
        | none => s1.setCq k { r with repost := t }
      else ((s1.setCq k { r with state := .frozen, writeFrozen := true, repost := [] }).emit (.aer 1)).raise 290

/-- AGG_TIME_EXPIRY: AGG_TIME has passed since the oldest counted completion (R82). -/
def State.aggExpire (s : State) (f c : Nat) : State :=
  let k := qKey f c
  let r := s.cq k
  match r.oldestAt with
  | none => s
  | some t =>
    if r.aggTime = 0 then s
    else
      let s1 := s.advanceTo (t + microsecond * r.aggTime)
      (s1.setCq k { r with unsignalled := 0, oldestAt := none }).emit (.msix f r.vector)

/-- Record an ignored doorbell (R70). -/
def State.dbError (s : State) (f q : Nat) (cq : Bool) : State :=
  { s with qm := { s.qm with dbErr := satInc 0xFFFF s.qm.dbErr, dbErrFn := f, dbErrCq := cq, dbErrQ := q } }.raise 289

/-- Doorbells are taken: the queue manager runs (Table 03-7). -/
def State.qmRuns (s : State) : Bool := !s.pwr.mode.dark && !s.pwr.inWarmReset && !s.halted

/-- Move a queue's head past leading PAD entries of its cache (R66). -/
def Sq.skipPads (q : Sq) : Sq :=
  let pads := q.cache.takeWhile (fun e => e.pad && !e.fault)
  match pads.getLast? with
  | none => q
  | some e => { q with head := (e.pos + e.slots) % q.size, cache := q.cache.dropWhile (fun e => e.pad && !e.fault) }

/-- A doorbell of a function that TEST_DB delays reaches the queue manager up to 1,000 us late: the clock moves to its arrival
(R430, assumption 24). -/
def State.bellArrives (s : State) (f : Nat) : State :=
  let w := s.regOr 0 0x400060
  let d := min 1000 (bits w 25 16)
  if bit w f ∧ d ≠ 0 then s.advance (d * microsecond) else s

/-- SUBMISSION_DOORBELL (R69, R70, R72). A tail that passes the head leaves the queue's tail undefined (assumption 4). -/
def State.sqDoorbell (s0 : State) (f q : Nat) (v : Word) : State :=
  let s := s0.bellArrives f
  let k := qKey f q
  let x := s.sq k
  let t := bits v.toNat 15 0
  if !s.qmRuns || x.state == .draining then s
  else if x.state == .absent || bits v.toNat 31 17 ≠ 0 || decide (x.size ≤ t) then s.dbError f q false
  else
    let room := (x.head + x.size - 1 - x.tail) % x.size
    let step := (t + x.size - x.tail) % x.size
    let (t1, s1) := if step ≤ room then (t, s) else ((s.drawFree).1 % x.size, s.drawFree.2)
    let inv := bit v.toNat 16
    s1.setSq k { x with
      tail := t1
      cache := if inv && x.state != .frozen then [] else x.cache
      invalidate := x.invalidate || (inv && x.state == .frozen) }

/-- The slots that a completion doorbell frees: those of the ring between the old and the new head. -/
def State.consumed (s : State) (f c h n : Nat) : List Nat :=
  (s.slotList.filter (fun e => e.2.fn == f && e.2.cq == c && e.2.done &&
    decide ((e.2.ringPos + (s.cq (qKey f c)).size - h) % (s.cq (qKey f c)).size < n))).map Prod.fst

/-- COMPLETION_DOORBELL (R69, R70, R80, R82, R93). A head that passes the tail leaves the ring's head undefined. -/
def State.cqDoorbell (s0 : State) (f c : Nat) (v : Word) : State :=
  let s := s0.bellArrives f
  let k := qKey f c
  let r := s.cq k
  let h := bits v.toNat 15 0
  if !s.qmRuns || r.state == .draining then s
  else if r.state == .absent || bits v.toNat 31 16 ≠ 0 || decide (r.size ≤ h) then s.dbError f c true
  else
    let held := (r.tail + r.size - r.head) % r.size
    let step := (h + r.size - r.head) % r.size
    if held < step then
      s.drawFree.2.setCq k { r with head := s.drawFree.1 % r.size }
    else
      let gone := s.consumed f c r.head step
      let s1 := forEach gone s (fun n s => s.setSlot n none)
      let idle := h == r.tail
      let back := r.state == .frozen && r.writeFrozen
      let left := (s1.slotList.filter (fun e => e.2.fn == f && e.2.cq == c && e.2.phase == .posted)).map Prod.fst
      let byPos := fun a b : Nat => match s1.slot a, s1.slot b with
        | some x, some y => decide ((x.ringPos + r.size - h) % r.size ≤ (y.ringPos + r.size - h) % r.size)
        | _, _ => true
      let r1 := { r with
        head := h, full := r.full && step == 0
        unsignalled := if idle then 0 else r.unsignalled
        oldestAt := if idle then none else r.oldestAt
        state := if back then .active else r.state
        writeFrozen := r.writeFrozen && !back
        repost := if back then insertionSort byPos left else r.repost.filter (fun n => !gone.contains n)
        repostAt := if back then s.now else r.repostAt }
      (s1.setCq k r1).slotsCheck

/-- The queue is fetched and arbitrated in this mode (Table 03-7). -/
def State.qServed (s : State) (q : Nat) : Bool :=
  match s.pwr.mode with
  | .service | .night | .limited => true
  | .provision | .update | .test => q == 0
  | _ => false

/-- The slot where a queue's next fetch begins: after its last cached entry. -/
def Sq.fetchPos (q : Sq) : Nat :=
  match q.cache.getLast? with
  | some e => (e.pos + e.slots) % q.size
  | none => q.head

/-- The slots that the head moves past with an entry whose header is faulty: one, or those to the end of the ring or to the
tail where its LENGTH carries it past the end (R68). -/
def Sq.faultSlots (q : Sq) (e : Cached) : Nat :=
  let len := fieldLe e.bytes 2 2
  if len = 0 ∨ 16 < len then 1 else if e.pos < q.tail then q.tail - e.pos else q.size - e.pos

/-- The entry that bytes spell at slot `p` (R64, R66, R68): none while it is not posted. The slots that a faulty entry takes
are told when it is accepted. -/
def Sq.parse (q : Sq) (p : Nat) (bytes : List Byte) (poisoned : Bool) : Option Cached :=
  let avail := (q.tail + q.size - p) % q.size
  let len := fieldLe bytes 2 2
  let pad := fieldLe bytes 0 1 == 0
  if avail = 0 then none
  else if len = 0 ∨ 16 < len then some ⟨p, 1, bytes.take 16, pad, true, poisoned⟩
  else if q.size < p + len then some ⟨p, 1, bytes.take 16, pad, true, poisoned⟩
  else if avail < len then none
  else some ⟨p, len, bytes.take (16 * len) ++ List.replicate (16 * len - bytes.length) 0, pad, false, poisoned⟩

/-- A submission fetch fails, with an AER error of a class (0 advisory, 1 non-fatal): the queue goes to ERROR and its cached
entries are dropped (R93). -/
def State.fetchFailed (s : State) (k cls : Nat) : State :=
  ((s.setSq k { s.sq k with state := .error, cache := [], retried := false }).emit (.aer cls)).raise 290

/-- A queue may be fetched: ACTIVE, served, room in its cache and the link up. -/
def State.mayFetch (s : State) (f q : Nat) : Bool :=
  let x := s.sq (qKey f q)
  x.state == .active && s.qServed q && s.qmRuns && s.qm.linkUp && decide (x.cache.length < 8)
    && x.cache.all (fun e => !e.fault)

/-- ENTRY_FETCHED: a read of the queue's next entry returns (R71, R93). -/
def State.fetched (s : State) (f q : Nat) (r : FetchResult) : State :=
  let k := qKey f q
  if !s.mayFetch f q then s
  else
    let put := fun (bytes : List Byte) (poisoned : Bool) (s : State) =>
      let x := s.sq k
      match x.parse x.fetchPos bytes poisoned with
      | some e => s.setSq k ({ x with cache := x.cache ++ [e], retried := false }).skipPads
      | none => s
    match r with
    | .failed => s.fetchFailed k 0
    | .data bytes => put bytes false s
    | .poisoned bytes => (put bytes true s).emit (.aer 1)

/-- FETCH_COMPLETION_TIMEOUT: retried once, then as Unsupported Request (R93). -/
def State.fetchTimeout (s : State) (f q : Nat) : State :=
  let k := qKey f q
  if !s.mayFetch f q then s
  else if (s.sq k).retried then s.fetchFailed k 1
  else (s.setSq k { s.sq k with retried := true }).emit (.aer 1)

/-- A completion that can no longer be written is logged as orphaned and settled (R85): type 4 of Table 15-13. -/
def State.orphan (s : State) (n : Nat) : State :=
  match s.slot n with
  | none => s
  | some x =>
    let payload := leBytes 2 x.sq ++ leBytes 2 x.seq.toNat ++ leBytes 4 x.cid.toNat
      ++ leBytes 1 x.completion.status.code ++ List.replicate 7 0 ++ leBytes 8 x.completion.dts.toNat
    let s1 := (s.setSlot n none).logRecord 4 x.fn payload
    let s2 := { s1 with
      qm.orphans := s1.qm.orphans + 1
      audit.orphaned := if x.done then s1.audit.orphaned else Table.upd 0 s1.audit.orphaned x.fn (· + 1) }
    ((s2.settleQueue (qKey x.fn x.sq)).releaseBarriers n (x.completion.status == Status.aborted)).slotsCheck

/-- Every ACTIVE queue of the functions that `f` accepts becomes FROZEN (R88, R90, R91). -/
def State.freezeQueues (s : State) (f : Nat → Bool) : State :=
  { s with qm := { s.qm with
    sqs := s.qm.sqs.map (fun e => if f (keyFn e.1) && e.2.state == .active then (e.1, { e.2 with state := .frozen }) else e)
    cqs := s.qm.cqs.map (fun e => if f (keyFn e.1) && e.2.state == .active then (e.1, { e.2 with state := .frozen }) else e) } }

/-- Frozen queues resume (R89): cached entries are dropped, queues are ACTIVE and fetch from their heads, and the
completions held or retained are posted again. -/
def State.resumeQueues (s : State) (f : Nat → Bool) : State :=
  let ret := fun (k : Nat) (c : Cq) =>
    (insertionSort (fun a b : Nat × Slot =>
        decide ((a.2.ringPos + c.size - c.head) % c.size ≤ (b.2.ringPos + c.size - c.head) % c.size))
      (s.slotList.filter (fun e => qKey e.2.fn e.2.cq == k && e.2.phase == .posted))).map Prod.fst
  { s with qm := { s.qm with
    sqs := s.qm.sqs.map (fun e => if f (keyFn e.1) && e.2.state == .frozen then
      (e.1, { e.2 with state := .active, cache := [], invalidate := false }) else e)
    cqs := s.qm.cqs.map (fun e => if f (keyFn e.1) && e.2.state == .frozen && !e.2.writeFrozen then
      (e.1, { e.2 with state := .active, repost := ret e.1 e.2, repostAt := s.now }) else e) } }

/-- SUBMISSION_DOORBELL: a queue beyond a virtual function's 1,023 is a reserved offset (R59). -/
def execSubmissionDoorbell (f : Fin 16) (q : Fin 4096) (v : Word) (s : State) : Host.Outcome State Fault Refusal :=
  .next (if f.val ≠ 0 ∧ 1024 ≤ q.val then s else s.sqDoorbell f.val q.val v)

/-- COMPLETION_DOORBELL. -/
def execCompletionDoorbell (f : Fin 16) (c : Fin 4096) (v : Word) (s : State) : Host.Outcome State Fault Refusal :=
  .next (if f.val ≠ 0 ∧ 1024 ≤ c.val then s else s.cqDoorbell f.val c.val v)

/-- ENTRY_FETCHED. -/
def execEntryFetched (f : Fin 16) (q : Fin 4096) (r : FetchResult) (s : State) : Host.Outcome State Fault Refusal :=
  .next (s.fetched f.val q.val r)

/-- FETCH_COMPLETION_TIMEOUT. -/
def execFetchCompletionTimeout (f : Fin 16) (q : Fin 4096) (s : State) : Host.Outcome State Fault Refusal :=
  .next (s.fetchTimeout f.val q.val)

/-- COMPLETION_REPOST. -/
def execCompletionRepost (f : Fin 16) (c : Fin 4096) (ok : Bool) (s : State) : Host.Outcome State Fault Refusal :=
  .next (if s.qmRuns then s.repost f.val c.val ok else s)

/-- AGG_TIME_EXPIRY. -/
def execAggTimeExpiry (f : Fin 16) (c : Fin 4096) (s : State) : Host.Outcome State Fault Refusal :=
  .next (if s.qmRuns then s.aggExpire f.val c.val else s)

/-- QMGR_DB_ERR_READ: the read returns the register and clears COUNT (R70, Table 03-10). -/
def execQmgrDbErrRead (s : State) : Host.Outcome State Fault Refusal :=
  .next <|
    if s.bar0 0x20030 then
      { s.setRd (s.qm.dbErr + 65536 * s.qm.dbErrFn + 2 ^ 20 * b2n s.qm.dbErrCq) with qm.dbErr := 0 }
    else s.setRd 0

end Sys2Proof.Machine
end

