-- ==== Sys2Proof/Machine/Channels.lean ====
section
/-!
DEFINITION. Machine/Channels.lean: channels, channel status words and the beginning and end of a CCW
(R247 to R268).
-/
namespace Sys2Proof.Machine

/-- A channel. -/
def State.chan (s : State) (c : Nat) : Channel := Table.get Channel.free s.lmp.chans c
/-- Replace a channel. -/
def State.setChan (s : State) (c : Nat) (x : Channel) : State :=
  { s with lmp.chans := Table.set Channel.free s.lmp.chans c x }

/-- The code of a CCW result (Table 09-16). -/
def CcwResult.code : CcwResult → Nat
  | .ok => 0 | .skipNext => 1 | .unitError => 2 | .lengthError => 3 | .programError => 4 | .accessError => 5
  | .poison => 6 | .unitLost => 7 | .stopped => 8

/-- The number of a program error code (Table 09-10). -/
def CcwCode.code : CcwCode → Nat
  | .none => 0 | .invalidOpcode => 1 | .invalidFlags => 2 | .invalidSubchannel => 3 | .protection => 4 | .ticTic => 5
  | .align => 6 | .address => 7 | .hostUnavailable => 8 | .routineFault => 9 | .routineTimeout => 10 | .range => 11

/-- The status of a START completion, by the final CSW (R265). -/
def endStatus (r : CcwResult) (code : CcwCode) : Status :=
  match r, code with
  | .stopped, _ => .aborted
  | .programError, .address => .busError
  | .poison, _ => .mediaError
  | .unitLost, _ => .deviceFault
  | .ok, _ | .skipNext, _ => .ok
  | _, _ => .dataError

/-- The SIGNALS byte of a CSW of a kind (Table 09-8). -/
def cswSignals (x : Channel) (kind : Nat) : Nat :=
  b2n (kind == 1) + 2 * b2n (x.st == .suspended) + 4 * b2n x.waitedFlag

/-- The 32 bytes of a channel status word (Table 09-8). -/
def cswBytes (x : Channel) (c kind : Nat) (detail : Byte) (dts : DWord) : List Byte :=
  leBytes 8 x.ccwAddr.toNat ++ leBytes 4 x.residual.toNat ++ leBytes 1 x.result.code ++ leBytes 1 (cswSignals x kind)
    ++ leBytes 1 x.code.code ++ [detail] ++ leBytes 2 x.cswSeq.toNat ++ leBytes 2 x.subch.toNat ++ leBytes 1 c
    ++ leBytes 1 kind ++ leBytes 2 0 ++ leBytes 8 dts.toNat

/-- Write a CSW to the channel's status ring, if one is set (R262). In CONTINUITY a ring in host space is not written
(R280). -/
def State.ringCsw (s : State) (c : Nat) (csw : List Byte) : State :=
  let x := s.chan c
  match x.ring with
  | none => s
  | some r =>
    if s.pwr.mode == .continuity && !isDevice r.address then s
    else
      let s1 := s.spaceWrite (r.address + BitVec.ofNat 64 (32 * r.pos)) csw
      let s2 := s1.setChan c { x with ring := some { r with pos := (r.pos + 1) % r.slots } }
      if r.vector = 0xFFFF then s2 else s2.emit (.msix x.fn r.vector)

/-- Post a channel status word: kind 0 END, 1 PROGRESS, 2 PAUSED, 3 JOB, 4 CONTINUITY, 5 MODE (R267, R288). -/
def State.postCsw (s : State) (c kind : Nat) (detail : Byte) : State :=
  let x := s.chan c
  let csw := cswBytes x c kind detail s.time.dts
  ((s.setChan c { x with csw := csw, cswSeq := x.cswSeq + 1 }).ringCsw c csw).raise (32 + c)

/-- Finish each of a list of command slots. -/
def State.finishAll (s : State) (l : List Nat) (st : Status) : State := forEach l s (fun n s => s.finish n st 0 0 none)

/-- Give a subchannel to the channel that has waited for it longest, which then carries out its CCW (R249): it is
ACTIVE, and its wait still names the subchannel. -/
def State.freeSubch (s : State) (u : Nat) : State :=
  match Table.get [] s.lmp.queues u with
  | [] => { s with lmp.busy := Table.set .none s.lmp.busy u .none }
  | c :: t =>
    let x := s.chan c
    { s.setChan c { x with st := .active, waitedFlag := true } with
      lmp.busy := Table.set .none s.lmp.busy u (some c), lmp.queues := Table.set [] s.lmp.queues u t }

/-- Free the subchannels that a channel holds, and leave every queue for one. -/
def State.freeSubchsOf (s : State) (c : Nat) : State :=
  let s1 := { s with lmp.queues := (s.lmp.queues.map (fun e => (e.1, e.2.filter (· != c)))).filter (fun e => !e.2.isEmpty) }
  forEach (s1.lmp.busy.filterMap (fun e => if e.2 == some c then some e.1 else none)) s1 (fun u s => s.freeSubch u)

/-- The program of a channel ends (R265, R267): the final CSW, the START completion, then the completions of HALT and
CLEAR; a CLEAR leaves the channel IDLE with the CSW cleared. A SUSPEND that never came to stop the channel completes
with BUSY. -/
def State.endProgram (s : State) (c : Nat) (r : CcwResult) (code : CcwCode) (detail : Byte) : State :=
  let x := s.chan c
  let x1 := { x with
    st := .ended, cur := .none, wait := .none, result := r, code := code, detail := detail, skip := false, ticked := false
    spanning := false, suspend := .none, byMode := false }
  let s1 := ((s.setChan c x1).freeSubchsOf c).postCsw c 0 detail
  let s2 := match x.startSlot with
    | some n => s1.finish n (endStatus r code)
        (x.cswSeq.toNat + 65536 * r.code + 2 ^ 24 * cswSignals x1 0) x1.residual.toNat none
    | none => s1
  let s3 := (s2.finishAll x.suspendSlots .busy).finishAll x.haltSlots .ok
  let y := s3.chan c
  s3.setChan c { y with
    startSlot := .none, suspendSlots := [], haltSlots := [], clearing := false
    st := if x.clearing then .idle else .ended, csw := if x.clearing then List.replicate 32 0 else y.csw }

/-- The OPCODE of a CCW. -/
def ccwOp (b : List Byte) : Nat := fieldLe b 0 1
/-- One of the FLAGS of a CCW: 0 NEXT, 1 SPAN, 2 DISCARD, 3 HOLD, 4 SHORT_OK, 5 PROGRESS, 6 LIST, 7 EXT. -/
def ccwFlag (b : List Byte) (i : Nat) : Bool := bit (fieldLe b 1 1) i
/-- The SUBCH field. -/
def ccwSubchField (b : List Byte) : Nat := fieldLe b 2 2
/-- The subchannel number. -/
def ccwSubch (b : List Byte) : Nat := bits (ccwSubchField b) 9 0
/-- ASYNC. -/
def ccwAsync (b : List Byte) : Bool := bit (ccwSubchField b) 10
/-- The length in 16-byte units that EXT gives. -/
def ccwExtLen (b : List Byte) : Nat := bits (ccwSubchField b) 15 12
/-- COUNT. -/
def ccwCount (b : List Byte) : Nat := fieldLe b 4 4
/-- ADDRESS, or the handle. -/
def ccwAddr (b : List Byte) : DWord := BitVec.ofNat 64 (fieldLe b 8 8)
/-- The length of a CCW in bytes (R251). -/
def ccwLen (b : List Byte) : Nat := if ccwFlag b 7 then 16 * ccwExtLen b else 16

/-- A channel stops in SUSPENDED, with a CSW of a kind, and its SUSPEND commands complete (R264, R279, R285). -/
def State.suspendNow (s : State) (c : Nat) (k : SuspendKind) : State :=
  let x := s.chan c
  let kind := match k with | .host => 2 | .continuity => 4 | .mode => 5
  let s1 := s.setChan c { x with st := .suspended, suspend := .none, suspendSlots := [], byMode := k == .mode }
  (s1.postCsw c kind x.detail).finishAll x.suspendSlots .ok

/-- A CCW that has begun ends with a result (R253, R268): `moved` bytes of the last CCW of its span were transferred.
The channel goes on under NEXT, suspends if that is asked, or its program ends. -/
def State.endCcw (s : State) (c : Nat) (r : CcwResult) (code : CcwCode) (detail : Byte) (moved : Nat) : State :=
  let x := s.chan c
  match x.cur with
  | none => s
  | some u =>
    let x1 := { x with
      cur := .none, wait := .none, result := r, code := code, detail := detail, spanning := false
      residual := BitVec.ofNat 32 (ccwCount u.bytes - moved) }
    let s1 := (s.setChan c x1).freeSubchsOf c
    let ends := match r with | .ok | .skipNext => !ccwFlag u.bytes 0 | _ => true
    if x.st = .halting then s1.endProgram c .stopped .none 0
    else if ends then s1.endProgram c r code detail
    else
      let y := s1.chan c
      let s2 := s1.setChan c { y with
        st := .active, skip := r == .skipNext, ccw := u.address + BitVec.ofNat 64 (ccwLen u.bytes) }
      match y.suspend with
      | some k => s2.suspendNow c k
      | none => s2

/-- A CCW that has begun ends with an error. -/
def State.failCcw (s : State) (c : Nat) (r : CcwResult) (code : CcwCode) (detail : Nat) : State :=
  s.endCcw c r code (BitVec.ofNat 8 detail) 0

/-- Set bits of a channel's event register; a WAIT_EVENT that they satisfy ends, and its matching bits clear (R255). -/
def State.setEvents (s : State) (c : Nat) (m : Word) : State :=
  let x := s.chan c
  if x.st == .free then s
  else
    let e := x.events ||| m
    match x.wait with
    | .event mask _ =>
      if e &&& mask = 0 then s.setChan c { x with events := e }
      else (s.setChan c { x with events := e &&& ~~~mask }).endCcw c .ok .none 0 0
    | _ => s.setChan c { x with events := e }

/-- The job of a unit CCW has ended with a status (R259). With ASYNC the outcome is counted and signalled, and a
failure posts a CSW of kind JOB. In RECOVERY a job that ended with ABORTED or DEVICE_FAULT is carried out again from
its start when RECOVERY ends (R285). -/
def State.chanJobDone (s : State) (c : Nat) (async : Bool) (st : Status) : State :=
  let x := s.chan c
  if x.st == .free then s
  else if async then
    let inc := fun w : BitVec 16 => BitVec.ofNat 16 (satInc 0xFFFF w.toNat)
    if st.good then (s.setChan c { x with jobsDone := inc x.jobsDone }).setEvents c (1 <<< 30)
    else
      ((s.setChan c { x with jobsFailed := inc x.jobsFailed }).setEvents c (1 <<< 29)).postCsw c 3
        (BitVec.ofNat 8 st.code)
  else
    match x.wait with
    | .job =>
      if s.pwr.mode == .recovery && (st == .aborted || st == .deviceFault) && x.st != .halting then
        s.setChan c { x with st := .active, cur := .none, wait := .none }
      else if st.good then s.endCcw c .ok .none 0 0
      else s.failCcw c .unitError .none st.code
    | _ => s

/-- A job ends with a status and result words: its command's completion, or its channel, learns of it. -/
def State.jobDone (s : State) (o : JobOrigin) (st : Status) (r0 r1 : Nat) (detail : Option Nat) : State :=
  match o with
  | .slot n => s.finish n st r0 r1 detail
  | .channel c async => s.chanJobDone c async st
  | .flip => s

/-- The first Lamplighter core that is in service and runs no customer routine. -/
def State.freeLamp (s : State) : Option Nat :=
  firstBelow 4 (fun k => s.lmp.cores.getLsbD k && (s.wick.cores[8 + k]?.bind WickCore.call).isNone)
/-- The Lamplighter core that interprets the next CCW. -/
def State.lampCore (s : State) : Nat := s.freeLamp.getD 0

/-- Channels run in this mode: SERVICE, NIGHT, LIMITED and CONTINUITY (Table 09-14), while a core can interpret CCWs
(R286). -/
def State.chansRun (s : State) : Bool := s.pwr.mode.media && !s.halted && !s.pwr.inWarmReset && s.freeLamp.isSome

/-- CCWs that have begun go on: the Lamplighter runs in every mode that has channels (Table 09-14). -/
def State.ccwsGoOn (s : State) : Bool := s.live && s.freeLamp.isSome

/-- A range of `n` bytes from an address may be read or written by a CCW: the code that refuses it otherwise. -/
def State.areaCheck (s : State) (a : DWord) (n : Nat) : Option CcwCode :=
  if isDevice a then
    if inDevice (spaceOff a) n && !inFirmware (spaceOff a) then none else some .address
  else if s.pwr.mode == .continuity then some .hostUnavailable
  else if 2 ^ 63 < spaceOff a + n then some .range
  else none

/-- The bytes a CCW fetch gives: of device space from memory, of host space as the read returned them. -/
def State.ccwBytes (s : State) (a : DWord) (w : List Byte) : List Byte :=
  if isDevice a then s.dev.bytes (spaceOff a) 80 else w

/-- What a CCW fetch ends with where it fails: its first 16 bytes, then all that its length adds (R251). -/
def State.fetchCheck (s : State) (a : DWord) (w : List Byte) : Option (CcwResult × CcwCode) :=
  if a.toNat % 16 ≠ 0 then some (.programError, .align)
  else
    let n := min 80 (max 16 (ccwLen (s.ccwBytes a w)))
    match (s.areaCheck a 16).or (s.areaCheck a n) with
    | some code => some (.programError, code)
    | none =>
      if isDevice a then if s.poisonIn (spaceOff a) n = [] then none else some (.poison, .none)
      else if w.isEmpty then some (.programError, .address) else none

/-- The lengths an opcode may have when EXT is 1, and whether EXT may be 0 (Table 09-3). -/
def ccwExtOk (op sub : Nat) (ext : Bool) (len : Nat) : Bool :=
  let none_ := !ext && len == 0
  match op with
  | 0x01 | 0x02 => none_ || (ext && len == 2)
  | 0x03 => (none_ && sub != 0x21) || (ext && len == 2)
  | 0x0D => ext && len == 2
  | 0x20 | 0x21 | 0x23 => ext && len == 3
  | 0x22 => ext && len == 4
  | _ => none_

/-- The opcodes of Table 09-3. -/
def ccwOpKnown (op : Nat) : Bool :=
  [0x01, 0x02, 0x03, 0x04, 0x05, 0x08, 0x09, 0x0A, 0x0B, 0x0C, 0x0D, 0x20, 0x21, 0x22, 0x23].contains op

/-- A unit opcode. -/
def ccwUnitOp (op : Nat) : Bool := decide (0x20 ≤ op) && decide (op ≤ 0x23)

/-- The program error of a CCW's opcode and flags, if any (R252, R253, R257). -/
def ccwFlagCheck (b : List Byte) : Option CcwCode :=
  let op := ccwOp b
  if !ccwOpKnown op then some .invalidOpcode
  else if !ccwExtOk op (ccwSubch b) (ccwFlag b 7) (ccwExtLen b) then some .invalidFlags
  else if ccwFlag b 1 && op != 0x01 && op != 0x02 then some .invalidFlags
  else if ccwFlag b 6 && ccwUnitOp op then some .invalidFlags
  else if ccwAsync b && !(ccwUnitOp op || (op == 0x03 && ccwSubch b == 0x21)) then some .invalidFlags
  else if bit (ccwSubchField b) 11 then some .range
  else none

/-- A CCW begins at an address with its bytes. -/
def State.enterCcw (s : State) (c : Nat) (b : List Byte) : State :=
  let x := s.chan c
  s.setChan c { x with
    cur := some ⟨x.ccw, b, b, [], []⟩, ccwAddr := x.ccw, subch := BitVec.ofNat 16 (ccwSubch b)
    core := s.lampCore, retriesUsed := 0, result := .ok, code := .none, detail := 0
    residual := BitVec.ofNat 32 (ccwCount b), waitedFlag := false }

/-- Fetch and begin the CCW of a channel (R250 to R253, R268). `mine` says which opcodes the event carries out. The
result is either the state in which the CCW has been dealt with already (an event that cannot occur, a passed-over CCW,
a hold, a program error), or the state with the CCW begun, and its bytes. A CCW that waited for a subchannel and has
been given it goes on here. -/
def State.beginCcw (s : State) (c : Nat) (w : List Byte) (mine : Nat → Bool) : Except State (State × List Byte) :=
  let x := s.chan c
  if x.st ≠ .active || !s.ccwsGoOn || (x.cur.isNone && !s.chansRun) then .error s
  else
    match x.cur, x.wait with
    | some u, .subchannel _ =>
      if mine (ccwOp u.bytes) && !x.spanning then .ok (s.setChan c { x with wait := .none, core := s.lampCore }, u.bytes)
      else .error s
    | some _, _ => .error s
    | none, _ =>
      let b := s.ccwBytes x.ccw w
      match s.fetchCheck x.ccw w with
      | some (r, code) => .error ((s.enterCcw c []).failCcw c r code 0)
      | none =>
        if x.skip then
          .error (s.setChan c { x with skip := false, ccw := x.ccw + BitVec.ofNat 64 (ccwLen b) })
        else if ccwFlag b 3 then .error (s.suspendNow c .host)
        else if !mine (ccwOp b) then .error s
        else
          let s1 := s.enterCcw c b
          match ccwFlagCheck b with
          | some code => .error (s1.failCcw c .programError code 0)
          | none =>
            let s2 := if ccwFlag b 5 then s1.postCsw c 1 0 else s1
            let y := s2.chan c
            .ok (s2.setChan c { y with ticked := false }, b)

/-- Carry out the CCW of a channel once it has begun. -/
def State.runCcw (s : State) (c : Nat) (w : List Byte) (mine : Nat → Bool) (f : State → List Byte → State) : State :=
  match s.beginCcw c w mine with
  | .error t => t
  | .ok (t, b) => f t b

/-! ### Basic CCWs -/

/-- NOP ends at once. A CCW whose opcode is not in Table 09-3 ends as a program error. -/
def State.ccwNop (s : State) (c : Nat) (w : List Byte) : State :=
  s.runCcw c w (fun op => op == 0x05 || !ccwOpKnown op) (fun t _ => t.endCcw c .ok .none 0 0)

/-- TIC: the next CCW from ADDRESS; a TIC whose target is a TIC is a program error (Table 09-10). -/
def State.ccwTic (s : State) (c : Nat) (w : List Byte) : State :=
  let before := (s.chan c).ticked
  s.runCcw c w (· == 0x08) (fun t b =>
    if before then t.failCcw c .programError .ticTic 0
    else if ccwSubch b ≠ 0 then t.failCcw c .programError .range 0
    else if (ccwAddr b).toNat % 16 ≠ 0 then t.failCcw c .programError .align 0
    else
      let x := t.chan c
      let t1 := t.setChan c { x with cur := .none, ccw := ccwAddr b, ticked := true }
      match x.suspend with
      | some k => t1.suspendNow c k
      | none => t1)

/-- TIME_GRP_CFG[g].EN: group A is always enabled (R45). -/
def State.groupEn (s : State) (g : Nat) : Bool := g == 0 || bit (s.regOr 10 (0x10050 + 4 * g)) 0

/-- WAIT_TICK (R254). -/
def State.ccwWaitTick (s : State) (c : Nat) (w : List Byte) : State :=
  s.runCcw c w (· == 0x09) (fun t b =>
    let g := ccwSubch b
    if 4 ≤ g ∨ ¬ t.groupEn g ∨ ccwCount b = 0 ∨ 65535 < ccwCount b then t.failCcw c .programError .range 0
    else t.setChan c { t.chan c with st := .waiting, wait := .ticks (Fin.ofNat 4 g) (ccwCount b) })

/-- A tick of a group occurs: WAIT_TICK counts it, and ends at the last (step 5 of R16, R254). -/
def State.releaseTick (s : State) (g : Fin 4) : State :=
  forEach (List.range 64) s (fun c s =>
    match (s.chan c).wait with
    | .ticks g' n =>
      if g' ≠ g then s
      else if n ≤ 1 then s.endCcw c .ok .none 0 0
      else s.setChan c { s.chan c with wait := .ticks g' (n - 1) }
    | _ => s)

/-- WAIT_EVENT (R255). -/
def State.ccwWaitEvent (s : State) (c : Nat) (w : List Byte) : State :=
  s.runCcw c w (· == 0x0A) (fun t b =>
    let mask : Word := BitVec.ofNat 32 (fieldLe b 8 4)
    let n := ccwCount b
    let x := t.chan c
    if fieldLe b 12 4 ≠ 0 ∨ ccwSubch b ≠ 0 then t.failCcw c .programError .range 0
    else if x.events &&& mask ≠ 0 then
      (t.setChan c { x with events := x.events &&& ~~~mask }).endCcw c .ok .none 0 0
    else if n = 0 then t.endCcw c .skipNext .none 0 0
    else
      let until_ := if n = 0xFFFFFFFF then none else some (t.time.run + microsecond * n)
      t.setChan c { x with st := .waiting, wait := .event mask until_ })

/-- WAIT_EVENT_TIMEOUT: the time-out runs out and the next CCW is passed over (R255). -/
def State.waitEventTimeout (s : State) (c : Nat) : State :=
  match (s.chan c).wait with
  | .event _ (some u) => (s.advanceToRun u).endCcw c .skipNext .none 0 0
  | _ => s

/-- SET_TIMER (R256). -/
def State.ccwSetTimer (s : State) (c : Nat) (w : List Byte) : State :=
  s.runCcw c w (· == 0x0B) (fun t b =>
    if ccwSubch b ≠ 0 then t.failCcw c .programError .range 0
    else
      let x := t.chan c
      let at_ := if ccwCount b = 0 then none else some (t.time.run + microsecond * ccwCount b)
      (t.setChan c { x with timer := at_, timerLeft := none }).endCcw c .ok .none 0 0)

/-- CHANNEL_TIMER_EXPIRY: TIMER is set (R256). -/
def State.timerExpire (s : State) (c : Nat) : State :=
  match (s.chan c).timer with
  | some u =>
    let s1 := s.advanceToRun u
    (s1.setChan c { s1.chan c with timer := .none }).setEvents c (1 <<< 31)
  | none => s

/-- POST sets event bits of a channel allocated to the same function (R256). -/
def State.ccwPost (s : State) (c : Nat) (w : List Byte) : State :=
  s.runCcw c w (· == 0x0C) (fun t b =>
    let d := ccwSubch b
    let y := t.chan d
    if 2 ^ 24 ≤ ccwCount b ∨ 64 ≤ d then t.failCcw c .programError .range 0
    else if y.st = .free ∨ y.fn ≠ (t.chan c).fn then t.failCcw c .accessError .protection 0
    else (t.endCcw c .ok .none 0 0).setEvents d (BitVec.ofNat 32 (ccwCount b)))

/-- CCW_NOP. -/
def execCcwNop (c : Fin 64) (w : List Byte) (s : State) : Host.Outcome State Fault Refusal := .next (s.ccwNop c.val w)
/-- CCW_TIC. -/
def execCcwTic (c : Fin 64) (w : List Byte) (s : State) : Host.Outcome State Fault Refusal := .next (s.ccwTic c.val w)
/-- CCW_WAIT_TICK. -/
def execCcwWaitTick (c : Fin 64) (w : List Byte) (s : State) : Host.Outcome State Fault Refusal :=
  .next (s.ccwWaitTick c.val w)
/-- CCW_WAIT_EVENT. -/
def execCcwWaitEvent (c : Fin 64) (w : List Byte) (s : State) : Host.Outcome State Fault Refusal :=
  .next (s.ccwWaitEvent c.val w)
/-- WAIT_EVENT_TIMEOUT. -/
def execWaitEventTimeout (c : Fin 64) (s : State) : Host.Outcome State Fault Refusal :=
  .next (if s.live then s.waitEventTimeout c.val else s)
/-- CCW_SET_TIMER. -/
def execCcwSetTimer (c : Fin 64) (w : List Byte) (s : State) : Host.Outcome State Fault Refusal :=
  .next (s.ccwSetTimer c.val w)
/-- CHANNEL_TIMER_EXPIRY. -/
def execChannelTimerExpiry (c : Fin 64) (s : State) : Host.Outcome State Fault Refusal :=
  .next (if s.live then s.timerExpire c.val else s)
/-- CCW_POST. -/
def execCcwPost (c : Fin 64) (w : List Byte) (s : State) : Host.Outcome State Fault Refusal :=
  .next (s.ccwPost c.val w)

end Sys2Proof.Machine
end

