-- ==== Sys2Proof/Machine/Traffic.lean ====
section
/-!
DEFINITION. Machine/Traffic.lean: the traffic unit: buckets, shapers and the timing wheel, meters, gate lists,
histograms and the traffic tables (R359 to R380).
-/
namespace Sys2Proof.Machine

/-- The elapsed 8 ns ticks of REFCLK_SYS (R361). -/
def State.trfTick (s : State) : Nat := s.time.osc / 128

/-! ### Buckets (R360) -/

/-- Token units of one byte. -/
def byteUnits : Nat := 1000000000

/-- Credit `n` units; what would exceed `size` bytes is discarded. -/
def Bucket.credit (b : Bucket) (n size : Nat) : Bucket :=
  let excess := (b.tokens + n - (size * byteUnits : Nat)).toNat
  { b with tokens := b.tokens + n - excess, credited := b.credited + n, discarded := b.discarded + excess }

/-- Debit `n` units. -/
def Bucket.debit (b : Bucket) (n : Nat) : Bucket := { b with tokens := b.tokens - n, debited := b.debited + n }

/-- Bring the tokens to `size` bytes, as a credit or a discard. -/
def Bucket.fill (b : Bucket) (size : Nat) : Bucket :=
  let want : Int := (size * byteUnits : Nat)
  { b with
    tokens := want
    credited := b.credited + (want - b.tokens).toNat
    discarded := b.discarded + (b.tokens - want).toNat }

/-- The length a shaper or meter counts (R359). -/
def modeLength (lenMode : Bool) (ovh : Int) (bytes : Nat) : Nat := if lenMode then (bytes + ovh).toNat else bytes

/-! ### Shapers -/

/-- A shaper, by its key: 0 to 16,383 flow, 16,384 + q queue, 16,520 + p port. -/
def State.shaper (s : State) (k : Nat) : Shaper := Table.get Shaper.reset s.trf.shapers k
/-- Replace a shaper. -/
def State.setShaper (s : State) (k : Nat) (x : Shaper) : State :=
  { s with trf.shapers := Table.set Shaper.reset s.trf.shapers k x }
/-- The key of the shaper of a queue of ports 0 to 16. -/
def queueShaper (q : Nat) : Nat := 16384 + q
/-- The key of the shaper of a port 0 to 16. -/
def portShaper (p : Nat) : Nat := 16520 + p

/-- Refill a shaper at a tick: the ticks since its last refill are credited at the rate in force since then (R361,
R362). A disabled shaper holds its tokens at BURST (R363). -/
def Shaper.refill (x : Shaper) (tick : Nat) : Shaper :=
  if x.en then
    { x with bucket := x.bucket.credit ((tick - x.last) * x.rateNow) x.burst, last := tick, rateNow := x.rate }
  else { x with bucket := x.bucket.fill x.burst, last := tick, rateNow := x.rate }

/-- Refill the shaper of a key, where it is enabled. -/
def State.refillShaper (s : State) (k : Nat) : State :=
  if (s.shaper k).en then s.setShaper k ((s.shaper k).refill s.trfTick) else s

/-- A shaper is on the wheel. -/
def State.onWheel (s : State) (k : Nat) : Bool := s.trf.wheel.any (fun e => e.1 == k)

/-- A shaper lets a frame or copy go (R363, R364). -/
def State.shaperPasses (s : State) (k : Nat) : Bool :=
  !(s.shaper k).en || (decide (0 ≤ (s.shaper k).bucket.tokens) && !s.onWheel k)

/-- Enter a shaper that is below zero into the wheel, unless it has an entry (R365). The pointer P is the elapsed tick. -/
def State.enterWheel (s : State) (k : Nat) : State :=
  let x := s.shaper k
  if x.en ∧ x.bucket.tokens < 0 ∧ !s.onWheel k then
    let d := min (max 1 (ceilDiv (-x.bucket.tokens).toNat (max 1 x.rate))) 125000000
    { s with trf.wheel := s.trf.wheel ++ [(k, s.trfTick + d)] }
  else s

/-- Refill a shaper and debit it by the length of what it sent (R361, R364). -/
def State.debitShaper (s : State) (k bytes : Nat) : State :=
  let x := s.shaper k
  if x.en then
    let y := x.refill s.trfTick
    (s.setShaper k { y with
      bucket := y.bucket.debit (modeLength x.lenMode x.ovh bytes * byteUnits) }).enterWheel k
  else s

/-- The wheel entries due at or before a tick. -/
def State.wheelDue (s : State) (t : Nat) : List (Nat × Nat) := s.trf.wheel.filter (fun e => decide (e.2 ≤ t))

/-- The tick that the next slot of the wheel to serve belongs to: the earliest due entry's, else the next tick. -/
def State.wheelNext (s : State) : Nat :=
  (s.wheelDue s.trfTick).foldl (fun t e => min t e.2) (max (s.trf.wheelPos + 1) s.trfTick)

/-- The wheel serves the slot of tick `t`: its shapers, in ascending number, are refilled, and one still below zero is
entered again (R365). A slot served more than 1 µs late sends WHEEL_LATE. -/
def State.wheelServe (s : State) (t : Nat) : State :=
  let l := insertionSort (fun a b => decide (a ≤ b)) ((s.wheelDue t).map Prod.fst)
  let s1 := { s with trf := { s.trf with wheelPos := t, wheel := s.trf.wheel.filter (fun e => !decide (e.2 ≤ t)) } }
  let s2 := forEach l s1 (fun k s => (s.refillShaper k).enterWheel k)
  if !l.isEmpty ∧ t + 125 < s.trfTick then s2.fault 0x030 2 0 else s2

/-! ### Meters -/

/-- A meter, by its key: 0 to 16,383 flow, 16,384 + n tenant. -/
def State.meter (s : State) (k : Nat) : Meter := Table.get Meter.reset s.trf.meters k
/-- Replace a meter. -/
def State.setMeter (s : State) (k : Nat) (x : Meter) : State :=
  { s with trf.meters := Table.set Meter.reset s.trf.meters k x }

/-- Refill a meter at a tick (R361, R362, R366). -/
def Meter.refill (m : Meter) (tick : Nat) : Meter :=
  let e := tick - m.last
  if m.trtcm then
    { m with
      tc := m.tc.credit (e * m.cirNow) m.cbs, te := m.te.credit (e * m.pirNow) m.ebs
      last := tick, cirNow := m.cir, pirNow := m.pir }
  else
    let tc := m.tc.credit (e * m.cirNow) m.cbs
    { m with
      tc := tc, te := m.te.credit (tc.discarded - m.tc.discarded) m.ebs
      last := tick, cirNow := m.cir, pirNow := m.pir }

/-- The colour a refilled meter gives a frame of `bytes` that enters as `c`, and the debits that go with it (R366). -/
def Meter.mark (m : Meter) (c : Colour) (bytes : Nat) : Colour × Meter :=
  let b := modeLength m.lenMode m.ovh bytes * byteUnits
  if m.trtcm then
    if c = .red ∨ m.te.tokens < (b : Int) then (.red, m)
    else if c = .yellow ∨ m.tc.tokens < (b : Int) then (.yellow, { m with te := m.te.debit b })
    else (.green, { m with te := m.te.debit b, tc := m.tc.debit b })
  else if c = .green ∧ (b : Int) ≤ m.tc.tokens then (.green, { m with tc := m.tc.debit b })
  else if c ≠ .red ∧ (b : Int) ≤ m.te.tokens then (.yellow, { m with te := m.te.debit b })
  else (.red, m)

/-- Count a frame under the colour it leaves a meter with. -/
def Meter.count (m : Meter) (c : Colour) : Meter :=
  let inc := fun w : Word => BitVec.ofNat 32 (satInc 0xFFFFFFFF w.toNat)
  match c with
  | .green => { m with green := inc m.green }
  | .yellow => { m with yellow := inc m.yellow }
  | .red => { m with red := inc m.red }

/-- A frame of `bytes` entering as `c` meets an enabled meter: the colour it leaves with after the action of Table
12-2, none where it is dropped, and the traffic class that SET_YTC orders. -/
def State.meterFrame (s : State) (k : Nat) (c : Colour) (bytes : Nat) : Option (Colour × Option Nat) × State :=
  let (d, m) := ((s.meter k).refill s.trfTick).mark c bytes
  let out := if d = .red ∧ m.redPass then .yellow else d
  let s1 := s.setMeter k (m.count out)
  let s2 := if d = .red ∧ 16384 ≤ k then s1.raise 210 else s1
  if out = .red then
    (none, { s2 with trf.redDrop := BitVec.ofNat 32 (satInc 0xFFFFFFFF s2.trf.redDrop.toNat) })
  else (some (out, if out = .yellow ∧ m.setYtc then some m.ytc else none), s2)

/-- A received frame meets its flow meter and then the tenant meter that it names (R357, R367). A meter that is not
enabled colours nothing. -/
def State.flowMeter (s : State) (k bytes : Nat) : Option (Colour × Option Nat) × State :=
  if !(s.meter k).en then (some (.green, none), s)
  else
    match s.meterFrame k .green bytes with
    | (none, t) => (none, t)
    | (some (c, tc), t) =>
      let n := (s.meter k).tm
      if n < 64 ∧ (t.meter (16384 + n)).en then t.meterFrame (16384 + n) c bytes else (some (c, tc), t)

/-- A send-queue frame meets the tenant meter of its function, as green (R357). -/
def State.tenantMeter (s : State) (fn bytes : Nat) : Option (Colour × Option Nat) × State :=
  let n := bits (s.regOr 0x7F (0xC0100 + 4 * fn)) 6 0
  if n < 64 ∧ (s.meter (16384 + n)).en then s.meterFrame (16384 + n) .green bytes else (some (.green, none), s)

/-- Refill every bucket (R361: the sweep). -/
def State.sweep (s : State) : State :=
  let t := s.trfTick
  { s with trf := { s.trf with
    shapers := s.trf.shapers.map (fun e => (e.1, e.2.refill t))
    meters := s.trf.meters.map (fun e => (e.1, if e.2.en then e.2.refill t else e.2))
    sweepLast := t } }

/-! ### Time gates -/

/-- The gates of a port. -/
def State.portGates (s : State) (p : Nat) : PortGates := Table.get PortGates.reset s.trf.gates p
/-- Replace the gates of a port. -/
def State.setGates (s : State) (p : Nat) (x : PortGates) : State :=
  { s with trf.gates := Table.set PortGates.reset s.trf.gates p x }

/-- The DTS units of a list's cycle. -/
def GateList.units (l : GateList) : Nat := l.cycle * 16

/-- The entries from `i` on as durations in DTS units and gates, filling what is `left` of the cycle: entry i begins at
the sum of the intervals before it (R369). -/
def GateList.spansFrom (l : GateList) (left i : Nat) : Nat → List (Nat × BitVec 8)
  | 0 => []
  | n + 1 =>
    let (iv, g) := Table.get (0, 0) l.entries i
    if left = 0 then []
    else if n = 0 then [(left, g)]
    else (min left (iv * 16), g) :: l.spansFrom (left - iv * 16) (i + 1) n

/-- The entries of one cycle. -/
def GateList.spans (l : GateList) : List (Nat × BitVec 8) := l.spansFrom l.units 0 l.count

/-- A list that governs its port: enabled, with entries and a cycle. -/
def GateList.governs (l : GateList) : Bool := l.en && decide (0 < l.count) && decide (0 < l.cycle)

/-- The offset into the cycle at a full device time (R369). -/
def GateList.offset (l : GateList) (t : Int) : Nat := ((t - l.base.toNat) % (l.units : Nat)).toNat

/-- The entry at an offset, its gates, what is left of it, and the entries after it. -/
def spanAt : List (Nat × BitVec 8) → Nat → Nat → Nat × BitVec 8 × Nat × List (Nat × BitVec 8)
  | [], _, i => (i, 0xFF, 0, [])
  | (d, g) :: t, o, i => if o < d then (i, g, d - o, t) else spanAt t (o - d) (i + 1)

/-- The entry in force at a full device time. -/
def GateList.entryAt (l : GateList) (t : Int) : Nat × BitVec 8 × Nat × List (Nat × BitVec 8) :=
  spanAt l.spans (l.offset t) 0

/-- The first cycle boundary of a list after an instant (R370). -/
def GateList.boundary (l : GateList) (t : Int) : Int := t + ((l.units - l.offset t : Nat) : Int)

/-- A gate event takes effect at the first 8 ns tick at or after its instant (R369): the gates at a time are those of
the last tick at or before it. -/
def gateTick (t : Int) : Int := t / 128 * 128

/-- The list in force on a port: a staged list takes over at its boundary (R370). -/
def State.gateList (s : State) (p : Nat) : GateList :=
  let x := s.portGates p
  match x.pending with
  | some (l, b) => if b ≤ gateTick s.fullTime then l else x.force
  | none => x.force

/-- The open gates of a port now (R369, R377). -/
def State.openGates (s : State) (p : Nat) : BitVec 8 :=
  let l := s.gateList p
  if l.governs && !(s.portGates p).struck then (l.entryAt (gateTick s.fullTime)).2.1 else 0xFF

/-- The sum of the leading spans that keep gate `tc` open; none where all of them do. -/
def openRun (tc : Nat) : List (Nat × BitVec 8) → Option Nat
  | [] => none
  | (d, g) :: t => if g.getLsbD tc then (openRun tc t).map (d + ·) else some 0

/-- How long the gate of a class stays open from now, in DTS units: none for ever (R372). -/
def State.openFor (s : State) (p tc : Nat) : Option Nat :=
  let l := s.gateList p
  if l.governs && !(s.portGates p).struck then
    let (_, g, left, rest) := l.entryAt (gateTick s.fullTime)
    openRun tc ((left - (s.fullTime % 128).toNat, g) :: rest ++ l.spans)
  else none

/-- The longest of the runs of spans that keep a gate open. -/
def longestRun (tc : Nat) : List (Nat × BitVec 8) → Nat → Nat
  | [], run => run
  | (d, g) :: t, run => if g.getLsbD tc then longestRun tc t (run + d) else max run (longestRun tc t 0)

/-- The longest continuous open time of a gate in the list in force: none for ever (R372). -/
def State.openLongest (s : State) (p tc : Nat) : Option Nat :=
  let l := s.gateList p
  if !l.governs || (s.portGates p).struck || l.spans.all (fun e => e.2.getLsbD tc) then none
  else some (longestRun tc (l.spans ++ l.spans) 0)

/-- A staged list is to take over from the list in force at its first boundary after now, or at once where no list is
in force (R370). -/
def State.armGates (s : State) (p : Nat) (l : GateList) : State :=
  let x := { s.portGates p with force := s.gateList p, pending := .none, list := l, struck := false }
  if x.force.governs then s.setGates p { x with pending := some (l, x.force.boundary s.fullTime) }
  else (s.setGates p { x with force := l }).raise 208

/-- The staged list takes over if its boundary has come; the entry in force is noted. -/
def State.settleGates (s : State) (p : Nat) : State :=
  let x := s.portGates p
  let l := s.gateList p
  let excess := match x.pending with
    | some (_, b) => decide (b ≤ gateTick s.fullTime)
    | none => false
  let e := if l.governs then (l.entryAt (gateTick s.fullTime)).1 else 0
  if excess then (s.setGates p { x with force := l, pending := .none, entry := e }).raise 208
  else s.setGates p { x with entry := e }

/-- The tick at or after an instant. -/
def tickAfter (t : Int) : Int := (t + 127) / 128 * 128

/-- GATE_ENTRY_CHANGE: the list of a port moves to its next entry, or a staged list takes over (R369, R370). An event
whose instant has passed takes effect now. -/
def State.gateChange (s : State) (p : Nat) : State :=
  let x := s.portGates p
  let l := s.gateList p
  let now := gateTick s.fullTime
  let due := match x.pending with
    | some (_, b) => decide (b ≤ now)
    | none => false
  if due || (l.governs && (l.entryAt now).1 != x.entry) then s.settleGates p
  else if l.governs then
    let next := now + ((l.entryAt now).2.2.1 : Nat)
    let t := match x.pending with
      | some (_, b) => min next b
      | none => next
    (s.advanceToDts (tickAfter t)).settleGates p
  else s

/-- A step of DTS: the lists go on at the offset of the new timeline; a staged list waits for the first boundary on it
(R373). -/
def State.gatesStepped (s : State) : State :=
  { s with trf.gates := s.trf.gates.map (fun e =>
    match e.2.pending with
    | some (l, _) => (e.1, { e.2 with pending := some (l, e.2.force.boundary s.fullTime) })
    | none => e) }

/-! ### Histograms -/

/-- A histogram: queue q's depth at 2q, its delay at 2q + 1. -/
def State.hist (s : State) (k : Nat) : Hist := Table.get Hist.empty s.trf.hists k

/-- The bin of a value for a base 2^n (R374). -/
def histBin (n v : Nat) : Nat :=
  if v < 2 ^ n then 0 else (List.range 15).foldl (fun b k => if 2 ^ n * 2 ^ k ≤ v then k + 1 else b) 0

/-- Add one sample to a histogram. -/
def Hist.add (h : Hist) (n v : Nat) (dts : DWord) : Hist :=
  { h with
    bins := Table.upd 0 h.bins (histBin n v) (satInc 0xFFFFFFFF)
    max := Nat.max h.max v
    maxDts := if h.samples = 0 ∨ h.max < v then dts else h.maxDts
    samples := satInc 0xFFFFFFFF h.samples }

/-! ### Tables (R376) -/

/-- A signed byte as a number. -/
def signedByte (n : Nat) : Int := if n < 128 then n else (n : Int) - 256

/-- The bytes of a list from `lo` to below `hi` are zero. -/
def zeroBytes (bs : List Byte) (lo hi : Nat) : Bool := ((bs.drop lo).take (hi - lo)).all (· == 0)

/-- The first failing test of a list. -/
def firstFail : List (Bool × StageCode) → Option StageCode
  | [] => none
  | (bad, c) :: t => if bad then some c else firstFail t

/-- The entries a table has, and the bytes of an entry: flow, queue and port shapers, flow and tenant meters, gate
headers, gate entries. -/
def trfTable (table : Nat) : Nat × Nat :=
  match table with
  | 0 => (16384, 32) | 1 => (224, 32) | 2 => (28, 32) | 3 => (16384, 64) | 4 => (64, 64) | 5 => (28, 16)
  | 6 => (4352, 8) | _ => (0, 0)

/-- A rate that is legal. -/
def rateOk (n : Nat) : Bool := decide (1000 ≤ n) && decide (n ≤ 400000000000)
/-- An overhead byte that is legal. -/
def ovhOk (n : Nat) : Bool := decide (-32 ≤ signedByte n) && decide (signedByte n ≤ 63)

/-- The fields of a shaper entry, lowest byte first (Table 12-3). The rate and size of an entry that is not enabled are
not checked. `absent` says that the entry belongs to a queue or port without shapers. -/
def shaperCheck (b : List Byte) (absent : Bool) : Option StageCode :=
  let en := bit (fieldLe b 12 1) 0
  firstFail [(en && !rateOk (fieldLe b 0 8), .range),
    (en && !(decide (64 ≤ fieldLe b 8 4) && decide (fieldLe b 8 4 ≤ 16777215)), .range),
    (en && absent, .range), (fieldLe b 12 1 / 4 != 0, .range), (!ovhOk (fieldLe b 13 1), .range),
    (!zeroBytes b 14 16, .range), (!zeroBytes b 24 32, .range)]

/-- The fields of a meter entry (Table 12-4). `tenant` is the EN bit of each tenant meter. -/
def meterCheck (b : List Byte) (flow : Bool) (tenant : Nat → Bool) : Option StageCode :=
  let flags := fieldLe b 24 1
  let en := bit flags 0
  let tr := bit flags 1
  let cir := fieldLe b 0 8
  let pir := fieldLe b 8 8
  let tm := fieldLe b 27 1
  firstFail [(en && !rateOk cir, .range),
    (en && (if tr then pir < cir || 400000000000 < pir else pir != 0), .range),
    (en && !(decide (64 ≤ fieldLe b 16 4) && decide (fieldLe b 16 4 ≤ 16777215)), .range),
    (en && (16777215 < fieldLe b 20 4 || (tr && fieldLe b 20 4 < 64)), .range),
    (flags / 32 != 0, .range), (!ovhOk (fieldLe b 25 1), .range), (7 < fieldLe b 26 1, .range),
    (en && (if flow then 63 < tm && tm != 0x7F else tm != 0x7F), .range),
    (en && flow && tm < 64 && !tenant tm, .reference), (!zeroBytes b 28 32, .range), (!zeroBytes b 44 64, .range)]

/-- The fields of a gate list header (Table 12-5). -/
def gateHeaderCheck (b : List Byte) (absent : Bool) : Option StageCode :=
  let en := bit (fieldLe b 14 1) 0
  let cycle := fieldLe b 8 4
  firstFail [(en && (cycle < 1000 || 1000000000 < cycle || cycle % 8 != 0), .range),
    (en && (fieldLe b 12 2 < 1 || 256 < fieldLe b 12 2), .range), (en && absent, .range),
    (fieldLe b 14 1 / 2 != 0, .range), (!zeroBytes b 15 16, .range)]

/-- The fields of a gate list entry (Table 12-6). -/
def gateEntryCheck (b : List Byte) : Option StageCode :=
  let iv := fieldLe b 0 4
  firstFail [(iv < 8 || 1000000000 < iv || iv % 8 != 0, .range), (!zeroBytes b 5 8, .range)]

/-- The fields of an entry of a traffic table. -/
def trfCheck (table index : Nat) (b : List Byte) (tenant : Nat → Bool) : Option StageCode :=
  match table with
  | 0 => shaperCheck b false
  | 1 => shaperCheck b (decide (135 < index))
  | 2 => shaperCheck b (decide (16 < index))
  | 3 => meterCheck b true tenant
  | 4 => meterCheck b false tenant
  | 5 => gateHeaderCheck b (decide (16 < index))
  | 6 => gateEntryCheck b
  | _ => some .range

/-- The key of an entry of a shaper or meter table. -/
def trfKey (table index : Nat) : Nat :=
  match table with
  | 1 => queueShaper index
  | 2 => portShaper index
  | 4 => 16384 + index
  | _ => index

/-- Write a shaper: a new rate counts from its first refill (R362); one that becomes enabled holds BURST (R363). -/
def State.putShaper (s : State) (k : Nat) (b : List Byte) : State :=
  let x := s.shaper k
  let en := bit (fieldLe b 12 1) 0
  let y := { x with
    rate := fieldLe b 0 8, burst := fieldLe b 8 4, en := en, lenMode := bit (fieldLe b 12 1) 1
    ovh := signedByte (fieldLe b 13 1) }
  s.setShaper k (if en && !x.en then
    { y with bucket := x.bucket.fill y.burst, last := s.trfTick, rateNow := y.rate } else y)

/-- Write a meter: one that becomes enabled starts with full buckets (R366). -/
def State.putMeter (s : State) (k : Nat) (b : List Byte) : State :=
  let x := s.meter k
  let flags := fieldLe b 24 1
  let y := { x with
    cir := fieldLe b 0 8, pir := fieldLe b 8 8, cbs := fieldLe b 16 4, ebs := fieldLe b 20 4, en := bit flags 0
    trtcm := bit flags 1, lenMode := bit flags 2, redPass := bit flags 3, setYtc := bit flags 4
    ovh := signedByte (fieldLe b 25 1), ytc := fieldLe b 26 1, tm := fieldLe b 27 1 }
  s.setMeter k (if y.en && !x.en then
    { y with tc := x.tc.fill y.cbs, te := x.te.fill y.ebs, last := s.trfTick, cirNow := y.cir, pirNow := y.pir } else y)

/-- A gate header over the entries of a list. -/
def GateList.withHeader (l : GateList) (b : List Byte) : GateList :=
  { l with
    base := BitVec.ofNat 64 (fieldLe b 0 8), cycle := fieldLe b 8 4, count := fieldLe b 12 2
    en := bit (fieldLe b 14 1) 0 }

/-- A gate entry of a list. -/
def GateList.withEntry (l : GateList) (i : Nat) (b : List Byte) : GateList :=
  { l with entries := Table.set (0, 0) l.entries i (fieldLe b 0 4, BitVec.ofNat 8 (fieldLe b 4 1)) }

/-- Write a gate list that is not enabled, unstaged: an enabled list with none in force governs at once. -/
def State.putGates (s : State) (p : Nat) (l : GateList) : State :=
  s.setGates p { s.portGates p with list := l, force := l, pending := .none, struck := false }

/-- A write of a legal traffic entry takes effect on the live table, unstaged. -/
def State.putTrf (s : State) (table index : Nat) (b : List Byte) : State :=
  match table with
  | 1 => if index < 136 then s.putShaper (trfKey 1 index) b else s
  | 2 => if index < 17 then s.putShaper (trfKey 2 index) b else s
  | 3 => s.putMeter (trfKey 3 index) b
  | 4 => s.putMeter (trfKey 4 index) b
  | 5 => if index < 17 then s.putGates index ((s.portGates index).list.withHeader b) else s
  | 6 => s.putGates (index / 256) ((s.portGates (index / 256)).list.withEntry (index % 256) b)
  | _ => s.putShaper (trfKey 0 index) b

/-- The bytes of a shaper entry. -/
def Shaper.bytes (x : Shaper) : List Byte :=
  leBytes 8 x.rate ++ leBytes 4 x.burst ++ leBytes 1 (b2n x.en + 2 * b2n x.lenMode) ++ leBytes 1 (x.ovh % 256).toNat
    ++ leBytes 2 0 ++ leBytes 8 (x.bucket.tokens % (2 ^ 64 : Nat)).toNat ++ leBytes 8 0

/-- The bytes of a meter entry. -/
def Meter.bytes (x : Meter) : List Byte :=
  leBytes 8 x.cir ++ leBytes 8 x.pir ++ leBytes 4 x.cbs ++ leBytes 4 x.ebs
    ++ leBytes 1 (b2n x.en + 2 * b2n x.trtcm + 4 * b2n x.lenMode + 8 * b2n x.redPass + 16 * b2n x.setYtc)
    ++ leBytes 1 (x.ovh % 256).toNat ++ leBytes 1 x.ytc ++ leBytes 1 x.tm ++ leBytes 4 0 ++ leBytes 4 x.green.toNat
    ++ leBytes 4 x.yellow.toNat ++ leBytes 4 x.red.toNat ++ leBytes 20 0

/-- The bytes of a gate list header. -/
def GateList.headerBytes (l : GateList) : List Byte :=
  leBytes 8 l.base.toNat ++ leBytes 4 l.cycle ++ leBytes 2 l.count ++ leBytes 1 (b2n l.en) ++ leBytes 1 0

/-- The bytes of a gate list entry. -/
def GateList.entryBytes (l : GateList) (i : Nat) : List Byte :=
  leBytes 4 (Table.get (0, 0) l.entries i).1 ++ leBytes 1 (Table.get (0, 0) l.entries i).2.toNat ++ leBytes 3 0

/-- The live entry of a traffic table, as it stands at the tick. -/
def State.trfEntry (s : State) (table index : Nat) : List Byte :=
  match table with
  | 3 => (s.meter (trfKey 3 index)).bytes
  | 4 => (s.meter (trfKey 4 index)).bytes
  | 5 => (s.portGates index).list.headerBytes
  | 6 => (s.portGates (index / 256)).list.entryBytes (index % 256)
  | _ => if (table = 1 ∧ 135 < index) ∨ (table = 2 ∧ 16 < index) then Shaper.reset.bytes
    else ((s.shaper (trfKey table index)).refill s.trfTick).bytes

/-! ### Unit reset -/

/-- A reset of the traffic unit in RECOVERY: every bucket starts full, the wheel is cleared and the totals restart
(Table 12-7). -/
def State.trfUnitReset (s : State) : State :=
  let t := s.trfTick
  { s with trf := { s.trf with
    wheel := []
    shapers := s.trf.shapers.map (fun e =>
      (e.1, { e.2 with bucket := Bucket.start (e.2.burst * byteUnits), last := t, rateNow := e.2.rate }))
    meters := s.trf.meters.map (fun e =>
      (e.1, { e.2 with
        tc := Bucket.start (e.2.cbs * byteUnits)
        te := Bucket.start (e.2.ebs * byteUnits)
        last := t
        cirNow := e.2.cir
        pirNow := e.2.pir })) } }

/-- The instance of law 4 that the bucket of a shaper is. -/
def shaperLedger (k : Nat) : List (Nat × Nat) := [(4, k)]
/-- The instances of law 4 that the two buckets of a meter are. -/
def meterLedger (m : Nat) : List (Nat × Nat) := [(4, 65536 + 2 * m), (4, 65537 + 2 * m)]

/-- Ledgers are struck by an uncorrectable error: the next audit reports them (R395). -/
def State.strikeLedgers (s : State) (l : List (Nat × Nat)) : State :=
  { s with audit := { s.audit with struck := s.audit.struck ++ l } }

/-- An uncorrectable error in a shaper, meter or gate entry: a hit bucket is set to 0 tokens and its totals restart, which
the audit reports as a ledger struck; a hit gate entry leaves every gate of its list open until the list is rewritten
(R377). -/
def State.trfStruck (s : State) (table index : Nat) : State :=
  let z : Bucket := Bucket.start 0
  let k := trfKey table index
  if (trfTable table).1 ≤ index then s
  else if table = 5 ∨ table = 6 then
    let p := if table = 5 then index else index / 256
    if p < 17 then s.setGates p { (s.portGates p) with struck := true } else s
  else if table = 3 ∨ table = 4 then
    (s.setMeter k { (s.meter k) with tc := z, te := z }).strikeLedgers (meterLedger k)
  else if (table = 1 ∧ 135 < index) ∨ (table = 2 ∧ 16 < index) then s
  else (s.setShaper k { (s.shaper k) with bucket := z }).strikeLedgers (shaperLedger k)

/-! ### Rows -/

/-- BUCKET_SWEEP. -/
def execBucketSweep (s : State) : Host.Outcome State Fault Refusal := .next (if s.live then s.sweep else s)

/-- GATE_ENTRY_CHANGE. In STANDBY only the management port's list runs (Table 12-7). -/
def execGateEntryChange (p : Fin 17) (s : State) : Host.Outcome State Fault Refusal :=
  .next (if s.live && (s.pwr.mode != .standby || p.val == 16) then s.gateChange p.val else s)

/-- TRF_GATE_DROP_READ: the read returns and clears the count (R379). -/
def execTrfGateDropRead (p : Fin 17) (s : State) : Host.Outcome State Fault Refusal :=
  .next <|
    if s.bar0 (0xC0204 + 16 * p.val) then
      { s with rd := (Table.get 0 s.trf.gateDrop p.val).zeroExtend 64, trf.gateDrop := Table.set 0 s.trf.gateDrop p.val 0 }
    else s.setRd 0

/-- TRF_RED_DROP_READ: the read returns and clears the count (R379). -/
def execTrfRedDropRead (s : State) : Host.Outcome State Fault Refusal :=
  .next <|
    if s.bar0 0xC0500 then { s with rd := s.trf.redDrop.zeroExtend 64, trf.redDrop := 0 } else s.setRd 0

end Sys2Proof.Machine
end

