-- ==== Sys2Proof/Machine/Switch.lean ====
section
/-!
DEFINITION. Machine/Switch.lean: ports, the packet buffer, lookup and learning, copies and their ends, send queues and
receive bindings (R329 to R356).
-/
namespace Sys2Proof.Machine

/-! ### Ports -/

/-- SWC_PORT_CFG[p]. -/
def State.portCfg (s : State) (p : Nat) : Nat := s.regOr (if 17 ≤ p then 0xC1 else 0xC0) (0xA0400 + 32 * p)
/-- The lanes and the rate in Gbit/s of a lane mode (Table 11-2). -/
def laneMode (m : Nat) : Nat × Nat :=
  match m with
  | 0 => (1, 25) | 1 => (1, 50) | 2 => (2, 100) | 3 => (4, 200) | 4 => (1, 100) | 5 => (2, 200) | 6 => (4, 400)
  | _ => (0, 0)
/-- The lanes of an external port with a SWC_PORT_CFG word (R330). -/
def cfgLanes (cfg : Nat) : Nat := (laneMode (bits cfg 3 1)).1
/-- The rate of a port in Gbit/s: 200 for internal ports, 1 for the management port. -/
def State.portRate (s : State) (p : Nat) : Nat :=
  if 17 ≤ p then 200 else if p = 16 then 1 else (laneMode (bits (s.portCfg p) 3 1)).2
/-- The state of a port (Table 11-3); internal ports are always up. -/
def State.portSt (s : State) (p : Nat) : PortSt := if 17 ≤ p then .up else Table.get PortSt.disabled s.swc.ports p
/-- A port receives and sends. -/
def State.portUp (s : State) (p : Nat) : Bool := s.portSt p == .up
/-- A port changes state: ICU source 192 (R356). -/
def State.setPort (s : State) (p : Nat) (x : PortSt) : State :=
  if s.portSt p = x then s else { s with swc.ports := Table.set PortSt.disabled s.swc.ports p x }.raise 192
/-- The latencies that firmware loads at a port's start for its lane mode (R40). -/
def State.firmwareLat (s : State) (p : Nat) : Word := Config.portLat p (bits (s.portCfg p) 3 1)
/-- TIME_PORT_LAT[p] as firmware loaded it or as it was written: TX_LAT and RX_LAT (R40). -/
def State.portLat (s : State) (p : Nat) : Nat × Nat :=
  let v := s.regOr (Config.portLat p 0).toNat (0x10100 + 4 * p)
  (bits v 15 0, bits v 31 16)
/-- A counter of a port (Table 11-13) goes up by `n`, modulo 2^64 (R354). -/
def State.count (s : State) (p c n : Nat) : State :=
  { s with swc.counters := Table.upd 0 s.swc.counters (32 * p + c) (· + BitVec.ofNat 64 n) }
/-- The switch forwards in this state (Table 11-12). -/
def State.switches (s : State) : Bool := s.live

/-! ### The packet buffer (R347 to R349) -/

/-- MIN of a queue. -/
def State.qMin (s : State) (q : Nat) : Nat := bits (s.regOr 64 (0xA1000 + 16 * q)) 17 0
/-- QMAX of a queue. -/
def State.qMax (s : State) (q : Nat) : Nat := bits (s.regOr 131072 (0xA1004 + 16 * q)) 17 0
/-- ECN_TH of a queue. -/
def State.qEcn (s : State) (q : Nat) : Nat := bits (s.regOr 0 (0xA1008 + 16 * q)) 17 0
/-- use[q]. -/
def State.qUse (s : State) (q : Nat) : Nat := Table.get 0 s.swc.use q
/-- The sum of a function over the 224 queues. -/
def sumQueues (f : Nat → Nat) : Nat := (List.range 224).foldl (fun n q => n + f q) 0
/-- The cells that fenced SRAM rows of the packet buffer hold: four to a row of 1 KiB (Table 14-9). -/
def State.fencedCells (s : State) : Nat := 4 * (s.snuf.fences.filter (fun f => decide (f.1 < 4))).length
/-- The allocated cells, those of the Snuffer's holder ledger included. -/
def State.cellsUsed (s : State) : Nat := min 131072 (s.swc.allocated + s.fencedCells)
/-- F, the shared cells that are free (R348). -/
def State.cellsShared (s : State) : Int :=
  let shared : Int := 131072 - (sumQueues s.qMin : Nat)
  let inUse : Int := max 0 ((s.cellsUsed : Nat) - (sumQueues (fun q => min (s.qUse q) (s.qMin q)) : Nat))
  shared - inUse
/-- ALPHA_LOG, −4 to 3 in three bits (SWC_BUF_CFG): the values 4 to 7 are the negative ones −4 to −1. -/
def State.alphaLog (s : State) : Int :=
  let n := bits (s.regOr 0x20000 0xA000C) 2 0
  if n < 4 then n else (n : Int) - 8
/-- `x < 2^k × f` for a signed exponent. -/
def belowAlpha (x f k : Int) : Bool :=
  if 0 ≤ k then decide (x < 2 ^ k.toNat * f) else decide (x * 2 ^ (-k).toNat < f)
/-- A cell request of a copy to queue `q` is granted (R348). -/
def State.cellGranted (s : State) (q : Nat) : Bool :=
  if 131072 ≤ s.cellsUsed then false
  else if s.qUse q < s.qMin q then true
  else if s.qMax q ≤ s.qUse q then false
  else
    let f := s.cellsShared
    decide (0 < f) && belowAlpha ((s.qUse q : Nat) - (s.qMin q : Nat)) f s.alphaLog

/-- After cells were taken or released: the peak, and ICU source 195 when F falls below LOW_MARK. -/
def State.cellsCheck (s : State) : State :=
  let low := decide (s.cellsShared < (bits (s.regOr 0x20000 0xA000C) 21 4 : Nat))
  let s1 := { s with swc := { s.swc with peak := max s.swc.peak s.cellsUsed, low := low } }
  if low && !s.swc.low then s1.raise 195 else s1

/-- A copy releases its cells (R347). -/
def State.releaseCells (s : State) (c : Copy) : State :=
  { s with swc.use := Table.upd 0 s.swc.use c.queue (· - c.cells) }

/-- The port of a queue. -/
def queuePort (q : Nat) : Nat := q / 8

/-- A frame is settled once no copy is left: its completion under R346. -/
def State.frameDone (s : State) (f : Frame) : State :=
  let st := if 0 < f.media then Status.mediaError else if f.sent = 0 then .aborted else .ok
  let detail := if 0 < f.dropped then some (0 + 256 * 0x40) else none
  let r := if f.dropped = 0 && f.stampWanted then (f.stamp.getD 0).toNat else 0
  match f.sender with
  | .slot n => s.jobDone (.slot n) st (r % 2 ^ 32) (r / 2 ^ 32) detail
  | .channel c a => s.jobDone (.channel c a) st 0 0 none
  | _ => s

/-- A frame in the buffer, by its number. -/
def State.frame (s : State) (id : Nat) : Option Frame := s.swc.frames.find? (fun f => f.id == id)

/-- Put a frame back: without copies its cells are freed, and once it is whole it is settled and gone (R343, R347). -/
def State.putFrame (s : State) (f : Frame) : State :=
  if f.copies.isEmpty then
    let s1 := { s with swc.allocated := s.swc.allocated - f.cells }
    if f.whole then { s1 with swc.frames := s1.swc.frames.filter (fun g => g.id != f.id) }.frameDone f
    else { s1 with swc.frames := s1.swc.frames.map (fun g => if g.id = f.id then { f with cells := 0 } else g) }
  else { s with swc.frames := s.swc.frames.map (fun g => if g.id = f.id then f else g) }

/-- Copies of a frame are dropped: each releases its cells and counts on the counter `c` of its port. -/
def State.dropCopies (s : State) (f : Frame) (sel : Copy → Bool) (c : Nat) : State × Frame :=
  let gone := f.copies.filter sel
  (forEach gone s (fun k s => (s.releaseCells k).count (queuePort k.queue) c 1),
    { f with copies := f.copies.filter (fun k => !sel k), dropped := f.dropped + gone.length })

/-- One more cell of a frame: each copy that still takes cells requests it (R348, R349). The requests of one cell are
decided on the same state. A copy that is refused is dropped, or ends damaged where it is being sent. -/
def State.nextCell (s : State) (f : Frame) : State × Frame :=
  let asks := fun k : Copy => !k.failed
  let ok := fun k : Copy => s.cellGranted k.queue
  let f1 := { f with copies := f.copies.map (fun k =>
    if asks k && ok k then { k with cells := k.cells + 1, ce := k.ce || (k.cells == 0 && s.qEcn k.queue != 0
      && decide (s.qEcn k.queue ≤ s.qUse k.queue) && isEct f.bytes) }
    else if asks k && k.sending then { k with failed := true } else k) }
  let use := (f.copies.filter (fun k => asks k && ok k)).foldl (fun t k => Table.upd 0 t k.queue (· + 1)) s.swc.use
  let s1 := { s with swc.use := use }
  let s2 := if f.copies.any (fun k => asks k && ok k) then { s1 with swc.allocated := s1.swc.allocated + 1 } else s1
  let f2 := if f.copies.any (fun k => asks k && ok k) then { f1 with cells := f1.cells + 1 } else f1
  let gone := fun k : Copy => asks k && !k.sending && !ok k
  ((s2.dropCopies f2 gone 20).1.cellsCheck, (s2.dropCopies f2 gone 20).2)

/-- The cells of a frame up to `n` in all. -/
def State.takeCells (s : State) (f : Frame) : Nat → State × Frame
  | 0 => (s, f)
  | n + 1 =>
    if f.copies.isEmpty then (s, f)
    else
      let (s1, f1) := s.nextCell f
      s1.takeCells f1 n

/-- Copies to a port that is not UP are dropped at admission (R350); so are copies to ports that take none (Table
11-4). -/
def State.admitFrame (s : State) (f : Frame) (n : Nat) : State × Frame :=
  let (s1, f1) := s.dropCopies f (fun k => !s.portUp (queuePort k.queue)) 21
  s1.takeCells f1 n

/-- The cells of a number of bytes. -/
def cellsOf (n : Nat) : Nat := ceilDiv n 256

/-! ### Lookup (R333 to R338) -/

/-- A VLAN entry as a number (Table 11-5). -/
def State.vlanEntry (s : State) (vid : Nat) : Nat := Table.get 0 s.swc.vlan vid
/-- A group entry as a number (R338). -/
def State.groupEntry (s : State) (g : Nat) : Nat := Table.get 0 s.swc.group g
/-- The member ports of a 28-bit mask. -/
def memberPorts (m : Nat) : List Nat := (List.range 28).filter (bit m)
/-- The members of a group; none where it is not VALID. -/
def State.groupPorts (s : State) (g : Nat) : List Nat :=
  if bit (s.groupEntry g) 28 then memberPorts (s.groupEntry g) else []

/-- The bucket of a MAC key (R336). -/
def macBucket (vid mac : Nat) : Nat := Config.macHash (vid * 2 ^ 48 + mac) % 16384
/-- The place of a key in the MAC table, with its entry. -/
def State.macFind (s : State) (vid mac : Nat) : Option (Nat × MacEntry) :=
  (List.range 4).findSome? (fun w =>
    let i := macBucket vid mac * 4 + w
    match Table.get .none s.swc.mac i with
    | some e => if e.vid = vid ∧ e.mac = mac then some (i, e) else none
    | none => none)
/-- A free way of the key's bucket. -/
def State.macFree (s : State) (vid mac : Nat) : Option Nat :=
  (List.range 4).findSome? (fun w =>
    let i := macBucket vid mac * 4 + w
    if (Table.get .none s.swc.mac i).isNone then some i else none)
/-- Write a place of the MAC table. -/
def State.setMac (s : State) (i : Nat) (e : Option MacEntry) : State :=
  { s with swc.mac := Table.set .none s.swc.mac i e }
/-- The elapsed seconds that AGE counts. -/
def State.seconds (s : State) : Nat := s.time.osc / second

/-- Learning (R337): a frame that passed step 1 teaches (VID, source) against its ingress port. -/
def State.learn (s : State) (p vid mac : Nat) : State :=
  if !bit (s.vlanEntry vid) 29 || isMulticast mac then s
  else
    match s.macFind vid mac with
    | some (i, e) => if e.fixed then s else s.setMac i (some { e with port := p, seen := s.seconds })
    | none =>
      match s.macFree vid mac with
      | some i => s.setMac i (some ⟨mac, vid, p, false, false, false, false, 0, s.seconds⟩)
      | none => (s.count p 10 1).raise 194

/-- The bytes of a classifier entry. -/
def State.classEntry (s : State) (i : Nat) : List Byte := Table.get [] s.swc.classifier i
/-- The lowest-numbered VALID entry that matches a key (R335). -/
def State.classify (s : State) (key : List Byte) : Option (List Byte) :=
  (s.swc.classifier.find? (fun e => bit (fieldLe e.2 97 1) 0 && keyMatches key (e.2.take 48) ((e.2.drop 48).take 48))).map
    Prod.snd

/-- What lookup gives a frame: its destinations, named by the classifier or not, its class, and what else it meets. -/
structure Lookup where
  ports : List Nat
  /-- The classifier named the destination: no egress filtering (R334). -/
  named : Bool
  tc : Nat
  meter : Option Nat
  binding : Option Nat
  /-- The MAC entry that was hit. -/
  hit : Option Nat
  /-- Drop counted on this counter of the ingress port, and nothing else happens. -/
  drop : Option Nat
deriving DecidableEq, Repr

/-- The destination by the MAC table (step 3 of R334). -/
def State.macDest (s : State) (vid dst : Nat) : List Nat × Option Nat :=
  let v := s.vlanEntry vid
  match s.macFind vid dst with
  | some (i, e) =>
    (if e.drop then [] else if e.isGroup then s.groupPorts e.group else [e.port], some i)
  | none =>
    if isMulticast dst ∧ dst ≠ broadcast then
      match bits v 31 30 with
      | 0 => (memberPorts v, none)
      | 2 => ([27], none)
      | _ => ([], none)
    else (memberPorts v, none)

/-- VLAN, classifier, destination and class of a frame received on port `p` (steps 1 to 5 of R334). -/
def State.lookup (s : State) (p : Nat) (head : List Byte) (vid pcp : Nat) : Lookup :=
  let v := s.vlanEntry vid
  let tag := hasTag head && tagInfo head % 4096 != 0
  let accept := bits (s.regOr 1 (0xA0404 + 32 * p)) 13 12
  let tc := bits (s.regOr 0xFAC688 (0xA040C + 32 * p)) (3 * pcp + 2) (3 * pcp)
  if (accept == 1 && !tag) || (accept == 2 && tag) || !bit v 28 || !bit v p then ⟨[], false, 0, none, none, none, some 7⟩
  else
    match s.classify (classKey head p vid) with
    | none =>
      let (ports, hit) := s.macDest vid (dstMac head)
      ⟨ports, false, tc, none, none, hit, none⟩
    | some e =>
      let kind := fieldLe e 96 1
      let fl := fieldLe e 97 1
      let target := fieldLe e 100 2
      let tc1 := if bit fl 1 then fieldLe e 98 1 % 8 else tc
      let meter := if bit fl 3 then some (fieldLe e 102 2) else none
      let copy := if bit fl 2 then [27] else []
      if kind = 1 then ⟨[], false, tc1, none, none, none, some 8⟩
      else if kind = 2 then ⟨target :: copy, true, tc1, meter, none, none, none⟩
      else if kind = 3 then ⟨s.groupPorts target ++ copy, true, tc1, meter, none, none, none⟩
      else if kind = 4 then
        let valid := bit (fieldLe (Table.get [] s.swc.binding target) 19 1) 0
        ⟨(if valid then [17 + target % 8] else []) ++ copy, true, tc1, meter, if valid then some target else none, none, none⟩
      else
        let (ports, hit) := s.macDest vid (dstMac head)
        ⟨(ports.filter (bit v)) ++ copy, true, tc1, meter, none, hit, none⟩

/-- The tag change of a copy to a port (R344): UNTAG of the VLAN. -/
def State.tagChange (s : State) (head : List Byte) (vid port : Nat) : Nat :=
  let untag := bit (s.vlanEntry vid) (32 + port)
  if hasTag head then (if untag then 2 else if tagInfo head % 4096 = 0 then 3 else 0)
  else if untag then 0 else 1

/-- A port that copies of forwarded frames may leave by: external and management ports, the LAMPLIGHTER port, and a
codec port for a binding (Table 11-4). -/
def takesCopies (bound : Bool) (p : Nat) : Bool := decide (p < 17) || p == 27 || (bound && decide (p < 25))

/-- A frame that is new to the buffer. -/
def State.newFrame (s : State) (p : Nat) (bytes : List Byte) (whole : Bool) (sender : Sender) : Frame :=
  { id := s.swc.frameSeq, ingress := p, bytes := bytes, whole := whole, bad := false, cells := 0, vid := 0, pcp := 0
    arrival := s.time.dts, sender := sender, stampWanted := false, stamp := none
    binding := none, meter := none, copies := [], sent := 0, dropped := 0, media := 0
    maxLen := bits (s.regOr 1522 (0xA0408 + 32 * p)) 13 0 }

/-- Put a new frame into the buffer with its copies and request `n` cells. -/
def State.store (s : State) (f : Frame) (n : Nat) : State :=
  let s1 := { s with swc := { s.swc with frames := s.swc.frames ++ [f], frameSeq := s.swc.frameSeq + 1 } }
  let (s2, f2) := s1.admitFrame f n
  s2.putFrame f2

/-- The copies of a frame: one for each port, in port order. -/
def copiesTo (ports : List Nat) (tc : Nat) (tag : Nat → Nat) : List Copy :=
  ((List.range 28).filter ports.contains).map (fun p => ⟨8 * p + tc, false, 0, false, false, tag p⟩)

/-- FRAME_HEAD_LOOKUP: the first 128 bytes of a frame are in (R333, R334, R337, R342). -/
def State.frameHead (s : State) (p : Nat) (head0 : List Byte) : State :=
  let head := head0.take 128
  if !s.switches || !s.portUp p || s.swc.frames.any (fun f => f.ingress == p && !f.whole) || head.isEmpty then s
  else if head.length < 64 then ((s.count p 4 1).count p 0 1).count p 1 head.length
  else
    let arrival := s.time.dts - BitVec.ofNat 64 (s.portLat p).2
    let f0 := { s.newFrame p head false .received with arrival := arrival }
    let pcp := if hasTag head then tagInfo head / 8192 else 0
    let ptp := isPtp (bits (s.regOr 0xD00004 0x10024) 1 0) head && bit (s.regOr 0 0x1002C) p
    if isPause head then (s.count p 9 1).store f0 1
    else if isReserved head || ptp then
      let s1 := if ptp && isPtpEvent head then
        let s2 := { s with time.stamps := s.time.stamps ++ [(p, arrival)] }
        if s.time.stamps.isEmpty then s2.raise 25 else s2
      else s
      let tc := bits (s.regOr 0xFAC688 (0xA040C + 32 * p)) (3 * pcp + 2) (3 * pcp)
      s1.store { f0 with pcp := pcp, copies := copiesTo [27] tc (fun _ => 0) } 1
    else
      let vid := if hasTag head && tagInfo head % 4096 != 0 then tagInfo head % 4096
        else bits (s.regOr 1 (0xA0404 + 32 * p)) 11 0
      let l := s.lookup p head vid pcp
      match l.drop with
      | some 7 => (s.count p 7 1).store f0 1
      | some c => ((s.learn p vid (srcMac head)).count p c 1).store f0 1
      | none =>
        let ok := fun q => q != p && takesCopies l.binding.isSome q && (l.named || bit (s.vlanEntry vid) q)
        let f := { f0 with
          vid := vid, pcp := pcp, meter := l.meter, binding := l.binding
          copies := copiesTo (l.ports.filter ok) l.tc (s.tagChange head vid) }
        let s1 := match l.hit with
          | some i => s.setMac i ((Table.get none s.swc.mac i).map (fun e : MacEntry => { e with hit := true }))
          | none => s
        (s1.learn p vid (srcMac head)).store f 1

/-! ### Receive bindings (R340, R341) -/

/-- The run of a binding. -/
def State.bindRun (s : State) (b : Nat) : BindRun := Table.get BindRun.fresh s.swc.runs b
/-- Replace the run of a binding. -/
def State.setBind (s : State) (b : Nat) (r : BindRun) : State :=
  { s with swc.runs := Table.set BindRun.fresh s.swc.runs b r }
/-- The bytes of a binding entry (Table 11-8). -/
def State.bindEntry (s : State) (b : Nat) : List Byte := Table.get [] s.swc.binding b

/-- The 32 bytes of an access-unit descriptor (Table 11-9). -/
def unitDescriptor (r : BindRun) (addr : DWord) (noMarker : Bool) : List Byte :=
  leBytes 8 addr.toNat ++ leBytes 4 r.data.length ++ leBytes 4 r.ts.toNat ++ leBytes 2 r.firstSeq ++ leBytes 2 r.packets
    ++ leBytes 1 (b2n r.loss + 2 * b2n r.truncated + 4 * b2n noMarker + 8 * b2n r.media) ++ leBytes 3 0
    ++ leBytes 8 r.stamp.toNat

/-- A unit ends: slot data, descriptor and TAIL are written, then the event is raised (R341). A write that meets a bus
error drops the unit. -/
def State.endUnit (s : State) (b : Nat) (noMarker busFail : Bool) : State :=
  let r := s.bindRun b
  let e := s.bindEntry b
  let idle := { r with active := false, dropping := false, data := [], fragment := false, part := [] }
  if !r.active then s
  else if r.dropping then s.setBind b idle
  else if busFail then ((s.setBind b { idle with lossNext := true }).fault 0x01F 0x42 b).raise 198
  else
    let ring := BitVec.ofNat 64 (fieldLe e 0 8)
    let slot := BitVec.ofNat 64 (fieldLe e 8 8) + BitVec.ofNat 64 (r.tail * fieldLe e 20 4)
    let tail := (r.tail + 1) % fieldLe e 16 2
    let s1 := s.spaceWrite slot r.data
    let s2 := s1.spaceWrite (ring + BitVec.ofNat 64 (64 + 32 * r.tail)) (unitDescriptor r slot noMarker)
    let s3 := s2.spaceWrite (ring + 4) (leBytes 4 tail)
    let s4 := s3.setBind b { idle with
      tail := tail, lossNext := false, units := BitVec.ofNat 32 (satInc 0xFFFFFFFF r.units.toNat) }
    let s5 := if bit (fieldLe e 19 1) 1 then s4.raise 197 else s4
    let c := fieldLe e 24 1 % 64
    if bit (fieldLe e 19 1) 2 && (s5.chan c).st != .free && (s5.chan c).fn == fieldLe e 26 1 then
      s5.setEvents c (1 <<< (fieldLe e 25 1))
    else s5

/-- A unit begins with a packet: a free slot takes it, otherwise the unit is dropped (R341). -/
def State.beginUnit (s : State) (b : Nat) (k : Rtp) (gap : Bool) (head : Nat) : State :=
  let r := s.bindRun b
  let e := s.bindEntry b
  let full := (r.tail + 1) % fieldLe e 16 2 == head
  let r1 := { r with
    active := true, dropping := full, ts := BitVec.ofNat 32 k.ts, firstSeq := k.seq, packets := 0
    data := if fieldLe e 18 1 = 3 then temporalDelimiter else []
    loss := gap || r.lossNext, truncated := false, media := false
    lossNext := r.lossNext || full
    full := if full then BitVec.ofNat 16 (satInc 0xFFFF r.full.toNat) else r.full }
  if full then (s.setBind b r1).raise 198 else s.setBind b r1

/-- A packet adds to the unit of its binding (R340). `media`: a poisoned cell dropped it (R345). -/
def State.addPacket (s : State) (b : Nat) (k : Rtp) (gap media : Bool) (stamp : DWord) : State :=
  let r := s.bindRun b
  let e := s.bindEntry b
  let size := fieldLe e 20 4
  if media then s.setBind b { r with media := true, loss := r.loss || gap, nextSeq := some ((k.seq + 1) % 65536), stamp := stamp }
  else
    let (bytes, open_, part) := takePayload (fieldLe e 18 1) k.payload (r.fragment && !gap) r.part
    let all := r.data ++ bytes
    s.setBind b { r with
      data := all.take size, truncated := r.truncated || decide (size < all.length)
      packets := (r.packets + 1) % 65536, loss := r.loss || gap, stamp := stamp
      nextSeq := some ((k.seq + 1) % 65536), fragment := open_, part := part }

/-- A binding takes the packet of a frame (R340, R341). `hostHead` is HEAD as a read of a host ring returned it. -/
def State.takePacket (s : State) (b : Nat) (body : List Byte) (stamp : DWord) (media busFail : Bool) (hostHead : Nat) :
    State :=
  match (udpPayload body).bind rtpOf with
  | none => s
  | some k =>
    let r := s.bindRun b
    let s1 := if r.active && r.ts.toNat != k.ts then s.endUnit b true busFail else s
    let r1 := s1.bindRun b
    let gap := match r1.nextSeq with
      | some n => n != k.seq
      | none => false
    let s2 := if gap then s1.setBind b { r1 with gaps := BitVec.ofNat 16 (satInc 0xFFFF r1.gaps.toNat) } else s1
    let ring := BitVec.ofNat 64 (fieldLe (s2.bindEntry b) 0 8)
    let dev := isDevice ring
    let head := if dev then leNat (s2.dev.bytes (spaceOff ring) 4) else hostHead
    let s3 := if r1.active then s2
      else (if dev then s2.devRead (spaceOff ring) 4 else s2).beginUnit b k gap head
    let s4 := s3.addPacket b k gap media stamp
    if k.marker then s4.endUnit b false busFail else s4

/-! ### The tail of a frame (R343, R345, R358) -/

/-- The copies of a metered frame take another class: their cells are charged to the new queue (R367). -/
def State.reclass (s : State) (f : Frame) (tc : Nat) : State × Frame :=
  (forEach f.copies s (fun k s =>
      let s1 := s.releaseCells k
      { s1 with swc.use := Table.upd 0 s1.swc.use (queuePort k.queue * 8 + tc) (· + k.cells) }),
    { f with copies := f.copies.map (fun k => { k with queue := queuePort k.queue * 8 + tc }) })

/-- The counter that a bad frame counts on its ingress port, the first that matches (R343). -/
def badCounter (bytes : List Byte) (phy excess : Bool) : Option Nat :=
  let fcs := frameFcs bytes
  if fcs = stompOf (frameBody bytes) then some 3
  else if phy then some 6
  else if excess then some 5
  else if fcs ≠ fcsOf (frameBody bytes) then some 2
  else none

/-- The whole of a frame is in: a bad frame drops the copies that are not being sent (Table 11-10); a good one is
metered and delivered to its binding. -/
def State.frameWhole (s : State) (f : Frame) (bad : Bool) (t : TailFacts) : State :=
  if bad then
    let (s1, f1) := s.dropCopies { f with bad := true, whole := true } (fun k => !k.sending) 22
    s1.putFrame f1
  else
    let f0 := { f with whole := true }
    let (m, s1) := match f.meter with
      | some k => s.flowMeter k f.bytes.length
      | none => (some (.green, none), s)
    match m with
    | none => (forEach f0.copies s1 (fun k s => s.releaseCells k)).putFrame { f0 with copies := [] }
    | some (_, tc) =>
      let (s2, f2) := match tc with
        | some c => s1.reclass f0 c
        | none => (s1, f0)
      match f2.binding with
      | none => s2.putFrame f2
      | some b =>
        let port := 17 + b % 8
        let mine := fun k : Copy => queuePort k.queue == port
        if f2.copies.any mine then
          let s3 := forEach (f2.copies.filter mine) s2 (fun k s => s.releaseCells k)
          let s4 := if t.media then (s3.count port 23 1).raise 199
            else (s3.count port 16 1).count port 17 f2.bytes.length
          let s5 := s4.takePacket b (frameBody f2.bytes) f2.arrival t.media t.ringFail t.ringHead.toNat
          s5.putFrame { f2 with copies := f2.copies.filter (fun k => !mine k), sent := f2.sent + 1 }
        else s2.putFrame f2

/-- The frame that a port is receiving. -/
def State.receiving (s : State) (p : Nat) : Option Frame := s.swc.frames.find? (fun f => f.ingress == p && !f.whole)

/-- FRAME_TAIL (R343): the rest of a frame arrives and is checked. -/
def State.frameTail (s : State) (p : Nat) (t : TailFacts) : State :=
  match s.receiving p with
  | none => s
  | some f =>
    if !s.switches then s
    else
      let all := if f.bytes.length < 128 then f.bytes else f.bytes ++ t.rest
      let excess := decide (f.maxLen < all.length)
      let bytes := all.take f.maxLen
      let bad := badCounter bytes (t.pcsError || t.fecUncorr) excess
      let s1 := (s.count p 0 1).count p 1 bytes.length
      let s2 := match bad with
        | some c => s1.count p c 1
        | none => s1
      let s3 := if t.fecUncorr then
        let s4 := s2.count p 26 1
        if p < 16 then s4.fault (0x020 + p) 3 0 else s4
      else s2
      let s5 := s3.count p 25 t.fecCorrected
      let f1 := { f with bytes := bytes }
      let (s6, f2) := s5.takeCells f1 (cellsOf bytes.length - 1)
      s6.frameWhole f2 bad.isSome t

/-- Reception stops: the frame being received is bad (R350). -/
def State.cutReception (s : State) (p : Nat) : State :=
  match s.receiving p with
  | none => s
  | some f => (((s.count p 0 1).count p 1 f.bytes.length).count p 6 1).frameWhole f true
      ⟨[], true, false, 0, false, 0, false, none⟩

/-! ### Egress (R342, R371, R372) -/

/-- The frames of a queue whose copy is not being sent, oldest first. -/
def State.queued (s : State) (q : Nat) : List (Frame × Copy) :=
  s.swc.frames.filterMap (fun f => (f.copies.find? (fun k => k.queue == q && !k.sending)).map (fun k => (f, k)))

/-- A port is sending a copy. -/
def State.sendingOn (s : State) (p : Nat) : Option (Frame × Copy) :=
  s.swc.frames.findSome? (fun f => (f.copies.find? (fun k => queuePort k.queue == p && k.sending)).map (fun k => (f, k)))

/-- How many copies a queue holds. -/
def State.queueCount (s : State) (q : Nat) : Nat :=
  (s.swc.frames.filter (fun f => f.copies.any (fun k => k.queue == q))).length

/-- The bytes that a copy sends, without its check sequence (R344). -/
def copyBody (f : Frame) (k : Copy) : List Byte :=
  let b := retag k.tag (frameBody f.bytes) f.pcp f.vid
  if k.ce then markCe b else b

/-- The length in bytes that a copy sends. -/
def copyLength (f : Frame) (k : Copy) : Nat := (copyBody f k).length + 4

/-- A copy of a frame that is not yet whole may start to be sent (R342). -/
def State.mayCutThrough (s : State) (f : Frame) (k : Copy) : Bool :=
  let p := queuePort k.queue
  bit (s.portCfg p) 7 && decide (p < 17) && decide (f.ingress < 17) && decide (s.portRate p ≤ s.portRate f.ingress)
    && s.queueCount k.queue == 1 && f.meter.isNone

/-- The length of a copy under the length mode of its port's shaper; MAX_FRAME plus OVH while it is not known (R372). -/
def State.fitLength (s : State) (f : Frame) (k : Copy) : Nat :=
  let x := s.shaper (portShaper (queuePort k.queue))
  if f.whole then modeLength x.lenMode x.ovh (copyLength f k)
  else ((bits (s.regOr 1522 (0xA0408 + 32 * queuePort k.queue)) 13 0 : Int) + x.ovh).toNat

/-- The DTS units that a number of bytes takes at a port's rate. -/
def State.sendTime (s : State) (p bytes : Nat) : Nat := ceilDiv (bytes * 8 * 16) (max 1 (s.portRate p))

/-- The head copy of a queue can never fit its gate (R372). -/
def State.neverFits (s : State) (f : Frame) (k : Copy) : Bool :=
  let p := queuePort k.queue
  match s.openLongest p (k.queue % 8) with
  | some n => decide (n < s.sendTime p (s.fitLength f k))
  | none => false

/-- The head copy of a queue of ports 0 to 16 may go: gate, fit, queue shaper and port shaper (R371). -/
def State.copyMayGo (s : State) (f : Frame) (k : Copy) : Bool :=
  let p := queuePort k.queue
  let fits := match s.openFor p (k.queue % 8) with
    | some n => decide (s.sendTime p (s.fitLength f k) ≤ n)
    | none => true
  (f.whole || s.mayCutThrough f k) && (decide (17 ≤ p) || ((s.openGates p).getLsbD (k.queue % 8) && fits
    && s.shaperPasses (queueShaper k.queue) && s.shaperPasses (portShaper p)))

/-- Head copies of a port that can never fit are dropped (R372). -/
def State.dropUnfit (s : State) (p : Nat) : Nat → State
  | 0 => s
  | n + 1 =>
    match (List.range 8).findSome? (fun tc =>
        match s.queued (8 * p + tc) with
        | (f, k) :: _ => if f.whole && s.neverFits f k then some (f, k) else none
        | [] => none) with
    | none => s
    | some (f, k) =>
      let (s1, f1) := s.dropCopies f (fun c => c == k) 22
      let s2 := (s1.putFrame f1).raise 209
      { s2 with trf.gateDrop := Table.upd 0 s2.trf.gateDrop p (fun w => BitVec.ofNat 32 (satInc 0xFFFFFFFF w.toNat)) }.dropUnfit
        p n

/-- A copy starts to be sent: the egress stamp of a frame whose send asked for one (R40, R126). -/
def State.startCopy (s : State) (f : Frame) (k : Copy) : State :=
  let p := queuePort k.queue
  let wanted := f.stampWanted || (decide (p < 17) && isPtp (bits (s.regOr 0xD00004 0x10024) 1 0) f.bytes && isPtpEvent f.bytes)
  let stamp := if wanted && f.stamp.isNone then some (s.time.dts + BitVec.ofNat 64 (s.portLat p).1) else f.stamp
  let s1 := if f.whole then s else s.count p 24 1
  s1.putFrame { f with
    stamp := stamp
    copies := f.copies.map (fun c => if c = k then { c with sending := true } else c) }

/-- What EGRESS_SELECT settles first on an external port: the shapers of the queues that hold copies are refilled and copies
that no longer fit their gate windows are dropped. -/
def State.egressReady (s : State) (p : Nat) : State :=
  if p < 17 then
    (forEach (List.range 8) s (fun tc s =>
      if (s.queued (8 * p + tc)).isEmpty then s
      else (s.refillShaper (queueShaper (8 * p + tc))).refillShaper (portShaper p))).dropUnfit p s.swc.frames.length
  else s

/-- The first copy of the highest class of a port that may go. -/
def State.nextCopy (s : State) (p : Nat) : Option (Frame × Copy) :=
  (List.range 8).findSome? (fun i =>
    match s.queued (8 * p + (7 - i)) with
    | (f, k) :: _ => if s.copyMayGo f k then some (f, k) else none
    | [] => none)

/-- TEST_SW_BP stalls the egress of a port of TEST_SW_PORTS for STALL switch-core cycles in every PERIOD cycles (R430): the
first STALL cycles of each period, counted from the start of elapsed time (assumption 24). The switch core runs at 1.35 GHz. -/
def State.egressStalled (s : State) (p : Nat) : Bool :=
  let w := s.regOr 0 0x400044
  let period := bits w 31 16
  bit (s.regOr 0 0x400040) p && period != 0 && decide (s.now * 135 / 1600 % period < bits w 15 0)

/-- EGRESS_SELECT: a port that sends nothing takes the highest class whose head copy may go (R371). -/
def State.egressSelect (s : State) (p : Nat) : State :=
  if !s.switches || !s.portUp p || (s.sendingOn p).isSome || s.egressStalled p then s
  else
    let s1 := s.egressReady p
    match s1.nextCopy p with
    | some (f, k) => s1.startCopy f k
    | none => s1

/-- COPY_TRANSMIT_END: the copy being sent ends (R343 to R347, R364). `media`: it read a poisoned cell. -/
def State.copyEnd (s : State) (p : Nat) (media : Bool) : State :=
  match s.sendingOn p with
  | none => s
  | some (f, k) =>
    if !s.switches || !f.whole then s
    else
      let body := copyBody f k
      let n := body.length + 4
      let damaged := k.failed || f.bad || media
      let stamp := f.stamp.getD s.time.dts
      let s1 := if p < 17 then (s.debitShaper (queueShaper k.queue) n).debitShaper (portShaper p) n else s
      let s2 := s1.releaseCells k
      let f1 := { f with
        copies := f.copies.filter (· != k), sent := f.sent + 1
        dropped := f.dropped + b2n (k.failed || media), media := f.media + b2n media }
      let s3 := if media then (s2.count p 23 1).raise 199 else s2
      let lost := media && decide (17 ≤ p)
      let s4 := if lost then s3 else (s3.count p 16 1).count p 17 n
      let s5 := if damaged && decide (p < 17) then s4.count p 18 1 else s4
      let s6 := if k.ce && !lost then s5.count p 19 1 else s5
      let s7 := if lost then s6
        else if damaged then s6.emit (.badFrame p (body ++ stompOf body))
        else s6.emit (.frame p (body ++ fcsOf body) stamp)
      let s8 := if p = 27 then { s7 with time.stamps := s7.time.stamps.filter (fun e => e != (f.ingress, f.arrival)) } else s7
      s8.putFrame f1

/-! ### Send queues (R126, R357) -/

/-- A send queue. -/
def State.sendQ (s : State) (i : Nat) : Option SendQueue := Table.get .none s.swc.sendQueues i
/-- Replace a send queue. -/
def State.setSendQ (s : State) (i : Nat) (q : Option SendQueue) : State :=
  { s with swc.sendQueues := Table.set .none s.swc.sendQueues i q }

/-- The internal port through which a sender's frames enter (Table 11-4, R368). -/
def senderPort : Sender → Nat
  | .slot _ => 26
  | .encoder c => 17 + c % 8
  | .st2110 => 25
  | _ => 27

/-- A frame that was not carried: its sender learns the status (R346, R367). -/
def State.sendFails (s : State) (x : Sender) (st : Status) (detail : Option Nat) : State :=
  match x with
  | .slot n => s.jobDone (.slot n) st 0 0 detail
  | .channel c a => s.jobDone (.channel c a) st 0 0 none
  | _ => s

/-- A frame of a send queue is gone without having been released: its sender learns a status, and its buffer is dropped (R11). -/
def State.sendGone (s : State) (x : SendFrame) (st : Status) : State := (s.sendFails x.sender st none).dropOpt x.buffer

/-- A frame of a send queue enters the switch: tag and check sequence are added, its function's tenant meter colours
it, and its copies are admitted (R126, R357). The PCP of the tag is a free value (assumption 4). -/
def State.enterSwitch (s : State) (q : SendQueue) (x : SendFrame) : State :=
  let (pcp, s1) := if q.vlan < 4096 then s.drawFree else (0, s)
  let body := if q.vlan < 4096 then addTag x.bytes pcp q.vlan else x.bytes
  let bytes := body ++ fcsOf body
  let p := senderPort x.sender
  match s1.tenantMeter x.fn bytes.length with
  | (none, s2) => s2.sendFails x.sender .aborted (some (256 * 0x41))
  | (some (_, tc), s2) =>
    let ports := (if q.kind = 0 then [q.target] else s2.groupPorts q.target).filter (fun o => o != p && takesCopies false o)
    let f := { s2.newFrame p bytes true x.sender with
      stampWanted := x.stampWanted, copies := copiesTo ports (tc.getD q.tc) (fun _ => 0) }
    ((s2.count p 0 1).count p 1 bytes.length).store f (cellsOf bytes.length)

/-- A send queue that is being closed is gone once nothing waits on it (R120). -/
def State.settleSendQ (s : State) (i : Nat) : State :=
  match s.sendQ i with
  | some q => if q.drain && q.waiting.isEmpty then s.setSendQ i none else s
  | none => s

/-- Release the frames of a send queue that are eligible, in their order of dispatch (R106), as far as its flow shaper lets
them go (stages 1 and 2 of Table 12-1): a frame that is not yet eligible holds back those behind it. -/
def State.releaseSends (s : State) (i : Nat) : Nat → State
  | 0 => s
  | n + 1 =>
    match s.sendQ i with
    | none => s
    | some q =>
      match q.waiting.head? with
      | none => s
      | some x =>
        if x.target.isSome then s
        else
        let s1 := s.refillShaper q.shaper
        if q.shaper < 16384 && !s1.shaperPasses q.shaper then s1
        else
          let len := x.bytes.length + 4 + if q.vlan < 4096 then 4 else 0
          let s2 := s1.setSendQ i (some { q with waiting := q.waiting.erase x })
          let s3 := if q.shaper < 16384 then s2.debitShaper q.shaper len else s2
          (((s3.enterSwitch q x).dropOpt x.buffer).settleSendQ i).releaseSends i n

/-- Release what a send queue may. -/
def State.runSendQ (s : State) (i : Nat) : State :=
  match s.sendQ i with
  | some q => s.releaseSends i q.waiting.length
  | none => s

/-- Release what every send queue may. -/
def State.runSendQs (s : State) : State := forEach s.swc.sendQueues.keys s (fun i s => s.runSendQ i)

/-- A send that misses its tick adds one to its queue's overrun count and to its function's (R49). -/
def State.countSendMiss (s : State) (i fn : Nat) : State :=
  match s.sendQ i with
  | some q => (s.setSendQ i (some { q with overruns := incWord q.overruns })).overrun fn
  | none => s.overrun fn

/-- The frames of a send queue that did not leave at tick `k`, their target, have missed it (R48, R49): under DISCARD they are
stopped; under RETARGET they run on, and are stopped where the next tick lies more than 3 ticks after the first target. -/
def State.missSends (s : State) (i : Nat) (k : Int) : State :=
  match s.sendQ i with
  | none => s
  | some q =>
    let late := fun x : SendFrame => x.target.isNone && !x.untimed
    let stops := fun x : SendFrame => late x && (!q.retarget || decide (x.firstTarget + 3 ≤ k))
    let counted := q.waiting.filter (fun x => late x && !x.missed && !x.uncounted)
    let s1 := forEach counted s (fun x s => s.countSendMiss i x.fn)
    match s1.sendQ i with
    | none => s1
    | some r =>
      let l := r.waiting.map (fun x : SendFrame => if late x then { x with missed := true, discarded := stops x } else x)
      let s2 := s1.setSendQ i (some { r with waiting := l.filter (fun x => !x.discarded) })
      (forEach (l.filter SendFrame.discarded) s2 (fun x s => s.sendGone x .deadlineMissed)).settleSendQ i

/-- Place a frame on a send queue and release what may go. -/
def State.placeFrame (s : State) (i : Nat) (x : SendFrame) : State :=
  match s.sendQ i with
  | some q => (s.setSendQ i (some { q with waiting := q.waiting ++ [x] })).runSendQ i
  | none => s

/-! ### Links and lanes (R331, R350, R351) -/

/-- The learned MAC entries that the test accepts are removed. -/
def State.dropLearned (s : State) (sel : MacEntry → Bool) : State :=
  { s with swc.mac := s.swc.mac.filter (fun e => match e.2 with
    | some m => m.fixed || !sel m
    | none => false) }

/-- Every copy to a port is dropped or abandoned, with TX_DOWN_DROP (R350). -/
def State.dropPort (s : State) (p : Nat) : State :=
  forEach (s.swc.frames.map Frame.id) s (fun i s =>
    match s.frame i with
    | none => s
    | some f =>
      if f.copies.any (fun k => queuePort k.queue == p) then
        let (s1, f1) := s.dropCopies f (fun k => queuePort k.queue == p) 21
        s1.putFrame f1
      else s)

/-- A port leaves UP for another state (R350, R352): fault LINK_DOWN, or MGMT_LINK for the management port. -/
def State.leaveUp (s : State) (p : Nat) (x : PortSt) : State :=
  let s1 := if s.portUp p then
      let s2 := ((s.setPort p x).cutReception p).dropPort p
      let s3 := if bit (s2.regOr 0x10012C 0xA0008) 20 then s2.dropLearned (fun m => m.port == p) else s2
      if p = 16 then s3.fault 0x01F 0x41 0 else s3.fault (0x020 + p) 1 0
    else s.setPort p x
  match x with
  | .down | .training => { s1 with swc.portDue := Table.set 0 s1.swc.portDue p (100 * millisecond + s1.now) }
  | _ => { s1 with swc.portDue := Table.set 0 s1.swc.portDue p 0 }

/-- A lane of an external port with this configuration word is retired. -/
def State.laneRetiredIn (s : State) (p cfg : Nat) : Bool :=
  decide (p < 16) && (List.range (cfgLanes cfg)).any (fun i => s.snuf.retiredLanes.getLsbD (p + i))

/-- External ports are carried in this mode (Table 11-12). -/
def State.carriesPorts (s : State) (p : Nat) : Bool :=
  !s.pwr.mode.dark && (p == 16 || s.pwr.mode != .standby) && !s.pwr.inWarmReset

/-- A port enters the state that its configuration, its lanes and the mode call for, from DISABLED or RETIRED. -/
def State.portStart (s : State) (p : Nat) : State :=
  let cfg := s.portCfg p
  let want := bit cfg 0 && s.carriesPorts p
  match s.portSt p with
  | .disabled => if !want then s else if s.laneRetiredIn p cfg then s.leaveUp p .retired else s.leaveUp p .training
  | .retired => if !bit cfg 0 || !s.laneRetiredIn p cfg then s.leaveUp p .disabled else s
  | _ => if !bit cfg 0 then s.leaveUp p .disabled else if s.laneRetiredIn p cfg then s.leaveUp p .retired else s

/-- A staged change of SWC_PORT_CFG has been applied: EN, MODE, FEC or AN (Table 11-3). -/
def State.portReconfigured (s : State) (p oldCfg : Nat) : State :=
  let new := s.portCfg p
  if p < 17 then
    let s1 := if s.portSt p = .up ∧ bits oldCfg 6 1 ≠ bits new 6 1 ∧ bit new 0 then s.leaveUp p .training else s
    let s2 := s1.portStart p
    s2.portStart p
  else s

/-- A lane is retired: its port is RETIRED (R351). -/
def State.laneRetired (s : State) (n : Nat) : State :=
  let s1 := s.raise 193
  forEach (List.range 16) s1 (fun p s =>
    if bit (s.portCfg p) 0 && decide (p ≤ n) && decide (n < p + cfgLanes (s.portCfg p)) then s.leaveUp p .retired else s)

/-- A lane returns to service: its port goes to TRAINING (R424). -/
def State.laneReturned (s : State) (n : Nat) : State :=
  forEach (List.range 16) s (fun p s =>
    if bit (s.portCfg p) 0 && decide (p ≤ n) && decide (n < p + cfgLanes (s.portCfg p)) && s.portSt p == .retired
      && !s.laneRetiredIn p (s.portCfg p) then s.leaveUp p .training else s)

/-- The external ports of a range go DOWN: a brown-out, STANDBY, or a lost clock (R353, R471). -/
def State.portsDown (s : State) (l : List Nat) : State :=
  forEach l s (fun p s =>
    match s.portSt p with
    | .up | .training => s.leaveUp p .down
    | _ => s)

/-- A reset of the switch core in RECOVERY: every frame is dropped, each copy counting TX_DOWN_DROP, and learned
entries are removed (Table 11-12). -/
def State.swcUnitReset (s : State) : State :=
  let s1 := forEach (List.range 28) s (fun p s => s.dropPort p)
  let s2 := forEach (List.range 17) s1 (fun p s => s.cutReception p)
  s2.dropLearned (fun _ => true)

/-- The lanes of a port have power and their reference clock (R457, R471). -/
def State.laneClock (s : State) (p : Nat) : Bool :=
  !(decide (p < 16) && (s.pwr.brownOut || s.pwr.clocksLost.getLsbD (1 + p / 8)))

/-- PORT_LOCK: a training port achieves lock and goes UP; firmware loads its latencies (R40, R331). -/
def State.portLock (s : State) (p : Nat) : State :=
  if s.switches && s.portSt p == .training && s.carriesPorts p && s.laneClock p then
    ((s.setReg (0x10100 + 4 * p) (s.firmwareLat p)).setPort p .up)
  else s

/-- TRAINING_RETRY: 100 ms have passed and the port trains again (R331). -/
def State.trainingRetry (s : State) (p : Nat) : State :=
  if s.switches && s.portSt p == .training then
    let s1 := s.advanceTo (Table.get 0 s.swc.portDue p)
    { s1 with swc.portDue := Table.set 0 s1.swc.portDue p (100 * millisecond + s1.now) }
  else s

/-- DOWN_RETRAIN: 100 ms after a port went DOWN it goes to TRAINING (R331). -/
def State.downRetrain (s : State) (p : Nat) : State :=
  if s.switches && s.portSt p == .down && s.carriesPorts p && s.laneClock p then
    (s.advanceTo (Table.get 0 s.swc.portDue p)).leaveUp p .training
  else s

/-- MAC_AGING_PASS: once a second, learned entries not seen for AGE_TIME seconds or more go (R337). -/
def State.agingPass (s : State) : State :=
  if !s.switches then s
  else
    let s1 := s.advanceTo (second * (s.swc.lastAging + 1))
    let age := bits (s1.regOr 0x10012C 0xA0008) 19 0
    let s2 := { s1 with swc.lastAging := s1.seconds }
    if age = 0 then s2 else s2.dropLearned (fun m => decide (m.seen + age ≤ s1.seconds))

/-! ### Tables (R336, R338, R339) -/

/-- The entries a table has and the bytes of an entry: VLAN, group, classifier, MAC, binding. -/
def swcTable (table : Nat) : Nat × Nat :=
  match table with
  | 0 => (4096, 8) | 1 => (8192, 4) | 2 => (16384, 112) | 3 => (65536, 16) | 4 => (256, 32) | _ => (0, 0)

/-- Which objects an entry may name, as the check sees them: valid groups, valid bindings and allocated channels. -/
structure SwcRefs where
  group : Nat → Bool
  binding : Nat → Bool
  channel : Nat → Nat → Bool

/-- The fields of a VLAN entry (Table 11-5). -/
def vlanCheck (b : List Byte) : Option StageCode :=
  firstFail [(bits (leNat b) 31 30 == 3, .range), (bits (leNat b) 63 60 != 0, .range)]
/-- The fields of a group entry (R338). -/
def groupCheck (b : List Byte) : Option StageCode := firstFail [(bits (leNat b) 31 29 != 0, .range)]
/-- The fields of a classifier entry (Table 11-7). -/
def classCheck (b : List Byte) (r : SwcRefs) : Option StageCode :=
  let kind := fieldLe b 96 1
  let valid := bit (fieldLe b 97 1) 0
  let target := fieldLe b 100 2
  let meter := bit (fieldLe b 97 1) 3
  firstFail [(!zeroBytes b 44 48, .range), (!zeroBytes b 92 96, .range), (4 < kind, .range),
    (fieldLe b 97 1 / 16 != 0, .range), (7 < fieldLe b 98 1, .range), (!zeroBytes b 99 100, .range),
    (valid && kind == 2 && 27 < target, .range), (valid && kind == 3 && 8191 < target, .range),
    (valid && kind == 4 && 255 < target, .range), (valid && kind == 3 && !r.group target, .reference),
    (valid && kind == 4 && !r.binding target, .reference), (valid && meter && 16383 < fieldLe b 102 2, .range),
    (!zeroBytes b 104 112, .range)]
/-- The fields of a MAC entry (Table 11-6). HIT and AGE are read only. -/
def macCheck (b : List Byte) (r : SwcRefs) : Option StageCode :=
  let fl := fieldLe b 9 1
  let grp := bit fl 0 && bit fl 2
  firstFail [(4095 < fieldLe b 6 2, .range), (27 < fieldLe b 8 1, .range), (fl / 32 != 0, .range),
    (grp && 8191 < fieldLe b 10 2, .range), (grp && !r.group (fieldLe b 10 2), .reference)]
/-- The fields of a binding entry (Table 11-8). -/
def bindCheck (b : List Byte) (r : SwcRefs) : Option StageCode :=
  let valid := bit (fieldLe b 19 1) 0
  let size := fieldLe b 20 4
  let event := bit (fieldLe b 19 1) 2
  firstFail [(valid && fieldLe b 0 8 % 64 != 0, .range), (valid && fieldLe b 8 8 % 4096 != 0, .range),
    (valid && (fieldLe b 16 2 < 2 || 4096 < fieldLe b 16 2), .range),
    (valid && (fieldLe b 18 1 < 1 || 3 < fieldLe b 18 1), .range), (fieldLe b 19 1 / 8 != 0, .range),
    (valid && (size < 4096 || 67108864 < size || size % 4096 != 0), .range),
    (valid && event && 63 < fieldLe b 24 1, .range), (valid && event && !r.channel (fieldLe b 24 1) (fieldLe b 26 1), .reference),
    (valid && event && 23 < fieldLe b 25 1, .range), (valid && 15 < fieldLe b 26 1, .range), (!zeroBytes b 27 32, .range)]

/-- The fields of an entry of a switch table. -/
def swcCheck (table : Nat) (b : List Byte) (r : SwcRefs) : Option StageCode :=
  match table with
  | 0 => vlanCheck b
  | 1 => groupCheck b
  | 2 => classCheck b r
  | 3 => macCheck b r
  | 4 => bindCheck b r
  | _ => some .range

/-- The objects that live entries may name. -/
def State.swcRefs (s : State) : SwcRefs where
  group g := bit (s.groupEntry g) 28
  binding b := bit (fieldLe (s.bindEntry b) 19 1) 0
  channel c f := (s.chan c).st != .free && (s.chan c).fn == f

/-- No reference is refused: an unstaged write is checked for ranges only (R339). -/
def SwcRefs.all : SwcRefs := ⟨fun _ => true, fun _ => true, fun _ _ => true⟩

/-- A MAC entry that bytes spell. -/
def State.macOf (s : State) (b : List Byte) : MacEntry :=
  let fl := fieldLe b 9 1
  ⟨fieldLe b 0 6, fieldLe b 6 2, fieldLe b 8 1, bit fl 1, bit fl 2, bit fl 3, false, fieldLe b 10 2, s.seconds⟩

/-- Write a MAC entry by its key (R336): a key that is present is replaced; the flag is false where a full bucket
refuses it. An entry without VALID removes its key. -/
def State.putMac (s : State) (b : List Byte) : State × Bool :=
  let e := s.macOf b
  match s.macFind e.vid e.mac with
  | some (i, _) => (s.setMac i (if bit (fieldLe b 9 1) 0 then some e else none), true)
  | none =>
    if !bit (fieldLe b 9 1) 0 then (s, true)
    else
      match s.macFree e.vid e.mac with
      | some i => (s.setMac i (some e), true)
      | none => (s, false)

/-- Write a binding: its ring starts at TAIL 0, its counts stand. -/
def State.putBinding (s : State) (i : Nat) (b : List Byte) : State :=
  let r := s.bindRun i
  { s with swc.binding := Table.set [] s.swc.binding i (if b.all (· == 0) then [] else b) }.setBind i
    { BindRun.fresh with units := r.units, full := r.full, gaps := r.gaps }

/-- A write of a legal switch entry takes effect on the live table; the flag is false where it is refused. -/
def State.putSwc (s : State) (table index : Nat) (b : List Byte) : State × Bool :=
  match table with
  | 0 => ({ s with swc.vlan := Table.set 0 s.swc.vlan index (leNat b) }, true)
  | 1 => ({ s with swc.group := Table.set 0 s.swc.group index (leNat b) }, true)
  | 2 => ({ s with swc.classifier := Table.set [] s.swc.classifier index (if b.all (· == 0) then [] else b) }, true)
  | 3 => s.putMac b
  | 4 => (s.putBinding index b, true)
  | _ => (s, false)

/-- The bytes of a MAC entry as a read returns them. -/
def State.macBytes (s : State) (e : MacEntry) : List Byte :=
  leBytes 6 e.mac ++ leBytes 2 e.vid ++ leBytes 1 e.port
    ++ leBytes 1 (1 + 2 * b2n e.fixed + 4 * b2n e.isGroup + 8 * b2n e.drop + 16 * b2n e.hit) ++ leBytes 2 e.group
    ++ leBytes 4 (s.seconds - e.seen)

/-- Bytes brought to a length with zeros. -/
def padTo (n : Nat) (l : List Byte) : List Byte := l.take n ++ List.replicate (n - l.length) 0

/-- The live entry of a switch table. -/
def State.swcEntry (s : State) (table index : Nat) : List Byte :=
  match table with
  | 0 => leBytes 8 (s.vlanEntry index)
  | 1 => leBytes 4 (s.groupEntry index)
  | 2 => padTo 112 (s.classEntry index)
  | 3 => match Table.get .none s.swc.mac index with
    | some e => s.macBytes e
    | none => List.replicate 16 0
  | _ => padTo 32 (s.bindEntry index)

/-- An uncorrectable error in a lookup table: a learned MAC entry is removed, any other entry is made invalid until it
is rewritten (Table 11-11). -/
def State.swcStruck (s : State) (table index : Nat) : State :=
  if (swcTable table).1 ≤ index then s
  else match table with
  | 0 => { s with swc.vlan := Table.upd 0 s.swc.vlan index (fun v => if bit v 28 then v - 2 ^ 28 else v) }
  | 1 => { s with swc.group := Table.upd 0 s.swc.group index (fun v => if bit v 28 then v - 2 ^ 28 else v) }
  | 2 => { s with swc.classifier := Table.upd [] s.swc.classifier index (fun b => updAt b 97 (· &&& 0xFE)) }
  | 3 => s.setMac index none
  | 4 => { s with swc.binding := Table.upd [] s.swc.binding index (fun b => updAt b 19 (· &&& 0xFE)) }
  | _ => s

/-! ### Rows -/

/-- FRAME_HEAD_LOOKUP. -/
def execFrameHeadLookup (p : Fin 17) (head : List Byte) (s : State) : Host.Outcome State Fault Refusal :=
  .next (s.frameHead p.val head)
/-- EGRESS_SELECT. -/
def execEgressSelect (p : Fin 28) (s : State) : Host.Outcome State Fault Refusal := .next (s.egressSelect p.val)
/-- MAC_AGING_PASS. -/
def execMacAgingPass (s : State) : Host.Outcome State Fault Refusal := .next s.agingPass
/-- PORT_LOCK. -/
def execPortLock (p : Fin 17) (s : State) : Host.Outcome State Fault Refusal := .next (s.portLock p.val)
/-- TRAINING_RETRY. -/
def execTrainingRetry (p : Fin 17) (s : State) : Host.Outcome State Fault Refusal := .next (s.trainingRetry p.val)
/-- LINK_DOWN: a port that is UP loses lock or alignment and goes DOWN (R350); an external port also sends
PCS_ERROR (Table 11-11). -/
def execLinkDown (p : Fin 17) (s : State) : Host.Outcome State Fault Refusal :=
  .next <|
    if s.switches && s.portUp p.val then
      let s1 := if p.val < 16 then s.fault (0x020 + p.val) 4 0 else s
      s1.leaveUp p.val .down
    else s
/-- DOWN_RETRAIN. -/
def execDownRetrain (p : Fin 17) (s : State) : Host.Outcome State Fault Refusal := .next (s.downRetrain p.val)

/-- SWC_CNT_LOW_READ: the low word is returned and the high word latched (R354). -/
def execSwcCntLowRead (p : Fin 28) (c : Fin 32) (s : State) : Host.Outcome State Fault Refusal :=
  .next <|
    if s.bar0 (0xB0000 + 256 * p.val + 8 * c.val) then
      let v := Table.get 0 s.swc.counters (32 * p.val + c.val)
      { s.setRd (v.toNat % 2 ^ 32) with swc.cntLatch := BitVec.ofNat 32 (v.toNat / 2 ^ 32) }
    else s.setRd 0

/-- SWC_BUF_PEAK_READ: the peak is returned and cleared (R355). -/
def execSwcBufPeakRead (s : State) : Host.Outcome State Fault Refusal :=
  .next <|
    if s.bar0 0xA0018 then { s.setRd s.swc.peak with swc.peak := 0 } else s.setRd 0

/-- SWC_RB_DROP_READ: both counts are returned and cleared (R355). -/
def execSwcRbDropRead (b : Fin 256) (s : State) : Host.Outcome State Fault Refusal :=
  .next <|
    if s.bar0 (0xB4004 + 8 * b.val) then
      let r := s.bindRun b.val
      (s.setRd (r.full.toNat + 65536 * r.gaps.toNat)).setBind b.val { r with full := 0, gaps := 0 }
    else s.setRd 0

/-- WHEEL_TICK: the wheel serves its next slot, and frames whose flow shaper became eligible are released (R365). -/
def execWheelTick (s : State) : Host.Outcome State Fault Refusal :=
  .next <|
    if s.live then
      let t := s.wheelNext
      ((s.advanceTo (t * 128)).wheelServe t).runSendQs
    else s

/-- HIST_SAMPLE: every queue is sampled at a multiple of PERIOD (R374): the first one at or after now not yet sampled. -/
def execHistSample (s : State) : Host.Outcome State Fault Refusal :=
  .next <|
    let cfg := s.regOr 0x30064 0xC0004
    let per : Int := (microsecond * max 1 (bits cfg 9 0) : Nat)
    if s.live && bit cfg 10 then
      let m := (s.fullTime + per - 1) / per * per
      let at_ := if m ≤ s.trf.histLast then m + per else m
      let s1 := s.advanceToDts at_
      let sample := fun (q : Nat) (t : Table Hist) =>
        let delay := match s1.queued q with
          | (f, _) :: _ => min 0xFFFFFFFF ((s1.time.dts - f.arrival).toNat / 16)
          | [] => 0
        Table.upd Hist.empty (Table.upd Hist.empty t (2 * q) (fun h => h.add (bits cfg 15 11) (s1.qUse q) s1.time.dts))
          (2 * q + 1) (fun h => h.add (bits cfg 20 16) delay s1.time.dts)
      { s1 with trf := { s1.trf with histLast := at_, hists := forEach (List.range 224) s1.trf.hists sample } }
    else s

end Sys2Proof.Machine
end

