-- ==== Sys2Proof/Machine/Codec.lean ====
section
/-!
DEFINITION. Machine/Codec.lean: decode and encode streams, their costs, their marks and jobs, the codec-core pool and
its sequencers (R128 to R219).
-/
namespace Sys2Proof.Machine

/-- A unit other than the Lantern core may reach a range at a 64-bit address: host space, or device memory outside the
firmware region (R13, R14). -/
def reaches (a : DWord) (n : Nat) : Bool :=
  !isDevice a || (inDevice (spaceOff a) n && !inFirmware (spaceOff a))

/-! ### Cores and streams -/

/-- A codec core. -/
def State.core (s : State) (c : Nat) : CodecCore := s.codec.cores[c]?.getD CodecCore.reset
/-- Replace a codec core. -/
def State.setCore (s : State) (c : Nat) (x : CodecCore) : State :=
  { s with codec.cores := s.codec.cores.setIfInBounds c x }
/-- A codec core changes state: ICU source 96 + c (R219). -/
def State.setCoreSt (s : State) (c : Nat) (st : CoreSt) : State :=
  if (s.core c).st = st then s else (s.setCore c { s.core c with st := st }).raise (96 + c)
/-- A, the cores in service (R198). -/
def State.coresUp (s : State) : Nat := countBelow 8 (fun c => (s.core c).st == .inService)
/-- A fault of a codec core (Table 07-3), remembered in CDC_FAULT. -/
def State.coreFault (s : State) (c kind addr : Nat) : State :=
  (s.setCore c { s.core c with fault := BitVec.ofNat 8 kind }).fault (0x010 + c) kind addr

/-- A decode stream, by its context. -/
def State.dec (s : State) (i : Nat) : Option DecStream := Table.get .none s.codec.dec i
/-- Replace a decode stream. -/
def State.setDec (s : State) (i : Nat) (d : Option DecStream) : State :=
  { s with codec.dec := Table.set .none s.codec.dec i d }
/-- An encode stream, by its context. -/
def State.enc (s : State) (i : Nat) : Option EncStream := Table.get .none s.codec.enc i
/-- Replace an encode stream. -/
def State.setEnc (s : State) (i : Nat) (e : Option EncStream) : State :=
  { s with codec.enc := Table.set .none s.codec.enc i e }
/-- The decode streams with their contexts. -/
def State.decList (s : State) : List (Nat × DecStream) := s.codec.dec.filterMap (fun e => e.2.map (fun d => (e.1, d)))
/-- The encode streams with their contexts. -/
def State.encList (s : State) : List (Nat × EncStream) := s.codec.enc.filterMap (fun e => e.2.map (fun d => (e.1, d)))

/-! ### Costs and admission (R195 to R199) -/

/-- Ceiling of a quotient. -/
def up (a b : Nat) : Nat := ceilDiv a (max 1 b)

/-- The frame cycles F of a decode stream (R196): the rate is in units of 0.001 Hz. -/
def decodeCycles (format w h kbps rate : Nat) : Nat :=
  let px := up (4 * w * h) 10
  -- S = KBPS × 125 / R bytes, R = rate / 1000: (32 S / 3 + W H / 8) / 2 = 2,000,000 KBPS / (3 rate) + W H / 16
  let ent := up (kbps * 2000000 * 16 + 3 * rate * w * h) (48 * rate)
  if format = 3 then px else max px ent

/-- The cost of a decode stream in decode units: ceil(F × R / 400,000) with F exact (R196). -/
def decodeCost (format w h kbps rate : Nat) : Nat :=
  let px := up (4 * w * h * rate) (10 * 1000 * 400000)
  let ent := up (kbps * 2000000 * 16 + 3 * rate * w * h) (48 * 1000 * 400000)
  if format = 3 then px else max px ent

/-- The blocks of a size. -/
def blocksOf (w h : Nat) : Nat := ceilDiv w 64 * ceilDiv h 64

/-- The frame cycles of one rung (R197): `d` percent damaged, SETTLE passes. -/
def rungCycles (w h d settle : Nat) : Nat :=
  let b := blocksOf w h
  let nd := ceilDiv (d * b) 100
  nd * 3277 + min (b - nd) (settle * nd) * 1229 + 24000

/-- DMG_CEIL of a function. -/
def State.dmgCeil (s : State) (f : Nat) : Nat := bits (s.regOr 100 (0x104100 + 8 * f)) 6 0
/-- SPARE. -/
def State.spare (s : State) : Nat := bits (s.regOr 0 0x104000) 2 0

/-- The decode units in use of a function: those of its streams that have neither been evicted nor gone (R199). -/
def State.decUse (s : State) (f : Nat) : Nat :=
  (s.decList.filter (fun e => e.2.fn == f && !e.2.evicted)).foldl (fun n e => n + e.2.cost) 0
/-- The encode units in use of a function. -/
def State.encUse (s : State) (f : Nat) : Nat :=
  (s.encList.filter (fun e => e.2.fn == f && !e.2.evicted)).foldl (fun n e => n + e.2.cost) 0
/-- Decode units in use, all tenants. -/
def State.decUseAll (s : State) : Nat := (s.decList.filter (fun e => !e.2.evicted)).foldl (fun n e => n + e.2.cost) 0
/-- Encode units in use, all tenants. -/
def State.encUseAll (s : State) : Nat := (s.encList.filter (fun e => !e.2.evicted)).foldl (fun n e => n + e.2.cost) 0
/-- Decode-equivalent units in use. -/
def State.poolUnits (s : State) : Nat := s.decUseAll + 2 * s.encUseAll
/-- CAP for a number of spare cores (R198). -/
def State.capWith (s : State) (spare : Nat) : Nat := 3000 * (s.coresUp - spare)
/-- The effective decode share of a function (R198). -/
def State.decShareOf (s : State) (f : Nat) : Nat := Table.get 0 s.qm.decShare f * s.coresUp / 8
/-- The effective encode share of a function. -/
def State.encShareOf (s : State) (f : Nat) : Nat := Table.get 0 s.qm.encShare f * s.coresUp / 8

/-- Step 10 of Table 04-3 for a stream of a kind: 0x30 SHARE or 0x31 POOL where it does not fit (R199). -/
def State.admission (s : State) (f : Nat) (encode : Bool) (cost : Nat) : Option Nat :=
  if encode then
    if s.encShareOf f < s.encUse f + cost then some 0x30
    else if s.capWith s.spare < s.poolUnits + 2 * cost then some 0x31 else none
  else
    if s.decShareOf f < s.decUse f + cost then some 0x30
    else if s.capWith s.spare < s.poolUnits + cost then some 0x31 else none

/-- A job's cycles against its admitted cycles: the tenant's debt (R201), ICU source 106 when it rises above 0. -/
def State.charge (s : State) (f used admitted : Nat) : State :=
  let d := Table.get 0 s.codec.debt f
  let d1 := d + used - admitted
  let s1 := { s with codec.debt := Table.set 0 s.codec.debt f d1 }
  if d = 0 ∧ 0 < d1 then s1.raise 106 else s1

/-! ### Marks (R137 to R140) -/

/-- The stream holds the buffer of an entry (R138). -/
def PicEntry.streamHolds (e : PicEntry) : Bool := e.decoding || e.refShort || e.refLong || e.outputPending
/-- An entry of a stream. -/
def DecStream.entry (d : DecStream) (n : Nat) : PicEntry := d.entries[n]?.getD PicEntry.free

/-- Change the marks of an entry: the stream drops its reference when its last mark goes, and an entry without marks is
free (Table 05-6, R139). -/
def State.updEntry (s : State) (i n : Nat) (f : PicEntry → PicEntry) : State :=
  match s.dec i with
  | none => s
  | some d =>
    let e := d.entry n
    let e1 := f e
    let gone := !e1.streamHolds && e1.holders == 0
    let s1 := s.setDec i (some { d with entries := setAt d.entries n (if gone then PicEntry.free else e1) })
    if e.streamHolds && !e1.streamHolds then s1.dropOpt e.buffer else s1

/-- Change every entry of a stream. -/
def State.updEntries (s : State) (i : Nat) (f : Nat → PicEntry → PicEntry) : State :=
  forEach (List.range 24) s (fun n s => s.updEntry i n (f n))

/-- A holder takes a reference to the picture in an entry (R138). -/
def State.holdEntry (s : State) (i n : Nat) : State :=
  match s.dec i with
  | none => s
  | some d =>
    match (d.entry n).buffer with
    | none => s
    | some b => (s.takeBuf b).updEntry i n (fun e => { e with holders := e.holders + 1 })

/-- The entry of a stream that a buffer is part of. -/
def State.entryOf (s : State) (b : Nat) : Option (Nat × Nat) :=
  s.decList.findSome? (fun e => (firstBelow 24 (fun n => (e.2.entry n).buffer == some b)).map (fun n => (e.1, n)))

/-- A holder outside the model takes a reference to a buffer: of a picture it is a holder (R138). -/
def State.holderTakes (s : State) (b : Nat) : State :=
  match s.entryOf b with
  | some (i, n) => s.holdEntry i n
  | none => s.takeBuf b

/-- Such a holder drops its reference. -/
def State.holderDrops (s : State) (b : Nat) : State :=
  match s.entryOf b with
  | some (i, n) => (s.dropBuf b).updEntry i n (fun e => { e with holders := e.holders - 1 })
  | none => s.dropBuf b

/-- A holder drops its reference to a picture: the buffer may have outlived its stream (R120). -/
def State.dropHeld (s : State) (h : HeldPicture) : State :=
  let s1 := s.dropBuf h.buffer
  match s1.dec h.stream with
  | some d =>
    if d.gen = h.gen ∧ (d.entry h.entry).buffer = some h.buffer then
      s1.updEntry h.stream h.entry (fun e => { e with holders := e.holders - 1 })
    else s1
  | none => s1

/-- Every reference of a stream is released: REF_SHORT and REF_LONG clear. -/
def State.releaseRefs (s : State) (i : Nat) : State :=
  s.updEntries i (fun _ e => { e with refShort := false, refLong := false })

/-- A free entry of a stream. -/
def DecStream.freeEntry (d : DecStream) : Option Nat := firstBelow 24 (fun n => (d.entry n).buffer.isNone)

/-- A request from owner `o` for a buffer of pool `p` would be served (R385). -/
def State.poolServes (s : State) (o : Nat) : Nat → Nat → Bool
  | 0, _ => false
  | n + 1, p => p != 0 && (s.poolGrants p o || s.poolServes o n (s.poolFallback p))

/-! ### Jobs -/

/-- A job, by its number. -/
def State.job (s : State) (id : Nat) : Option CodecJob := s.codec.jobs.find? (fun j => j.id == id)
/-- Change a job. -/
def State.updJob (s : State) (id : Nat) (f : CodecJob → CodecJob) : State :=
  { s with codec.jobs := s.codec.jobs.map (fun j => if j.id = id then f j else j) }
/-- Remove a job. -/
def State.dropJob (s : State) (id : Nat) : State :=
  { s with codec.jobs := s.codec.jobs.filter (fun j => j.id != id) }
/-- The jobs of a stream. -/
def State.jobsOf (s : State) (encode : Bool) (i : Nat) : List CodecJob :=
  s.codec.jobs.filter (fun j => j.encode == encode && j.stream == i)

/-- The cores of a job fall free. -/
def State.freeCoresOf (s : State) (id : Nat) : State :=
  { s with codec.cores := s.codec.cores.map (fun x =>
    { x with
      job := if x.job = some id then none else x.job
      reserved := if x.reserved = some id then none else x.reserved }) }

/-- The codec-core cycles that a job has used since its cores started it, each core 1.2 GHz of 1/16 ns units (R195). -/
def State.runCycles (s : State) (j : CodecJob) : Nat := if j.phase == .running then (s.now - j.runAt) * 3 / 40 else 0

/-- The jobs of a running job's cores are counted as it is stopped, with the cycles that each core has been busy (R218). -/
def State.countStopped (s : State) (j : CodecJob) (ended : Bool) : State :=
  if j.phase == .running then
    forEach j.cores s (fun c s =>
      let x := s.core c
      s.setCore c { x with
        jobs := if ended then incWord x.jobs else x.jobs, cycles := x.cycles + BitVec.ofNat 64 (s.runCycles j), ustopped := true })
  else s

/-- Bytes that a job writes for its function: none to host memory once the function has been reset (R85). -/
def State.muteWrite (s : State) (mute : Bool) (a : DWord) (bs : List Byte) : State :=
  if mute && !isDevice a then s else s.spaceWrite a bs
/-- Bytes that a job writes. -/
def State.jobWrite (s : State) (j : CodecJob) (a : DWord) (bs : List Byte) : State := s.muteWrite j.mute a bs

/-- The completion of a CLOSE: it follows the completions of the object's commands (R120). -/
def State.closeDone (s : State) (n : Nat) (handle : Nat) : State :=
  let on := (s.slotList.filter (fun e => e.1 != n && fieldLe e.2.bytes 8 8 == handle &&
    (e.2.phase == .finished))).map Prod.fst
  s.waitFor ⟨n, on, 0, some 0⟩

/-- The handle of a decode stream. -/
def DecStream.handle (d : DecStream) (i : Nat) : Nat := handleOf 1 i d.fn d.gen
/-- The handle of an encode stream. -/
def EncStream.handle (e : EncStream) (i : Nat) : Nat := handleOf 2 i e.fn e.gen

/-- The references of an encode stream are released. -/
def State.releaseEncRefs (s : State) (i : Nat) : State :=
  match s.enc i with
  | none => s
  | some e =>
    let bufs := (e.ck.rungs.map RungState.refs).flatten.filterMap s.bufAt
    let s1 := s.setEnc i (some (e.updCk (fun c => { c with rungs := c.rungs.map (fun r => { r with refs := [], refTicks := [] }) })))
    forEach bufs s1 (fun b s => s.dropBuf b)

/-- Every mark of a stream but HELD is cleared, with its earmark: it is closed (Table 05-6). -/
def State.clearStream (s : State) (i : Nat) (keep : Nat → Bool) : State :=
  s.updEntries i (fun n e =>
    { e with decoding := false, refShort := false, refLong := false, outputPending := e.outputPending && keep n })

/-! ### Completions of decode jobs (R121, R154) -/

/-- The bytes of a status record before PRES_TICK (Table 05-11). -/
def recordHead (handle : Nat) (j : CodecJob) (now : DWord) : List Byte :=
  leBytes 8 handle ++ leBytes 8 j.startedAt.toNat ++ leBytes 8 now.toNat

/-- The bytes of a status record after PRES_TICK. -/
def recordTail (j : CodecJob) (type flags cores methods err concealed blocks errPos cycles budget order : Nat) : List Byte :=
  leBytes 2 j.seq.toNat ++ leBytes 1 type ++ leBytes 1 flags ++ leBytes 1 cores ++ leBytes 1 methods ++ leBytes 1 err
    ++ leBytes 1 0 ++ leBytes 4 concealed ++ leBytes 4 blocks ++ leBytes 4 errPos ++ leBytes 4 (min 0xFFFFFFFF cycles)
    ++ leBytes 4 budget ++ leBytes 4 order

/-- DETAIL where the status record of a job could not be written (R155). -/
def CodecJob.recordDetail (j : CodecJob) (failed : Bool) : Option Nat :=
  if (failed || !reaches j.statusAddr 64) && j.statusAddr != 0 then some (40 + 256 * 0x20) else none

/-- A decode job completes: its status record with the presentation tick, then the completion (R121, R154). -/
def State.decodeDone (s : State) (j : CodecJob) (e : JobEnd) (tick : Option Int) : State :=
  let pres := match tick with
    | some k => Target.ref ⟨j.target.group, k⟩
    | none => 2 ^ 64 - 1
  let s1 := if j.statusAddr == 0 || e.detail.isSome then s
    else s.jobWrite j j.statusAddr (e.head ++ leBytes 8 pres ++ e.tail)
  let r0 := match tick with
    | some k => (tick62 k).toNat % 2 ^ 32
    | none => 0xFFFFFFFF
  (s1.dropJob j.id).jobDone j.origin e.status r0 e.result1 e.detail

/-- What a decode job reports that yields no picture: no block, no error (R152, R154). -/
def State.bareEnd (s : State) (j : CodecJob) (st : Status) : JobEnd :=
  let handle := ((s.dec j.stream).map (fun d => handleOf 1 j.stream d.fn d.gen)).getD 0
  ⟨st, 0, j.recordDetail false, recordHead handle j s.time.dts,
    recordTail j 4 (16 * b2n j.redone) (j.cores.foldl (fun n c => n + 2 ^ c) 0) 0 0 0 0 0xFFFFFFFF (s.runCycles j * j.cores.length) 0 0⟩

/-- The decode jobs of a stream whose pictures wait for a presentation tick complete: they are never presented (R141). -/
def State.endWaiting (s : State) (i : Nat) : State :=
  forEach ((s.jobsOf false i).filter (fun j => j.phase == .ended)) s (fun j s =>
    match j.ends with
    | some e => s.decodeDone j e none
    | none => s.dropJob j.id)

/-- A stream being closed is destroyed when its last job has completed (Table 05-8). Once only pictures are left that wait for a
tick which no job can give them, their jobs complete. -/
def State.settleDec (s : State) (i : Nat) : State :=
  match s.dec i with
  | none => s
  | some d =>
    if d.st = .closing ∧ (s.jobsOf false i).all (fun j => j.phase == .ended) = true then
      let s1 := ((s.endWaiting i).clearStream i (fun _ => false)).unearmark d.pool d.fn d.reserved
      let s2 := s1.setDec i none
      match d.closer with
      | some n => s2.closeDone n (d.handle i)
      | none => s2
    else s

/-! ### Result records of encode streams (R190, R191) -/

/-- What a result record says of a rung. -/
structure RungOut where
  avgQp : Nat
  bytes : Nat
  damaged : Nat
  settled : Nat
  skipped : Nat
  packets : Nat
  cycles : Nat
  cpb : Nat
  rtpTs : Nat
deriving DecidableEq, Repr

/-- A rung that coded nothing. -/
def RungOut.none : RungOut := ⟨0, 0, 0, 0, 0, 0, 0, 0, 0⟩

/-- A set of cores as a byte. -/
def coreMask (l : List Nat) : Nat := l.foldl (fun n c => n + 2 ^ c) 0

/-- The result record of one rung (Table 06-11). -/
def State.rungRecord (s : State) (handle : Nat) (j : CodecJob) (st : Status) (flags rung : Nat) (o : RungOut) : List Byte :=
  leBytes 8 handle ++ leBytes 8 j.startedAt.toNat ++ leBytes 8 s.time.dts.toNat
    ++ leBytes 8 (Target.ref ⟨j.target.group, j.sourceTick⟩) ++ leBytes 2 j.seq.toNat ++ leBytes 1 st.code
    ++ leBytes 1 flags ++ leBytes 1 rung ++ leBytes 1 o.avgQp ++ leBytes 1 (coreMask j.cores) ++ leBytes 1 0
    ++ leBytes 4 o.bytes ++ leBytes 2 o.damaged ++ leBytes 2 o.settled ++ leBytes 2 o.skipped
    ++ leBytes 2 o.packets ++ leBytes 4 (min 0xFFFFFFFF o.cycles) ++ leBytes 4 o.cpb ++ leBytes 4 o.rtpTs

/-- A record goes into the next slot of its stream's ring; `lost` says that its write fails. -/
def State.recordSlot (s : State) (i : Nat) (mute lost : Bool) (b : List Byte) : State :=
  match s.enc i with
  | none => s
  | some e =>
    if e.resultAddr = 0 then s
    else
      let at_ := e.resultAddr + BitVec.ofNat 64 (64 * e.resultPos)
      (if lost || !reaches at_ 64 then s else s.muteWrite mute at_ b).setEnc i
        (some { e with resultPos := (e.resultPos + 1) % max 1 e.resultCount })

/-- A job of an encode stream has an earlier one that has not ended. -/
def State.hasEarlier (s : State) (i job : Nat) : Bool := (s.jobsOf true i).any (fun j => decide (j.id < job))

/-- The records of a job are written, in the order of the stream job sequence: those of a frame that ends before an earlier one of its
stream wait for it. -/
def State.putRecords (s : State) (i : Nat) (j : CodecJob) (lost : Bool) (l : List (List Byte)) : State :=
  if s.hasEarlier i j.id then
    match s.enc i with
    | some e => s.setEnc i (some { e with owed := e.owed ++ [⟨j.id, j.mute, l⟩] })
    | none => s
  else forEach l s (fun b s => s.recordSlot i j.mute lost b)

/-- Records that no earlier frame holds back any longer are written. -/
def State.flushOwed (s : State) (i : Nat) : State :=
  match s.enc i with
  | none => s
  | some e =>
    let held := fun (o : OwedRecords) => s.hasEarlier i o.job
    let s1 := s.setEnc i (some { e with owed := e.owed.filter held })
    forEach (e.owed.filter (fun o => !held o)) s1 (fun o s => forEach o.records s (fun b s => s.recordSlot i o.mute false b))

/-- Damage was carried into a job's frame on a rung (R169, R186). -/
def RungState.hasCarried (r : RungState) (j : CodecJob) : Bool := j.carried || r.carried != 0

/-- The records of a frame that was not coded, one for each rung; `lost` says that their write fails. -/
def State.blankRecords (s : State) (i : Nat) (j : CodecJob) (st : Status) (flags : Nat) (lost : Bool) : State :=
  match s.enc i with
  | none => s
  | some e => s.putRecords i j lost ((List.range e.ck.rungs.length).map (fun k =>
      s.rungRecord (e.handle i) j st (flags + 64 * b2n ((e.ck.rungs[k]?).any (fun r => r.hasCarried j))) k RungOut.none))

/-- The records of a frame that was not coded. -/
def State.emptyRecords (s : State) (i : Nat) (j : CodecJob) (st : Status) (flags : Nat) : State := s.blankRecords i j st flags false

/-- The records of a job of a stream cannot all be written. -/
def EncStream.recordsLost (e : EncStream) (j : CodecJob) (lost : Bool) : Bool :=
  e.resultAddr != 0 && !(j.mute && !isDevice e.resultAddr) && (lost || !reaches e.resultAddr (64 * e.resultCount))

/-- The DETAIL that a job whose records were lost reports (R191). -/
def State.lostDetail (s : State) (j : CodecJob) (lost : Bool) : Option Nat :=
  if (s.enc j.stream).any (fun e => e.recordsLost j lost) then some (256 * 0x20) else none

/-- For a sourced frame whose record was lost a fault is logged against its core (R191). -/
def State.lostFault (s : State) (j : CodecJob) (detail : Option Nat) : State :=
  match detail, j.origin with
  | some _, .flip => s.drawFree.2.coreFault (j.cores.headD 0) (s.drawFree.1 % 256) 0
  | _, _ => s

/-- After a job of an encode stream has ended: the records that waited for it are written, and a stream being closed is destroyed when
its last job has completed. -/
def State.settleEnc (s0 : State) (i : Nat) : State :=
  let s := s0.flushOwed i
  match s.enc i with
  | none => s
  | some e =>
    if e.st = .closing ∧ (s.jobsOf true i).isEmpty then
      let s1 := forEach e.ck.rungs (s.releaseEncRefs i) (fun r s => s.unearmark r.pool e.fn (e.nref + 1))
      let s2 := s1.setEnc i none
      match e.closer with
      | some n => s2.closeDone n (e.handle i)
      | none => s2
    else s

/-- A stream of a kind is settled after a job of it has ended. -/
def State.settleStream (s : State) (encode : Bool) (i : Nat) : State := if encode then s.settleEnc i else s.settleDec i

/-! ### Ends of jobs -/

/-- A job ends with a status and no result: its holdings are dropped, its function is charged the cycles it used, and its command
or channel learns of it. -/
def State.endIdle (s : State) (j : CodecJob) (st : Status) : State :=
  let used := s.runCycles j * j.cores.length
  let bare := s.bareEnd j st
  let s1 := ((s.countStopped j true).dropJob j.id).freeCoresOf j.id
  let s2 := s1.dropOpt j.frame
  let s3 := forEach j.recon s2 (fun b s => s.dropBuf b)
  let s4 := match j.encode, j.entry with
    | false, some n => s3.updEntry j.stream n (fun e => { e with decoding := false })
    | _, _ => s3
  let (fn, adm) := if j.encode then
      match s.enc j.stream with | some e => (e.fn, e.cycles) | none => (j.fn, 0)
    else match s.dec j.stream with | some d => (d.fn, d.cycles) | none => (j.fn, 0)
  let s5 := s4.charge fn used adm
  let lost := s5.lostDetail j false
  let s6 := if j.encode then (s5.lostFault j lost).jobDone j.origin st 0 0 lost else s5.decodeDone j bare none
  s6.settleStream j.encode j.stream

/-- An encode job is stopped or did not fit: the stream goes back to the checkpoint before it (R186). The blocks that its frame
damaged are carried into the next, on every rung; a stopped key frame sets KEY_NEXT. -/
def State.restoreEnc (s : State) (j : CodecJob) (key : Bool) : State :=
  match s.enc j.stream with
  | none => s
  | some e =>
    let e1 := e.updCk (fun c => { c with
      keyNext := c.keyNext || key || e.keyAfter
      rungs := c.rungs.map (fun r => { r with carried := Nat.lor r.carried (r.damageOf e.width e.height j.damage) }) })
    s.setEnc j.stream (some { e1 with keyAfter := false })

/-- A frame of an encode stream is a key frame (R182). -/
def EncStream.isKey (e : EncStream) (j : CodecJob) : Bool :=
  e.keyDue || e.ck.keyNext || j.flags.getLsbD 0 || (decide (0 < e.keyInterval) && decide (e.keyInterval ≤ e.ck.sinceKey + 1))

/-! ### Starting jobs (R156, R201 to R204) -/

/-- The number of cores for a picture: cycles of `a`/10 per pixel in half a period of a group (R159, R179). -/
def State.splitFor (s : State) (g : Fin 4) (w h a : Nat) : Nat :=
  ((List.range 4).find? (fun n => decide (w * h * a * 8 * (s.period g.val).2 ≤ 3 * (n + 1) * (s.period g.val).1))).getD 3 + 1

/-- Cores that may take a job: in service, idle, not reserved, not about to be gated, and with a header processor that is
not under debug halt (R325). -/
def State.idleCores (s : State) : List Nat :=
  (List.range 8).filter (fun c =>
    (s.core c).st == .inService && (s.core c).job.isNone && (s.core c).reserved.isNone && !s.pwr.gated.getLsbD c
      && !(s.wick.cores[c]?.any WickCore.halted))

/-- Reconstruction buffers for an encode job, one for each rung, from the pools of the rungs (R184). -/
def State.takeRecon (s : State) (o : Nat) : List Nat → List Nat × State
  | [] => ([], s)
  | p :: t =>
    match s.request p o with
    | (some b, s1) => let (l, s2) := s1.takeRecon o t; (b :: l, s2)
    | (none, s1) => ([], s1)

/-- A decode job may take a buffer for its picture, or has one; an encode job may take its reconstruction buffers. -/
def State.mayStart (s : State) (j : CodecJob) : Bool :=
  if j.encode then
    match s.enc j.stream with
    | some e => (s.takeRecon e.fn (e.ck.rungs.map RungState.pool)).1.length == e.ck.rungs.length
    | none => false
  else
    match s.dec j.stream with
    | some d => j.entry.isSome || (d.freeEntry.isSome && s.poolServes d.fn 16 d.pool)
    | none => false

/-- The buffers a job takes at its start: a picture buffer with DECODING, or reconstruction buffers. DISCONTINUITY
releases every reference first (R145). -/
def State.takeBuffers (s : State) (j : CodecJob) : State :=
  if j.encode then
    match s.enc j.stream with
    | some e =>
      let (l, s1) := s.takeRecon e.fn (e.ck.rungs.map RungState.pool)
      s1.updJob j.id (fun x => { x with recon := l })
    | none => s
  else if j.entry.isSome then s
  else
    let s0 := if j.flags.getLsbD 1 then s.releaseRefs j.stream else s
    match s0.dec j.stream with
    | none => s0
    | some d =>
      match d.freeEntry with
      | none => s0
      | some n =>
        match s0.request d.pool d.fn with
        | (none, s1) => s1
        | (some b, s1) =>
          let s2 := match s1.dec j.stream with
            | some d1 => s1.setDec j.stream (some { d1 with
                entries := setAt d1.entries n { PicEntry.free with buffer := some b, decoding := true } })
            | none => s1
          s2.updJob j.id (fun x => { x with entry := some n })

/-- The cores that ran the previous job of a job's stream (R203). -/
def State.lastCores (s : State) (j : CodecJob) : List Nat :=
  if j.encode then ((s.enc j.stream).map EncStream.lastCores).getD [] else ((s.dec j.stream).map DecStream.lastCores).getD []

/-- The cores of a job are those that its stream ran on last. -/
def State.keepCores (s : State) (j : CodecJob) (cs : List Nat) : State :=
  if j.encode then
    match s.enc j.stream with
    | some e => s.setEnc j.stream (some { e with lastCores := cs })
    | none => s
  else
    match s.dec j.stream with
    | some d => s.setDec j.stream (some { d with lastCores := cs })
    | none => s

/-- The share of part `k` of `n` (R160, R179): an encoded picture has n tile columns; a decoded one is divided by contiguous tile
columns, or tile rows where it has fewer than n columns, or by CTU rows where it has fewer than n tiles. -/
def partShare (encode : Bool) (x : Tiling) (n k : Nat) : PartShare :=
  if n ≤ 1 then .whole
  else if encode then .tileCols k (k + 1)
  else if x.cols * x.rows < n then .ctuRows k n
  else if n ≤ x.cols then .tileCols (k * x.cols / n) ((k + 1) * x.cols / n)
  else .tileRows (k * x.rows / n) ((k + 1) * x.rows / n)

/-- The cores of a job, lead first, begin to run it, each on its share; their sequencers start at address 0 (R212). -/
def State.runOn (s : State) (j : CodecJob) (x : Tiling) (cs : List Nat) : State :=
  let s1 := ((s.takeBuffers j).freeCoresOf j.id).keepCores j cs
  let s2 := forEach (List.range cs.length) s1 (fun k s =>
    let c := cs[k]?.getD 0
    s.setCore c { s.core c with
      job := some j.id, part := k, reserved := none, share := partShare j.encode x cs.length k, upc := 0, ustack := []
      ustopped := false })
  let woken := cs.foldl (fun (m : BitVec 8) c => m ||| (1 <<< c)) 0
  let s3 := { s2 with pwr.nightGated := s2.pwr.nightGated &&& ~~~woken }
  s3.updJob j.id (fun x => { x with
    phase := .running, cores := cs, startedAt := if x.redone then x.startedAt else s.time.dts, runAt := s.now })

/-- The parts of a job as A allows them: A stands for n once it is smaller (R204). -/
def State.partsNow (s : State) (n : Nat) : Nat := max 1 (min n s.coresUp)

/-- A job of `n` parts can be started, or can take another core. -/
def State.canPlace (s : State) (j : CodecJob) (n : Nat) : Bool :=
  !s.idleCores.isEmpty || (!j.cores.isEmpty && decide (s.partsNow n ≤ j.cores.length))

/-- Start a job of `n` parts on cores it holds and idle ones, or reserve what is idle until it has them all (R203, R204). A job of
one part goes to an idle core that ran its stream's previous job, else to the lowest. -/
def State.startJob (s : State) (j : CodecJob) (x : Tiling) (n : Nat) : State :=
  let idle := s.idleCores
  let n1 := s.partsNow n
  let have_ := j.cores ++ (if n1 = 1 then idle.filter (fun c => (s.lastCores j).contains c) else []) ++ idle
  if n1 ≤ have_.length then s.runOn j x (have_.take n1)
  else
    let s1 := forEach idle s (fun c s => s.setCore c { s.core c with reserved := some j.id })
    s1.updJob j.id (fun x => { x with cores := have_, parts := n1 })

/-- The class of a job's stream. -/
def State.jobClass (s : State) (j : CodecJob) : Nat :=
  if j.encode then ((s.enc j.stream).map EncStream.cls).getD 0 else ((s.dec j.stream).map DecStream.cls).getD 0
/-- The tenant a job's cycles are charged to. -/
def State.jobTenant (s : State) (j : CodecJob) : Nat :=
  if j.encode then ((s.enc j.stream).map EncStream.fn).getD 0 else ((s.dec j.stream).map DecStream.fn).getD 0
/-- The ring key of a job's stream. -/
def jobKey (j : CodecJob) : Nat := j.stream + 65536 * b2n j.encode
/-- The weight of a stream: ceil(frame rate / 60 Hz), 1 to 4 (R156). -/
def State.jobWeight (s : State) (j : CodecJob) : Nat :=
  let r := if j.encode then ((s.enc j.stream).map EncStream.rate).getD 0 else ((s.dec j.stream).map DecStream.rate).getD 0
  max 1 (min 4 (ceilDiv r 60000))
/-- The credit of a job's stream in its round. -/
def State.jobCredit (s : State) (j : CodecJob) : Nat :=
  if j.encode then ((s.enc j.stream).map EncStream.credit).getD 0 else ((s.dec j.stream).map DecStream.credit).getD 0
/-- Set the credit of a job's stream. -/
def State.setCredit (s : State) (j : CodecJob) (n : Nat) : State :=
  if j.encode then
    match s.enc j.stream with
    | some e => s.setEnc j.stream (some { e with credit := n })
    | none => s
  else
    match s.dec j.stream with
    | some d => s.setDec j.stream (some { d with credit := n })
    | none => s

/-- The oldest jobs of the streams whose oldest job waits, is eligible under R16, and may start: no earlier picture of
the stream is being decoded or coded. -/
def State.eligibleJobs (s : State) : List CodecJob :=
  s.codec.jobs.filter (fun j =>
    j.phase == .waiting && j.cores.isEmpty && s.isDue j.target && s.mayStart j &&
    (s.jobsOf j.encode j.stream).all (fun k => k.phase == .ended || decide (j.id ≤ k.id)))

/-- The selection of R156 among a list of jobs of one class. -/
def State.selectIn (s : State) (cls : Nat) (l : List CodecJob) : Option (CodecJob × State) :=
  let s1 := if l.any (fun j => decide (0 < s.jobCredit j)) then s
    else forEach l s (fun j s => s.setCredit j (s.jobWeight j))
  let pos := s1.codec.rr[cls]?.getD 0
  let ring := insertionSort (fun a b : CodecJob => decide (jobKey a ≤ jobKey b))
    (l.filter (fun j => decide (0 < s1.jobCredit j)))
  match ring.find? (fun j => decide (pos ≤ jobKey j)), ring with
  | some j, _ | none, j :: _ =>
    let s2 := s1.setCredit j (s1.jobCredit j - 1)
    some (j, { s2 with codec.rr := s2.codec.rr.setIfInBounds cls (jobKey j + 1) })
  | none, [] => none

/-- The job a core takes next: tenants without debt first, then the classes in order (R156, R202). -/
def State.select (s : State) : Option (CodecJob × State) :=
  let all := s.eligibleJobs
  let clear := all.filter (fun j => Table.get 0 s.codec.debt (s.jobTenant j) == 0)
  let pool := if clear.isEmpty then all else clear
  [0, 1, 2].findSome? (fun c => s.selectIn c (pool.filter (fun j => s.jobClass j == c)))

/-- Codec jobs start in this mode (Tables 05-12 and 06-12). -/
def State.codecRuns (s : State) : Bool := s.loaded && (s.pwr.mode.media || s.pwr.mode == .test)

/-- The number of parts of a job (R159, R179): of a picture to decode, as many as R159 gives for its size where it can be divided
so. `x`, `w` and `h` say of the picture that is started what its header says. -/
def State.partsOf (s : State) (j : CodecJob) (x : Tiling) (w h : Nat) : Nat :=
  if j.encode then ((s.enc j.stream).map EncStream.split).getD 1
  else
    let f := ((s.dec j.stream).map DecStream.format).getD 0
    let n := if f == 1 || f == 2 then s.splitFor j.target.group w h 4 else 1
    if n ≤ x.cols * x.rows ∨ (f = 1 ∧ x.sync = true) then n else 1

/-- CODEC_JOB_START: the next job takes its cores: redone jobs in their order of dispatch, split jobs that hold cores, jobs that
R156 selects (R203). -/
def State.codecStart (s : State) (x : Tiling) (w h : Nat) : State :=
  if !s.codecRuns then s
  else
    match s.codec.jobs.find? (fun j => j.phase == .redo && s.mayStart j && s.canPlace j (s.partsOf j x w h)) with
    | some j => s.startJob j x (s.partsOf j x w h)
    | none =>
      match s.codec.jobs.find? (fun j => j.phase == .waiting && !j.cores.isEmpty && s.canPlace j j.parts) with
      | some j => s.startJob j x j.parts
      | none =>
        if s.idleCores.isEmpty then s
        else
          match s.select with
          | some (j, t) => t.startJob j x (t.partsOf j x w h)
          | none => s

/-! ### Gating, loss and eviction (R205 to R210) -/

/-- A decode stream is evicted (R146, R208): its references go, its current picture stays, its unstarted jobs complete
with EVICTED. -/
def State.evictDec (s : State) (i : Nat) : State :=
  match s.dec i with
  | none => s
  | some d =>
    let s1 := s.setDec i (some { d with st := .evicted, evicted := true })
    let s2 := s1.updEntries i (fun n e => { e with
      refShort := false, refLong := false, outputPending := e.outputPending && d.current == some n })
    forEach ((s.jobsOf false i).filter (fun j => j.phase == .waiting || j.phase == .redo)) (s2.endWaiting i)
      (fun j s => s.endIdle j .evicted)

/-- An encode stream is evicted (R193). -/
def State.evictEnc (s : State) (i : Nat) : State :=
  match s.enc i with
  | none => s
  | some e =>
    let s1 := (s.setEnc i (some { e with st := .evicted, evicted := true })).releaseEncRefs i
    forEach ((s.jobsOf true i).filter (fun j => j.phase == .waiting || j.phase == .redo)) s1 (fun j s =>
      (s.emptyRecords i j .evicted 0).endIdle j .evicted)

/-- A stream that may be evicted, as (class, over its share, opened, encode, context). -/
abbrev Victim := Nat × Bool × Nat × Bool × Nat

/-- The streams that may be evicted. -/
def State.victims (s : State) : List Victim :=
  (s.decList.filter (fun e => e.2.st == .active)).map (fun e =>
      (e.2.cls, decide (s.decShareOf e.2.fn < s.decUse e.2.fn), e.2.opened, false, e.1))
    ++ (s.encList.filter (fun e => e.2.st == .active)).map (fun e =>
      (e.2.cls, decide (s.encShareOf e.2.fn < s.encUse e.2.fn), e.2.opened, true, e.1))

/-- Of two streams the one evicted first: class, over share, most recently opened (R208). -/
def victimFirst (a b : Victim) : Victim :=
  if a.1 ≠ b.1 then (if b.1 < a.1 then a else b)
  else if a.2.1 ≠ b.2.1 then (if a.2.1 then a else b)
  else if b.2.2.1 ≤ a.2.2.1 then a else b

/-- Evict streams until the units in use fit 3,000 × A (R208). -/
def State.evictLoop (s : State) : Nat → State
  | 0 => s
  | n + 1 =>
    if s.poolUnits ≤ 3000 * s.coresUp then s
    else
      match s.victims with
      | [] => s
      | h :: t =>
        let (_, _, _, e, i) := t.foldl victimFirst h
        let s1 := if e then s.evictEnc i else s.evictDec i
        ({ s1 with codec.evictions := BitVec.ofNat 16 (satInc 0xFFFF s1.codec.evictions.toNat) }.raise 104).evictLoop n

/-- Check the pool after A has fallen. -/
def State.evict (s : State) : State := s.evictLoop (s.decList.length + s.encList.length)

/-- A job that waits or is to be redone no longer holds a core that it was reserved (R204). -/
def State.unreserve (s : State) (c : Nat) : State :=
  { s with codec.jobs := s.codec.jobs.map (fun j : CodecJob =>
      if (j.phase == .waiting || j.phase == .redo) && j.cores.contains c then { j with cores := j.cores.filter (· != c) } else j) }

/-- A core that a cap gates is gated once it runs nothing (R210): A falls, and streams are evicted under R208. -/
def State.settleGate (s : State) (c : Nat) : State :=
  let x := s.core c
  if s.pwr.gated.getLsbD c && x.st == .inService && x.job.isNone then
    let t := (s.setCoreSt c .gated).unreserve c
    (t.setCore c { t.core c with reserved := none }).evict
  else s

/-- A job is stopped or ends without a result while cores run it: a core of its that is to be gated is gated now (R210). -/
def State.endRun (s : State) (j : CodecJob) (st : Status) : State := forEach j.cores (s.endIdle j st) (fun c s => s.settleGate c)

/-- A running job is lost with a core: its cores fall free, and it waits to be redone (R206). -/
def State.jobLost (s : State) (j : CodecJob) : State :=
  let t := forEach j.recon ((s.countStopped j false).freeCoresOf j.id) (fun b s => s.dropBuf b)
  t.updJob j.id (fun k => { k with phase := .redo, redone := true, cores := [], recon := [], budgetAbort := false })

/-- A core leaves service: its jobs are to be redone, its reservations end, and streams are evicted before any redone job is
placed (R205, R206, R208). CDC_REDONE counts the jobs that the eviction leaves to be redone; the other cores of a split job may
now be gated. -/
def State.coreLeaves (s : State) (c : Nat) (st : CoreSt) : State :=
  let jobs := s.codec.jobs.filter (fun j => j.phase == .running && j.cores.contains c)
  let s1 := forEach jobs s (fun j s => s.jobLost j)
  let s2 := s1.setCoreSt c st
  let s3 := (s2.setCore c { s2.core c with job := none, reserved := none, ustopped := true }).unreserve c
  let s4 := ({ s3 with codec.returning := s3.codec.returning &&& ~~~((1 : BitVec 8) <<< c) }).evict
  let kept := jobs.filter (fun j => (s4.job j.id).isSome)
  let s5 := s4.setCore c { s4.core c with
    redone := BitVec.ofNat 16 (kept.foldl (fun n _ => satInc 0xFFFF n) (s4.core c).redone.toNat) }
  forEach (jobs.flatMap CodecJob.cores) s5 (fun k s => if k = c then s else s.settleGate k)

/-- An encode job is stopped at its tick under DISCARD (R48, R186). -/
def State.stopEnc (s : State) (j : CodecJob) : State :=
  match s.enc j.stream with
  | none => s
  | some e =>
    let s1 := s.restoreEnc j (e.isKey j)
    let s2 := s1.emptyRecords j.stream j .deadlineMissed (2 * b2n j.redone)
    s2.endRun j .deadlineMissed

/-- The overrun policy of a job's stream: RETARGET. -/
def State.jobRetargets (s : State) (j : CodecJob) : Bool :=
  if j.encode then ((s.enc j.stream).map EncStream.retarget).getD false
  else ((s.dec j.stream).map DecStream.retarget).getD false

/-- A missing job adds one to the counts of its stream and its function (R49). -/
def State.countMiss (s : State) (j : CodecJob) : State :=
  if j.uncounted then s
  else
    let s1 := if j.encode then
        match s.enc j.stream with
        | some e => s.setEnc j.stream (some { e with overruns := incWord e.overruns })
        | none => s
      else
        match s.dec j.stream with
        | some d => s.setDec j.stream (some { d with overruns := incWord d.overruns })
        | none => s
    s1.overrun j.fn

/-- A job misses its tick (R48): a decode job under DISCARD runs on unseen, an encode job under DISCARD is stopped,
and under RETARGET either runs on. -/
def State.missJob (s : State) (j : CodecJob) : State :=
  let s1 := s.countMiss j
  if s.jobRetargets j then s1.updJob j.id (fun x => { x with missed := true, uncounted := false })
  else if j.encode then s1.stopEnc j
  else s1.updJob j.id (fun x => { x with missed := true, discarded := true, uncounted := false })

/-- A job's target tick has passed: a job redone once is given the next tick, uncounted (R207); any other one has missed. -/
def State.graceOrMiss (s : State) (j : CodecJob) (next : Int) : State :=
  if j.redone ∧ j.target.tick = j.firstTarget then s.updJob j.id (fun x => { x with target := { x.target with tick := next } })
  else s.missJob j

/-- A frame of a sourced stream under RETARGET that waits to start: the next flip replaces it (R169). -/
def State.replaceable (s : State) (j : CodecJob) : Bool := j.phase == .waiting && j.origin == .flip && s.jobRetargets j

/-- Tick `k` of a group: its codec jobs that have not completed miss it (R48, R207). Frames that a flip of this tick may replace, and
which are then not counted (R169), are judged after the flips (`flips`). -/
def State.missCodec (s : State) (g : Fin 4) (k : Int) (flips : Bool) : State :=
  if s.pwr.mode = .standby then s
  else forEach (s.codec.jobs.filter (fun j => decide (j.target.group = g) && decide (j.target.tick = k) && !j.missed
      && j.phase != .ended && s.replaceable j == flips)) s (fun j s => s.graceOrMiss j (k + 1))

/-- STANDBY ends: jobs whose target tick has passed have missed (Table 05-12). -/
def State.missPassed (s : State) : State :=
  forEach (s.codec.jobs.filter (fun j => s.isPast j.target && !j.missed && j.phase != .ended)) s
    (fun j s => s.graceOrMiss j (s.nextTick j.target.group))

/-- Cores that return to service do so at a tick of group A (R209). -/
def State.coresReturn (s : State) : State :=
  let s1 := forEach (List.range 8) s (fun c s =>
    if s.codec.returning.getLsbD c then (s.setCoreSt c .inService).settleGate c else s)
  { s1 with codec.returning := 0 }

/-- A core is to return to service (R209). -/
def State.coreReturns (s : State) (c : Nat) : State :=
  { s with codec.returning := s.codec.returning ||| (1 <<< c) }

/-- A core has a loaded microcode: its stores from the verified copy (R216). -/
def State.loadCore (s : State) (c : Nat) : State :=
  let y := s.codec
  s.setCore c { s.core c with
    mcBase := y.copyBase, mcPatch := y.copyPatch, patchRej := y.copyRej, baseSlot := y.copyBaseSlot
    patchSlot := y.copyPatchSlot, microStore := y.copyMicro, nanoStore := y.copyNano, badParity := [], ustopped := true }

/-! ### The end of a decode job (R139 to R155) -/

/-- A decode job that has ended completes, and its stream is settled. -/
def State.completeDecode (s : State) (j : CodecJob) (tick : Option Int) : State :=
  match j.ends with
  | none => s
  | some e => (s.decodeDone j e tick).settleDec j.stream

/-- The job whose picture waits in an entry for its presentation tick. -/
def State.awaiting (s : State) (i n : Nat) : Option CodecJob :=
  (s.jobsOf false i).find? (fun j => j.phase == .ended && j.entry == some n)

/-- A picture is skipped: it is never presented (R142). -/
def State.skipPicture (s : State) (i n : Nat) : State :=
  let s1 := s.updEntry i n (fun e => { e with outputPending := false })
  let s2 := match s1.dec i with
    | some d => s1.setDec i (some { d with skipped := incWord d.skipped })
    | none => s1
  match s2.awaiting i n with
  | some j => s2.completeDecode j none
  | none => s2

/-- A picture receives its presentation tick: an earlier one with the same tick is skipped (R141, R142). -/
def State.present (s : State) (i n : Nat) (k : Int) : State :=
  match s.dec i with
  | none => s
  | some d =>
    let same := (List.range 24).filter (fun m => m != n && (d.entry m).outputPending && (d.entry m).presTick == some k)
    let s1 := forEach same s (fun m s => s.skipPicture i m)
    let s2 := s1.updEntry i n (fun e => { e with presTick := some k, outputPending := true })
    match s2.awaiting i n with
    | some j => s2.completeDecode j (some k)
    | none => s2

/-- Tick `k` of a group: of each stream's pictures whose tick has come, the latest becomes current, and the others are
no longer pending (R141 to R143). -/
def State.presentTick (s : State) (g : Fin 4) (k : Int) : State :=
  forEach (s.decList.filter (fun e => decide (e.2.group = g))) s (fun e s =>
    match s.dec e.1 with
    | none => s
    | some d =>
      let due := (List.range 24).filter (fun n =>
        (d.entry n).outputPending && (match (d.entry n).presTick with | some t => decide (t ≤ k) | none => false))
      let best := due.foldl (fun b n => match b with
        | none => some n
        | some m => if ((d.entry m).presTick.getD 0) < ((d.entry n).presTick.getD 0) then some n else some m) none
      match best with
      | none => s
      | some n =>
        let s1 := s.setDec e.1 (some { d with current := some n })
        forEach (due.filter (· != n)) s1 (fun m s => s.updEntry e.1 m (fun x => { x with outputPending := false })))

/-- The picture of a stream for an instant: the latest that has ended and is due by then (R143). -/
def State.pictureAt (s : State) (i : Nat) (t : Int) : Option Nat :=
  match s.dec i with
  | none => none
  | some d =>
    let due := (List.range 24).filter (fun n => (d.entry n).outputPending && (d.entry n).ended &&
      (match (d.entry n).presTick with | some k => decide (s.tickTime d.group.val k ≤ t) | none => false))
    due.foldl (fun b n => match b with
      | none => some n
      | some m => if ((d.entry m).presTick.getD 0) < ((d.entry n).presTick.getD 0) then some n else some m) none

/-- Pictures that wait for a presentation tick, in output order. -/
def State.waitingPictures (s : State) (i : Nat) : List Nat :=
  match s.dec i with
  | none => []
  | some d =>
    insertionSort (fun a b => decide ((d.entry a).order.toInt ≤ (d.entry b).order.toInt))
      ((List.range 24).filter (fun n => (d.entry n).outputPending && (d.entry n).presTick.isNone && (d.entry n).ended))

/-- Present a list of pictures, one per tick. -/
def State.presentFrom (s : State) (i : Nat) : List Nat → Int → State
  | [], _ => s
  | n :: t, k => (s.present i n k).presentFrom i t (k + 1)

/-- Present at one tick the last of the pictures that a job releases for output; the earlier ones are skipped (R142). -/
def State.presentLast (s : State) (i : Nat) : List Nat → Int → State
  | [], _ => s
  | [n], k => s.present i n k
  | n :: t, k => (s.skipPicture i n).presentLast i t k

/-- The status of a decode job that has run, by the order of R152. -/
def decodeStatus (evicted refused poisoned discarded redone concealed : Bool) : Status :=
  if evicted then .evicted else if refused then .dataError else if poisoned then .mediaError
  else if discarded then .deadlineMissed else if redone then .okRedone else if concealed then .okConcealed else .ok

/-- The window of a buffer. -/
def State.bufWindow (s : State) (b : Nat) : Nat × Nat := (s.bufAddr b, 2 ^ s.poolClass (bufPool b))

/-- Count a job that has ended on its cores: each counts an equal part of its cycles, the lead core what is left of them (R218; how
the parts share them is a DESIGN CHOICE, assumption 36). -/
def State.countJob (s : State) (j : CodecJob) (cycles : Nat) : State :=
  let n := j.cores.length
  let s1 := forEach j.cores s (fun c s =>
    let x := s.core c
    let mine := cycles / max 1 n + (if j.cores.head? = some c then cycles % max 1 n else 0)
    s.setCore c { x with jobs := incWord x.jobs, cycles := x.cycles + BitVec.ofNat 64 mine, ustopped := true })
  forEach j.cores (s1.freeCoresOf j.id) (fun c s => s.settleGate c)

/-- A second buffer for the display copy of a picture with film grain (R140). -/
def State.grainCopy (s : State) (i : Nat) : Option (Nat × State) :=
  match s.dec i with
  | none => none
  | some d =>
    match d.freeEntry with
    | none => none
    | some m =>
      if s.poolServes d.fn 16 d.pool then
        match s.request d.pool d.fn with
        | (some b, t) =>
          match t.dec i with
          | some d1 => some (m, t.setDec i (some { d1 with
              entries := setAt d1.entries m { PicEntry.free with buffer := some b, decoding := true } }))
          | none => none
        | (none, _) => none
      else none

/-! ### Parameter sets (R129, R130, R133) -/

/-- A parameter set is refused: UNSUPPORTED, or OVER_DECLARED where it declares more than the stream. -/
def DecStream.setRefused (d : DecStream) (x : PicSet) : Option Nat :=
  if x.unsupported then some 6
  else if d.width < x.width ∨ d.height < x.height ∨ (x.tenBit && !d.tenBit) = true then some 7
  else none

/-- A stream with the parameter sets of an access unit: each replaces the one of its identifier. -/
def DecStream.addSets (d : DecStream) (l : List PicSet) : DecStream :=
  { d with sets := l.foldl (fun a x => a.filter (fun y => y.id != x.id) ++ [x]) d.sets }

/-- Why an access unit yields no picture, with its error kind: a refused parameter set that it carries or that its picture refers
to, a header that declares more than the stream, or a set that has not been received. `d` holds the sets received by now. -/
def DecStream.refuses (d : DecStream) (p : PicFacts) : Option Nat :=
  match p.sets.findSome? d.setRefused with
  | some k => some k
  | none =>
    if p.outcome == .picture || p.outcome == .unparsed then
      match p.refers.findSome? (fun r => match d.sets.find? (fun x => x.id == r) with
        | some x => d.setRefused x
        | none => some 2) with
      | some k => some k
      | none =>
        if p.outcome == .unparsed then some (max 1 p.headErr.val)
        else d.setRefused ⟨0, false, p.width, p.height, p.tenBit⟩
    else none

/-- The attributes of a decoded picture. A JPEG image is shown whole, in full range with the BT.601 matrix (R132); a picture whose
stream signals no colour description is tagged BT.709 in limited range (R144). -/
def PicEntry.describe (e : PicEntry) (format : Nat) (p : PicFacts) (concealed : Bool) : PicEntry :=
  let jpeg := format == 3
  { e with
    ended := true, order := p.order, cropXy := if jpeg then 0 else p.cropXy
    cropWh := if jpeg then BitVec.ofNat 32 (p.width + 65536 * p.height) else p.cropWh
    colour := if jpeg then [1, 1, 6, 1] else match p.colour with
      | some l => padTo 4 l
      | none => [1, 1, 1, 0]
    concealed := concealed, tenBit := p.tenBit, width := p.width, height := p.height }

/-- The marking that a picture causes on the other entries (R139), and POISONED on those whose poison it met (R153). -/
def PicEntry.marked (e : PicEntry) (p : PicFacts) (poisoned : List Nat) (k : Nat) : PicEntry :=
  let e1 := if p.released.any (fun x => x.val == k) then { e with refShort := false, refLong := false } else e
  let e2 := if p.converted.any (fun x => x.val == k) && e1.refShort then { e1 with refShort := false, refLong := true } else e1
  if poisoned.contains k then { e2 with poisoned := true } else e2

/-- What the end of a decode job is about: the job and its stream, the entry of its picture and that of a display copy (R140), the
tick at which it presents, and whether it presents at all (R48, R142, R145). -/
structure Ending where
  job : CodecJob
  dec : DecStream
  entry : Nat
  copy : Option Nat
  tick : Int
  discarded : Bool
  mayShow : Bool
deriving DecidableEq, Repr

/-- What is settled of a decode job as its picture ends. A stream under RETARGET whose job has missed presents no later than three
ticks after the job's first target (R48); a redone job within its grace has not missed (R207). -/
def State.ending (s : State) (j : CodecJob) (d : DecStream) (n : Nat) (m : Option Nat) : Ending :=
  let now := s.nextTick j.target.group
  let past := s.isPast j.target
  let tick := if past then now else j.target.tick
  let discarded := j.discarded || (d.retarget && past && j.missed && decide (j.firstTarget + 3 < tick))
  ⟨j, d, n, m, tick, discarded, !discarded && !j.flags.getLsbD 2 && !d.evicted⟩

/-- A decode job has ended on its cores: its stream's counts, its cores' counts, its function's debt, and what it will report. -/
def State.decodeRan (s : State) (x : Ending) (p : PicFacts) (picture : Bool) (status : Status) (v : Shown) (methods flags used
    budget : Nat) : State :=
  let j := x.job
  let d := x.dec
  let r1 := min 0xFFFF v.count + 65536 * v.err
  let tail := recordTail j (if picture then p.picType.val else 4) flags (coreMask j.cores) methods v.err v.count
    (if picture then picBlocks p else 0) v.errPos used budget (if picture then p.order.toNat else 0)
  let ends : JobEnd := ⟨status, r1, j.recordDetail p.statusLost, recordHead (d.handle j.stream) j s.time.dts, tail⟩
  let s1 := match s.dec j.stream with
    | some y => s.setDec j.stream (some { y with
        decoded := if picture then incWord y.decoded else y.decoded
        concealed := BitVec.ofNat 32 (satAdd 0xFFFFFFFF y.concealed.toNat v.count)
        curW := if picture then p.width else y.curW, curH := if picture then p.height else y.curH })
    | none => s
  ((s1.updJob j.id (fun _ => { j with phase := .ended, ends := some ends, entry := some (x.copy.getD x.entry) })).countJob j
    used).charge d.fn used d.cycles

/-- END_OF_STREAM presents every picture that waits, one per tick, and releases every reference (R145); `last` is a frame that the
job shows again. -/
def State.bumpAll (s : State) (x : Ending) (last : List Nat) : State :=
  (s.presentFrom x.job.stream (s.waitingPictures x.job.stream ++ last) x.tick).releaseRefs x.job.stream

/-- A job whose own picture is never presented completes now. -/
def State.endUnshown (s : State) (j : CodecJob) : State :=
  match s.job j.id with
  | some x => if x.phase == .ended then s.completeDecode x none else s
  | none => s

/-- A decode job ends without a picture: parameter sets only, or a unit that is refused or has no header that can be parsed, which is
concealed whole yet presents nothing (R129, R130, R150, Table 05-10; assumption 36). -/
def State.endNoPicture (s : State) (x : Ending) (p : PicFacts) (refused : Option Nat) : State :=
  let j := x.job
  let base := ((x.dec.entry x.entry).buffer.map s.bufAddr).getD 0
  let size := if x.dec.curW = 0 then (x.dec.width, x.dec.height) else (x.dec.curW, x.dec.curH)
  let q := { p with
    width := size.1, height := size.2, tenBit := x.dec.tenBit, picType := 0, slices := [], refs := [], samples := [], raw := [] }
  let whole := p.outcome == .unparsed || refused == some 2
  let v := if whole then s.judge x.dec x.entry q (s.scan j x.dec q 0 0) [] else ⟨[], 0, 0, 0⟩
  let w : Shown := ⟨v.conceal, v.count, refused.getD 0, 0xFFFFFFFF⟩
  let near := nearestRef x.dec.entries x.entry q.order
  let s1 := s.concealBlocks base q near v.conceal
  let s2 := s1.updEntry j.stream x.entry (fun e => { e with decoding := false })
  let used := s.stretched (j.cores.headD 0) (p.headCycles + p.concealCycles)
  let methods := 2 * b2n (v.conceal.any (fun c => c.2 == .copy)) + 4 * b2n (v.conceal.any (fun c => c.2 == .grey))
  let flags := 4 * b2n (decide (0 < v.count)) + 16 * b2n j.redone + 64 * b2n (decide (1 < j.cores.length))
  let status := if refused.isSome then Status.dataError else if x.discarded then .deadlineMissed else if j.redone then .okRedone else .ok
  let s3 := s2.decodeRan x p false status w methods flags used 0
  let s4 := if j.flags.getLsbD 0 && !x.dec.evicted then s3.bumpAll x [] else s3
  s4.endUnshown j

/-- A temporal unit that shows an existing frame only presents it again, with grain as a new display copy (R140, Table 05-10). -/
def State.endExisting (s : State) (x : Ending) (p : PicFacts) (e : Nat) : State :=
  let j := x.job
  let i := j.stream
  let old := x.dec.entry e
  let s1 := s.updEntry i x.entry (fun e => { e with decoding := false })
  let s2 := match x.copy with
    | none => s1
    | some m =>
      let base := (((s1.dec i).bind (fun y : DecStream => (y.entry m).buffer)).map s1.bufAddr).getD 0
      let win := (base, pictureBytes old.width old.height old.tenBit)
      let q := { p with width := old.width, height := old.height, tenBit := old.tenBit }
      (s1.pictureWrites [win] (runWrites q base p.grainy)).updEntry i m (fun y => { old with
        buffer := y.buffer, decoding := false, refShort := false, refLong := false, outputPending := x.mayShow, holders := y.holders
        grain := true, presTick := none })
  let used := s.stretched (j.cores.headD 0) p.headCycles
  let flags := 2 * b2n x.mayShow + 16 * b2n j.redone + 32 * b2n x.copy.isSome
  let status := if x.discarded then Status.deadlineMissed else if j.redone then .okRedone else .ok
  let s3 := s2.decodeRan { x with entry := e } p false status ⟨[], 0, 0, 0xFFFFFFFF⟩ 0 flags used 0
  let show_ := if x.mayShow && old.buffer.isSome then [x.copy.getD e] else []
  let s4 := if j.flags.getLsbD 0 && !x.dec.evicted then s3.bumpAll x show_ else s3.presentLast i show_ x.tick
  s4.endUnshown j

/-- The picture of a decode job ends: its slices have been decoded and its lost blocks concealed, its marking takes effect, its
presentation is fixed, its record and completion are prepared (R139, R141, R145, R147 to R153). -/
def State.endPicture (s : State) (x : Ending) (p : PicFacts) : State :=
  let j := x.job
  let d := x.dec
  let i := j.stream
  let n := x.entry
  let core := j.cores.headD 0
  let bufOf := fun (s : State) (k : Nat) => ((s.dec i).bind (fun y : DecStream => (y.entry k).buffer)).toList
  let base := ((d.entry n).buffer.map s.bufAddr).getD 0
  let copyBase := ((x.copy.bind (fun m => (bufOf s m).head?)).map s.bufAddr).getD 0
  let wins := (bufOf s n ++ (match x.copy with | some m => bufOf s m | none => [])).map s.bufWindow
  let budget := frameBudget d.format p.width p.height p.coded
  let a := s.scan j d p (2 * budget) core
  let runs := if d.format = 3 then jpegRuns p else p.samples
  let writes := runWrites p base runs ++ (if x.copy.isSome then runWrites p copyBase p.grainy else []) ++ p.raw
  let stray := strayWrites wins writes
  let v := s.judge d n p a stray
  let concealed := decide (0 < v.count) || a.aborted
  let shown := p.forOutput && x.mayShow
  -- reads, writes, concealment
  let s1 := (s.scanReads j a).pictureWrites wins writes
  let s2 := forEach stray s1 (fun w s => s.coreFault core 1 w.2)
  let s3 := s2.concealBlocks base p (nearestRef d.entries n p.order) v.conceal
  -- marks
  let live := !d.evicted
  let s4 := (s3.updEntries i (fun k e => if k = n then e else e.marked p a.poisonedRefs k)).updEntry i n (fun e =>
    { e.describe d.format p concealed with
      decoding := false, refShort := live && p.refKind == 1, refLong := live && p.refKind == 2
      outputPending := shown && x.copy.isNone })
  let s5 := match x.copy with
    | some m => s4.updEntry i m (fun e =>
        { e.describe d.format p concealed with decoding := false, grain := true, outputPending := shown })
    | none => s4
  -- the job's end
  let status := decodeStatus false false a.media x.discarded j.redone concealed
  let flags := b2n (p.refKind != 0) + 2 * b2n shown + 4 * b2n (decide (0 < v.count)) + 8 * b2n a.aborted + 16 * b2n j.redone
    + 32 * b2n x.copy.isSome + 64 * b2n (decide (1 < j.cores.length)) + 128 * b2n p.randomAccess
  let has := fun (c : Conceal) => v.conceal.any (fun b => b.2 == c)
  let methods := b2n (has .motion) + 2 * b2n (has .copy) + 4 * b2n (has .grey)
  let used := if a.aborted then 2 * budget + p.concealCycles else s.stretched core (a.cycles + p.concealCycles)
  let s6 := s5.decodeRan x p true status v methods flags used budget
  -- presentation
  let out := p.outputs.filterMap (fun h => match h with
    | none => if shown then some (x.copy.getD n) else none
    | some e => if ((s6.dec i).map (fun y => (y.entry e.val).outputPending)).getD false then some e.val else none)
  let s7 := if j.flags.getLsbD 0 && live then s6.bumpAll x [] else s6.presentLast i out x.tick
  if shown then s7 else s7.endUnshown j

/-- A decode job ends: `m` is the display copy of a picture with film grain. -/
def State.decodeEnd (s : State) (j : CodecJob) (d : DecStream) (p : PicFacts) (n : Nat) (m : Option Nat) : State :=
  let d1 := d.addSets p.sets
  let s1 := match s.dec j.stream with
    | some y => s.setDec j.stream (some { y with sets := d1.sets })
    | none => s
  let x := s1.ending j d1 n m
  match d1.refuses p, p.outcome with
  | some k, _ => s1.endNoPicture x p (some k)
  | none, .showExisting e => s1.endExisting x p e.val
  | none, .picture => s1.endPicture x p
  | none, _ => s1.endNoPicture x p none

/-- PICTURE_END: the picture that a core leads, or takes part in, ends. The event stands for the end of all parts of a
split picture. -/
def State.pictureEnd (s : State) (c : Nat) (p : PicFacts) : State :=
  match (s.core c).job.bind s.job with
  | none => s
  | some j =>
    match j.encode, j.phase, s.dec j.stream, j.entry with
    | false, .running, some d, some n =>
      if !s.loaded then s
      else if p.grain && (p.forOutput || p.outcome != .picture) && !j.flags.getLsbD 2 && ((d.addSets p.sets).refuses p).isNone then
        match s.grainCopy j.stream with
        | some (m, t) => t.decodeEnd j d p n (some m)
        | none => s
      else s.decodeEnd j d p n none
    | _, _, _, _ => s

/-- BUDGET_ABORT: a picture reaches twice its budget; every part of it stops (R149, R161). -/
def State.budgetAbort (s : State) (c : Nat) : State :=
  match (s.core c).job.bind s.job with
  | some j =>
    if !j.encode && s.loaded then
      (forEach j.cores s (fun k s => s.setCore k { s.core k with ustopped := true })).updJob j.id (fun x => { x with budgetAbort := true })
    else s
  | none => s

/-! ### The reference-pool descriptor (R136) -/

/-- The code of a stream's state (Table 05-8). -/
def StreamSt.code : StreamSt → Nat
  | .active => 1 | .evicted => 2 | .closing => 3

/-- An entry of the descriptor (Table 05-4). COUNT is the buffer's reference count. -/
def State.entryBytes (s : State) (e : PicEntry) : List Byte :=
  let count := (e.buffer.bind (fun b => (Table.get .none s.pool.bufs b).map Buf.count)).getD 0
  let marks := b2n e.decoding + 2 * b2n e.refShort + 4 * b2n e.refLong + 8 * b2n e.outputPending + 16 * b2n (decide (0 < e.holders))
  leBytes 8 ((e.buffer.map s.bufAddr).getD 0) ++ leBytes 1 marks
    ++ leBytes 1 (b2n e.concealed + 2 * b2n e.poisoned + 4 * b2n e.grain + 8 * b2n e.tenBit) ++ leBytes 2 count
    ++ leBytes 4 e.order.toNat ++ leBytes 4 e.cropXy.toNat ++ leBytes 4 e.cropWh.toNat ++ padTo 4 e.colour
    ++ leBytes 4 (match e.presTick with | some k => (tick62 k).toNat % 2 ^ 32 | none => 0xFFFFFFFF)

/-- The reference-pool descriptor that firmware keeps of a decode stream (Tables 05-3 and 05-4): 64 bytes, then 24 entries of 32.
Its address in the firmware region is not given, so it is a view of the stream's state. -/
def State.descriptor (s : State) (i : Nat) : List Byte :=
  match s.dec i with
  | none => []
  | some d =>
    let cur := (d.current.bind (fun n => (d.entry n).presTick)).map (fun k => Target.ref ⟨d.group, k⟩)
    leBytes 8 (d.handle i) ++ leBytes 1 d.format ++ leBytes 1 d.st.code
      ++ leBytes 1 (d.entries.filter (fun e => e.buffer.isSome)).length ++ leBytes 1 d.dpbMax ++ leBytes 2 d.seqNext.toNat ++ leBytes 2 0
      ++ leBytes 8 (cur.getD (2 ^ 64 - 1)) ++ leBytes 4 (d.curW + 65536 * d.curH) ++ leBytes 4 d.concealed.toNat
      ++ leBytes 4 d.skipped.toNat ++ leBytes 4 d.decoded.toNat ++ leBytes 24 0
      ++ (List.range 24).flatMap (fun n => s.entryBytes (d.entry n))

/-! ### The end of an encode job (R172 to R192) -/

/-- What a rung of a frame came to: the rung before it, the facts, its codings with the last one first, its units with filler, the
result record's figures, and the rung's state for the next checkpoint. -/
structure RungEnd where
  before : RungState
  facts : RungFacts
  codings : List Coded
  units : List (CodedUnit × List Byte)
  out : RungOut
  after : RungState
deriving DecidableEq, Repr

/-- The coding that stands. -/
def RungEnd.last (x : RungEnd) : Option Coded := x.codings.head?
/-- The bytes of a rung's bitstream. -/
def RungEnd.bytes (e : EncStream) (x : RungEnd) : List Byte := byteStream e.format x.units
/-- The RTP payloads of a rung (Table 06-10): with its headers no packet is above PKT_MAX. -/
def RungEnd.payloads (e : EncStream) (key : Bool) (x : RungEnd) : List (List Byte) :=
  if x.before.sink.isSome then rtpPayloads e.format (x.before.pktMax - x.before.hdr.length) key x.units else []
/-- A key frame that cannot conform at QP_MAX is emitted all the same (R183). -/
def RungEnd.breach (key : Bool) (x : RungEnd) : Bool := key && x.last.any (fun c => !c.fits)

/-- What coding a rung gives, `vectors` being what its search found and `recon` where its reconstruction stands. -/
def rungEnd (e : EncStream) (r : RungState) (f : RungFacts) (t : RungTask) (l : List Coded) (vectors : List Motion) (tick : Int)
    (recon ts : Nat) : RungEnd :=
  let c := (l.head?.map Coded.coding).getD ⟨r.settle, r.dmgQp, 0, [], []⟩
  let plan := e.plan r t
  let x := f.codings.getD (l.length - 1) ⟨0, [], [], [], []⟩
  let frame := x.head ++ tileBytes e.format ((List.range e.split).map (fun k => x.tiles.getD k []))
  let bare := unitBits e.format (unitBytes e.format frame (plan.units ++ plan.last) f.bodies)
  let fill := match plan.hrd with
    | some h => fillerFor e.format (h.fillerBits r.cpb.toNat t.num t.den bare)
    | none => []
  let units := unitBytes e.format frame (plan.units ++ fill ++ plan.last) f.bodies
  let bits := unitBits e.format units
  let cpb := match plan.hrd with
    | some h => h.before r.cpb.toNat t.num t.den - bits
    | none => 0
  let n := if r.sink.isSome then (rtpPayloads e.format (r.pktMax - r.hdr.length) t.key units).length else 0
  let err : Int := if e.rcMode = 2 then 0 else bits - e.target r t.num t.den f.target
  { before := r, facts := f, codings := l, units := units
    out := ⟨c.averageQp f.avgQp.toNat, bits / 8, c.damaged, c.count .settle, c.count .skip, n,
      l.foldl (fun n k => n + k.coding.cycles) 0, cpb, if r.sink.isSome then ts else 0⟩
    after := { r with
      cpb := BitVec.ofNat 32 cpb, rcQ := f.rcQ, rcErr := r.rcErr + BitVec.ofInt 64 err, settle := c.settle, dmgQp := c.dmgQp
      carried := 0, refs := if t.key then [recon] else (recon :: r.refs).take e.nref
      refTicks := if t.key then [tick] else (tick :: r.refTicks).take e.nref, vectors := vectors, units := units.map Prod.fst
      rtpSeq := r.rtpSeq + BitVec.ofNat 16 n, ipId := r.ipId + BitVec.ofNat 16 n } }

/-- The RTP timestamp of a job's frame. -/
def State.jobStamp (s : State) (j : CodecJob) : Nat := rtpStamp (s.tickTime j.target.group.val j.sourceTick)

/-- The task of a job's frame. -/
def State.rungTask (s : State) (j : CodecJob) (e : EncStream) : RungTask :=
  let (a, b) := s.grpRate e.group.val
  ⟨e.isKey j, j.damage, a, b, j.flags.getLsbD 1, j.colour⟩

/-- The luma of a job's source frame: in the buffer it holds, in device space, or in host space as the facts give it. -/
def State.sourceLuma (s : State) (j : CodecJob) (e : EncStream) (x : EncFacts) : Luma :=
  match j.frame with
  | some b => s.luma (s.bufAddr b) e.width e.height e.tenBit
  | none =>
    if isDevice j.addr then s.luma (spaceOff j.addr) e.width e.height e.tenBit
    else padded e.width e.height (fun u v => (runSample x.host 0 u v).getD 0)

/-- The search of a rung: its source scaled from the top rung's (R178), its references with their temporal distances, and the columns
already refreshed in the cycle (R182). -/
def State.searchOn (s : State) (j : CodecJob) (e : EncStream) (x : EncFacts) (r : RungState) : Search :=
  { width := r.width, height := r.height, format := e.format, range := verticalRange e.format e.level
    source := scaledLuma e.width e.height r.width r.height (s.sourceLuma j e x)
    refs := (List.range r.refs.length).map (fun k =>
      (s.luma (r.refs.getD k 0) r.width r.height e.tenBit, j.sourceTick - r.refTicks.getD k 0))
    clean := e.ck.refreshPos.map (fun q => q * ceilDiv r.width 64 / max 1 e.refreshFrames), previous := r.vectors }

/-- The DAMAGED blocks of a coding with their QPs. -/
def searched (l : List Coded) : List (Nat × Nat) :=
  match l with
  | [] => []
  | c :: _ => (c.coding.blocks.filter (fun b => b.2.1 == .damaged)).map (fun b => (b.1, b.2.2))

/-- The candidates that the facts give for a block. -/
def givenVecs (f : RungFacts) (b : Nat) : List Vec :=
  (f.candidates.filter (fun c => c.1 == b)).flatMap (fun c => c.2.map (fun v => (⟨v.1, v.2⟩ : Vec)))

/-- What the rungs of a job's frame came to, the top rung first: L2 and L1 run on it alone. -/
def State.rungEnds (s : State) (j : CodecJob) (e : EncStream) (x : EncFacts) : List RungEnd :=
  let t := s.rungTask j e
  let place := fun (k : Nat) => s.bufAddr (j.recon[k]?.getD 0)
  match e.ck.rungs, x.rungs with
  | r0 :: rs, f0 :: fs =>
    let l0 := e.codings r0 f0 t
    let top := (s.searchOn j e x r0).top (searched l0) (givenVecs f0)
    rungEnd e r0 f0 t l0 top j.sourceTick (place 0) (s.jobStamp j)
      :: (List.range (min rs.length fs.length)).filterMap (fun k =>
        match rs[k]?, fs[k]? with
        | some r, some f =>
          let l := e.codings r f t
          some (rungEnd e r f t l ((s.searchOn j e x r).lower e.width e.height top (searched l)) j.sourceTick (place (k + 1))
            (s.jobStamp j))
        | _, _ => none)
  | _, _ => []

/-- The packets of a rung of a frame (R188). -/
def rungPackets (e : EncStream) (key : Bool) (x : RungEnd) (ts : Nat) : List (List Byte) :=
  let r := x.before
  let l := x.payloads e key
  (List.range l.length).map (fun k => fillPacket r.hdr ((r.ipId.toNat + k) % 65536) ((r.rtpSeq.toNat + k) % 65536) ts
    (k + 1 == l.length) (l.getD k []))

/-- Hand a packet to its send queue as an UNTIMED send (R189): the frame on the queue becomes the holder of its buffer (R11). -/
def State.handPacket (s : State) (p : Packet) : State :=
  match s.sendQ p.queue with
  | some _ => s.placeFrame p.queue ⟨.encoder p.core, p.fn, p.bytes, false, none, 0, false, false, true, false, p.buffer⟩
  | none => s.dropOpt p.buffer

/-- The packets of a rung: each holds the buffer that carries the rung's bitstream and packets (R184); at once under PACE 0, otherwise
spread evenly over PACE % of the tick period (R189). Where the pools serve no buffer, none is held (assumption 36). -/
def State.sendPackets (s : State) (j : CodecJob) (e : EncStream) (queue : Nat) (l : List (List Byte)) : State :=
  let size := l.foldl (fun n b => n + b.length) 0
  let (b, s1) := match s.poolFor size with
    | some p => s.request p e.fn
    | none => (none, s)
  let s2 := match b with
    | some k => forEach l s1 (fun _ s => s.takeBuf k)
    | none => s1
  let span := s.periodUnits j.target.group.val * e.pace / 100
  let ps := (List.range l.length).map (fun k =>
    (⟨j.stream, j.cores.headD 0, e.fn, queue, l.getD k [], b, s.now + k * span / max 1 l.length⟩ : Packet))
  let s3 := if e.pace = 0 then forEach ps s2 (fun p s => s.handPacket p)
    else { s2 with codec.paced := insertionSort (fun a b : Packet => decide (a.due ≤ b.due)) (s2.codec.paced ++ ps) }
  s3.dropOpt b

/-- The next checkpoint is written into the other slot (R185). -/
def EncStream.advanceCk (e : EncStream) (c : Checkpoint) : EncStream :=
  if e.newer then { e with ckA := c, newer := false } else { e with ckB := c, newer := true }

/-- A frame has missed its tick for good: under RETARGET, more than three ticks after its first target (R48). A job redone once is
spared its first miss (R207). -/
def State.encTooLate (s : State) (j : CodecJob) (e : EncStream) : Bool :=
  e.retarget && s.isPast j.target && j.missed && decide (j.firstTarget + 3 < s.nextTick j.target.group)

/-- The bytes of the first rung's bitstream. -/
def firstSize (outs : List RungEnd) : Nat := (outs.head?.map (fun o => o.out.bytes)).getD 0

/-- A frame without a sink does not fit at OUT. -/
def encNoFit (j : CodecJob) (e : EncStream) (outs : List RungEnd) : Bool :=
  (e.ck.rungs.head?.bind RungState.sink).isNone && decide (j.outSize < firstSize outs)

/-- The cycles of a frame are counted on its cores and charged to its function (R197, R202). -/
def State.encRan (s : State) (j : CodecJob) (e : EncStream) (cycles : Nat) : State :=
  (s.countJob j cycles).charge e.fn cycles e.cycles

/-- An encode job ends. -/
def State.encDone (s : State) (j : CodecJob) (st : Status) (r0 r1 : Nat) (detail : Option Nat) : State :=
  (((s.dropJob j.id).dropOpt j.frame).jobDone j.origin st r0 r1 detail).settleEnc j.stream

/-- The result records of a coded frame (R190). -/
def State.frameRecords (s : State) (j : CodecJob) (e : EncStream) (outs : List RungEnd) (st : Status) (lost : Bool) : State :=
  let key := e.isKey j
  s.putRecords j.stream j lost ((List.range outs.length).filterMap (fun k => (outs[k]?).map (fun x =>
    let fl := b2n key + 2 * b2n j.redone + 4 * b2n (x.out.damaged + x.out.settled == 0) + 8 * b2n (decide (1 < x.codings.length))
      + 16 * b2n (decide (1 < j.cores.length)) + 32 * b2n j.missed + 64 * b2n (x.before.hasCarried j) + 128 * b2n (x.breach key)
    s.rungRecord (e.handle j.stream) j st fl k x.out)))

/-- The cycles that a coded frame took. -/
def State.encCycles (s : State) (j : CodecJob) (outs : List RungEnd) : Nat :=
  s.stretched (j.cores.headD 0) (outs.foldl (fun n o => n + o.out.cycles) 0)

/-- A coded frame is thrown away: it came too late or does not fit (R48, R167, R186). -/
def State.encodeWasted (s : State) (j : CodecJob) (e : EncStream) (x : EncFacts) : State :=
  let outs := s.rungEnds j e x
  let tooLate := s.encTooLate j e
  let key := e.isKey j
  let st := if tooLate then Status.deadlineMissed else .noResource
  let lost := s.lostDetail j x.recordLost
  let s1 := ((forEach j.recon s (fun b s => s.dropBuf b)).encRan j e (s.encCycles j outs)).restoreEnc j key
  let s2 := s1.blankRecords j.stream j st (b2n key + 2 * b2n j.redone) lost.isSome
  (s2.lostFault j lost).encDone j st (if tooLate then 0 else firstSize outs) 0
    (if lost.isSome then lost else if tooLate then none else some 32)

/-- The checkpoint that a coded frame leaves (R185). -/
def State.nextCk (s : State) (j : CodecJob) (e : EncStream) (outs : List RungEnd) : Checkpoint :=
  let key := e.isKey j
  { valid := true, seq := j.seq + 1, keyNext := e.keyAfter, sinceKey := if key then 0 else e.ck.sinceKey + 1
    refreshPos := if !e.refresh then none else if key then some 0
      else e.ck.refreshPos.map (fun q => (q + 1) % max 1 e.refreshFrames)
    dts := s.time.dts, rungs := outs.map RungEnd.after }

/-- The source frame of a job: where it stands in device space, and how long it is. -/
def State.frameSpan (s : State) (j : CodecJob) (e : EncStream) : Option (Nat × Nat) :=
  let n := outFrameBytes e.width e.height e.tenBit
  match j.frame with
  | some b => some (s.bufAddr b, n)
  | none => if isDevice j.addr then some (spaceOff j.addr, n) else none

/-- The source frame of a job holds poison (R425). -/
def State.framePoisoned (s : State) (j : CodecJob) (e : EncStream) : Bool :=
  (s.frameSpan j e).any (fun a => !(s.poisonIn a.1 a.2).isEmpty)

/-- A frame is read (R425). -/
def State.readFrame (s : State) (j : CodecJob) (e : EncStream) : State :=
  match s.frameSpan j e with
  | some a => s.devRead a.1 a.2
  | none => s

/-- The reconstructions of a frame's rungs are written (R175, R184). -/
def State.writeRecons (s : State) (j : CodecJob) (e : EncStream) (outs : List RungEnd) : State :=
  forEach (List.range outs.length) s (fun k s =>
    match outs[k]?, j.recon[k]? with
    | some o, some b =>
      match o.last with
      | some c => s.writeRecon o.before e.tenBit (s.bufAddr b) c.coding
          (o.facts.codings.getD (o.codings.length - 1) ⟨0, [], [], [], []⟩).recon
      | none => s
    | _, _ => s)

/-- A coded frame goes on its way: its reconstruction, its checkpoint, its records, its packets or bitstream, its completion. -/
def State.encodeCoded (s : State) (j : CodecJob) (e : EncStream) (x : EncFacts) : State :=
  let i := j.stream
  let key := e.isKey j
  let outs := s.rungEnds j e x
  let st := if x.poisoned || s.framePoisoned j e then Status.mediaError else if j.redone then .okRedone else .ok
  let lost := s.lostDetail j x.recordLost
  let old := (e.ck.rungs.map (fun r => if key then r.refs else r.refs.drop (e.nref - 1))).flatten.filterMap s.bufAt
  let s1 := ((forEach old ((s.readFrame j e).writeRecons j e outs) (fun b s => s.dropBuf b))).encRan j e (s.encCycles j outs)
  let s2 := match s1.enc i with
    | some e1 => s1.setEnc i (some { e1.advanceCk (s.nextCk j e outs) with keyDue := j.flags.getLsbD 1, keyAfter := false })
    | none => s1
  let s3 := if e.evicted then s2.releaseEncRefs i else s2
  let s4 := s3.frameRecords j e outs st lost.isSome
  let s5 := if e.evicted then s4
    else forEach outs s4 (fun o s =>
      match o.before.sink with
      | some q => s.sendPackets j e q (rungPackets e key o (s.jobStamp j))
      | none => s)
  let s6 := match outs.head? with
    | some o => if o.before.sink.isNone then s5.jobWrite j j.out (o.bytes e) else s5
    | none => s5
  let r1 := b2n (!key) + 256 * ((outs.head?.map (fun o => o.out.avgQp)).getD 0)
  (s6.lostFault j lost).encDone j st (if (outs.head?.bind (fun o => o.before.sink)).isNone then firstSize outs else 0) r1 lost

/-- An encode job ends with its frame coded (R177, R184, R185, R188, R190). -/
def State.encodeEnd (s : State) (c : Nat) (x : EncFacts) : State :=
  match (s.core c).job.bind s.job with
  | none => s
  | some j =>
    match s.enc j.stream with
    | none => s
    | some e =>
      if !j.encode || j.phase != .running || !s.loaded || x.rungs.length != e.ck.rungs.length then s
      else if s.encTooLate j e || encNoFit j e (s.rungEnds j e x) then s.encodeWasted j e x
      else s.encodeCoded j e x

/-- The first paced packet of a stream, and the packets without it. -/
def takePaced (i : Nat) (l : List Packet) : Option (Packet × List Packet) :=
  (l.find? (fun p => p.stream == i)).map (fun p => (p, l.erase p))

/-- ENCODE_PACKET_RELEASE: the next paced packet of a stream goes to its send queue (R189), also once the stream is closed. -/
def State.packetRelease (s : State) (i : Nat) : State :=
  match takePaced i s.codec.paced with
  | none => s
  | some (p, t) =>
    if !s.loaded then s
    else { s.advanceTo p.due with codec.paced := t }.handPacket p

/-! ### Sourced streams (R168, R169) -/

/-- The tags of a frame by its COLOUR (R230): primaries, transfer, matrix, full range. -/
def colourTags (code : Nat) : List Byte :=
  match code with
  | 1 => [1, 1, 1, 1]
  | 2 => [9, 14, 9, 0]
  | _ => [1, 1, 1, 0]

/-- A frame of a compositor output flips at tick `n`, or is held: its encode streams take it (R168, R169, R173). A frame that waits is
replaced: its damage passes to the new one, and it is never encoded. -/
def State.sourceFrame (s : State) (i : Nat) (n : Int) (buffer : Option Nat) (mask : Nat) (colour : List Byte) : State :=
  match s.enc i with
  | none => s
  | some e =>
    let old := (s.jobsOf true i).find? (fun j => j.phase == .waiting && j.origin == .flip)
    let base : CodecJob := {
      id := s.codec.jobSeq, encode := true, stream := i, origin := .flip, fn := e.fn, seq := e.seqNext
      target := ⟨e.group, n + 1⟩, firstTarget := n + 1, missed := false, discarded := false, uncounted := false
      redone := false, phase := .waiting, cores := [], parts := e.split, startedAt := 0, budgetAbort := false, addr := 0
      length := 0, out := 0, outSize := 0, flags := 0, statusAddr := 0, entry := none, recon := [], ends := none
      sourceTick := n, damage := mask, frame := buffer, runAt := 0, mute := false, carried := false, colour := colour }
    let s0 := s.setEnc i (some { e with seqNext := e.seqNext + 1 })
    match e.st with
    | .evicted => ((s0.emptyRecords i base .evicted 0).lostFault base (s0.lostDetail base false)).charge e.fn 0 e.cycles
    | .closing => s0
    | .active =>
      let s1 := match buffer with
        | some b => s0.takeBuf b
        | none => s0
      match old with
      | none => { s1 with codec := { s1.codec with jobs := s1.codec.jobs ++ [base], jobSeq := s1.codec.jobSeq + 1 } }
      | some o =>
        let s2 := (((s1.emptyRecords i o .aborted 0).lostFault o (s1.lostDetail o false)).dropJob o.id).freeCoresOf o.id
        let s3 := (s2.dropOpt o.frame).charge e.fn 0 e.cycles
        { s3 with codec := { s3.codec with
          jobs := s3.codec.jobs ++ [{ base with damage := Nat.lor mask o.damage, carried := o.carried || o.damage != 0 }]
          jobSeq := s3.codec.jobSeq + 1 } }

/-! ### The view of a checkpoint (R185, Table 06-9) -/

/-- The bytes of a map of a rung's blocks with `per` entries to a byte. -/
def packed (per : Nat) (l : List Nat) : List Byte :=
  let w := 8 / max 1 per
  (List.range (ceilDiv l.length per)).map (fun k =>
    BitVec.ofNat 8 ((List.range per).foldl (fun n i => n + l.getD (k * per + i) 0 % 2 ^ w * 2 ^ (w * i)) 0))

/-- One of the two checkpoints of an encode stream as it stands in the firmware region (Table 06-9): its header, its rungs, and for each
rung the settle map and the carried damage map, first block lowest (assumption 36). -/
def State.checkpointBytes (s : State) (i : Nat) (second : Bool) : List Byte :=
  match s.enc i with
  | none => []
  | some e =>
    let c := if second then e.ckB else e.ckA
    leBytes 8 (e.handle i) ++ leBytes 2 c.seq.toNat ++ leBytes 1 c.rungs.length ++ leBytes 1 (b2n c.valid + 2 * b2n c.keyNext)
      ++ leBytes 4 c.sinceKey ++ leBytes 4 (c.refreshPos.getD 0xFFFFFFFF) ++ leBytes 4 0 ++ leBytes 8 c.dts.toNat
      ++ c.rungs.flatMap (fun r => leBytes 4 r.cpb.toNat ++ leBytes 4 r.rcQ.toNat ++ leBytes 8 r.rcErr.toNat
        ++ (List.range 4).flatMap (fun k => leBytes 8 (r.refs.getD k 0)) ++ leBytes 2 r.rtpSeq.toNat ++ leBytes 2 r.ipId.toNat
        ++ leBytes 4 0)
      ++ c.rungs.flatMap (fun r => packed 2 (r.blocks.map (Table.get 0 r.settle)))
      ++ c.rungs.flatMap (fun r => packed 8 (r.blocks.map (fun b => b2n (bit r.carried b))))

/-! ### Dispatch of DECODE and ENCODE -/

/-- The bare job of a command or CCW. -/
def State.bareJob (s : State) (encode : Bool) (i : Nat) (o : JobOrigin) (fn : Nat) (seq : BitVec 16) (t : Target) : CodecJob :=
  { id := s.codec.jobSeq, encode := encode, stream := i, origin := o, fn := fn, seq := seq, target := t
    firstTarget := t.tick, missed := false, discarded := false, uncounted := false, redone := false, phase := .waiting
    cores := [], parts := 1, startedAt := 0, budgetAbort := false, addr := 0, length := 0, out := 0, outSize := 0
    flags := 0, statusAddr := 0, entry := none, recon := [], ends := none, sourceTick := t.tick, damage := 0
    frame := none, carried := false, colour := colourTags 0, runAt := 0, mute := false }

/-- Put a job into the pool; one whose target is past has missed at dispatch (R48). -/
def State.addJob (s : State) (j : CodecJob) : State :=
  let s1 := { s with codec := { s.codec with jobs := s.codec.jobs ++ [j], jobSeq := s.codec.jobSeq + 1 } }
  if s.isPast j.target then s1.missJob j else s1

/-- A DECODE is dispatched to its stream (R121); an evicted stream completes it with EVICTED. -/
def State.submitDecode (s : State) (i : Nat) (o : JobOrigin) (fn : Nat) (addr : DWord) (len : Nat) (flags : Byte) (ref : Nat)
    (status : DWord) : State :=
  match s.dec i with
  | none => s
  | some d =>
    let j := { s.bareJob false i o fn d.seqNext (s.resolve ref) with
      addr := addr, length := len, flags := flags, statusAddr := status }
    let s1 := s.setDec i (some { d with seqNext := d.seqNext + 1 })
    if d.evicted then (s1.charge d.fn 0 d.cycles).decodeDone j (s1.bareEnd j .evicted) none else s1.addJob j

/-- An ENCODE is dispatched to its stream (R122): every block of its frame is damaged (R173). -/
def State.submitEncode (s : State) (i : Nat) (o : JobOrigin) (fn : Nat) (addr out : DWord) (size : Nat) (flags : Byte)
    (ref : Nat) : State :=
  match s.enc i with
  | none => s
  | some e =>
    let t := s.resolve ref
    let all := (List.range (ceilDiv e.height 64)).foldl (fun m y => m + 2 ^ (128 * y) * (2 ^ ceilDiv e.width 64 - 1)) 0
    let j := { s.bareJob true i o fn e.seqNext t with
      addr := addr, out := out, outSize := size, flags := flags, damage := all, parts := e.split }
    let s1 := s.setEnc i (some { e with seqNext := e.seqNext + 1 })
    if e.evicted then ((s1.emptyRecords i j .evicted 0).charge e.fn 0 e.cycles).jobDone o .evicted 0 0 (s1.lostDetail j false)
    else s1.addJob j

/-! ### Sequencers (R212, R213) -/

/-- One cycle of a core's sequencer. Wrong parity stays until the stores are loaded anew. Condition 0 is never and 1 always
true. -/
def State.microword (s : State) (c : Nat) (i : SeqInput) : State :=
  let x0 := s.core c
  if x0.ustopped || x0.job.isNone || !s.loaded then s
  else
    let x1 := if i.command then { x0 with upc := 0, ustack := [] } else x0
    let w := (Table.get 0 x1.microStore x1.upc.toNat).toNat
    let nano := bits w 9 0
    let x := if i.parity then { x1 with badParity := (false, x1.upc.toNat) :: x1.badParity } else x1
    let k := bits w 15 12
    let yes := k == 1 || (k != 0 && i.cond.getLsbD k)
    let target := BitVec.ofNat 14 (bits w 29 16)
    let next := x.upc + 1
    let stop := fun (kind : Nat) => (s.setCore c { x with ustopped := true }).coreFault c kind 0
    if x.badParity.contains (false, x.upc.toNat) || x.badParity.contains (true, nano) then stop 4
    else
      let y := { x with issued := Table.get 0 x.nanoStore nano }
      match bits w 31 30 with
      | 0 => s.setCore c { y with upc := if yes then target else next }
      | 1 =>
        if !yes then s.setCore c { y with upc := next }
        else if 4 ≤ x.ustack.length then stop 2
        else s.setCore c { y with upc := target, ustack := next :: x.ustack }
      | 2 =>
        if !yes then s.setCore c { y with upc := next }
        else
          match x.ustack with
          | [] => stop 3
          | a :: t => s.setCore c { y with upc := a, ustack := t }
      | _ => s.setCore c { y with upc := if yes then next else x.upc }

/-! ### Modes -/

/-- RECOVERY: every stream's references are released; encode streams make a key frame next, with settle counts and
carried damage cleared (Tables 05-12 and 06-12). -/
def State.codecRecovery (s : State) : State :=
  let s1 := forEach s.decList s (fun e s => s.releaseRefs e.1)
  forEach s1.encList s1 (fun e s =>
    let t := s.releaseEncRefs e.1
    match t.enc e.1 with
    | some x => t.setEnc e.1 (some (x.updCk (fun c => { c with
        keyNext := true, rungs := c.rungs.map (fun r => { r with settle := [], carried := 0 }) })))
    | none => t)

/-- Every encode stream makes a key frame next (STANDBY, Table 06-12): after the frame that runs, where one does. -/
def State.keyNextAll (s : State) : State :=
  { s with codec.enc := s.codec.enc.map (fun e => (e.1, e.2.map (fun x =>
      if (s.jobsOf true e.1).any (fun j => j.phase == .running) then { x with keyAfter := true }
      else x.updCk (fun c => { c with keyNext := true })))) }

/-- Outstanding jobs complete with a status, decode jobs that wait for a presentation tick too (R92). -/
def State.endJobs (s : State) (st : Status) (sel : CodecJob → Bool) : State :=
  forEach (s.codec.jobs.filter sel) s (fun j s =>
    if j.phase = .ended then
      s.completeDecode { j with ends := j.ends.map (fun e => { e with status := st }) } none
    else
      let t := if j.encode then (s.restoreEnc j false).emptyRecords j.stream j st (2 * b2n j.redone) else s
      t.endRun j st)

/-! ### Rows -/

/-- CODEC_JOB_START. -/
def execCodecJobStart (x : Tiling) (w h : Nat) (s : State) : Host.Outcome State Fault Refusal := .next (s.codecStart x w h)
/-- PICTURE_END. -/
def execPictureEnd (c : Fin 8) (p : PicFacts) (s : State) : Host.Outcome State Fault Refusal := .next (s.pictureEnd c.val p)
/-- BUDGET_ABORT. -/
def execBudgetAbort (c : Fin 8) (s : State) : Host.Outcome State Fault Refusal := .next (s.budgetAbort c.val)
/-- ENCODE_FRAME_END. -/
def execEncodeFrameEnd (c : Fin 8) (e : EncFacts) (s : State) : Host.Outcome State Fault Refusal := .next (s.encodeEnd c.val e)
/-- ENCODE_PACKET_RELEASE. -/
def execEncodePacketRelease (i : Fin 256) (s : State) : Host.Outcome State Fault Refusal := .next (s.packetRelease i.val)
/-- MICROWORD. -/
def execMicroword (c : Fin 8) (x : SeqInput) (s : State) : Host.Outcome State Fault Refusal := .next (s.microword c.val x)
/-- SEQUENCER_WATCHDOG: a sequencer that runs a job has made no progress for 1 ms (R205). -/
def execSequencerWatchdog (c : Fin 8) (s : State) : Host.Outcome State Fault Refusal :=
  .next <|
    if s.loaded && (s.core c.val).job.isSome then
      (s.setCore c.val { s.core c.val with ustopped := true }).coreFault c.val 5 0
    else s
/-- BUFFER_TAKE (R387): of a buffer that is part of a picture, the taker is a holder (R138). -/
def execBufferTake (a : BitVec 48) (s : State) : Host.Outcome State Fault Refusal :=
  .next <|
    if s.live then
      match s.bufAt a.toNat with
      | some b => s.holderTakes b
      | none => (s.fault 0x040 1 a.toNat).raise 260
    else s

/-- BUFFER_DROP (R387). -/
def execBufferDrop (a : BitVec 48) (s : State) : Host.Outcome State Fault Refusal :=
  .next <|
    if s.live then
      match s.bufAt a.toNat with
      | some b => s.holderDrops b
      | none => (s.fault 0x040 1 a.toNat).raise 260
    else s

/-- CDC_POOL_EVICT_READ: the count is returned and cleared (R218). -/
def execCdcPoolEvictRead (s : State) : Host.Outcome State Fault Refusal :=
  .next <|
    if s.bar0 0x10400C then { s.setRd s.codec.evictions.toNat with codec.evictions := 0 } else s.setRd 0

end Sys2Proof.Machine
end

