-- ==== Sys2Proof/Machine/Dma.lean ====
section
/-!
DEFINITION. Machine/Dma.lean: the DMA engine (R389 to R392, R399).
-/
namespace Sys2Proof.Machine

/-- A DMA channel. -/
def State.dmaCh (s : State) (c : Nat) : DmaCh := Table.get DmaCh.idle s.dma c
/-- Replace a DMA channel. -/
def State.setDma (s : State) (c : Nat) (x : DmaCh) : State := { s with dma := Table.set DmaCh.idle s.dma c x }

/-- A DMA channel is granted to channel programs: subchannel 0x040 + c has EN (R248). -/
def State.dmaGranted (s : State) (c : Nat) : Bool := bit (s.regOr 0 (0xE0200 + 4 * c)) 4
/-- DMA_CH_CFG.RETRY. -/
def State.dmaRetryMax (s : State) (c : Nat) : Nat := bits (s.regOr 3 (0x90004 + 64 * c)) 2 0
/-- DMA_CH_DESC. -/
def State.dmaDescReg (s : State) (c : Nat) : DWord :=
  BitVec.ofNat 64 (s.regOr 0 (0x90008 + 64 * c) + 2 ^ 32 * s.regOr 0 (0x9000C + 64 * c))

/-- A channel ends in DONE, STOPPED or ERROR and raises its source once (R392). -/
def State.dmaEnd (s : State) (c : Nat) (x : DmaCh) (st : DmaSt) (code : Status) : State :=
  (s.setDma c { x with st := st, code := code.code, retryAt := .none, retrying := false }).raise (128 + c)

/-- A channel halts in ERROR and its fault is sent, with the channel number as its address (R391). -/
def State.dmaHalt (s : State) (c : Nat) (x : DmaCh) (code : Status) (kind : Nat) : State :=
  (s.fault 0x041 kind c).dmaEnd c x .error code

/-- A range lies in DMA space and, for a channel that the firmware region does not belong to, outside that region
(R14, R389, R391). -/
def dmaReach (c : Nat) (a n : Nat) : Bool :=
  let d := BitVec.ofNat 64 a
  if isDevice d then
    inDevice (spaceOff d) n && (decide (c < 8) || !(decide (spaceOff d < 0x40000000)))
  else decide (spaceOff d + n ≤ 2 ^ 63)

/-- A failed access is retried after 1 µs, up to RETRY times; then the channel halts (R391). -/
def State.dmaFail (s : State) (c : Nat) (x : DmaCh) : State :=
  let used := if x.retrying then x.retries else 0
  if used < s.dmaRetryMax c then
    s.setDma c { x with retries := used + 1, retrying := true, retryAt := some (microsecond + s.now) }
  else s.dmaHalt c { x with retries := used } .busError 1

/-- The descriptor that 32 bytes spell (Table 13-1). -/
def dmaDescOf (b : List Byte) : DmaDesc :=
  ⟨fieldLe b 0 8, fieldLe b 8 8, fieldLe b 16 4, bit (fieldLe b 20 1) 0, bit (fieldLe b 20 1) 1, fieldLe b 24 8⟩

/-- A descriptor keeps to Table 13-1. -/
def dmaDescOk (b : List Byte) : Bool :=
  let d := dmaDescOf b
  decide (1 ≤ d.count) && decide (d.count ≤ 16777216) && decide (fieldLe b 20 1 < 4) && fieldLe b 21 3 == 0
    && (d.chain || d.next == 0)

/-- DMA_START: START runs the chain at DMA_CH_DESC (R392). A START in RUNNING or STOPPING, on channels 0 to 7, on a
granted or on an isolated channel is ignored and sets REJECT. -/
def State.dmaStart (s : State) (c : Nat) : State :=
  let x := s.dmaCh c
  if c < 8 ∨ s.dmaGranted c ∨ x.isolated ∨ x.st = .running ∨ x.st = .stopping then { s with dmaReject := true }
  else s.setDma c { DmaCh.idle with st := .running, cur := s.dmaDescReg c }

/-- DMA_STOP: it takes effect at the next descriptor boundary; during the last descriptor it has none (R392). -/
def State.dmaStop (s : State) (c : Nat) : State :=
  let x := s.dmaCh c
  if c < 8 ∨ s.dmaGranted c ∨ x.st ≠ .running then s
  else
    match x.desc with
    | none => s.dmaEnd c x .stopped .ok
    | some d => if d.chain then s.setDma c { x with st := .stopping } else s

/-- DMA_CLEAR: DONE, STOPPED or ERROR goes to IDLE; a CLEAR of an isolated channel sets REJECT (R392). -/
def State.dmaClear (s : State) (c : Nat) : State :=
  let x := s.dmaCh c
  if x.isolated then { s with dmaReject := true }
  else if c < 8 ∨ s.dmaGranted c then s
  else
    match x.st with
    | .done | .stopped | .error => s.setDma c { x with st := .idle }
    | _ => s

/-- A channel isolated under ISOLATE enters ERROR with DEVICE_FAULT (R392). -/
def State.dmaIsolate (s : State) (c : Nat) : State :=
  s.dmaEnd c { s.dmaCh c with isolated := true } .error .deviceFault

/-- A channel that a retest returned to service is not isolated and IDLE (R392). -/
def State.dmaReinstate (s : State) (c : Nat) : State := s.setDma c DmaCh.idle

/-- A reset engine puts its running channels in ERROR with DEVICE_FAULT (Table 13-5). -/
def State.dmaReset (s : State) : State :=
  forEach (List.range 64) s (fun c s =>
    match (s.dmaCh c).st with
    | .running | .stopping => s.dmaEnd c (s.dmaCh c) .error .deviceFault
    | _ => s)

/-- The channel has an access to make: it runs, or finishes its descriptor, and no retry is awaited. -/
def DmaCh.active (x : DmaCh) : Bool := (x.st == .running || x.st == .stopping) && x.retryAt.isNone

/-- The channel moves the data of a channel program's WRITE (R271): it fetches no descriptor. -/
def State.dmaByCcw (s : State) (c : Nat) : Bool :=
  s.lmp.chans.any (fun e => match e.2.wait with
    | .transfer u _ => u == 0x40 + c
    | _ => false)

/-- DMA_DESCRIPTOR_FETCH: a descriptor read returns and is checked (R390, R391). In STANDBY a channel holds at the
boundary (Table 13-5). -/
def State.dmaFetch (s : State) (c : Nat) (r : DmaRead) : State :=
  let x := s.dmaCh c
  let a := spaceOff x.cur
  if !x.active || x.desc.isSome || s.dmaByCcw c || s.pwr.mode == .standby then s
  else if !dmaReach c x.cur.toNat 32 then s.dmaHalt c x .busError 1
  else if x.cur.toNat % 32 ≠ 0 then s.dmaHalt c x .invalidField 3
  else
    match r with
    | .failed => s.dmaFail c x
    | .poisoned _ _ => s.dmaHalt c { x with retrying := false } .mediaError 2
    | .data bs =>
      let b := if isDevice x.cur then s.dev.bytes a 32 else bs
      let s1 := if isDevice x.cur then s.devRead a 32 else s
      let x1 := { x with retrying := false }
      if isDevice x.cur ∧ s.poisonIn a 32 ≠ [] then s1.dmaHalt c x1 .mediaError 2
      else if !dmaDescOk b then s1.dmaHalt c x1 .invalidField 3
      else s1.setDma c { x1 with desc := some (dmaDescOf b), resid := (dmaDescOf b).count }

/-- The bytes of a FILL block: the pattern repeated from the descriptor's first byte, byte 0 of the pattern first. -/
def fillBytes (pattern start : Nat) : Nat → List Byte
  | 0 => []
  | n + 1 => BitVec.ofNat 8 (pattern / 256 ^ (start % 4)) :: fillBytes pattern (start + 1) n

/-- The words of device space to which the bytes of source word `w`, read from `src`, go when `n` bytes are written
at `dst`. -/
def movedWords (src dst n w : Nat) : List Nat :=
  let lo := max (8 * w) src
  let hi := min (8 * w + 8) (src + n)
  if lo < hi then [(dst + (lo - src)) / 8, (dst + (hi - 1 - src)) / 8] else []

/-- A channel after a block of `n` bytes has been written: the descriptor goes on, or ends and the channel goes to its
next descriptor, to STOPPED or to DONE (R392). -/
def State.dmaBlockDone (s : State) (c : Nat) (x : DmaCh) (d : DmaDesc) (n : Nat) : State :=
  let x1 := { x with
    retrying := false, resid := x.resid - n, bytes := x.bytes + BitVec.ofNat 64 n
    readBytes := x.readBytes + (if d.fill then 0 else n), fillBytes := x.fillBytes + (if d.fill then n else 0) }
  if x.resid ≤ n then
    let x2 := { x1 with desc := .none, resid := 0, descs := x1.descs + 1, endedBytes := x1.endedBytes + d.count }
    if d.chain then
      let x3 := { x2 with cur := BitVec.ofNat 64 d.next }
      if x.st = .stopping then s.dmaEnd c x3 .stopped .ok else s.setDma c x3
    else s.dmaEnd c x2 .done .ok
  else s.setDma c x1

/-- The block with its poisoned data is written, the descriptor stops at its end, and the channel halts (R391). -/
def State.dmaPoisonEnd (s : State) (c : Nat) (x : DmaCh) (d : DmaDesc) (dst : DWord) (b : List Byte) (n : Nat)
    (words : List Nat) : State :=
  let s1 := s.spaceWrite dst b
  let s2 := if isDevice dst then s1.poisonWords words else s1.emit (.poisonedTlp words)
  s2.dmaHalt c { x with
    resid := x.resid - n, bytes := x.bytes + BitVec.ofNat 64 n, readBytes := x.readBytes + n
    retrying := false, desc := some d } .mediaError 2

/-- DMA_BLOCK_END: a block is read and written (R390, R391). -/
def State.dmaBlock (s : State) (c : Nat) (r : DmaRead) (writeFailed : Bool) : State :=
  let x := s.dmaCh c
  match x.desc with
  | none => s
  | some d =>
    if !x.active then s
    else
      let done := d.count - x.resid
      let dst := d.dst + done
      let src := d.src + done
      let n := min x.resid (4096 - spaceOff (BitVec.ofNat 64 dst) % 4096)
      let dstD := BitVec.ofNat 64 dst
      let srcD := BitVec.ofNat 64 src
      if !dmaReach c dst n || (!d.fill && !dmaReach c src n) then s.dmaHalt c x .busError 1
      else if d.fill then
        if writeFailed then s.dmaFail c x
        else (s.spaceWrite dstD (fillBytes d.src done n)).dmaBlockDone c x d n
      else
        match r with
        | .failed => s.dmaFail c x
        | .data bs =>
          let a := spaceOff srcD
          let lo := a / 64 * 64
          let b := if isDevice srcD then s.dev.bytes a n else bs.take n
          let s1 := if isDevice srcD then s.devRead lo (ceilDiv (a + n) 64 * 64 - lo) else s
          let bad := if isDevice srcD then s.poisonIn a n else []
          if writeFailed then s1.dmaFail c x
          else if bad = [] then (s1.spaceWrite dstD b).dmaBlockDone c x d n
          else s1.dmaPoisonEnd c x d dstD b n (bad.flatMap (movedWords a (spaceOff dstD) n))
        | .poisoned bs k =>
          if writeFailed then s.dmaFail c x
          else
            let a := spaceOff srcD
            let b := if isDevice srcD then s.dev.bytes a n else bs.take n
            s.dmaPoisonEnd c x d dstD b n (movedWords a (spaceOff dstD) n ((a + k) / 8))

/-- DMA_RETRY: a failed access is retried after 1 µs (R391). -/
def State.dmaRetry (s : State) (c : Nat) : State :=
  let x := s.dmaCh c
  match x.retryAt with
  | some t => (s.advanceTo t).setDma c { x with retryAt := .none }
  | none => s

/-- DMA_START. -/
def execDmaStart (m : Master) (c : Fin 64) (v : Word) (s : State) : Host.Outcome State Fault Refusal :=
  .next (if s.access m (0x90000 + 64 * c.val) && s.live && v.getLsbD 0 then s.dmaStart c.val else s)

/-- DMA_STOP. -/
def execDmaStop (m : Master) (c : Fin 64) (v : Word) (s : State) : Host.Outcome State Fault Refusal :=
  .next (if s.access m (0x90000 + 64 * c.val) && s.live && v.getLsbD 1 then s.dmaStop c.val else s)

/-- DMA_CLEAR. -/
def execDmaClear (m : Master) (c : Fin 64) (v : Word) (s : State) : Host.Outcome State Fault Refusal :=
  .next (if s.access m (0x90000 + 64 * c.val) && s.live && v.getLsbD 2 then s.dmaClear c.val else s)

/-- DMA_DESCRIPTOR_FETCH. -/
def execDmaDescriptorFetch (c : Fin 64) (r : DmaRead) (s : State) : Host.Outcome State Fault Refusal :=
  .next (if s.live then s.dmaFetch c.val r else s)

/-- DMA_BLOCK_END. -/
def execDmaBlockEnd (c : Fin 64) (r : DmaRead) (writeFailed : Bool) (s : State) : Host.Outcome State Fault Refusal :=
  .next (if s.live then s.dmaBlock c.val r writeFailed else s)

/-- DMA_RETRY. -/
def execDmaRetry (c : Fin 64) (s : State) : Host.Outcome State Fault Refusal :=
  .next (if s.live then s.dmaRetry c.val else s)

end Sys2Proof.Machine
end

