-- ==== Sys2Proof/Machine/Audit.lean ====
section
/-!
DEFINITION. Machine/Audit.lean: the conservation audit (R393 to R396, R495).
-/
namespace Sys2Proof.Machine

/-- The equation of a law over its terms in the order of R495 (Table 13-3). -/
def lawHolds (law : Nat) (t : List Int) : Bool :=
  let x := fun n => t.getD n 0
  match law with
  | 1 => x 0 + x 1 == x 2
  | 2 => x 0 == x 1 && x 2 == 0 && x 3 == 0
  | 3 => x 0 + x 1 + x 2 == x 3
  | 4 => x 0 == x 1 + x 2 - x 3 - x 4
  | 5 => x 0 == x 1 + x 2 + x 3
  | _ => x 0 == x 1 + x 2 && x 3 == x 0 - x 4

/-- One instance of a law, with its flags still to be set. -/
def ledger (law index unit : Nat) (terms : List Int) : Ledger := ⟨law, index, unit, terms, false, false⟩

/-- The terms of a bucket under law 4. -/
def Bucket.terms (b : Bucket) : List Int := [b.tokens, b.initial, b.credited, b.debited, b.discarded]

/-- Law 1 of every pool: pool 0 holds the cells. -/
def State.poolLedgers (s : State) : List Ledger :=
  ledger 1 0 0x01F [(131072 - s.cellsUsed : Nat), s.cellsUsed, 131072] ::
    (List.range' 1 15).map (fun p => ledger 1 p 0x040
      [s.poolFree p, sumOwners (s.ownUse p), s.poolCount p])

/-- Law 2 of every pool. A cell counts one reference for each copy it serves (R347). -/
def State.refLedgers (s : State) : List Ledger :=
  let cells := s.swc.frames.foldl (fun n f => f.copies.foldl (fun n c => n + c.cells) n) 0
  ledger 2 0 0x01F [(cells : Nat), (cells : Nat), 0, 0] ::
    (List.range' 1 15).map (fun p =>
      let l := s.pool.bufs.filterMap (fun e => if e.1 / 2 ^ 21 == p then e.2 else none)
      ledger 2 p 0x040 [((l.foldl (fun n b => n + b.count) 0 : Nat) : Int), (Table.get 0 s.pool.refs p : Nat),
        ((l.filter (fun b => b.count == 0)).length : Nat), 0])

/-- Law 4 of every bucket that has left its reset value: shaper k is instance k, the buckets of meter m are instances
65,536 + 2m and 65,537 + 2m. -/
def State.bucketLedgers (s : State) : List Ledger :=
  s.trf.shapers.map (fun e => ledger 4 e.1 0x030 e.2.bucket.terms) ++
    s.trf.meters.flatMap (fun e =>
      [ledger 4 (65536 + 2 * e.1) 0x030 e.2.tc.terms, ledger 4 (65537 + 2 * e.1) 0x030 e.2.te.terms])

/-- Law 5 of every function. -/
def State.completionLedgers (s : State) : List Ledger :=
  (List.range 16).map (fun f => ledger 5 f 0x0A0
    [(Table.get 0 s.audit.accepted f : Nat), (Table.get 0 s.audit.posted f : Nat), (Table.get 0 s.audit.orphaned f : Nat),
      ((s.slotList.filter (fun e => e.2.fn == f && e.2.phase != .posted)).length : Nat)])

/-- Law 6 of every DMA channel. -/
def State.dmaLedgers (s : State) : List Ledger :=
  (List.range 64).map (fun c =>
    let x := s.dmaCh c
    let cur := match x.desc with | some d => d.count - x.resid | none => 0
    ledger 6 c 0x041 [(x.bytes.toNat : Nat), (x.endedBytes : Nat), (cur : Nat), (x.readBytes : Nat), (x.fillBytes : Nat)])

/-- Every ledger, in ascending law and index. The device's credited internal links are not named by the spec, so law 3
has an instance only where an audit reports one. -/
def State.ledgers (s : State) : List Ledger :=
  s.poolLedgers ++ s.refLedgers ++ s.bucketLedgers ++ s.completionLedgers ++ s.dmaLedgers

/-- Audits run in this mode (Table 13-5) and are enabled. -/
def State.audits (s : State) : Bool := s.live && s.pwr.mode != .recovery && bit (s.regOr 1 0x84000) 0

/-- Step 4 of R16: every unit latches its ledgers. -/
def State.auditSnapshot (s : State) (tick : Int) : State :=
  if s.audits then
    { s with audit := { s.audit with pending := some ⟨tick62 tick, s.time.dts, s.ledgers⟩ } }
  else s

/-- Change the first term of an instance as corrupted hardware latched it (assumption 9): an instance that is not listed
is one whose terms were all zero. -/
def corrupt (l : List Ledger) (law index unit : Nat) (delta : Int) : List Ledger :=
  if l.any (fun x => x.law == law && x.index == index) then
    l.map (fun x : Ledger => if x.law == law && x.index == index then
      { x with terms := match x.terms with | h :: t => (h + delta) :: t | [] => [delta] } else x)
  else
    let n := if law = 4 ∨ law = 6 then 5 else if law = 1 then 3 else 4
    let before := l.takeWhile (fun x => decide (x.law < law) || (x.law == law && decide (x.index < index)))
    before ++ ledger law index unit (delta :: List.replicate (n - 1) 0) :: l.drop before.length

/-- The fault source of a law's unit (BPM_AUD_FIRST.UNIT). -/
def lawUnit (law index : Nat) : Nat :=
  match law with
  | 1 | 2 => if index = 0 then 0x01F else 0x040
  | 4 => 0x030
  | 5 => 0x0A0
  | _ => 0x041

/-- The latched ledgers of an audit, with what corrupted hardware latched. The receiving unit of a link of law 3 is a
free value: no chapter numbers the links. -/
def State.latched (s : State) : List LedgerErr → List Ledger → List Ledger × State
  | [], l => (l, s)
  | e :: t, l =>
    let law := e.law.val + 1
    let (unit, s1) := if law = 3 then (s.drawFree.1 % 1024, s.drawFree.2) else (lawUnit law e.index, s)
    s1.latched t (corrupt l law e.index unit e.delta)

/-- A ledger struck by an uncorrectable error is reported as LOST once and excluded (R395). -/
def State.ledgerLost (s : State) (law index : Nat) : State :=
  if s.audit.lost.contains (law, index) then s
  else (({ s with audit := { s.audit with lost := (law, index) :: s.audit.lost } }).fault 0x0D0 0x10 index).raise 259

/-- AUDIT_END (R396): the laws are checked over the snapshot; each violation is reported, and the first while none is
frozen freezes the snapshot. -/
def State.auditEnd (s : State) (errs : List LedgerErr) : State :=
  match s.audit.pending with
  | none => s
  | some snap =>
    if !s.audits then s
    else
      let hit := s.audit.struck ++ (errs.filter (fun e => e.struck)).map (fun e => (e.law.val + 1, e.index))
      let s0 := forEach hit { s with audit.struck := [] } (fun e s => s.ledgerLost e.1 e.2)
      let (l0, s1) := s0.latched errs snap.ledgers
      let l := l0.map (fun x : Ledger =>
        let lost := s1.audit.lost.contains (x.law, x.index)
        { x with lost := lost, failed := !lost && !lawHolds x.law x.terms })
      let bad := l.filter (fun x => x.failed)
      let done : Snapshot := { snap with ledgers := l }
      let a := s1.audit
      let law := fun k => b2n (bad.any (fun x => x.law == k)) * 2 ^ (k - 1)
      let fails := law 1 + law 2 + law 3 + law 4 + law 5 + law 6
      let a1 := { a with
        pending := none, lastTick := snap.tick, failLaws := BitVec.ofNat 6 fails
        pass := if bad.isEmpty then BitVec.ofNat 32 (satInc 0xFFFFFFFF a.pass.toNat) else a.pass
        viol := BitVec.ofNat 32 (satAdd 0xFFFFFFFF a.viol.toNat bad.length)
        lastPass := if bad.isEmpty then some done else a.lastPass }
      let a2 := match bad, a.frozen with
        | x :: _, none =>
          { a1 with frozen := some (done, a.lastPass), firstLaw := x.law, firstUnit := x.unit, firstIndex := x.index }
        | _, _ => a1
      forEach bad { s1 with audit := a2 } (fun x s => (s.fault 0x0D0 x.law x.index).raise 258)

/-- AUDIT_RELEASE: the write releases the frozen snapshot, and its EN bit is stored. -/
def State.auditRelease (s : State) (v : Word) : State :=
  let s1 := s.setReg 0x84000 (v &&& 1)
  if v.getLsbD 1 then
    { s1 with audit := { s1.audit with frozen := none, firstLaw := 0, firstUnit := 0, firstIndex := 0 } }
  else s1

/-- The auditor starts anew at a reset or at RECOVERY (R395). -/
def State.auditRestart (s : State) : State :=
  { s with audit := { s.audit with pending := none, lastPass := none, lost := [], struck := [] } }

/-! ### The frozen snapshot (R495) -/

/-- The bytes of a ledger record (Table 13-10). -/
def Ledger.bytes (x : Ledger) : List Byte :=
  leBytes 1 x.law ++ leBytes 1 x.terms.length ++ leBytes 1 (b2n x.failed + 2 * b2n x.lost) ++ [0]
    ++ leBytes 2 x.unit ++ leBytes 2 0 ++ leBytes 4 x.index ++ leBytes 4 0
    ++ (x.terms.flatMap (fun t => leBytes 8 (BitVec.ofInt 64 t).toNat)) ++ List.replicate (48 - 8 * x.terms.length) 0

/-- The header of a half (Table 13-9). -/
def halfHeader (half records failed : Nat) (snap : Snapshot) : List Byte :=
  leBytes 1 half ++ [0] ++ leBytes 2 records ++ leBytes 4 failed ++ leBytes 8 snap.tick.toNat
    ++ leBytes 8 snap.dts.toNat ++ List.replicate 40 0

/-- The instances a frozen snapshot records: up to 399 that failed, then every one of laws 1, 2, 5 and 6. -/
def Snapshot.recorded (x : Snapshot) : List Ledger :=
  (x.ledgers.filter (fun l => l.failed)).take 399 ++ x.ledgers.filter (fun l => l.law != 3 && l.law != 4)

/-- An instance as the passing tick had it: one that tick did not list had terms of zero. -/
def Snapshot.same (x : Snapshot) (l : Ledger) : Ledger :=
  (x.ledgers.find? (fun k => k.law == l.law && k.index == l.index)).getD
    { l with terms := l.terms.map (fun _ => 0), failed := false, lost := false }

/-- A word of the frozen snapshot: word 0 to 16,383. -/
def State.snapWord (s : State) (w : Nat) : Nat :=
  match s.audit.frozen with
  | none => 0
  | some (bad, good) =>
    let recs := bad.recorded
    let failed := (bad.ledgers.filter (fun l => l.failed)).length
    let slot := w % 8192 / 16
    let i := w % 16 * 4
    if w < 8192 then
      if slot = 0 then fieldLe (halfHeader 0 recs.length failed bad) i 4
      else match recs[slot - 1]? with
        | some l => fieldLe l.bytes i 4
        | none => 0
    else
      match good with
      | none => 0
      | some g =>
        if slot = 0 then fieldLe (halfHeader 1 recs.length failed g) i 4
        else match recs[slot - 1]? with
          | some l => fieldLe (g.same l).bytes i 4
          | none => 0

/-- AUDIT_END. -/
def execAuditEnd (errs : List LedgerErr) (s : State) : Host.Outcome State Fault Refusal := .next (s.auditEnd errs)
/-- AUDIT_RELEASE. -/
def execAuditRelease (m : Master) (v : Word) (s : State) : Host.Outcome State Fault Refusal :=
  .next (if s.access m 0x84000 then s.auditRelease v else s)
/-- BPM_AUD_VIOL_READ: the read returns and clears the count (R398). -/
def execBpmAudViolRead (s : State) : Host.Outcome State Fault Refusal :=
  .next <|
    if s.bar0 0x84014 then { (s.setRd s.audit.viol.toNat) with audit.viol := 0 } else s.setRd 0

end Sys2Proof.Machine
end

