-- ==== Sys2Proof/Machine/WickBase.lean ====
section
/-!
DEFINITION. Machine/WickBase.lean: the Wick cores as units: their reset, their memories and caches, the cluster
directory, lock-up and the start and end of a customer routine (R289 to R292, R318 to R322, R328, R277, R278).
-/
namespace Sys2Proof.Machine

/-- A Wick core, by CORE_ID. -/
def State.wc (s : State) (c : Fin 13) : WickCore := s.wick.cores[c]
/-- Replace a Wick core. -/
def State.setWc (s : State) (c : Fin 13) (k : WickCore) : State := { s with wick.cores := s.wick.cores.set c k }

/-- A general register: g0 reads as zero (R293). -/
def WickCore.reg (k : WickCore) (r : Fin 32) : Word := if r = 0 then 0 else Table.get 0 k.regs r.val
/-- Write a general register: a write to g0 is discarded (R293). -/
def WickCore.setReg (k : WickCore) (r : Fin 32) (v : Word) : WickCore :=
  if r = 0 then k else { k with regs := Table.set 0 k.regs r.val v }

/-- STATUS (Table 10-3). -/
def WickCore.status (k : WickCore) : Word :=
  BitVec.ofNat 32 (b2n k.u + 2 * b2n k.ie + 4 * (k.ld % 8) + 32 * (k.ac % 16))
/-- Write STATUS: AC is read-only and reserved bits are ignored (R295). -/
def WickCore.setStatus (k : WickCore) (v : Word) : WickCore :=
  { k with u := v.getLsbD 0, ie := v.getLsbD 1, ld := bits v.toNat 4 2 }

/-- A segment register of the bank in use (R296). -/
def WickCore.seg (k : WickCore) (n : Fin 8) : WSeg := if k.u then k.usegs[n] else k.ksegs[n]
/-- DSP of the bank in use. -/
def WickCore.dsp (k : WickCore) : Word := if k.u then k.udsp else k.kdsp
/-- Write DSP of the bank in use. -/
def WickCore.setDsp (k : WickCore) (v : Word) : WickCore := if k.u then { k with udsp := v } else { k with kdsp := v }
/-- CSP of the bank in use. -/
def WickCore.csp (k : WickCore) : Word := if k.u then k.ucsp else k.kcsp
/-- Write CSP of the bank in use. -/
def WickCore.setCsp (k : WickCore) (v : Word) : WickCore := if k.u then { k with ucsp := v } else { k with kcsp := v }

/-- The number of a Lamplighter core, or 4 for the Lantern core, as a requester of the directory (R320). -/
def wickRequester (c : Fin 13) : Nat := c.val - 8
/-- The core that is requester `r`. -/
def requesterCore (r : Fin 5) : Fin 13 := ⟨8 + r.val, by omega⟩

/-- The core executes: it has power, is in service, and no HALT stops it (R427). -/
def State.wickUp (s : State) (c : Fin 13) : Bool :=
  !(s.pwr.mode == .off || s.pwr.mode == .pilot) && !s.pwr.inWarmReset && (c == 12 || !s.halted)
    && (decide (c.val < 8 ∨ c = 12) || s.lmp.cores.getLsbD (c.val - 8))

/-! ### Physical address map -/

/-- The regions of Table 10-1. -/
inductive WRegion where
  | dram | onDie | cluster | lantern | local_ | rom | reg | host
deriving DecidableEq, Repr

/-- The `n` bytes from an offset of register space lie in a block that a codec header processor reaches: TIME, ICU, BPM,
DMA or its own CDC window. -/
def headerReach (c off n : Nat) : Bool :=
  let within := fun lo => decide (lo ≤ off) && decide (off + n ≤ lo + 0x10000)
  within 0x10000 || within 0x40000 || within 0x80000 || within 0x90000 || within (0x100000 + 0x10000 * c)

/-- The region that holds the `n` bytes from a physical address and that core `c` reaches, in kernel mode or not. -/
def wRegion (c : Fin 13) (kernel : Bool) (a n : Nat) : Option WRegion :=
  let within := fun (lo size : Nat) => decide (lo ≤ a) && decide (a + n ≤ lo + size)
  if within 0 0x800000000 then some .dram
  else if within 0x1000000000 0x800000 then some .onDie
  else if within 0x2000000000 0x200000 && decide (8 ≤ c.val) then some .cluster
  else if within 0x2100000000 0x100000 && c == 12 then some .lantern
  else if within 0x3000000000 (if c.val < 8 then 0x80000 else 0x4000) then some .local_
  else if within 0x4000000000 0x200000 && kernel then some .rom
  else if within 0x5000000000 0x800000 && (decide (8 ≤ c.val) || headerReach c.val (a - 0x5000000000) n) then some .reg
  else if within 0x800000000000 0x800000000000 && decide (8 ≤ c.val) && kernel then some .host
  else none

/-- Bytes of a memory region, by physical address, as they stand in memory. -/
def State.wRaw (s : State) (c : Fin 13) (a n : Nat) : List Byte :=
  if a < 0x2000000000 then s.dev.bytes a n
  else if a < 0x2100000000 then s.wick.cluster.bytes (a - 0x2000000000) n
  else if a < 0x3000000000 then s.wick.lantern.bytes (a - 0x2100000000) n
  else if a < 0x4000000000 then (s.wc c).mem.bytes (a - 0x3000000000) n
  else (List.range n).map (fun i => Config.romWord (a - 0x4000000000 + i))

/-- Put bytes into a memory region without the checks of a bus write: the write-back of a line. -/
def State.wPut (s : State) (c : Fin 13) (a : Nat) (bs : List Byte) : State :=
  if a < 0x2000000000 then { s with dev := s.dev.setBytes a bs }
  else if a < 0x2100000000 then { s with wick.cluster := s.wick.cluster.setBytes (a - 0x2000000000) bs }
  else if a < 0x3000000000 then { s with wick.lantern := s.wick.lantern.setBytes (a - 0x2100000000) bs }
  else if a < 0x4000000000 then s.setWc c { s.wc c with mem := (s.wc c).mem.setBytes (a - 0x3000000000) bs }
  else s

/-! ### Data caches and the directory -/

/-- A line of a core's data cache, by physical address / 64. -/
def WickCore.cached (k : WickCore) (line : Nat) : Option CacheLine := k.dcache.find? (fun l => l.line == line)

/-- A core loses a line; a reservation on it is cleared (R309). -/
def WickCore.lose (k : WickCore) (line : Nat) : WickCore :=
  { k with
    dcache := k.dcache.filter (fun l => l.line != line)
    reservation := if k.reservation = some line then none else k.reservation }

/-- The physical line of a cluster line. -/
def clusterLine (line : Nat) : Nat := 0x2000000000 / 64 + line
/-- A physical line lies in cluster memory. -/
def isCluster (line : Nat) : Bool := decide (0x2000000000 / 64 ≤ line) && decide (line < 0x2000200000 / 64)
/-- The directory's state of a cluster line. -/
def State.dir (s : State) (line : Nat) : DirSt := Table.get .unowned s.wick.dir line
/-- Set the directory's state of a cluster line. -/
def State.setDir (s : State) (line : Nat) (d : DirSt) : State := { s with wick.dir := Table.set .unowned s.wick.dir line d }

/-- Change the caches of the five requesters. -/
def State.forRequesters (s : State) (f : Fin 5 → WickCore → WickCore) : State :=
  forEach (List.finRange 5) s (fun r s => s.setWc (requesterCore r) (f r (s.wc (requesterCore r))))

/-- A WB of a modified cluster line by its owner: memory is written and the line is UNOWNED (Table 10-11). A WB from any
other requester is dropped. -/
def State.dirWb (s : State) (r : Fin 5) (line : Nat) : State :=
  let c := requesterCore r
  if s.dir line = .owned r then
    let s1 := match (s.wc c).cached (clusterLine line) with
      | some l => s.wPut c (64 * clusterLine line) l.bytes
      | none => s
    (s1.setWc c ((s1.wc c).lose (clusterLine line))).setDir line .unowned
  else s

/-- Put a line into a core's data cache. -/
def WickCore.hold (k : WickCore) (line : Nat) (bs : List Byte) (dirty : Bool) : WickCore :=
  { k with dcache := ⟨line, bs, dirty⟩ :: k.dcache.filter (fun l => l.line != line) }

/-- The directory grants READ or OWN of a cluster line to a requester (Table 10-11), whose cache then holds it. -/
def State.dirGrant (s : State) (r : Fin 5) (line : Nat) (own : Bool) : State :=
  let p := clusterLine line
  let me := requesterCore r
  let mine : BitVec 5 := 1 <<< r.val
  match s.dir line with
  | .unowned =>
    (s.setWc me ((s.wc me).hold p (s.wRaw me (64 * p) 64) own)).setDir line (if own then .owned r else .shared mine)
  | .shared who =>
    if own then
      let s1 := s.forRequesters (fun q k => if q ≠ r ∧ who.getLsbD q.val then k.lose p else k)
      (s1.setWc me ((s1.wc me).hold p (s1.wRaw me (64 * p) 64) true)).setDir line (.owned r)
    else (s.setWc me ((s.wc me).hold p (s.wRaw me (64 * p) 64) false)).setDir line (.shared (who ||| mine))
  | .owned q =>
    if q = r then s
    else
      let you := requesterCore q
      let data := match (s.wc you).cached p with
        | some l => l.bytes
        | none => s.wRaw me (64 * p) 64
      if own then
        let s1 := s.setWc you ((s.wc you).lose p)
        (s1.setWc me ((s1.wc me).hold p data true)).setDir line (.owned r)
      else
        let s1 := (s.setWc you ((s.wc you).hold p data false)).wPut me (64 * p) data
        (s1.setWc me ((s1.wc me).hold p data false)).setDir line (.shared (mine ||| (1 <<< q.val)))

/-- Write back a line of a core's data cache, if it is dirty (CWB). -/
def State.wWriteBack (s : State) (c : Fin 13) (line : Nat) : State :=
  match (s.wc c).cached line with
  | none => s
  | some l =>
    if !l.dirty then s
    else
      let s1 := s.wPut c (64 * line) l.bytes
      let s2 := s1.setWc c ((s1.wc c).hold line l.bytes false)
      if isCluster line then
        s2.setDir (line - 0x2000000000 / 64) (.shared (1 <<< wickRequester c))
      else s2

/-- Make room in a full data cache of 512 lines: the spec does not say which line leaves (assumption 4). -/
def State.wRoom (s : State) (c : Fin 13) : State :=
  let k := s.wc c
  if k.dcache.length < 512 then s
  else
    match k.dcache[s.drawFree.1 % k.dcache.length]? with
    | none => s.drawFree.2
    | some l =>
      let s1 := s.drawFree.2
      let s2 := if isCluster l.line ∧ l.dirty then
          match (List.finRange 5).find? (fun r => requesterCore r == c) with
          | some r => s1.dirWb r (l.line - 0x2000000000 / 64)
          | none => s1
        else s1.wWriteBack c l.line
      s2.setWc c ((s2.wc c).lose l.line)

/-- Have a line in the data cache: shared or clean for a load, owned or dirty for a store. -/
def State.wHave (s : State) (c : Fin 13) (store : Bool) (line : Nat) : State :=
  match (s.wc c).cached line with
  | some l =>
    if !store || l.dirty then s
    else if isCluster line then
      match (List.finRange 5).find? (fun r => requesterCore r == c) with
      | some r => s.dirGrant r (line - 0x2000000000 / 64) true
      | none => s
    else s.setWc c ((s.wc c).hold line l.bytes true)
  | none =>
    let s1 := s.wRoom c
    if isCluster line then
      match (List.finRange 5).find? (fun r => requesterCore r == c) with
      | some r => s1.dirGrant r (line - 0x2000000000 / 64) store
      | none => s1
    else
      let s2 := if 64 * line < 0x2000000000 then s1.devRead (64 * line) 64 else s1
      s2.setWc c ((s2.wc c).hold line (s2.wRaw c (64 * line) 64) store)

/-- A byte of the data cache. -/
def WickCore.cacheByte (k : WickCore) (a : Nat) : Byte :=
  match k.cached (a / 64) with
  | some l => (l.bytes[a % 64]?).getD 0
  | none => 0

/-- Write bytes into lines of the data cache. -/
def WickCore.cachePut (k : WickCore) (a : Nat) : List Byte → WickCore
  | [] => k
  | b :: bs =>
    WickCore.cachePut { k with
      dcache := k.dcache.map (fun l => if l.line = a / 64 then { l with bytes := setAt l.bytes (a % 64) b } else l) }
      (a + 1) bs

/-- The lines that `n` bytes from an address touch, for `n` of at most 16. -/
def wLines (a n : Nat) : List Nat := if a / 64 = (a + n - 1) / 64 then [a / 64] else [a / 64, (a + n - 1) / 64]

/-! ### Requests at the directory (R321) -/

/-- The READ or OWN that the directory takes first: those refused twice in a row come first, then the lower number. -/
def State.dirFirst (s : State) (line : Nat) (l : List (Fin 5 × DirReq)) : Option (Fin 5 × DirReq) :=
  let asks := l.filter (fun e => e.2 != .wb)
  let rank := fun e : Fin 5 × DirReq =>
    (if 2 ≤ Table.get 0 s.wick.retries (line * 8 + e.1.val) then 0 else 8) + e.1.val
  asks.foldl (fun best e => match best with
    | none => some e
    | some b => if rank e < rank b then some e else some b) none

/-- Requests for one line that reach the directory in one cycle (R321). -/
def State.dirTake (s : State) (line : Nat) (l : List (Fin 5 × DirReq)) : State :=
  let s1 := forEach (l.filter (fun e => e.2 == .wb)) s (fun e s => s.dirWb e.1 line)
  match s1.dirFirst line l with
  | none => s1
  | some e =>
    let s2 := s1.dirGrant e.1 line (e.2 == .own)
    let others := l.filter (fun x => x.2 != .wb && x.1 != e.1)
    let s3 := { s2 with wick.retries := Table.set 0 s2.wick.retries (line * 8 + e.1.val) 0 }
    forEach others s3 (fun x s => { s with wick.retries := Table.upd 0 s.wick.retries (line * 8 + x.1.val) (· + 1) })

/-! ### Reset and lock-up -/

/-- A core's reset (R328). Its local memory keeps its bytes; cluster lines it held are no longer held. -/
def State.wickReset (s : State) (c : Fin 13) : State :=
  let k := s.wc c
  let s1 := s.setWc c { WickCore.reset with mem := k.mem, since := s.now }
  if c.val < 8 then s1
  else
    let drop := fun d : DirSt => match d with
      | .owned r => if requesterCore r = c then .unowned else d
      | .shared who =>
        let w := who &&& ~~~((1 : BitVec 5) <<< wickRequester c)
        if w = 0 then .unowned else .shared w
      | .unowned => d
    { s1 with wick.dir := (s1.wick.dir.map (fun e => (e.1, drop e.2))).filter (fun e => e.2 != .unowned) }

/-- A core locks up (R318). -/
def State.wickLock (s : State) (c : Fin 13) : State :=
  let s1 := s.setWc c { s.wc c with locked := true, load := none, stepping := false }
  if c.val < 8 then s1.fault (0x010 + c.val) 0x07 0
  else if c = 12 then s1.fault 0x001 0x02 0
  else s1.fault (0x050 + (c.val - 8)) 0x02 0

/-! ### Customer routines -/

/-- A Lamplighter core as a Wick core. -/
def lampWick (k : Nat) : Fin 13 := ⟨8 + k % 4, by omega⟩

/-- A routine. -/
def State.routine (s : State) (n : Nat) : Option Routine := Table.get .none s.lmp.routines n

/-- Write back and invalidate the lines of a segment (R292). -/
def State.wFlushSeg (s : State) (c : Fin 13) (g : WSeg) : State :=
  let mine := (s.wc c).dcache.filter (fun l =>
    decide (g.base.toNat < 64 * l.line + 64) && decide (64 * l.line < g.base.toNat + g.limit.toNat))
  forEach mine s (fun l s =>
    let s1 := if isCluster l.line ∧ l.dirty then
        match (List.finRange 5).find? (fun r => requesterCore r == c) with
        | some r => s.dirWb r (l.line - 0x2000000000 / 64)
        | none => s
      else s.wWriteBack c l.line
    s1.setWc c ((s1.wc c).lose l.line))

/-- The CALL that runs on a core ends: firmware has written back and invalidated the lines of SEG1 and SEG2 (R292) and
goes on where it was. -/
def State.callLeave (s : State) (c : Fin 13) : State :=
  match (s.wc c).call with
  | none => s
  | some w =>
    let s1 := (s.wFlushSeg c ((s.wc c).usegs[1])).wFlushSeg c ((s.wc c).usegs[2])
    s1.setWc c { s1.wc c with
      call := none, u := false, ie := w.ie, ld := w.ld, ac := 0, pc := w.pc, kcsp := w.kcsp, ed := w.ed
      load := none, reservation := none }

/-- The routine has returned: g1 decides the outcome of the CALL (R278). -/
def State.callReturn (s : State) (c : Fin 13) : State :=
  match (s.wc c).call with
  | none => s
  | some w =>
    let g1 := ((s.wc c).reg 1).toNat
    let s1 := s.callLeave c
    if g1 = 0 then s1.endCcw w.channel .ok .none 0 0
    else if g1 = 1 then s1.endCcw w.channel .skipNext .none 0 0
    else if g1 < 256 then s1.failCcw w.channel .unitError .none g1
    else s1.failCcw w.channel .programError .range 0

/-- The routine has raised an exception (R278). -/
def State.callFault (s : State) (c : Fin 13) (vector : Nat) : State :=
  match (s.wc c).call with
  | none => s
  | some w => (s.callLeave c).failCcw w.channel .programError .routineFault vector

/-- The routine is stopped before it has returned. -/
def State.callStop (s : State) (ch : Nat) : State :=
  match (List.finRange 13).find? (fun c => ((s.wc c).call.map WCall.channel) == some ch) with
  | some c => s.callLeave c
  | none => s

/-- The offset of the routine area and of a channel's stacks in cluster memory (R277). -/
def routineArea : Nat := 0x20001C0000
/-- A channel's data stack. -/
def dataStack (ch : Nat) : Nat := 0x2000170000 + 0x1400 * ch
/-- A channel's call stack. -/
def callStack (ch : Nat) : Nat := 0x2000171000 + 0x1400 * ch

/-- An uncorrectable error in cluster memory, by the offset it has hit: a CALL whose stacks lie there has lost its state,
and its CCW ends with UNIT_LOST (R277, R286). -/
def State.clusterStruck (s : State) (off : Nat) : State :=
  let ch := (off - 0x170000) / 0x1400
  if 0x170000 ≤ off ∧ off < 0x1C0000 ∧ (List.finRange 13).any (fun c => ((s.wc c).call.map WCall.channel) == some ch) then
    (s.callStop ch).endCcw ch .unitLost .none 0 0
  else s

/-- A segment. -/
def wSegOf (base limit : Nat) (r w x c : Bool) : WSeg := ⟨BitVec.ofNat 48 base, BitVec.ofNat 32 limit, r, w, x, c⟩

/-- Firmware sets up the user bank and enters a routine (R277, R319). -/
def State.callEnter (s : State) (c : Fin 13) (ch : Nat) (t : Routine) (window count arg : Nat) (readOnly : Bool) :
    State :=
  let k := s.wc c
  let code := routineArea + t.base
  let k1 := ({ k with
    call := some ⟨ch, k.pc, k.ie, k.ld, k.kcsp, k.ed⟩
    usegs := #v[wSegOf code t.codeLen false false true false, wSegOf window count true (!readOnly) false true,
      wSegOf (code + t.codeLen) t.dataLen true true false false, WSeg.none, WSeg.none, WSeg.none,
      wSegOf (dataStack ch) 4096 true true false false, wSegOf (callStack ch) 1024 true true false false]
    udsp := 4096, ucsp := 1020, u := true, ie := true, ld := 0, ac := 0, pc := BitVec.ofNat 32 t.entry
    load := none, reservation := none, waiting := false } : WickCore)
  let k2 := (k1.setReg 1 (BitVec.ofNat 32 count)).setReg 2 (BitVec.ofNat 32 arg)
  let top := callStack ch + 1020
  let s1 := (s.setWc c k2).wHave c true (top / 64)
  s1.setWc c ((s1.wc c).cachePut top (leBytes 4 0xFFFFFFF0))

/-- CALL (R277, R278): the window must lie in device space, the routine must be loaded and open to the function. -/
def State.ccwCall (s : State) (c : Nat) (w : List Byte) : State :=
  s.runCcw c w (· == 0x0D) (fun t b =>
    let n := fieldLe b 16 1
    let core := t.lampCore
    if ccwSubch b ≠ 0 ∨ 64 ≤ n ∨ 2 ≤ fieldLe b 17 1 ∨ fieldLe b 18 2 ≠ 0 ∨ fieldLe b 24 8 ≠ 0 then
      t.failCcw c .programError .range 0
    else if !isDevice (ccwAddr b) then
      t.failCcw c .programError (if t.pwr.mode == .continuity then .hostUnavailable else .address) 0
    else
      match t.areaCheck (ccwAddr b) (max 1 (ccwCount b)), t.routine n with
      | some code, _ => t.failCcw c .programError code 0
      | none, none => t.failCcw c .programError .range 0
      | none, some r =>
        if !r.mask.getLsbD (t.chan c).fn then t.failCcw c .accessError .protection 0
        else
          let until_ := t.time.run + microsecond * bits (t.regOr 1000 0xE0008) 16 0
          let t1 := t.setChan c { t.chan c with st := .active, wait := .call n until_, core := core }
          t1.callEnter (lampWick core) c r (spaceOff (ccwAddr b)) (ccwCount b) (fieldLe b 20 4) (bit (fieldLe b 17 1) 0))

/-- ROUTINE_TIMEOUT: the routine is stopped after LIMIT µs (R278). -/
def State.routineTimeout (s : State) (c : Nat) : State :=
  match (s.chan c).wait with
  | .call _ u => ((s.advanceToRun u).callStop c).failCcw c .programError .routineTimeout 0
  | _ => s

/-- CCW_CALL. -/
def execCcwCall (c : Fin 64) (w : List Byte) (s : State) : Host.Outcome State Fault Refusal :=
  .next (s.ccwCall c.val w)
/-- ROUTINE_TIMEOUT. -/
def execRoutineTimeout (c : Fin 64) (s : State) : Host.Outcome State Fault Refusal :=
  .next (if s.live then s.routineTimeout c.val else s)
/-- DIR_READ. -/
def execDirRead (r : Fin 5) (line : Fin 32768) (same : List (Fin 5 × DirReq)) (s : State) :
    Host.Outcome State Fault Refusal := .next (s.dirTake line.val ((r, .read) :: same.filter (fun e => e.1 != r)))
/-- DIR_OWN. -/
def execDirOwn (r : Fin 5) (line : Fin 32768) (same : List (Fin 5 × DirReq)) (s : State) :
    Host.Outcome State Fault Refusal := .next (s.dirTake line.val ((r, .own) :: same.filter (fun e => e.1 != r)))
/-- DIR_WB. -/
def execDirWb (r : Fin 5) (line : Fin 32768) (same : List (Fin 5 × DirReq)) (s : State) :
    Host.Outcome State Fault Refusal := .next (s.dirTake line.val ((r, .wb) :: same.filter (fun e => e.1 != r)))

end Sys2Proof.Machine
end

