-- ==== Sys2Proof/Machine/Peripherals.lean ====
section
/-!
DEFINITION. Machine/Peripherals.lean: WRITE, READ, SENSE and CONTROL CCWs on peripheral and DMA subchannels, the ends of
their transfers, GPIO, the status ring and the routines' loading (R247 to R249, R253, R262, R269 to R276).
-/
namespace Sys2Proof.Machine

/-! ### Subchannels -/

/-- The kinds of peripheral of Table 09-1. -/
inductive PKind where
  | uart | spi | i2c | can | i2s | gpio
deriving DecidableEq, Repr

/-- The peripheral of a subchannel number. -/
def periph (u : Nat) : Option PKind :=
  if u < 0x08 then some .uart else if u < 0x0C then some .spi else if u < 0x10 then some .i2c
  else if u < 0x12 then some .can else if u < 0x16 then some .i2s else if u = 0x16 then some .gpio else none

/-- A DMA subchannel. -/
def isDmaSub (u : Nat) : Bool := decide (0x40 ≤ u) && decide (u < 0x80)

/-- LMP_SCH_OWN[s]. -/
def State.subOwn (s : State) (u : Nat) : Nat := s.regOr 0 (0xE0100 + 4 * u)
/-- A channel may use a subchannel below 0x080 (R248). -/
def State.subGranted (s : State) (c u : Nat) : Bool := bit (s.subOwn u) 4 && bits (s.subOwn u) 3 0 == (s.chan c).fn

/-- The last CONFIG order of a subchannel; the reset values of Table 09-9 before the first. -/
def State.periphConfig (s : State) (u : Nat) : List Byte :=
  match Table.get [] s.lmp.config u with
  | [] =>
    match periph u with
    | some .uart => leBytes 4 1 ++ leBytes 4 115200 ++ [0, 0, 1, 1] ++ leBytes 2 100 ++ [4, 0] ++ List.replicate 16 0
    | some .spi => leBytes 4 1 ++ leBytes 4 1000000 ++ List.replicate 24 0
    | some .i2c => leBytes 4 1 ++ leBytes 4 100000 ++ List.replicate 24 0
    | some .i2s => leBytes 4 1 ++ leBytes 4 48000 ++ List.replicate 24 0
    | _ => List.replicate 32 0
  | b => b

/-- BREAK_TO of a UART, in units. -/
def State.breakTo (s : State) (u : Nat) : Nat := millisecond * fieldLe (s.periphConfig u) 12 2

/-- An EXT field of a CCW; 0 without EXT (R269). -/
def ccwExt (b : List Byte) (i n : Nat) : Nat := if ccwFlag b 7 then fieldLe b i n else 0
/-- RETRY. -/
def ccwRetryMax (b : List Byte) : Nat := ccwExt b 16 1
/-- TIMEOUT, in µs. -/
def ccwTimeout (b : List Byte) : Nat := ccwExt b 20 4

/-- The extension's fields keep to Table 09-11. -/
def ccwExtFields (u : Nat) (b : List Byte) : Bool :=
  let addr := ccwExt b 18 2
  decide (ccwRetryMax b ≤ 7) && ccwExt b 17 1 == 0
    && (match periph u with | some .i2c => decide (addr < 128) | some .spi => decide (addr < 4) | _ => addr == 0)
    && (ccwOp b == 0x02 || ccwTimeout b == 0) && (isDmaSub u || ccwExt b 24 8 == 0)

/-! ### Data areas -/

/-- The pages that a list serves a count of bytes from (R253): the first to the next 4 KiB boundary, each later one
aligned to 4 KiB. -/
def pageAreas : List DWord → Bool → Nat → Except CcwCode (List (DWord × Nat))
  | _, _, 0 => .ok []
  | [], _, _ + 1 => .error .address
  | a :: t, first, n + 1 =>
    if !first && a.toNat % 4096 ≠ 0 then .error .align
    else
      let k := min (n + 1) (4096 - a.toNat % 4096)
      match pageAreas t false (n + 1 - k) with
      | .error e => .error e
      | .ok l => .ok ((a, k) :: l)

/-- The 8-byte entries of a page list. -/
def pageEntries : Nat → List Byte → List DWord
  | 0, _ => []
  | n + 1, b => BitVec.ofNat 64 (fieldLe b 0 8) :: pageEntries n (b.drop 8)

/-- The first area that may not be reached says why. -/
def State.areasCheck (s : State) (l : List (DWord × Nat)) : Option CcwCode := l.findSome? (fun e => s.areaCheck e.1 e.2)

/-- The data areas of a CCW. A page list in device space is read there; one in host space is as the read returned it. -/
def State.ccwAreas (s : State) (b : List Byte) (n : Nat) (pages : List DWord) : Except CcwCode (List (DWord × Nat)) :=
  let a := ccwAddr b
  let l : Except CcwCode (List (DWord × Nat)) :=
    if !ccwFlag b 6 then .ok (if n = 0 then [] else [(a, n)])
    else if a.toNat % 8 ≠ 0 then .error .align
    else
      let k := n / 4096 + 2
      match s.areaCheck a 8 with
      | some code => .error code
      | none =>
        match pageAreas (if isDevice a then pageEntries k (s.dev.bytes (spaceOff a) (8 * k)) else pages) true n with
        | .error e => .error e
        | .ok l => match s.areaCheck a (8 * l.length) with
          | some code => .error code
          | none => .ok l
  match l with
  | .error e => .error e
  | .ok l => match s.areasCheck l with
    | some e => .error e
    | none => .ok l

/-- The bytes of data areas: of device space from memory, of host space as the reads returned them. -/
def State.gather (s : State) : List (DWord × Nat) → List Byte → List Byte
  | [], _ => []
  | (a, n) :: t, data =>
    if isDevice a then s.dev.bytes (spaceOff a) n ++ s.gather t data
    else (data.take n ++ List.replicate (n - data.length) 0) ++ s.gather t (data.drop n)

/-- Store received bytes in data areas; those of an area without an address are discarded (R253). -/
def State.scatter (s : State) : List (Option DWord × Nat) → List Byte → State
  | [], _ => s
  | (a, n) :: t, bs =>
    let s1 := match a with
      | some a => if bs.isEmpty then s else s.spaceWrite a (bs.take n)
      | none => s
    s1.scatter t (bs.drop n)

/-- What reading device data areas does to memory, and whether they hold poison. -/
def State.readAreas (s : State) (l : List (DWord × Nat)) : State × Bool :=
  let dev := l.filter (fun e => isDevice e.1)
  (forEach dev s (fun e s => s.devRead (spaceOff e.1) e.2), dev.any (fun e => s.poisonIn (spaceOff e.1) e.2 != []))

/-! ### Unit errors and the begin of a transfer -/

/-- Record a unit error of a subchannel (R275). -/
def State.senseErr (s : State) (c u code : Nat) (levels : BitVec 16) : State :=
  let x := s.chan c
  { s with
    lmp.sense := Table.set ⟨0, 0, 0, 0⟩ s.lmp.sense u ⟨BitVec.ofNat 8 code, x.retriesUsed, levels, s.time.dts⟩
    lmp.unitErrors := Table.upd 0 s.lmp.unitErrors (c * 1024 + u) (· + 1) }

/-- How long the wait before a retry may last (R273). -/
def State.retryBound (s : State) (u code : Nat) : Nat :=
  if code = 1 then s.breakTo u else if code = 2 then 35 * millisecond else 0

/-- A peripheral CCW ends with a unit error, or is to be carried out again under RETRY (R273). -/
def State.unitErr (s : State) (c u code : Nat) (levels : BitVec 16) (moved : Nat) : State :=
  let s1 := s.senseErr c u code levels
  let x := s1.chan c
  match x.cur with
  | none => s1
  | some b =>
    if x.st ≠ .halting ∧ 1 ≤ code ∧ code ≤ 7 ∧ x.retriesUsed < ccwRetryMax b.first then
      s1.setChan c { x with retriesUsed := x.retriesUsed + 1, wait := .retry u (s1.now + s1.retryBound u code) }
    else s1.endCcw c .unitError .none (BitVec.ofNat 8 code) moved

/-- The line-fault record of the event log (R274; type 6 of Table 15-13). -/
def State.lineFault (s : State) (u code : Nat) (levels : Byte) : State :=
  let fn := if bit (s.subOwn u) 4 then bits (s.subOwn u) 3 0 else 0xFF
  s.logRecord 6 fn (leBytes 2 u ++ leBytes 1 code ++ [levels] ++ leBytes 4 0)

/-- A transfer begins on a subchannel: at once it meets a recorded stuck line or a bus-off. -/
def State.beginTransfer (s : State) (c u : Nat) : State :=
  let x := s.chan c
  match x.cur with
  | none => s
  | some b =>
    if u < 8 ∧ s.lmp.stuck.getLsbD u then
      { s with lmp.stuck := s.lmp.stuck &&& ~~~((1 : BitVec 8) <<< u) }.unitErr c u 1 0 0
    else if (u = 0x10 ∨ u = 0x11) ∧ s.lmp.busOff.getLsbD (u - 0x10) ∧ ccwOp b.first ≠ 0x03 then s.unitErr c u 8 1 0
    else
      let t := ccwTimeout b.first
      let until_ := if ccwOp b.first = 0x02 ∧ t ≠ 0 then some (s.now + microsecond * t) else none
      let s1 := s.setChan c { x with wait := .transfer u until_ }
      if isDmaSub u then
        s1.setDma (u - 0x40) { s1.dmaCh (u - 0x40) with
          st := .running, desc := none, resid := (b.areas.map Prod.snd).sum, code := 0, retries := 0, retryAt := none
          retrying := false, readBytes := 0, endedBytes := 0, fillBytes := 0, bytes := 0, descs := 0 }
      else s1

/-- Take a subchannel for a channel's CCW, or wait for it (R249). -/
def State.takeSubch (s : State) (c u : Nat) : State × Bool :=
  match Table.get .none s.lmp.busy u with
  | some d =>
    if d = c then (s, true)
    else
      let q := Table.get [] s.lmp.queues u
      ({ s.setChan c { s.chan c with st := .waiting, wait := .subchannel u } with
        lmp.queues := Table.set [] s.lmp.queues u (q ++ [c]) }, false)
  | none => ({ s with lmp.busy := Table.set .none s.lmp.busy u (some c) }, true)

/-- The checks of a WRITE, READ or SENSE before it takes its subchannel: result and code of the refusal. -/
def State.subCheck (s : State) (c u op : Nat) : Option (CcwResult × CcwCode) :=
  let ok := match periph u with
    | some k => op != 0x02 || (k != .i2s && k != .gpio)
    | none => isDmaSub u && op == 0x01
  if !ok then some (.programError, .invalidSubchannel)
  else if !s.subGranted c u then some (.accessError, .protection) else none

/-- Add the areas of a CCW of a span to its transfer; the last one begins it (R253). -/
def State.addAreas (s : State) (c u : Nat) (b : List Byte) (pages : List DWord) (data : List Byte) : State :=
  let x := s.chan c
  match x.cur with
  | none => s
  | some k =>
    if 16777215 < ccwCount b then s.failCcw c .programError .range 0
    else
      match s.ccwAreas b (ccwCount b) pages with
      | .error code => s.failCcw c .programError code 0
      | .ok l =>
        let write := ccwOp k.first = 0x01
        let r := if write then s.readAreas l else (s, false)
        if r.2 && !isDmaSub u then r.1.failCcw c .poison .none 0
        else
          let more := l.map (fun e => (if !write ∧ ccwFlag b 2 then none else some e.1, e.2))
          let k1 := { k with areas := k.areas ++ more, data := if write then k.data ++ s.gather l data else [] }
          let s1 := r.1.setChan c { r.1.chan c with cur := some k1 }
          if ccwFlag b 1 then s1.setChan c { s1.chan c with spanning := true, ccw := k.address + BitVec.ofNat 64 (ccwLen b) }
          else (s1.setChan c { s1.chan c with spanning := false }).beginTransfer c u

/-- The CCW that continues a span: its OPCODE and SUBCH are ignored (R253). -/
def State.continueSpan (s : State) (c : Nat) (w : List Byte) (pages : List DWord) (data : List Byte) : State :=
  let x := s.chan c
  match x.cur with
  | none => s
  | some k =>
    if !s.ccwsGoOn || s.pwr.mode == .recovery then s
    else
      match s.fetchCheck x.ccw w with
      | some (r, code) => s.failCcw c r code 0
      | none =>
        let b := s.ccwBytes x.ccw w
        if ccwFlag b 7 && (ccwExtLen b < 2 || 5 < ccwExtLen b) || (!ccwFlag b 7 && ccwExtLen b ≠ 0) then
          s.failCcw c .programError .invalidFlags 0
        else
          let s1 := s.setChan c { x with
            cur := some { k with address := x.ccw, bytes := b }, ccwAddr := x.ccw, residual := BitVec.ofNat 32 (ccwCount b) }
          let s2 := if ccwFlag b 5 then s1.postCsw c 1 0 else s1
          s2.addAreas c (ccwSubch k.first) b pages data

/-- A WRITE or READ CCW (R269, R271). -/
def State.ccwMove (s : State) (c op : Nat) (w : List Byte) (pages : List DWord) (data : List Byte) : State :=
  let x := s.chan c
  if x.spanning && x.wait == .none then
    match x.cur with
    | some k => if ccwOp k.first = op then s.continueSpan c w pages data else s
    | none => s
  else
    s.runCcw c w (· == op) (fun t b =>
      let u := ccwSubch b
      match t.subCheck c u op with
      | some (r, code) => t.failCcw c r code 0
      | none =>
        if !ccwExtFields u b then t.failCcw c .programError .range 0
        else if (u = 0x10 ∨ u = 0x11) ∧ ccwCount b % 80 ≠ 0 then t.failCcw c .programError .range 0
        else if isDmaSub u ∧ (t.dmaCh (u - 0x40)).isolated then t.failCcw c .unitLost .none 0
        else if isDmaSub u ∧ (t.areaCheck (BitVec.ofNat 64 (ccwExt b 24 8)) (max 1 (ccwCount b))).isSome then
          t.failCcw c .programError .address 0
        else
          let r := t.takeSubch c u
          if r.2 then r.1.addAreas c u b pages data else r.1)

/-! ### The end of a transfer -/

/-- The frames that a CAN READ takes (R271). -/
def State.canTake (s : State) (u n : Nat) : List Byte × State :=
  let q := Table.get [] s.lmp.canRx (u - 0x10)
  ((q.take n).flatten, { s with lmp.canRx := Table.set [] s.lmp.canRx (u - 0x10) (q.drop n) })

/-- The offset of the first poisoned byte of device data areas. -/
def State.firstPoison (s : State) : List (Option DWord × Nat) → Nat → Option Nat
  | [], _ => none
  | (some a, n) :: t, i =>
    match (if isDevice a then s.poisonIn (spaceOff a) n else []) with
    | [] => s.firstPoison t (i + n)
    | w :: _ => some (i + (8 * w - spaceOff a))
  | (none, n) :: t, i => s.firstPoison t (i + n)

/-- The words of the destination that the poisoned words of the first `lim` bytes of the areas go to. -/
def State.poisonTo (s : State) (dst lim : Nat) : List (Option DWord × Nat) → Nat → List Nat
  | [], _ => []
  | (some a, n) :: t, i =>
    (if isDevice a then (s.poisonIn (spaceOff a) (min n (lim - i))).flatMap
        (movedWords (spaceOff a) (dst + i) (min n (lim - i))) else []) ++ s.poisonTo dst lim t (i + n)
  | (none, n) :: t, i => s.poisonTo dst lim t (i + n)

/-- The end of a DMA WRITE (R389 to R392): the bytes go to DEST, the channel ends in DONE, or in ERROR with MEDIA_ERROR
after the block that holds poison. The flag says that poison was met, the number how many bytes were moved. -/
def State.dmaMove (s : State) (d : Nat) (k : CurCcw) : State × Bool × Nat :=
  let dst := BitVec.ofNat 64 (ccwExt k.first 24 8)
  let n := k.data.length
  let x := s.dmaCh d
  match s.firstPoison k.areas 0 with
  | none =>
    let s1 := s.spaceWrite dst k.data
    (s1.dmaEnd d { x with
      resid := 0, bytes := BitVec.ofNat 64 n, descs := x.descs + 1, readBytes := n, endedBytes := n } .done .ok, false, n)
  | some p =>
    let blockEnd := min n ((spaceOff dst + p) / 4096 * 4096 + 4096 - spaceOff dst)
    let s1 := s.spaceWrite dst (k.data.take blockEnd)
    let s2 := if isDevice dst then s1.poisonWords (s.poisonTo (spaceOff dst) blockEnd k.areas 0) else s1
    (s2.dmaHalt d { x with
      resid := n - blockEnd, bytes := BitVec.ofNat 64 blockEnd, readBytes := blockEnd } .mediaError 2, true, blockEnd)

/-- The DMA channel of a transfer that does not complete. -/
def State.dmaCut (s : State) (u : Nat) (st : DmaSt) (code : Status) : State :=
  if isDmaSub u then s.dmaEnd (u - 0x40) (s.dmaCh (u - 0x40)) st code else s

/-- What a READ takes of the bytes that came in: on a UART with TERM_EN, up to the terminator (R271). -/
def State.untilTerm (s : State) (u : Nat) (bs : List Byte) : List Byte :=
  let b := s.periphConfig u
  let rest := bs.dropWhile (fun x => x.toNat != fieldLe b 15 1)
  if periph u = some .uart ∧ bit (fieldLe b 8 1) 4 then bs.take (bs.length - (rest.length - 1)) else bs

/-- The bytes that a transfer of which `moved` bytes went through has put on its line (R271): SPI sends 0xFF while it reads, and I2C
the target's address with the direction. -/
def CurCcw.sent (k : CurCcw) (u moved : Nat) : List Byte :=
  let write := ccwOp k.first == 0x01
  let data := if write then k.data.take moved else []
  match periph u with
  | some .spi => if write then data else List.replicate moved 0xFF
  | some .i2c => leBytes 1 (2 * ccwExt k.first 18 2 + b2n (!write)) ++ data
  | _ => data

/-- A controller sends bytes; a UART under RS485 drives UART_DE around them (R271). -/
def State.sendBytes (s : State) (k : CurCcw) (u moved : Nat) : State :=
  let b := s.periphConfig u
  let bs := k.sent u moved
  if bs.isEmpty then s
  else if periph u = some .uart ∧ bit (fieldLe b 9 1) 0 then
    (s.emit (.driveEnable u (fieldLe b 10 1) (fieldLe b 11 1))).emit (.peripheral u bs)
  else s.emit (.peripheral u bs)

/-- PERIPHERAL_TRANSFER_END: the transfer of a WRITE, READ or BREAK has ended, and its CCW ends (R253, R268, R271). -/
def State.transferEnd (s : State) (c : Nat) (e : TransferEnd) : State :=
  let x := s.chan c
  match x.wait, x.cur with
  | .transfer u _, some k =>
    let op := ccwOp k.first
    let total := (k.areas.map Prod.snd).sum
    let last := ccwCount k.bytes
    let can := op = 0x02 ∧ (u = 0x10 ∨ u = 0x11)
    let rx := if can then s.canTake u (total / 80) else ((s.untilTerm u e.received).take total, s)
    let clean := e.sense.val = 0 ∧ !e.lost ∧ !e.busError ∧ !e.poisoned ∧ x.st ≠ .halting
    let dma := if isDmaSub u ∧ clean then s.dmaMove (u - 0x40) k else (rx.2, false, 0)
    let moved :=
      if isDmaSub u then dma.2.2
      else if op = 0x02 then rx.1.length else if clean then total else min e.moved total
    let s1 :=
      if isDmaSub u then dma.1
      else if op = 0x02 then (rx.2.scatter k.areas rx.1).sendBytes k u moved
      else if op = 0x01 then s.sendBytes k u moved else s
    let y := s1.chan c
    let s2 := { s1.setChan c { y with wait := .none } with
      lmp.sense := Table.upd ⟨0, 0, 0, 0⟩ s1.lmp.sense u (fun q => { q with retries := y.retriesUsed }) }
    let lastMoved := moved - (total - last)
    if x.st = .halting then (s2.dmaCut u .stopped .ok).endCcw c .stopped .none 0 lastMoved
    else if e.lost then (s2.dmaCut u .error .deviceFault).endCcw c .unitLost .none 0 lastMoved
    else if e.busError then (s2.dmaCut u .error .busError).endCcw c .programError .address 0 lastMoved
    else if e.poisoned ∨ dma.2.1 then s2.endCcw c .poison .none 0 lastMoved
    else if e.sense.val ≠ 0 then
      let s3 := if e.sense.val = 8 ∧ (u = 0x10 ∨ u = 0x11) ∧ ¬ bit (fieldLe (s2.periphConfig u) 12 1) 2 then
        { s2 with lmp.busOff := s2.lmp.busOff ||| (1 <<< (u - 0x10)) } else s2
      s3.unitErr c u e.sense.val 0 lastMoved
    else if op = 0x02 ∧ moved < total ∧ !ccwFlag k.bytes 4 then s2.endCcw c .lengthError .none 0 lastMoved
    else s2.endCcw c .ok .none 0 (if op = 0x03 then last else lastMoved)
  | _, _ => s

/-- READ_TIMEOUT: a READ has received nothing within TIMEOUT (R272). -/
def State.readTimeout (s : State) (c : Nat) : State :=
  let x := s.chan c
  match x.wait with
  | .transfer u (some t) =>
    let s1 := s.advanceTo t
    if x.st = .halting then s1.endCcw c .stopped .none 0 0 else s1.unitErr c u 6 0 0
  | _ => s

/-- CCW_RETRY: the cause has cleared and the CCW is carried out again from the first byte of its span (R273). -/
def State.ccwRetry (s : State) (c : Nat) : State :=
  match (s.chan c).wait with
  | .retry u _ => s.beginTransfer c u
  | _ => s

/-- The channel whose transfer runs on a subchannel. -/
def State.transferOn (s : State) (u : Nat) : Option Nat :=
  match Table.get .none s.lmp.busy u with
  | some c => match (s.chan c).wait with
    | .transfer v _ => if v = u then some c else none
    | _ => none
  | none => none

/-- LINE_STUCK (R274). -/
def State.lineStuck (s : State) (u : Nat) : State :=
  let s1 := s.lineFault u 1 0
  match s1.transferOn u with
  | some c => s1.unitErr c u 1 0 0
  | none => { s1 with lmp.stuck := s1.lmp.stuck ||| (1 <<< u) }

/-- BUS_FAULT: a line of an I2C bus is still held low 35 ms after the fault was first seen (R274). -/
def State.busFault (s : State) (k : Nat) (levels : BitVec 2) : State :=
  let u := 0x0C + k
  let s1 := s.lineFault u 2 (levels.zeroExtend 8)
  match s1.transferOn u with
  | some c => s1.unitErr c u 2 (levels.zeroExtend 16) 0
  | none => s1

/-! ### GPIO -/

/-- The level of each GPIO pin now: driven pins, inverted while a pulse runs, and inputs. -/
def State.gpioLevels (s : State) : BitVec 48 :=
  let pulses := (s.lmp.gpioPulses.filter (fun e => decide (s.now < e.2))).foldl (fun m e => m ^^^ e.1) 0
  ((s.lmp.gpioOut &&& s.lmp.gpioDrive) ||| (s.lmp.gpioIn &&& ~~~s.lmp.gpioDrive)) ^^^ pulses

/-- GPIO_EDGE: an edge on an input pin sets the event bit it is bound to (R270). -/
def State.gpioEdge (s : State) (pin : Nat) (rising : Bool) : State :=
  if s.lmp.gpioDrive.getLsbD pin then s
  else
    let m : BitVec 48 := 1 <<< pin
    let s1 := { s with lmp.gpioIn := if rising then s.lmp.gpioIn ||| m else s.lmp.gpioIn &&& ~~~m }
    match Table.get .none s.lmp.gpioEvents pin with
    | some e =>
      if e.edge = 3 ∨ e.edge = (if rising then 1 else 2) then s1.setEvents e.channel (1 <<< e.bit) else s1
    | none => s1

/-! ### SENSE -/

/-- The 32 bytes of sense data (R275). -/
def State.senseBytes (s : State) (c u : Nat) : List Byte :=
  let q := Table.get ⟨0, 0, 0, 0⟩ s.lmp.sense u
  [q.code] ++ leBytes 1 q.retries ++ leBytes 2 q.levels.toNat ++ leBytes 4 (Table.get 0 s.lmp.unitErrors (c * 1024 + u))
    ++ leBytes 8 q.dts.toNat ++ leBytes 8 (if u = 0x16 then s.gpioLevels.toNat else 0) ++ leBytes 8 0

/-- A SENSE CCW (R275). -/
def State.ccwSense (s : State) (c : Nat) (w : List Byte) (pages : List DWord) : State :=
  s.runCcw c w (· == 0x04) (fun t b =>
    let u := ccwSubch b
    if (periph u).isNone then t.failCcw c .programError .invalidSubchannel 0
    else if !t.subGranted c u then t.failCcw c .accessError .protection 0
    else if 16777215 < ccwCount b then t.failCcw c .programError .range 0
    else
      match t.ccwAreas b (min 32 (ccwCount b)) pages with
      | .error code => t.failCcw c .programError code 0
      | .ok l =>
        let r := t.takeSubch c u
        if !r.2 then r.1
        else
          let t1 := if ccwFlag b 2 then r.1 else r.1.scatter (l.map (fun e => (some e.1, e.2))) (r.1.senseBytes c u)
          if ccwCount b < 32 then t1.endCcw c .lengthError .none 0 (ccwCount b) else t1.endCcw c .ok .none 0 32)

/-! ### Orders -/

/-- The order block of a CONTROL CCW: of device space from memory, of host space as the read returned it. -/
def State.orderBlock (s : State) (b : List Byte) (order : List Byte) : List Byte :=
  if isDevice (ccwAddr b) && !ccwFlag b 6 then s.dev.bytes (spaceOff (ccwAddr b)) 32
  else order.take 32 ++ List.replicate (32 - order.length) 0

/-- Bytes of a list that are all zero. -/
def orderZero (b : List Byte) (i n : Nat) : Bool := fieldLe b i n == 0

/-- An order block keeps to Table 09-9; the CAN, SPI, I2C, I2S and UART fields by kind. -/
def orderOk (k : PKind) (b : List Byte) : Bool :=
  let o := fieldLe b 0 1
  let n4 := fieldLe b 4 4
  let n := fun i => fieldLe b i 1
  let pins := fun i => decide (fieldLe b i 8 < 2 ^ 48)
  match k, o with
  | .uart, 1 =>
    orderZero b 1 3 && decide (300 ≤ n4) && decide (n4 ≤ 12000000) && decide (n 8 < 32) && decide (bits (n 8) 2 1 ≤ 2)
      && decide (n 9 < 2) && decide (1 ≤ fieldLe b 12 2) && decide (fieldLe b 12 2 ≤ 1000) && decide (1 ≤ n 14)
      && orderZero b 16 16
  | .uart, 2 => orderZero b 1 3 && decide (1 ≤ n4) && decide (n4 ≤ 1000000) && orderZero b 8 24
  | .spi, 1 =>
    orderZero b 1 3 && decide (100000 ≤ n4) && decide (n4 ≤ 50000000) && decide (n 8 ≤ 3) && decide (n 9 < 2)
      && orderZero b 10 22
  | .i2c, 1 => orderZero b 1 3 && (n4 == 100000 || n4 == 400000 || n4 == 1000000) && orderZero b 8 24
  | .i2c, 2 => orderZero b 1 31
  | .can, 1 =>
    orderZero b 1 3 && decide (125000 ≤ n4) && decide (n4 ≤ 1000000) && decide (fieldLe b 8 4 ≤ 8000000)
      && decide (n 12 < 8) && orderZero b 13 19
  | .can, 2 => decide (n 1 < 32) && orderZero b 2 2 && decide (n 12 < 4) && orderZero b 13 19
  | .can, 3 => orderZero b 1 31
  | .i2s, 1 =>
    orderZero b 1 3 && decide (8000 ≤ n4) && decide (n4 ≤ 192000) && (n 8 == 16 || n 8 == 24 || n 8 == 32)
      && decide (2 ≤ n 9) && decide (n 9 ≤ 8) && decide (n 10 < 2) && decide (n4 * n 9 * n 8 ≤ 24576000)
      && orderZero b 11 21
  | .gpio, 1 => orderZero b 1 7 && pins 8 && pins 16 && orderZero b 24 8
  | .gpio, 2 => orderZero b 1 7 && pins 8 && orderZero b 16 16
  | .gpio, 3 => orderZero b 1 3 && decide (1 ≤ n4) && decide (n4 ≤ 1000000) && pins 8 && orderZero b 16 16
  | .gpio, 4 => decide (n 1 < 48) && decide (n 2 < 64) && decide (n 3 < 24) && decide (n 4 < 4) && orderZero b 5 27
  | _, _ => false

/-- The CCW that a CONTROL event would carry out: its bytes, if the channel is ready for one. -/
def State.nextCcw (s : State) (c : Nat) (w : List Byte) : List Byte :=
  match (s.chan c).cur with
  | some u => u.bytes
  | none => s.ccwBytes (s.chan c).ccw w

/-- A CONTROL CCW on a peripheral (R270). The event of an order carries out that order of its kind of peripheral; it
also stands for the CCW's refusals: a wrong subchannel, a function without the grant, an order that is unknown or out of
range. -/
def State.ccwOrder (s : State) (c : Nat) (w order : List Byte) (kind : PKind) (code : Nat)
    (f : State → Nat → List Byte → State) : State :=
  let b0 := s.nextCcw c w
  let u := ccwSubch b0
  let blk := s.orderBlock b0 order
  let refused := match periph u with
    | none => u != 0x21 && u != 0x22
    | some k => k == kind && (fieldLe blk 0 1 == code || !orderOk k blk)
  if !refused then s
  else
    s.runCcw c w (· == 0x03) (fun t b =>
      if (periph u).isNone then t.failCcw c .programError .invalidSubchannel 0
      else if !t.subGranted c u then t.failCcw c .accessError .protection 0
      else if !ccwExtFields u b ∨ 16777215 < ccwCount b then t.failCcw c .programError .range 0
      else
        match t.ccwAreas b 32 [ccwAddr b] with
        | .error e => t.failCcw c .programError e 0
        | .ok l =>
          let r := t.takeSubch c u
          if !r.2 then r.1
          else if isDevice (ccwAddr b) && t.poisonIn (spaceOff (ccwAddr b)) 32 != [] then
            (r.1.readAreas l).1.failCcw c .poison .none 0
          else if !orderOk kind blk then r.1.unitErr c u 0x0A 0 0
          else f r.1 u blk)

/-- An order has been carried out. -/
def State.orderDone (s : State) (c : Nat) : State :=
  let x := s.chan c
  match x.cur with
  | some u => s.endCcw c .ok .none 0 (ccwCount u.bytes)
  | none => s

/-- A CONFIG order is kept for the next CCW on the subchannel. -/
def State.orderConfig (s : State) (c u : Nat) (blk : List Byte) : State :=
  { s with lmp.config := Table.set [] s.lmp.config u blk }.orderDone c

/-- UART BREAK: the break is sent, and the CCW ends with it. -/
def State.orderBreak (s : State) (c u : Nat) (blk : List Byte) : State :=
  (s.emit (.line u (fieldLe blk 4 4))).beginTransfer c u

/-- I2C BUS_CLEAR: nine SCL pulses and a STOP; a line still held low 35 ms later is a BUS_FAULT (R274). -/
def State.orderBusClear (s : State) (c u : Nat) (held : Bool) : State :=
  let s1 := s.emit (.line u 9)
  if held then (s1.lineFault u 2 0).unitErr c u 2 0 0 else s1.orderDone c

/-- CAN FILTER. -/
def State.orderFilter (s : State) (c u : Nat) (blk : List Byte) : State :=
  { s with lmp.canFilters := Table.set [] s.lmp.canFilters ((u - 0x10) * 32 + fieldLe blk 1 1) blk }.orderDone c

/-- CAN RECOVER leaves bus-off. -/
def State.orderRecover (s : State) (c u : Nat) : State :=
  { s with lmp.busOff := s.lmp.busOff &&& ~~~((1 : BitVec 2) <<< (u - 0x10)) }.orderDone c

/-- The pins of a mask. -/
def pinMask (b : List Byte) (i : Nat) : BitVec 48 := BitVec.ofNat 48 (fieldLe b i 8)

/-- GPIO DRIVE: SET wins over CLEAR. -/
def State.orderDrive (s : State) (c : Nat) (blk : List Byte) : State :=
  { s with lmp.gpioOut := (s.lmp.gpioOut &&& ~~~(pinMask blk 16)) ||| pinMask blk 8 }.orderDone c

/-- GPIO DIRECTION. -/
def State.orderDirection (s : State) (c : Nat) (blk : List Byte) : State :=
  { s with lmp.gpioDrive := pinMask blk 8 }.orderDone c

/-- GPIO PULSE: each pin is inverted for the width and then restored. -/
def State.orderPulse (s : State) (c : Nat) (blk : List Byte) : State :=
  { s with lmp.gpioPulses :=
      (pinMask blk 8, s.now + microsecond * fieldLe blk 4 4) :: s.lmp.gpioPulses.filter (fun e => decide (s.now < e.2))
    }.orderDone c

/-- GPIO EVENT binds a pin's edge to an event bit of a channel of the owning function. -/
def State.orderEvent (s : State) (c u : Nat) (blk : List Byte) : State :=
  let d := fieldLe blk 2 1
  let y := s.chan d
  if y.st = .free ∨ y.fn ≠ (s.chan c).fn then s.unitErr c u 0x0A 0 0
  else
    let e := if fieldLe blk 4 1 = 0 then none else some (⟨d, fieldLe blk 3 1, fieldLe blk 4 1⟩ : GpioEvent)
    { s with lmp.gpioEvents := Table.set .none s.lmp.gpioEvents (fieldLe blk 1 1) e }.orderDone c

/-- The status-ring order is valid (Table 09-5). -/
def State.ringOrderOk (s : State) (fn : Nat) (blk : List Byte) : Bool :=
  let n := fieldLe blk 4 2
  let v := fieldLe blk 6 2
  let count := bits (s.regOr (if fn = 0 then 2048 * 65536 else 0) (0x20104 + 16 * fn)) 27 16
  fieldLe blk 0 1 == 1 && orderZero blk 1 3 && (n == 0 || (decide (4 ≤ n) && decide (n ≤ 4096)))
    && (v == 0xFFFF || decide (v < count)) && orderZero blk 16 16 && fieldLe blk 8 1 % 32 == 0

/-- STATUS_RING: a CONTROL CCW on SELF (R262). -/
def State.ccwStatusRing (s : State) (c : Nat) (w order : List Byte) : State :=
  if ccwSubch (s.nextCcw c w) ≠ 0x22 then s
  else
    s.runCcw c w (· == 0x03) (fun t b =>
      let blk := t.orderBlock b order
      let n := fieldLe blk 4 2
      let a : DWord := BitVec.ofNat 64 (fieldLe blk 8 8)
      match t.ccwAreas b 32 [ccwAddr b] with
      | .error e => t.failCcw c .programError e 0
      | .ok l =>
        if (t.readAreas l).2 then (t.readAreas l).1.failCcw c .poison .none 0
        else if !t.ringOrderOk (t.chan c).fn blk then t.failCcw c .programError .range 0
        else if n ≠ 0 ∧ isDevice a ∧ !(inDevice (spaceOff a) (32 * n) && !inFirmware (spaceOff a)) then
          t.failCcw c .programError .address 0
        else
          let ring := if n = 0 then none else some (⟨a, n, fieldLe blk 6 2, 0⟩ : StatusRing)
          (t.setChan c { t.chan c with ring := ring }).orderDone c)

/-! ### CAN receive, events by register, routines -/

/-- A received CAN record passes a filter: the identifier agrees with the filter's under its mask, and so does its
format. -/
def filterPasses (f frame : List Byte) : Bool :=
  let id := fieldLe frame 0 4
  let m := fieldLe f 8 4
  bit (fieldLe f 12 1) 1 && bit (fieldLe f 12 1) 0 == bit id 29
    && ((BitVec.ofNat 29 id ^^^ BitVec.ofNat 29 (fieldLe f 4 4)) &&& BitVec.ofNat 29 m) == 0

/-- CAN_FRAME_RX: a received frame that passes an enabled filter is kept for a READ, with its receive DTS (R271). -/
def State.canRx (s : State) (k : Nat) (frame : List Byte) : State :=
  let passes := (List.range 32).any (fun i => filterPasses (Table.get [] s.lmp.canFilters (k * 32 + i)) frame)
  if passes && !s.lmp.busOff.getLsbD k then
    let rec_ := frame.take 8 ++ List.replicate (8 - frame.length) 0 ++ leBytes 8 s.time.dts.toNat
      ++ (frame.drop 16).take 64 ++ List.replicate (64 - ((frame.drop 16).take 64).length) 0
    { s with lmp.canRx := Table.set [] s.lmp.canRx k (Table.get [] s.lmp.canRx k ++ [rec_]) }
  else s

/-- The space the loaded routines use, in order of their place. -/
def State.routineSpace (s : State) : List (Nat × Nat) :=
  insertionSort (fun a b : Nat × Nat => decide (a.1 ≤ b.1))
    (s.lmp.routines.filterMap (fun e => e.2.map (fun r => (r.base, r.codeLen + r.dataLen))))

/-- The first gap of `n` bytes in the routine area, from `at_`. -/
def routineGap (n : Nat) : List (Nat × Nat) → Nat → Option Nat
  | [], at_ => if at_ + n ≤ 0x40000 then some at_ else none
  | (b, k) :: t, at_ => if at_ + n ≤ b then some at_ else routineGap n t (b + k)

/-- A routine header is good (Table 09-13). -/
def routineHeaderOk (h : List Byte) : Bool :=
  let code := fieldLe h 4 4
  let data := fieldLe h 8 4
  fieldLe h 0 4 == 0x4C5A5254 && code % 4 == 0 && data % 4 == 0 && decide (fieldLe h 12 4 ≤ data)
    && decide (fieldLe h 16 4 < code) && fieldLe h 16 4 % 4 == 0 && orderZero h 24 40

/-- Set LMP_RT_STATUS.RESULT. -/
def State.rtResult (s : State) (r : Nat) : State := { s with lmp.rtResult := r }

/-- ROUTINE_LOAD: LOAD loads the selected routine from its image in device memory (R276). -/
def State.routineLoad (s : State) : State :=
  let n := bits (s.regOr 0 0xE0010) 5 0
  let a := s.regOr 0 0xE0014 + 2 ^ 32 * s.regOr 0 0xE0018
  let h := s.dev.bytes a 64
  let code := fieldLe h 4 4
  let data := fieldLe h 8 4
  let init := fieldLe h 12 4
  if (s.routine n).isSome then s.rtResult 4
  else if a % 64 ≠ 0 ∨ !inDevice a 64 ∨ !routineHeaderOk h ∨ !inDevice a (64 + code + init)
      ∨ s.poisonIn a (64 + code + init) ≠ [] then s.rtResult 3
  else
    match routineGap (code + data) s.routineSpace 0 with
    | none => s.rtResult 2
    | some base =>
      let img := s.dev.bytes (a + 64) (code + init) ++ List.replicate (data - init) 0
      let r : Routine := ⟨base, code, data, fieldLe h 16 4, BitVec.ofNat 16 (fieldLe h 20 2), BitVec.ofNat 16 (fieldLe h 22 2)⟩
      let s1 := { s with
        wick.cluster := s.wick.cluster.setBytes (0x1C0000 + base) img
        lmp.routines := Table.set .none s.lmp.routines n (some r) }
      s1.rtResult 0

/-- A channel is in a CALL of a routine. -/
def State.routineBusy (s : State) (n : Nat) : Bool :=
  s.lmp.chans.any (fun e => match e.2.wait with | .call r _ => r == n | _ => false)

/-- ROUTINE_UNLOAD: UNLOAD unloads the selected routine, or answers BUSY (R276). -/
def State.routineUnload (s : State) : State :=
  let n := bits (s.regOr 0 0xE0010) 5 0
  if s.routineBusy n then s.rtResult 1
  else { s with lmp.routines := Table.set .none s.lmp.routines n .none }.rtResult 0

/-! ### Rows -/

/-- The Lamplighter registers and events act: media, or a mode in which channels exist. -/
def State.lampAlive (s : State) : Bool := s.live

/-- CCW_WRITE. -/
def execCcwWrite (c : Fin 64) (w : List Byte) (pages : List DWord) (data : List Byte) (s : State) :
    Host.Outcome State Fault Refusal := .next (s.ccwMove c.val 0x01 w pages data)
/-- CCW_READ. -/
def execCcwRead (c : Fin 64) (w : List Byte) (pages : List DWord) (s : State) : Host.Outcome State Fault Refusal :=
  .next (s.ccwMove c.val 0x02 w pages [])
/-- CCW_SENSE. -/
def execCcwSense (c : Fin 64) (w : List Byte) (pages : List DWord) (s : State) : Host.Outcome State Fault Refusal :=
  .next (s.ccwSense c.val w pages)
/-- STATUS_RING. -/
def execStatusRing (c : Fin 64) (w order : List Byte) (s : State) : Host.Outcome State Fault Refusal :=
  .next (s.ccwStatusRing c.val w order)
/-- UART_CONFIG. -/
def execUartConfig (c : Fin 64) (w order : List Byte) (s : State) : Host.Outcome State Fault Refusal :=
  .next (s.ccwOrder c.val w order .uart 1 (fun t u b => t.orderConfig c.val u b))
/-- UART_BREAK. -/
def execUartBreak (c : Fin 64) (w order : List Byte) (s : State) : Host.Outcome State Fault Refusal :=
  .next (s.ccwOrder c.val w order .uart 2 (fun t u b => t.orderBreak c.val u b))
/-- SPI_CONFIG. -/
def execSpiConfig (c : Fin 64) (w order : List Byte) (s : State) : Host.Outcome State Fault Refusal :=
  .next (s.ccwOrder c.val w order .spi 1 (fun t u b => t.orderConfig c.val u b))
/-- I2C_CONFIG. -/
def execI2cConfig (c : Fin 64) (w order : List Byte) (s : State) : Host.Outcome State Fault Refusal :=
  .next (s.ccwOrder c.val w order .i2c 1 (fun t u b => t.orderConfig c.val u b))
/-- BUS_CLEAR. -/
def execBusClear (c : Fin 64) (w order : List Byte) (held : Bool) (s : State) : Host.Outcome State Fault Refusal :=
  .next (s.ccwOrder c.val w order .i2c 2 (fun t u _ => t.orderBusClear c.val u held))
/-- CAN_CONFIG. -/
def execCanConfig (c : Fin 64) (w order : List Byte) (s : State) : Host.Outcome State Fault Refusal :=
  .next (s.ccwOrder c.val w order .can 1 (fun t u b => t.orderConfig c.val u b))
/-- CAN_FILTER. -/
def execCanFilter (c : Fin 64) (w order : List Byte) (s : State) : Host.Outcome State Fault Refusal :=
  .next (s.ccwOrder c.val w order .can 2 (fun t u b => t.orderFilter c.val u b))
/-- CAN_RECOVER. -/
def execCanRecover (c : Fin 64) (w order : List Byte) (s : State) : Host.Outcome State Fault Refusal :=
  .next (s.ccwOrder c.val w order .can 3 (fun t u _ => t.orderRecover c.val u))
/-- I2S_CONFIG. -/
def execI2sConfig (c : Fin 64) (w order : List Byte) (s : State) : Host.Outcome State Fault Refusal :=
  .next (s.ccwOrder c.val w order .i2s 1 (fun t u b => t.orderConfig c.val u b))
/-- GPIO_DRIVE. -/
def execGpioDrive (c : Fin 64) (w order : List Byte) (s : State) : Host.Outcome State Fault Refusal :=
  .next (s.ccwOrder c.val w order .gpio 1 (fun t _ b => t.orderDrive c.val b))
/-- GPIO_DIRECTION. -/
def execGpioDirection (c : Fin 64) (w order : List Byte) (s : State) : Host.Outcome State Fault Refusal :=
  .next (s.ccwOrder c.val w order .gpio 2 (fun t _ b => t.orderDirection c.val b))
/-- GPIO_PULSE. -/
def execGpioPulse (c : Fin 64) (w order : List Byte) (s : State) : Host.Outcome State Fault Refusal :=
  .next (s.ccwOrder c.val w order .gpio 3 (fun t _ b => t.orderPulse c.val b))
/-- GPIO_EVENT. -/
def execGpioEvent (c : Fin 64) (w order : List Byte) (s : State) : Host.Outcome State Fault Refusal :=
  .next (s.ccwOrder c.val w order .gpio 4 (fun t u b => t.orderEvent c.val u b))
/-- GPIO_EDGE. -/
def execGpioEdge (pin : Fin 48) (rising : Bool) (s : State) : Host.Outcome State Fault Refusal :=
  .next (if s.lampAlive then s.gpioEdge pin.val rising else s)
/-- CAN_FRAME_RX. -/
def execCanFrameRx (k : Fin 2) (frame : List Byte) (s : State) : Host.Outcome State Fault Refusal :=
  .next (if s.lampAlive then s.canRx k.val frame else s)
/-- PERIPHERAL_TRANSFER_END. -/
def execPeripheralTransferEnd (c : Fin 64) (e : TransferEnd) (s : State) : Host.Outcome State Fault Refusal :=
  .next (if s.lampAlive then s.transferEnd c.val e else s)
/-- READ_TIMEOUT. -/
def execReadTimeout (c : Fin 64) (s : State) : Host.Outcome State Fault Refusal :=
  .next (if s.lampAlive then s.readTimeout c.val else s)
/-- CCW_RETRY. -/
def execCcwRetry (c : Fin 64) (s : State) : Host.Outcome State Fault Refusal :=
  .next (if s.lampAlive then s.ccwRetry c.val else s)
/-- LINE_STUCK. -/
def execLineStuck (u : Fin 8) (s : State) : Host.Outcome State Fault Refusal :=
  .next (if s.lampAlive then s.lineStuck u.val else s)
/-- BUS_FAULT. -/
def execBusFault (k : Fin 4) (levels : BitVec 2) (s : State) : Host.Outcome State Fault Refusal :=
  .next (if s.lampAlive then s.busFault k.val levels else s)
/-- LMP_CH_EVENT_WRITE: a write sets USER event bits [23:0] (Table 09-15). -/
def execLmpChEventWrite (m : Master) (c : Fin 64) (v : Word) (s : State) : Host.Outcome State Fault Refusal :=
  .next (if s.access m (0xE100C + 64 * c.val) && s.live then s.setEvents c.val (v &&& 0x00FFFFFF) else s)
/-- ROUTINE_LOAD. -/
def execRoutineLoad (m : Master) (v : Word) (s : State) : Host.Outcome State Fault Refusal :=
  .next (if s.access m 0xE001C && s.live && v.getLsbD 0 then s.routineLoad else s)
/-- ROUTINE_UNLOAD. -/
def execRoutineUnload (m : Master) (v : Word) (s : State) : Host.Outcome State Fault Refusal :=
  .next (if s.access m 0xE001C && s.live && v.getLsbD 1 then s.routineUnload else s)

end Sys2Proof.Machine
end

