-- ==== Sys2Proof/Machine/Ptp.lean ====
section
/-!
DEFINITION. Machine/Ptp.lean: the PTP messages that the ports send, as bytes of frames (R39, R41). Table 02-1 names IEEE
1588-2019, IEEE 802.1AS-2020 and SMPTE ST 2059-2 and does not give their layouts: the message formats, the addresses and
the ports are PRESUMED from IEEE 1588-2019 (assumption 33).
-/
namespace Sys2Proof.Machine

/-- A PTP message to be sent: its messageType, sequenceId, flagField, correctionField, logMessageInterval and body. -/
structure PtpMsg where
  type : Nat
  seq : Nat
  flags : Nat
  correction : Nat
  interval : Nat
  body : List Byte
deriving DecidableEq, Repr

/-- The messageTypes. -/
def ptpSync : Nat := 0
/-- Delay_Req. -/
def ptpDelayReq : Nat := 1
/-- Pdelay_Req. -/
def ptpPdelayReq : Nat := 2
/-- Pdelay_Resp. -/
def ptpPdelayResp : Nat := 3
/-- Follow_Up. -/
def ptpFollowUp : Nat := 8
/-- Delay_Resp. -/
def ptpDelayResp : Nat := 9
/-- Pdelay_Resp_Follow_Up. -/
def ptpPdelayFollowUp : Nat := 10
/-- Announce. -/
def ptpAnnounce : Nat := 11

/-- A message of the peer delay mechanism. -/
def ptpPeer (type : Nat) : Bool := type == ptpPdelayReq || type == ptpPdelayResp || type == ptpPdelayFollowUp

/-- A time in DTS units as a PTP timestamp: 6 bytes of seconds and 4 of nanoseconds. -/
def ptpTimestamp (t : Int) : List Byte :=
  let n := (t % (2 ^ 48 * 16000000000 : Nat)).toNat
  beBytes 6 (n / 16000000000) ++ beBytes 4 (n % 16000000000 / 16)

/-- What a timestamp leaves of a time, as a correctionField: 2^-16 ns. -/
def ptpFraction (t : Int) : Nat := (t % 16).toNat * 4096

/-- The identity of a port: the clock's, and its number from 1. -/
def portIdentity (p : Nat) : List Byte := beBytes 8 Config.ptpIdentity.toNat ++ beBytes 2 (p + 1)

/-- The bytes of a message of a port, by TIME_PTP_CFG: 802.1AS has majorSdoId 1, and DOMAIN stands in the header. -/
def ptpBytes (cfg p : Nat) (m : PtpMsg) : List Byte :=
  let sdo := if bits cfg 1 0 = 1 then 1 else 0
  let control := if m.type = ptpSync then 0 else if m.type = ptpDelayReq then 1 else if m.type = ptpFollowUp then 2
    else if m.type = ptpDelayResp then 3 else 5
  leBytes 1 (16 * sdo + m.type) ++ leBytes 1 0x12 ++ beBytes 2 (34 + m.body.length) ++ leBytes 1 (bits cfg 15 8)
    ++ leBytes 1 0 ++ beBytes 2 m.flags ++ beBytes 8 m.correction ++ beBytes 4 0 ++ portIdentity p ++ beBytes 2 m.seq
    ++ leBytes 1 control ++ leBytes 1 m.interval ++ m.body

/-- A frame of at least 60 bytes without its check sequence. -/
def padFrame (bs : List Byte) : List Byte := bs ++ List.replicate (60 - bs.length) (0 : Byte)

/-- The UDP header and payload of a message between two addresses, with its checksum (R41). -/
def udpBytes (addrs : List Byte) (port : Nat) (payload : List Byte) : List Byte :=
  let len := 8 + payload.length
  let head := beBytes 2 port ++ beBytes 2 port ++ beBytes 2 len
  let c := inetSum (len + 17) (addrs ++ head ++ payload)
  head ++ beBytes 2 (if c = 0 then 65535 else c) ++ payload

/-- The frame of a message without its check sequence, over the TRANSPORT of TIME_PTP_CFG. -/
def ptpFrame (cfg p : Nat) (m : PtpMsg) : List Byte :=
  let msg := ptpBytes cfg p m
  let peer := ptpPeer m.type
  let src := beBytes 6 (Config.portMac p).toNat
  let udp := if m.type < 4 then 319 else 320
  match bits cfg 6 5 with
  | 1 =>
    let addrs := beBytes 4 (Config.portIp4 p).toNat ++ beBytes 4 (if peer then 0xE000006B else 0xE0000181)
    let ip := [0x45, 0] ++ beBytes 2 (28 + msg.length) ++ beBytes 2 0 ++ beBytes 2 0x4000 ++ [if peer then 1 else 64, 17]
    let sum := inetSum 0 (ip ++ addrs)
    padFrame (beBytes 6 (if peer then 0x01005E00006B else 0x01005E000181) ++ src ++ beBytes 2 0x0800 ++ ip ++ beBytes 2 sum
      ++ addrs ++ udpBytes addrs udp msg)
  | 2 =>
    let dst := if peer then 0xFF020000000000000000000000000000 + 0x6B else 0xFF0E0000000000000000000000000000 + 0x181
    let addrs := beBytes 16 (Config.portIp6 p).toNat ++ beBytes 16 dst
    padFrame (beBytes 6 (if peer then 0x33330000006B else 0x333300000181) ++ src ++ beBytes 2 0x86DD ++ beBytes 4 0x60000000
      ++ beBytes 2 (8 + msg.length) ++ [17, if peer then 1 else 64] ++ addrs ++ udpBytes addrs udp msg)
  | _ =>
    padFrame (beBytes 6 (if peer || bits cfg 1 0 == 1 then 0x0180C200000E else 0x011B19000000) ++ src
      ++ beBytes 2 0x88F7 ++ msg)

/-- Where the PTP message of a received frame begins. -/
def ptpAt (bs : List Byte) : Nat := if etherType bs = 0x88F7 then payloadAt bs else l4At bs + 8

end Sys2Proof.Machine
end

