-- ==== Sys2Proof/Machine/Compositor.lean ====
section
/-!
DEFINITION. Machine/Compositor.lean: composition, flips, damage and ST 2110-20 sending (chapter 8).
Sets of 64 × 64 blocks are masks: bit 128·row + column. Where the spec fixes a pixel's colour the frame holds it; every
other sample of a damaged block is a free value, since the filters and the intermediate rounding of R229 to R231 are
not given.
-/
namespace Sys2Proof.Machine

/-- An output. -/
def State.outp (s : State) (o : Nat) : Option Output := Table.get .none s.cmp.outputs o
/-- Replace an output. -/
def State.setOut (s : State) (o : Nat) (x : Option Output) : State :=
  { s with cmp.outputs := Table.set .none s.cmp.outputs o x }
/-- Change an output, if it is open. -/
def State.updOut (s : State) (o : Nat) (f : Output → Output) : State :=
  match s.outp o with
  | some x => s.setOut o (some (f x))
  | none => s
/-- The outputs that are open. -/
def State.outList (s : State) : List (Nat × Output) := s.cmp.outputs.filterMap (fun e => e.2.map (fun x => (e.1, x)))
/-- The outputs of a group, in ascending order. -/
def State.outsOf (s : State) (g : Fin 4) : List Nat :=
  (s.outList.filter (fun e => decide (e.2.group = g))).map Prod.fst
/-- The handle of an output. -/
def Output.handle (x : Output) (o : Nat) : Nat := handleOf 3 o x.fn x.gen

/-- Counters that have counted nothing. -/
def OutCounts.zero : OutCounts := ⟨0, 0, 0, 0⟩
/-- The counters of an output. -/
def State.outCounts (s : State) (o : Nat) : OutCounts := Table.get OutCounts.zero s.cmp.counts o
/-- Change the counters of an output. -/
def State.updCounts (s : State) (o : Nat) (f : OutCounts → OutCounts) : State :=
  { s with cmp.counts := Table.upd OutCounts.zero s.cmp.counts o f }

/-- CMP_OUT_CFG. -/
def State.outCfg (s : State) (o : Nat) : Nat := s.regOr 0x5A01 (0x190004 + 256 * o)
/-- CMP_OUT_BG. -/
def State.outBg (s : State) (o : Nat) : Nat := s.regOr 0x20080040 (0x190008 + 256 * o)
/-- CMP_OUT_ST_CFG. -/
def State.outStCfg (s : State) (o : Nat) : Nat := s.regOr (1500 * 65536) (0x19000C + 256 * o)
/-- DMG_MODE 1: VERIFIED. -/
def State.verified (s : State) (o : Nat) : Bool := bit (s.outCfg o) 0
/-- NIGHT_OFF. -/
def State.nightOff (s : State) (o : Nat) : Bool := bit (s.outCfg o) 4
/-- LEAD of a group in DTS units (R232). -/
def State.lead (s : State) (g : Nat) : Nat := microsecond * bits (s.regOr 4667 (0x180010 + 4 * g)) 19 0
/-- The begin instant of the frame for tick `k` of a group. -/
def State.beginTime (s : State) (g : Nat) (k : Int) : Int := s.tickTime g k - s.lead g

/-! ### Blocks -/

/-- The blocks of columns `c0` to below `c1` in rows `r0` to below `r1`. -/
def blockRect (c0 c1 r0 r1 : Nat) : Nat :=
  (List.range' r0 (r1 - r0)).foldl (fun m r => m + 2 ^ (128 * r) * (2 ^ c1 - 2 ^ min c0 c1)) 0

/-- Every block of an output. -/
def Output.allBlocks (x : Output) : Nat := blockRect 0 (ceilDiv x.width 64) 0 (ceilDiv x.height 64)

/-- The blocks of the visible destination rectangle of a plane (R236). -/
def Output.planeBlocks (x : Output) (p : Plane) : Nat :=
  let px := bits p.dstXy.toNat 15 0
  let py := bits p.dstXy.toNat 31 16
  let x1 := min x.width (px + bits p.dstWh.toNat 15 0)
  let y1 := min x.height (py + bits p.dstWh.toNat 31 16)
  if p.kind = 0 ∨ x1 ≤ px ∨ y1 ≤ py then 0 else blockRect (px / 64) (ceilDiv x1 64) (py / 64) (ceilDiv y1 64)

/-- A set without the blocks of another. -/
def without (a b : Nat) : Nat := a - (a &&& b)

/-- The number of blocks in a set. -/
def blockCount (m : Nat) : Nat :=
  (List.range 68).foldl (fun n r => n + countBelow 128 (fun c => bit m (128 * r + c))) 0

/-! ### What planes hold -/

/-- A pending or current text layer names an atlas (R227); `kib` and `glyphs` are its size where it becomes resident. -/
def State.useAtlas (s : State) (a : DWord) (kib glyphs : Nat) : State :=
  let l := s.cmp.atlases
  { s with cmp.atlases :=
      if l.any (fun e => e.address == a) then
        l.map (fun e : Atlas => if e.address = a then { e with users := e.users + 1 } else e)
      else l ++ [⟨a, kib, glyphs, 1⟩] }

/-- A text layer no longer names an atlas: it stays resident while any does. -/
def State.leaveAtlas (s : State) (a : DWord) : State :=
  { s with cmp.atlases := (s.cmp.atlases.map (fun e : Atlas =>
      if e.address = a then { e with users := e.users - 1 } else e)).filter (fun e => decide (0 < e.users)) }

/-- A plane's content goes: its atlas and the buffer of a copied still are given up. -/
def State.dropContent (s : State) (p : Plane) : State :=
  let s1 := match p.atlas with
    | some a => s.leaveAtlas a
    | none => s
  s1.dropOpt p.buffer

/-- A plane of an output. -/
def Output.plane (x : Output) (n : Nat) : Plane := x.planes.getD n Plane.off

/-- An update is applied to its plane: both rectangles are dirty (R236). What the plane held stays until the update has
completed. -/
def State.applyUpdate (s : State) (o : Nat) (u : PlaneUpdate) : State :=
  match s.outp o with
  | none => s
  | some x =>
    let old := x.plane u.plane
    let x1 := { x with
      planes := setAt x.planes u.plane u.content
      dirty := x.dirty ||| x.planeBlocks old ||| x.planeBlocks u.content
      updates := x.updates.map (fun v : PlaneUpdate => if v.id = u.id then { v with taken := true, prev := some old } else v) }
    s.setOut o (some x1)

/-- The picture that a video plane shows for the frame of an instant (R223): while its stream is closed or evicted, or
has none, the last it holds. -/
def State.planePicture (s : State) (x : Output) (n : Nat) (t : Int) : Option HeldPicture :=
  let p := x.plane n
  let last := (x.shown.getD n none)
  if p.kind ≠ 1 then none
  else
    let i := p.source.toNat % 65536
    match s.dec i with
    | none => last
    | some d =>
      if d.handle i ≠ p.source.toNat ∨ d.st = .evicted then last
      else
        match s.pictureAt i t with
        | none => last
        | some e =>
          match (d.entry e).buffer with
          | some b => some ⟨i, d.gen, e, b⟩
          | none => last

/-- The part of a picture that a video plane shows: SRC_XY and SRC_WH relative to the display window of the picture and
clipped to it (R144, R223). -/
def State.planeCrop (s : State) (p : Plane) (h : Option HeldPicture) : Option (Nat × Nat × Nat × Nat) :=
  match h with
  | none => none
  | some h =>
    match s.dec h.stream with
    | none => none
    | some d =>
      let e := d.entry h.entry
      let lo := fun (v : Word) => bits v.toNat 15 0
      let hi := fun (v : Word) => bits v.toNat 31 16
      let x := min (lo p.srcXy) (lo e.cropWh)
      let y := min (hi p.srcXy) (hi e.cropWh)
      some (lo e.cropXy + x, hi e.cropXy + y, min (lo p.srcWh) (lo e.cropWh - x), min (hi p.srcWh) (hi e.cropWh - y))

/-- A plane as a frame shows it: a video plane whose crop leaves nothing of its picture covers nothing. -/
def Plane.shownAs (p : Plane) (crop : Option (Nat × Nat × Nat × Nat)) : Plane :=
  match crop with
  | some (_, _, w, h) => if p.kind = 1 ∧ (w = 0 ∨ h = 0) then { p with kind := 0 } else p
  | none => p

/-- A plane takes its reference with the first frame that uses the picture (R223). -/
def State.takePictures (s : State) (o : Nat) (l : List (Nat × HeldPicture)) : State :=
  forEach l s (fun h s =>
    match s.outp o with
    | none => s
    | some x => if x.holds.contains h then s
        else (s.holdEntry h.2.stream h.2.entry).updOut o (fun x => { x with holds := x.holds ++ [h] }))

/-- The plane references that a test accepts are dropped. -/
def State.dropPictures (s : State) (o : Nat) (sel : Nat × HeldPicture → Bool) : State :=
  match s.outp o with
  | none => s
  | some x =>
    forEach (x.holds.filter sel) (s.setOut o (some { x with holds := x.holds.filter (fun h => !sel h) }))
      (fun h s => s.dropHeld h.2)

/-- The pictures of a frame with their planes. -/
def shownBy (pics : List (Option HeldPicture)) : List (Nat × HeldPicture) :=
  (List.range 16).filterMap (fun n => (pics.getD n none).map (fun h => (n, h)))

/-! ### The frame cycle -/

/-- The compositor composes in this mode (Table 08-7). -/
def State.composes (s : State) : Bool := s.loaded && s.pwr.mode.media

/-- The buffers that an output uses (R220). -/
def State.outBuffers (s : State) (o : Nat) : List Nat :=
  match s.outp o with
  | none => []
  | some x =>
    let own := x.onShow.toList ++ (x.frame.map OutFrame.buffer).toList ++ x.st2110.map StFrame.buffer
    let enc := (s.encList.filter (fun e => e.2.source == some o)).flatMap (fun e =>
      (s.jobsOf true e.1).filterMap CodecJob.frame)
    (own ++ enc).eraseDups

/-- A frame of this output may begin: it is ACTIVE, or CLOSING with updates to come, and composes nothing. -/
def Output.mayBegin (x : Output) : Bool :=
  x.frame.isNone && (x.st == .active || (x.st == .closing && x.updates.any (fun u => !u.taken && u.supersededBy.isNone)))

/-- The updates that a frame for tick `k` takes, in dispatch order (R235). -/
def Output.takeable (x : Output) (k : Int) : List PlaneUpdate :=
  x.updates.filter (fun u => !u.taken && u.supersededBy.isNone && decide (u.target.tick ≤ k))

/-! ### Updates end -/

/-- An update completes: at the flip of tick `k` with that tick as a reference, or with a status that gives none
(R123). What it superseded passes to what supersedes it (R125). -/
def State.endUpdate (s : State) (o : Nat) (u : PlaneUpdate) (st : Status) (k : Option Target) : State :=
  let r := match k with | some t => t.ref | none => 0
  let now := (s.outp o).bind (fun x => x.updates.find? (fun v => v.id == u.id))
  let up := now.bind PlaneUpdate.supersededBy
  let freed := fun (v : PlaneUpdate) => if v.supersededBy = some u.id then { v with supersededBy := up } else v
  let s1 := s.updOut o (fun x => { x with updates := (x.updates.filter (fun v => v.id != u.id)).map freed })
  let s2 := match now.bind PlaneUpdate.prev with
    | some p => s1.dropContent p
    | none => s1
  s2.jobDone u.origin st (r % 2 ^ 32) (r / 2 ^ 32) none

/-- The updates that one update supersedes, and those that these supersede, complete with ABORTED when it is composed
(R125). -/
def State.endSuperseded (s : State) (o id : Nat) : State :=
  match s.outp o with
  | none => s
  | some x => forEach x.updates.reverse s (fun u s =>
      if (s.outp o).any (fun y => y.updates.any (fun v => v.id == u.id && v.supersededBy == some id)) then
        (if u.taken then s else s.dropContent u.content).endUpdate o u .aborted none
      else s)

/-- The last update of a plane among those taken into a frame, which is the one that reaches it (R125, R235). -/
def reachesFrame (take : List PlaneUpdate) (u : PlaneUpdate) : Bool :=
  match (take.filter (fun v => v.plane == u.plane)).getLast? with
  | some v => v.id == u.id
  | none => false

/-- A frame composes the updates it takes: those they supersede, and those of its own that a later one replaces, complete
with ABORTED (R125, R235). -/
def State.endReplaced (s : State) (o : Nat) (take : List PlaneUpdate) : State :=
  forEach take s (fun u s =>
    let t := s.endSuperseded o u.id
    if reachesFrame take u then t else t.endUpdate o { u with taken := true } .aborted none)

/-- The glyphs of the text layers that the taken updates changed (R228). -/
def takenGlyphs (l : List PlaneUpdate) : Nat :=
  (List.range 16).foldl (fun n p =>
    match (l.filter (fun u => u.plane == p)).getLast? with
    | some u => if u.content.kind = 4 then n + u.content.glyphs else n
    | none => n) 0

/-- The area of a set of blocks in pixels, within an output. -/
def Output.blockArea (x : Output) (m : Nat) : Nat :=
  (List.range (ceilDiv x.height 64)).foldl (fun n r =>
    (List.range (ceilDiv x.width 64)).foldl (fun n c =>
      if bit m (128 * r + c) then n + min 64 (x.width - 64 * c) * min 64 (x.height - 64 * r) else n) n) 0

/-- The time that composing a frame takes: dirty pixels at 16 Gpixel/s, the others at 64, and 2 µs (R233). -/
def Output.composeTime (x : Output) (dirty : Nat) : Nat :=
  let a := x.blockArea dirty
  2 * microsecond + (a + ceilDiv (x.width * x.height - a) 4)

/-- The compositor begins the frame for tick `k` of an output: it samples the updates, the pictures and the dirty set
(R232). An output without a free buffer begins none (R234). -/
def State.beginFrame (s : State) (o : Nat) (k : Int) : State :=
  match s.outp o with
  | none => s
  | some x =>
    if !x.mayBegin then s
    else if 6 ≤ (s.outBuffers o).length ∨ !s.poolServes x.fn 16 x.pool then s
    else
      match s.request x.pool x.fn with
      | (none, t) => t
      | (some b, t) =>
        let take := x.takeable k
        let s1 := forEach take t (fun u s => s.applyUpdate o u)
        match s1.outp o with
        | none => s1
        | some y =>
          let at_ := s1.tickTime y.group.val k
          let pics := (List.range 16).map (fun n => s1.planePicture y n at_)
          let moved := (List.range 16).foldl (fun m n =>
            if pics.getD n none ≠ y.shown.getD n none then m ||| y.planeBlocks (y.plane n) else m) y.dirty
          let all := y.all || y.onShow.isNone
          let glyphs := takenGlyphs take
          let s2 := { s1 with cmp.glyphCnt := BitVec.ofNat 32 (satAdd 0xFFFFFFFF s1.cmp.glyphCnt.toNat glyphs) }
          let crops := (List.range 16).map (fun n => s1.planeCrop (y.plane n) (pics.getD n none))
          let fr : OutFrame :=
            { tick := k, buffer := b, ended := false, dirty := moved, all := all, pictures := pics, crops := crops
              planes := (List.range 16).map (fun n => (y.plane n).shownAs (crops.getD n none)), damage := 0, due := 0, bg := s1.outBg o, verified := s1.verified o
              colour := colourTags (bits (s1.outCfg o) 3 1) }
          ((s2.setOut o (some { y with frame := some fr, dirty := 0, all := false })).takePictures o (shownBy pics)).endReplaced o take

/-- The frames being composed, in the order they end: by tick, then by output (R233). -/
def State.composing (s : State) : List Nat :=
  let l := s.outList.filter (fun e => match e.2.frame with | some f => !f.ended | none => false)
  (insertionSort (fun a b : Nat × Output =>
    decide ((a.2.frame.map OutFrame.tick).getD 0 ≤ (b.2.frame.map OutFrame.tick).getD 0)) l).map Prod.fst

/-- Set when each new frame of a list of outputs ends: the glyph engine first, then the outputs in order (R233). -/
def State.setDues (s : State) : List Nat → Nat → State
  | [], _ => s
  | o :: l, t =>
    match s.outp o with
    | none => s.setDues l t
    | some x =>
      match x.frame with
      | none => s.setDues l t
      | some f =>
        let t1 := t + x.composeTime (if f.all then x.allBlocks else f.dirty)
        (s.setOut o (some { x with frame := some { f with due := t1 } })).setDues l t1

/-- The frames of a group begin. -/
def State.beginGroup (s : State) (g : Fin 4) : State :=
  let k := s.nextTick g
  let before := s.cmp.glyphCnt.toNat
  let free := (s.outsOf g).filter (fun o => match s.outp o with | some x => x.frame.isNone | none => false)
  let s1 := forEach free s (fun o s => s.beginFrame o k)
  let begun := free.filter (fun o => match s1.outp o with | some x => x.frame.isSome | none => false)
  let glyph := 400 * (s1.cmp.glyphCnt.toNat - before)
  if begun.isEmpty then s1 else { (s1.setDues begun (s1.now + glyph)) with cmp.group := some g }

/-- FRAME_BEGIN: at LEAD before the group's next tick its frames begin, unless another group's frame is running
(R232, R233). -/
def State.frameBegin (s : State) (g : Fin 4) : State :=
  if !s.composes then s
  else
    let s1 := s.advanceToDts (s.beginTime g.val (s.nextTick g))
    match s1.cmp.group with
    | some h => if h = g then s1.beginGroup g
        else if s1.cmp.waiting.contains g then s1 else { s1 with cmp.waiting := s1.cmp.waiting ++ [g] }
    | none => s1.beginGroup g

/-- No frame is being composed: a group that waits begins (R233). -/
def State.settleGroup (s : State) : State :=
  if !s.composing.isEmpty then s
  else
    match s.cmp.waiting with
    | [] => { s with cmp.group := none }
    | g :: t => ({ s with cmp := { s.cmp with group := none, waiting := t } }).beginGroup g

/-! ### The composed frame -/

/-- The colour of a pixel where the planes fix it: the uppermost plane that covers it is an opaque solid colour, or none
covers it and it is the background (R225, R231). -/
def pixelColour (planes : List Plane) (bg x y : Nat) : Option Nat :=
  planes.foldl (fun c p =>
    let px := bits p.dstXy.toNat 15 0
    let py := bits p.dstXy.toNat 31 16
    let inside := decide (px ≤ x) && decide (x < px + bits p.dstWh.toNat 15 0) && decide (py ≤ y)
      && decide (y < py + bits p.dstWh.toNat 31 16)
    if p.kind = 0 ∨ !inside ∨ p.alpha = 0 then c
    else if p.kind = 3 ∧ p.alpha = 255 then some p.source.toNat else none) (some bg)

/-- The colour of the whole output, where it is one colour. -/
def Output.oneColour (x : Output) (planes : List Plane) (bg : Nat) : Option Nat :=
  planes.foldl (fun c p =>
    if p.kind = 0 ∨ p.alpha = 0 ∨ x.planeBlocks p = 0 then c
    else if p.kind = 3 ∧ p.alpha = 255 ∧ p.dstXy = 0 ∧ x.width ≤ bits p.dstWh.toNat 15 0 ∧ x.height ≤ bits p.dstWh.toNat 31 16
    then some p.source.toNat else none) (some bg)

/-- The byte of a sample: a 10-bit code divided by 4 with rounding for 8 bits, or in bits [15:6] of its word (R225,
R134). -/
def sampleByte (ten : Bool) (code byte : Nat) : Byte :=
  BitVec.ofNat 8 (if ten then code * 64 / 256 ^ byte else min 255 ((code + 2) / 4))

/-- Byte `i` of a frame as it is composed: its block, and its value where the planes fix it; none outside the picture. -/
def Output.composedByte (x : Output) (f : OutFrame) (one : Option Nat) (i : Nat) : Option (Nat × Option Byte) :=
  let st := frameStride x.width x.tenBit
  let luma := lumaBytes x.width x.height x.tenBit
  let b := if x.tenBit then 2 else 1
  if i < luma then
    let px := i % st / b
    let py := i / st
    if x.width ≤ px ∨ x.height ≤ py then none
    else some (128 * (py / 64) + px / 64, (pixelColour f.planes f.bg px py).map (fun c => sampleByte x.tenBit (bits c 9 0) (i % b)))
  else
    let k := (i - luma) % st / b
    let py := 2 * ((i - luma) / st)
    if x.width ≤ k ∨ x.height ≤ py then none
    else some (128 * (py / 64) + k / 64,
      one.map (fun c => sampleByte x.tenBit (if k % 2 = 0 then bits c 19 10 else bits c 29 20) (i % b)))

/-- A byte of a composed frame: of the frame on show where its block is not damaged, of the colour the planes fix, or a
byte of the free value. -/
def frameByte (x : Output) (f : OutFrame) (old : Nat → Byte) (free i : Nat) : Byte :=
  let open_ : Byte := BitVec.ofNat 8 (free / 256 ^ i)
  match x.composedByte f (x.oneColour f.planes f.bg) i with
  | none => open_
  | some (b, v) => if !bit f.damage b then old i else v.getD open_

/-- The blocks of those among the first `n` bytes that a function places in one. -/
def blocksOfBytes (n : Nat) (g : Nat → Option Nat) : Nat :=
  (List.range n).foldl (fun m i => match g i with | some b => Nat.lor m (2 ^ b) | none => m) 0

/-- The composed blocks that equal those of the frame on show (R237): none with a byte that the planes fix otherwise; every one whose
bytes they all fix; and of the others, those in which the comparison found no difference. -/
def Output.sameBlocks (x : Output) (f : OutFrame) (old : Nat → Byte) (found : Nat) : Nat :=
  let n := outFrameBytes x.width x.height x.tenBit
  let place := x.composedByte f (x.oneColour f.planes f.bg)
  let differ := blocksOfBytes n (fun i => match place i with
    | some (b, some v) => if v = old i then none else some b
    | _ => none)
  let unfixed := blocksOfBytes n (fun i => match place i with
    | some (b, none) => some b
    | _ => none)
  without (without x.allBlocks (without unfixed found)) differ

/-- Where a plane's source lies in device space and how long it is, for its poison: a picture's buffer, or a still used
in place (R243). -/
def State.planeArea (s : State) (p : Plane) (pic : Option HeldPicture) : Option (Nat × Nat) :=
  match p.kind with
  | 1 => pic.map (fun h => (s.bufAddr h.buffer, 2 ^ s.poolClass (bufPool h.buffer)))
  | 2 =>
    let a := match p.buffer with | some b => some (s.bufAddr b) | none => if isDevice p.source then some (spaceOff p.source) else none
    a.map (fun a =>
      let h := s.dev.bytes a 16
      let plane := fieldLe h 2 2 * fieldLe h 8 4
      (a, 256 + if fieldLe h 4 1 = 2 then plane else max plane (fieldLe h 12 4 + plane / 2)))
  | _ => none

/-- A plane's source returns poison: the fault's kind and address (R243). -/
def State.planePoison (s : State) (f : OutFrame) (poisoned n : Nat) : Option (Nat × Nat) :=
  let p := f.planes.getD n Plane.off
  let area := s.planeArea p (f.pictures.getD n none)
  let addr := match area with
    | some (a, _) => a
    | none => spaceOff (p.atlas.getD p.source)
  let found := match area with
    | some (a, m) => !(s.poisonIn a m).isEmpty
    | none => false
  if p.kind != 0 && p.kind != 3 && (bit poisoned n || found) then some (if p.kind = 4 then 3 else 2, addr) else none

/-- COMPOSE_FRAME_END: the frame of an output ends (R233, R237, R243). `equal` holds the composed blocks in which the
comparison found no difference where the planes do not fix the bytes; `poisoned` the planes whose source returned poison. -/
def State.composeEnd (s : State) (o equal poisoned : Nat) : State :=
  if s.composing.head? ≠ some o ∨ !s.loaded then s
  else
    match s.outp o with
    | none => s
    | some x =>
      match x.frame with
      | none => s
      | some f =>
        let t := s.advanceTo f.due
        let bad := (List.range 16).filterMap (fun n => (t.planePoison f poisoned n).map (fun q => (n, q)))
        let areas := (List.range 16).filterMap (fun n => t.planeArea (f.planes.getD n Plane.off) (f.pictures.getD n none))
        let s1 := forEach areas t (fun a s => s.devRead a.1 a.2)
        let s2 := forEach bad s1 (fun q s => s.fault 0x018 q.2.1 q.2.2)
        let struck := bad.foldl (fun m q => m ||| x.planeBlocks (f.planes.getD q.1 Plane.off)) 0
        let base := if f.all then x.allBlocks else f.dirty
        let (v, s3) := s2.drawFree
        let old := fun i => match x.onShow with
          | some b => s3.dev.byte (s3.bufAddr b + i)
          | none => 0
        let kept := if f.verified && !f.all then without base (x.sameBlocks f old equal) else base
        let f1 := { f with ended := true, damage := (kept ||| struck) &&& x.allBlocks }
        let bytes := (List.range (outFrameBytes x.width x.height x.tenBit)).map (frameByte x f1 old v)
        ((s3.devWrite (s3.bufAddr f.buffer) bytes).updOut o (fun y => { y with frame := some f1 })).settleGroup

/-! ### Taken updates end -/

/-- The updates taken into a frame complete; of several for one plane only the last reached it, and the others are
replaced (R235). -/
def State.endTaken (s : State) (o : Nat) (st : PlaneUpdate → Status) (k : Option Target) : State :=
  match s.outp o with
  | none => s
  | some x =>
    let taken := x.updates.filter (fun u => u.taken)
    forEach taken s (fun u s =>
      let t := s.endSuperseded o u.id
      if reachesFrame taken u then t.endUpdate o u (st u) (if (st u).good then k else none)
      else t.endUpdate o u .aborted none)

/-- A frame being composed stops, and its buffer returns; its dirty set stays for the next frame. -/
def State.stopFrame (s : State) (o : Nat) : State :=
  match s.outp o with
  | none => s
  | some x =>
    match x.frame with
    | none => s
    | some f => (s.setOut o (some { x with
        frame := none, dirty := x.dirty ||| f.dirty, all := x.all || f.all })).dropBuf f.buffer

/-! ### ST 2110-20 (R241, R242) -/

/-- HDR_LEN. -/
def State.stHdrLen (s : State) (o : Nat) : Nat := bits (s.outStCfg o) 6 0
/-- The header template of an output. -/
def State.stHeader (s : State) (o : Nat) : List Byte :=
  ((List.range 19).flatMap (fun k => leBytes 4 (s.regOr 0 (0x190040 + 256 * o + 4 * k)))).take (s.stHdrLen o)
/-- The bytes of a pgroup of two pixels: 4 for 8 bits, 5 for 10 bits (RFC 4175). -/
def pgroupBytes (ten : Bool) : Nat := if ten then 5 else 4
/-- Pgroups of one line that one packet may hold, under PKT_MAX with its headers and one SRD header. -/
def State.pgroupsPerPacket (s : State) (o : Nat) (ten : Bool) : Nat :=
  max 1 ((bits (s.outStCfg o) 29 16 - s.stHdrLen o - 8) / pgroupBytes ten)
/-- The packets of one line. -/
def State.packetsPerLine (s : State) (o : Nat) (x : Output) : Nat :=
  ceilDiv (x.width / 2) (s.pgroupsPerPacket o x.tenBit)

/-- The first frame of the list is being sent: it starts at its tick, or when the one before it has finished. -/
def State.startStream (s : State) (o : Nat) : State :=
  s.updOut o (fun x => match x.st2110 with
    | f :: t => if f.start.isSome then x
        else { x with st2110 := { f with start := some (max s.fullTime (s.tickTime x.group.val f.tick)) } :: t }
    | [] => x)

/-- A frame flips and is to be sent (R242): the sender takes a reference. Of two frames not yet started the older is
skipped. -/
def State.streamFrame (s : State) (o : Nat) (k : Int) (b : Nat) : State :=
  match s.outp o with
  | none => s
  | some x =>
    if x.route / 2 % 2 = 0 ∨ x.stQueue.isNone ∨ s.stHdrLen o = 0 then s
    else
      let fr : StFrame := ⟨b, k, 0, x.height * s.packetsPerLine o x, none⟩
      let s1 := s.takeBuf b
      match x.st2110 with
      | h :: w :: _ =>
        let s2 := (s1.setOut o (some { x with st2110 := [h, fr] })).dropBuf w.buffer
        (s2.updCounts o (fun c => { c with stSkip := incWord c.stSkip })).raise 118
      | l => (s1.setOut o (some { x with st2110 := l ++ [fr] })).startStream o

/-- The bytes of one pgroup: the luma of the frame in the buffer, and the chroma as the vertical upsampling gave it
(R241; its filter is not given, and the operand carries its result). -/
def State.pgroup (s : State) (x : Output) (b row col : Nat) (given : List Byte) : List Byte :=
  let w := if x.tenBit then 2 else 1
  let sample := fun c => leNat (s.dev.bytes (s.bufAddr b + frameStride x.width x.tenBit * row + c * w) w)
  if x.tenBit then
    let v := beNat (given ++ List.replicate (5 - given.length) 0)
    let y0 := sample col / 64
    let y1 := sample (col + 1) / 64
    beBytes 5 (v / 2 ^ 30 % 1024 * 2 ^ 30 + y0 * 2 ^ 20 + v / 2 ^ 10 % 1024 * 2 ^ 10 + y1)
  else [given.getD 0 0, BitVec.ofNat 8 (sample col), given.getD 2 0, BitVec.ofNat 8 (sample (col + 1))]

/-- ST2110_PACKET_SEND: the next paced packet of the frame being sent (R242). -/
def State.st2110Send (s : State) (o : Nat) (payload : List Byte) : State :=
  match s.outp o with
  | none => s
  | some x =>
    match x.st2110, x.stQueue with
    | f :: rest, some q =>
      if !s.composes || x.st == .off then s
      else
        let frac := bits (s.outCfg o) 14 8
        let from_ := f.start.getD s.fullTime
        let s1 := s.advanceToDts (from_ + (f.sent * (s.periodUnits x.group.val * frac / 100) / max 1 f.total : Nat))
        let per := s1.pgroupsPerPacket o x.tenBit
        let line := max 1 (s1.packetsPerLine o x)
        let row := f.sent / line
        let first := f.sent % line * per
        let count := min per (x.width / 2 - first)
        let n := pgroupBytes x.tenBit
        let body := (List.range count).flatMap (fun k =>
          s1.pgroup x f.buffer row (2 * (first + k)) ((payload.drop (n * k)).take n))
        let srd := beBytes 2 (x.stSeq.toNat / 65536) ++ beBytes 2 (count * n) ++ beBytes 2 row ++ beBytes 2 (2 * first)
        let last := decide (f.total ≤ f.sent + 1)
        let frame := fillPacket (s1.stHeader o) (x.stSeq.toNat % 65536) (x.stSeq.toNat % 65536)
          (rtpStamp (s1.tickTime x.group.val f.tick)) last (srd ++ body)
        let x1 := { x with
          stSeq := x.stSeq + 1, st2110 := if last then rest else { f with sent := f.sent + 1 } :: rest }
        let s2 := (s1.setOut o (some x1)).placeFrame q ⟨.st2110, x.fn, frame, false, none, 0, false, false, true, false, none⟩
        if last then (s2.dropBuf f.buffer).startStream o else s2
    | _, _ => s

/-! ### Flips and holds (R234, R239) -/

/-- A damage bitmap is written into the output's ring of four (R239); `ver` says that its frame was compared. -/
def State.writeBitmap (s : State) (o : Nat) (k : Int) (all held ver : Bool) (mask : Nat) : State :=
  s.updOut o (fun x => { x with
    seq := x.seq + 1
    ring := (⟨all, ver, held, ⟨x.group, k⟩, s.time.dts, x.seq, mask⟩ :: x.ring).take 4 })

/-- The status with which an update completes at the flip of tick `k`: one presented more than 3 ticks after its
original target is handled as DISCARD (R48). -/
def flipStatus (k : Int) (u : PlaneUpdate) : Status := if u.target.tick + 3 < k then .deadlineMissed else .ok

/-- An output flips to its frame at tick `k`. -/
def State.flip (s : State) (o : Nat) (k : Int) : State :=
  match s.outp o with
  | none => s
  | some x =>
    match x.frame with
    | none => s
    | some f =>
      let s1 := s.setOut o (some { x with
        frame := none, onShow := some f.buffer, tags := f.colour, shown := f.pictures, late := false, uncounted := false })
      let s2 := (s1.dropOpt x.onShow).dropPictures o (fun h => !(shownBy f.pictures).contains h)
      let s3 := s2.updCounts o (fun c => { c with
        frames := incWord c.frames, lastTick := BitVec.ofNat 32 (tick62 k).toNat })
      let s4 := s3.writeBitmap o k f.all false f.verified f.damage
      (s4.endTaken o (flipStatus k) (some ⟨x.group, k⟩)).streamFrame o k f.buffer

/-- An output misses the frame of tick `k` (R234, R49): a frame that runs on has been counted. -/
def State.countOutMiss (s : State) (o : Nat) : State :=
  match s.outp o with
  | none => s
  | some x =>
    let s1 := s.setOut o (some { x with
      late := true, overruns := if x.uncounted then x.overruns else incWord x.overruns, uncounted := false })
    let s2 := if x.uncounted then s1 else s1.overrun x.fn
    ({ (s2.updCounts o (fun c => { c with missed := incWord c.missed })) with
        cmp.lateCnt := incWord s2.cmp.lateCnt }).raise 116

/-- DISCARD at a missed tick: the frame stops, and updates whose tick it was are applied and complete with
DEADLINE_MISSED (R234, R235). -/
def State.discardFrame (s : State) (o : Nat) (k : Int) : State :=
  match s.outp o with
  | none => s
  | some x =>
    let s1 := s.stopFrame o
    let s2 := forEach (x.takeable k) s1 (fun u s => s.applyUpdate o u)
    s2.endTaken o (fun _ => .deadlineMissed) none

/-- An output holds its frame at tick `k` (R234). -/
def State.hold (s : State) (o : Nat) (k : Int) : State :=
  match s.outp o with
  | none => s
  | some x =>
    let s1 := match x.frame with
      | some f =>
        let t := if f.tick = k then s.countOutMiss o else s
        if !x.retarget || decide (f.tick + 3 ≤ k) then t.discardFrame o k else t
      | none =>
        let t := s.countOutMiss o
        if !x.retarget then t.discardFrame o k else t
    s1.writeBitmap o k false true (s1.verified o) 0

/-- Step 2 of R16 for one output: it flips to the frame composed for this tick, or holds. Outputs hold without a missed
frame where the compositor does not run (Table 08-7). -/
def State.flipOrHold (s : State) (o : Nat) (k : Int) : State :=
  match s.outp o with
  | none => s
  | some x =>
    let ready := match x.frame with | some f => f.ended && decide (f.tick ≤ k) | none => false
    if x.st == .off then s
    else if ready && (s.composes || s.pwr.mode == .standby) then s.flip o k
    else if s.composes && (x.st == .active || x.frame.isSome) then s.hold o k
    else s

/-- An output being closed is CLOSED when its last job has completed (Table 08-1). -/
def State.settleOut (s : State) (o : Nat) : State :=
  match s.outp o with
  | none => s
  | some x =>
    if x.st = .closing ∧ x.updates.isEmpty then
      let s1 := (s.stopFrame o).dropPictures o (fun _ => true)
      let s2 := forEach x.planes s1 (fun p s => s.dropContent p)
      let s3 := (forEach x.st2110 (s2.dropOpt x.onShow) (fun f s => s.dropBuf f.buffer)).unearmark x.pool x.fn 3
      let s4 := (s3.setOut o none).settleGroup
      match x.closer with
      | some n => s4.closeDone n (x.handle o)
      | none => s4
    else s

/-- In OFF, updates whose tick has come are applied to their planes (Table 08-1). No frame shows them yet: they complete at the
flip of the first frame after OFF (R123), but for those that a later one of their plane has replaced. -/
def State.applyOff (s : State) (g : Fin 4) (k : Int) : State :=
  forEach (s.outsOf g) s (fun o s =>
    match s.outp o with
    | some x =>
      if x.st = .off then
        (forEach (x.takeable k) s (fun u s => s.applyUpdate o u)).endReplaced o
          (x.updates.filter (fun u => u.taken || (x.takeable k).contains u))
      else s
    | none => s)

/-- Steps 2 and 3 of R16 for a group: its outputs flip or hold, and each that ROUTE bit 0 sends to encode contexts
publishes its bitmap to its encode streams (R168, R239, Table 04-14). -/
def State.flipGroup (s : State) (g : Fin 4) (k : Int) : State :=
  let outs := s.outsOf g
  let s1 := forEach outs { s with cmp.waiting := s.cmp.waiting.filter (· != g) } (fun o s => s.flipOrHold o k)
  let s2 := if outs.isEmpty || !s1.composes then s1 else s1.raise (112 + g.val)
  let s3 := forEach outs s2 (fun o s =>
    match s.outp o with
    | none => s
    | some x =>
      match x.ring, x.onShow with
      | b :: _, some buf =>
        if b.tick = ⟨g, k⟩ ∧ x.route % 2 = 1 then
          forEach (s.encList.filter (fun e => e.2.source == some o)) s (fun e s => s.sourceFrame e.1 k (some buf) b.mask x.tags)
        else s
      | _, _ => s)
  ((forEach outs s3 (fun o s => s.settleOut o)).applyOff g k).settleGroup

/-! ### COMPOSE reaches the compositor (R235) -/

/-- An accepted COMPOSE becomes pending, or has missed at dispatch. -/
def State.submitCompose (s : State) (o : Nat) (m : Master) (fn : Nat) (origin : JobOrigin) (n : Nat) (content : Plane)
    (target : Target) : State :=
  match s.outp o with
  | none => s
  | some x =>
    let id := s.cmp.updateSeq
    let began := match x.frame with | some f => decide (target.tick ≤ f.tick) | none => false
    let late := s.isPast target || decide (s.beginTime target.group.val target.tick < s.fullTime) || began
    let u : PlaneUpdate := ⟨id, m, origin, n, content, target, late, false, none, none⟩
    let old := x.updates.map (fun v : PlaneUpdate =>
      if !v.taken && v.supersededBy.isNone && v.master == m && v.plane == n && decide (target.tick ≤ v.target.tick) then
        { v with supersededBy := some id } else v)
    let s1 := { (s.setOut o (some { x with updates := old ++ [u] })) with cmp.updateSeq := id + 1 }
    if late then
      let s2 := (s1.updOut o (fun y => { y with overruns := incWord y.overruns })).overrun fn
      if x.retarget then s2
      else ((s2.applyUpdate o u).endSuperseded o id).endUpdate o u .deadlineMissed none
    else s1

/-! ### Modes (Table 08-7) -/

/-- The first frame that the encode streams of an output code next is a key frame (Table 06-12). -/
def State.keyNextOf (s : State) (o : Nat) : State :=
  forEach (s.encList.filter (fun e => e.2.source == some o)) s (fun e s => s.setEnc e.1 (some { e.2 with keyDue := true }))

/-- An output goes OFF: the frame it composes stops, its updates staying applied, and what waits to be sent of earlier frames
is given up (Table 08-1). -/
def State.outOff (s : State) (o : Nat) : State :=
  let l := match s.outp o with | some x => x.st2110 | none => []
  let s1 := (s.stopFrame o).updOut o (fun x => { x with st := .off, st2110 := [] })
  (forEach l s1 (fun f s => s.dropBuf f.buffer)).settleGroup

/-- Entry to NIGHT, or an applied change: outputs with NIGHT_OFF are OFF in NIGHT; leaving it they are ACTIVE again, and
their first frame damages every block (R238). -/
def State.settleNight (s : State) : State :=
  forEach s.outList s (fun e s =>
    let off := s.pwr.mode == .night && s.nightOff e.1
    match e.2.st with
    | .active =>
      if off then s.outOff e.1 else s
    | .off => if off then s else (s.updOut e.1 (fun x => { x with st := .active, all := true })).keyNextOf e.1
    | _ => s)

/-- The first frame after STANDBY or RECOVERY damages every block (R238). -/
def State.damageAll (s : State) : State :=
  { s with cmp.outputs := s.cmp.outputs.map (fun e => (e.1, e.2.map (fun x => { x with all := true }))) }

/-- The compositor is reset (Table 08-7): frames stop, outputs hold, planes keep their state and references, and the
commands taken into a frame complete with DEVICE_FAULT. -/
def State.cmpReset (s : State) : State :=
  let s1 := forEach s.outList s (fun e s =>
    match e.2.frame with
    | some _ => (s.stopFrame e.1).endTaken e.1 (fun _ => .deviceFault) none
    | none => s)
  { s1 with cmp := { s1.cmp with group := none, waiting := [] } }

/-- Every update not completed completes with a status. -/
def State.endUpdates (s : State) (st : Status) (sel : Nat → Output → PlaneUpdate → Bool) : State :=
  forEach s.outList s (fun e s =>
    forEach (e.2.updates.filter (sel e.1 e.2)) s (fun u s =>
      (if u.taken then s else s.dropContent u.content).endUpdate e.1 u st none))

/-- CLOSE of an output (R120): its planes' references are dropped; updates not yet taken end with ABORTED unless the
close drains them. -/
def State.closeOut (s : State) (o : Nat) (closer : Option Nat) (drain : Bool) : State :=
  let s1 := s.updOut o (fun x => { x with st := .closing, closer := closer, drain := drain })
  let s2 := if drain then s1 else s1.endUpdates .aborted (fun i _ u => i == o && !u.taken)
  let s3 := match s2.outp o with
    | some x => s2.dropPictures o (fun h => match x.frame with | some f => !(shownBy f.pictures).contains h | none => true)
    | none => s2
  let s4 := match s3.outp o with
    | some x => if x.frame.isNone then s3.endTaken o (fun _ => .aborted) none else s3
    | none => s3
  s4.settleOut o

/-! ### The registers of the damage ring -/

/-- A word of the bitmap that CMP_DMG_SEL selects (Table 08-5). -/
def State.dmgWord (s : State) (w : Nat) : Nat :=
  let sel := s.regOr 0 0x180030
  let o := bits sel 6 0
  match s.outp o with
  | none => 0
  | some x =>
    match x.ring[bits sel 9 8]? with
    | none => 0
    | some b =>
      let head := leBytes 2 o ++ leBytes 1 (b2n b.all + 2 * b2n b.verified + 4 * b2n b.held) ++ [0]
        ++ leBytes 2 (ceilDiv x.width 64) ++ leBytes 2 (ceilDiv x.height 64) ++ leBytes 8 b.tick.ref
        ++ leBytes 8 b.dts.toNat ++ leBytes 2 (blockCount b.mask) ++ leBytes 2 b.seq.toNat ++ leBytes 4 0
      if w < 8 then fieldLe head (4 * w) 4 else b.mask / 2 ^ (32 * (w - 8)) % 2 ^ 32

/-- FRAME_BEGIN. -/
def execFrameBegin (g : Fin 4) (s : State) : Host.Outcome State Fault Refusal := .next (s.frameBegin g)
/-- COMPOSE_FRAME_END. -/
def execComposeFrameEnd (o : Fin 128) (equal poisoned : Nat) (s : State) : Host.Outcome State Fault Refusal :=
  .next (s.composeEnd o.val equal poisoned)
/-- ST2110_PACKET_SEND. -/
def execSt2110PacketSend (o : Fin 128) (payload : List Byte) (s : State) : Host.Outcome State Fault Refusal :=
  .next (s.st2110Send o.val payload)
/-- CMP_LATE_CNT_READ: the read returns and clears the count (R245). -/
def execCmpLateCntRead (s : State) : Host.Outcome State Fault Refusal :=
  .next (if s.bar0 0x180020 then { (s.setRd s.cmp.lateCnt.toNat) with cmp.lateCnt := 0 } else s.setRd 0)
/-- CMP_OUT_MISSED_READ: the read returns and clears the count. -/
def execCmpOutMissedRead (o : Fin 128) (s : State) : Host.Outcome State Fault Refusal :=
  .next (if s.bar0 (0x190014 + 256 * o.val) then
    (s.setRd (s.outCounts o.val).missed.toNat).updCounts o.val (fun c => { c with missed := 0 }) else s.setRd 0)
/-- CMP_OUT_ST_SKIP_READ: the read returns and clears the count. -/
def execCmpOutStSkipRead (o : Fin 128) (s : State) : Host.Outcome State Fault Refusal :=
  .next (if s.bar0 (0x190020 + 256 * o.val) then
    (s.setRd (s.outCounts o.val).stSkip.toNat).updCounts o.val (fun c => { c with stSkip := 0 }) else s.setRd 0)

end Sys2Proof.Machine
end

