-- ==== Sys2Proof/Machine/RegTable.lean ====
section
/-!
DEFINITION. Machine/RegTable.lean: the register tables of the spec (Tables 01-9, 01-10, 02-8, 03-10, 03-11, 07-7,
08-8, 09-15, 11-14, 12-8, 13-6, 13-7, 14-11 to 14-13, 15-10, 15-11, 16-*) as one list of rows.
A row gives a register's name, its live-view BAR0 offset, the strides and counts of its indices, whether it is
staged (R18), and its fields with access code (Table 00-5) and reset value. A register of two words is an array of
two words here. A field whose reset value the table gives in words has its value in `RegId.resetWord`.
-/
namespace Sys2Proof.Machine

/-- The access codes of Table 00-5 (R9). -/
inductive Access where
  | rw | ro | wo | w1s | w1c | rc
deriving DecidableEq, Repr

/-- One field of a register. -/
structure FieldSpec where
  lo : Nat
  width : Nat
  access : Access
  reset : Nat
deriving DecidableEq, Repr

/-- The registers of the device, by the names of the register tables. -/
inductive RegId where
  | identVendor | identDevice | identRevision | identRom | identSerialLo | identSerialHi | sysStageClaim 
  | sysStageCheck | sysStageApply | sysStageCancel | sysStageAtLo | sysStageAtHi | sysStageStatus 
  | sysStageFailAddr | sysStageFailItem | sysConflictLast | sysConflictDtsLo | sysConflictDtsHi | timeDtsLo 
  | timeDtsHi | timeEra | timeStatus | timeOffset | timeFreqAdj | timeUtc | timeRefCfg | timePtpCfg 
  | timePtpPrio | timePtpPorts | timeHoSpec | timeRetCfg | timePpsOut | timeTickEpochLo | timeTickEpochHi 
  | timeGrpCfg | timeGrpCount | timeStepOld | timeStepNew | timeStepDisp | timeStepCnt | timeSet | timeSetGo 
  | timeOvrCnt | timePortLat | qmgrCtrl | qmgrStatus | qmgrAsqLo | qmgrAsqHi | qmgrAcqLo | qmgrAcqHi 
  | qmgrAqSize | qmgrHeartbeat | qmgrHbCfg | qmgrFnLost | qmgrDbErr | qmgrDbErrQ | qmgrSlotsFree 
  | qmgrOrphanCnt | qmgrFnCfg | qmgrFnVec | qmgrFnSlots | qmgrFnStat | qmgrQSel | qmgrQInfo0 | qmgrQInfo1 
  | qmgrQInfo2 | vfIdent | vfCtrl | vfStatus | vfAsqLo | vfAsqHi | vfAcqLo | vfAcqHi | vfAqSize | vfHeartbeat 
  | vfHbTimeout | vfSlots | vfOvrCnt | cdcState | cdcMcVersion | cdcJobHandle | cdcJobSeq | cdcUseq 
  | cdcCycles | cdcJobs | cdcRedone | cdcFault | cdcPoolCfg | cdcPoolStatus | cdcPoolUsed | cdcPoolEvict 
  | cdcPoolFn | cdcPoolDebt | cmpCfg | cmpStatus | cmpPixrate | cmpGrpLead | cmpLateCnt | cmpGlyphs 
  | cmpDmgSel | cmpDmgData | cmpOutState | cmpOutCfg | cmpOutBg | cmpOutStCfg | cmpOutFrames | cmpOutMissed 
  | cmpOutLastTick | cmpOutDmg | cmpOutStSkip | cmpOutStHdr | lmpStatus | lmpHandover | lmpRtCfg | lmpRtUsed 
  | lmpRtSel | lmpRtSrcLo | lmpRtSrcHi | lmpRtCtrl | lmpRtStatus | lmpSchOwn | lmpChState | lmpChCcwLo 
  | lmpChCcwHi | lmpChEvent | lmpChEventClr | lmpChTimer | lmpChJobs | lmpChCsw | swcStatus | swcLaneStatus 
  | swcCfg | swcBufCfg | swcBufUsed | swcBufShared | swcBufPeak | swcMacStatus | swcTblSel | swcTblCmd 
  | swcTblStatus | swcTblData | swcPortCfg | swcPortVlan | swcPortFrame | swcPortPcp | swcPortState 
  | swcPortRate | swcQMin | swcQMax | swcQEcn | swcQDepth | swcCnt | swcRbStat | swcRbDrop | trfStatus 
  | trfHistCfg | trfTblSel | trfTblCmd | trfTblStatus | trfTblData | trfFnTm | trfGateStatus | trfGateDrop 
  | trfHistSel | trfHistBin | trfHistMax | trfHistMaxDts | trfHistSamples | trfRedDrop | bpmPoolCfg 
  | bpmPoolBaseLo | bpmPoolBaseHi | bpmPoolCount | bpmPoolFree | bpmPoolLow | bpmPoolRefused 
  | bpmPoolFallbacks | bpmOwnMin | bpmOwnUse | bpmOwnEar | bpmAudCtrl | bpmAudStatus | bpmAudTick 
  | bpmAudPass | bpmAudViol | bpmAudFirst | bpmAudFirstTick | bpmAudSnapSel | bpmAudSnapData | dmaChCtrl 
  | dmaChCfg | dmaChDesc | dmaChStatus | dmaChCur | dmaChResid | dmaChBytes | dmaChDescs | dmaStatus 
  | dmaBusy | icuCfg | icuStatus | icuHostVec | icuPend | icuPendSet | icuPendClr | icuMask | icuMaskSet 
  | icuMaskClr | icuActive | icuClaim | icuComplete | icuTgtStatus | icuSrcCfg | icuPilotSel | icuPilotCause 
  | snufStatus | snufCtrl | snufCfg | snufHistSel | snufHistCount | snufHistData | snufFirst | snufFirstCtrl 
  | snufRetired | snufSpares | snufRetest | snufRetestStatus | snufCorrected | snufPprSel | snufPpr 
  | snufSrcCfg | snufSrcWin | snufSrcStat | testUnlock | testStatus | testCdcDelay | testSwPorts | testSwBp 
  | testCodec | testDb | testInj | testInjAddrLo | testInjAddrHi | pwrMode | pwrModeReq | pwrModeRes 
  | pwrCapCfg | pwrCapStatus | pwrTj | pwrVin | pwrIin | pwrPin | pwrPinPeak | pwrTemp | pwrRailV | pwrRailI 
  | pwrBoot | pwrBootCfg | pwrPilotCfg | pwrUpdate | pwrDebug | lmbCtrl | lmbStatus | lmbData | sysStraps 
  | sysFabricCfg | sysFabricLast | sysFabricCnt
deriving DecidableEq, Repr

/-- One row of a register table. -/
structure RegSpec where
  id : RegId
  base : Nat
  dims : List (Nat × Nat)
  staged : Bool
  fields : List FieldSpec
deriving DecidableEq, Repr

/-- Rows of Tables 01-10, 01-9, 16-12. -/
def regRows0 : List RegSpec :=
  [⟨.identVendor, 0x0, [], false, [⟨0, 16, .ro, 8059⟩]⟩,
   ⟨.identDevice, 0x4, [], false, [⟨0, 16, .ro, 35172⟩]⟩,
   ⟨.identRevision, 0x8, [], false, [⟨0, 8, .ro, 1⟩, ⟨8, 8, .ro, 66⟩]⟩,
   ⟨.identRom, 0xC, [], false, [⟨0, 8, .ro, 2⟩, ⟨8, 8, .ro, 3⟩, ⟨16, 16, .ro, 0⟩]⟩,
   ⟨.identSerialLo, 0x10, [], false, [⟨0, 32, .ro, 0⟩]⟩,
   ⟨.identSerialHi, 0x14, [], false, [⟨0, 32, .ro, 0⟩]⟩,
   ⟨.sysStageClaim, 0x1000, [], false, [⟨0, 1, .wo, 0⟩]⟩,
   ⟨.sysStageCheck, 0x1004, [], false, [⟨0, 1, .wo, 0⟩]⟩,
   ⟨.sysStageApply, 0x1008, [], false, [⟨0, 1, .wo, 0⟩, ⟨1, 1, .wo, 0⟩, ⟨2, 2, .wo, 0⟩]⟩,
   ⟨.sysStageCancel, 0x100C, [], false, [⟨0, 1, .wo, 0⟩]⟩,
   ⟨.sysStageAtLo, 0x1010, [], false, [⟨0, 32, .rw, 0⟩]⟩,
   ⟨.sysStageAtHi, 0x1014, [], false, [⟨0, 32, .rw, 0⟩]⟩,
   ⟨.sysStageStatus, 0x1018, [], false, [⟨0, 3, .ro, 0⟩, ⟨8, 8, .ro, 0⟩, ⟨16, 3, .ro, 0⟩, ⟨19, 1, .ro, 0⟩, ⟨20, 6, .ro, 0⟩]⟩,
   ⟨.sysStageFailAddr, 0x101C, [], false, [⟨0, 23, .ro, 0⟩]⟩,
   ⟨.sysStageFailItem, 0x1020, [], false, [⟨0, 16, .ro, 0⟩]⟩,
   ⟨.sysConflictLast, 0x1024, [], false, [⟨0, 3, .ro, 0⟩, ⟨3, 6, .ro, 0⟩, ⟨9, 3, .ro, 0⟩, ⟨12, 6, .ro, 0⟩]⟩,
   ⟨.sysConflictDtsLo, 0x1028, [], false, [⟨0, 32, .ro, 0⟩]⟩,
   ⟨.sysConflictDtsHi, 0x102C, [], false, [⟨0, 32, .ro, 0⟩]⟩,
   ⟨.sysStraps, 0x1040, [], false, [⟨0, 4, .ro, 0⟩, ⟨4, 1, .ro, 0⟩]⟩,
   ⟨.sysFabricCfg, 0x1044, [], false, [⟨0, 17, .rw, 1000⟩]⟩]

/-- Rows of Tables 02-8, 16-12. -/
def regRows1 : List RegSpec :=
  [⟨.sysFabricLast, 0x1048, [], false, [⟨0, 4, .ro, 0⟩, ⟨4, 4, .ro, 0⟩, ⟨8, 24, .ro, 0⟩]⟩,
   ⟨.sysFabricCnt, 0x104C, [], false, [⟨0, 32, .rc, 0⟩]⟩,
   ⟨.timeDtsLo, 0x10000, [], false, [⟨0, 32, .ro, 0⟩]⟩,
   ⟨.timeDtsHi, 0x10004, [], false, [⟨0, 32, .ro, 0⟩]⟩,
   ⟨.timeEra, 0x10008, [], false, [⟨0, 16, .ro, 0⟩]⟩,
   ⟨.timeStatus, 0x1000C, [], false, [⟨0, 3, .ro, 0⟩, ⟨3, 1, .ro, 0⟩, ⟨4, 1, .ro, 0⟩, ⟨5, 1, .ro, 0⟩, ⟨6, 1, .ro, 0⟩, ⟨7, 1, .ro, 0⟩, ⟨8, 1, .ro, 0⟩, ⟨9, 1, .ro, 0⟩, ⟨10, 1, .w1c, 0⟩, ⟨16, 8, .ro, 248⟩]⟩,
   ⟨.timeOffset, 0x10010, [], false, [⟨0, 32, .ro, 0⟩]⟩,
   ⟨.timeFreqAdj, 0x10014, [], false, [⟨0, 32, .ro, 0⟩]⟩,
   ⟨.timeUtc, 0x10018, [], false, [⟨0, 16, .ro, 0⟩, ⟨16, 1, .ro, 0⟩, ⟨17, 1, .ro, 0⟩, ⟨18, 1, .ro, 0⟩]⟩,
   ⟨.timeRefCfg, 0x10020, [], false, [⟨0, 1, .rw, 0⟩, ⟨1, 1, .rw, 0⟩, ⟨2, 1, .rw, 0⟩, ⟨3, 1, .rw, 0⟩]⟩,
   ⟨.timePtpCfg, 0x10024, [], true, [⟨0, 2, .rw, 0⟩, ⟨2, 1, .rw, 1⟩, ⟨3, 1, .rw, 0⟩, ⟨4, 1, .rw, 0⟩, ⟨5, 2, .rw, 0⟩, ⟨8, 8, .rw, 0⟩, ⟨16, 4, .rw, 0⟩, ⟨20, 4, .rw, 13⟩, ⟨24, 4, .rw, 0⟩]⟩,
   ⟨.timePtpPrio, 0x10028, [], false, [⟨0, 8, .rw, 128⟩, ⟨8, 8, .rw, 128⟩]⟩,
   ⟨.timePtpPorts, 0x1002C, [], false, [⟨0, 16, .rw, 0⟩, ⟨16, 1, .rw, 0⟩]⟩,
   ⟨.timeHoSpec, 0x10030, [], false, [⟨0, 16, .rw, 600⟩]⟩,
   ⟨.timeRetCfg, 0x10034, [], false, [⟨0, 8, .rw, 5⟩, ⟨8, 8, .rw, 100⟩, ⟨16, 1, .rw, 0⟩, ⟨17, 1, .rw, 0⟩, ⟨18, 2, .rw, 0⟩]⟩,
   ⟨.timePpsOut, 0x10038, [], false, [⟨0, 20, .rw, 100000⟩]⟩,
   ⟨.timeTickEpochLo, 0x10040, [], true, [⟨0, 32, .rw, 0⟩]⟩,
   ⟨.timeTickEpochHi, 0x10044, [], true, [⟨0, 32, .rw, 0⟩]⟩,
   ⟨.timeGrpCfg, 0x10050, [(4, 4)], true, [⟨0, 1, .rw, 0⟩, ⟨1, 4, .rw, 5⟩]⟩,
   ⟨.timeGrpCount, 0x10060, [(8, 4), (4, 2)], false, [⟨0, 32, .ro, 0⟩]⟩]

/-- Rows of Tables 02-8, 03-10. -/
def regRows2 : List RegSpec :=
  [⟨.timeStepOld, 0x10080, [(4, 2)], false, [⟨0, 32, .ro, 0⟩]⟩,
   ⟨.timeStepNew, 0x10088, [(4, 2)], false, [⟨0, 32, .ro, 0⟩]⟩,
   ⟨.timeStepDisp, 0x10090, [], false, [⟨0, 32, .ro, 0⟩]⟩,
   ⟨.timeStepCnt, 0x10094, [], false, [⟨0, 32, .ro, 0⟩]⟩,
   ⟨.timeSet, 0x100A0, [(4, 2)], false, [⟨0, 32, .rw, 0⟩]⟩,
   ⟨.timeSetGo, 0x100A8, [], false, [⟨0, 1, .wo, 0⟩]⟩,
   ⟨.timeOvrCnt, 0x100C0, [(4, 16)], false, [⟨0, 32, .ro, 0⟩]⟩,
   ⟨.timePortLat, 0x10100, [(4, 17)], false, [⟨0, 16, .rw, 0⟩, ⟨16, 16, .rw, 0⟩]⟩,
   ⟨.qmgrCtrl, 0x20000, [], false, [⟨0, 1, .rw, 0⟩]⟩,
   ⟨.qmgrStatus, 0x20004, [], false, [⟨0, 1, .ro, 0⟩, ⟨1, 1, .ro, 0⟩, ⟨2, 1, .w1c, 0⟩, ⟨3, 1, .ro, 0⟩, ⟨4, 1, .ro, 0⟩, ⟨8, 5, .ro, 0⟩, ⟨13, 3, .ro, 0⟩]⟩,
   ⟨.qmgrAsqLo, 0x20008, [], false, [⟨0, 32, .rw, 0⟩]⟩,
   ⟨.qmgrAsqHi, 0x2000C, [], false, [⟨0, 32, .rw, 0⟩]⟩,
   ⟨.qmgrAcqLo, 0x20010, [], false, [⟨0, 32, .rw, 0⟩]⟩,
   ⟨.qmgrAcqHi, 0x20014, [], false, [⟨0, 32, .rw, 0⟩]⟩,
   ⟨.qmgrAqSize, 0x20018, [], false, [⟨0, 16, .rw, 0⟩, ⟨16, 15, .rw, 0⟩]⟩,
   ⟨.qmgrHeartbeat, 0x20020, [], false, [⟨0, 32, .wo, 0⟩]⟩,
   ⟨.qmgrHbCfg, 0x20024, [], false, [⟨0, 17, .rw, 0⟩]⟩,
   ⟨.qmgrFnLost, 0x20028, [], false, [⟨1, 15, .w1c, 0⟩]⟩,
   ⟨.qmgrDbErr, 0x20030, [], false, [⟨0, 16, .rc, 0⟩, ⟨16, 4, .ro, 0⟩, ⟨20, 1, .ro, 0⟩]⟩,
   ⟨.qmgrDbErrQ, 0x20034, [], false, [⟨0, 12, .ro, 0⟩]⟩]

/-- Rows of Tables 03-10, 14-11. -/
def regRows3 : List RegSpec :=
  [⟨.qmgrSlotsFree, 0x20038, [], false, [⟨0, 13, .ro, 4096⟩]⟩,
   ⟨.qmgrOrphanCnt, 0x2003C, [], false, [⟨0, 32, .ro, 0⟩]⟩,
   ⟨.qmgrFnCfg, 0x20100, [(16, 16)], true, [⟨0, 13, .rw, 0⟩, ⟨16, 13, .rw, 0⟩]⟩,
   ⟨.qmgrFnVec, 0x20104, [(16, 16)], true, [⟨0, 11, .rw, 0⟩, ⟨16, 12, .rw, 0⟩]⟩,
   ⟨.qmgrFnSlots, 0x20108, [(16, 16)], true, [⟨0, 13, .rw, 0⟩, ⟨16, 13, .rw, 0⟩]⟩,
   ⟨.qmgrFnStat, 0x2010C, [(16, 16)], false, [⟨0, 13, .ro, 0⟩, ⟨16, 13, .ro, 0⟩]⟩,
   ⟨.qmgrQSel, 0x20200, [], false, [⟨0, 12, .rw, 0⟩, ⟨12, 4, .rw, 0⟩, ⟨16, 1, .rw, 0⟩]⟩,
   ⟨.qmgrQInfo0, 0x20204, [], false, [⟨0, 3, .ro, 0⟩, ⟨3, 1, .ro, 0⟩, ⟨4, 12, .ro, 0⟩, ⟨16, 8, .ro, 0⟩, ⟨24, 8, .ro, 0⟩]⟩,
   ⟨.qmgrQInfo1, 0x20208, [], false, [⟨0, 16, .ro, 0⟩, ⟨16, 16, .ro, 0⟩]⟩,
   ⟨.qmgrQInfo2, 0x2020C, [], false, [⟨0, 16, .ro, 0⟩, ⟨16, 16, .ro, 0⟩]⟩,
   ⟨.icuCfg, 0x40000, [], false, [⟨0, 1, .ro, 1⟩, ⟨8, 4, .rw, 4⟩]⟩,
   ⟨.icuStatus, 0x40004, [], false, [⟨0, 1, .w1c, 0⟩]⟩,
   ⟨.icuHostVec, 0x40008, [], false, [⟨0, 11, .rw, 0⟩, ⟨16, 1, .rw, 0⟩]⟩,
   ⟨.icuPend, 0x40100, [(4, 32)], false, [⟨0, 32, .ro, 0⟩]⟩,
   ⟨.icuPendSet, 0x40180, [(4, 32)], false, [⟨0, 32, .wo, 0⟩]⟩,
   ⟨.icuPendClr, 0x40200, [(4, 32)], false, [⟨0, 32, .wo, 0⟩]⟩,
   ⟨.icuMask, 0x40280, [(4, 32)], false, [⟨0, 32, .ro, 4294967295⟩]⟩,
   ⟨.icuMaskSet, 0x40300, [(4, 32)], false, [⟨0, 32, .wo, 0⟩]⟩,
   ⟨.icuMaskClr, 0x40380, [(4, 32)], false, [⟨0, 32, .wo, 0⟩]⟩,
   ⟨.icuActive, 0x40400, [(4, 32)], false, [⟨0, 32, .ro, 0⟩]⟩]

/-- Rows of Tables 14-11, 14-12. -/
def regRows4 : List RegSpec :=
  [⟨.icuClaim, 0x40800, [(4, 14)], false, [⟨0, 10, .ro, 0⟩, ⟨31, 1, .ro, 1⟩]⟩,
   ⟨.icuComplete, 0x40840, [(4, 14)], false, [⟨0, 10, .wo, 0⟩]⟩,
   ⟨.icuTgtStatus, 0x40880, [(4, 14)], false, [⟨0, 4, .ro, 0⟩, ⟨4, 10, .ro, 0⟩]⟩,
   ⟨.icuSrcCfg, 0x41000, [(4, 1024)], false, [⟨0, 4, .rw, 15⟩, ⟨8, 8, .rw, 128⟩]⟩,
   ⟨.icuPilotSel, 0x42000, [(4, 32)], false, [⟨0, 10, .rw, 0⟩, ⟨31, 1, .rw, 0⟩]⟩,
   ⟨.icuPilotCause, 0x42080, [], false, [⟨0, 10, .ro, 0⟩, ⟨31, 1, .ro, 0⟩]⟩,
   ⟨.snufStatus, 0x50000, [], false, [⟨0, 1, .ro, 0⟩, ⟨1, 1, .w1c, 0⟩, ⟨2, 1, .ro, 0⟩, ⟨8, 4, .ro, 0⟩, ⟨12, 4, .ro, 0⟩, ⟨16, 16, .ro, 0⟩]⟩,
   ⟨.snufCtrl, 0x50004, [], false, [⟨0, 1, .wo, 0⟩]⟩,
   ⟨.snufCfg, 0x50008, [], false, [⟨0, 8, .rw, 24⟩, ⟨8, 4, .rw, 2⟩]⟩,
   ⟨.snufHistSel, 0x50010, [], false, [⟨0, 6, .rw, 0⟩]⟩,
   ⟨.snufHistCount, 0x50014, [], false, [⟨0, 7, .ro, 0⟩]⟩,
   ⟨.snufHistData, 0x50020, [(4, 8)], false, [⟨0, 32, .ro, 0⟩]⟩,
   ⟨.snufFirst, 0x50040, [(4, 8)], false, [⟨0, 32, .ro, 0⟩]⟩,
   ⟨.snufFirstCtrl, 0x50060, [], false, [⟨0, 1, .wo, 0⟩]⟩,
   ⟨.snufRetired, 0x50080, [], false, [⟨0, 8, .ro, 0⟩, ⟨16, 16, .ro, 0⟩]⟩,
   ⟨.snufSpares, 0x50084, [], false, [⟨0, 8, .ro, 0⟩, ⟨8, 4, .ro, 0⟩, ⟨12, 4, .ro, 0⟩]⟩,
   ⟨.snufRetest, 0x50090, [], false, [⟨0, 2, .wo, 0⟩, ⟨2, 14, .wo, 0⟩, ⟨31, 1, .wo, 0⟩]⟩,
   ⟨.snufRetestStatus, 0x50094, [], false, [⟨0, 2, .ro, 0⟩]⟩,
   ⟨.snufCorrected, 0x50098, [], false, [⟨0, 32, .rc, 0⟩]⟩,
   ⟨.snufPprSel, 0x500A0, [], false, [⟨0, 1, .rw, 0⟩, ⟨1, 5, .rw, 0⟩, ⟨6, 4, .rw, 0⟩]⟩]

/-- Rows of Tables 14-12, 15-10. -/
def regRows5 : List RegSpec :=
  [⟨.snufPpr, 0x500A4, [], false, [⟨0, 2, .ro, 0⟩]⟩,
   ⟨.snufSrcCfg, 0x51000, [(8, 256)], true, [⟨0, 8, .rw, 0⟩, ⟨8, 3, .rw, 0⟩, ⟨12, 3, .rw, 0⟩]⟩,
   ⟨.snufSrcWin, 0x51004, [(8, 256)], true, [⟨0, 16, .rw, 0⟩]⟩,
   ⟨.snufSrcStat, 0x51800, [(4, 256)], false, [⟨0, 8, .ro, 0⟩, ⟨8, 1, .ro, 0⟩, ⟨16, 16, .ro, 0⟩]⟩,
   ⟨.pwrMode, 0x60000, [], false, [⟨0, 4, .ro, 2⟩, ⟨4, 4, .ro, 4⟩, ⟨8, 1, .ro, 0⟩, ⟨9, 1, .ro, 0⟩, ⟨10, 1, .ro, 0⟩, ⟨11, 1, .ro, 0⟩, ⟨12, 1, .ro, 0⟩, ⟨13, 1, .ro, 0⟩]⟩,
   ⟨.pwrModeReq, 0x60004, [], false, [⟨0, 4, .wo, 0⟩]⟩,
   ⟨.pwrModeRes, 0x60008, [], false, [⟨0, 8, .ro, 0⟩, ⟨8, 4, .ro, 0⟩]⟩,
   ⟨.pwrCapCfg, 0x60010, [], false, [⟨0, 7, .rw, 85⟩, ⟨8, 3, .rw, 4⟩]⟩,
   ⟨.pwrCapStatus, 0x60014, [], false, [⟨0, 1, .ro, 0⟩, ⟨1, 1, .ro, 0⟩, ⟨2, 1, .ro, 0⟩, ⟨3, 1, .ro, 0⟩, ⟨8, 8, .ro, 0⟩]⟩,
   ⟨.pwrTj, 0x60018, [], false, [⟨0, 12, .ro, 0⟩, ⟨12, 4, .ro, 0⟩]⟩,
   ⟨.pwrVin, 0x60020, [], false, [⟨0, 16, .ro, 0⟩]⟩,
   ⟨.pwrIin, 0x60024, [], false, [⟨0, 16, .ro, 0⟩]⟩,
   ⟨.pwrPin, 0x60028, [], false, [⟨0, 17, .ro, 0⟩]⟩,
   ⟨.pwrPinPeak, 0x6002C, [], false, [⟨0, 17, .rc, 0⟩]⟩,
   ⟨.pwrTemp, 0x60040, [(4, 14)], false, [⟨0, 12, .ro, 0⟩, ⟨12, 1, .ro, 0⟩]⟩,
   ⟨.pwrRailV, 0x60080, [(8, 10)], false, [⟨0, 16, .ro, 0⟩]⟩,
   ⟨.pwrRailI, 0x60084, [(8, 10)], false, [⟨0, 16, .ro, 0⟩]⟩,
   ⟨.pwrBoot, 0x600E0, [], false, [⟨0, 3, .ro, 1⟩, ⟨3, 1, .ro, 0⟩, ⟨4, 4, .ro, 0⟩]⟩,
   ⟨.pwrBootCfg, 0x600E4, [], false, [⟨0, 8, .rw, 10⟩]⟩,
   ⟨.pwrPilotCfg, 0x600F0, [], false, [⟨0, 24, .rw, 0⟩, ⟨24, 1, .rw, 0⟩]⟩]

/-- Rows of Tables 13-6, 15-10, 15-11. -/
def regRows6 : List RegSpec :=
  [⟨.pwrUpdate, 0x60100, [], false, [⟨0, 3, .ro, 0⟩, ⟨4, 3, .ro, 0⟩, ⟨8, 3, .ro, 0⟩]⟩,
   ⟨.pwrDebug, 0x60104, [], false, [⟨0, 1, .ro, 0⟩]⟩,
   ⟨.lmbCtrl, 0x70000, [], false, [⟨0, 8, .rw, 0⟩, ⟨8, 9, .rw, 0⟩, ⟨31, 1, .wo, 0⟩]⟩,
   ⟨.lmbStatus, 0x70004, [], false, [⟨0, 1, .ro, 0⟩, ⟨8, 8, .ro, 0⟩, ⟨16, 9, .ro, 0⟩]⟩,
   ⟨.lmbData, 0x70100, [(4, 64)], false, [⟨0, 32, .rw, 0⟩]⟩,
   ⟨.bpmPoolCfg, 0x80100, [(32, 16)], true, [⟨0, 5, .rw, 0⟩, ⟨5, 1, .rw, 0⟩, ⟨6, 4, .rw, 0⟩, ⟨10, 1, .rw, 0⟩]⟩,
   ⟨.bpmPoolBaseLo, 0x80104, [(32, 16)], true, [⟨0, 32, .rw, 0⟩]⟩,
   ⟨.bpmPoolBaseHi, 0x80108, [(32, 16)], true, [⟨0, 16, .rw, 0⟩]⟩,
   ⟨.bpmPoolCount, 0x8010C, [(32, 16)], true, [⟨0, 21, .rw, 0⟩]⟩,
   ⟨.bpmPoolFree, 0x80110, [(32, 16)], false, [⟨0, 21, .ro, 0⟩]⟩,
   ⟨.bpmPoolLow, 0x80114, [(32, 16)], false, [⟨0, 21, .rw, 0⟩]⟩,
   ⟨.bpmPoolRefused, 0x80118, [(32, 16)], false, [⟨0, 32, .rc, 0⟩]⟩,
   ⟨.bpmPoolFallbacks, 0x8011C, [(32, 16)], false, [⟨0, 32, .rc, 0⟩]⟩,
   ⟨.bpmOwnMin, 0x81000, [(128, 16), (4, 32)], true, [⟨0, 21, .rw, 0⟩]⟩,
   ⟨.bpmOwnUse, 0x82000, [(128, 16), (4, 32)], false, [⟨0, 21, .ro, 0⟩]⟩,
   ⟨.bpmOwnEar, 0x83000, [(128, 16), (4, 32)], false, [⟨0, 21, .ro, 0⟩]⟩,
   ⟨.bpmAudCtrl, 0x84000, [], false, [⟨0, 1, .rw, 1⟩, ⟨1, 1, .wo, 0⟩]⟩,
   ⟨.bpmAudStatus, 0x84004, [], false, [⟨0, 6, .ro, 0⟩, ⟨8, 6, .ro, 0⟩, ⟨16, 1, .ro, 0⟩]⟩,
   ⟨.bpmAudTick, 0x84008, [(4, 2)], false, [⟨0, 32, .ro, 0⟩]⟩,
   ⟨.bpmAudPass, 0x84010, [], false, [⟨0, 32, .ro, 0⟩]⟩]

/-- Rows of Tables 11-14, 13-6, 13-7. -/
def regRows7 : List RegSpec :=
  [⟨.bpmAudViol, 0x84014, [], false, [⟨0, 32, .rc, 0⟩]⟩,
   ⟨.bpmAudFirst, 0x84018, [], false, [⟨0, 4, .ro, 0⟩, ⟨4, 10, .ro, 0⟩, ⟨14, 18, .ro, 0⟩]⟩,
   ⟨.bpmAudFirstTick, 0x84020, [(4, 2)], false, [⟨0, 32, .ro, 0⟩]⟩,
   ⟨.bpmAudSnapSel, 0x84030, [], false, [⟨0, 14, .rw, 0⟩]⟩,
   ⟨.bpmAudSnapData, 0x84034, [], false, [⟨0, 32, .ro, 0⟩]⟩,
   ⟨.dmaChCtrl, 0x90000, [(64, 64)], false, [⟨0, 1, .wo, 0⟩, ⟨1, 1, .wo, 0⟩, ⟨2, 1, .wo, 0⟩]⟩,
   ⟨.dmaChCfg, 0x90004, [(64, 64)], false, [⟨0, 3, .rw, 3⟩]⟩,
   ⟨.dmaChDesc, 0x90008, [(64, 64), (4, 2)], false, [⟨0, 32, .rw, 0⟩]⟩,
   ⟨.dmaChStatus, 0x90010, [(64, 64)], false, [⟨0, 3, .ro, 0⟩, ⟨3, 1, .ro, 0⟩, ⟨4, 1, .ro, 0⟩, ⟨8, 8, .ro, 0⟩, ⟨16, 3, .ro, 0⟩]⟩,
   ⟨.dmaChCur, 0x90018, [(64, 64), (4, 2)], false, [⟨0, 32, .ro, 0⟩]⟩,
   ⟨.dmaChResid, 0x90020, [(64, 64)], false, [⟨0, 25, .ro, 0⟩]⟩,
   ⟨.dmaChBytes, 0x90028, [(64, 64), (4, 2)], false, [⟨0, 32, .ro, 0⟩]⟩,
   ⟨.dmaChDescs, 0x90030, [(64, 64)], false, [⟨0, 32, .ro, 0⟩]⟩,
   ⟨.dmaStatus, 0x91000, [], false, [⟨0, 1, .w1c, 0⟩]⟩,
   ⟨.dmaBusy, 0x91008, [(4, 2)], false, [⟨0, 32, .ro, 0⟩]⟩,
   ⟨.swcStatus, 0xA0000, [], false, [⟨0, 17, .ro, 0⟩]⟩,
   ⟨.swcLaneStatus, 0xA0004, [], false, [⟨0, 16, .ro, 0⟩, ⟨16, 16, .ro, 0⟩]⟩,
   ⟨.swcCfg, 0xA0008, [], true, [⟨0, 20, .rw, 300⟩, ⟨20, 1, .rw, 1⟩]⟩,
   ⟨.swcBufCfg, 0xA000C, [], true, [⟨0, 3, .rw, 0⟩, ⟨4, 18, .rw, 8192⟩]⟩,
   ⟨.swcBufUsed, 0xA0010, [], false, [⟨0, 18, .ro, 0⟩]⟩]

/-- Rows of Tables 11-14. -/
def regRows8 : List RegSpec :=
  [⟨.swcBufShared, 0xA0014, [], false, [⟨0, 18, .ro, 116736⟩]⟩,
   ⟨.swcBufPeak, 0xA0018, [], false, [⟨0, 18, .rc, 0⟩]⟩,
   ⟨.swcMacStatus, 0xA001C, [], false, [⟨0, 17, .ro, 0⟩]⟩,
   ⟨.swcTblSel, 0xA0020, [], false, [⟨0, 3, .rw, 0⟩, ⟨4, 16, .rw, 0⟩, ⟨20, 1, .rw, 0⟩]⟩,
   ⟨.swcTblCmd, 0xA0024, [], false, [⟨0, 1, .wo, 0⟩, ⟨1, 1, .wo, 0⟩, ⟨2, 1, .wo, 0⟩]⟩,
   ⟨.swcTblStatus, 0xA0028, [], false, [⟨0, 1, .ro, 0⟩, ⟨1, 1, .w1c, 0⟩, ⟨16, 13, .ro, 0⟩]⟩,
   ⟨.swcTblData, 0xA0040, [(4, 28)], false, [⟨0, 32, .rw, 0⟩]⟩,
   ⟨.swcPortCfg, 0xA0400, [(32, 28)], true, [⟨0, 1, .rw, 0⟩, ⟨1, 3, .rw, 0⟩, ⟨4, 2, .rw, 0⟩, ⟨6, 1, .rw, 1⟩, ⟨7, 1, .rw, 1⟩]⟩,
   ⟨.swcPortVlan, 0xA0404, [(32, 28)], true, [⟨0, 12, .rw, 1⟩, ⟨12, 2, .rw, 0⟩]⟩,
   ⟨.swcPortFrame, 0xA0408, [(32, 28)], true, [⟨0, 14, .rw, 1522⟩]⟩,
   ⟨.swcPortPcp, 0xA040C, [(32, 28)], true, [⟨0, 24, .rw, 16434824⟩]⟩,
   ⟨.swcPortState, 0xA0410, [(32, 28)], false, [⟨0, 3, .ro, 0⟩, ⟨3, 4, .ro, 0⟩, ⟨7, 3, .ro, 0⟩]⟩,
   ⟨.swcPortRate, 0xA0414, [(32, 28)], false, [⟨0, 10, .ro, 0⟩]⟩,
   ⟨.swcQMin, 0xA1000, [(16, 224)], true, [⟨0, 18, .rw, 64⟩]⟩,
   ⟨.swcQMax, 0xA1004, [(16, 224)], true, [⟨0, 18, .rw, 131072⟩]⟩,
   ⟨.swcQEcn, 0xA1008, [(16, 224)], true, [⟨0, 18, .rw, 0⟩]⟩,
   ⟨.swcQDepth, 0xA100C, [(16, 224)], false, [⟨0, 18, .ro, 0⟩]⟩,
   ⟨.swcCnt, 0xB0000, [(256, 28), (8, 27), (4, 2)], false, [⟨0, 32, .ro, 0⟩]⟩,
   ⟨.swcRbStat, 0xB4000, [(8, 256)], false, [⟨0, 32, .ro, 0⟩]⟩,
   ⟨.swcRbDrop, 0xB4004, [(8, 256)], false, [⟨0, 16, .rc, 0⟩, ⟨16, 16, .rc, 0⟩]⟩]

/-- Rows of Tables 09-15, 12-8. -/
def regRows9 : List RegSpec :=
  [⟨.trfStatus, 0xC0000, [], false, [⟨0, 15, .ro, 0⟩]⟩,
   ⟨.trfHistCfg, 0xC0004, [], true, [⟨0, 10, .rw, 100⟩, ⟨10, 1, .rw, 0⟩, ⟨11, 5, .rw, 0⟩, ⟨16, 5, .rw, 6⟩]⟩,
   ⟨.trfTblSel, 0xC0010, [], false, [⟨0, 3, .rw, 0⟩, ⟨4, 16, .rw, 0⟩, ⟨20, 1, .rw, 0⟩]⟩,
   ⟨.trfTblCmd, 0xC0014, [], false, [⟨0, 1, .wo, 0⟩, ⟨1, 1, .wo, 0⟩]⟩,
   ⟨.trfTblStatus, 0xC0018, [], false, [⟨0, 1, .ro, 0⟩, ⟨1, 1, .w1c, 0⟩, ⟨16, 13, .ro, 0⟩]⟩,
   ⟨.trfTblData, 0xC0040, [(4, 16)], false, [⟨0, 32, .rw, 0⟩]⟩,
   ⟨.trfFnTm, 0xC0100, [(4, 16)], true, [⟨0, 7, .rw, 127⟩]⟩,
   ⟨.trfGateStatus, 0xC0200, [(16, 17)], false, [⟨0, 8, .ro, 255⟩, ⟨8, 8, .ro, 0⟩, ⟨16, 1, .ro, 0⟩, ⟨17, 1, .ro, 0⟩]⟩,
   ⟨.trfGateDrop, 0xC0204, [(16, 17)], false, [⟨0, 32, .rc, 0⟩]⟩,
   ⟨.trfHistSel, 0xC0400, [], false, [⟨0, 8, .rw, 0⟩, ⟨8, 1, .rw, 0⟩, ⟨9, 1, .rw, 0⟩, ⟨10, 1, .wo, 0⟩]⟩,
   ⟨.trfHistBin, 0xC0404, [(4, 16)], false, [⟨0, 32, .ro, 0⟩]⟩,
   ⟨.trfHistMax, 0xC0444, [], false, [⟨0, 32, .ro, 0⟩]⟩,
   ⟨.trfHistMaxDts, 0xC0448, [(4, 2)], false, [⟨0, 32, .ro, 0⟩]⟩,
   ⟨.trfHistSamples, 0xC0450, [], false, [⟨0, 32, .ro, 0⟩]⟩,
   ⟨.trfRedDrop, 0xC0500, [], false, [⟨0, 32, .rc, 0⟩]⟩,
   ⟨.lmpStatus, 0xE0000, [], false, [⟨0, 4, .ro, 15⟩, ⟨4, 7, .ro, 0⟩, ⟨11, 1, .ro, 0⟩]⟩,
   ⟨.lmpHandover, 0xE0004, [], false, [⟨0, 2, .wo, 0⟩]⟩,
   ⟨.lmpRtCfg, 0xE0008, [], true, [⟨0, 17, .rw, 1000⟩]⟩,
   ⟨.lmpRtUsed, 0xE000C, [], false, [⟨0, 19, .ro, 0⟩, ⟨19, 7, .ro, 0⟩]⟩,
   ⟨.lmpRtSel, 0xE0010, [], false, [⟨0, 6, .rw, 0⟩]⟩]

/-- Rows of Tables 07-7, 09-15. -/
def regRows10 : List RegSpec :=
  [⟨.lmpRtSrcLo, 0xE0014, [], false, [⟨0, 32, .rw, 0⟩]⟩,
   ⟨.lmpRtSrcHi, 0xE0018, [], false, [⟨0, 32, .rw, 0⟩]⟩,
   ⟨.lmpRtCtrl, 0xE001C, [], false, [⟨0, 1, .wo, 0⟩, ⟨1, 1, .wo, 0⟩]⟩,
   ⟨.lmpRtStatus, 0xE0020, [], false, [⟨0, 3, .ro, 0⟩, ⟨3, 1, .ro, 0⟩, ⟨16, 16, .ro, 0⟩]⟩,
   ⟨.lmpSchOwn, 0xE0100, [(4, 128)], true, [⟨0, 4, .rw, 0⟩, ⟨4, 1, .rw, 0⟩]⟩,
   ⟨.lmpChState, 0xE1000, [(64, 64)], false, [⟨0, 3, .ro, 0⟩, ⟨3, 1, .ro, 0⟩, ⟨4, 4, .ro, 0⟩, ⟨8, 2, .ro, 0⟩]⟩,
   ⟨.lmpChCcwLo, 0xE1004, [(64, 64)], false, [⟨0, 32, .ro, 0⟩]⟩,
   ⟨.lmpChCcwHi, 0xE1008, [(64, 64)], false, [⟨0, 32, .ro, 0⟩]⟩,
   ⟨.lmpChEvent, 0xE100C, [(64, 64)], false, [⟨0, 32, .w1s, 0⟩]⟩,
   ⟨.lmpChEventClr, 0xE1010, [(64, 64)], false, [⟨0, 32, .w1c, 0⟩]⟩,
   ⟨.lmpChTimer, 0xE1014, [(64, 64)], false, [⟨0, 32, .ro, 0⟩]⟩,
   ⟨.lmpChJobs, 0xE1018, [(64, 64)], false, [⟨0, 16, .ro, 0⟩, ⟨16, 16, .ro, 0⟩]⟩,
   ⟨.lmpChCsw, 0xE1020, [(64, 64), (4, 8)], false, [⟨0, 32, .ro, 0⟩]⟩,
   ⟨.cdcState, 0x100000, [(65536, 8)], false, [⟨0, 3, .ro, 4⟩, ⟨3, 1, .ro, 0⟩]⟩,
   ⟨.cdcMcVersion, 0x100004, [(65536, 8)], false, [⟨0, 8, .ro, 0⟩, ⟨8, 8, .ro, 0⟩, ⟨16, 8, .ro, 0⟩, ⟨24, 1, .ro, 0⟩, ⟨25, 1, .ro, 0⟩, ⟨26, 1, .ro, 0⟩]⟩,
   ⟨.cdcJobHandle, 0x100008, [(65536, 8), (4, 2)], false, [⟨0, 32, .ro, 0⟩]⟩,
   ⟨.cdcJobSeq, 0x100010, [(65536, 8)], false, [⟨0, 16, .ro, 0⟩, ⟨16, 3, .ro, 0⟩]⟩,
   ⟨.cdcUseq, 0x100014, [(65536, 8)], false, [⟨0, 14, .ro, 0⟩, ⟨14, 3, .ro, 0⟩]⟩,
   ⟨.cdcCycles, 0x100018, [(65536, 8), (4, 2)], false, [⟨0, 32, .ro, 0⟩]⟩,
   ⟨.cdcJobs, 0x100020, [(65536, 8)], false, [⟨0, 32, .ro, 0⟩]⟩]

/-- Rows of Tables 07-7, 08-8. -/
def regRows11 : List RegSpec :=
  [⟨.cdcRedone, 0x100024, [(65536, 8)], false, [⟨0, 16, .ro, 0⟩]⟩,
   ⟨.cdcFault, 0x100028, [(65536, 8)], false, [⟨0, 8, .ro, 0⟩]⟩,
   ⟨.cdcPoolCfg, 0x104000, [], true, [⟨0, 3, .rw, 0⟩]⟩,
   ⟨.cdcPoolStatus, 0x104004, [], false, [⟨0, 8, .ro, 0⟩, ⟨8, 8, .ro, 0⟩, ⟨16, 16, .ro, 0⟩]⟩,
   ⟨.cdcPoolUsed, 0x104008, [], false, [⟨0, 16, .ro, 0⟩, ⟨16, 16, .ro, 0⟩]⟩,
   ⟨.cdcPoolEvict, 0x10400C, [], false, [⟨0, 16, .rc, 0⟩]⟩,
   ⟨.cdcPoolFn, 0x104100, [(8, 16)], true, [⟨0, 7, .rw, 100⟩]⟩,
   ⟨.cdcPoolDebt, 0x104104, [(8, 16)], false, [⟨0, 32, .ro, 0⟩]⟩,
   ⟨.cmpCfg, 0x180000, [], true, [⟨0, 14, .rw, 6144⟩]⟩,
   ⟨.cmpStatus, 0x180004, [], false, [⟨0, 8, .ro, 0⟩, ⟨8, 14, .ro, 0⟩, ⟨22, 6, .ro, 0⟩]⟩,
   ⟨.cmpPixrate, 0x180008, [], false, [⟨0, 16, .ro, 0⟩]⟩,
   ⟨.cmpGrpLead, 0x180010, [(4, 4)], true, [⟨0, 20, .rw, 4667⟩]⟩,
   ⟨.cmpLateCnt, 0x180020, [], false, [⟨0, 32, .rc, 0⟩]⟩,
   ⟨.cmpGlyphs, 0x180024, [], false, [⟨0, 32, .ro, 0⟩]⟩,
   ⟨.cmpDmgSel, 0x180030, [], false, [⟨0, 7, .rw, 0⟩, ⟨8, 2, .rw, 0⟩]⟩,
   ⟨.cmpDmgData, 0x181000, [(4, 280)], false, [⟨0, 32, .ro, 0⟩]⟩,
   ⟨.cmpOutState, 0x190000, [(256, 128)], false, [⟨0, 2, .ro, 0⟩, ⟨2, 1, .ro, 0⟩, ⟨8, 4, .ro, 0⟩]⟩,
   ⟨.cmpOutCfg, 0x190004, [(256, 128)], true, [⟨0, 1, .rw, 1⟩, ⟨1, 3, .rw, 0⟩, ⟨4, 1, .rw, 0⟩, ⟨8, 7, .rw, 90⟩]⟩,
   ⟨.cmpOutBg, 0x190008, [(256, 128)], true, [⟨0, 30, .rw, 537395264⟩]⟩,
   ⟨.cmpOutStCfg, 0x19000C, [(256, 128)], true, [⟨0, 7, .rw, 0⟩, ⟨16, 14, .rw, 1500⟩]⟩]

/-- Rows of Tables 08-8, 14-13. -/
def regRows12 : List RegSpec :=
  [⟨.cmpOutFrames, 0x190010, [(256, 128)], false, [⟨0, 32, .ro, 0⟩]⟩,
   ⟨.cmpOutMissed, 0x190014, [(256, 128)], false, [⟨0, 32, .rc, 0⟩]⟩,
   ⟨.cmpOutLastTick, 0x190018, [(256, 128)], false, [⟨0, 32, .ro, 0⟩]⟩,
   ⟨.cmpOutDmg, 0x19001C, [(256, 128)], false, [⟨0, 14, .ro, 0⟩]⟩,
   ⟨.cmpOutStSkip, 0x190020, [(256, 128)], false, [⟨0, 32, .rc, 0⟩]⟩,
   ⟨.cmpOutStHdr, 0x190040, [(256, 128), (4, 19)], true, [⟨0, 32, .rw, 0⟩]⟩,
   ⟨.testUnlock, 0x400000, [], false, [⟨0, 32, .wo, 0⟩]⟩,
   ⟨.testStatus, 0x400004, [], false, [⟨0, 1, .ro, 0⟩, ⟨1, 1, .ro, 0⟩]⟩,
   ⟨.testCdcDelay, 0x400010, [(4, 9)], false, [⟨0, 4, .rw, 0⟩]⟩,
   ⟨.testSwPorts, 0x400040, [], false, [⟨0, 28, .rw, 0⟩]⟩,
   ⟨.testSwBp, 0x400044, [], false, [⟨0, 16, .rw, 0⟩, ⟨16, 16, .rw, 0⟩]⟩,
   ⟨.testCodec, 0x400050, [], false, [⟨0, 8, .rw, 0⟩, ⟨16, 9, .rw, 100⟩]⟩,
   ⟨.testDb, 0x400060, [], false, [⟨0, 16, .rw, 0⟩, ⟨16, 10, .rw, 0⟩]⟩,
   ⟨.testInj, 0x400070, [], false, [⟨0, 10, .rw, 0⟩, ⟨10, 8, .rw, 0⟩, ⟨31, 1, .wo, 0⟩]⟩,
   ⟨.testInjAddrLo, 0x400074, [], false, [⟨0, 32, .rw, 0⟩]⟩,
   ⟨.testInjAddrHi, 0x400078, [], false, [⟨0, 16, .rw, 0⟩]⟩]

/-- Every register of the BAR0 map (R31), in ascending live-view offset. -/
def regTable : List RegSpec :=
  regRows0 ++ regRows1 ++ regRows2 ++ regRows3 ++ regRows4 ++ regRows5 ++ regRows6 ++ regRows7 ++ regRows8 ++ regRows9 ++ regRows10 ++ regRows11 ++ regRows12

/-- The registers of a virtual function's page (R96), by their offset in that function's BAR0. -/
def vfRegTable : List RegSpec :=
  [⟨.vfIdent, 0x4000, [], false, [⟨0, 4, .ro, 0⟩, ⟨4, 4, .ro, 0⟩, ⟨8, 1, .ro, 0⟩, ⟨9, 1, .ro, 0⟩]⟩,
   ⟨.vfCtrl, 0x4004, [], false, [⟨0, 1, .rw, 0⟩]⟩,
   ⟨.vfStatus, 0x4008, [], false, [⟨0, 1, .ro, 0⟩, ⟨1, 1, .ro, 0⟩, ⟨2, 1, .ro, 0⟩, ⟨3, 1, .ro, 0⟩]⟩,
   ⟨.vfAsqLo, 0x4010, [], false, [⟨0, 32, .rw, 0⟩]⟩,
   ⟨.vfAsqHi, 0x4014, [], false, [⟨0, 32, .rw, 0⟩]⟩,
   ⟨.vfAcqLo, 0x4018, [], false, [⟨0, 32, .rw, 0⟩]⟩,
   ⟨.vfAcqHi, 0x401C, [], false, [⟨0, 32, .rw, 0⟩]⟩,
   ⟨.vfAqSize, 0x4020, [], false, [⟨0, 16, .rw, 0⟩, ⟨16, 15, .rw, 0⟩]⟩,
   ⟨.vfHeartbeat, 0x4024, [], false, [⟨0, 32, .wo, 0⟩]⟩,
   ⟨.vfHbTimeout, 0x4028, [], false, [⟨0, 17, .rw, 0⟩]⟩,
   ⟨.vfSlots, 0x4030, [], false, [⟨0, 13, .ro, 0⟩, ⟨16, 13, .ro, 0⟩]⟩,
   ⟨.vfOvrCnt, 0x4034, [], false, [⟨0, 32, .ro, 0⟩]⟩]

end Sys2Proof.Machine
end

