-- ==== Sys2Proof/Machine/RegRules.lean ====
section
/-!
DEFINITION. Machine/RegRules.lean: where an offset lies in the register tables, what a register holds at reset, and the
ranges of its fields (R9, R18, R489, R491).
-/
namespace Sys2Proof.Machine

/-- A register of a table: its row and its two indices, 0 where it has none. -/
structure RegAt where
  spec : RegSpec
  i : Nat
  j : Nat
deriving DecidableEq, Repr

/-- The indices of the register at a distance from its base. -/
def dimIndex : List (Nat × Nat) → Nat → Option (Nat × Nat)
  | [], d => if d = 0 then some (0, 0) else none
  | [(st, n)], d => if d % st = 0 ∧ d / st < n then some (d / st, 0) else none
  | (st, n) :: (st2, m) :: _, d =>
    if d / st < n ∧ d % st % st2 = 0 ∧ d % st / st2 < m then some (d / st, d % st / st2) else none

/-- The register of a table at an offset. -/
def regIn : List RegSpec → Nat → Option RegAt
  | [], _ => none
  | r :: t, off =>
    match (if r.base ≤ off then dimIndex r.dims (off - r.base) else none) with
    | some (i, j) => some ⟨r, i, j⟩
    | none => regIn t off

/-- The register at a live-view offset of BAR0. -/
def regFind (off : Nat) : Option RegAt := regIn regTable off
/-- The register at an offset of a virtual function's BAR0 (R96). -/
def vfRegFind (off : Nat) : Option RegAt := regIn vfRegTable off

/-- The bits of a field. -/
def FieldSpec.mask (f : FieldSpec) : Nat := (2 ^ f.width - 1) * 2 ^ f.lo
/-- The bits of the fields with an access code. -/
def maskOf (a : Access) (l : List FieldSpec) : Nat := l.foldl (fun n f => if f.access = a then n + f.mask else n) 0
/-- The reset value of the RW fields as the table gives it. -/
def fieldReset (l : List FieldSpec) : Nat :=
  l.foldl (fun n f => if f.access = .rw then n + f.reset * 2 ^ f.lo else n) 0

/-- The reset value of SNUF_SRC_CFG (Table 14-7): N, BASE and SEVERE as one word, and W. -/
def snufReset (src : Nat) : Nat × Nat :=
  let word := fun (n base severe : Nat) => n + 256 * base + 4096 * severe
  if 0x010 ≤ src ∧ src ≤ 0x017 then (word 3 5 4, 10000)
  else if src = 0x018 ∨ src = 0x030 then (word 3 1 5, 10000)
  else if (0x01F ≤ src ∧ src ≤ 0x02F) ∨ src = 0x040 ∨ src = 0x060 ∨ src = 0x090 ∨ src = 0x0A0 then (word 10 1 1, 1000)
  else if src = 0x041 then (word 3 1 3, 1000)
  else if 0x050 ≤ src ∧ src ≤ 0x053 then (word 2 5 3, 10000)
  else if (0x070 ≤ src ∧ src ≤ 0x07F) ∨ src = 0x080 ∨ src = 0x081 then (word 16 0 1, 1000)
  else if src = 0x0B0 ∨ src = 0x0C0 then (word 3 1 6, 1000)
  else (word 1 1 1, 1000)

/-- The reset value of the RW fields of a register. -/
def RegAt.reset (r : RegAt) : Nat :=
  match r.spec.id with
  | .timeGrpCfg => if r.i = 0 then 11 else 10
  | .timePortLat => (Config.portLat r.i 0).toNat
  | .qmgrFnCfg => if r.i = 0 then 4096 + 4096 * 65536 else 0
  | .qmgrFnVec => if r.i = 0 then 2048 * 65536 else 0
  | .qmgrFnSlots => if r.i = 0 then 4096 * 65536 else 0
  | .swcPortCfg => if 17 ≤ r.i then 0xC1 else 0xC0
  | .snufSrcCfg => (snufReset r.i).1
  | .snufSrcWin => (snufReset r.i).2
  | _ => fieldReset r.spec.fields

/-- The live-view offset of a register. -/
def RegAt.off (r : RegAt) : Nat :=
  r.spec.base + (match r.spec.dims with
    | [] => 0
    | [(st, _)] => st * r.i
    | (st, _) :: (st2, _) :: _ => st * r.i + st2 * r.j)

/-- The RW bits of a register. The configuration of pool 0 is fixed (R398), and the EN of an internal port is ignored. -/
def RegAt.rwMask (r : RegAt) : Nat :=
  let m := maskOf .rw r.spec.fields
  match r.spec.id with
  | .bpmPoolCfg | .bpmPoolBaseLo | .bpmPoolBaseHi | .bpmPoolCount | .bpmPoolLow | .bpmOwnMin => if r.i = 0 then 0 else m
  | .swcPortCfg => if 17 ≤ r.i then m - 1 else m
  | _ => m

/-- The stored word of a register. -/
def State.regAt (s : State) (r : RegAt) : Nat := s.regOr r.reset r.off

/-! ### Ranges -/

/-- A four-bit field as a signed number. -/
def signed4 (n : Nat) : Int := if n < 8 then n else (n : Int) - 16
/-- A number lies in a range. -/
def within (lo hi n : Nat) : Bool := decide (lo ≤ n) && decide (n ≤ hi)

/-- The fields of TIME_PTP_CFG, lowest first (Table 02-8). -/
def ptpCfgCheck (w : Nat) : Option StageCode :=
  let as := bits w 1 0 == 1
  let log := fun (hi lo : Nat) (a b : Int) => !(decide (a ≤ signed4 (bits w hi lo)) && decide (signed4 (bits w hi lo) ≤ b))
  firstFail [(bits w 1 0 == 3, .range), (bits w 6 5 == 3 || (as && bits w 6 5 != 0), .range),
    (as && bits w 15 8 != 0, .range), (log 19 16 (-3) 3, .range), (log 23 20 (-7) 1, .range), (log 27 24 (-7) 5, .range)]

/-- TIME_RET_CFG (Table 02-8). -/
def retCfgCheck (w : Nat) : Option StageCode :=
  firstFail [(!within 1 60 (bits w 7 0), .range), (!within 1 100 (bits w 15 8), .range)]

/-- The lanes of an enabled external port: none for a port that names no lanes. -/
def State.portLanes (t : State) (p : Nat) : List Nat :=
  if bit (t.portCfg p) 0 ∧ p < 16 then (List.range (cfgLanes (t.portCfg p))).map (p + ·) else []

/-- SWC_PORT_CFG (R330, Table 11-2), against the other ports' settings and the retired lanes. -/
def State.portCheck (t : State) (p : Nat) : Option StageCode :=
  let w := t.portCfg p
  let mode := bits w 3 1
  let fec := bits w 5 4
  let n := cfgLanes w
  if 17 ≤ p then none
  else if p = 16 then firstFail [(1 < mode, .range)]
  else
    let lanes := t.portLanes p
    firstFail [(mode == 7, .range), (if mode = 0 then fec == 3 else fec != 0, .range),
      (!lanes.isEmpty && (p % (max 1 n) != 0 || p / 8 != (p + n - 1) / 8), .range),
      (lanes.any (fun l => (List.range p).any (fun q => (t.portLanes q).contains l)), .range),
      (lanes.any (fun l => t.snuf.retiredLanes.getLsbD l), .range)]

/-- The bytes of a pool. -/
def State.poolBytes (t : State) (p : Nat) : Nat := t.poolCount p * 2 ^ t.poolClass p
/-- Two enabled pools overlap. -/
def State.poolsOverlap (t : State) (p q : Nat) : Bool :=
  t.poolEn q && decide (t.poolBase p < t.poolBase q + t.poolBytes q) && decide (t.poolBase q < t.poolBase p + t.poolBytes p)

/-- BPM_POOL_CFG of an enabled pool (R381, R385). -/
def State.poolCfgCheck (t : State) (p : Nat) : Option StageCode :=
  let w := t.poolCfg p
  let f := bits w 9 6
  if !t.poolEn p then none
  else firstFail [(!within 8 26 (bits w 4 0), .range), (bit w 5 && 16 < bits w 4 0, .range),
    (f != 0 && (!t.poolEn f || t.poolClass f ≤ t.poolClass p), .range)]

/-- BPM_POOL_BASE of an enabled pool: its place, its alignment and no overlap (R381). -/
def State.poolBaseCheck (t : State) (p : Nat) : Option StageCode :=
  let b := t.poolBase p
  let e := b + t.poolBytes p
  if !t.poolEn p then none
  else firstFail
    [(if bit (t.poolCfg p) 5 then b < 0x1000000000 || 0x1000800000 < e else b < 0x40000000 || 0x800000000 < e, .range),
     (b % min (2 ^ t.poolClass p) (2 * 2 ^ 20) != 0, .range),
     ((List.range 16).any (fun q => q != p && t.poolsOverlap p q), .range)]

/-- BPM_POOL_COUNT of an enabled pool: 1 to 1,048,576, and no more in all the enabled pools up to this one. -/
def State.poolCountCheck (t : State) (p : Nat) : Option StageCode :=
  let sum := (List.range (p + 1)).foldl (fun n q => n + t.poolCount q) 0
  if !t.poolEn p then none
  else firstFail [(t.poolCount p == 0, .range), (1048576 < sum, .range)]

/-- The running sum of a function over the functions 0 to `f`. A sum over functions that is exceeded is reported at the first
function where the running sum passes the limit: DESIGN CHOICE, assumption 31. -/
def sumFns (f : Nat) (x : Nat → Nat) : Nat := (List.range (f + 1)).foldl (fun n g => n + x g) 0

/-- QMGR_FN_CFG (R61). -/
def State.fnCfgCheck (t : State) (f : Nat) : Option StageCode :=
  let w := fun g => t.regOr (if g = 0 then 4096 + 4096 * 65536 else 0) (0x20100 + 16 * g)
  let most := if f = 0 then 4096 else 1024
  firstFail [(most < bits (w f) 12 0 || 4096 < sumFns f (fun g => bits (w g) 12 0), .range),
    (most < bits (w f) 28 16 || 4096 < sumFns f (fun g => bits (w g) 28 16), .range)]

/-- VEC_COUNT of a function. -/
def State.vecCount (t : State) (f : Nat) : Nat := bits (t.regOr (if f = 0 then 2048 * 65536 else 0) (0x20104 + 16 * f)) 27 16

/-- The check of a register's value `w` in the view `t` (R491, pass 1): the code of its first failing field. The ranges
are those of the register tables; `t` holds the staged values over the live ones. QMGR_FN_CFG, QMGR_FN_VEC and QMGR_FN_SLOTS fail
at the function where their running sum passes the limit: DESIGN CHOICE, assumption 31. -/
def State.regCheck (t : State) (id : RegId) (i j w : Nat) : Option StageCode :=
  let range := fun (bad : Bool) => if bad then some StageCode.range else none
  match id with
  | .timePtpCfg => ptpCfgCheck w
  | .timeHoSpec => range (w == 0)
  | .timeRetCfg => retCfgCheck w
  | .timePpsOut => range (!within 1 500000 w)
  | .timeGrpCfg => firstFail [(i == 0 && !bit w 0, .range), (bits w 4 1 == 15, .tickRate)]
  | .qmgrFnCfg => t.fnCfgCheck i
  | .qmgrFnVec => range (2048 < sumFns i t.vecCount)
  | .qmgrFnSlots => range (4096 < sumFns i t.slotMin)
  | .snufCfg => range (168 < bits w 7 0)
  | .snufSrcWin => range (!within 1 60000 w)
  | .bpmPoolCfg => t.poolCfgCheck i
  | .bpmPoolBaseLo => t.poolBaseCheck i
  | .bpmPoolCount => t.poolCountCheck i
  | .bpmOwnMin => range (18 ≤ j && w != 0)
  | .swcCfg => range (1000000 < bits w 19 0)
  | .swcPortCfg => t.portCheck i
  | .swcPortVlan => range (bits w 13 12 == 3)
  | .swcPortFrame => range (!within 64 9220 w)
  | .swcQMax => range (!within 37 131072 w || w < t.qMin i)
  | .trfHistCfg => firstFail [(!within 1 1000 (bits w 9 0), .range), (17 < bits w 15 11, .range), (20 < bits w 20 16, .range)]
  | .trfFnTm => firstFail [(63 < w && w != 0x7F, .range), (w < 64 && !(t.meter (16384 + w)).en, .reference)]
  | .trfHistSel => range (223 < bits w 7 0)
  | .lmpRtCfg => range (!within 10 100000 w)
  | .lmpRtSrcLo => range (w % 64 != 0)
  | .lmpSchOwn => range (within 0x40 0x47 i && bit w 4)
  | .cdcPoolFn => range (!within 25 100 w)
  | .cmpCfg => range (7168 < w)
  | .cmpGrpLead => range (w < 100 || t.periodUnits i < microsecond * (w + 100))
  | .cmpOutCfg => firstFail
      [(2 < bits w 3 1 || (bits w 3 1 == 2 && (match t.outp i with | some x => !x.tenBit | none => false)), .range),
       (!within 1 100 (bits w 14 8), .range)]
  | .cmpOutStCfg => firstFail
      [(bits w 6 0 != 0 && bits w 6 0 != 54 && bits w 6 0 != 74, .range), (!within 128 9212 (bits w 29 16), .range)]
  | _ => none

end Sys2Proof.Machine
end

