-- ==== Sys2Proof/Machine/Retarget.lean ====
section
/-!
DEFINITION. Machine/Retarget.lean: pending jobs follow their group when its sequence of ticks changes: at an applied
change of its rate or of TICK_EPOCH (R45, R47) and at a step of DTS (R52).
-/
namespace Sys2Proof.Machine

/-- Move the tick a target names, where it is of group `g`. -/
def Target.moved (t : Target) (g : Fin 4) (f : Int → Int) : Target := if t.group = g then { t with tick := f t.tick } else t

/-- Move the tick of a codec job. -/
def CodecJob.moved (j : CodecJob) (g : Fin 4) (f : Int → Int) : CodecJob :=
  if j.target.group = g then { j with target := j.target.moved g f, firstTarget := f j.firstTarget } else j

/-- Move the tick of a frame that waits on a send queue. -/
def SendFrame.moved (x : SendFrame) (g : Fin 4) (f : Int → Int) : SendFrame :=
  match x.target with
  | some t => if t.group = g then { x with target := some (t.moved g f), firstTarget := f x.firstTarget } else x
  | none => x

/-- Move the presentation ticks of a stream's pictures. -/
def DecStream.moved (d : DecStream) (g : Fin 4) (f : Int → Int) : DecStream :=
  if d.group = g then
    { d with entries := d.entries.map (fun e : PicEntry => { e with presTick := e.presTick.map f }) }
  else d

/-- Move the ticks of an output's updates and of the frame it composes. -/
def Output.moved (x : Output) (g : Fin 4) (f : Int → Int) : Output :=
  { x with
    updates := x.updates.map (fun u : PlaneUpdate => { u with target := u.target.moved g f })
    frame := if x.group = g then x.frame.map (fun w : OutFrame => { w with tick := f w.tick }) else x.frame }

/-- Every pending job of group `g` is moved by `f`. -/
def State.moveTargets (s : State) (g : Fin 4) (f : Int → Int) : State :=
  { s with
    codec := { s.codec with
      jobs := s.codec.jobs.map (fun j => j.moved g f)
      dec := s.codec.dec.map (fun e => (e.1, e.2.map (fun d => d.moved g f))) }
    cmp.outputs := s.cmp.outputs.map (fun e => (e.1, e.2.map (fun x => x.moved g f)))
    swc.sendQueues := s.swc.sendQueues.map (fun e => (e.1, e.2.map (fun q : SendQueue =>
      { q with waiting := q.waiting.map (fun x => x.moved g f) }))) }

/-- A group's sequence has changed (R45, R47): `old` is the state before the change was applied, at the same instant.
The next tick is the first of the new sequence at least half a period after the instant; each pending job goes to the
first new tick at or after its old target's instant. Ticks that have occurred, the one in progress among them, keep
numbers below that of the next tick. -/
def State.regroup (s old : State) (g : Fin 4) : State :=
  let half : Int := ((s.period g.val).1 + 2 * (s.period g.val).2 - 1) / (2 * (s.period g.val).2)
  let k := s.tickFrom g.val (s.fullTime + half)
  let at_ := fun (t : Int) => max k (s.tickFrom g.val (old.tickTime g.val t))
  let back := fun (t : Int) =>
    if t < old.nextTick g then min (k - 1) (s.tickFrom g.val (old.tickTime g.val t)) else at_ t
  { s.moveTargets g back with
    time.groups := s.time.groups.set g ⟨s.time.groups[g].last, k⟩ }

end Sys2Proof.Machine
end

