-- ==== Sys2Proof/Machine/Stage.lean ====
section
/-!
DEFINITION. Machine/Stage.lean: the staging session: claims, staging writes, the check, arming and cancelling
(R18 to R30, R489 to R491).
-/
namespace Sys2Proof.Machine

/-- The number of a stage result code (Table 01-7). -/
def StageCode.code : StageCode → Nat
  | .pass => 0 | .gateSum => 1 | .shaperRate => 2 | .poolReserve => 3 | .tickRate => 4 | .range => 5
  | .reference => 6 | .admission => 7 | .notChecked => 8 | .late => 9 | .conflict => 10 | .busy => 11 | .unitAbort => 12

/-- The number of a stage state (Table 01-6). -/
def StageSt.code : StageSt → Nat
  | .idle => 0 | .opened => 1 | .checking => 2 | .checked => 3 | .failed => 4 | .armed => 5 | .applied => 6
  | .cancelled => 7

/-! ### Conflicts (R28, R30) -/

/-- The function that a record of a master names: a channel's is the one that started it, the Lantern core's 0xFF. -/
def State.masterFn (s : State) : Master → Nat
  | .lantern => 0xFF
  | .fn f => f.val
  | .chan c => (s.chan c.val).fn

/-- A CONFLICT is recorded: the event log, SYS_CONFLICT_LAST and source 287 (R30, R494). `kind` is 0 for a claim and 1
for a command or CCW, whose opcode is `op`. -/
def State.conflict (s : State) (winner loser : Master) (winnerDts loserDts : DWord) (kind op : Nat) : State :=
  let payload := leBytes 1 (masterClass winner) ++ leBytes 1 (masterNumber winner) ++ leBytes 1 (masterClass loser)
    ++ leBytes 1 (masterNumber loser) ++ leBytes 1 kind ++ leBytes 1 op ++ leBytes 2 0 ++ leBytes 8 winnerDts.toNat
    ++ leBytes 8 loserDts.toNat ++ leBytes 8 0
  let s1 := s.logRecord 3 (s.masterFn loser) payload
  { s1 with stage := { s1.stage with winner := some winner, loser := some loser, conflictDts := loserDts } }.raise 287

/-! ### The end of a session -/

/-- Who waited for a check or an apply learns its outcome. -/
def State.waiterEnd (s : State) (w : Option Waiter) (st : Status) (r0 r1 : Nat) (detail : Option Nat) : State :=
  match w with
  | none => s
  | some (.slot n) => s.finish n st r0 r1 detail
  | some (.channel c async) => s.chanJobDone c async st

/-- The stage enters a state that raises source 287 (R30). -/
def State.stageTo (s : State) (st : StageSt) : State := { s with stage.st := st }.raise 287

/-- The session ends (R19): every staging view is the live view again and the holder is gone. A command that waits for
its check or its apply completes with `st`. -/
def State.stageEnd (s : State) (target : StageSt) (code : StageCode) (st : Status) (r0 r1 : Nat) : State :=
  let w1 := s.stage.checkWaiter
  let w2 := s.stage.applyWaiter
  let s1 := { s with stage := { s.stage with
    code := code, holder := .none, armed := .none, regs := [], entries := [], checkWaiter := .none, applyWaiter := .none } }
  ((s1.stageTo target).waiterEnd w1 st r0 r1 none).waiterEnd w2 st r0 r1 none

/-- A session is cancelled: every code but those of R19 and R26 stands. -/
def State.stageCancel (s : State) : State := s.stageEnd .cancelled s.stage.code .aborted 0 0

/-- UNIT_ABORT (R26). -/
def State.unitAbort (s : State) : State :=
  if s.stage.holder.isSome then s.stageEnd .cancelled .unitAbort .aborted 0 0 else s

/-- The staged settings include one of a unit: a register from `lo` to below `hi`, or an entry of its tables. -/
def State.stages (s : State) (lo hi : Nat) (unit : Option Nat) : Bool :=
  s.stage.regs.any (fun e => decide (lo ≤ e.1) && decide (e.1 < hi)) ||
    s.stage.entries.any (fun e => some e.1.unit == unit)

/-- A unit is reset: an armed change in which it takes part is cancelled everywhere (R26). -/
def State.unitResetAborts (s : State) (u : UnitId) : State :=
  let part : Bool := match u with
    | .codec c => s.stages (0x100000 + 0x10000 * c.val) (0x104000 + 0x10000 * c.val) none
    | .lamplighter _ => s.stages 0xE0000 0x100000 none
    | .lantern => false
    | .compositor => s.stages 0x180000 0x200000 none
    | .switch => s.stages 0xA0000 0xC0000 (some 0)
    | .traffic => s.stages 0xC0000 0xE0000 (some 1)
    | .dma => s.stages 0x90000 0xA0000 none
  if s.stage.st == .armed && part then s.unitAbort else s

/-- A reset of the staging controller: IDLE, no session (R34). -/
def State.stageReset (s : State) : State :=
  { s with stage := { StageState.reset with
    winner := s.stage.winner, loser := s.stage.loser, conflictDts := s.stage.conflictDts } }

/-! ### Claims and staging writes (R19, R27) -/

/-- How a claim ends. -/
inductive Claim where
  | granted | busy | conflict
deriving DecidableEq, Repr

/-- The master and route that hold the session. -/
def State.holds (s : State) (m : Master) (r : Route) : Bool := s.stage.holder == some (m, r)

/-- A claim is resolved against the holder (R27). -/
def State.claim (s : State) (m : Master) (r : Route) : Claim × State :=
  let now := s.time.dts
  let open_ := fun (s : State) => { s with stage := { s.stage with
    st := .opened, code := .pass, failAddr := 0, failItem := 0, holder := some (m, r), claimedAt := now } }
  match s.stage.holder with
  | none => (.granted, open_ s)
  | some (h, hr) =>
    if h = m then if hr = r then (.granted, s) else (.busy, s)
    else if masterRank h < masterRank m then (.conflict, s.conflict h m s.stage.claimedAt now 0 0)
    else (.granted, open_ ((s.conflict m h now s.stage.claimedAt 0 0).stageEnd .cancelled .conflict .conflict 0 0))

/-- A staging write by the holder in CHECKING, CHECKED or FAILED returns the session to OPEN; a CHECK that was under way
completes with ABORTED (R20, R115). -/
def State.reopen (s : State) : State :=
  match s.stage.st with
  | .checking | .checked | .failed =>
    { s with stage := { s.stage with st := .opened, checkWaiter := .none } }.waiterEnd s.stage.checkWaiter .aborted 0 0 none
  | _ => s

/-- A staging write through a route: the claim, then the write where it is granted and the state is not ARMED (R19,
R490). -/
def State.stagingWrite (s : State) (m : Master) (r : Route) (f : State → State) : Status × State :=
  match s.claim m r with
  | (.busy, t) => (.busy, t)
  | (.conflict, t) => (.conflict, t)
  | (.granted, t) => if t.stage.st = .armed then (.busy, t) else (.ok, f t.reopen)

/-- The register at a live-view offset is staged. -/
def stagedAt (off : Nat) : Option RegAt :=
  match regFind off with
  | some r => if r.spec.staged && off % 4 == 0 then some r else none
  | none => none

/-- Put a value in the staging view of a register. -/
def State.putStaged (s : State) (r : RegAt) (v : Nat) : State :=
  { s with stage.regs := Table.set .none s.stage.regs r.off (some (BitVec.ofNat 32 (v &&& r.rwMask))) }

/-- The staged value of a register. -/
def State.stagedWord (s : State) (r : RegAt) : Nat :=
  match Table.get .none s.stage.regs r.off with
  | some v => v.toNat
  | none => s.regAt r

/-- The staging view of a register that has no such view is not there: the write is ignored, and no session is
claimed (R18). -/
def State.stageReg (s : State) (m : Master) (route : Route) (off v : Nat) : State :=
  match stagedAt off with
  | some r => (s.stagingWrite m route (fun t => t.putStaged r v)).2
  | none => s

/-- The key of a staged entry: a MAC entry is known by its address and VID (R336). -/
def entryKey (unit table index : Nat) (b : List Byte) : EntryKey :=
  if unit = 0 ∧ table = 3 then ⟨unit, table, index + 65536 * (fieldLe b 6 2 % 4096 * 2 ^ 48 + fieldLe b 0 6 + 1)⟩
  else ⟨unit, table, index⟩

/-- Two keys name one entry. -/
def EntryKey.same (a b : EntryKey) : Bool :=
  a.unit == b.unit && a.table == b.table &&
    (if a.unit = 0 ∧ a.table = 3 then a.index / 65536 == b.index / 65536 else a.index == b.index)

/-- Stage a table entry: a later write of the same entry takes its place. -/
def State.putEntry (s : State) (k : EntryKey) (b : List Byte) : State :=
  let l := s.stage.entries
  { s with stage.entries :=
      if l.any (fun e => e.1.same k) then l.map (fun e => if e.1.same k then (k, b) else e) else l ++ [(k, b)] }

/-! ### The check (R21, R491) -/

/-- A staged entry over the live tables, as the check sees it. -/
def State.overEntry (t : State) (e : EntryKey × List Byte) : State :=
  if e.1.unit = 0 then (t.putSwc e.1.table (e.1.index % 65536) e.2).1 else t.putTrf e.1.table e.1.index e.2

/-- The registers with the staged values over the live ones. -/
def State.overRegs (s : State) : State :=
  { s with regs := s.stage.regs.foldl (fun t e => Table.set .none t e.1 e.2) s.regs }

/-- The settings as the check sees them: the staged ones over the live ones. -/
def State.view (s : State) : State := s.stage.entries.foldl State.overEntry s.overRegs

/-- A failing item: its register's offset, the place of a table entry after it, its item number and the code. -/
structure Failing where
  addr : Nat
  order : Nat
  item : Nat
  code : StageCode
deriving DecidableEq, Repr

/-- The live registers whose check depends on other settings, by offset. -/
def crossRegs : List (Nat × RegId × Nat) :=
  ((List.range 4).map (fun g => (0x180010 + 4 * g, RegId.cmpGrpLead, g)))
    ++ ((List.range 16).map (fun f => (0x20100 + 16 * f, RegId.qmgrFnCfg, f)))
    ++ ((List.range 16).map (fun f => (0x20104 + 16 * f, RegId.qmgrFnVec, f)))
    ++ ((List.range 16).map (fun f => (0x20108 + 16 * f, RegId.qmgrFnSlots, f)))
    ++ ((List.range 16).map (fun p => (0x80100 + 32 * p, RegId.bpmPoolCfg, p)))
    ++ ((List.range 16).map (fun p => (0x80104 + 32 * p, RegId.bpmPoolBaseLo, p)))
    ++ ((List.range 16).map (fun p => (0x8010C + 32 * p, RegId.bpmPoolCount, p)))
    ++ ((List.range 17).map (fun p => (0xA0400 + 32 * p, RegId.swcPortCfg, p)))
    ++ ((List.range 16).map (fun f => (0xC0100 + 4 * f, RegId.trfFnTm, f)))

/-- The reset value of the registers that `crossRegs` names, as `regOr` takes it. -/
def crossReset (id : RegId) (i : Nat) : Nat :=
  match id with
  | .qmgrFnCfg => if i = 0 then 4096 + 4096 * 65536 else 0
  | .qmgrFnVec => if i = 0 then 2048 * 65536 else 0
  | .qmgrFnSlots => if i = 0 then 4096 * 65536 else 0
  | .swcPortCfg => 0xC0
  | .trfFnTm => 0x7F
  | .cmpGrpLead => 4667
  | .swcQMax => 131072
  | .cmpOutCfg => 0x5A01
  | _ => 0

/-- The failing live registers of the view `t` (R491: live settings are taken with the staged ones). -/
def State.crossFails (t : State) : List Failing :=
  let one := fun (off : Nat) (id : RegId) (i : Nat) =>
    (t.regCheck id i 0 (t.regOr (crossReset id i) off)).map (fun c => ⟨off, 0, 0, c⟩)
  crossRegs.filterMap (fun e => one e.1 e.2.1 e.2.2)
    ++ (List.range 224).filterMap (fun q => one (0xA1004 + 16 * q) .swcQMax q)
    ++ t.outList.filterMap (fun e => one (0x190004 + 256 * e.1) .cmpOutCfg e.1)

/-- A staged change that an enabled pool refuses while a buffer or an earmark is out (R381). -/
def State.poolHolds (s : State) (r : RegAt) (v : Nat) : Bool :=
  s.poolEn r.i && s.poolBusy r.i && (match r.spec.id with
    | .bpmPoolCfg => (s.regAt r % 64 != v % 64) || !bit v 10
    | .bpmPoolBaseLo | .bpmPoolBaseHi | .bpmPoolCount => s.regAt r != v
    | _ => false)

/-- The failing staged registers. -/
def State.regFails (s t : State) : List Failing :=
  s.stage.regs.filterMap (fun e =>
    match regFind e.1 with
    | none => none
    | some r =>
      let v := t.regAt r
      match t.regCheck r.spec.id r.i r.j v with
      | some c => some ⟨e.1, 0, 0, c⟩
      | none => if s.poolHolds r v then some ⟨e.1, 0, 0, .range⟩ else none)

/-- The live entries of the tables, with their keys. -/
def State.liveEntries (s : State) : List (EntryKey × List Byte) :=
  let swc := fun (table : Nat) (l : List Nat) => l.map (fun i => ((⟨0, table, i⟩ : EntryKey), s.swcEntry table i))
  let shapers := s.trf.shapers.keys.map (fun k =>
    let (tb, i) := if k < 16384 then (0, k) else if k < 16520 then (1, k - 16384) else (2, k - 16520)
    ((⟨1, tb, i⟩ : EntryKey), s.trfEntry tb i))
  let meters := s.trf.meters.keys.map (fun k =>
    let (tb, i) := if k < 16384 then (3, k) else (4, k - 16384)
    ((⟨1, tb, i⟩ : EntryKey), s.trfEntry tb i))
  swc 1 s.swc.group.keys ++ swc 2 s.swc.classifier.keys ++ swc 3 s.swc.mac.keys ++ swc 4 s.swc.binding.keys
    ++ shapers ++ meters ++ s.trf.gates.keys.map (fun p => (⟨1, 5, p⟩, s.trfEntry 5 p))

/-- The check of one entry in the view `t`. -/
def State.entryCheck (t : State) (k : EntryKey) (b : List Byte) : Option StageCode :=
  if k.unit = 0 then swcCheck k.table b t.swcRefs else trfCheck k.table k.index b (fun n => (t.meter (16384 + n)).en)

/-- The place of an entry in the order of R491: TABLE code, then index. -/
def EntryKey.order (k : EntryKey) : Nat := k.table * 65536 + k.index % 65536
/-- The select register of a table. -/
def EntryKey.addr (k : EntryKey) : Nat := if k.unit = 0 then 0xA0020 else 0xC0010
/-- An entry fails with a code. -/
def EntryKey.fails (k : EntryKey) (c : StageCode) : Failing := ⟨k.addr, 1 + k.order, k.index % 65536, c⟩

/-- The failing entries: the staged ones, the 4,097th of a session among them (R339), and the live ones. -/
def State.entryFails (s t : State) : List Failing :=
  let check := fun (e : EntryKey × List Byte) => (t.entryCheck e.1 e.2).map e.1.fails
  s.stage.entries.filterMap check ++ (s.stage.entries.drop 4096).map (fun e => e.1.fails .range)
    ++ (s.liveEntries.filter (fun e => !s.stage.entries.any (fun x => x.1.same e.1))).filterMap check

/-- Of two failing items the one that R491 takes first. -/
def firstOf (a b : Failing) : Failing :=
  if b.addr < a.addr ∨ (b.addr = a.addr ∧ b.order < a.order) then b else a

/-- The first failing item of the field checks. -/
def State.fieldFail (s t : State) : Option Failing :=
  match s.regFails t ++ s.entryFails t ++ t.crossFails with
  | [] => none
  | h :: l => some (l.foldl firstOf h)

/-- GATE_SUM of a port: the intervals of an enabled list do not sum to its cycle (R369). -/
def State.gateSumBad (t : State) (p : Nat) : Bool :=
  let l := (t.portGates p).list
  l.en && (List.range l.count).foldl (fun n i => n + (Table.get (0, 0) l.entries i).1) 0 != l.cycle

/-- SHAPER_RATE of a port (R376). -/
def State.shaperRateBad (t : State) (p : Nat) : Bool :=
  let port := t.shaper (portShaper p)
  let rate := t.portRate p
  let sum := (List.range 8).foldl (fun n i =>
    let x := t.shaper (queueShaper (8 * p + i))
    if x.en then n + x.rate else n) 0
  bit (t.portCfg p) 0 && (decide ((if port.en then port.rate else rate) < sum) || (port.en && decide (rate < port.rate)))

/-- Where the running sum of minima first exceeds a bound, if it does. -/
def sumPasses (f : Nat → Nat) (bound : Nat) : List Nat → Nat → Option Nat
  | [], _ => none
  | i :: t, n => if bound < n + f i then some i else sumPasses f bound t (n + f i)

/-- POOL_RESERVE of a pool (R347, R383). -/
def State.reserveFail (t : State) (p : Nat) : Option Failing :=
  if p = 0 then (sumPasses t.qMin 131072 (List.range 224) 0).map (fun q => ⟨0xA1000 + 16 * q, 0, 0, .poolReserve⟩)
  else if t.poolEn p then
    (sumPasses (t.ownMin p) (t.poolCount p) (List.range 32) 0).map (fun o => ⟨0x81000 + 128 * p + 4 * o, 0, p, .poolReserve⟩)
  else none

/-- ADMISSION: a staged SPARE would make CAP smaller than the units in use (ch. 7). -/
def State.admissionBad (s t : State) : Bool := decide (s.spare ≠ t.spare) && decide (s.capWith t.spare < s.poolUnits)

/-- The first failing item of the sum checks (R491, pass 2). -/
def State.sumFail (s t : State) : Option Failing :=
  match firstBelow 17 t.gateSumBad with
  | some p => some ⟨0xC0010, 0, p, .gateSum⟩
  | none =>
    match firstBelow 17 t.shaperRateBad with
    | some p => some ⟨0xC0010, 0, p, .shaperRate⟩
    | none =>
      match (List.range 16).findSome? t.reserveFail with
      | some f => some f
      | none => if s.admissionBad t then some ⟨0x104000, 0, 0, .admission⟩ else none

/-- The first failing item of the session's change, if any. -/
def State.stageFail (s : State) : Option Failing :=
  match s.fieldFail s.view with
  | some f => some f
  | none => s.sumFail s.view

/-- The check has begun: CHECKING (R20). -/
def State.checkBegin (s : State) (w : Option Waiter) : State :=
  { s with stage := { s.stage with st := .checking, checkWaiter := w } }

/-- STAGE_CHECK_END: the check ends in CHECKED or FAILED (R21, Table 04-12). A check that passes sets FAIL_ADDR and FAIL_ITEM
to 0: DESIGN CHOICE, assumption 31. -/
def State.checkEnd (s : State) : State :=
  if s.stage.st ≠ .checking then s
  else
    let w := s.stage.checkWaiter
    let s1 := { s with stage.checkWaiter := .none }
    match s.stageFail with
    | none =>
      { s1 with stage := { s1.stage with st := .checked, code := .pass, failAddr := 0, failItem := 0 } }.waiterEnd w .ok
        0 0 none
    | some f =>
      let s2 := { s1 with stage := { s1.stage with
        code := f.code, failAddr := BitVec.ofNat 23 f.addr, failItem := BitVec.ofNat 16 f.item } }
      (s2.stageTo .failed).waiterEnd w .invalidField f.addr f.item (detailOf 16 (0x100 + f.code.code))

end Sys2Proof.Machine
end

