-- ==== Sys2Proof/Machine/StageApply.lean ====
section
/-!
DEFINITION. Machine/StageApply.lean: arming a checked change and applying it at its instant (R22 to R26).
-/
namespace Sys2Proof.Machine

/-- 64-bit device times are compared by their difference, taken as a signed number (R36). -/
def State.untilDts (s : State) (d : DWord) : Int := (d - s.time.dts).toInt

/-- Ten microseconds (R24). -/
def armGap : Int := 10 * microsecond

/-- How an apply order ends. -/
inductive Arming where
  | armed | notChecked | late | noTick
deriving DecidableEq, Repr

/-- Write the resolved instant to SYS_STAGE_AT (R23). -/
def State.setAt (s : State) (t : Int) : State :=
  let n := (t % (2 ^ 64 : Nat)).toNat
  (s.setReg 0x1010 (BitVec.ofNat 32 n)).setReg 0x1014 (BitVec.ofNat 32 (n / 2 ^ 32))

/-- The session is armed for an instant. -/
def State.arm (s : State) (a : Armed) (t : Int) (w : Option Waiter) : State :=
  { s.setAt t with stage := { s.stage with st := .armed, code := .pass, armed := some a, applyWaiter := w } }

/-- Set the result code and nothing else. -/
def State.stageCode (s : State) (c : StageCode) : State := { s with stage.code := c }

/-- The holder orders an apply (R22 to R24): at the next tick of a group, or the one after it where the next is less
than 10 µs away; or at a DTS. -/
def State.applyOrder (s : State) (atDts : Bool) (g : Fin 4) (d : DWord) (w : Option Waiter) : Arming × State :=
  if s.stage.st ≠ .checked then (.notChecked, s.stageCode .notChecked)
  else if atDts then
    if s.untilDts d < armGap then (.late, s.stageCode .late)
    else (.armed, s.arm (.dts d) (d.toNat : Nat) w)
  else if !s.groupEn g.val then (.noTick, s.stageCode .range)
  else
    let k := s.nextTick g
    let k1 := if s.tickTime g.val k - s.fullTime < armGap then k + 1 else k
    (.armed, s.arm (.tick g k1) (s.tickTime g.val k1) w)

/-! ### Apply (R25) -/

/-- The ports whose gate lists an entry of the change touches. -/
def stagedGatePorts (l : List (EntryKey × List Byte)) : List Nat :=
  (List.range 17).filter (fun p => l.any (fun e =>
    e.1.unit == 1 && ((e.1.table == 5 && e.1.index == p) || (e.1.table == 6 && e.1.index / 256 == p))))

/-- The gate list of a port with its staged header and entries. -/
def State.stagedList (s : State) (p : Nat) (l : List (EntryKey × List Byte)) : GateList :=
  l.foldl (fun g e =>
    if e.1.unit == 1 && e.1.table == 5 && e.1.index == p then g.withHeader e.2
    else if e.1.unit == 1 && e.1.table == 6 && e.1.index / 256 == p then g.withEntry (e.1.index % 256) e.2
    else g) (s.portGates p).list

/-- The staged entries take effect: gate lists wait for their boundary (R370). -/
def State.applyEntries (s : State) (l : List (EntryKey × List Byte)) : State :=
  let plain := l.filter (fun e => !(e.1.unit == 1 && (e.1.table == 5 || e.1.table == 6)))
  let s1 := plain.foldl State.overEntry s
  forEach (stagedGatePorts l) s1 (fun p t => t.armGates p (s.stagedList p l))

/-- Pools that the change enabled or laid out anew start afresh (R382). -/
def State.applyPools (s old : State) : State :=
  forEach (List.range 16) s (fun p s =>
    let changed := (s.poolEn p && !old.poolEn p) || (old.poolEn p && !s.poolEn p) ||
      (s.poolEn p && (s.poolCfg p % 64 != old.poolCfg p % 64 || s.poolBase p != old.poolBase p
        || s.poolCount p != old.poolCount p))
    if changed then s.poolFresh p else s)

/-- Groups whose rate, enable or epoch changed are regrouped (R45). -/
def State.applyGroups (s old : State) : State :=
  forEach (List.finRange 4) s (fun g s =>
    if s.grpCfg g.val != old.grpCfg g.val || s.tickEpoch != old.tickEpoch then s.regroup old g else s)

/-- Outputs whose colour or background changed compose every block again (R237). -/
def State.applyOutputs (s old : State) : State :=
  let s1 := forEach s.outList s (fun e s =>
    if bits (s.outCfg e.1) 3 1 != bits (old.outCfg e.1) 3 1 || s.outBg e.1 != old.outBg e.1 then
      s.updOut e.1 (fun x => { x with all := true })
    else s)
  s1.settleNight

/-- What the units do as their settings change. -/
def State.applyEffects (s old : State) : State :=
  let s1 := (s.applyGroups old).applyPools old
  let s2 := forEach (List.range 17) s1 (fun p t =>
    if t.portCfg p != old.portCfg p then t.portReconfigured p (old.portCfg p) else t)
  let s3 := s2.applyOutputs old
  let s4 := if s3.regOr 0 0xC0004 != old.regOr 0 0xC0004 then { s3 with trf.histLast := s3.fullTime } else s3
  (s4.cellsCheck).slotsCheck

/-- Put the words of a table over those of another. -/
def putWords (t u : Table (Option Word)) : Table (Option Word) :=
  u.foldl (fun (t : Table (Option Word)) (e : Nat × Option Word) => Table.set .none t e.1 e.2) t

/-- The clock of the unit that holds a register is stopped: in STANDBY those of the codec cores and of the compositor, whose
work is the media work that Table 15-2 leaves out there. DEDUCED: assumption 29. -/
def State.clockStopped (s : State) (off : Nat) : Bool :=
  s.pwr.mode == .standby && decide (0x100000 ≤ off) && decide (off < 0x200000)

/-- The change applies at this instant, and the session ends (R19, R25). The values of a unit whose clock is stopped wait
for it. -/
def State.stageApply (s : State) : State :=
  let l := s.stage.entries
  let waits := s.stage.regs.filter (fun e => s.clockStopped e.1)
  let s0 := { s with stage := { s.stage with
    regs := s.stage.regs.filter (fun e => !s.clockStopped e.1)
    late := putWords s.stage.late waits } }
  let s1 := s0.overRegs.applyEntries l
  let s2 := s1.applyEffects s
  s2.stageEnd .applied .pass .ok (bits s.time.dts.toNat 31 0) (bits s.time.dts.toNat 63 32)

/-- The clocks of the units return: the values that waited for them are swapped in before any work (R25). -/
def State.swapLate (s : State) : State :=
  if s.stage.late.isEmpty then s
  else
    let s1 := { s with
      regs := putWords s.regs s.stage.late
      stage.late := [] }
    s1.applyEffects s

/-- At a tick of a group: a change armed for it applies (R16, step 1). -/
def State.stageTick (s : State) (g : Fin 4) (k : Int) : State :=
  match s.stage.armed with
  | some (.tick g' k') => if g' = g ∧ k' ≤ k then s.stageApply else s
  | _ => s

/-- STAGED_CHANGE_APPLY_AT_DTS: the armed DTS comes. -/
def State.stageAtDts (s : State) : State :=
  match s.stage.armed with
  | some (.dts d) => (s.advanceToDts (s.fullTime + s.untilDts d)).stageApply
  | _ => s

/-- At a step of DTS (R53): a change armed in tick mode moves by the displacement of its group, and SYS_STAGE_AT is
rewritten; one armed for a DTS that the step has passed over applies at once. `s` is the state on the new timeline. -/
def State.stageStepped (s : State) (disp : Fin 4 → Int) : State :=
  match s.stage.armed with
  | some (.tick g k) =>
    { s.setAt (s.tickTime g.val (k + disp g)) with stage.armed := some (.tick g (k + disp g)) }
  | some (.dts d) => if s.untilDts d ≤ 0 then s.stageApply else s
  | none => s

/-! ### Rows -/

/-- STAGED_CHANGE_APPLY_AT_DTS. -/
def execStagedChangeApplyAtDts (s : State) : Host.Outcome State Fault Refusal :=
  .next (if s.live then s.stageAtDts else s)

/-- STAGE_CHECK_END. -/
def execStageCheckEnd (s : State) : Host.Outcome State Fault Refusal := .next (if s.live then s.checkEnd else s)

/-- A register of the SYS stage block is reached by its writer: the physical function or the Lantern core (R33). -/
def State.stageReach (s : State) (m : Master) : Bool := masterDirect m && s.access m 0x1000

/-- SYS_STAGE_CLAIM: 1 claims the session through the register interface. -/
def State.sysClaim (s : State) (m : Master) (v : Word) : State :=
  if s.stageReach m && v.getLsbD 0 then (s.claim m .reg).2 else s

/-- SYS_STAGE_CHECK: ignored from a master or route that holds no session, in CHECKING and in ARMED (R490). -/
def State.sysCheck (s : State) (m : Master) (v : Word) : State :=
  if s.stageReach m && v.getLsbD 0 && s.holds m .reg then
    match s.stage.st with
    | .opened | .checked | .failed => s.checkBegin none
    | _ => s
  else s

/-- SYS_STAGE_APPLY: outside CHECKED it sets NOT_CHECKED, whoever writes it (R22). In CHECKED a write by another master than
the holder, or through another route, does nothing: DESIGN CHOICE, assumption 31. -/
def State.sysApply (s : State) (m : Master) (v : Word) : State :=
  if s.stageReach m && v.getLsbD 0 then
    if s.holds m .reg || s.stage.st != .checked then
      (s.applyOrder (v.getLsbD 1) (Fin.ofNat 4 (bits v.toNat 3 2))
        (BitVec.ofNat 64 (s.regOr 0 0x1010 + 2 ^ 32 * s.regOr 0 0x1014)) none).2
    else s
  else s

/-- SYS_STAGE_CANCEL: the holder cancels its own session (Table 01-10). A write by the owner's master through another route
than the session's is ignored: DESIGN CHOICE, assumption 31. -/
def State.sysCancel (s : State) (m : Master) (v : Word) : State :=
  if s.stageReach m && v.getLsbD 0 && s.holds m .reg then s.stageCancel else s

/-- A write to a staging view: the offset has bit 15 set (R18). -/
def State.stagingView (s : State) (m : Master) (off : Nat) (v : Word) : State :=
  if masterDirect m && s.access m off && off % 65536 / 32768 == 1 && decide (off < 0x800000) then
    s.stageReg m .reg (off - 32768) v.toNat
  else s

/-- SYS_STAGE_CLAIM. -/
def execSysStageClaim (m : Master) (v : Word) (s : State) : Host.Outcome State Fault Refusal := .next (s.sysClaim m v)
/-- SYS_STAGE_CHECK. -/
def execSysStageCheck (m : Master) (v : Word) (s : State) : Host.Outcome State Fault Refusal := .next (s.sysCheck m v)
/-- SYS_STAGE_APPLY. -/
def execSysStageApply (m : Master) (v : Word) (s : State) : Host.Outcome State Fault Refusal := .next (s.sysApply m v)
/-- SYS_STAGE_CANCEL. -/
def execSysStageCancel (m : Master) (v : Word) (s : State) : Host.Outcome State Fault Refusal := .next (s.sysCancel m v)
/-- STAGING_WRITE. -/
def execStagingWrite (m : Master) (off : Nat) (v : Word) (s : State) : Host.Outcome State Fault Refusal :=
  .next (s.stagingView m off v)

end Sys2Proof.Machine
end

