-- ==== Sys2Proof/Machine/Time.lean ====
section
/-!
DEFINITION. Machine/Time.lean: time references, holdover, the servo, steps of DTS, PTP ports and PPS_OUT (R39 to R43,
R50 to R54, R493).
-/
namespace Sys2Proof.Machine

/-! ### References (R42) -/

/-- A reference. -/
def State.ref (s : State) : TimeRef → RefState
  | .ptp => s.time.ptp
  | .pps => s.time.pps
  | .clk10m => s.time.clk10m

/-- Replace a reference. -/
def State.setRef (s : State) (r : TimeRef) (x : RefState) : State :=
  match r with
  | .ptp => { s with time.ptp := x }
  | .pps => { s with time.pps := x }
  | .clk10m => { s with time.clk10m := x }

/-- The bit of a reference in TIME_REF_CFG. -/
def refBit : TimeRef → Nat
  | .ptp => 0 | .pps => 1 | .clk10m => 2

/-- A reference is enabled in TIME_REF_CFG. -/
def State.refEn (s : State) (r : TimeRef) : Bool := bit (s.regOr 0 0x10020) (refBit r)

/-- A reference is followed: it is enabled, or PTP runs on after a warm reset has set its enable to 0 (R56). -/
def State.refOn (s : State) (r : TimeRef) : Bool := s.refEn r || (s.ref r).enabledAt.isSome

/-- The three references. -/
def allRefs : List TimeRef := [.ptp, .pps, .clk10m]

/-- TIME_PTP_CFG. -/
def State.ptpCfg (s : State) : Nat := s.regOr 0xD00004 0x10024
/-- An interval of 2^n s in units. -/
def log2Interval (n : Int) : Nat := if 0 ≤ n then second * 2 ^ n.toNat else second / 2 ^ (-n).toNat
/-- The announce interval (R43). -/
def State.announceInterval (s : State) : Nat := log2Interval (signed4 (bits s.ptpCfg 19 16))

/-- The loss time of a reference (Table 02-2). -/
def State.lossTime (s : State) : TimeRef → Nat
  | .ptp => 3 * s.announceInterval
  | .pps => 2 * second
  | .clk10m => 10 * microsecond

/-- The last valid event; a reference that has given none counts from its enabling (R42). -/
def RefState.lastValid (x : RefState) : Nat := x.lastEvent.getD (x.enabledAt.getD 0)

/-- TIME_STATUS.REF as the qualified references give it (R42). -/
def State.bestRef (s : State) : Nat :=
  if s.time.ptp.qualified then 1
  else if s.time.pps.qualified then if s.time.clk10m.qualified then 2 else 3
  else if s.time.clk10m.qualified then 4 else 0

/-- A reference that gives time, not only frequency, is in use. -/
def State.timeRefUsed (s : State) : Bool := s.time.ptp.qualified || s.time.pps.qualified
/-- Any reference is qualified. -/
def State.anyQualified (s : State) : Bool := s.timeRefUsed || s.time.clk10m.qualified

/-- The selected reference follows; ICU source 21 where it changes (Table 02-7). -/
def State.reselect (s : State) : State :=
  let n := s.bestRef
  if n = s.time.selected then s else { s with time.selected := n }.raise 21

/-- A slew ends with what is left of it left undone. -/
def State.stopSlew (s : State) : State := { s with time := { s.time with slewing := false, slewLeft := 0 } }

/-- A reference stops being qualified: the holdover time of R493 counts from the loss of the last PTP or PPS_IN
reference, and without a time reference the slew stops. -/
def State.unqualify (s : State) (r : TimeRef) (x : RefState) : State :=
  let was := (s.ref r).qualified
  let s1 := s.setRef r { x with qualified := false }
  let s2 := if was && r != .clk10m then { s1 with time.traceLostAt := s1.now } else s1
  let s3 := if s2.timeRefUsed then s2 else s2.stopSlew
  s3.reselect

/-- PTP ports that listened to a parent listen again, and its Syncs no longer count. -/
def State.leaveParent (s : State) : State :=
  { s with time := { s.time with ptpPorts := s.time.ptpPorts.filter (fun e => e.2 == .master), ptpSync := none } }

/-- A reference is lost (Table 02-2): ICU source 21. -/
def State.loseRef (s : State) (r : TimeRef) : State :=
  let s1 := s.unqualify r { s.ref r with lost := true, runStart := .none }
  (if r = .ptp then s1.leaveParent else s1).raise 21

/-- The loss time of a reference has passed although its loss has not been taken. -/
def State.overdue (s : State) (r : TimeRef) : Bool :=
  let x := s.ref r
  !x.lost && decide (x.lastValid + s.lossTime r < s.now)

/-- The time unit runs its references: DTS is kept, and in BOOT from time acquisition on (Table 02-6). -/
def State.refsRun (s : State) : Bool :=
  s.timeKept && !s.halted && (s.pwr.mode != .boot || decide (6 ≤ s.pwr.bootStep))

/-- A valid event of an enabled reference (R42): it opens a run, or carries on the one in progress. A run that has met
its loss condition is broken first. -/
def State.refEvent (s : State) (r : TimeRef) (fresh : Bool) : State :=
  let s1 := if s.overdue r then s.loseRef r else s
  let x := s1.ref r
  s1.setRef r { x with
    lastEvent := some s1.now, lost := false
    runStart := if fresh then some s1.now else some (x.runStart.getD s1.now) }

/-! ### Clock quality (Tables 02-3 and 02-9) -/

/-- The advertised clockClass, clockAccuracy (none where the table gives none) and timeSource. The 802.1AS columns of Tables
02-3 and 02-9 give no timeSource: an Announce then carries 0xA0, or 0x90 while PPS_IN is in use, as the other profiles do
(DESIGN CHOICE, assumption 33). -/
def State.clockQuality (s : State) : Nat × Option Nat × Nat :=
  let as := bits s.ptpCfg 1 0 == 1
  let spec := second * s.regOr 600 0x10030
  let free : Nat × Option Nat × Nat := (248, some 0xFE, 0xA0)
  let held := fun (within_ : Bool) => if as then free else if within_ then (7, none, 0xA0) else (52, some 0xFE, 0xA0)
  if !s.time.traceable then free
  else if s.time.holdover then held (!s.time.hoSpecPassed)
  else
    match s.time.selected with
    | 1 => (s.time.gmClass.toNat, some s.time.gmAccuracy.toNat, s.time.gmSource.toNat)
    | 2 | 3 => (6, some 0x21, 0x90)
    | 4 => held (decide (s.now ≤ s.time.traceLostAt + spec))
    | _ => free

/-! ### Holdover (R43) -/

/-- HOLDOVER clears. -/
def State.clearHoldover (s : State) : State := { s with time := { s.time with holdover := false, hoSpecPassed := false } }

/-- HOLDOVER is set now. -/
def State.enterHoldover (s : State) : State :=
  { s with time := { s.time with
    holdover := true, holdoverAt := s.now, hoSpecPassed := false, noRefSince := .none } }.raise 20

/-- When HOLDOVER is due, if it is. -/
def State.holdoverDue (s : State) : Option Nat :=
  let en := allRefs.filter s.refEn
  if s.time.holdover then none
  else if en.isEmpty then s.time.noRefSince.map (· + 3 * s.announceInterval)
  else if en.all (fun r => (s.ref r).lost) then
    some (en.foldl (fun n r => max n ((s.ref r).lastValid + 3 * s.announceInterval)) 0)
  else none

/-- HOLDOVER_SET. -/
def State.holdoverSet (s : State) : State :=
  match s.holdoverDue with
  | some t => if s.refsRun then (s.advanceTo t).enterHoldover else s
  | none => s

/-- HO_SPEC_EXPIRED: the holdover time passes TIME_HO_SPEC. -/
def State.hoSpecExpired (s : State) : State :=
  let spec := second * s.regOr 600 0x10030
  if s.time.holdover && !s.time.hoSpecPassed then
    let s1 := s.advanceTo (s.time.holdoverAt + spec + 1)
    { s1 with time.hoSpecPassed := true }
  else if !s.time.holdover && s.time.selected == 4 && s.time.traceable then s.advanceTo (s.time.traceLostAt + spec + 1)
  else s

/-! ### Steps (R51 to R53) -/

/-- The displacement of a group at a step of `delta` units taken now, and whether its interval is shortened: `whole`
says that the step follows a tick of the group (R52, Table 02-5). -/
def State.displacement (s : State) (delta : Int) (g : Fin 4) (whole : Bool) : Int × Bool :=
  let (n, d) := s.period g.val
  let q := delta * d / (n : Nat)
  let r := delta * d - q * n
  let a : Int := if whole then n else s.nextTick g * n - (s.fullTime - s.tickEpoch) * d
  let skip := bit (s.regOr 0x6405 0x10034) 16
  if r = 0 then (q, false)
  else if r < a then if skip then (q, true) else (q + 1, false)
  else (q + 1, false)

/-- A shortened interval: jobs that miss the group's next tick because of it are not counted (R52). -/
def State.uncount (s : State) (g : Fin 4) : State :=
  let k := s.nextTick g
  { s with
    codec.jobs := s.codec.jobs.map (fun j => if j.target.group = g ∧ j.target.tick = k then { j with uncounted := true } else j)
    cmp.outputs := s.cmp.outputs.map (fun e => (e.1, e.2.map (fun x : Output =>
      if x.group = g then { x with uncounted := true } else x)))
    swc.sendQueues := s.swc.sendQueues.map (fun e => (e.1, e.2.map (fun q : SendQueue =>
      { q with waiting := q.waiting.map (fun x : SendFrame =>
          match x.target with
          | some t => if t.group = g ∧ t.tick = k then { x with uncounted := true } else x
          | none => x) }))) }

/-- DTS is stepped now (R51 to R53). `after` is the group whose tick the step follows. -/
def State.doStep (s : State) (delta : Int) (cause : Nat) (after : Option (Fin 4)) : State :=
  let cfg := s.regOr 0x6405 0x10034
  let sg : Fin 4 := Fin.ofNat 4 (bits cfg 19 18)
  let disp := fun g : Fin 4 => s.displacement delta g (after == some g)
  let new := s.fullTime + delta
  let s1 := (s.setFullTime new)
  let s2 := forEach (List.finRange 4) s1 (fun g t =>
    let next := s.nextTick g
    let t1 := (t.moveTargets g (fun k => k + (disp g).1)).setNext g (next + (disp g).1)
    if (disp g).2 then t1.uncount g else t1)
  let d32 := BitVec.ofInt 32 (disp sg).1
  let s3 := { s2 with
    time := { s2.time with
      stepOld := s.time.dts, stepNew := s2.time.dts, stepDisp := d32, stepCnt := s2.time.stepCnt + 1, step := .none
      slewing := false, slewLeft := 0, ppsSecond := new / second }
    trf.histLast := new }
  let s4 := if s3.anyQualified && cause != 1 then s3.clearHoldover else s3
  let payload := leBytes 8 s.time.dts.toNat ++ leBytes 8 s4.time.dts.toNat ++ leBytes 4 d32.toNat
    ++ leBytes 1 sg.val ++ leBytes 1 (bits cfg 16 16) ++ leBytes 1 cause ++ leBytes 1 0
  ((((s4.raise 22).logRecord 5 0xFF payload).gatesStepped).stageStepped (fun g => (disp g).1))

/-- A step is due or waits (R50, R51): in BOOT and PROVISION it is applied at once. -/
def State.beginStep (s : State) (delta : Int) (cause : Nat) : State :=
  match s.pwr.mode with
  | .boot | .provision => s.doStep delta (if cause = 1 then 1 else 2) none
  | _ =>
    let defer := bit (s.regOr 0x6405 0x10034) 17
    let p : PendingStep := ⟨delta, if defer then s.fullTime - armGap else s.fullTime, defer && s.pwr.mode != .night, cause⟩
    { s.stopSlew with time.step := some p }.raise 23

/-- The step that waits is applied at a tick of a group, once the tick has run in full (R51). -/
def State.stepAtTick (s : State) (g : Fin 4) : State :=
  match s.time.step with
  | some p =>
    if !p.needsNight && bits (s.regOr 0x6405 0x10034) 19 18 == g.val && decide (p.measuredAt + armGap ≤ s.fullTime) then
      s.doStep p.delta p.cause (some g)
    else s
  | none => s

/-- The device enters NIGHT: a step that waits for it uses the first tick of STEP_GROUP after this instant (R51). -/
def State.stepNight (s : State) : State :=
  { s with time.step := s.time.step.map (fun p : PendingStep =>
      if p.needsNight then { p with needsNight := false, measuredAt := s.fullTime + 1 - armGap } else p) }

/-! ### The servo (R50) -/

/-- A slew is completed where one was in progress: ICU source 22 (Table 02-7). -/
def State.slewEnds (s : State) (was : Bool) : State := if was then s.raise 22 else s

/-- The servo measures an offset: it slews DTS, or steps it where the offset is above 1 ms (R50). While a step waits, the
phase is left alone, and neither the step nor HOLDOVER changes (R51); that the step which waits is kept as it was first
measured, and kept when its reference is lost, is a DESIGN CHOICE (assumption 33). -/
def State.measure (s : State) (delta : Int) : State :=
  let s1 := { s with time.offset := delta }
  if s.time.step.isSome then s1
  else if delta.natAbs ≤ millisecond then
    let s2 := { s1 with time := { s1.time with slewLeft := delta, slewing := decide (microsecond ≤ delta.natAbs) } }
    if delta.natAbs < microsecond then s2.clearHoldover.slewEnds s.time.slewing else s2
  else s1.beginStep delta 0

/-- SLEW_DONE: what is left of the offset falls below 1 µs (R50). The rest of it is slewed on. -/
def State.slewDone (s : State) : State :=
  if s.time.slewing && s.timeKept then
    let ppm := max 1 (bits (s.regOr 0x6405 0x10034) 15 8)
    let n := ceilDiv ((s.time.slewLeft.natAbs + 1 - microsecond) * 1000000) ppm
    let s1 := s.advance n
    let s2 := { s1 with time.slewing := false }
    (if s2.anyQualified then s2.clearHoldover else s2).raise 22
  else s

/-- An offset reduced to half a second about zero: PPS_IN gives the phase of the second only (Table 02-2). -/
def phaseOf (delta : Int) : Int :=
  let m := delta % second
  if 2 * m ≤ second then m else m - second

/-- A reference has qualified: the wait of boot step 6 ends at once (Table 15-3). -/
def State.endAcquisition (s : State) : State :=
  if s.pwr.mode == .boot && s.pwr.bootStep == 6 && s.pwr.timeWaitEnd.isSome then
    { s with pwr := { s.pwr with bootStep := 7, timeWaitEnd := none } }
  else s

/-- REFERENCE_QUALIFIED: the qualification time runs out at QUAL after the later of the enabling and the start of the
run (R42), unless the run has met its loss condition by then. PTP also needs a slave port with valid Sync (Table 02-2): one
heard in the run; that QUAL still counts from the run's start is DEDUCED from R42 (assumption 33). The offset is measured where the reference gives time and
is the best that is qualified; CLK10M_IN gives no phase, and ends HOLDOVER as an offset of 0 does. -/
def State.refQualified (s : State) (r : TimeRef) (delta : Int) (adj : Word) : State :=
  let x := s.ref r
  match x.runStart with
  | none => s
  | some start =>
    let t := max (x.enabledAt.getD 0) start + second * bits (s.regOr 0x6405 0x10034) 7 0
    let heard := match r with
      | .clk10m => true
      | _ => decide (t ≤ x.lastValid + s.lossTime r)
    let slave := r != .ptp || (s.time.ptpPorts.any (fun e => e.2 == .slave) && s.time.ptpSync.isSome)
    if s.refsRun && s.refEn r && !x.qualified && !x.lost && heard && slave then
      let s1 := s.advanceTo t
      let s2 := { s1.setRef r { s1.ref r with qualified := true } with
        time.traceable := s1.time.traceable || r != TimeRef.clk10m
        time.freqAdj := adj }
      let s3 := s2.reselect.endAcquisition
      match r, s3.time.selected with
      | .ptp, 1 => s3.measure delta
      | .pps, 2 => s3.measure (phaseOf delta)
      | .pps, 3 => s3.measure (phaseOf delta)
      | .clk10m, 4 => s3.clearHoldover
      | _, _ => s3
    else s

/-- REFERENCE_LOST: the loss time runs out; CLK10M_IN is lost at once where its frequency is off (Table 02-2). -/
def State.refLost (s : State) (r : TimeRef) : State :=
  if s.refsRun && s.refOn r && !(s.ref r).lost then
    match r with
    | .clk10m => s.loseRef r
    | _ => (s.advanceTo ((s.ref r).lastValid + s.lossTime r)).loseRef r
  else s

/-! ### Events of the references -/

/-- PTP is enabled on a port: TIME_PTP_PORTS. -/
def State.ptpPort (s : State) (p : Nat) : Bool := bit (s.regOr 0 0x1002C) p

/-- ANNOUNCE_RECEIVED: the port is the slave of the selected parent; the other ports of a boundary clock are masters, of
an ordinary clock passive (R39, R42). -/
def State.announce (s : State) (p : Nat) (a : Announce) : State :=
  if s.refsRun && s.refEn .ptp && s.ptpPort p && s.portUp p then
    let s1 := s.refEvent .ptp false
    let other : PtpPort := if bit s1.ptpCfg 3 then .master else .passive
    let roles := (List.range 17).filterMap (fun q =>
      if q = p then some (q, PtpPort.slave) else if s1.ptpPort q then some (q, other) else none)
    { s1 with time := { s1.time with
      ptpPorts := roles
      utc := BitVec.ofNat 19 (a.utcOffset.toNat + 2 ^ 16 * b2n a.utcValid + 2 ^ 17 * b2n a.leap61 + 2 ^ 18 * b2n a.leap59)
      gmClass := a.clockClass, gmAccuracy := a.clockAccuracy, gmSource := a.timeSource } }
  else s

/-- The offset of PPS_IN at an edge now: from DTS to the nearest second. -/
def State.ppsOffset (s : State) : Int := phaseOf (-s.fullTime)

/-- PPS_IN_EDGE: an edge of the polarity that marks the second (R42). An edge that is not 1 s ± 10 µs
after the last begins the run anew; once PPS_IN is qualified it is no valid event. -/
def State.ppsEdge (s : State) (rising : Bool) : State :=
  let pol := bit (s.regOr 0 0x10020) 3
  if s.refsRun && s.refEn .pps && rising != pol then
    let apart := match s.time.pps.lastEvent with
      | some t => decide (second ≤ 10 * microsecond + (s.now - t)) && decide (s.now - t ≤ second + 10 * microsecond)
      | none => true
    let s2 := if apart || !s.time.pps.qualified then s.refEvent .pps (!apart) else s
    if apart && s2.time.pps.qualified && (s2.time.selected == 2 || s2.time.selected == 3) then s2.measure s2.ppsOffset else s2
  else s

/-- CLK10M_IN_EDGE. -/
def State.clkEdge (s : State) : State :=
  if s.refsRun && s.refEn .clk10m then s.refEvent .clk10m false else s

/-- TIME_REF_CFG has another value than `old`, which acts on a list of references (R42, R43). PTP that runs on from before a
warm reset (R56) is not begun anew as it is enabled. -/
def State.refsChanged (s : State) (l : List TimeRef) (old : Nat) : State :=
  let new := s.regOr 0 0x10020
  let s1 := forEach l s (fun r s =>
    let was := bit old (refBit r)
    let on := bit new (refBit r)
    if was && !on then
      let s1 := s.unqualify r ⟨.none, .none, .none, false, false⟩
      if r = .ptp then s1.leaveParent else s1
    else if !was && on && (s.ref r).enabledAt.isNone then s.setRef r ⟨some s.now, .none, .none, false, false⟩
    else s)
  let none_ := new % 8 == 0
  { s1 with time.noRefSince :=
      if none_ then (if old % 8 != 0 then some s1.now else s1.time.noRefSince) else .none }

/-- A write of TIME_REF_CFG took effect: `old` and the word now in force. -/
def State.refsReconfigured (s : State) (old : Nat) : State := s.refsChanged allRefs old

/-! ### Messages of the PTP ports (R39 to R41) -/

/-- TWO_STEP. 802.1AS and IEEE 1588 use the same bit. -/
def State.twoStep (s : State) : Bool := bit s.ptpCfg 2

/-- A message leaves a port now: as a frame with its check sequence, and with its egress stamp, DTS with TX_LAT added (R40). -/
def State.ptpSend (s : State) (p : Nat) (m : PtpMsg) : State :=
  let bs := ptpFrame s.ptpCfg p m
  s.emit (.frame p (bs ++ fcsOf bs) (s.time.dts + BitVec.ofNat 64 (s.portLat p).1))

/-- The egress time of a message that leaves a port now, in full. -/
def State.egressTime (s : State) (p : Nat) : Int := s.fullTime + ((s.portLat p).1 : Nat)

/-- The sequence number of the next message of a type on a port. -/
def State.ptpSeqOf (s : State) (p type : Nat) : Nat := Table.get 0 s.time.ptpSeq (16 * p + type)
/-- A message of a type has taken its sequence number. -/
def State.ptpSeqNext (s : State) (p type : Nat) : State :=
  { s with time.ptpSeq := Table.upd 0 s.time.ptpSeq (16 * p + type) (fun n => (n + 1) % 65536) }

/-- Eight bits of a signed number of seconds, as log2. -/
def logByte (n : Int) : Nat := (n % 256).toNat

/-- A Sync of a port. One-step: the port writes originTimestamp and correctionField at transmission (R41). Two-step: the
Follow_Up carries the time at which the Sync left. -/
def State.sendSync (s : State) (p : Nat) : State :=
  let n := s.ptpSeqOf p ptpSync
  let log := logByte (signed4 (bits s.ptpCfg 23 20))
  let t := s.egressTime p
  let s1 := s.ptpSeqNext p ptpSync
  if s.twoStep then
    (s1.ptpSend p ⟨ptpSync, n, 0x0200, 0, log, List.replicate 10 0⟩).ptpSend p
      ⟨ptpFollowUp, n, 0, ptpFraction t, log, ptpTimestamp t⟩
  else s1.ptpSend p ⟨ptpSync, n, 0, ptpFraction t, log, ptpTimestamp t⟩

/-- The request of a port: Delay_Req, or Pdelay_Req where the mechanism is peer-to-peer. -/
def State.sendRequest (s : State) (p : Nat) : State :=
  let type := if bit s.ptpCfg 4 then ptpPdelayReq else ptpDelayReq
  let body := List.replicate (if bit s.ptpCfg 4 then 20 else 10) (0 : Byte)
  (s.ptpSeqNext p type).ptpSend p ⟨type, s.ptpSeqOf p type, 0, 0, 0x7F, body⟩

/-- An Announce of a port with a clock quality: TIME_UTC, the priorities of TIME_PTP_PRIO and the clock's own identity while
no PTP parent is followed. What a parent's Announce gave and the row does not carry, and the variance, are free (`open_`). -/
def State.sendAnnounce (s : State) (p cls acc src open_ : Nat) : State :=
  let own := s.time.selected != 1
  let prio := s.regOr 0x8080 0x10028
  let utc := s.time.utc.toNat
  let flags := bits utc 17 17 + 2 * bits utc 18 18 + 4 * bits utc 16 16 + 8 + 16 * b2n s.time.traceable
  let gm := if own then beBytes 8 Config.ptpIdentity.toNat else beBytes 8 (open_ / 2 ^ 32)
  let body := List.replicate 10 (0 : Byte) ++ beBytes 2 (bits utc 15 0) ++ [0]
    ++ leBytes 1 (if own then bits prio 7 0 else open_ / 2 ^ 96) ++ leBytes 1 cls ++ leBytes 1 acc
    ++ beBytes 2 open_ ++ leBytes 1 (if own then bits prio 15 8 else open_ / 2 ^ 104) ++ gm
    ++ beBytes 2 (if own then 0 else open_ / 2 ^ 112) ++ leBytes 1 src
  (s.ptpSeqNext p ptpAnnounce).ptpSend p
    ⟨ptpAnnounce, s.ptpSeqOf p ptpAnnounce, flags, 0, logByte (signed4 (bits s.ptpCfg 19 16)), body⟩

/-- A PTP message that reached firmware is answered: a Delay_Req on a MASTER port, by its time of arrival; a Pdelay_Req
where the mechanism is peer-to-peer, in two steps or with the time between in the correctionField (R39). -/
def State.ptpAnswer (s : State) (p : Nat) (body : List Byte) (arrival : DWord) : State :=
  let o := ptpAt body
  let type := fieldBe body o 1 % 16
  let seq := fieldBe body (o + 30) 2
  let corr := fieldBe body (o + 8) 8
  let asker := (body.drop (o + 20)).take 10
  let at_ := s.fullTime - (s.time.dts - arrival).toInt
  let out := s.egressTime p
  if !(s.refsRun && s.ptpPort p && s.portUp p && isPtp (bits s.ptpCfg 1 0) body
      && fieldBe body (o + 4) 1 == bits s.ptpCfg 15 8) then s
  else if type = ptpDelayReq ∧ !bit s.ptpCfg 4 ∧ Table.get PtpPort.listening s.time.ptpPorts p = .master then
    s.ptpSend p ⟨ptpDelayResp, seq, 0, corr + 2 ^ 64 - ptpFraction at_, logByte (signed4 (bits s.ptpCfg 27 24)),
      ptpTimestamp at_ ++ asker⟩
  else if type = ptpPdelayReq ∧ bit s.ptpCfg 4 then
    if s.twoStep then
      (s.ptpSend p ⟨ptpPdelayResp, seq, 0x0200, 2 ^ 64 - ptpFraction at_, 0x7F, ptpTimestamp at_ ++ asker⟩).ptpSend p
        ⟨ptpPdelayFollowUp, seq, 0, corr + ptpFraction out, 0x7F, ptpTimestamp out ++ asker⟩
    else
      s.ptpSend p ⟨ptpPdelayResp, seq, 0, corr + (4096 * (out - at_)).toNat, 0x7F, List.replicate 10 (0 : Byte) ++ asker⟩
  else s

/-- PTP_INTERVAL_EXPIRY: the Announce and Sync of a MASTER port with its clock quality, the delay request of a SLAVE
port, or of any enabled port where the mechanism is peer-to-peer (R39). A port that hears no parent becomes MASTER when
its announce interval runs out. -/
def State.ptpInterval (s : State) (p : Nat) (kind : Nat) : State :=
  if s.refsRun && s.ptpPort p && s.portUp p then
    let role := Table.get PtpPort.listening s.time.ptpPorts p
    let s1 := if role == .listening && kind == 0 then
      { s with time.ptpPorts := Table.set .listening s.time.ptpPorts p .master } else s
    let role1 := Table.get PtpPort.listening s1.time.ptpPorts p
    let sends := if kind = 2 then role1 == .slave || bit s1.ptpCfg 4 else role1 == .master
    if sends then
      let (cls, acc, src) := s1.clockQuality
      let (v, s2) := s1.drawFree
      let a := acc.getD (v % 256)
      let s3 := if kind = 0 then s2.sendAnnounce p cls a src (v / 256) else if kind = 1 then s2.sendSync p else s2.sendRequest p
      s3.emit (.ptp p kind cls a src)
    else s1
  else s

/-- The tail of a valid Sync measured an offset on a slave port: a run of PTP has its Sync (Table 02-2), and a reference in use
is followed (R50). -/
def State.slaveOffset (s : State) (p : Nat) (offset : Option Int) : State :=
  match offset with
  | some d =>
    if s.refsRun && Table.get PtpPort.listening s.time.ptpPorts p == .slave then
      let s1 := { s with time.ptpSync := some (s.time.ptpSync.getD s.now) }
      if s.time.selected == 1 then s1.measure d else s1
    else s
  | none => s

/-! ### A reset of the time unit (Table 02-6) -/

/-- RECOVERY resets the time unit: DTS starts at 0 and ERA at 0, every reference begins anew, and the groups take up their
ticks. The overrun counts and the count of elapsed time stay. What the reset does to the unit's registers is not stated, and
they keep their values: DESIGN CHOICE, assumption 33. -/
def State.timeUnitReset (s : State) : State :=
  let fresh := fun (r : TimeRef) (x : RefState) => if s.refEn r then { x with enabledAt := some s.now } else x
  let z := TimeState.reset
  let s1 := { s with time := { z with
    osc := s.time.osc, run := s.time.run, overruns := s.time.overruns, stepCnt := s.time.stepCnt
    ptp := fresh .ptp z.ptp, pps := fresh .pps z.pps, clk10m := fresh .clk10m z.clk10m } }
  forEach (List.finRange 4) s1 (fun g s => s.startGroup g)

/-! ### PPS_OUT and TIME_SET -/

/-- PPS_OUT runs (Table 02-6). -/
def State.ppsRuns (s : State) : Bool :=
  s.timeKept && !s.halted && (s.pwr.mode != .boot || decide (7 ≤ s.pwr.bootStep))

/-- PPS_OUT_PULSE: at the next second boundary after the last pulse, or after the pulse in progress ends (R43, R53). -/
def State.ppsOut (s : State) : State :=
  if s.ppsRuns then
    let held : Nat := match s.time.ppsHigh with
      | some e => e - s.now
      | none => 0
    let n := max (s.time.ppsSecond + 1) (((second : Nat) + (s.fullTime + held) - 1) / second)
    let s1 := s.advanceToDts (second * n)
    { s1 with time := { s1.time with
      ppsSecond := n, ppsHigh := some (s1.now + microsecond * s1.regOr 100000 0x10038) } }.emit (.ppsOut s1.time.dts)
  else s

/-- TIME_SET_GO: DTS is stepped to TIME_SET, or the write is ignored while a reference is qualified (R54). -/
def State.timeSet (s : State) (m : Master) (v : Word) : State :=
  if s.access m 0x100A8 && v.getLsbD 0 then
    if s.anyQualified then { s with time.setRej := true }
    else s.beginStep (s.untilDts (BitVec.ofNat 64 (s.regOr 0 0x100A0 + 2 ^ 32 * s.regOr 0 0x100A4))) 1
  else s

/-! ### Rows -/

/-- TIME_DTS_LO_READ: the low word is returned and the high word latched (R37). -/
def execTimeDtsLoRead (s : State) : Host.Outcome State Fault Refusal :=
  .next <|
    if s.bar0 0x10000 then
      { s.setRd (bits s.time.dts.toNat 31 0) with time.hiShadow := BitVec.ofNat 32 (bits s.time.dts.toNat 63 32) }
    else s.setRd 0
/-- TIME_SET_GO. -/
def execTimeSetGo (m : Master) (v : Word) (s : State) : Host.Outcome State Fault Refusal := .next (s.timeSet m v)
/-- ANNOUNCE_RECEIVED. -/
def execAnnounceReceived (p : Fin 17) (a : Announce) (s : State) : Host.Outcome State Fault Refusal :=
  .next (s.announce p.val a)
/-- PPS_IN_EDGE. -/
def execPpsInEdge (rising : Bool) (s : State) : Host.Outcome State Fault Refusal := .next (s.ppsEdge rising)
/-- CLK10M_IN_EDGE. -/
def execClk10mInEdge (s : State) : Host.Outcome State Fault Refusal := .next s.clkEdge
/-- REFERENCE_LOST. -/
def execReferenceLost (r : TimeRef) (s : State) : Host.Outcome State Fault Refusal := .next (s.refLost r)
/-- REFERENCE_QUALIFIED. -/
def execReferenceQualified (r : TimeRef) (delta : Int) (adj : Word) (s : State) : Host.Outcome State Fault Refusal :=
  .next (s.refQualified r delta adj)
/-- HOLDOVER_SET. -/
def execHoldoverSet (s : State) : Host.Outcome State Fault Refusal := .next s.holdoverSet
/-- HO_SPEC_EXPIRED. -/
def execHoSpecExpired (s : State) : Host.Outcome State Fault Refusal := .next (if s.refsRun then s.hoSpecExpired else s)
/-- SLEW_DONE. -/
def execSlewDone (s : State) : Host.Outcome State Fault Refusal := .next s.slewDone
/-- PPS_OUT_PULSE. -/
def execPpsOutPulse (s : State) : Host.Outcome State Fault Refusal := .next s.ppsOut
/-- PTP_INTERVAL_EXPIRY. -/
def execPtpIntervalExpiry (p : Fin 17) (kind : Fin 3) (s : State) : Host.Outcome State Fault Refusal :=
  .next (s.ptpInterval p.val kind.val)
/-- COPY_TRANSMIT_END: a PTP message whose copy to firmware ends is answered. -/
def execCopyTransmitEnd (p : Fin 28) (media : Bool) (s : State) : Host.Outcome State Fault Refusal :=
  .next (
    let t := s.copyEnd p.val media
    match s.sendingOn p.val with
    | some (f, k) =>
      if p = 27 && f.ingress < 17 && s.switches && f.whole && !f.bad && !k.failed && !media then
        t.ptpAnswer f.ingress (frameBody f.bytes) f.arrival
      else t
    | none => t)
/-- FRAME_TAIL. -/
def execFrameTail (p : Fin 17) (t : TailFacts) (s : State) : Host.Outcome State Fault Refusal :=
  .next ((s.frameTail p.val t).slaveOffset p.val t.offset)

end Sys2Proof.Machine
end

