-- ==== Sys2Proof/Machine/Resources.lean ====
section
/-!
DEFINITION. Machine/Resources.lean: fault records, NVS records, targeted self-tests, retirements, fences, spares,
retests and unit resets (R413, R416, R419 to R424).
-/
namespace Sys2Proof.Machine

/-! ### Records -/

/-- A source without a window. -/
def SrcWin.none : SrcWin := ⟨.none, 0, false, 0⟩
/-- The window of a fault source. -/
def State.win (s : State) (src : Nat) : SrcWin := Table.get SrcWin.none s.snuf.wins src
/-- Replace the window of a fault source. -/
def State.setWin (s : State) (src : Nat) (w : SrcWin) : State :=
  { s with snuf.wins := Table.set SrcWin.none s.snuf.wins src w }

/-- The 32 bytes of a fault record (Table 14-3). -/
def FaultRec.bytes (r : FaultRec) : List Byte :=
  leBytes 8 r.dts.toNat ++ leBytes 6 r.address.toNat ++ leBytes 2 r.source.toNat ++ leBytes 1 r.kind.toNat
    ++ leBytes 1 r.flags.toNat ++ leBytes 1 r.reaction.toNat ++ leBytes 1 r.count.toNat ++ leBytes 2 r.seq.toNat
    ++ List.replicate 10 0

/-- A record takes the next sequence number and goes to the history queue, the event log and, where it is the first with
NOTIFY or stronger, to the first-error record (R411, R419, R420). -/
def State.keepRecord (s : State) (r0 : FaultRec) : State :=
  let r := { r0 with seq := s.snuf.seq }
  let s1 := { s with snuf := { s.snuf with seq := s.snuf.seq + 1, hist := (r :: s.snuf.hist).take 64 } }
  let s2 := s1.logRecord 1 0xFF r.bytes
  if 1 ≤ r.reaction.toNat ∧ s2.snuf.first.isNone then
    { s2 with snuf.first := some { r with flags := r.flags ||| 0x80 } }.raise 2
  else s2

/-- Append a record to an area of the NVS: 0 boot control, 1 retirement, 2 settings (R451, R494). In a brown-out no new
record is started (R457). -/
def State.nvsRecord (s : State) (area : Fin 3) (type : Nat) (payload : List Byte) : State :=
  if s.pwr.brownOut then s
  else
    let i : Fin 4 := area.castSucc
    let q := s.nvs.seqs[i] + 1
    let r : LogRec := ⟨type, 0xFF, q, s.time.dts, payload, 0⟩
    let n := ({ s.nvs with seqs := s.nvs.seqs.set i q } : NvsState).startWrite i.val q payload.length s.now
    match area with
    | 0 => { s with nvs := { n with bootCtl := placeRecord n.bootCtl 0x1000 r } }
    | 1 => { s with nvs := { n with retirement := placeRecord n.retirement 0x10000 r } }
    | 2 => { s with nvs := { n with settings := placeRecord n.settings 0x10000 r } }

/-! ### Resources -/

/-- The external port whose lanes hold a lane. -/
def State.lanePort (s : State) (n : Nat) : Option Nat :=
  firstBelow 16 (fun p => bit (s.portCfg p) 0 && decide (p ≤ n) && decide (n < p + cfgLanes (s.portCfg p)))

/-- The fault source ID of a resource. -/
def State.resSource (s : State) : Resource → Nat
  | .core c => 0x010 + c.val
  | .lane n => 0x020 + (s.lanePort n.val).getD n.val
  | .sramRow b _ => 0x070 + b.val
  | .dramRow a => 0x080 + bits a 8 8
  | .pseudoChannel st _ => 0x080 + st.val
  | .isolated src _ => src

/-- The address that a record of a resource carries. -/
def resAddress : Resource → Nat
  | .core _ => 0
  | .lane n => n.val
  | .sramRow _ row => row * 1024
  | .dramRow a => a
  | .pseudoChannel _ pc => pc.val
  | .isolated _ i => i

/-- A DRAM row is known by bits [34:16] and [13:8] of a device address (R492). -/
def dramRowOf (a : Nat) : Nat := bits a 34 16 * 65536 + bits a 13 8 * 256

/-- The resource that a message's kind implicates (Table 14-8). The address of a LANE_FAULT names the lane; an
uncorrectable FEC codeword implicates its port's first lane. -/
def State.implicated (s : State) (src kind addr : Nat) : Option Resource :=
  if 0x070 ≤ src ∧ src ≤ 0x07F ∧ (kind = 1 ∨ kind = 2) then some (.sramRow (Fin.ofNat 16 (src - 0x070)) (addr / 1024))
  else if 0x010 ≤ src ∧ src ≤ 0x017 ∧ kind ≠ 1 then some (.core (Fin.ofNat 8 (src - 0x010)))
  else if 0x020 ≤ src ∧ src ≤ 0x02F ∧ (kind = 2 ∨ kind = 3) then
    let p := src - 0x020
    let lanes := cfgLanes (s.portCfg p)
    some (.lane (Fin.ofNat 16 (if kind = 2 ∧ p ≤ addr ∧ addr < p + lanes then addr else p)))
  else if (src = 0x080 ∨ src = 0x081) ∧ (kind = 1 ∨ kind = 2) then some (.dramRow (dramRowOf addr))
  else none

/-- How long a resource's test takes (Table 14-8). -/
def testTime : Resource → Nat
  | .core _ => 3 * millisecond
  | .lane _ => 10 * millisecond
  | .sramRow _ _ => 20 * microsecond
  | .dramRow _ => 200 * microsecond
  | _ => 0

/-- A resource is out of service: retired, fenced or isolated (R424). -/
def State.outOfService (s : State) : Resource → Bool
  | .core c => s.snuf.retiredCores.getLsbD c.val
  | .lane n => s.snuf.retiredLanes.getLsbD n.val
  | .sramRow b row => s.snuf.fences.contains (b.val, row)
  | .isolated src i => s.snuf.isolated.contains (src, i)
  | _ => false

/-- The Snuffer's own outcome record (R413): it is not counted and its reaction is LOG. -/
def State.outcome (s : State) (r : Resource) (kind flags : Nat) : State :=
  let src := s.resSource r
  s.keepRecord ⟨s.time.dts, BitVec.ofNat 48 (resAddress r), BitVec.ofNat 10 src, BitVec.ofNat 8 kind,
    BitVec.ofNat 8 (0x40 + flags), 0, BitVec.ofNat 8 (min 255 (s.win src).count), 0⟩

/-- The retirement record of a resource (Table 15-13): action 0 retired, 1 fenced, 2 spared, 3 reinstated. -/
def State.retirementRecord (s : State) (action : Nat) (r : Resource) : State :=
  let code := match r with
    | .core _ => some 0 | .lane _ => some 1 | .sramRow _ _ => some 2 | .dramRow _ => some 3
    | .pseudoChannel _ _ => some 4 | .isolated _ _ => none
  match code with
  | none => s
  | some n => s.nvsRecord 1 0x11 (leBytes 1 action ++ leBytes 1 n ++ leBytes 2 (s.resSource r) ++ leBytes 4 0
      ++ leBytes 6 (resAddress r) ++ leBytes 2 0)

/-- DEGRADED (R424). -/
def State.degraded (s : State) : Bool := !s.snuf.degrading.isEmpty

/-- The list of the resources that set DEGRADED becomes `l`: ICU source 5 where DEGRADED changes. -/
def State.setDegrading (s : State) (l : List Resource) : State :=
  let t := { s with snuf.degrading := l }
  if l.isEmpty == s.snuf.degrading.isEmpty then t else t.raise 5

/-- A resource out of service sets DEGRADED. -/
def State.addDegrading (s : State) (r : Resource) : State :=
  if s.snuf.degrading.contains r then s else s.setDegrading (r :: s.snuf.degrading)

/-! ### Lasting faults (Table 14-9) -/

/-- A codec core is RETIRED (R205, R208): its record, its NVS entry and DEGRADED. -/
def State.retireCore (s : State) (c : Fin 8) : State :=
  let r := Resource.core c
  let s1 := { s with snuf.retiredCores := s.snuf.retiredCores ||| (1 <<< c.val) }
  let s2 := ((s1.coreLeaves c.val .retired).outcome r 0xF2 0).retirementRecord 0 r
  (s2.addDegrading r).raise 4

/-- A SerDes lane is retired (R351). -/
def State.retireLane (s : State) (n : Fin 16) : State :=
  let r := Resource.lane n
  let s1 := { s with snuf.retiredLanes := s.snuf.retiredLanes ||| (1 <<< n.val) }
  let s2 := ((s1.laneRetired n.val).outcome r 0xF2 0).retirementRecord 0 r
  (s2.addDegrading r).raise 4

/-- The free buffers of the general on-die pools that lie in a row pass to the Snuffer's holder ledger (Table 14-9). -/
def State.holdRow (s : State) (row : Nat) : State :=
  forEach (List.range' 1 15) s (fun p s =>
    let size := 2 ^ s.poolClass p
    let base := s.poolBase p
    let lo := 0x1000000000 + row * 1024
    if s.poolEn p && inOnDie base && decide (base < lo + 1024) then
      let first := (lo - base) / size
      forEach (List.range' first (1024 / size + 2)) s (fun i s =>
        let b := bufKey p i
        if decide (i < s.poolCount p) && s.fencedBuf b && (Table.get .none s.pool.bufs b).isNone then
          { s with pool := { s.pool with
            bufs := Table.set .none s.pool.bufs b (some ⟨1, 16⟩)
            use := Table.upd 0 s.pool.use (32 * p + 16) (· + 1)
            refs := Table.upd 0 s.pool.refs p (· + 1) } }
        else s)
    else s)

/-- The buffers that the Snuffer holds in rows no longer fenced return to their pool (R424): `was` is the row. -/
def State.freeRow (s : State) (row : Nat) : State :=
  let lo := 0x1000000000 + row * 1024
  let held := s.pool.bufs.filter (fun e =>
    (match e.2 with | some u => u.tag == 16 && u.count == 1 | none => false) && decide (s.bufAddr e.1 < lo + 1024)
      && decide (lo < s.bufAddr e.1 + 2 ^ s.poolClass (bufPool e.1)) && !s.fencedBuf e.1)
  forEach (held.map Prod.fst) s (fun b s => s.dropBuf b)

/-- An SRAM row is fenced; under ISOLATE without setting DEGRADED (R416, R423). -/
def State.fenceRow (s : State) (b : Fin 16) (row : Nat) (isolate : Bool) : State :=
  if s.snuf.fences.contains (b.val, row) then s
  else
    let r := Resource.sramRow b row
    let s1 := { s with snuf.fences := s.snuf.fences ++ [(b.val, row)] }
    let s2 := if b = 14 then s1.holdRow row else s1
    let s3 := s2.cellsCheck.retirementRecord 1 r
    if isolate then { s3 with snuf.isolated := (0x070 + b.val, row) :: s3.snuf.isolated }
    else ((s3.outcome r 0xF2 0).addDegrading r).raise 4

/-- The physical pseudo-channel that serves a pseudo-channel of a stack: 32 and 33 are the stack's spares (R422). -/
def State.physChannel (s : State) (st pc : Nat) : Nat :=
  let l := (s.snuf.sparedPcs.filter (fun e => e.1 == st)).map Prod.snd
  match (List.range l.length).reverse.find? (fun i => l[i]? == some pc) with
  | some i => 32 + i
  | none => pc

/-- The key of the repairs of a bank of the physical pseudo-channel in use. -/
def State.repairKey (s : State) (st pc bank : Nat) : Nat := st * 1024 + s.physChannel st pc * 16 + bank

/-- SNUF_PPR.LEFT: each bank has two repairs. -/
def State.repairsLeft (s : State) (st pc bank : Nat) : Nat := 2 - Table.get 0 s.snuf.repairs (s.repairKey st pc bank)

/-- The spare pseudo-channels used, or being copied to, in a stack. -/
def State.channelSpares (s : State) (st : Nat) : Nat :=
  ((s.snuf.sparedPcs ++ s.snuf.copyingPcs).filter (fun e => e.1 == st)).length

/-- A pseudo-channel is to be spared: it is copied to a spare while service continues, or no spare is left. -/
def State.spareChannel (s : State) (st : Fin 2) (pc : Fin 32) : State :=
  if s.snuf.copyingPcs.contains (st.val, pc.val) then s
  else if s.channelSpares st.val < 2 then { s with snuf.copyingPcs := s.snuf.copyingPcs ++ [(st.val, pc.val)] }
  else
    let r := Resource.pseudoChannel st pc
    let s1 := s.fault (0x080 + st.val) 5 pc.val
    if s1.snuf.degrading.contains r then s1
    else (((s1.outcome r 0xF2 0).retirementRecord 0 r).addDegrading r).raise 4

/-- A DRAM row is repaired, or its pseudo-channel is spared. -/
def State.repairRow (s : State) (a : Nat) : State :=
  let st := bits a 8 8
  let pc := bits a 13 9
  let bank := bits a 19 16
  if 0 < s.repairsLeft st pc bank then
    let r := Resource.dramRow a
    let s1 := { s with snuf.repairs := Table.upd 0 s.snuf.repairs (s.repairKey st pc bank) (· + 1) }
    (((s1.fault (0x080 + st) 3 a).outcome r 0xF4 0).retirementRecord 2 r).raise 4
  else s.spareChannel (Fin.ofNat 2 st) (Fin.ofNat 32 pc)

/-- The contents of an SRAM row are copied to a spare: correctable words are written corrected, poisoned words stay poisoned
(Table 14-9). -/
def State.copyRow (s : State) (b row : Nat) : State :=
  { s with
    snuf.sramCorrectable := s.snuf.sramCorrectable.filter (fun e => !(e.1 == b && e.2 / 128 == row))
    correctable := if b = 14 then s.correctable.filter (fun w => !(inOnDie (8 * w) && (8 * w - 0x1000000000) / 1024 == row))
      else s.correctable }

/-- An SRAM row takes a spare of its bank; with none free it is handled by the bank's use. -/
def State.spareRow (s : State) (b : Fin 16) (row : Nat) : State :=
  let r := Resource.sramRow b row
  if Table.get 0 s.snuf.spareRows b.val < 32 then
    let s0 := s.copyRow b.val row
    let s1 := { s0 with snuf := { s0.snuf with
      spareRows := Table.upd 0 s.snuf.spareRows b.val (· + 1), sparedRows := (b.val, row) :: s.snuf.sparedRows } }
    ((s1.outcome r 0xF4 0).retirementRecord 2 r).raise 4
  else
    let s1 := s.fault (0x070 + b.val) 5 (row * 1024)
    if 4 ≤ b.val ∧ b.val < 12 then s1.retireCore (Fin.ofNat 8 (b.val - 4)) else s1.fenceRow b row false

/-- A lasting fault of a resource (R422). -/
def State.lasting (s : State) : Resource → State
  | .core c => if s.snuf.retiredCores.getLsbD c.val then s else s.retireCore c
  | .lane n => if s.snuf.retiredLanes.getLsbD n.val then s else s.retireLane n
  | .sramRow b row => s.spareRow b row
  | .dramRow a => s.repairRow a
  | .pseudoChannel st pc => s.spareChannel st pc
  | .isolated _ _ => s

/-! ### Tests (R421 to R424) -/

/-- Tests run in this mode (R423). -/
def State.testsRun (s : State) : Bool := s.pwr.mode != .recovery && s.pwr.mode != .standby

/-- A resource is under test, or ended a test less than 1 ms ago. -/
def State.tested (s : State) (r : Resource) : Bool :=
  s.snuf.tests.any (fun t => t.resource == r) || s.snuf.ended.any (fun e => e.1 == r && decide (s.now < millisecond + e.2))

/-- What a test takes out of service while it runs (Table 14-8). -/
def State.testTakes (s : State) : Resource → State
  | .core c =>
    match (s.core c.val).st with
    | .inService | .gated => s.coreLeaves c.val .resetting
    | _ => s
  | .lane n =>
    match s.lanePort n.val with
    | some p => if s.portUp p then s.leaveUp p .down else s
    | none => s
  | _ => s

/-- A test of a resource starts; where tests do not run it waits for the mode's end (R423). -/
def State.startTest (s : State) (r : Resource) (msg : Option FaultMsg) : State :=
  let s1 := { s with snuf.tests := s.snuf.tests ++ [⟨r, msg, s.now, !s.testsRun⟩] }
  if msg.isSome then s1.testTakes r else s1

/-- RECOVERY or STANDBY begins: the tests that run are abandoned, and run again when the mode ends (R423). -/
def State.abandonTests (s : State) : State :=
  { s with snuf.tests := s.snuf.tests.map (fun t : SelfTest => { t with abandoned := true }) }
/-- RECOVERY or STANDBY has ended. -/
def State.resumeTests (s : State) : State :=
  { s with snuf.tests := s.snuf.tests.map (fun t : SelfTest =>
      if t.abandoned then { t with abandoned := false, startedAt := s.now } else t) }

/-- A retest of a resource that is out of service starts, unless it is under test. -/
def State.startRetest (s : State) (r : Resource) : State :=
  if s.snuf.tests.any (fun t => t.resource == r) then s else s.startTest r none

/-- The isolated SRAM rows are fences; the other isolated resources. -/
def State.isolatedUnits (s : State) : List Resource :=
  (s.snuf.isolated.filter (fun e => decide (e.1 < 0x070))).map (fun e => .isolated e.1 e.2)

/-- Every resource that a retest may return to service (R424). -/
def State.retestable (s : State) : List Resource :=
  ((List.finRange 8).filter (fun c => s.snuf.retiredCores.getLsbD c.val)).map Resource.core
    ++ ((List.finRange 16).filter (fun n => s.snuf.retiredLanes.getLsbD n.val)).map Resource.lane
    ++ s.snuf.fences.map (fun e => .sramRow (Fin.ofNat 16 e.1) e.2) ++ s.isolatedUnits

/-- Entry to NIGHT: every such resource is retested. -/
def State.retestAll (s : State) : State := forEach s.retestable s (fun r s => s.startRetest r)

/-- Number of consecutive retests passed. -/
def State.passesOf (s : State) (r : Resource) : Nat :=
  match s.snuf.passes.find? (fun e => e.1 == r) with
  | some e => e.2
  | none => 0
/-- Set that number. -/
def State.setPasses (s : State) (r : Resource) (n : Nat) : State :=
  let l := s.snuf.passes.filter (fun e => e.1 != r)
  { s with snuf.passes := if n = 0 then l else (r, n) :: l }

/-- A Lamplighter core is in service. -/
def State.setLamp (s : State) (k : Nat) (on : Bool) : State :=
  { s with lmp.cores := if on then s.lmp.cores ||| ((1 : BitVec 4) <<< k) else s.lmp.cores &&& ~~~((1 : BitVec 4) <<< k) }

/-- A resource returns to service (R424). -/
def State.reinstate (s : State) (r : Resource) : State :=
  let s1 := match r with
    | .core c => ({ s with snuf.retiredCores := s.snuf.retiredCores &&& ~~~((1 : BitVec 8) <<< c.val) }).coreReturns c.val
    | .lane n => ({ s with snuf.retiredLanes := s.snuf.retiredLanes &&& ~~~((1 : BitVec 16) <<< n.val) }).laneReturned n.val
    | .sramRow b row =>
      let t := { s with snuf := { s.snuf with
        fences := s.snuf.fences.filter (· != (b.val, row))
        isolated := s.snuf.isolated.filter (· != (0x070 + b.val, row)) } }
      (if b = 14 then t.freeRow row else t).cellsCheck
    | .isolated src i =>
      let t := { s with snuf.isolated := s.snuf.isolated.filter (· != (src, i)) }
      if src = 0x041 then t.dmaReinstate i
      else if 0x050 ≤ src ∧ src ≤ 0x053 then t.setLamp (src - 0x050) true else t
    | _ => s
  let s2 := ((s1.setPasses r 0).outcome r 0xF3 0).retirementRecord 3 r
  s2.setDegrading (s2.snuf.degrading.filter (· != r))

/-- A test has ended: its outcome record and source 3 (R421). -/
def State.testOutcome (s : State) (r : Resource) (pass : Bool) : State :=
  let s1 := { s with snuf := { s.snuf with
    tests := s.snuf.tests.filter (fun t => t.resource != r)
    ended := (r, s.now) :: s.snuf.ended.filter (fun e => e.1 != r) } }
  (s1.outcome r (if pass then 0xF0 else 0xF1) (if pass then 4 else 8)).raise 3

/-- A retest has ended: REINSTATE consecutive passes return the resource to service (R424). -/
def State.retestEnd (s : State) (r : Resource) (pass : Bool) : State :=
  let s1 := s.testOutcome r pass
  let s2 := if s1.snuf.retest = some r then
    { s1 with snuf := { s1.snuf with retest := none, retestResult := if pass then 2 else 3 } } else s1
  let n := if pass then s2.passesOf r + 1 else 0
  if pass && decide (max 1 (bits (s2.regOr 0x218 0x50008) 11 8) ≤ n) then s2.reinstate r else s2.setPasses r n

/-- A targeted self-test has ended (R422). -/
def State.selfTestEnd (s : State) (r : Resource) (pass : Bool) : State :=
  let s1 := s.testOutcome r pass
  if s1.outOfService r then s1
  else if pass then
    match r with
    | .core c => if (s1.core c.val).st = .resetting then s1.coreReturns c.val else s1
    | _ => s1
  else s1.lasting r

/-! ### Unit resets (R416) -/

/-- A channel that a core leaves interprets its CCW again from its start on another core (R286). -/
def State.reinterpret (s : State) (ch : Nat) : State :=
  let t := s.callStop ch
  let x := t.chan ch
  t.setChan ch { x with st := if x.st == .halting then .halting else .active, cur := .none, wait := .none, spanning := false }

/-- A Lamplighter core leaves service (R286). -/
def State.lampLeaves (s : State) (k : Nat) : State :=
  let on := match (s.wc (lampWick k)).call with
    | some w => [w.channel]
    | none => []
  (forEach on s (fun ch s => s.reinterpret ch)).setLamp k false

/-- A unit is reset. One that is being reset already, or a codec core that is not there to be reset, is left alone. -/
def State.resetUnit (s : State) (u : UnitId) : State :=
  let idle : Bool := match u with
    | .codec c => match (s.core c.val).st with
      | .retired | .noMicrocode => true
      | _ => false
    | _ => false
  if s.snuf.resets.contains u || idle then s
  else
    let s0 := s.unitResetAborts u
    let s1 := { s0 with snuf.resets := u :: s0.snuf.resets }
    match u with
    | .codec c => (s1.coreLeaves c.val .resetting).wickReset ⟨c.val, by omega⟩
    | .lamplighter k => (s1.lampLeaves k.val).wickReset (lampWick k.val)
    | .lantern => { s1.wickReset 12 with snuf := { s1.snuf with flickerFrozen := true, live := s1.snuf.live &&& 7 } }
    | .compositor => s1.cmpReset
    | .switch => s1.swcUnitReset
    | .traffic => s1.trfUnitReset
    | .dma => s1.dmaReset

/-- The unit of a fault source (Table 14-6, code 5). -/
def unitOf (src : Nat) : Option UnitId :=
  if 0x010 ≤ src ∧ src ≤ 0x017 then some (.codec (Fin.ofNat 8 (src - 0x010)))
  else if 0x050 ≤ src ∧ src ≤ 0x053 then some (.lamplighter (Fin.ofNat 4 (src - 0x050)))
  else if src = 0x001 then some .lantern
  else if src = 0x018 then some .compositor
  else if 0x01F ≤ src ∧ src ≤ 0x02F then some .switch
  else if src = 0x030 then some .traffic
  else if src = 0x041 then some .dma
  else none

/-- The clock domain of a unit outside the fabric's own, as R430 numbers the domains. -/
def unitDomain : UnitId → Option Nat
  | .codec _ => some 1
  | .switch => some 2
  | .lamplighter _ | .lantern => some 3
  | .compositor | .traffic | .dma => none

/-- The crossings of a unit that was reset have flushed their items, and DOMAIN_RESET is sent with the domain (R477). -/
def State.domainReset (s : State) (u : UnitId) : State :=
  match unitDomain u with
  | some d => s.fault 0x0C0 3 d
  | none => s

/-- UNIT_RESET_END: a reset ends, its crossings report it and source 6 is raised. A core returns to service unless it is
isolated; FLICKER may toggle again once the Lantern core is back (R428). -/
def State.unitResetEnd (s : State) (u : UnitId) : State :=
  if s.snuf.resets.contains u then
    let s1 := { s with snuf.resets := s.snuf.resets.filter (· != u) }
    let s2 := match u with
      | .lamplighter k => if s1.snuf.isolated.contains (0x050 + k.val, 0) then s1 else s1.setLamp k.val true
      | .lantern => { s1 with snuf := { s1.snuf with flickerFrozen := false, live := s1.snuf.live ||| 8 } }
      | _ => s1
    (s2.domainReset u).raise 6
  else s

/-- CORE_RESET_END: a codec core that was reset has reloaded its stores and run its self-test (R205). -/
def State.coreResetEnd (s : State) (c : Fin 8) (pass : Bool) : State :=
  if s.snuf.resets.contains (.codec c) && (s.core c.val).st == .resetting then
    let s1 := ((s.loadCore c.val).testOutcome (.core c) pass).unitResetEnd (.codec c)
    if pass then s1.coreReturns c.val else s1.retireCore c
  else s

/-- A codec core's running jobs are redone while it stays in service (RETRY, Table 14-6). -/
def State.coreRetry (s : State) (c : Nat) : State :=
  let st := (s.core c).st
  if st = .inService then
    let t := s.coreLeaves c .inService
    t.setCore c { t.core c with st := st }
  else s

/-- A resource leaves service under ISOLATE (Table 14-6). -/
def State.isolate (s : State) (src : Nat) (addr : Nat) : State :=
  if src = 0x041 then
    let c := addr % 64
    if s.snuf.isolated.contains (0x041, c) then s
    else { s.dmaIsolate c with snuf.isolated := (0x041, c) :: s.snuf.isolated }
  else if 0x050 ≤ src ∧ src ≤ 0x053 then
    if s.snuf.isolated.contains (src, 0) then s
    else { s.lampLeaves (src - 0x050) with snuf.isolated := (src, 0) :: s.snuf.isolated }
  else if 0x070 ≤ src ∧ src ≤ 0x07F then s.fenceRow (Fin.ofNat 16 (src - 0x070)) (addr / 1024) true
  else s

end Sys2Proof.Machine
end

