-- ==== Sys2Proof/Machine/Nvs.lean ====
section
/-!
DEFINITION. Machine/Nvs.lean: the images and their updates, boot control, persistent settings and the shutdown word
(R117, R451, R458 to R460, R494).
-/
namespace Sys2Proof.Machine

/-- An image. -/
def State.image (s : State) (i : Fin 3) : ImageState := s.nvs.images[i]
/-- Replace an image. -/
def State.setImage (s : State) (i : Fin 3) (x : ImageState) : State :=
  { s with nvs.images := s.nvs.images.set i x }

/-- The number of a slot state in a boot control record (Table 15-13). -/
def SlotState.code : SlotState → Nat
  | .invalid => 0 | .valid => 1 | .pending => 2

/-- The state of the slot that is not active. -/
def ImageState.spare (x : ImageState) : SlotState := if x.active then x.a else x.b
/-- Set the state and the version of the slot that is not active. -/
def ImageState.setSpare (x : ImageState) (st : SlotState) (version : Word) : ImageState :=
  if x.active then { x with a := st, versionA := version } else { x with b := st, versionB := version }
/-- The version in the slot that is not active. -/
def ImageState.spareVersion (x : ImageState) : Word := if x.active then x.versionA else x.versionB
/-- The number of the slot that is not active: 0 A, 1 B. -/
def ImageState.spareSlot (x : ImageState) : Nat := if x.active then 0 else 1
/-- The version of a PENDING image, or 0. -/
def ImageState.pendingVersion (x : ImageState) : Word :=
  if x.a = .pending then x.versionA else if x.b = .pending then x.versionB else 0
/-- The image has a PENDING slot. -/
def ImageState.isPending (x : ImageState) : Bool := x.a == .pending || x.b == .pending

/-- Write a boot control record: it holds the whole state of all three images (R494). -/
def State.bootControl (s : State) : State :=
  s.nvsRecord 0 0x10 ((List.finRange 3).flatMap (fun i =>
    let x := s.image i
    leBytes 1 (b2n x.active) ++ leBytes 1 x.a.code ++ leBytes 1 x.b.code ++ [0] ++ leBytes 4 x.pendingVersion.toNat))

/-- The size of an image's slot (Table 15-7). -/
def slotSize (i : Fin 3) : Nat := match i with | 0 => 128 * 1024 | 1 => 1024 * 1024 | 2 => 4 * 1024 * 1024

/-- The ACTIVE_SLOTS byte (Table 04-6). -/
def State.activeSlots (s : State) : Nat :=
  b2n (s.image 0).active + 2 * b2n (s.image 1).active + 4 * b2n (s.image 2).active

/-- A setting is written to the persistent settings and takes that value at the next start (R451); in a brown-out no record
is started (R457). -/
def State.persist (s : State) (off : Nat) (v : Word) : State :=
  if s.pwr.brownOut then s else
  let s1 := { s with nvs.persisted := Table.set .none s.nvs.persisted off (some v) }
  s1.nvsRecord 2 0x12 (leBytes 4 off ++ leBytes 4 v.toNat)

/-- Write the shutdown word with a cause (R458). -/
def State.shutdownWord (s : State) (cause : Nat) : State :=
  { s with nvs.shutdown := BitVec.ofNat 64 (0x4C5A5344 * 2 ^ 32 + cause) }

/-! ### Collapses (R455, R457) -/

/-- A slot state by its number. -/
def slotStateOf (n : Nat) : SlotState := if n = 1 then .valid else if n = 2 then .pending else .invalid

/-- The records of an area. -/
def NvsState.area (n : NvsState) (k : Nat) : List LogRec :=
  match k with | 0 => n.bootCtl | 1 => n.retirement | 2 => n.settings | _ => n.log

/-- The images as the newest present boot control record has them (R454); as a new device has them where there is none. -/
def NvsState.bootState (n : NvsState) : NvsState :=
  let f := fun (i : Fin 3) (x : ImageState) =>
    match n.bootCtl with
    | r :: _ =>
      { x with
        active := fieldLe r.payload (8 * i.val) 1 == 1, a := slotStateOf (fieldLe r.payload (8 * i.val + 1) 1)
        b := slotStateOf (fieldLe r.payload (8 * i.val + 2) 1) }
    | [] => { x with active := false, a := .invalid, b := .invalid }
  { n with images := Vector.ofFn (fun i => f i n.images[i]) }

/-- The settings as the newest present record of each has them. -/
def NvsState.settingsState (n : NvsState) : NvsState :=
  { n with persisted := n.settings.reverse.foldl (fun t r =>
      Table.set .none t (fieldLe r.payload 0 4) (some (BitVec.ofNat 32 (fieldLe r.payload 4 4)))) [] }

/-- A record of an area is absent: it counts nowhere, and the area's sequence continues from the newest present one (R454, R456). -/
def NvsState.lose (n : NvsState) (w : NvsWrite) : NvsState :=
  let cut := fun (l : List LogRec) => l.filter (fun r => r.seq != w.seq)
  let m := match w.area with
    | 0 => { n with bootCtl := cut n.bootCtl }.bootState
    | 1 => { n with retirement := cut n.retirement }
    | 2 => { n with settings := cut n.settings }.settingsState
    | _ => { n with log := cut n.log }
  { m with seqs := m.seqs.setIfInBounds w.area (((m.area w.area).head?.map LogRec.seq).getD 0) }

/-- A retirement record that is absent has no effect at the next start (R423): what it retired, fenced or spared is not, and what it
reinstated is out of service. Post-package repairs stay in the DRAM. -/
def State.unretire (s : State) (r : LogRec) : State :=
  let act := fieldLe r.payload 0 1
  let src := fieldLe r.payload 2 2
  let adr := fieldLe r.payload 8 6
  let x := s.snuf
  match fieldLe r.payload 1 1 with
  | 0 =>
    let c := src - 0x010
    let m := (1 : BitVec 8) <<< c
    let y := { x with degrading := x.degrading.filter (· != Resource.core (Fin.ofNat 8 c)) }
    { s with snuf := if act = 3 then { x with retiredCores := x.retiredCores ||| m, degrading := .core (Fin.ofNat 8 c) :: x.degrading }
      else { y with retiredCores := x.retiredCores &&& ~~~m } }
  | 1 =>
    let m := (1 : BitVec 16) <<< adr
    let y := { x with degrading := x.degrading.filter (· != Resource.lane (Fin.ofNat 16 adr)) }
    { s with snuf := if act = 3 then { x with retiredLanes := x.retiredLanes ||| m, degrading := .lane (Fin.ofNat 16 adr) :: x.degrading }
      else { y with retiredLanes := x.retiredLanes &&& ~~~m } }
  | 2 =>
    let row := (src - 0x070, adr / 1024)
    { s with snuf :=
      if act = 2 then { x with sparedRows := x.sparedRows.erase row, spareRows := Table.upd 0 x.spareRows row.1 (· - 1) }
      else
        let res := Resource.sramRow (Fin.ofNat 16 row.1) row.2
        if act = 3 then { x with fences := x.fences ++ [row], degrading := res :: x.degrading }
        else { x with fences := x.fences.filter (· != row), degrading := x.degrading.filter (· != res) } }
  | 4 => { s with snuf := { x with sparedPcs := x.sparedPcs.erase (src - 0x080, adr) } }
  | _ => s

/-- A record being written does not come to be present (Table 15-9). -/
def State.loseRecord (s : State) (w : NvsWrite) : State :=
  let t := { s with nvs := s.nvs.lose w }
  if w.area = 1 then forEach (s.nvs.retirement.filter (fun r => r.seq == w.seq)) t (fun r s => s.unretire r) else t

/-- The supply collapses: a record whose commit word has not been written by now is absent (R455). -/
def State.collapse (s : State) : State :=
  let t := forEach (s.nvs.writes.filter (fun w => decide (s.now < w.ends))).reverse s (fun w s => s.loseRecord w)
  { t with nvs.writes := [] }

/-- A brown-out: the record being written is finished, which the board's 300 µs allow, and one that waits is not started (R457). -/
def State.finishWrites (s : State) : State :=
  let t := forEach (s.nvs.writes.filter (fun w => decide (s.now < w.begins))).reverse s (fun w s => s.loseRecord w)
  { t with nvs.writes := [] }

/-- The area of an NVS offset that keeps one copy of its records, and the place in it (Table 15-7): retirement records, settings
and the event log. A boot control record stands in both copies, so that the failure of one leaves it present (log entry 38). -/
def nvsPlace (a : Nat) : Option (Nat × Nat) :=
  if 0x10000 ≤ a ∧ a < 0x20000 then some (1, a - 0x10000)
  else if 0x20000 ≤ a ∧ a < 0x30000 then some (2, a - 0x20000)
  else if 0x01000000 ≤ a ∧ a < 0x02000000 then some (3, a - 0x01000000)
  else none

/-- The record of an area that lies at a place of it. -/
def NvsState.recordAt (n : NvsState) (k p : Nat) : Option LogRec :=
  (n.area k).find? (fun r => decide (r.pos ≤ p) && decide (p < r.pos + recSize r.payload.length))

/-- A record's write has failed, or it fails its CRC with a valid commit word: it is absent, and source 282 is raised (R454,
Tables 15-4 and 15-5). Only a start takes the sequence up from the newest present record (R456). -/
def State.recordFails (s : State) (a : Nat) : State :=
  let u : State := match nvsPlace a with
    | some (k, p) =>
      match s.nvs.recordAt k p with
      | some r =>
        let t := s.loseRecord ⟨k, r.seq, 0, 0⟩
        { t with nvs := { t.nvs with
          writes := t.nvs.writes.filter (fun w => w.area != k || w.seq != r.seq)
          seqs := if s.pwr.mode = .boot then t.nvs.seqs else s.nvs.seqs } }
      | none => s
    | none => s
  u.raise 282

/-! ### Updates (R459) -/

/-- The update of an image that runs, or whose completion waits. -/
def State.updateOf (s : State) (i : Fin 3) : Option Update := Table.get .none s.updates i.val
/-- Replace it. -/
def State.setUpdate (s : State) (i : Fin 3) (u : Option Update) : State :=
  { s with updates := Table.set .none s.updates i.val u }
/-- An update of an image is running. -/
def State.updating (s : State) (i : Fin 3) : Bool :=
  match s.updateOf i with
  | some u => u.outcome.isNone
  | none => false
/-- An OFFLINE update is running. -/
def State.updatingOffline (s : State) : Bool :=
  (List.finRange 3).any (fun i => match s.updateOf i with | some u => u.offline && u.outcome.isNone | none => false)

/-- An update begins: a boot control record marks its slot invalid and clears any PENDING mark (step 2 of R459). -/
def State.updateBegin (s : State) (i : Fin 3) (u : Update) : State :=
  ((s.setImage i ((s.image i).setSpare .invalid 0)).setUpdate i (some u)).bootControl

/-- The completion of an update whose outcome stands. -/
def State.updateComplete (s : State) (i : Fin 3) : State :=
  match s.updateOf i with
  | some u =>
    match u.outcome, u.slot with
    | some (st, v), some n =>
      let r := if st = .ok then ((s.image i).spareSlot, v.toNat) else (0, 0)
      (s.setUpdate i none).finish n st r.1 r.2 none
    | some _, none => s.setUpdate i none
    | none, _ => s
  | none => s

/-- An update ends with an outcome: it is logged and raises ICU source 283 (Tables 15-4 and 15-13). An OFFLINE update's
completion waits for the return from UPDATE, unless `now` says that it does not. -/
def State.updateEnd (s : State) (i : Fin 3) (st : Status) (version : Word) (now : Bool) : State :=
  match s.updateOf i with
  | none => s
  | some u =>
    if u.outcome.isSome then s
    else
      let payload := leBytes 1 i.val ++ leBytes 1 (b2n u.pldm) ++ leBytes 1 (s.image i).spareSlot ++ leBytes 1 st.code
        ++ leBytes 4 version.toNat ++ leBytes 4 u.length ++ leBytes 4 0
      let s1 := ((s.setUpdate i (some { u with outcome := some (st, version) })).logRecord 7
        (if u.pldm then 0xFF else u.fn) payload).raise 283
      if u.offline && !now then s1 else s1.updateComplete i

/-- An update that runs is aborted: its slot stays invalid. -/
def State.updateAbort (s : State) (i : Fin 3) : State := s.updateEnd i .aborted 0 true

/-- Every update of commands is aborted: RECOVERY and the causes that power the Lantern core's work down. -/
def State.abortUpdates (s : State) (pldm : Bool) : State :=
  forEach (List.finRange 3) s (fun i s =>
    match s.updateOf i with
    | some u => if u.pldm && !pldm then s else s.updateAbort i
    | none => s)

end Sys2Proof.Machine
end

