-- ==== Sys2Proof/Machine/Objects.lean ====
section
/-!
DEFINITION. Machine/Objects.lean: stopping what an entry or a channel has started, closing objects, and the reset of a
function (R84, R85, R94, R98, R116, R120, R266).
-/
namespace Sys2Proof.Machine

/-! ### Generations (R98) -/

/-- The generation of the next object with an index of a type: it adds one each time the index is reused. -/
def State.genOf (s : State) (type index : Nat) : Nat := Table.get 0 s.qm.gens (type * 65536 + index)
/-- An object with an index of a type has been destroyed: the next gets the next generation. -/
def State.genNext (s : State) (type index : Nat) : State :=
  { s with qm.gens := Table.upd 0 s.qm.gens (type * 65536 + index) (fun n => (n + 1) % 2 ^ 32) }

/-! ### Withdrawing what has not started -/

/-- The origin of the job that a frame of a send queue stands for. -/
def Sender.origin : Sender → Option JobOrigin
  | .slot n => some (.slot n)
  | .channel c a => some (.channel c a)
  | _ => none

/-- Frames that wait on send queues are withdrawn: their senders learn a status. -/
def State.withdrawSends (s : State) (sel : Nat → SendFrame → Bool) (st : Status) : State :=
  forEach s.swc.sendQueues.keys s (fun i s =>
    match s.sendQ i with
    | none => s
    | some q =>
      let gone := q.waiting.filter (sel i)
      let s1 := s.setSendQ i (some { q with waiting := q.waiting.filter (fun x => !sel i x) })
      (forEach gone s1 (fun x s => s.sendGone x st)).settleSendQ i)

/-- Codec jobs that have not started are withdrawn; a frame that was not coded has its records, where `records` says
that the memory of its function may be written. -/
def State.withdrawJobs (s : State) (sel : CodecJob → Bool) (records : Bool) (st : Status) : State :=
  forEach (s.codec.jobs.filter (fun j => j.phase == .waiting && sel j)) s (fun j s =>
    let t := if j.encode && records then s.emptyRecords j.stream j st 0 else s
    t.endIdle j st)

/-- Everything not started that one origin has asked of the units ends with a status. -/
def State.withdraw (s : State) (o : JobOrigin → Bool) (records : Bool) (st : Status) : State :=
  let s1 := s.withdrawJobs (fun j => o j.origin) records st
  let s2 := s1.endUpdates st (fun _ _ u => !u.taken && o u.origin)
  s2.withdrawSends (fun _ x => match x.sender.origin with | some g => o g | none => false) st

/-- A command or CCW that waits for a check or an apply is stopped: the check is given up, the session of an armed
change is cancelled. -/
def State.withdrawStage (s : State) (w : Waiter → Bool) : State :=
  let is := fun (x : Option Waiter) => match x with | some v => w v | none => false
  if is s.stage.applyWaiter then s.stageCancel
  else if is s.stage.checkWaiter then s.reopen
  else s

/-- The session that a channel holds is cancelled (R261). -/
def State.dropChannelSession (s : State) (c : Fin 64) : State :=
  match s.stage.holder with
  | some (.chan d, _) => if d = c then s.stageCancel else s
  | _ => s

/-! ### Channels (R264, R266) -/

/-- The CCW in progress of a channel is stopped, and the program ends with STOPPED once it has (R266). -/
def State.haltChannel (s0 : State) (c : Fin 64) : State :=
  let s := s0.dropChannelSession c
  let x := s.chan c.val
  let mine := fun (o : JobOrigin) => o == .channel c.val false
  match x.st with
  | .active | .suspended => s.endProgram c.val .stopped .none 0
  | .waiting =>
    match x.wait with
    | .transfer _ _ => s.setChan c.val { x with st := .halting }
    | .job =>
      let s1 := s.setChan c.val { x with st := .halting }
      (s1.withdraw mine true .aborted).withdrawStage (fun w => w == .channel c.val false)
    | .call _ _ => (s.callStop c.val).endProgram c.val .stopped .none 0
    | _ => s.endProgram c.val .stopped .none 0
  | _ => s

/-- What still runs for a channel no longer reports to it. -/
def State.forgetChannel (s : State) (c : Nat) : State :=
  let o := fun (x : JobOrigin) => match x with | .channel d _ => if d = c then JobOrigin.flip else x | _ => x
  let sd := fun (x : Sender) => match x with | .channel d _ => if d = c then Sender.firmware else x | _ => x
  { s with
    codec.jobs := s.codec.jobs.map (fun j : CodecJob => { j with origin := o j.origin })
    cmp.outputs := s.cmp.outputs.map (fun e => (e.1, e.2.map (fun x : Output =>
      { x with updates := x.updates.map (fun u : PlaneUpdate => { u with origin := o u.origin }) })))
    swc := { s.swc with
      frames := s.swc.frames.map (fun f : Frame => { f with sender := sd f.sender })
      sendQueues := s.swc.sendQueues.map (fun e => (e.1, e.2.map (fun q : SendQueue =>
        { q with waiting := q.waiting.map (fun x : SendFrame => { x with sender := sd x.sender }) }))) } }

/-- A channel becomes FREE: events, timer, status ring and CSW go, and its handle is unknown. -/
def State.freeChannel (s : State) (c : Fin 64) : State :=
  let s1 := (((s.dropChannelSession c).callStop c.val).freeSubchsOf c.val).forgetChannel c.val
  let s2 := { s1 with lmp := { s1.lmp with
    unitErrors := s1.lmp.unitErrors.filter (fun e => e.1 / 1024 != c.val)
    gpioEvents := s1.lmp.gpioEvents.filter (fun e => match e.2 with
      | some g => g.channel != c.val
      | none => false) } }
  (s2.setChan c.val Channel.free).genNext 5 c.val

/-- A channel is cleared and becomes FREE at once: the reset of its function (R99, R283). Its ring is not written. -/
def State.wipeChannel (s : State) (c : Fin 64) : State :=
  let x := s.chan c.val
  match x.st with
  | .free => s
  | .idle | .ended => s.freeChannel c
  | _ =>
    let s1 := (s.setChan c.val { x with ring := .none }).callStop c.val
    let s2 := (s1.withdraw (fun o => o == .channel c.val false) false .aborted).withdrawStage
      (fun w => w == .channel c.val false)
    let s3 := match (s2.chan c.val).st with
      | .ended | .idle => s2
      | _ => s2.endProgram c.val .stopped .none 0
    s3.freeChannel c

/-! ### Accepted entries (R84, R116) -/

/-- The opcode of an entry. -/
def Slot.op (x : Slot) : Nat := fieldLe x.bytes 0 1
/-- The HANDLE of an entry. -/
def Slot.handle (x : Slot) : Nat := fieldLe x.bytes 8 8

/-- The channel that a START command runs. -/
def State.startedBy (s : State) (n : Nat) : Option (Fin 64) :=
  (List.finRange 64).find? (fun c => (s.chan c.val).startSlot == some n)

/-- An accepted entry that has not finished is stopped, where its unit can stop it: an entry not yet carried out, a job
not started, a channel program at its CCW, a check or an armed change, an image update. Any other ends with its own
outcome. -/
def State.stopEntry (s : State) (records : Bool) (n : Nat) : State :=
  match s.slot n with
  | none => s
  | some x =>
    match x.phase with
    | .accepted => s.finish n .aborted 0 0 none
    | .running =>
      if 0x22 ≤ x.op ∧ x.op ≤ 0x25 then s.withdraw (fun o => o == .slot n) records .aborted
      else if x.op = 0x26 then
        match s.startedBy n with
        | some c => s.haltChannel c
        | none =>
          match (List.finRange 64).find? (fun c => (s.chan c.val).suspendSlots.contains n) with
          | some c =>
            let y := s.chan c.val
            let l := y.suspendSlots.filter (· != n)
            (s.setChan c.val { y with
              suspendSlots := l, suspend := if l.isEmpty && y.suspend == some .host then .none else y.suspend }).finish n
                .aborted 0 0 none
          | none => s
      else if x.op = 0x09 then s.withdrawStage (fun w => w == .slot n)
      else if x.op = 0x0B then
        match (List.finRange 3).find? (fun i => (s.updateOf i).any (fun u => u.slot == some n)) with
        | some i => s.updateEnd i .aborted 0 (s.pwr.mode != .update)
        | none => s
      else s
    | _ => s

/-- The accepted entries of a queue that have not finished. -/
def State.openEntries (s : State) (f q : Nat) : List Nat :=
  (s.slotList.filter (fun e => e.2.fn == f && e.2.sq == q && (e.2.phase == .accepted || e.2.phase == .running))).map Prod.fst

/-! ### Closing objects (R120) -/

/-- Nothing more is written to host memory for the jobs of a stream (R85). -/
def State.muteJobs (s : State) (encode : Bool) (i : Nat) : State :=
  { s with codec.jobs := s.codec.jobs.map (fun j : CodecJob =>
      if j.encode == encode && j.stream == i then { j with mute := true } else j) }

/-- A decode stream is being closed: jobs not started end with ABORTED, or run to completion. -/
def State.closeDec (s : State) (i : Nat) (closer : Option Nat) (drain records : Bool) : State :=
  match s.dec i with
  | none => s
  | some d =>
    let s1 := (s.setDec i (some { d with st := .closing, closer := closer, drain := drain })).genNext 1 i
    let s2 := if records then s1 else s1.muteJobs false i
    let s3 := if drain then s2 else s2.withdrawJobs (fun j => !j.encode && j.stream == i) records .aborted
    s3.settleDec i

/-- An encode stream is being closed. -/
def State.closeEnc (s : State) (i : Nat) (closer : Option Nat) (drain records : Bool) : State :=
  match s.enc i with
  | none => s
  | some e =>
    let owed := if records then e.owed else e.owed.map (fun o => { o with mute := true })
    let s1 := (s.setEnc i (some { e with st := .closing, closer := closer, drain := drain, owed := owed })).genNext 2 i
    let s2 := if records then s1 else s1.muteJobs true i
    let s3 := if drain then s2 else s2.withdrawJobs (fun j => j.encode && j.stream == i) records .aborted
    s3.settleEnc i

/-- A send queue is being closed: frames not released end with ABORTED, or are released in their time. -/
def State.closeSendQ (s : State) (i : Nat) (drain : Bool) : State :=
  match s.sendQ i with
  | none => s
  | some q =>
    let s1 := (s.setSendQ i (some { q with drain := true })).genNext 4 i
    let s2 := if drain then s1 else s1.withdrawSends (fun k _ => k == i) .aborted
    s2.settleSendQ i

/-! ### The reset of a function (R85, R99) -/

/-- Paced packets of a function are given up with the buffers that carry them. -/
def State.dropPaced (s : State) (f : Nat) : State :=
  forEach (s.codec.paced.filter (fun p => p.fn == f)) { s with codec.paced := s.codec.paced.filter (fun p => p.fn != f) }
    (fun p s => s.dropOpt p.buffer)

/-- Every object of a function is destroyed (R99). -/
def State.dropObjects (s : State) (f : Nat) : State :=
  let s1 := forEach (List.finRange 64) s (fun c s => if (s.chan c.val).fn = f then s.wipeChannel c else s)
  let s2 := forEach s1.encList s1 (fun e s => if e.2.fn = f then s.closeEnc e.1 none false false else s)
  let s3 := forEach s2.decList s2 (fun e s => if e.2.fn = f then s.closeDec e.1 none false false else s)
  let s4 := forEach s3.outList s3 (fun e s => if e.2.fn = f then (s.closeOut e.1 none false).genNext 3 e.1 else s)
  forEach s4.swc.sendQueues.keys (s4.dropPaced f) (fun i s =>
    match s.sendQ i with
    | some q => if q.fn = f then s.closeSendQ i false else s
    | none => s)

/-- A completion ring of a function being reset is gone with its last bound queue. -/
def State.settleReset (s : State) (f : Nat) : State :=
  if s.qm.resetting.getLsbD f && s.qm.sqs.all (fun e => keyFn e.1 != f) then
    let m : BitVec 16 := ~~~((1 : BitVec 16) <<< f)
    { s with qm := { s.qm with
      cqs := s.qm.cqs.filter (fun e => keyFn e.1 != f)
      rdy := s.qm.rdy &&& m, resetting := s.qm.resetting &&& m } }
  else s

/-- The completions of a function that can no longer be written are logged as orphaned (R85). -/
def State.orphanAll (s : State) (f : Nat) : State :=
  forEach ((s.slotList.filter (fun e => e.2.fn == f && (e.2.phase == .finished || e.2.phase == .posted))).map Prod.fst) s
    (fun n s => s.orphan n)

/-- A function is reset under R85: its queues drain, its objects are destroyed, and what it can no longer be told is
logged. -/
def State.resetFunction (s : State) (f : Nat) : State :=
  let draining := fun (e : Nat × Sq) => if keyFn e.1 = f then
    (e.1, { e.2 with state := .draining, cache := [], invalidate := false }) else e
  let drainingC := fun (e : Nat × Cq) => if keyFn e.1 = f then
    (e.1, { e.2 with state := .draining, repost := [], oldestAt := none, unsignalled := 0, writeFrozen := false }) else e
  let s1 := { s with qm := { s.qm with
    sqs := s.qm.sqs.map draining, cqs := s.qm.cqs.map drainingC
    aqPending := s.qm.aqPending &&& ~~~((1 : BitVec 16) <<< f)
    resetting := s.qm.resetting ||| (1 <<< f), vfLost := s.qm.vfLost &&& ~~~((1 : BitVec 16) <<< f) } }
  let s2 := s1.dropObjects f
  let open_ := (s2.slotList.filter (fun e => e.2.fn == f && (e.2.phase == .accepted || e.2.phase == .running))).map Prod.fst
  let s3 := (forEach open_ s2 (fun n s => s.stopEntry false n)).orphanAll f
  let s4 := forEach (s3.qm.sqs.keys.filter (fun k => keyFn k == f)) s3 (fun k s => s.settleQueue k)
  (s4.settleReset f).slotsCheck

/-- COMPLETION_POST for a function being reset: the completion is logged as orphaned instead (R85). -/
def State.orphanFinished (s : State) (f : Nat) : State := (s.orphanAll f).settleReset f

/-- COMPLETION_POST for a ring frozen by a write error: the completions of its queues that are being deleted can no longer be
written, and are logged as orphaned so that the deletion ends (R84, R93). -/
def State.orphanDraining (s : State) (f c : Nat) : State :=
  forEach ((s.slotList.filter (fun e => e.2.fn == f && e.2.cq == c && (e.2.phase == .finished || (e.2.phase == .posted && !e.2.written)) &&
    (s.sq (qKey f e.2.sq)).state == .draining)).map Prod.fst) s (fun n s => s.orphan n)

/-- COMPLETION_POST. -/
def execCompletionPost (f : Fin 16) (c : Fin 4096) (ok : Bool) (s : State) : Host.Outcome State Fault Refusal :=
  .next (if s.qm.resetting.getLsbD f.val then s.orphanFinished f.val
    else if !s.qmRuns then s
    else if (s.cq (qKey f.val c.val)).writeFrozen then s.orphanDraining f.val c.val
    else s.post f.val c.val ok)

end Sys2Proof.Machine
end

