-- ==== Sys2Proof/Machine/Orders.lean ====
section
/-!
DEFINITION. Machine/Orders.lean: orders of different masters that contradict (R28, R30).
-/
namespace Sys2Proof.Machine

/-- The orders are less than one period of group A apart, as a length of time. -/
def State.recent (s : State) (o : Order) : Bool :=
  decide ((s.time.run - o.ranAt) * (s.period 0).2 < (s.period 0).1)

/-- The orders that a new one contradicts: the same setting, another value, another master, less than one period ago. -/
def State.rivals (s : State) (x : Setting) (value : Nat) (m : Master) : List Order :=
  s.stage.orders.filter (fun o => decide (o.setting = x) && decide (o.value ≠ value) && decide (o.master ≠ m) && s.recent o)

/-- A new order meets its rivals (R28): the flag says that it loses. An earlier order that has not completed and loses is
taken back by `drop`; `done` says which have completed. -/
def State.contest (s : State) (x : Setting) (value : Nat) (m : Master) (op : Nat) (done : Order → Bool)
    (drop : Order → State → State) : Bool × State :=
  let l := s.rivals x value m
  match l.find? (fun o => decide (masterRank o.master < masterRank m)) with
  | some o => (true, s.conflict o.master m o.dts s.time.dts 1 op)
  | none =>
    (false, forEach (l.filter (fun o => !done o)) s (fun o s =>
      let t := drop o (s.conflict m o.master s.time.dts o.dts 1 o.op)
      { t with stage.orders := t.stage.orders.filter (fun y => decide (y ≠ o)) }))

/-- Keep an order that is carried out. -/
def State.keepOrder (s : State) (x : Setting) (value : Nat) (m : Master) (op id : Nat) : State :=
  { s with stage.orders := ⟨x, value, m, op, s.time.dts, s.time.run, id⟩ :: s.stage.orders.filter s.recent }

end Sys2Proof.Machine
end

