-- ==== Sys2Proof/Machine/Modes.lean ====
section
/-!
DEFINITION. Machine/Modes.lean: the twelve modes: resolving, requesting, entering and leaving them, the gating of codec
cores, host loss and the handover, RECOVERY, HALT and the entry to PILOT and OFF (R87 to R92, R279, R283, R285, R407,
R427, R435 to R445, R458).
-/
namespace Sys2Proof.Machine

/-! ### The interrupt scheme (R405 to R407) -/

/-- BOOT, TEST and RECOVERY use the grouped scheme. -/
def Mode.grouped : Mode → Bool
  | .boot | .test | .recovery => true
  | _ => false

/-- A target whose active stack is empty takes up the scheme that the last change of mode calls for. -/
def State.settleSchemes (s : State) : State :=
  { s with icu.grouped := Vector.ofFn (fun t : Fin 14 =>
      if s.icu.claims[t].isEmpty then s.icu.wanted else s.icu.grouped[t]) }.hostCheck

/-! ### Resolving (R435) -/

/-- A cap is in force (R444). -/
def State.capped (s : State) : Bool := s.pwr.thermalCap || s.pwr.powerCap

/-- The mode that R435 resolves. -/
def State.resolved (s : State) : Mode :=
  if s.qm.hostLost then .continuity else if s.capped then .limited else s.pwr.base

/-- An OFFLINE update calls for UPDATE, or UPDATE is to be left because none runs (Table 15-1). -/
def State.updateDue (s : State) : Bool :=
  match s.pwr.mode with
  | .update => !s.updatingOffline
  | .provision | .service | .night => s.updatingOffline
  | _ => false

/-- A change of mode is in progress (PWR_MODE.CHANGING). -/
def State.changing (s : State) : Bool :=
  s.pwr.change.isSome || (s.pwr.mode.media && s.resolved != s.pwr.mode) || s.updateDue

/-! ### What the log and the manager are told -/

/-- The causes of Table 15-13, type 2. -/
def ModeCause.code : ModeCause → Nat
  | .request => 0 | .hostLoss => 1 | .handover => 2 | .capBegins => 3 | .capEnds => 4 | .reaction => 5 | .update => 6
  | .boot => 7 | .wake => 8 | .warmReset => 9 | .shutdown => 10

/-- The master of a requester: out-of-band management is the Lantern core's (R27). -/
def State.requesterMaster (s : State) : Requester → Master
  | .command n => match s.slot n with
    | some x => .fn (Fin.ofNat 16 x.fn)
    | none => .fn 0
  | .register m => m
  | .outOfBand => .lantern

/-- The record of a change of mode (Table 15-13). -/
def State.logMode (s : State) (m : Mode) (cause : ModeCause) (w : Option Master) : State :=
  let (fn, cls, num) := match w with
    | none => (0xFF, 0, 0)
    | some w => (s.masterFn w, masterClass w, masterNumber w)
  s.logRecord 2 fn ([s.pwr.mode.code, m.code, cause.code, cls, num, 0, 0, 0].map (BitVec.ofNat 8))

/-- A PLDM PlatformEventMessage of a state sensor, sent once an event receiver is set (Table 15-6): sensor, its state and
the state before (assumption 15). -/
def State.platformEvent (s : State) (sensor now before : Nat) : State :=
  match s.mgmt.receiver with
  | none => s
  | some _ => s.emit (.mgmt ([0x80, 0x02, 0x0A, 0x01, s.mgmt.tid, 0x00] ++ leBytes 2 sensor ++ [0x01, 0x00]
      ++ leBytes 1 now ++ leBytes 1 before))

/-- State sensor 101, the conditions: bit 0 CAP, 1 HOST_LOST, 2 HOLDOVER, 3 DEGRADED, 4 THERM_N asserted. -/
def State.conditions (s : State) : Nat :=
  b2n s.capped + 2 * b2n s.qm.hostLost + 4 * b2n s.time.holdover + 8 * b2n s.degraded + 16 * b2n (!s.pwr.thermN)

/-! ### Requests that wait -/

/-- A request for a mode is answered (R112, R437): by the command's completion, or in PWR_MODE_RES. -/
def State.answerMode (s : State) (r : Option Requester) (asked : Nat) (st : Status) (entered : Nat)
    (detail : Option Nat) : State :=
  let s1 := if s.qm.modeReqPending && r.isSome then
      { s with qm := { s.qm with modeReqPending := false, modeReqStatus := st.code } } else s
  match r with
  | none => s1
  | some (.command n) => s1.finish n st entered 0 detail
  | some _ => { s1 with pwr := { s1.pwr with resCode := st, resMode := asked } }

/-- A change that waits is given up because another cause changes the mode first; `lost` says that the completion of a
command can no longer be written, and is logged as orphaned (R437). -/
def State.abortChange (s : State) (lost : Bool) : State :=
  match s.pwr.change with
  | none => s
  | some c =>
    let s1 := { s with pwr.change := none }.answerMode c.requester c.asked .aborted 0 none
    match c.requester with
    | some (.command n) => if lost then s1.orphan n else s1
    | _ => s1

/-! ### Gating (R210, R445) -/

/-- The codec cores that may be gated: in service and not gated, highest number first. -/
def State.gateable (s : State) : List Nat :=
  (List.range 8).reverse.filter (fun c => (s.core c).st == .inService && !s.pwr.gated.getLsbD c)

/-- The number of gated cores. -/
def State.gatedCount (s : State) : Nat := countBelow 8 (fun c => s.pwr.gated.getLsbD c)

/-- Gate `n` more cores, until seven are gated. -/
def State.gateCores (s : State) (n : Nat) : State :=
  forEach (s.gateable.take (min n (7 - s.gatedCount))) s (fun c s =>
    ({ s with pwr.gated := s.pwr.gated ||| ((1 : BitVec 8) <<< c) }).settleGate c)

/-- PWR_CAP_CFG.GATE: 0 acts as 1. -/
def State.gateCount (s : State) : Nat := max 1 (bits (s.regOr 0x455 0x60010) 10 8)

/-- A cap is in force in a mode that has media, and no core is gated yet. -/
def State.gateForCap (s : State) : State :=
  if s.capped && s.pwr.mode.media && s.gatedCount == 0 then
    ({ s with pwr.capStep := s.now }).gateCores s.gateCount
  else s

/-- Every gated core returns under R209. -/
def State.ungate (s : State) : State :=
  let s1 := forEach (List.range 8) s (fun c s => if (s.core c).st = .gated then s.coreReturns c else s)
  { s1 with pwr.gated := 0 }

/-! ### Channels (R279, R285) -/

/-- A channel is to suspend before its next CCW that does not continue a span. -/
def State.askSuspend (s : State) (k : SuspendKind) (c : Fin 64) : State :=
  let x := s.chan c.val
  match x.st with
  | .active =>
    if x.cur.isNone && !x.spanning then s.suspendNow c.val k
    else s.setChan c.val { x with suspend := some (x.suspend.getD k) }
  | .waiting => s.setChan c.val { x with suspend := some (x.suspend.getD k) }
  | _ => s

/-- The timers of the channels stop and keep their remaining time (Table 09-14). -/
def State.stopTimers (s : State) : State :=
  { s with lmp.chans := s.lmp.chans.map (fun e => (e.1, match e.2.timer with
      | some t => { e.2 with timer := none, timerLeft := some (t - s.time.run) }
      | none => e.2)) }
/-- The timers run on. -/
def State.startTimers (s : State) : State :=
  { s with lmp.chans := s.lmp.chans.map (fun e => (e.1, match e.2.timerLeft with
      | some t => { e.2 with timer := some (s.time.run + t), timerLeft := none }
      | none => e.2)) }

/-- The channels resume by themselves (Table 09-14). -/
def State.resumeChannels (s : State) : State :=
  { s with lmp.chans := s.lmp.chans.map (fun e =>
      let y : Channel := if e.2.suspend = some .mode then { e.2 with suspend := none } else e.2
      (e.1, if y.byMode && y.st == .suspended then { y with st := .active, byMode := false } else y)) }

/-- Entry to CONTINUITY (R279). -/
def State.channelsContinuity (s : State) : State :=
  forEach (List.finRange 64) s (fun c s =>
    if (s.chan c.val).mark then s.setEvents c.val (1 <<< 28) else s.askSuspend .continuity c)

/-! ### Entering and leaving -/

/-- PROVISION, UPDATE, TEST and STANDBY: the modes in which channels are suspended. -/
def Mode.idles : Mode → Bool
  | .provision | .update | .test | .standby => true
  | _ => false

/-- The completions of OFFLINE updates that wait for the return from UPDATE (R459). -/
def State.updatesReturn (s : State) : State := forEach (List.finRange 3) s (fun i s => s.updateComplete i)

/-- TEST ends: the perturbation registers are relocked, and every field is 0 (R429). -/
def State.relock (s : State) : State :=
  ({ s with snuf := { s.snuf with unlockPos := 0, unlocked := false } }).clearRegs 0x400000 0x800000

/-- What leaving a mode does, once the next one is in force. -/
def State.leftMode (s : State) (old : Mode) : State :=
  match old with
  | .night => { s.settleNight with pwr.nightGated := 0 }
  | .standby =>
    let t := (s.swapLate.damageAll).missPassed
    if t.testsRun then t.resumeTests else t
  | .recovery => if s.testsRun then s.damageAll.resumeTests else s.damageAll
  | .update => s.updatesReturn
  | .test => s.relock
  | _ => s

/-- What entering a mode does, once it is in force. -/
def State.enteredMode (s : State) : State :=
  let s1 := if s.pwr.mode.idles then (forEach (List.finRange 64) s (fun c s => s.askSuspend .mode c)).stopTimers
    else if s.pwr.mode.media then s.startTimers.gateForCap else s
  match s1.pwr.mode with
  | .provision => { s1 with pwr := { s1.pwr with base := .service, provisioned := true } }
  | .service | .limited => s1.resumeChannels
  | .night => ((s1.resumeChannels.stepNight).settleNight).retestAll
  | .continuity => (s1.freezeQueues (fun _ => true)).channelsContinuity
  | .standby => (s1.keyNextAll.portsDown (List.range 16)).abandonTests
  | _ => s1

/-- The device enters a mode that has power (R436): it is logged, raises ICU source 280, and is told to the manager. -/
def State.enterMode (s : State) (m : Mode) (cause : ModeCause) (w : Option Master) : State :=
  let old := s.pwr.mode
  let s1 := s.logMode m cause w
  let s2 := { s1 with pwr.mode := m, icu.wanted := m.grouped }
  let s3 := ((s2.leftMode old).enteredMode.settleSchemes).raise 280
  s3.platformEvent 100 m.code old.code

/-! ### PILOT and OFF -/

/-- The offsets of ICU_PILOT_SEL. -/
def isPilotSel (off : Nat) : Bool := decide (0x42000 ≤ off) && decide (off < 0x42080)

/-- The sources of the enabled ICU_PILOT_SEL entries (R410). -/
def State.pilotSelections (s : State) : List Nat :=
  (List.range 32).filterMap (fun k =>
    let v := s.regOr 0 (0x42000 + 4 * k)
    if bit v 31 then some (bits v 9 0) else none)

/-- Power goes: every register, queue and memory is lost but what Table 15-2 keeps, which in PILOT is Pilot's own. The
repairs and retirements of the NVS and of the memories stay (R423). -/
def State.powerDown (s : State) (m : Mode) : State :=
  let pilot := m == .pilot
  let kept : Table (Option Word) := if pilot then s.regs.filter (fun e => isPilotSel e.1) else []
  let z := State.reset
  { z with
    pending := s.pending
    time := { z.time with osc := s.time.osc }
    icu := { z.icu with
      pilotSel := if pilot then s.pilotSelections else []
      pilotCause := if pilot then s.icu.pilotCause else none }
    snuf := { z.snuf with
      retiredCores := s.snuf.retiredCores, retiredLanes := s.snuf.retiredLanes, fences := s.snuf.fences
      spareRows := s.snuf.spareRows, sparedRows := s.snuf.sparedRows, sparedPcs := s.snuf.sparedPcs
      repairs := s.snuf.repairs, degrading := s.snuf.degrading
      isolated := s.snuf.isolated.filter (fun e => decide (0x070 ≤ e.1)) }
    pwr := { z.pwr with
      mode := m, porstN := s.pwr.porstN, warmRstN := s.pwr.warmRstN, perstN := s.pwr.perstN
      pilotFromOff := s.pwr.pilotFromOff, straps := s.pwr.straps, clocksLost := s.pwr.clocksLost
      brownOut := pilot && s.pwr.brownOut, vinBack := pilot && s.pwr.vinBack
      wakesFrom := if pilot then s.pwr.wakesFrom else 0
      releaseHeld := if pilot then s.pwr.releaseHeld else none, pilotAt := s.now, pilotTiming := true }
    nvs := { s.nvs with writes := [] }
    regs := kept.foldl (fun (t : Table (Option Word)) e => Table.set .none t e.1 e.2) s.nvs.persisted
    host := s.host, rd := s.rd, out := s.out, free := s.free }

/-- The device enters PILOT from a running mode (R458): the cause goes into the shutdown word, and the change to the
log. -/
def State.toPilot (s : State) (word : Nat) (cause : ModeCause) (w : Option Master) : State :=
  let s1 := ((s.abortChange true).abortUpdates true).logMode .pilot cause w
  (s1.shutdownWord word).powerDown .pilot

/-! ### HALT (R427) -/

/-- HALT is ordered. -/
def State.orderHalt (s : State) (origin : HaltOrigin) : State :=
  let s1 := s.abortChange false
  { s1 with snuf := { s1.snuf with
    halt := if s1.snuf.halt = some .jtag then some .jtag else some origin
    live := s1.snuf.live &&& 7 } }

/-! ### RECOVERY (R92, R439) -/

/-- The commands that wait for a close no longer do: RECOVERY completes them with ABORTED. -/
def State.forgetClosers (s : State) : State :=
  { s with
    codec := { s.codec with
      dec := s.codec.dec.map (fun e => (e.1, e.2.map (fun d : DecStream => { d with closer := none })))
      enc := s.codec.enc.map (fun e => (e.1, e.2.map (fun d : EncStream => { d with closer := none }))) }
    cmp.outputs := s.cmp.outputs.map (fun e => (e.1, e.2.map (fun x : Output => { x with closer := none })))
    lmp.chans := s.lmp.chans.map (fun e => (e.1, { e.2 with
      startSlot := none, suspendSlots := [], haltSlots := []
      suspend := if e.2.suspend = some .host then none else e.2.suspend }))
    swc.frames := s.swc.frames.map (fun f : Frame =>
      match f.sender with
      | .slot _ => { f with sender := .firmware }
      | _ => f)
    qm.barriers := [] }

/-- Every accepted entry completes: one whose unit is being reset with DEVICE_FAULT, any other with ABORTED. -/
def State.abortEntries (s : State) (u : Option UnitId) : State :=
  forEach (s.slotList.filter (fun e => e.2.phase == .accepted || e.2.phase == .running)) s (fun e s =>
    let fault : Bool := e.2.phase == .running && match u with
      | some .switch => e.2.op == 0x25
      | _ => false
    s.finish e.1 (if fault then .deviceFault else .aborted) 0 0 none)

/-- What RECOVERY does to the units' jobs: `u` is the unit that the reaction names, whose jobs end with DEVICE_FAULT; the
compositor is always reset (Table 08-7). -/
def State.recoverUnits (s : State) (u : Option UnitId) : State :=
  let on := fun (j : CodecJob) => match u with
    | some (.codec c) => j.cores.contains c.val && j.phase == .running
    | _ => false
  let s1 := (s.forgetClosers.endUpdates .deviceFault (fun _ _ _ => true)).cmpReset
  let s2 := s1.endJobs .deviceFault on
  let s3 := s2.endJobs .aborted (fun _ => true)
  let s4 := s3.withdrawSends (fun _ _ => true) (if u = some .switch then .deviceFault else .aborted)
  let s5 := s4.abortEntries u
  let s6 := match u with
    | some v => s5.resetUnit v
    | none => s5
  (s6.codecRecovery.auditRestart)

/-- Updates that RECOVERY interrupts complete with ABORTED (R439). -/
def State.recoverUpdates (s : State) : State := (s.abortUpdates false).updatesReturn

/-- RECOVERY is ordered by a fault source: in RECOVERY, or within 10 s of its end, it is carried out as HALT; in BOOT it
restarts the start from step 2, once (R439). -/
def State.orderRecovery (s : State) (src : Nat) : State :=
  if s.halted then s
  else
    let soon : Bool := match s.snuf.recoveryEnded with
      | some t => decide (s.now < 10000 * millisecond + t)
      | none => false
    match s.pwr.mode with
    | .off | .pilot => s
    | .boot =>
      if s.pwr.bootStep < 3 then s
      else if s.pwr.restartUsed then s.orderHalt .ordered
      else { s with pwr := { s.pwr with bootStep := 2, restartUsed := true, timeWaitEnd := none } }
    | m =>
      if m = .recovery ∨ soon then s.orderHalt .ordered
      else
        let s1 := (s.abortChange false).enterMode .recovery .reaction none
        let s2 := { s1 with pwr.recFrom := m, snuf.recoveryAt := some s1.now }
        let s3 := (s2.unitAbort.abandonTests.recoverUnits (unitOf src)).recoverUpdates
        if src = 0x060 then s3.timeUnitReset else s3

/-- The mode that follows RECOVERY (R439). -/
def State.afterRecovery (s : State) : Mode :=
  match s.pwr.recFrom with
  | .standby => .standby
  | .service | .night | .limited | .continuity => s.resolved
  | _ => .provision

/-- RECOVERY has ended: the mode that follows is entered. -/
def State.leaveRecovery (s : State) : State :=
  let m := s.afterRecovery
  let s1 := s.enterMode m .reaction none
  let s2 := if s1.qm.hostLost && m != .continuity then s1.freezeQueues (fun _ => true) else s1
  { s2 with snuf := { s2.snuf with recoveryAt := none, recoveryEnded := some s2.now } }

/-! ### Changes of mode in time (R436) -/

/-- A change takes effect: the mode it names, or that R435 resolves, is entered, and its requester is answered. -/
def State.takeChange (s : State) (c : ModeChange) : State :=
  let s0 := { s with pwr.change := none }
  if s0.pwr.mode = .recovery then s0.leaveRecovery
  else
    match c.target with
    | some .pilot => s0.toPilot (if s0.pwr.brownOut then 2 else 1) c.cause c.master
    | t =>
      let m := t.getD s0.resolved
      let s1 := if m = s0.pwr.mode then s0 else s0.enterMode m c.cause c.master
      s1.answerMode c.requester c.asked .ok m.code none

/-- The elapsed time of the next tick of group A. -/
def State.nextTickA (s : State) : Nat := s.now + (s.tickTime 0 (s.nextTick 0) - s.fullTime).toNat

/-- A change is to take effect: `ms` are the exit and entry times counted from now that are not ticks, and `tick` says
that it takes effect at the first tick of group A from then on; `late` that it is the later of that time and the next
tick. -/
def State.planChange (s : State) (target : Option Mode) (cause : ModeCause) (r : Option Requester) (asked ms : Nat)
    (tick late : Bool) : State :=
  let due := s.now + millisecond * ms
  let atTick := tick || (late && decide (due ≤ s.nextTickA))
  { s with pwr.change := some ⟨target, cause, r, r.map s.requesterMaster, asked, due, atTick⟩ }

/-- The modes that may be requested in a mode (Table 15-1). -/
def State.mayRequest (s : State) (m : Mode) (command : Bool) : Bool :=
  match s.pwr.mode, m with
  | .provision, .service | .provision, .night | .provision, .test | .provision, .standby | .provision, .pilot => true
  | .service, .provision | .service, .standby | .service, .pilot | .service, .night => true
  | .night, .provision | .night, .standby | .night, .pilot | .night, .service => true
  | .limited, .service | .limited, .night | .continuity, .service | .continuity, .night => true
  | .standby, .pilot => !command
  | .standby, t => !command && t == s.pwr.left
  | .test, .provision => true
  | _, _ => false

/-- The mode with a number. -/
def modeOf (n : Nat) : Option Mode :=
  [Mode.off, .pilot, .boot, .provision, .service, .night, .limited, .continuity, .standby, .recovery, .update,
    .test][n]?

/-- An allowed request is planned (Table 15-1). -/
def State.planRequest (s : State) (m : Mode) (r : Requester) (n : Nat) : State :=
  let plan := fun (t : State) (target : Option Mode) (ms : Nat) (tick late : Bool) =>
    t.planChange target .request (some r) n ms tick late
  match s.pwr.mode, m with
  | _, .pilot =>
    let s1 := plan s (some .pilot) 100 false false
    let s2 := { s1 with pwr.change := s1.pwr.change.map (fun c : ModeChange => { c with requester := none }) }
    s2.answerMode (some r) n .ok 1 none
  | .standby, _ =>
    let t := match m with
      | .service | .night => { s with pwr.base := m }
      | _ => s
    plan t (if m = .provision then some .provision else none) 200 true false
  | .test, _ => plan s (some m) 1 true false
  | _, .service | _, .night => plan { s with pwr.base := m } none 0 true false
  | _, .standby => plan { s with pwr.left := s.pwr.mode } (some m) 50 false true
  | _, .test => plan s (some m) 1 false true
  | _, _ => plan s (some m) 0 true false

/-- A mode request that R28 settles against an earlier one has not completed while it waits. -/
def State.modeDone (s : State) (o : Order) : Bool :=
  match s.pwr.change with
  | some c => match c.requester with
    | some _ => decide (c.master ≠ some o.master)
    | none => true
  | none => true

/-- The request that waits completes with CONFLICT and has no effect. -/
def State.modeLoses (s : State) (_ : Order) : State :=
  match s.pwr.change with
  | some c => { s with pwr.change := none }.answerMode c.requester c.asked .conflict 0 none
  | none => s

/-- A mode is requested (R437). Commands and out-of-band orders meet R28; register writes do not (R29). -/
def State.requestMode (s0 : State) (n : Nat) (r : Requester) : State :=
  let s := { s0 with qm := { s0.qm with modeReq := n, modeReqPending := true, modeReqStatus := 0 } }
  let command := match r with
    | .command _ => true
    | _ => false
  let plain := match r with
    | .register _ => true
    | _ => false
  let m := s.requesterMaster r
  let op := if command then 0x07 else 0
  let (loses, s1) := if plain then (false, s) else s.contest .mode n m op s.modeDone (fun o t => t.modeLoses o)
  let s2 := { s1 with qm := { s1.qm with modeReq := n, modeReqPending := true, modeReqStatus := 0 } }
  let refuse := fun (st : Status) (d : Option Nat) => s2.answerMode (some r) n st 0 d
  if loses then refuse .conflict (some 0)
  else if modeOf n = some s2.pwr.mode then (s2.answerMode (some r) n .ok n none).keepOrder .mode n m op 0
  else if s2.changing then refuse .busy none
  else
    match modeOf n with
    | some t => if s2.mayRequest t command then (s2.planRequest t r n).keepOrder .mode n m op 0
      else refuse .notPermitted (if command then some 24 else none)
    | none => refuse .notPermitted (if command then some 24 else none)

/-- STANDBY is left by an edge of PILOT_WAKE (Table 15-1). -/
def State.wakeStandby (s : State) : State :=
  if s.pwr.mode = .standby ∧ !s.changing then
    s.planChange (if s.pwr.left = .provision then some .provision else none) .wake none 0 200 true false
  else s

/-- MODE_TRANSITION_END: the entry time of a change that waits for no tick has passed. -/
def State.transitionEnd (s : State) : State :=
  if (s.halted || s.pwr.inWarmReset) && !s.pwr.brownOut then s
  else
    match s.pwr.change with
    | some c => if c.atTick then s else (s.advanceTo c.dueAt).takeChange c
    | none => s

/-- A tick of group A, after the actions of R16: a change that waits for it takes effect, or the mode that R435
resolves (R435, R436). -/
def State.modeTick (s : State) : State :=
  let due : Option ModeChange := s.pwr.change.filter (fun c => c.atTick && decide (c.dueAt ≤ s.now))
  match due with
  | some c => s.takeChange c
  | none =>
    if s.pwr.mode.media && s.resolved != s.pwr.mode then
      let cause : ModeCause := match s.pwr.mode with
        | .continuity => .handover
        | .limited => .capEnds
        | _ => .capBegins
      s.enterMode s.resolved cause none
    else if s.updateDue then
      if s.pwr.mode = .update then
        s.enterMode (if s.pwr.left = .provision then .provision else s.resolved) .update none
      else { s with pwr.left := s.pwr.mode }.enterMode .update .update none
    else s

/-! ### Host loss and the handover (R87, R91, R283) -/

/-- Host loss is declared. -/
def State.declareHostLoss (s : State) : State :=
  if !s.live || s.qm.hostLost then s
  else
    let s1 := { s with qm.hostLost := true }.raise 288
    match s1.pwr.mode with
    | .service | .night | .limited => s1.enterMode .continuity .hostLoss none
    | .recovery => s1
    | _ => s1.freezeQueues (fun _ => true)

/-- The handover takes effect at a tick of group A (R283): the flag of `lmp.handover` is RESET. -/
def State.takeHandover (s : State) : State :=
  match s.lmp.handover with
  | none => s
  | some reset =>
    let s0 := { s with lmp.handover := none }
    if !s0.qm.hostLost then s0
    else if reset then
      let s1 := forEach (List.range 16) s0 (fun f s => s.resetFunction f)
      let s2 := forEach (List.finRange 64) s1 (fun c s => s.wipeChannel c)
      { s2 with qm.hostLost := false }
    else
      let s1 := s0.resumeQueues (fun f => !s0.qm.vfLost.getLsbD f)
      let s2 := { s1 with qm.hostLost := false }
      forEach (List.finRange 64) s2 (fun c s => if (s.chan c.val).mark then s.setEvents c.val (1 <<< 27) else s)

end Sys2Proof.Machine
end

