-- ==== Sys2Proof/Machine/HostLink.lean ====
section
/-!
DEFINITION. Machine/HostLink.lean: the PCIe link, the heartbeats, host loss, the reset of a function and its admin queue,
and the handover (R85 to R91, R94, R282, R283, R474).
-/
namespace Sys2Proof.Machine

/-! ### The link (R87, R474) -/

/-- The link is down, and host loss is declared (R87); the address of the fault is that of port 0. -/
def State.linkDown (s : State) : State :=
  if s.qm.linkUp then
    ({ s with qm := { s.qm with linkUp := false, linkWidth := 0, linkSpeed := 0 } }.fault 0x0A0 4 0).declareHostLoss
  else s

/-- The greatest width that the straps allow (Table 16-3). -/
def State.strapWidth (s : State) : Nat :=
  match s.pwr.straps.toNat % 4 with
  | 1 => 8 | 2 => 4 | _ => 16

/-- The PCIe port has power: boot step 2 has ended (R474). -/
def State.pcieUp (s : State) : Bool :=
  match s.pwr.mode with
  | .off | .pilot => false
  | .boot => decide (3 ≤ s.pwr.bootStep) || s.pwr.warm
  | _ => true

/-- PCIE_LINK_UP: the link has trained to a width and a rate (R474). -/
def State.linkTrains (s : State) (width speed : Nat) : State :=
  if s.pcieUp && s.pwr.perstN && !s.pwr.clocksLost.getLsbD 3 && [4, 8, 16].contains width
      && decide (width ≤ s.strapWidth) && decide (1 ≤ speed) then
    { s with qm := { s.qm with linkUp := true, linkWidth := width, linkSpeed := speed } }
  else s

/-! ### Heartbeats (R87, R90) -/

/-- The stored timeout of a function: QMGR_HB_CFG, or VF_HB_TIMEOUT of its status page. -/
def State.hbRaw (s : State) (f : Nat) : Nat :=
  bits (if f = 0 then s.regOr 0 0x20024 else s.regOr 0 (f * 0x1000000 + 0x4028)) 16 0
/-- The timeout in DTS units: 0 for none, 1 to 9 act as 10 ms, values above 60,000 as 60,000 (Table 03-10). -/
def State.hbTime (s : State) (f : Nat) : Nat :=
  if s.hbRaw f = 0 then 0 else millisecond * min 60000 (max 10 (s.hbRaw f))
/-- A function's last heartbeat, or the start of its timeout. -/
def State.lastBeat (s : State) (f : Nat) : Nat := Table.get 0 s.qm.beats f
/-- A heartbeat, or the start of a timeout. -/
def State.beat (s : State) (f : Nat) : State := { s with qm.beats := Table.set 0 s.qm.beats f s.now }

/-- HEARTBEAT_TIMEOUT. -/
def State.hostTimeout (s : State) : State :=
  if s.live && s.hbTime 0 != 0 && !s.qm.hostLost then (s.advanceTo (s.lastBeat 0 + s.hbTime 0)).declareHostLoss else s

/-- VF_HEARTBEAT: the function's queues resume, unless host loss holds them (R90). -/
def State.vfBeat (s : State) (f : Nat) : State :=
  let s1 := s.beat f
  if s.qm.vfLost.getLsbD f then
    let s2 := { s1 with qm.vfLost := s1.qm.vfLost &&& ~~~((1 : BitVec 16) <<< f) }
    if s2.qm.hostLost then s2 else s2.resumeQueues (fun g => g == f)
  else s1

/-- VF_HEARTBEAT_TIMEOUT: only the function's queues freeze (R90). -/
def State.vfTimeout (s : State) (f : Nat) : State :=
  if s.live && f != 0 && s.hbTime f != 0 && !s.qm.vfLost.getLsbD f then
    let s1 := s.advanceTo (s.lastBeat f + s.hbTime f)
    let s2 := { s1 with qm := { s1.qm with
      fnLost := s1.qm.fnLost ||| (1 <<< f), vfLost := s1.qm.vfLost ||| (1 <<< f) } }
    (s2.freezeQueues (fun g => g == f)).raise 288
  else s

/-! ### The admin queue (R94) -/

/-- Where a function's admin registers lie: the offset of QMGR_CTRL, or of VF_CTRL in its status page. -/
def aqKey (f : Nat) : Nat := if f = 0 then 0x20000 else f * 0x1000000 + 0x4004
/-- EN. -/
def State.aqEn (s : State) (f : Nat) : Bool := bit (s.regOr 0 (aqKey f)) 0
/-- The offset of the base and size registers: ASQ, ACQ and AQ_SIZE follow one another. -/
def aqBase (f : Nat) : Nat := if f = 0 then 0x20008 else f * 0x1000000 + 0x4010
/-- The base of the admin submission ring. -/
def State.asq (s : State) (f : Nat) : Nat := s.regOr 0 (aqBase f) + 2 ^ 32 * s.regOr 0 (aqBase f + 4)
/-- The base of the admin completion ring. -/
def State.acq (s : State) (f : Nat) : Nat := s.regOr 0 (aqBase f + 8) + 2 ^ 32 * s.regOr 0 (aqBase f + 12)
/-- SQ_N, the slots less one. -/
def State.aqSqN (s : State) (f : Nat) : Nat := bits (s.regOr 0 (aqBase f + 16)) 15 0
/-- CQ_M, the completions less one. -/
def State.aqCqM (s : State) (f : Nat) : Nat := bits (s.regOr 0 (aqBase f + 16)) 30 16
/-- The admin rings' registers are illegal. -/
def State.aqIllegal (s : State) (f : Nat) : Bool :=
  s.aqSqN f == 0 || s.aqCqM f == 0 || s.asq f % 4096 != 0 || s.acq f % 4096 != 0

/-- The admin queue and its ring are created, unless the function is still being reset. It is not held to SQ_MAX and CQ_MAX;
its ring has vector 0 and AGG_COUNT and AGG_TIME 0, and the queue is not ORDERED (DESIGN CHOICE, assumption 34). -/
def State.createAdmin (s : State) (f : Nat) : State :=
  if s.qm.resetting.getLsbD f || (s.sq (qKey f 0)).state != .absent then s
  else
    (s.setSq (qKey f 0) { Sq.absent with state := .active, base := s.asq f, size := s.aqSqN f + 1 }).setCq (qKey f 0)
      { Cq.absent with state := .active, base := s.acq f, size := s.aqCqM f + 1 }

/-- ADMIN_QUEUE_ENABLE: EN is set. -/
def State.adminEnable (s : State) (f : Nat) : State :=
  if s.bar0 0x20000 && s.qmRuns && !s.aqEn f then
    let s1 := s.setReg (aqKey f) 1
    if s1.aqIllegal f then { s1 with qm.aqErr := s1.qm.aqErr ||| (1 <<< f) } else { s1 with qm.aqPending := s1.qm.aqPending ||| (1 <<< f) }.createAdmin f
  else s

/-- ADMIN_QUEUE_READY: the queue that a setting of EN asked for has been created, and RDY becomes 1. -/
def State.adminReady (s : State) (f : Nat) : State :=
  if s.qmRuns && s.qm.aqPending.getLsbD f && !s.qm.resetting.getLsbD f then
    let s1 := s.createAdmin f
    { s1 with
      qm.rdy := s1.qm.rdy ||| (1 <<< f)
      qm.aqPending := s1.qm.aqPending &&& ~~~((1 : BitVec 16) <<< f) }
  else s

/-- AQ_ERR and the overrun count of a function are cleared, and its queues and objects are reset (R49, R85, R94). -/
def State.adminReset (s : State) (f : Nat) : State :=
  { s with
    qm.aqErr := s.qm.aqErr &&& ~~~((1 : BitVec 16) <<< f)
    time.overruns := Table.set 0 s.time.overruns f 0 }.resetFunction f

/-- ADMIN_QUEUE_DISABLE: EN is cleared. -/
def State.adminDisable (s : State) (f : Nat) : State :=
  if s.bar0 0x20000 && s.qmRuns && s.aqEn f then (s.setReg (aqKey f) 0).adminReset f else s

/-- FUNCTION_LEVEL_RESET (R85, R94). -/
def State.flr (s : State) (f : Nat) : State :=
  if !s.qmRuns then s
  else if f = 0 then (((s.clearRegs 0x20000 0x20001).clearRegs 0x20008 0x2001C)).adminReset 0
  else
    let s1 := s.clearRegs (f * 0x1000000) ((f + 1) * 0x1000000)
    { s1 with qm.fnLost := s1.qm.fnLost &&& ~~~((1 : BitVec 16) <<< f) }.adminReset f

/-! ### Rows -/

/-- PCIE_LINK_DOWN. -/
def execPcieLinkDown (s : State) : Host.Outcome State Fault Refusal := .next s.linkDown
/-- PCIE_LINK_UP. -/
def execPcieLinkUp (width : Fin 17) (speed : Fin 6) (s : State) : Host.Outcome State Fault Refusal :=
  .next (s.linkTrains width.val speed.val)
/-- PCIE_PERST_N_ASSERT: the port is reset, and host loss is declared (R474). -/
def execPciePerstNAssert (s : State) : Host.Outcome State Fault Refusal :=
  .next ({ s with pwr.perstN := false }.linkDown.declareHostLoss)
/-- QMGR_HEARTBEAT. -/
def execQmgrHeartbeat (m : Master) (_v : Word) (s : State) : Host.Outcome State Fault Refusal :=
  .next (if s.access m 0x20020 && s.live then s.beat 0 else s)
/-- HEARTBEAT_TIMEOUT. -/
def execHeartbeatTimeout (s : State) : Host.Outcome State Fault Refusal := .next s.hostTimeout
/-- VF_HEARTBEAT. -/
def execVfHeartbeat (f : Fin 16) (_v : Word) (s : State) : Host.Outcome State Fault Refusal :=
  .next (if s.bar0 0x20000 && s.live && f.val != 0 then s.vfBeat f.val else s)
/-- VF_HEARTBEAT_TIMEOUT. -/
def execVfHeartbeatTimeout (f : Fin 16) (s : State) : Host.Outcome State Fault Refusal := .next (s.vfTimeout f.val)
/-- FUNCTION_LEVEL_RESET. -/
def execFunctionLevelReset (f : Fin 16) (s : State) : Host.Outcome State Fault Refusal := .next (s.flr f.val)
/-- ADMIN_QUEUE_ENABLE. -/
def execAdminQueueEnable (f : Fin 16) (s : State) : Host.Outcome State Fault Refusal := .next (s.adminEnable f.val)
/-- ADMIN_QUEUE_DISABLE. -/
def execAdminQueueDisable (f : Fin 16) (s : State) : Host.Outcome State Fault Refusal := .next (s.adminDisable f.val)
/-- ADMIN_QUEUE_READY. -/
def execAdminQueueReady (f : Fin 16) (s : State) : Host.Outcome State Fault Refusal := .next (s.adminReady f.val)

/-- A handover is written: it takes effect at the next tick of group A, and is ignored while no host loss stands
(R283). -/
def State.handover (s : State) (m : Master) (v : Word) (action : Nat) : State :=
  if s.access m 0xE0004 && s.live && s.qm.hostLost && bits v.toNat 1 0 == action then
    { s with lmp.handover := some (action == 2) }
  else s

/-- HANDOVER_RESUME. -/
def execHandoverResume (m : Master) (v : Word) (s : State) : Host.Outcome State Fault Refusal := .next (s.handover m v 1)
/-- HANDOVER_RESET. -/
def execHandoverReset (m : Master) (v : Word) (s : State) : Host.Outcome State Fault Refusal := .next (s.handover m v 2)

end Sys2Proof.Machine
end

