-- ==== Sys2Proof/Machine/Snuffer.lean ====
section
/-!
DEFINITION. Machine/Snuffer.lean: fault messages, windows and reactions, FLICKER, retests, the test perturbations and the
interrupt controller (R402 to R430).
-/
namespace Sys2Proof.Machine

/-! ### Windows and reactions (R415 to R418) -/

/-- SNUF_SRC_CFG of a source; sources from 256 on have no register, and take the values of R418. -/
def State.srcRule (s : State) (src : Nat) : Nat :=
  if src < 256 then s.regOr (snufReset src).1 (0x51000 + 8 * src) else 0x1101
/-- SNUF_SRC_WIN of a source in DTS units. -/
def State.srcWindow (s : State) (src : Nat) : Nat :=
  millisecond * (if src < 256 then bits (s.regOr (snufReset src).2 (0x51004 + 8 * src)) 15 0 else 1000)
/-- N of a source: 0 acts as 1. -/
def State.srcN (s : State) (src : Nat) : Nat := max 1 (bits (s.srcRule src) 7 0)

/-- The minimum reaction of a kind (R417): WATCHDOG, HDR_LOCKUP and LOCKUP. -/
def kindLeast (src kind : Nat) : Nat :=
  if 0x010 ≤ src ∧ src ≤ 0x017 ∧ (kind = 5 ∨ kind = 7) then 5
  else if src = 0x001 ∧ (kind = 1 ∨ kind = 2) then 5
  else if 0x050 ≤ src ∧ src ≤ 0x053 ∧ kind = 2 then 5
  else 0

/-- WINDOW and DOMAIN_RESET are always LOG and are not counted (R415, R417). -/
def kindExempt (src kind : Nat) : Bool :=
  (decide (0x010 ≤ src) && decide (src ≤ 0x017) && kind == 1) || (src == 0x0C0 && kind == 3)

/-- A window whose end has come is closed (R415). -/
def State.closeWindow (s : State) (src : Nat) (t : DWord) : State :=
  let w := s.win src
  match w.start with
  | some b =>
    if (s.srcWindow src : Int) ≤ (t - b).toInt then s.setWin src { w with start := none, count := 0, severe := false } else s
  | none => s

/-- A message is counted in its source's window (R415); an auditor kind makes its source severe at once (R417). -/
def State.countFault (s : State) (m : FaultMsg) : State :=
  let src := m.source.toNat
  let s1 := s.closeWindow src m.dts
  let w := s1.win src
  let w1 := { w with events := satInc 0xFFFF w.events }
  if kindExempt src m.kind.toNat then s1.setWin src w1
  else
    let n := satInc 255 w1.count
    let severe := w1.severe || decide (s1.srcN src ≤ n) || src == 0x0D0
    let s2 := s1.setWin src { w1 with start := some (w1.start.getD m.dts), count := n, severe := severe }
    if severe && !w1.severe then s2.raise 1 else s2

/-- The reaction to a message that has been counted (R416). -/
def State.reactionTo (s : State) (m : FaultMsg) (least : Nat) : Nat :=
  let src := m.source.toNat
  if kindExempt src m.kind.toNat then 0
  else
    let base := bits (s.srcRule src) 10 8
    let severe := if (s.win src).severe then bits (s.srcRule src) 14 12 else 0
    max (max base severe) (max (kindLeast src m.kind.toNat) least)

/-- A reaction stronger than NOTIFY is carried out (Table 14-6). -/
def State.react (s : State) (m : FaultMsg) (code : Nat) : State :=
  let src := m.source.toNat
  match code with
  | 2 => if 0x010 ≤ src ∧ src ≤ 0x017 then s.coreRetry (src - 0x010) else s
  | 3 => s.isolate src m.address.toNat
  | 4 => match s.implicated src m.kind.toNat m.address.toNat with
    | some r => s.lasting r
    | none => s
  | 5 => match unitOf src with
    | some u => s.resetUnit u
    | none => s.orderRecovery src
  | 6 => s.orderRecovery src
  | 7 => s.orderHalt .ordered
  | _ => s

/-- A message is accepted: counted, recorded, tested and reacted to (R411, R415, R416, R421). `least` is a minimum
reaction that the message's origin sets. -/
def State.accept (s : State) (m : FaultMsg) (least : Nat) : State :=
  let src := m.source.toNat
  let kind := m.kind.toNat
  let s1 := s.countFault m
  let corrected := decide (0x070 ≤ src) && decide (src ≤ 0x081) && kind == 1
  let s2 := if corrected then { s1 with snuf.corrected := incWord s1.snuf.corrected } else s1
  let code := s2.reactionTo m least
  let r := s2.implicated src kind m.address.toNat
  let test : Bool := match r with
    | some x => code != 7 && !s2.tested x && !s2.outOfService x
    | none => false
  let flags := b2n (s2.win src).severe + 2 * b2n test + 16 * b2n m.overflow + 32 * b2n m.part
  let s3 := s2.keepRecord ⟨m.dts, m.address, m.source, m.kind, BitVec.ofNat 8 flags, BitVec.ofNat 8 code,
    BitVec.ofNat 8 (min 255 (s2.win src).count), 0⟩
  let s4 := if 1 ≤ code then s3.raise 0 else s3
  let s5 := match test, r with
    | true, some x => s4.startTest x (some m)
    | _, _ => s4
  ({ s5 with snuf.lastAccept := s5.now }).react m code

/-- Of the messages at the head of the queue that arrived together the one of lowest source ID (R414). -/
def headMessage : List FaultMsg → Option FaultMsg
  | [] => none
  | h :: t => some ((t.takeWhile (fun m => m.dts == h.dts)).foldl (fun a b => if b.source < a.source then b else a) h)

/-- The Snuffer accepts the next message of its queue. -/
def State.acceptNext (s : State) : State :=
  if !s.collectorRuns || s.halted || s.pwr.inWarmReset then s
  else
    match headMessage s.snuf.queue with
    | none => s
    | some m => ({ s with snuf.queue := s.snuf.queue.erase m }).accept m 0

/-- SEVERITY_WINDOW_END. -/
def State.windowEnd (s : State) (src : Nat) : State :=
  match (s.win src).start with
  | none => s
  | some b =>
    let left := (s.srcWindow src : Int) - (s.time.dts - b).toInt
    (s.advanceDts left.toNat).closeWindow src (b + BitVec.ofNat 64 (s.srcWindow src))

/-! ### HALT and FLICKER (R427, R428) -/

/-- SNUF_HALT: a write of HALT orders HALT, and is recorded as HALT_REQUEST. -/
def State.snufHalt (s : State) (m : Master) (v : Word) : State :=
  if s.access m 0x50004 && bit v.toNat 0 && !s.halted then
    s.accept ⟨0x000, 0x02, 0, s.time.dts, false, false⟩ 7
  else s

/-- The liveness checks 1 to 3 of Table 14-10; check 4 follows the Lantern core's watchdog and HALT. -/
def State.liveChecks (s : State) : BitVec 4 :=
  let beats := (List.finRange 13).all (fun c => !(s.wc c).locked || (s.wc c).halted || !s.wickUp c)
  let due := s.tickTime 0 (s.nextTick 0) + (s.periodUnits 0 : Int)
  let ticks := !s.live || decide (s.fullTime ≤ due)
  let queue := s.snuf.queue.isEmpty || decide (s.now ≤ millisecond + s.snuf.lastAccept)
  BitVec.ofNat 4 (b2n beats + 2 * b2n ticks + 4 * b2n queue + 8 * b2n (!s.snuf.flickerFrozen && !s.halted))

/-- FLICKER_TOGGLE: 1 ms after the last toggle every check is looked at: FLICKER toggles where all pass, and a check of 1 to
3 that begins to fail raises source 8. -/
def State.flickerToggle (s0 : State) : State :=
  if !s0.collectorRuns || s0.pwr.inWarmReset || (s0.pwr.mode == .boot && decide (s0.pwr.bootStep < 4)) then s0
  else
    let s := s0.advanceTo (millisecond + s0.snuf.flickerAt)
    let l := s.liveChecks
    let failing := ~~~l &&& s.snuf.live &&& 7
    let s1 := { s with snuf := { s.snuf with live := l, flickerAt := s.now } }
    let s2 := forEach (List.range 3) s1 (fun k s => if failing.getLsbD k then s.raise 8 else s)
    if l == 15 && !s2.snuf.flickerFrozen then { s2 with snuf.flicker := !s2.snuf.flicker } else s2

/-- LANTERN_WATCHDOG: the watchdog expires (Table 14-10, check 4). -/
def State.lanternWatchdog (s : State) : State :=
  if s.collectorRuns && !s.pwr.inWarmReset && !s.halted then
    (({ s with snuf := { s.snuf with live := s.snuf.live &&& 7, flickerFrozen := true } }).raise 8).fault 0x001 1 0
  else s

/-! ### Retests (R424) -/

/-- The resource that a SNUF_RETEST write names, if it is out of service. -/
def State.retestOf (s : State) (kind index : Nat) : Option Resource :=
  match kind with
  | 0 => if h : index < 8 then
      if s.snuf.retiredCores.getLsbD index then some (.core ⟨index, h⟩) else none
    else none
  | 1 => if h : index < 16 then
      if s.snuf.retiredLanes.getLsbD index then some (.lane ⟨index, h⟩) else none
    else none
  | 2 => (s.snuf.fences[index]?).map (fun e => .sramRow (Fin.ofNat 16 e.1) e.2)
  | _ => match s.snuf.isolated.find? (fun e => e.1 == index) with
    | some e => some (if 0x070 ≤ e.1 then .sramRow (Fin.ofNat 16 (e.1 - 0x070)) e.2 else .isolated e.1 e.2)
    | none => none

/-- SNUF_RETEST. -/
def State.snufRetest (s : State) (m : Master) (v : Word) : State :=
  if !s.access m 0x50090 || !bit v.toNat 31 || s.snuf.retestResult == 1 || s.halted then s
  else
    match s.retestOf (bits v.toNat 1 0) (bits v.toNat 15 2) with
    | none => { s with snuf := { s.snuf with retestResult := 0, retest := none } }
    | some r => { s.startRetest r with snuf.retest := some r, snuf.retestResult := 1 }

/-- The test of a resource that runs. -/
def State.testOf (s : State) (r : Resource) : Option SelfTest :=
  s.snuf.tests.find? (fun t => t.resource == r && !t.abandoned)

/-- SELF_TEST_END: a test ends after its time; one that is abandoned does not end, and a core under a unit reset ends its
test with that reset. -/
def State.testEnds (s : State) (r : Resource) (pass : Bool) : State :=
  if !s.collectorRuns || s.halted || s.pwr.inWarmReset || !s.testsRun then s
  else
    match s.testOf r with
    | none => s
    | some t =>
      let busy : Bool := match r with
        | .core c => s.snuf.resets.contains (.codec c)
        | _ => false
      if busy then s
      else
        let s1 := s.advanceTo (t.startedAt + testTime r)
        if t.msg.isSome then s1.selfTestEnd r pass else s1.retestEnd r pass

/-- PSEUDO_CHANNEL_SPARED: the copy to the spare has ended (Table 14-9). -/
def State.channelSpared (s : State) (st : Fin 2) (pc : Fin 32) : State :=
  let k := (st.val, pc.val)
  if s.snuf.copyingPcs.contains k && s.collectorRuns && !s.halted && !s.pwr.inWarmReset then
    let r := Resource.pseudoChannel st pc
    let s1 := { s with snuf := { s.snuf with
      copyingPcs := s.snuf.copyingPcs.filter (· != k), sparedPcs := s.snuf.sparedPcs ++ [k] } }
    (((s1.fault (0x080 + st.val) 4 pc.val).outcome r 0xF4 0).retirementRecord 2 r).raise 4
  else s

/-! ### Test perturbation (R429, R430) -/

/-- The unlock keys. -/
def testKeys : List Word := [0x00004C5A, 0x00009E3B, 0x00007F10]

/-- TEST_UNLOCK: a write of the next key goes on, any other relocks. -/
def State.testUnlock (s : State) (m : Master) (v : Word) : State :=
  if s.pwr.mode != .test || !s.access m 0x400000 then s
  else if testKeys[s.snuf.unlockPos]? = some v then
    if s.snuf.unlockPos = 2 then
      { s with snuf := { s.snuf with unlockPos := 0, unlocked := true } }.raise 10
    else { s with snuf.unlockPos := s.snuf.unlockPos + 1 }
  else
    let pos := if testKeys[0]? = some v then 1 else 0
    { s with snuf := { s.snuf with unlockPos := pos, unlocked := false } }

/-- Another access to the TEST block breaks an unlock sequence in progress. -/
def State.testTouched (s : State) : State := { s with snuf.unlockPos := 0 }

/-- TEST_INJ_GO: a write with GO sends the message given, as if its source had sent it. -/
def State.testInject (s : State) (m : Master) (v : Word) : State :=
  if !s.access m 0x400070 then s
  else
    let s1 := s.testTouched
    if s.pwr.mode != .test || !s.snuf.unlocked then s1
    else
      let s2 := s1.setReg 0x400070 (BitVec.ofNat 32 (v.toNat % 2 ^ 18))
      if bit v.toNat 31 then
        s2.fault (bits v.toNat 9 0) (bits v.toNat 17 10) (s2.regOr 0 0x400074 + 2 ^ 32 * (s2.regOr 0 0x400078 % 2 ^ 16))
      else s2

/-! ### The interrupt controller (R402 to R409) -/

/-- A claim: the ready source is returned, its pending bit cleared and the source pushed (R403). -/
def State.icuClaim (s : State) (t : Fin 14) : State :=
  match s.readySource t with
  | none => s.setRd 0x80000000
  | some n =>
    let m : BitVec 1024 := ~~~((1 : BitVec 1024) <<< n)
    ({ s with icu := { s.icu with
      pend := s.icu.pend &&& m, claims := s.icu.claims.set t (n :: s.icu.claims[t]) } }.hostCheck).setRd n

/-- A write of ICU_COMPLETE (R404, R407, R408). -/
def State.icuCompleteWrite (s : State) (t : Fin 14) (v : Word) : State :=
  let n := bits v.toNat 9 0
  match s.icu.claims[t] with
  | top :: rest =>
    if top = n then ({ s with icu.claims := s.icu.claims.set t rest }).settleSchemes
    else (({ s with icu.orderErr := true }).fault 0x0B0 1 (n + 65536 * t.val)).raise 9
  | [] => (({ s with icu.orderErr := true }).fault 0x0B0 1 (n + 65536 * t.val)).raise 9

/-- The bits of a write to word `w` as a set of sources. -/
def sourceSet (w : Fin 32) (v : Word) : BitVec 1024 := BitVec.ofNat 1024 v.toNat <<< (32 * w.val)

/-- Change the pending and mask bits (R409). -/
def State.icuBits (s : State) (pend mask : BitVec 1024 → BitVec 1024) : State :=
  { s with icu := { s.icu with pend := pend s.icu.pend, mask := mask s.icu.mask } }.hostCheck

/-- The ICU registers answer: it runs (R431), and the block is reached. -/
def State.icuOpen (s : State) : Bool := s.collectorRuns && s.powered

/-! ### Rows -/

/-- A fault message arrives from a unit, with what it tells of the unit's own state. A codec core keeps the kind of its last
one in CDC_FAULT (R211, Table 07-3), and its sequencer has stopped on a fault of its micro-stack or its stores (R213). A
lookup, traffic or cluster-memory error strikes the entry or the stacks that its address names (Table 11-11, R377, R286;
the layout of those addresses is log entry 38), and a failed NVS record is absent (R454). -/
def State.faultArrives (s : State) (src kind addr : Nat) : State :=
  if 0x10 ≤ src ∧ src < 0x18 ∧ 1 ≤ kind ∧ kind ≤ 7 then
    let c := src - 0x10
    (if 2 ≤ kind ∧ kind ≤ 4 then s.setCore c { s.core c with ustopped := true } else s).coreFault c kind addr
  else
    (if src = 0x01F ∧ kind = 0x40 then s.swcStruck (addr % 8) (addr / 16 % 65536)
    else if src = 0x030 ∧ kind = 1 then s.trfStruck (addr % 8) (addr / 16 % 65536)
    else if 0x050 ≤ src ∧ src < 0x054 ∧ kind = 1 then s.clusterStruck (addr % 2 ^ 21)
    else if src = 0x090 ∧ (kind = 1 ∨ kind = 2) then s.recordFails addr
    else s).fault src kind addr

/-- FAULT_MESSAGE: a message arrives, if one is given, and the Snuffer accepts the next one of its queue. -/
def execFaultMessage (m : Option FaultIn) (s : State) : Host.Outcome State Fault Refusal :=
  .next <|
    let s1 := match m with
      | some x => s.faultArrives x.source.toNat x.kind.toNat x.address.toNat
      | none => s
    s1.acceptNext
/-- SEVERITY_WINDOW_END. -/
def execSeverityWindowEnd (src : Fin 256) (s : State) : Host.Outcome State Fault Refusal := .next (s.windowEnd src.val)
/-- SELF_TEST_END. -/
def execSelfTestEnd (r : Resource) (pass : Bool) (s : State) : Host.Outcome State Fault Refusal := .next (s.testEnds r pass)
/-- UNIT_RESET_END: a codec core's reset ends with CORE_RESET_END. -/
def execUnitResetEnd (u : UnitId) (s : State) : Host.Outcome State Fault Refusal :=
  .next (match u with
    | .codec _ => s
    | _ => if s.halted || s.pwr.inWarmReset then s else s.unitResetEnd u)
/-- CORE_RESET_END. -/
def execCoreResetEnd (c : Fin 8) (pass : Bool) (s : State) : Host.Outcome State Fault Refusal :=
  .next (if s.halted || s.pwr.inWarmReset then s else s.coreResetEnd c pass)
/-- CORE_LEAVES_SERVICE: a core in service is retired, or is reset. -/
def execCoreLeavesService (c : Fin 8) (retired : Bool) (s : State) : Host.Outcome State Fault Refusal :=
  .next <|
    if !s.live then s
    else if retired then s.lasting (.core c)
    else match (s.core c.val).st with
      | .inService | .gated => s.resetUnit (.codec c)
      | _ => s
/-- LAMPLIGHTER_STALL: the core that interprets a channel's CCW has not done so within 1 ms. -/
def execLamplighterStall (k : Fin 4) (c : Fin 64) (s : State) : Host.Outcome State Fault Refusal :=
  .next (if s.chansRun && s.lmp.cores.getLsbD k.val && (s.chan c.val).st == .active then s.fault (0x050 + k.val) 3 0 else s)
/-- LANE_FAULT: a lane of an enabled port loses signal or lock, or fails to train. None is sent while the lane group has
lost its reference clock (R471). -/
def execLaneFault (n : Fin 16) (s : State) : Host.Outcome State Fault Refusal :=
  .next <| match s.lanePort n.val with
    | some p =>
      if s.carriesPorts p && !s.halted && !s.pwr.clocksLost.getLsbD (1 + n.val / 8) then s.fault (0x020 + p) 2 n.val else s
    | none => s
/-- RECOVERY_END: the mode that follows is entered at once, or at the next tick of group A (R436, R439). -/
def execRecoveryEnd (s : State) : Host.Outcome State Fault Refusal :=
  .next <|
    if s.pwr.mode != .recovery || s.halted || s.pwr.inWarmReset || s.pwr.change.isSome then s
    else
      match s.afterRecovery with
      | .service | .night | .provision => s.planChange none .reaction none 0 0 true false
      | _ => s.leaveRecovery
/-- RECOVERY_TIMEOUT: a RECOVERY that has not ended within 1 s is carried out as HALT (R439). -/
def execRecoveryTimeout (s : State) : Host.Outcome State Fault Refusal :=
  .next <| match s.snuf.recoveryAt with
    | some t =>
      if s.pwr.mode != .recovery || s.halted || s.pwr.inWarmReset then s
      else
        let s1 := s.advanceTo (1000 * millisecond + t)
        (s1.keepRecord ⟨s1.time.dts, 0, 0, 1, 0, 7, 0, 0⟩).orderHalt .ordered
    | none => s
/-- SNUF_HALT. -/
def execSnufHalt (m : Master) (v : Word) (s : State) : Host.Outcome State Fault Refusal := .next (s.snufHalt m v)
/-- SNUF_FIRST_CLEAR (R420). -/
def execSnufFirstClear (m : Master) (v : Word) (s : State) : Host.Outcome State Fault Refusal :=
  .next (if s.access m 0x50060 && bit v.toNat 0 then { s with snuf.first := none } else s)
/-- SNUF_RETEST. -/
def execSnufRetest (m : Master) (v : Word) (s : State) : Host.Outcome State Fault Refusal := .next (s.snufRetest m v)
/-- SNUF_CORRECTED_READ: the count is returned and cleared. -/
def execSnufCorrectedRead (s : State) : Host.Outcome State Fault Refusal :=
  .next (if s.bar0 0x50098 then { s.setRd s.snuf.corrected.toNat with snuf.corrected := 0 } else s.setRd 0)
/-- The scrubber reads a word of an SRAM bank other than the on-die pools: a correctable error is corrected, and either kind is
reported, with the byte offset in the bank (R425). -/
def State.scrubBank (s : State) (b w : Nat) : State :=
  let s1 := { s with snuf.sramCorrectable := s.snuf.sramCorrectable.filter (· != (b, w)) }
  let s2 := if s.snuf.sramCorrectable.contains (b, w) then s1.fault (0x070 + b) 1 (8 * w) else s1
  if s.snuf.sramPoison.contains (b, w) then s2.fault (0x070 + b) 2 (8 * w) else s2

/-- PATROL_SCRUB: the scrubber reads a word of DRAM, of the on-die pools (bank 14) or of another SRAM bank, and reports and corrects as
a read does. -/
def execPatrolScrub (bank : Option (Fin 16)) (a : Nat) (s : State) : Host.Outcome State Fault Refusal :=
  .next <|
    if !s.live then s
    else match bank with
      | none => s.devRead (8 * (a / 8)) 8
      | some b => if b = 14 then s.devRead (0x1000000000 + 8 * (a / 8)) 8 else s.scrubBank b.val (a / 8)
/-- FLICKER_TOGGLE. -/
def execFlickerToggle (s : State) : Host.Outcome State Fault Refusal := .next s.flickerToggle
/-- LANTERN_WATCHDOG. -/
def execLanternWatchdog (s : State) : Host.Outcome State Fault Refusal := .next s.lanternWatchdog
/-- PSEUDO_CHANNEL_SPARED. -/
def execPseudoChannelSpared (st : Fin 2) (pc : Fin 32) (s : State) : Host.Outcome State Fault Refusal :=
  .next (s.channelSpared st pc)
/-- TEST_UNLOCK. -/
def execTestUnlock (m : Master) (v : Word) (s : State) : Host.Outcome State Fault Refusal := .next (s.testUnlock m v)
/-- TEST_INJ_GO. -/
def execTestInjGo (m : Master) (v : Word) (s : State) : Host.Outcome State Fault Refusal := .next (s.testInject m v)
/-- ICU_CLAIM_READ. -/
def execIcuClaimRead (t : Fin 14) (s : State) : Host.Outcome State Fault Refusal :=
  .next (if s.icuOpen then s.icuClaim t else s.setRd 0)
/-- ICU_COMPLETE. -/
def execIcuComplete (t : Fin 14) (v : Word) (s : State) : Host.Outcome State Fault Refusal :=
  .next (if s.icuOpen then s.icuCompleteWrite t v else s)
/-- ICU_PEND_SET. -/
def execIcuPendSet (w : Fin 32) (v : Word) (s : State) : Host.Outcome State Fault Refusal :=
  .next (if s.icuOpen then s.icuBits (· ||| sourceSet w v) id else s)
/-- ICU_PEND_CLR. -/
def execIcuPendClr (w : Fin 32) (v : Word) (s : State) : Host.Outcome State Fault Refusal :=
  .next (if s.icuOpen then s.icuBits (· &&& ~~~sourceSet w v) id else s)
/-- ICU_MASK_SET. -/
def execIcuMaskSet (w : Fin 32) (v : Word) (s : State) : Host.Outcome State Fault Refusal :=
  .next (if s.icuOpen then s.icuBits id (· ||| sourceSet w v) else s)
/-- ICU_MASK_CLR. -/
def execIcuMaskClr (w : Fin 32) (v : Word) (s : State) : Host.Outcome State Fault Refusal :=
  .next (if s.icuOpen then s.icuBits id (· &&& ~~~sourceSet w v) else s)

end Sys2Proof.Machine
end

