-- ==== Sys2Proof/Machine/Power.lean ====
section
/-!
DEFINITION. Machine/Power.lean: the sensors and the caps, the supply, the reference clocks, the pins and the wakes
(R410, R436, R442 to R448, R457, R458, R467 to R475, R479, R480).
-/
namespace Sys2Proof.Machine

/-! ### Starting from PILOT (R440) -/

/-- A start begins in PILOT at a boot step: 1 at the release of PORST_N, 2 at a wake or after a brown-out. Every unit is
as its reset leaves it, and BOOT uses the grouped scheme. -/
def State.startBoot (s : State) (step : Nat) (cause : ModeCause) : State :=
  let s1 := s.logMode .boot cause none
  let wake := cause = .wake
  { s1 with
    pwr := { s1.pwr with
      mode := .boot, bootStep := step, warm := false, cold := true, restartUsed := false, fellBack := 0
      timeWaitEnd := none, provisioned := false, brownOut := false, vinBack := false, wakeHeld := false
      pilotFromOff := false, romBad := false, clk32kLost := false, inWarmReset := false }
    icu := { s1.icu with wanted := true, pilotSel := [], pilotCause := if wake then s1.icu.pilotCause else none } }

/-- The release of PORST_N is taken in PILOT: the straps are sampled, Pilot's own registers are at their reset values,
and the device starts at boot step 1 (R440, R472, R475). -/
def State.releaseStart (s : State) (straps : BitVec 4) : State :=
  ({ s with
    regs := s.regs.filter (fun e => !isPilotSel e.1)
    pwr := { s.pwr with straps := straps, releaseHeld := none } }).startBoot 1 .boot

/-- A source that the always-on block can raise is raised in PILOT: the first one starts the wake (R410, R442). A wake is
held while REFCLK_SYS is lost (R471). -/
def State.wakeBy (s : State) (src : Nat) : State :=
  if s.pwr.porstN && decide (s.pwr.wakesFrom ≤ s.now) && !s.pwr.brownOut && !s.pwr.wakeHeld
      && s.icu.pilotSel.contains src then
    let s1 := { s with icu.pilotCause := some src }
    if s1.pwr.clocksLost.getLsbD 0 then { s1 with pwr.wakeHeld := true } else s1.startBoot 2 .wake
  else s

/-- A source of Table 15-4 that Pilot raises: in PILOT it may wake the device, in a running mode it is pending. -/
def State.pilotSource (s : State) (src : Nat) : State := if s.pwr.mode = .pilot then s.wakeBy src else s.raise src

/-! ### Sensors (R443, R446, R447) -/

/-- The sensors are sampled and the caps kept: the Lantern core runs, in BOOT from step 3. -/
def State.sensorsRun (s : State) : Bool := s.collectorRuns && !s.pwr.inWarmReset

/-- A temperature that a working sensor can give: −50 °C to 150 °C, in units of 0.25 °C. -/
def tempGood (t : Option Int) : Option Int := t.filter (fun x => decide (-200 ≤ x) && decide (x ≤ 600))

/-- PWR_TEMP of a sensor: its last reading, and whether it is failed. -/
def State.temp (s : State) (k : Nat) : Int × Bool := Table.get (0, false) s.pwr.temps k

/-- The reading of one temperature sensor: a sensor that has just failed sends SENSOR_FAIL and keeps its reading. -/
def State.takeTemp (s : State) (k : Nat) (t : Option Int) : State :=
  let old := s.temp k
  match tempGood t with
  | some x => { s with pwr.temps := Table.set (0, false) s.pwr.temps k (x, false) }
  | none =>
    let s1 := { s with pwr.temps := Table.set (0, false) s.pwr.temps k (old.1, true) }
    if old.2 then s1 else (s1.fault 0x003 1 k).raise 278

/-- The die sensors that have not failed. -/
def State.dieSensors (s : State) : List Nat := (List.range 12).filter (fun k => !(s.temp k).2)
/-- Tj and the lowest-numbered sensor that gives it; the last ones while every die sensor has failed. -/
def State.hottest (s : State) : Int × Nat :=
  match s.dieSensors with
  | [] => (s.pwr.tj, s.pwr.tjSensor)
  | k :: t => t.foldl (fun b k => if b.1 < (s.temp k).1 then ((s.temp k).1, k) else b) ((s.temp k).1, k)
/-- A DRAM sensor that works reads at or above a temperature. -/
def State.dramAt (s : State) (k : Nat) (t : Int) : Bool := !(s.temp k).2 && decide (t ≤ (s.temp k).1)
/-- The first DRAM sensor at or above 105 °C. -/
def State.dramCap (s : State) : Option Nat := [12, 13].find? (fun k => s.dramAt k 420)
/-- A stack is at double refresh at 95 °C and above; a failed sensor leaves it as it was. -/
def State.refresh (s : State) (i : Nat) : Bool :=
  if (s.temp (12 + i)).2 then s.pwr.dramHot.getLsbD i else s.dramAt (12 + i) 380

/-- The readings go into the sensor registers. -/
def State.takeReading (s : State) (r : SensorReading) : State :=
  let s1 := forEach (List.range 14) s (fun k s => s.takeTemp k ((r.temps[k]?).join))
  let h := s1.hottest
  let hot := BitVec.ofNat 2 (b2n (s1.refresh 0) + 2 * b2n (s1.refresh 1))
  { s1 with pwr := { s1.pwr with
    tj := h.1, tjSensor := h.2, dramHot := hot
    vin := r.vin, iin := r.iin, pin := r.pin, pinPeak := max s1.pwr.pinPeak r.pin
    rails := forEach (List.range 10) s1.pwr.rails (fun k t => match r.rails[k]? with
      | some x => Table.set (0, 0) t k x
      | none => t) } }

/-! ### Caps (R443 to R445) -/

/-- PCAP in mW: values outside 10 to 85 W act as 85 W. -/
def State.powerLimit (s : State) : Nat :=
  let w := bits (s.regOr 0x455 0x60010) 6 0
  1000 * (if 10 ≤ w ∧ w ≤ 85 then w else 85)

/-- More than four die sensors have failed. -/
def State.dieLost (s : State) : Bool := decide (4 < 12 - s.dieSensors.length)
/-- What a thermal cap is called for by, as its CAP_BEGIN names it (Table 15-5). -/
def State.thermalCause (s : State) : Option Nat :=
  if 400 ≤ s.pwr.tj && !s.dieSensors.isEmpty then some s.pwr.tjSensor
  else match s.dramCap with
    | some k => some k
    | none => if s.dieLost then some 0x101 else none

/-- A cap begins: it is reported, and the first of the two gates cores and moves SERVICE and NIGHT to LIMITED. -/
def State.capBegins (s : State) (thermal : Bool) (address : Nat) : State :=
  let first := !s.capped
  let s1 := { s with pwr := { s.pwr with
    thermalCap := s.pwr.thermalCap || thermal, powerCap := s.pwr.powerCap || !thermal
    thermalBelow := if thermal then none else s.pwr.thermalBelow
    powerBelow := if thermal then s.pwr.powerBelow else none } }
  let s2 := (s1.fault 0x003 2 address).raise 276
  let s3 := (s2.platformEvent 101 s2.conditions s.conditions)
  if first then
    let s4 := s3.gateForCap
    match s4.pwr.mode with
    | .service | .night => s4.enterMode .limited .capBegins none
    | _ => s4
  else s3

/-- The caps that the sample calls for begin. -/
def State.checkCaps (s : State) : State :=
  let s1 := { s with pwr.capHeld := s.pwr.capHeld || s.dieLost }
  let s2 := match s1.thermalCause with
    | some a => if s1.pwr.thermalCap then s1 else s1.capBegins true a
    | none => s1
  if s2.powerLimit < s2.pwr.pin && !s2.pwr.powerCap then s2.capBegins false 0x100 else s2

/-- Since when each cap in force has met its release condition. -/
def State.trackCaps (s : State) : State :=
  let cool := decide (s.pwr.tj < 380) && s.dramCap.isNone
  let low := decide (s.pwr.pin < s.powerLimit - 5000)
  { s with pwr := { s.pwr with
    thermalBelow := if s.pwr.thermalCap && cool then some (s.pwr.thermalBelow.getD s.now) else none
    powerBelow := if s.pwr.powerCap && low then some (s.pwr.powerBelow.getD s.now) else none } }

/-- THERM_N is asserted at 105 °C and released below 100 °C (R446). -/
def State.checkTherm (s : State) : State :=
  if s.pwr.thermN && 420 ≤ s.pwr.tj then
    let s1 := (({ s with pwr.thermN := false }).fault 0x003 3 s.pwr.tjSensor).raise 277
    s1.platformEvent 101 s1.conditions s.conditions
  else if !s.pwr.thermN && s.pwr.tj < 400 then
    let s1 := ({ s with pwr.thermN := true }).raise 277
    s1.platformEvent 101 s1.conditions s.conditions
  else s

/-- SENSOR_SAMPLE: at 115 °C the device shuts down, and ignores wakes for 60 s (R442, R446). -/
def State.sample (s : State) (r : SensorReading) : State :=
  if !s.sensorsRun then s
  else
    let s1 := s.takeReading r
    if 460 ≤ s1.pwr.tj && !s1.dieSensors.isEmpty then
      ({ s1 with pwr.wakesFrom := 60 * second + s1.now }).toPilot 3 .shutdown none
    else s1.checkTherm.checkCaps.trackCaps

/-- When a cap is due to end: its release condition has held for 10 s. -/
def State.capDue (s : State) (thermal : Bool) : Option Nat :=
  if thermal then
    if s.pwr.thermalCap && !s.pwr.capHeld then s.pwr.thermalBelow.map (10 * second + ·) else none
  else if s.pwr.powerCap then s.pwr.powerBelow.map (10 * second + ·) else none

/-- A cap ends: once neither is in force, every gated core returns (R209, R445). -/
def State.endCap (s : State) (thermal : Bool) : State :=
  let s1 := { s with pwr := { s.pwr with
    thermalCap := s.pwr.thermalCap && !thermal, powerCap := s.pwr.powerCap && thermal
    thermalBelow := if thermal then none else s.pwr.thermalBelow
    powerBelow := if thermal then s.pwr.powerBelow else none } }
  let s2 := s1.raise 276
  let s3 := s2.platformEvent 101 s2.conditions s.conditions
  if s3.capped then s3 else s3.ungate

/-- CAP_END: the cap that is due first ends. -/
def State.capEnd (s : State) : State :=
  if !s.sensorsRun then s
  else
    match s.capDue true, s.capDue false with
    | some a, some b => if a ≤ b then (s.advanceTo a).endCap true else (s.advanceTo b).endCap false
    | some a, none => (s.advanceTo a).endCap true
    | none, some b => (s.advanceTo b).endCap false
    | none, none => s

/-- CAP_GATE_MORE: a further second with the cap in force gates one more core (R445). -/
def State.capGateMore (s : State) : State :=
  if s.sensorsRun && s.capped && s.pwr.mode.media && decide (1 ≤ s.gatedCount) && decide (s.gatedCount < 7) then
    let s1 := s.advanceTo (second + s.pwr.capStep)
    ({ s1 with pwr.capStep := s1.now }).gateCores 1
  else s

/-! ### The supply (R446, R457, R458) -/

/-- RAIL_FAULT: 0 under-voltage, 1 over-voltage, 2 over-current; the latter two shut the device down. -/
def State.railFault (s : State) (rail kind : Nat) : State :=
  match s.pwr.mode with
  | .off | .pilot => s
  | _ =>
    let s1 := (s.fault 0x002 (kind + 1) rail).raise 278
    if kind = 0 then s1 else s1.toPilot 4 .shutdown none

/-- BROWN_OUT: the load is shed, the record being written is finished, no new record is started, and PILOT follows within 100 ms (R457, R458). -/
def State.brownOut (s : State) : State :=
  match s.pwr.mode with
  | .off | .pilot => s
  | _ =>
    if s.pwr.brownOut then { s with pwr.vinBack := false }
    else
      let s1 := s.abortChange false
      let s2 := { s1 with pwr := { s1.pwr with brownOut := true, vinBack := false } }.portsDown (List.range 16)
      let s3 := s2.finishWrites.shutdownWord 2
      { s3 with pwr.change := some ⟨some .pilot, .shutdown, none, none, 1, 100 * millisecond + s3.now, false⟩ }

/-- The start that follows a brown-out, once the device is in PILOT and VIN has been good for 10 ms (R458). -/
def State.afterBrownOut (s : State) : State :=
  if s.pwr.mode = .pilot && s.pwr.brownOut && s.pwr.vinBack && s.pwr.porstN then s.startBoot 2 .boot else s

/-- VIN_GOOD: VIN has been at or above 2.70 V for 10 ms. From OFF the device enters PILOT 5 ms later, and starts by
itself where PORST_N is high (R436, R472). A strap that no release has sampled is a free value. -/
def State.vinGood (s : State) : State :=
  if s.pwr.mode = .off then
    let s1 := (s.advance (5 * millisecond)).logMode .pilot .boot none
    let s2 := { s1 with pwr := { s1.pwr with mode := .pilot, pilotFromOff := true, pilotAt := s1.now, pilotTiming := true } }
    if !s2.pwr.porstN then s2
    else
      match s2.pwr.releaseHeld with
      | some x => s2.releaseStart x
      | none => s2.drawFree.2.releaseStart (BitVec.ofNat 4 s2.drawFree.1)
  else if s.pwr.brownOut then { s with pwr.vinBack := true }.afterBrownOut
  else s

/-! ### The reset inputs (R472, R479) -/

/-- PORST_N_ASSERT: in any mode but OFF the device returns to PILOT at once, with no record started (R472). -/
def State.porstAssert (s : State) : State :=
  let s1 := { s with pwr := { s.pwr with porstN := false, releaseHeld := none } }
  match s.pwr.mode with
  | .off | .pilot => s1
  | _ => (((s1.abortChange true).abortUpdates true).shutdownWord 6).powerDown .pilot

/-- PORST_N_RELEASE: in PILOT the device starts; in OFF the release is held until PILOT is entered (R472). -/
def State.porstRelease (s : State) (straps : BitVec 4) : State :=
  if s.pwr.porstN then s
  else
    let s1 := { s with pwr.porstN := true }
    match s.pwr.mode with
    | .pilot => s1.releaseStart straps
    | .off => { s1 with pwr.releaseHeld := some straps }
    | _ => s1

/-! ### Reference clocks (R471) -/

/-- The bit of a reference clock. -/
def clockBit : RefClock → Nat
  | .sys => 0 | .eth0 => 1 | .eth1 => 2 | .pcie => 3
/-- The ports of a lane group. -/
def clockPorts : RefClock → List Nat
  | .eth0 => List.range 8
  | .eth1 => (List.range 8).map (· + 8)
  | _ => []
/-- Set or clear a lost clock. -/
def State.setClock (s : State) (r : RefClock) (lost : Bool) : State :=
  let m : BitVec 4 := (1 : BitVec 4) <<< (clockBit r)
  { s with pwr.clocksLost := if lost then s.pwr.clocksLost ||| m else s.pwr.clocksLost &&& ~~~m }

/-- REFCLK_SYS_LOSS: the device shuts down in the manner of a rail fault. -/
def State.sysClockLost (s : State) : State :=
  let s1 := s.setClock .sys true
  match s.pwr.mode with
  | .off | .pilot => s1
  | _ => s1.toPilot 5 .shutdown none

/-- REFCLK_LOSS of another reference: reported with its domain number (R430), 4 for PCIe, 5 and 6 for the lane
groups. -/
def State.clockLost (s : State) (r : RefClock) : State :=
  if r = .sys then s
  else if s.pwr.clocksLost.getLsbD (clockBit r) then s
  else
    let s1 := s.setClock r true
    match r with
    | .pcie => (s1.fault 0x0C0 4 4).linkDown
    | _ => (s1.fault 0x0C0 4 (clockBit r + 4)).portsDown (clockPorts r)

/-- REFCLK_RETURN: a held wake goes on after 10 ms; the ports of a lane group train again. -/
def State.clockBack (s : State) (r : RefClock) : State :=
  if !s.pwr.clocksLost.getLsbD (clockBit r) then s
  else
    let s1 := s.setClock r false
    match r with
    | .sys => if s1.pwr.mode = .pilot && s1.pwr.wakeHeld then (s1.advance (10 * millisecond)).startBoot 2 .wake else s1
    | _ => forEach (clockPorts r) s1 (fun p s =>
      if s.portSt p == .down && s.carriesPorts p && s.live && s.laneClock p then s.leaveUp p .training else s)

/-! ### Wakes (Table 15-4) -/

/-- PILOT_WAKE: an edge of the polarity of PWR_PILOT_CFG.POL; it leaves STANDBY (Table 15-1). -/
def State.wakeEdge (s : State) (rising : Bool) : State :=
  if bit (s.regOr 0 0x600F0) 24 == rising then (if s.live then s.wakeStandby else s).pilotSource 272 else s

/-- PWR_PILOT_CFG.TIMER. -/
def State.pilotTimer (s : State) : Nat := bits (s.regOr 0 0x600F0) 23 0

/-- PILOT_TIMER: the seconds of TIMER have passed since PILOT was entered. -/
def State.timerWake (s : State) : State :=
  if s.pwr.mode = .pilot && s.pilotTimer != 0 && s.pwr.pilotTiming then
    { s.advanceTo (s.pwr.pilotAt + second * s.pilotTimer) with pwr.pilotTiming := false }.wakeBy 273
  else s

/-! ### Rows -/

/-- SENSOR_SAMPLE. -/
def execSensorSample (r : SensorReading) (s : State) : Host.Outcome State Fault Refusal := .next (s.sample r)
/-- CAP_END. -/
def execCapEnd (s : State) : Host.Outcome State Fault Refusal := .next s.capEnd
/-- CAP_GATE_MORE. -/
def execCapGateMore (s : State) : Host.Outcome State Fault Refusal := .next s.capGateMore
/-- RAIL_FAULT. -/
def execRailFault (rail : Fin 10) (kind : Fin 3) (s : State) : Host.Outcome State Fault Refusal :=
  .next (s.railFault rail.val kind.val)
/-- BROWN_OUT. -/
def execBrownOut (s : State) : Host.Outcome State Fault Refusal := .next s.brownOut
/-- VIN_LOSS: VIN below 2.30 V; OFF is entered from any mode (Table 15-1), and a record in flight is absent (R455). -/
def execVinLoss (s : State) : Host.Outcome State Fault Refusal :=
  .next (if s.pwr.mode = .off then s else s.collapse.powerDown .off)
/-- VIN_GOOD. -/
def execVinGood (s : State) : Host.Outcome State Fault Refusal := .next s.vinGood
/-- PORST_N_ASSERT. -/
def execPorstNAssert (s : State) : Host.Outcome State Fault Refusal := .next s.porstAssert
/-- PORST_N_RELEASE. -/
def execPorstNRelease (straps : BitVec 4) (s : State) : Host.Outcome State Fault Refusal := .next (s.porstRelease straps)
/-- PCIE_PERST_N_RELEASE: the wake source 275 (R474, Table 15-4). -/
def execPciePerstNRelease (s : State) : Host.Outcome State Fault Refusal :=
  .next (if s.pwr.perstN then s else { s with pwr.perstN := true }.pilotSource 275)
/-- REFCLK_SYS_LOSS. -/
def execRefclkSysLoss (s : State) : Host.Outcome State Fault Refusal := .next s.sysClockLost
/-- REFCLK_LOSS. -/
def execRefclkLoss (r : RefClock) (s : State) : Host.Outcome State Fault Refusal := .next (s.clockLost r)
/-- REFCLK_RETURN. -/
def execRefclkReturn (r : RefClock) (s : State) : Host.Outcome State Fault Refusal := .next (s.clockBack r)
/-- PILOT_WAKE. -/
def execPilotWake (rising : Bool) (s : State) : Host.Outcome State Fault Refusal := .next (s.wakeEdge rising)
/-- PILOT_TIMER. -/
def execPilotTimer (s : State) : Host.Outcome State Fault Refusal := .next s.timerWake
/-- SMB_WAKE: a sideband write addressed to the device (R442). -/
def execSmbWake (s : State) : Host.Outcome State Fault Refusal := .next (s.pilotSource 274)
/-- SMB_STUCK: the sideband controller is reset and releases both lines (Table 16-5); in PILOT there is no fault. -/
def execSmbStuck (s : State) : Host.Outcome State Fault Refusal := .next (s.fault 0x001 3 0)
/-- MODE_TRANSITION_END. -/
def execModeTransitionEnd (s : State) : Host.Outcome State Fault Refusal := .next s.transitionEnd.afterBrownOut
/-- PWR_MODE_REQ: a write requests a mode (R437). -/
def execPwrModeReq (m : Master) (v : Word) (s : State) : Host.Outcome State Fault Refusal :=
  .next (if s.access m 0x60004 then s.requestMode (bits v.toNat 3 0) (.register m) else s)
/-- NIGHT_CORE_CLOCK_GATE: a core without a job for 100 ms is clock-gated in NIGHT and stays IN_SERVICE (R438). -/
def execNightCoreClockGate (c : Fin 8) (s : State) : Host.Outcome State Fault Refusal :=
  .next (if s.pwr.mode = .night && s.live && (s.core c.val).st == .inService && (s.core c.val).job.isNone
      && (s.core c.val).reserved.isNone then
    { s with pwr.nightGated := s.pwr.nightGated ||| ((1 : BitVec 8) <<< c.val) } else s)
/-- PWR_PIN_PEAK_READ: the peak is returned and cleared. -/
def execPwrPinPeakRead (s : State) : Host.Outcome State Fault Refusal :=
  .next (if s.bar0 0x6002C then { s.setRd s.pwr.pinPeak with pwr.pinPeak := 0 } else s.setRd 0)

/-- JTAG_INSTRUCTION_LOAD (R480): the TAP works from the end of boot step 2; EXTEST, CLAMP and HIGHZ order HALT, which
only PORST_N ends. Every code that is not an instruction acts as BYPASS. -/
def State.loadTap (s : State) (code : BitVec 6) : State :=
  if !s.pcieUp then s
  else
    let c : BitVec 6 := if [0x00, 0x01, 0x02, 0x03, 0x04, 0x10].contains code.toNat then code else 0x3F
    let s1 := { s with pwr.tap := c }
    if c = 0x00 ∨ c = 0x03 ∨ c = 0x04 then
      (s1.keepRecord ⟨s1.time.dts, 0, 0, 2, 0, 7, 1, 0⟩).orderHalt .jtag
    else s1
/-- JTAG_INSTRUCTION_LOAD. -/
def execJtagInstructionLoad (code : BitVec 6) (s : State) : Host.Outcome State Fault Refusal := .next (s.loadTap code)

end Sys2Proof.Machine
end

