-- ==== Sys2Proof/Machine/TableRows.lean ====
section
/-!
DEFINITION. Machine/TableRows.lean: the table commands of the switch core and of the traffic unit, and the histogram
snapshot (R336, R339, R375, R376).
-/
namespace Sys2Proof.Machine

/-- The data registers of a table window as bytes. -/
def dataBytes (t : Table Word) (n : Nat) : List Byte :=
  ((List.range (ceilDiv n 4)).flatMap (fun i => leBytes 4 (Table.get 0 t i).toNat)).take n

/-- Put the bytes of an entry in the data registers, from register 0. -/
def putData (t : Table Word) (b : List Byte) : Table Word :=
  forEach (List.range (ceilDiv b.length 4)) t (fun i t => Table.set 0 t i (BitVec.ofNat 32 (fieldLe b (4 * i) 4)))

/-! ### The switch core -/

/-- A switch table command ends (ICU source 196), with or without ERR. -/
def State.swcDone (s : State) (failed : Bool) : State := { s with swc.tblErr := failed }.raise 196

/-- SWC_TBL_SEL: TABLE, INDEX and STAGED. -/
def State.swcSel (s : State) : Nat × Nat × Bool :=
  let w := s.regOr 0 0xA0020
  (bits w 2 0, bits w 19 4, bit w 20)

/-- An entry is written: staged under R19, or at once where its fields are in range (R339). -/
def State.swcWrite (s : State) (m : Master) (table index : Nat) (staged : Bool) (b : List Byte) : State :=
  if (swcTable table).1 ≤ index then s.swcDone true
  else if staged then
    let (st, t) := s.stagingWrite m .reg (fun t => t.putEntry (entryKey 0 table index b) b)
    t.swcDone (st != .ok)
  else if (swcCheck table b SwcRefs.all).isSome then s.swcDone true
  else
    let (t, ok) := s.putSwc table index b
    t.swcDone (!ok)

/-- TBL_WRITE. -/
def State.tblWrite (s : State) (m : Master) (v : Word) : State :=
  let (table, index, staged) := s.swcSel
  if masterDirect m && s.access m 0xA0024 && s.switches && v.getLsbD 0 then
    s.swcWrite m table index staged (dataBytes s.swc.tblData (swcTable table).2)
  else s

/-- TBL_READ: the live entry is read. -/
def State.tblRead (s : State) (m : Master) (v : Word) : State :=
  let (table, index, _) := s.swcSel
  if masterDirect m && s.access m 0xA0024 && s.switches && v.getLsbD 1 then
    if (swcTable table).1 ≤ index then s.swcDone true
    else { s with swc.tblData := putData s.swc.tblData (s.swcEntry table index) }.swcDone false
  else s

/-- TBL_INVALIDATE: the entry is written with zeros; a MAC entry is found by the key in SWC_TBL_DATA. -/
def State.tblInvalidate (s : State) (m : Master) (v : Word) : State :=
  let (table, index, staged) := s.swcSel
  if masterDirect m && s.access m 0xA0024 && s.switches && v.getLsbD 2 then
    let n := (swcTable table).2
    let b := if table = 3 then (dataBytes s.swc.tblData 8) ++ List.replicate 8 0 else List.replicate n 0
    s.swcWrite m table index staged b
  else s

/-! ### The traffic unit -/

/-- A traffic table command ends (ICU source 211). -/
def State.trfDone (s : State) (failed : Bool) : State := { s with trf.tblErr := failed }.raise 211

/-- TRF_TBL_SEL. -/
def State.trfSel (s : State) : Nat × Nat × Bool :=
  let w := s.regOr 0 0xC0010
  (bits w 2 0, bits w 19 4, bit w 20)

/-- An unstaged write to a gate list whose EN is 1 is refused (R376). -/
def State.gateLocked (s : State) (table index : Nat) : Bool :=
  (table == 5 && (s.portGates index).list.en) || (table == 6 && (s.portGates (index / 256)).list.en)

/-- TRF_TBL_WRITE. -/
def State.trfTblWrite (s : State) (m : Master) (v : Word) : State :=
  let (table, index, staged) := s.trfSel
  if masterDirect m && s.access m 0xC0014 && s.live && v.getLsbD 0 then
    let b := dataBytes s.trf.tblData (trfTable table).2
    if (trfTable table).1 ≤ index then s.trfDone true
    else if staged then
      let (st, t) := s.stagingWrite m .reg (fun t => t.putEntry (entryKey 1 table index b) b)
      t.trfDone (st != .ok)
    else if s.gateLocked table index || (trfCheck table index b (fun _ => true)).isSome then s.trfDone true
    else (s.putTrf table index b).trfDone false
  else s

/-- TRF_TBL_READ. -/
def State.trfTblRead (s : State) (m : Master) (v : Word) : State :=
  let (table, index, _) := s.trfSel
  if masterDirect m && s.access m 0xC0014 && s.live && v.getLsbD 1 then
    if (trfTable table).1 ≤ index then s.trfDone true
    else { s with trf.tblData := putData s.trf.tblData (s.trfEntry table index) }.trfDone false
  else s

/-- HIST_SNAP: a write of TRF_HIST_SEL; SNAP copies the selected histogram to the registers, and CLEAR zeroes it at the
same instant (R375). A QUEUE above 223 leaves the register as it is (R489). -/
def State.histSnap (s : State) (m : Master) (v : Word) : State :=
  let q := bits v.toNat 7 0
  let k := 2 * q + b2n (v.getLsbD 8)
  if masterDirect m && s.access m 0xC0400 && decide (q < 224) then
    let s1 := s.setReg 0xC0400 (v &&& 0x3FF)
    if v.getLsbD 10 && s.live then
      { s1 with trf := { s1.trf with
        snap := s1.hist k, hists := if v.getLsbD 9 then Table.set Hist.empty s1.trf.hists k Hist.empty else s1.trf.hists } }
    else s1
  else s

/-- TBL_WRITE. -/
def execTblWrite (m : Master) (v : Word) (s : State) : Host.Outcome State Fault Refusal := .next (s.tblWrite m v)
/-- TBL_READ. -/
def execTblRead (m : Master) (v : Word) (s : State) : Host.Outcome State Fault Refusal := .next (s.tblRead m v)
/-- TBL_INVALIDATE. -/
def execTblInvalidate (m : Master) (v : Word) (s : State) : Host.Outcome State Fault Refusal := .next (s.tblInvalidate m v)
/-- TRF_TBL_WRITE. -/
def execTrfTblWrite (m : Master) (v : Word) (s : State) : Host.Outcome State Fault Refusal := .next (s.trfTblWrite m v)
/-- TRF_TBL_READ. -/
def execTrfTblRead (m : Master) (v : Word) (s : State) : Host.Outcome State Fault Refusal := .next (s.trfTblRead m v)
/-- HIST_SNAP. -/
def execHistSnap (m : Master) (v : Word) (s : State) : Host.Outcome State Fault Refusal := .next (s.histSnap m v)

end Sys2Proof.Machine
end

