-- ==== Sys2Proof/Machine/RegRead.lean ====
section
/-!
DEFINITION. Machine/RegRead.lean: what every register of the BAR0 map and of a virtual function's status page reads as
(R9, R31, R96 and the register tables of chapters 1 to 16). A WO field and a reserved bit read as 0.
-/
namespace Sys2Proof.Machine

/-! ### Codes of the states that registers report -/

/-- Table 03-6. -/
def QState.code : QState → Nat
  | .absent => 0 | .active => 1 | .error => 2 | .frozen => 3 | .draining => 4
/-- Table 07-7. -/
def CoreSt.code : CoreSt → Nat
  | .inService => 0 | .gated => 1 | .retired => 2 | .resetting => 3 | .noMicrocode => 4
/-- Table 08-1. -/
def OutSt.code : OutSt → Nat
  | .closed => 0 | .active => 1 | .off => 2 | .closing => 3
/-- Table 09-6. -/
def ChSt.code : ChSt → Nat
  | .free => 0 | .idle => 1 | .active => 2 | .waiting => 3 | .suspended => 4 | .halting => 5 | .ended => 6
/-- Table 11-3. -/
def PortSt.code : PortSt → Nat
  | .disabled => 0 | .training => 1 | .up => 2 | .down => 3 | .retired => 4
/-- Table 13-2. -/
def DmaSt.code : DmaSt → Nat
  | .idle => 0 | .running => 1 | .stopping => 2 | .done => 3 | .stopped => 4 | .error => 5

/-! ### Helpers -/

/-- Word `j` of a number. -/
def wordOf (n j : Nat) : Nat := n / 2 ^ (32 * j) % 2 ^ 32
/-- A signed number in `n` bits. -/
def signedBits (n : Nat) (x : Int) : Nat := (x % (2 ^ n : Nat)).toNat
/-- A signed number saturated to 32 bits. -/
def saturated (x : Int) : Nat := signedBits 32 (max (-(2 ^ 31 : Nat)) (min ((2 ^ 31 : Nat) - 1) x))
/-- The numbers below `n` that a test accepts, as a mask. -/
def maskBelow (n : Nat) (p : Nat → Bool) : Nat := (List.range n).foldl (fun m k => m + b2n (p k) * 2 ^ k) 0
/-- A word, or the most its bits hold. -/
def atMost (n x : Nat) : Nat := min (2 ^ n - 1) x

/-- The pixel rate of a size on a tick group, in pixels per 1,001 s (R220). -/
def State.outRate (s : State) (w h : Nat) (g : Fin 4) : Nat :=
  let (n, d) := s.grpRate g.val
  w * h * n * 1001 / d

/-- The committed output pixel rate, in pixels per 1,001 s. -/
def State.pixelRate (s : State) : Nat := s.outList.foldl (fun n e => n + s.outRate e.2.width e.2.height e.2.group) 0

/-- Submission queues of a function. -/
def State.sqCount (s : State) (f : Nat) : Nat := (s.qm.sqs.filter (fun e => keyFn e.1 == f)).length

/-- TIME_STATUS without SET_REJ. -/
def State.timeStatus (s : State) : Nat :=
  s.time.selected + 8 * b2n s.time.holdover + 16 * b2n (s.time.holdover && !s.time.hoSpecPassed) + 32 * b2n s.time.slewing
    + 64 * b2n s.time.step.isSome + 128 * b2n s.time.ptp.qualified + 256 * b2n s.time.pps.qualified
    + 512 * b2n s.time.clk10m.qualified + 2 ^ 16 * s.clockQuality.1

/-- The queue or ring that QMGR_Q_SEL names: its three words. -/
def State.queueInfo (s : State) (w : Nat) : Nat :=
  let v := s.regOr 0 0x20200
  let k := qKey (bits v 15 12) (bits v 11 0)
  if bit v 16 then
    let c := s.cq k
    if c.state = .absent then 0
    else match w with
      | 0 => c.state.code + 16 * c.vector + 2 ^ 16 * c.aggCount
      | 1 => c.head + 2 ^ 16 * c.tail
      | _ => 2 ^ 16 * (c.size - 1)
  else
    let q := s.sq k
    if q.state = .absent then 0
    else match w with
      | 0 => q.state.code + 8 * b2n q.ordered + 16 * q.cq + 2 ^ 16 * q.weight + 2 ^ 24 * q.burst
      | 1 => q.head + 2 ^ 16 * q.tail
      | _ => q.seq.toNat + 2 ^ 16 * (q.size - 1)

/-- The job that a codec core runs. -/
def State.coreJob (s : State) (c : Nat) : Option CodecJob :=
  match (s.core c).job with
  | some id => s.job id
  | none => none

/-- The handle of the stream of a job. -/
def State.jobHandle (s : State) (j : CodecJob) : Nat :=
  if j.encode then
    match s.enc j.stream with
    | some e => e.handle j.stream
    | none => 0
  else
    match s.dec j.stream with
    | some d => d.handle j.stream
    | none => 0

/-- What is left of a channel's timer, in whole microseconds. -/
def State.timerRemain (s : State) (c : Nat) : Nat :=
  match (s.chan c).timer with
  | some t => (t - s.time.run) / microsecond
  | none => ((s.chan c).timerLeft.getD 0) / microsecond

/-- The fields that a DMA channel reports. -/
def State.dmaStatusWord (s : State) (c : Nat) : Nat :=
  let x := s.dmaCh c
  x.st.code + 8 * b2n (s.dmaGranted c) + 16 * b2n x.isolated + 256 * x.code + 2 ^ 16 * x.retries

/-- PWR_MODE. -/
def State.pwrModeWord (s : State) : Nat :=
  s.pwr.mode.code + 16 * s.pwr.base.code + 2 ^ 8 * b2n s.capped + 2 ^ 9 * b2n s.qm.hostLost + 2 ^ 10 * b2n s.time.holdover
    + 2 ^ 11 * b2n s.degraded + 2 ^ 12 * b2n s.halted + 2 ^ 13 * b2n s.changing

/-- A perturbation field of the TEST block is not 0: STRETCH acts only on cores that are chosen. -/
def State.testActive (s : State) : Bool :=
  (List.range 9).any (fun k => s.regOr 0 (0x400010 + 4 * k) != 0) || s.regOr 0 0x400040 != 0 || s.regOr 0 0x400044 != 0
    || bits (s.regOr (100 * 65536) 0x400050) 7 0 != 0 || s.regOr 0 0x400060 != 0

/-- CDC_MC_VERSION of a core. -/
def CodecCore.mcVersion (x : CodecCore) : Nat :=
  x.mcBase.toNat + 2 ^ 16 * x.mcPatch.toNat + 2 ^ 24 * b2n x.patchRej + 2 ^ 25 * b2n x.baseSlot + 2 ^ 26 * b2n x.patchSlot

/-! ### The registers by block -/

/-- IDENT and SYS (Tables 01-9, 01-10, 16-12). -/
def State.sysField (s : State) (id : RegId) : Nat :=
  match id with
  | .identVendor => 0x1F7B
  | .identDevice => 0x8964
  | .identRevision => 0x4201
  | .identRom => 0x0302 + 65536 * Config.romBuild.toNat
  | .identSerialLo => wordOf Config.serial.toNat 0
  | .identSerialHi => wordOf Config.serial.toNat 1
  | .sysStageStatus =>
    s.stage.st.code + 256 * s.stage.code.code + (match s.stage.holder with
      | none => 0
      | some (m, r) => 2 ^ 16 * masterClass m + 2 ^ 19 * b2n (decide (r ≠ .reg)) + 2 ^ 20 * masterNumber m)
  | .sysStageFailAddr => s.stage.failAddr.toNat
  | .sysStageFailItem => s.stage.failItem.toNat
  | .sysConflictLast =>
    let side := fun (m : Option Master) => match m with
      | some m => masterClass m + 8 * masterNumber m
      | none => 0
    side s.stage.winner + 2 ^ 9 * side s.stage.loser
  | .sysConflictDtsLo => wordOf s.stage.conflictDts.toNat 0
  | .sysConflictDtsHi => wordOf s.stage.conflictDts.toNat 1
  | .sysStraps => s.pwr.straps.toNat + 16 * b2n (s.pwr.straps.toNat % 4 == 3)
  | .sysFabricLast => s.pwr.fabricDomain + 16 * s.pwr.fabricMaster + 256 * (s.pwr.fabricAddr / 256 % 2 ^ 24)
  | .sysFabricCnt => s.pwr.fabricCnt.toNat
  | _ => 0

/-- TIME (Table 02-8). TIME_OFFSET rounds an offset that is no whole number of ns toward zero: DESIGN CHOICE, assumption 33. -/
def State.timeField (s : State) (id : RegId) (i j : Nat) : Nat :=
  match id with
  | .timeDtsLo => wordOf s.time.dts.toNat 0
  | .timeDtsHi => s.time.hiShadow.toNat
  | .timeEra => s.time.era.toNat
  | .timeStatus => s.timeStatus + 2 ^ 10 * b2n s.time.setRej
  | .timeOffset => saturated (s.time.offset.tdiv 16)
  | .timeFreqAdj => s.time.freqAdj.toNat
  | .timeUtc => s.time.utc.toNat
  | .timeGrpCount => wordOf (s.time.groups[i]?.getD ⟨0, 0⟩).last.toNat j
  | .timeStepOld => wordOf s.time.stepOld.toNat i
  | .timeStepNew => wordOf s.time.stepNew.toNat i
  | .timeStepDisp => s.time.stepDisp.toNat
  | .timeStepCnt => s.time.stepCnt.toNat
  | .timeOvrCnt => Table.get 0 s.time.overruns i % 2 ^ 32
  | _ => 0

/-- QMGR (Table 03-10). -/
def State.qmgrField (s : State) (id : RegId) (i : Nat) : Nat :=
  match id with
  | .qmgrStatus =>
    b2n (s.qm.rdy.getLsbD 0) + 2 * b2n s.qm.slotsOut + 4 * b2n s.qm.cqFull + 8 * b2n s.qm.hostLost
      + 16 * b2n (s.qm.aqErr.getLsbD 0) + 256 * s.qm.linkWidth + 2 ^ 13 * s.qm.linkSpeed
  | .qmgrFnLost => s.qm.fnLost.toNat
  | .qmgrDbErr => s.qm.dbErr + 2 ^ 16 * s.qm.dbErrFn + 2 ^ 20 * b2n s.qm.dbErrCq
  | .qmgrDbErrQ => s.qm.dbErrQ
  | .qmgrSlotsFree => s.slotsFree
  | .qmgrOrphanCnt => s.qm.orphans.toNat
  | .qmgrFnStat => s.slotsUsed i + 2 ^ 16 * s.sqCount i
  | .qmgrQInfo0 => s.queueInfo 0
  | .qmgrQInfo1 => s.queueInfo 1
  | .qmgrQInfo2 => s.queueInfo 2
  | _ => 0

/-- ICU and SNUF (Tables 14-11 and 14-12). A claim is a read of its own: here it reads as the source that is ready. -/
def State.icuField (s : State) (id : RegId) (i : Nat) : Nat :=
  match id with
  | .icuCfg => b2n s.icu.wanted
  | .icuStatus => b2n s.icu.orderErr
  | .icuPend => wordOf s.icu.pend.toNat i
  | .icuMask => wordOf s.icu.mask.toNat i
  | .icuActive => maskBelow 32 (fun k => s.icu.claims.toList.any (fun l => l.contains (32 * i + k)))
  | .icuClaim => match s.readySource (Fin.ofNat 14 i) with
    | some n => n
    | none => 2 ^ 31
  | .icuTgtStatus =>
    let l := s.icu.claims[i]?.getD []
    l.length + 16 * (l.head?.getD 0)
  | .icuPilotCause => match s.icu.pilotCause with
    | some n => n + 2 ^ 31
    | none => 0
  | .snufStatus =>
    b2n s.degraded + 2 * b2n s.snuf.overflow + 4 * b2n s.snuf.first.isSome + 2 ^ 8 * atMost 4 s.snuf.tests.length
      + 2 ^ 12 * s.snuf.live.toNat + 2 ^ 16 * s.snuf.seq.toNat
  | .snufHistCount => s.snuf.hist.length
  | .snufHistData => match s.snuf.hist[bits (s.regOr 0 0x50010) 5 0]? with
    | some r => fieldLe r.bytes (4 * i) 4
    | none => 0
  | .snufFirst => match s.snuf.first with
    | some r => fieldLe r.bytes (4 * i) 4
    | none => 0
  | .snufRetired => s.snuf.retiredCores.toNat + 2 ^ 16 * s.snuf.retiredLanes.toNat
  | .snufSpares =>
    let used := fun (st : Nat) => (s.snuf.sparedPcs.filter (fun e => e.1 == st)).length
    atMost 8 s.snuf.fences.length + 2 ^ 8 * used 0 + 2 ^ 12 * used 1
  | .snufRetestStatus => s.snuf.retestResult
  | .snufCorrected => s.snuf.corrected.toNat
  | .snufPpr =>
    let v := s.regOr 0 0x500A0
    s.repairsLeft (bits v 0 0) (bits v 5 1) (bits v 9 6)
  | .snufSrcStat =>
    let w := s.win i
    atMost 8 w.count + 2 ^ 8 * b2n w.severe + 2 ^ 16 * atMost 16 w.events
  | _ => 0

/-- PWR and the mailbox (Tables 15-10 and 15-11). -/
def State.pwrField (s : State) (id : RegId) (i : Nat) : Nat :=
  match id with
  | .pwrMode => s.pwrModeWord
  | .pwrModeRes => s.pwr.resCode.code + 2 ^ 8 * s.pwr.resMode
  | .pwrCapStatus =>
    b2n s.pwr.thermalCap + 2 * b2n s.pwr.powerCap + 4 * b2n (decide (s.pwr.dramHot ≠ 0)) + 8 * b2n (!s.pwr.thermN)
      + 2 ^ 8 * s.pwr.gated.toNat
  | .pwrTj => signedBits 12 s.pwr.tj + 2 ^ 12 * s.pwr.tjSensor
  | .pwrVin => atMost 16 s.pwr.vin
  | .pwrIin => atMost 16 s.pwr.iin
  | .pwrPin => atMost 17 s.pwr.pin
  | .pwrPinPeak => atMost 17 s.pwr.pinPeak
  | .pwrTemp => signedBits 12 (s.temp i).1 + 2 ^ 12 * b2n (s.temp i).2
  | .pwrRailV => atMost 16 (Table.get (0, 0) s.pwr.rails i).1
  | .pwrRailI => atMost 16 (Table.get (0, 0) s.pwr.rails i).2
  | .pwrBoot => s.pwr.bootStep + 8 * b2n s.pwr.warm + 16 * s.pwr.lastOff
  | .pwrUpdate =>
    maskBelow 3 (fun k => s.updating (Fin.ofNat 3 k)) + 2 ^ 4 * maskBelow 3 (fun k => (s.image (Fin.ofNat 3 k)).active)
      + 2 ^ 8 * maskBelow 3 (fun k => (s.image (Fin.ofNat 3 k)).isPending)
  | .pwrDebug => b2n s.mail.unlocked
  | .lmbStatus => b2n s.mail.busy + 2 ^ 8 * s.mail.status.code + 2 ^ 16 * s.mail.rlen
  | _ => 0

/-- BPM and DMA (Tables 13-6 and 13-7). Pool 0 is the packet buffer, whose cells are its buffers (R381, R398). -/
def State.bpmField (s : State) (id : RegId) (i j : Nat) : Nat :=
  match id with
  | .bpmPoolCfg => if i = 0 then 8 + 32 + 2 ^ 10 else 0
  | .bpmPoolCount => if i = 0 then 131072 else 0
  | .bpmPoolFree => if i = 0 then 131072 - s.cellsUsed else s.poolFree i
  | .bpmPoolRefused => (Table.get 0 s.pool.refused i).toNat
  | .bpmPoolFallbacks => (Table.get 0 s.pool.fallbacks i).toNat
  | .bpmOwnUse => if i = 0 then 0 else s.ownUse i j
  | .bpmOwnEar => if i = 0 then 0 else s.ownEar i j
  | .bpmAudStatus =>
    s.audit.failLaws.toNat + 2 ^ 8 * maskBelow 6 (fun k => s.audit.lost.any (fun e => e.1 == k + 1))
      + 2 ^ 16 * b2n s.audit.frozen.isSome
  | .bpmAudTick => wordOf s.audit.lastTick.toNat i
  | .bpmAudPass => s.audit.pass.toNat
  | .bpmAudViol => s.audit.viol.toNat
  | .bpmAudFirst => s.audit.firstLaw + 2 ^ 4 * s.audit.firstUnit + 2 ^ 14 * (s.audit.firstIndex % 2 ^ 18)
  | .bpmAudFirstTick => match s.audit.frozen with
    | some (x, _) => wordOf x.tick.toNat i
    | none => 0
  | .bpmAudSnapData => s.snapWord (bits (s.regOr 0 0x84030) 13 0)
  | .dmaChStatus => s.dmaStatusWord i
  | .dmaChCur => wordOf (s.dmaCh i).cur.toNat j
  | .dmaChResid => (s.dmaCh i).resid
  | .dmaChBytes => wordOf (s.dmaCh i).bytes.toNat j
  | .dmaChDescs => (s.dmaCh i).descs.toNat
  | .dmaStatus => b2n s.dmaReject
  | .dmaBusy => wordOf (maskBelow 64 (fun c => match (s.dmaCh c).st with
      | .running | .stopping => true
      | _ => false)) i
  | _ => 0

/-- SWC (Table 11-14). The high word of a counter is the one the last read of its low word latched (R354). -/
def State.swcField (s : State) (id : RegId) (i j : Nat) : Nat :=
  match id with
  | .swcStatus => maskBelow 17 s.portUp
  | .swcLaneStatus => s.snuf.retiredLanes.toNat + 2 ^ 16 * maskBelow 16 (fun n => (s.lanePort n).isSome)
  | .swcBufUsed => s.cellsUsed
  | .swcBufShared => s.cellsShared.toNat
  | .swcBufPeak => s.swc.peak
  | .swcMacStatus => s.swc.mac.length
  | .swcTblStatus =>
    2 * b2n s.swc.tblErr + 2 ^ 16 * min 4096 (s.stage.entries.filter (fun e => e.1.unit == 0)).length
  -- until BOOT has brought the switch up these read as the Reset column has it (R8)
  | .swcPortState =>
    if s.pwr.mode.dark then 0 else (s.portSt i).code + (if i < 16 then 8 * i + 2 ^ 7 * cfgLanes (s.portCfg i) else 0)
  | .swcPortRate => if !s.pwr.mode.dark && s.portUp i then s.portRate i else 0
  | .swcQDepth => s.qUse i
  | .swcCnt => wordOf (Table.get 0 s.swc.counters (32 * i + j)).toNat 0
  | .swcRbStat => (s.bindRun i).units.toNat
  | .swcRbDrop => (s.bindRun i).full.toNat + 2 ^ 16 * (s.bindRun i).gaps.toNat
  | _ => 0

/-- TRF (Table 12-8). -/
def State.trfField (s : State) (id : RegId) (i : Nat) : Nat :=
  match id with
  | .trfStatus => s.trf.wheel.length
  | .trfTblStatus =>
    2 * b2n s.trf.tblErr + 2 ^ 16 * min 4096 (s.stage.entries.filter (fun e => e.1.unit == 1)).length
  | .trfGateStatus =>
    let l := s.gateList i
    (s.openGates i).toNat + 2 ^ 8 * (if l.governs then (l.entryAt s.fullTime).1 else 0) + 2 ^ 16 * b2n l.governs
      + 2 ^ 17 * b2n (s.portGates i).pending.isSome
  | .trfGateDrop => (Table.get 0 s.trf.gateDrop i).toNat
  | .trfHistBin => Table.get 0 s.trf.snap.bins i
  | .trfHistMax => s.trf.snap.max
  | .trfHistMaxDts => wordOf s.trf.snap.maxDts.toNat i
  | .trfHistSamples => s.trf.snap.samples
  | .trfRedDrop => s.trf.redDrop.toNat
  | _ => 0

/-- LMP (Table 09-15). -/
def State.lmpField (s : State) (id : RegId) (i j : Nat) : Nat :=
  match id with
  | .lmpStatus =>
    s.lmp.cores.toNat + 16 * countBelow 64 (fun c => (s.chan c).st != .free) + 2 ^ 11 * b2n (s.pwr.mode == .continuity)
  | .lmpRtUsed => (s.routineSpace.foldl (fun n e => n + e.2) 0) + 2 ^ 19 * s.routineSpace.length
  | .lmpRtStatus =>
    let r := s.routine (bits (s.regOr 0 0xE0010) 5 0)
    s.lmp.rtResult + 8 * b2n r.isSome + 2 ^ 16 * (match r with
      | some x => x.version.toNat
      | none => 0)
  | .lmpChState =>
    let x := s.chan i
    x.st.code + 8 * b2n x.mark + 16 * x.fn + 2 ^ 8 * x.core
  | .lmpChCcwLo => wordOf (s.chan i).ccw.toNat 0
  | .lmpChCcwHi => wordOf (s.chan i).ccw.toNat 1
  | .lmpChEvent | .lmpChEventClr => (s.chan i).events.toNat
  | .lmpChTimer => s.timerRemain i
  | .lmpChJobs => (s.chan i).jobsDone.toNat + 2 ^ 16 * (s.chan i).jobsFailed.toNat
  | .lmpChCsw => fieldLe (s.chan i).csw (4 * j) 4
  | _ => 0

/-- CDC (Table 07-7). -/
def State.cdcField (s : State) (id : RegId) (i j : Nat) : Nat :=
  let x := s.core i
  match id with
  | .cdcState => x.st.code + 8 * b2n x.job.isSome
  | .cdcMcVersion => x.mcVersion
  | .cdcJobHandle => match s.coreJob i with
    | some y => wordOf (s.jobHandle y) j
    | none => 0
  | .cdcJobSeq => match s.coreJob i with
    | some y => y.seq.toNat + 2 ^ 16 * (x.part % 8)
    | none => 0
  | .cdcUseq => x.upc.toNat + 2 ^ 14 * x.ustack.length
  | .cdcCycles => wordOf x.cycles.toNat j
  | .cdcJobs => x.jobs.toNat
  | .cdcRedone => x.redone.toNat
  | .cdcFault => x.fault.toNat
  | .cdcPoolStatus =>
    maskBelow 8 (fun c => (s.core c).st == .inService) + 2 ^ 8 * maskBelow 8 (fun c => (s.core c).st == .retired)
      + 2 ^ 16 * s.capWith s.spare
  | .cdcPoolUsed => s.decUseAll + 2 ^ 16 * s.encUseAll
  | .cdcPoolEvict => s.codec.evictions.toNat
  | .cdcPoolDebt => atMost 32 (Table.get 0 s.codec.debt i / 1024)
  | _ => 0

/-- CMP and TEST (Tables 08-8 and 14-13). -/
def State.cmpField (s : State) (id : RegId) (i : Nat) : Nat :=
  match id with
  | .cmpStatus =>
    s.outList.length + 2 ^ 8 * (s.cmp.atlases.foldl (fun n a => n + a.kib) 0) + 2 ^ 22 * s.cmp.atlases.length
  | .cmpPixrate => s.pixelRate / 1001000000
  | .cmpLateCnt => s.cmp.lateCnt.toNat
  | .cmpGlyphs => s.cmp.glyphCnt.toNat
  | .cmpDmgData => s.dmgWord i
  | .cmpOutState => match s.outp i with
    | some x => x.st.code + 4 * b2n x.late + 2 ^ 8 * x.fn
    | none => 0
  | .cmpOutFrames => (s.outCounts i).frames.toNat
  | .cmpOutMissed => (s.outCounts i).missed.toNat
  | .cmpOutLastTick => (s.outCounts i).lastTick.toNat
  | .cmpOutDmg => match s.outp i with
    | some x => match x.ring.head? with
      | some b => blockCount b.mask
      | none => 0
    | none => 0
  | .cmpOutStSkip => (s.outCounts i).stSkip.toNat
  | .testStatus => b2n s.snuf.unlocked + 2 * b2n s.testActive
  | _ => 0

/-- What the fields of a register other than RW read as. -/
def State.regField (s : State) (r : RegAt) : Nat :=
  let b := r.spec.base
  let id := r.spec.id
  if id = .swcTblData then fieldLe (dataBytes s.swc.tblData 28) (4 * r.i) 4
  else if id = .trfTblData then fieldLe (dataBytes s.trf.tblData 16) (4 * r.i) 4
  else if b < 0x10000 then s.sysField id
  else if b < 0x20000 then s.timeField id r.i r.j
  else if b < 0x40000 then s.qmgrField id r.i
  else if b < 0x60000 then s.icuField id r.i
  else if b < 0x80000 then s.pwrField id r.i
  else if b < 0xA0000 then s.bpmField id r.i r.j
  else if b < 0xC0000 then s.swcField id r.i r.j
  else if b < 0xE0000 then s.trfField id r.i
  else if b < 0x100000 then s.lmpField id r.i r.j
  else if b < 0x180000 then s.cdcField id r.i r.j
  else s.cmpField id r.i

/-- What a register reads as, without the effects of a read. -/
def State.regWord (s : State) (r : RegAt) : Nat := (s.regAt r &&& r.rwMask) ||| s.regField r

/-- The high word of a switch counter. -/
def swcCntHigh (off : Nat) : Bool :=
  decide (0xB0000 ≤ off) && decide (off < 0xB1C00) && decide (off % 256 < 216) && off % 8 == 4

/-- What a live-view or staging offset of BAR0 reads as: a staging view reads as the staged value (R18), and an offset
where no register is reads as 0 (R9). -/
def State.peekReg (s : State) (off : Nat) : Nat :=
  if bit off 15 then
    match stagedAt (off - 0x8000) with
    | some r => s.stagedWord r
    | none => match regFind off with
      | some r => s.regWord r
      | none => 0
  else if swcCntHigh off then s.swc.cntLatch.toNat
  else match regFind off with
    | some r => s.regWord r
    | none => 0

/-! ### Reads that clear or latch -/

/-- What reading a register does (Table 00-5: RC; R37, R354, R403). -/
def State.readEffect (s : State) (r : RegAt) : State :=
  match r.spec.id with
  | .timeDtsLo => { s with time.hiShadow := BitVec.ofNat 32 (bits s.time.dts.toNat 63 32) }
  | .sysFabricCnt => { s with pwr.fabricCnt := 0 }
  | .qmgrDbErr => { s with qm.dbErr := 0 }
  | .icuClaim => s.icuClaim (Fin.ofNat 14 r.i)
  | .snufCorrected => { s with snuf.corrected := 0 }
  | .pwrPinPeak => { s with pwr.pinPeak := 0 }
  | .bpmPoolRefused => { s with pool.refused := Table.set 0 s.pool.refused r.i 0 }
  | .bpmPoolFallbacks => { s with pool.fallbacks := Table.set 0 s.pool.fallbacks r.i 0 }
  | .bpmAudViol => { s with audit.viol := 0 }
  | .swcBufPeak => { s with swc.peak := 0 }
  | .swcCnt =>
    let v := wordOf (Table.get 0 s.swc.counters (32 * r.i + r.j)).toNat 1
    { s with swc.cntLatch := BitVec.ofNat 32 v }
  | .swcRbDrop => s.setBind r.i ({ s.bindRun r.i with full := 0, gaps := 0 })
  | .trfGateDrop => { s with trf.gateDrop := Table.set 0 s.trf.gateDrop r.i 0 }
  | .trfRedDrop => { s with trf.redDrop := 0 }
  | .cdcPoolEvict => { s with codec.evictions := 0 }
  | .cmpLateCnt => { s with cmp.lateCnt := 0 }
  | .cmpOutMissed => s.updCounts r.i (fun c => { c with missed := 0 })
  | .cmpOutStSkip => s.updCounts r.i (fun c => { c with stSkip := 0 })
  | _ => s

/-! ### The status page of a virtual function (Table 03-11) -/

/-- Any queue or ring of a function is FROZEN. -/
def State.fnFrozen (s : State) (f : Nat) : Bool :=
  s.qm.sqs.any (fun e => keyFn e.1 == f && e.2.state == .frozen) || s.qm.cqs.any (fun e => keyFn e.1 == f && e.2.state == .frozen)

/-- What an offset of a virtual function's BAR0 reads as. -/
def State.vfRead (s : State) (f off : Nat) : Nat :=
  match vfRegFind off with
  | none => 0
  | some r =>
    (s.regOr 0 (f * 0x1000000 + off) &&& r.rwMask) ||| (match r.spec.id with
      | .vfIdent => f + 16 * s.pwr.mode.code + 2 ^ 8 * b2n s.time.holdover + 2 ^ 9 * b2n s.degraded
      | .vfStatus => b2n (s.qm.rdy.getLsbD f) + 2 * b2n (s.fnFrozen f) + 4 * b2n (!s.mayTake f) + 8 * b2n (s.qm.aqErr.getLsbD f)
      | .vfSlots => s.slotsUsed f + 2 ^ 16 * s.slotMax f
      | .vfOvrCnt => Table.get 0 s.time.overruns f % 2 ^ 32
      | _ => 0)

end Sys2Proof.Machine
end

