-- ==== Sys2Proof/Machine/Arbiter.lean ====
section
/-!
DEFINITION. Machine/Arbiter.lean: the arbiter of the submission queues, and the checks that firmware makes on every entry it
accepts (R65 to R68, R73 to R76, R92, R93, R100, R101, R103).
-/
namespace Sys2Proof.Machine

/-! ### What may be dispatched -/

/-- An earlier entry of a queue has been accepted and has not completed (R65). -/
def State.queueBusy (s : State) (k : Nat) : Bool :=
  s.slotList.any (fun e => qKey e.2.fn e.2.sq == k && (e.2.phase == .accepted || e.2.phase == .running))

/-- The FENCE bit of a cached entry. -/
def Cached.fence (e : Cached) : Bool := !e.fault && bit (fieldLe e.bytes 1 1) 0

/-- A queue has an entry that the arbiter may dispatch now (R65, R73, R75, R79, R92). -/
def State.dispatchable (s : State) (k : Nat) : Bool :=
  let q := s.sq k
  let c := s.cq (qKey (keyFn k) q.cq)
  match q.cache with
  | [] => false
  | e :: _ =>
    s.qmRuns && s.qServed (k % 4096) && q.state == .active && s.mayTake (keyFn k) && c.state == .active && !c.writeFrozen
      && !c.isFull && !(e.fence && s.queueBusy k)

/-- The I/O queues that exist, in order of function and number. -/
def State.ioQueues (s : State) : List Nat := s.qm.sqs.keys.filter (fun k => k % 4096 != 0)

/-! ### The round (R74) -/

/-- What is left of a queue's credit in this round, and its burst. -/
def Arb.left (a : Arb) (k : Nat) : Nat × Nat := Table.get (0, 0) a.credit k

/-- A queue with credit is passed over for the rest of the round (R75): its entry waits for a slot, or for its ring. -/
def State.passedOver (s : State) (a : Arb) (k : Nat) : Bool :=
  let q := s.sq k
  let c := s.cq (qKey (keyFn k) q.cq)
  decide (0 < (a.left k).1) && !q.cache.isEmpty && q.state == .active
    && (!s.mayTake (keyFn k) || c.isFull || c.state != .active || c.writeFrozen)

/-- One move of the arbiter: a queue it dispatches from, or none and the position it goes on at. -/
def State.arbMove (s : State) (a : Arb) : Option Nat × Arb :=
  if a.admin < 17 then
    match (List.range 16).find? (fun f => decide (a.admin ≤ f) && s.dispatchable (qKey f 0)) with
    | some f => (some (qKey f 0), { a with admin := f + 1 })
    | none =>
      (none, { a with
        admin := 17, pos := 0, visit := none, served := false, skipped := []
        credit := s.ioQueues.filterMap (fun k =>
          let q := s.sq k
          if q.weight = 0 then none else some (k, (q.weight, q.burst))) })
  else
    let spend := fun (a : Arb) (k n : Nat) =>
      let (c, b) := a.left k
      (some k, { a with
        credit := Table.set (0, 0) a.credit k (c - 1, if c = 1 then 0 else b), pos := k
        visit := some (k, n - 1), served := true })
    let skip := fun (l : List Nat) => l.filter (fun k => s.passedOver a k) ++ a.skipped
    match a.visit with
    | some (k, n) =>
      if 0 < n ∧ 0 < (a.left k).1 ∧ s.dispatchable k then spend a k n
      else (none, { a with visit := none, pos := k + 1, skipped := if 0 < n then skip [k] else a.skipped })
    | none =>
      let rest := s.ioQueues.filter (fun k => decide (a.pos ≤ k) && !a.skipped.contains k)
      match rest.find? (fun k => decide (0 < (a.left k).1) && s.dispatchable k) with
      | some k => spend { a with skipped := skip (rest.filter (fun j => decide (j < k))) } k (min (a.left k).1 (a.left k).2)
      | none => (none,
        if a.served then { a with pos := 0, served := false, skipped := skip rest } else { a with admin := 0 })

/-- The queue that the arbiter dispatches from next, and its position after it, within `fuel` moves. -/
def State.arbNext (s : State) (a : Arb) : Nat → Option (Nat × Arb)
  | 0 => none
  | n + 1 =>
    match s.arbMove a with
    | (some k, b) => some (k, b)
    | (none, b) => s.arbNext b n

/-! ### The checks on an accepted entry (R101) -/

/-- What a failed check answers: the status and, where there is one, DETAIL. -/
structure Deny where
  st : Status
  detail : Option Nat
deriving DecidableEq, Repr

/-- The first check of a list that fails. -/
def firstDeny : List (Bool × Deny) → Option Deny
  | [] => none
  | (bad, d) :: t => if bad then some d else firstDeny t

/-- INVALID_FIELD at an offset, with an extra code. -/
def bad (offset extra : Nat) : Deny := ⟨.invalidField, detailOf offset extra⟩

/-- The opcodes of Table 04-2 but for PAD. -/
def opKnown (op : Nat) : Bool := (decide (1 ≤ op) && decide (op ≤ 0x0C)) || (decide (0x20 ≤ op) && decide (op ≤ 0x26))

/-- SET_FEATURE is refused to a function, or the feature can only be got (Table 04-10). -/
def setRefused (fn feature : Nat) : Bool :=
  feature == 3 || feature == 4 || feature == 6 || (fn != 0 && (feature == 1 || feature == 5))

/-- A function may not use an opcode (Table 04-2). -/
def opRefused (fn op feature : Nat) : Bool :=
  (fn != 0 && [2, 3, 4, 5, 8, 0x0B].contains op) || (op == 7 && setRefused fn feature)

/-- The opcode is allowed in the mode: Table 04-4, which refuses CREATE_CQ and CREATE_SQ in UPDATE where Table 03-7 says that
I/O queues may be created (DESIGN CHOICE, assumption 34). -/
def opInMode (m : Mode) (op subop : Nat) : Bool :=
  match m with
  | .update => [1, 6, 0x0A, 0x0B, 0x0C].contains op || (op == 9 && subop == 5)
  | _ => true

/-- The slots of an opcode (Tables 04-2 and 04-11): `subop` and `count` are bytes 16 and 17 of a STAGE. -/
def opSlots (op subop count : Nat) : Nat :=
  match op with
  | 0x02 | 0x04 | 0x0B | 0x0C | 0x22 | 0x23 | 0x25 => 3
  | 0x20 | 0x24 => 4
  | 0x09 => if subop = 1 then ceilDiv (24 + 8 * count) 16 else 2
  | _ => 2

/-- The selector at byte 16 names nothing that an opcode has: a feature to set, a sub-operation, a kind of object, an
action. -/
def opSelector (op sel : Nat) : Bool :=
  match op with
  | 0x07 => sel == 0 || decide (6 < sel)
  | 0x09 => decide (5 < sel)
  | 0x20 => decide (3 < sel)
  | 0x26 => decide (5 < sel)
  | _ => false

/-- Steps 1 to 5 of Table 04-3, with the reserved header flags before them (R68) and the selector of the first field after
them. -/
def State.entryDeny (s : State) (fn sq : Nat) (b : List Byte) : Option Deny :=
  let op := fieldLe b 0 1
  let sel := fieldLe b 16 1
  let count := fieldLe b 17 1
  let len := fieldLe b 2 2
  firstDeny [
    (fieldLe b 1 1 / 4 != 0, bad 1 8),
    (!opKnown op, ⟨.invalidOpcode, detailOf 0 0⟩),
    (decide (op < 0x20) != (sq == 0), ⟨.invalidQueue, detailOf 0 0⟩),
    (opRefused fn op sel, ⟨.notPermitted, detailOf 0 0⟩),
    (!opInMode s.pwr.mode op sel, ⟨.notPermitted, detailOf 0 3⟩),
    (len != opSlots op sel count, bad 2 4),
    (opSelector op sel, bad 16 5)]

/-- Complete a command that a check has denied. -/
def State.deny (s : State) (n : Nat) (d : Deny) : State := s.finish n d.st 0 0 d.detail

/-! ### ENTRY_DISPATCH -/

/-- The first entry of a queue is accepted: it takes a slot and a sequence number, and the head moves past it (R66, R67, R73,
R76). A header fault completes it and stops the queue (R68); poisoned data completes it (R93). -/
def State.acceptEntry (s : State) (k : Nat) : State :=
  let q := s.sq k
  match q.cache with
  | [] => s
  | e :: rest =>
    let n := firstGap s.qm.slots.keys 0
    let f := keyFn k
    let stop := e.fault && !e.poisoned
    let x : Slot := {
      fn := f, sq := k % 4096, cq := q.cq, cid := BitVec.ofNat 32 (fieldLe e.bytes 4 4), seq := q.seq
      noInt := bit (fieldLe e.bytes 1 1) 1, bytes := e.bytes, phase := .accepted
      completion := ⟨.ok, 0, 0, none, 0⟩, finishNo := s.qm.finishNo, ringPos := 0, ringPhase := false, sqHead := 0
      redone := false, written := false }
    let q1 := { q with
      head := (e.pos + (if e.fault then q.faultSlots e else e.slots)) % q.size, seq := q.seq + 1, cache := if stop then [] else rest
      state := if stop then .error else q.state }
    let s1 := (s.setSlot n (some x)).setSq k q1.skipPads
    let s2 := { s1 with qm.finishNo := s1.qm.finishNo + 1, audit.accepted := Table.upd 0 s1.audit.accepted f (· + 1) }
    let s3 :=
      if e.poisoned then s2.finish n .dataError 0 0 none
      else if e.fault then (s2.finish n .invalidField e.pos 0 (detailOf 2 4)).raise 290
      else match s2.entryDeny f (k % 4096) e.bytes with
        | some d => s2.deny n d
        | none => s2
    s3.slotsCheck

/-- ENTRY_DISPATCH: the arbiter dispatches the next entry of its round. -/
def State.dispatchNext (s : State) : State :=
  match s.arbNext s.qm.arb 8 with
  | some (k, a) => { s with qm.arb := a }.acceptEntry k
  | none => s

/-- ENTRY_DISPATCH. -/
def execEntryDispatch (s : State) : Host.Outcome State Fault Refusal := .next s.dispatchNext

end Sys2Proof.Machine
end

