-- ==== Sys2Proof/Machine/Commands.lean ====
section
/-!
DEFINITION. Machine/Commands.lean: steps 6 to 10 of Table 04-3, and the admin commands (R98 to R118, R459).
-/
namespace Sys2Proof.Machine

/-! ### The framework -/

/-- The entry of a slot that is next to be carried out, if its opcode is the one given: accepted, in a device that works, and
behind no entry for the same object that was dispatched earlier (R106). -/
def State.ready (s : State) (n op : Nat) : Option Slot :=
  match s.slot n with
  | some x =>
    if x.phase == .accepted && x.op == op && s.live && s.slotList.all (fun e =>
        !(e.2.phase == .accepted && decide (e.2.finishNo < x.finishNo) && e.2.fn == x.fn && e.2.handle == x.handle
          && x.handle != 0)) then some x else none
  | none => none

/-- A field of an entry. -/
def Slot.field (x : Slot) (i n : Nat) : Nat := fieldLe x.bytes i n
/-- The master that an entry's orders come from. -/
def Slot.master (x : Slot) : Master := .fn (Fin.ofNat 16 x.fn)

/-- The bytes from `lo` to below `hi` of an entry are reserved: the first that is not zero is denied (chapter 4). -/
def Slot.resv (x : Slot) (lo hi : Nat) : Bool × Deny :=
  match (List.range (hi - lo)).find? (fun i => x.field (lo + i) 1 != 0) with
  | some i => (true, bad (lo + i) 8)
  | none => (false, bad lo 8)
/-- HANDLE is not used and must be zero (R98). -/
def Slot.noHandle (x : Slot) : Bool × Deny := (x.handle != 0, bad 8 8)
/-- A host address at a field, with its alignment. -/
def Slot.hostAddr (x : Slot) (i align : Nat) : List (Bool × Deny) :=
  [(x.field i 8 % align != 0, bad i 6), (decide (2 ^ 63 ≤ x.field i 8), bad i 5)]
/-- A function number at a byte. -/
def Slot.fnAt (x : Slot) (i : Nat) : Bool × Deny := (decide (15 < x.field i 1), bad i 5)

/-- Carry out the command of a slot: its checks in order, then its effect. -/
def State.command (s : State) (n op : Nat) (checks : Slot → List (Bool × Deny)) (f : Slot → State) : State :=
  match s.ready n op with
  | none => s
  | some x =>
    match firstDeny (checks x) with
    | some d => s.deny n d
    | none => f x

/-! ### IDENTIFY (R108) -/

/-- Bytes followed by zeros up to a length. -/
def zeroFill (n : Nat) (l : List Byte) : List Byte := l ++ List.replicate (n - l.length) 0

/-- The codec cores in service, as a mask. -/
def State.coresMask (s : State) : Nat := maskBelow 8 (fun c => (s.core c).st == .inService)

/-- SQ_MAX of a function. -/
def State.sqMax (s : State) (f : Nat) : Nat := bits (s.regOr (if f = 0 then 4096 + 4096 * 65536 else 0) (0x20100 + 16 * f)) 12 0
/-- CQ_MAX of a function. -/
def State.cqMax (s : State) (f : Nat) : Nat := bits (s.regOr (if f = 0 then 4096 + 4096 * 65536 else 0) (0x20100 + 16 * f)) 28 16

/-- The device identify structure (Table 04-6). -/
def State.deviceIdentity (s : State) : List Byte :=
  let fixed := leBytes 2 0x1F7B ++ leBytes 2 0x8964 ++ leBytes 2 (s.sysField .identRevision) ++ leBytes 2 0x0302
    ++ leBytes 4 Config.romBuild.toNat ++ leBytes 8 Config.serial.toNat
  let now := leBytes 1 s.pwr.mode.code ++ leBytes 1 (b2n s.time.holdover + 2 * b2n s.degraded)
  let most := leBytes 2 512 ++ leBytes 2 256 ++ leBytes 2 128 ++ leBytes 2 4096
  let codec := leBytes 2 s.coresMask ++ (List.range 8).flatMap (fun c => leBytes 4 (s.core c).mcVersion)
  let store := leBytes 4 s.pwr.blobVersion.toNat ++ leBytes 1 s.activeSlots
  zeroFill 4096 (fixed ++ now ++ most ++ codec ++ store)

/-- The function identify structure (Table 04-7). -/
def State.functionIdentity (s : State) (f : Nat) : List Byte :=
  zeroFill 4096 (leBytes 2 f ++ leBytes 2 (s.sqMax f) ++ leBytes 2 (s.cqMax f) ++ leBytes 2 (s.vecCount f)
    ++ leBytes 2 (s.slotMin f) ++ leBytes 2 (s.slotMax f) ++ leBytes 4 (Table.get 0 s.qm.decShare f)
    ++ leBytes 4 (Table.get 0 s.qm.encShare f))

/-- The checks of IDENTIFY (R108), in order. -/
def identifyChecks (x : Slot) : List (Bool × Deny) :=
  [(decide (1 < x.field 16 1), bad 16 5), x.resv 17 24] ++ x.hostAddr 24 64 ++ [x.noHandle]

/-- IDENTIFY. -/
def State.identifyEntry (s : State) (n : Nat) : State :=
  s.command n 0x01 identifyChecks
    (fun x => (s.hostWrite (x.field 24 8) (if x.field 16 1 = 0 then s.deviceIdentity else s.functionIdentity x.fn)).finish n
      .ok 0 0 none)

/-! ### Queues and rings (R109 to R111) -/

/-- A queue number that exists in a function. -/
def State.sqHere (s : State) (f q : Nat) : Bool := decide (q < 4096) && (s.sq (qKey f q)).state != .absent
/-- A ring number that exists in a function. -/
def State.cqHere (s : State) (f c : Nat) : Bool := decide (c < 4096) && (s.cq (qKey f c)).state != .absent

/-- A queue or ring number that a function may not have is denied at 24 (R109). -/
def Slot.numberAt (x : Slot) (f : Nat) : Bool × Deny :=
  let q := x.field 24 2
  (q == 0 || decide ((if f = 0 then 4095 else 1023) < q), bad 24 5)

/-- The checks of CREATE_CQ (R109), in order. -/
def State.createRingChecks (s : State) (x : Slot) : List (Bool × Deny) :=
  let f := x.field 34 1
  [(x.field 16 8 % 4096 != 0, bad 16 6), x.numberAt f,
    (x.field 26 2 == 0 || decide (32767 < x.field 26 2), bad 26 5),
    (decide (f ≤ 15) && decide (s.vecCount f ≤ x.field 28 2), bad 28 5), x.resv 31 32, x.fnAt 34, x.resv 35 48, x.noHandle,
    (s.cqHere f (x.field 24 2), ⟨.invalidQueue, detailOf 24 0⟩),
    (decide (s.cqMax f ≤ (s.qm.cqs.filter (fun e => keyFn e.1 == f)).length), ⟨.noResource, detailOf 24 0⟩)]

/-- CREATE_CQ (R109). -/
def State.createRing (s : State) (n : Nat) : State :=
  s.command n 0x02 s.createRingChecks
    (fun x => (s.setCq (qKey (x.field 34 1) (x.field 24 2)) { Cq.absent with
      state := .active, base := x.field 16 8, size := x.field 26 2 + 1, vector := x.field 28 2, aggCount := x.field 30 1
      aggTime := x.field 32 2 }).finish n .ok 0 0 none)

/-- The checks of CREATE_SQ (R110), in order. -/
def State.createQueueChecks (s : State) (x : Slot) : List (Bool × Deny) :=
  let f := x.field 32 1
  [(x.field 16 8 % 4096 != 0, bad 16 6), x.numberAt f, (x.field 26 2 == 0, bad 26 5), (x.field 30 1 == 0, bad 30 5),
    (x.field 31 1 == 0 || decide (128 < x.field 31 1), bad 31 5), x.fnAt 32, (decide (1 < x.field 33 1), bad 33 8),
    x.resv 34 48, x.noHandle,
    (s.sqHere f (x.field 24 2), ⟨.invalidQueue, detailOf 24 0⟩),
    (!decide (x.field 28 2 < 4096) || (s.cq (qKey f (x.field 28 2))).state != .active, ⟨.invalidQueue, detailOf 28 0⟩),
    (decide (s.sqMax f ≤ s.sqCount f), ⟨.noResource, detailOf 24 0⟩)]

/-- CREATE_SQ (R110). -/
def State.createQueue (s : State) (n : Nat) : State :=
  s.command n 0x04 s.createQueueChecks
    (fun x =>
      let k := qKey (x.field 32 1) (x.field 24 2)
      let s1 := s.setSq k { Sq.absent with
        state := .active, base := x.field 16 8, size := x.field 26 2 + 1, cq := x.field 28 2, weight := x.field 30 1
        burst := x.field 31 1, ordered := bit (x.field 33 1) 0 }
      { s1 with qm.arb := { s1.qm.arb with credit := Table.del s1.qm.arb.credit k } }.finish n .ok 0 0 none)

/-- The checks of DELETE_CQ (R111), in order. -/
def State.deleteRingChecks (s : State) (x : Slot) : List (Bool × Deny) :=
  let f := x.field 18 1
  let c := x.field 16 2
  [x.fnAt 18, x.resv 19 32, x.noHandle, (c == 0, ⟨.notPermitted, detailOf 16 0⟩),
    (!s.cqHere f c, ⟨.invalidQueue, detailOf 16 0⟩),
    ((s.cq (qKey f c)).state == .draining || s.qm.sqs.any (fun e => keyFn e.1 == f && e.2.cq == c), ⟨.busy, none⟩)]

/-- DELETE_CQ (R111). -/
def State.deleteRing (s : State) (n : Nat) : State :=
  s.command n 0x03 s.deleteRingChecks
    (fun x =>
      let f := x.field 18 1
      let c := x.field 16 2
      let s1 := s.setCq (qKey f c) Cq.absent
      let gone := fun (e : Nat × Slot) => e.2.fn == f && e.2.cq == c && e.2.phase == .posted
      ((forEach (s1.slotList.filter gone) s1 (fun e s => s.setSlot e.1 none)).slotsCheck).finish n .ok 0 0 none)

/-- The slots of a queue whose completions have not been written. -/
def State.unposted (s : State) (k : Nat) : List Nat :=
  (s.slotList.filter (fun e => qKey e.2.fn e.2.sq == k && !e.2.done)).map Prod.fst

/-- The checks of DELETE_SQ (R111), in order. -/
def State.deleteQueueChecks (s : State) (x : Slot) : List (Bool × Deny) :=
  let f := x.field 18 1
  let q := x.field 16 2
  [x.fnAt 18, x.resv 19 32, x.noHandle, (q == 0, ⟨.notPermitted, detailOf 16 0⟩),
    (!s.sqHere f q, ⟨.invalidQueue, detailOf 16 0⟩),
    ((s.sq (qKey f q)).state == .draining, ⟨.busy, none⟩)]

/-- DELETE_SQ (R84, R111): the queue drains, and the command completes once its entries have. -/
def State.deleteQueue (s : State) (n : Nat) : State :=
  s.command n 0x05 s.deleteQueueChecks
    (fun x =>
      let f := x.field 18 1
      let k := qKey f (x.field 16 2)
      let q := s.sq k
      let s1 := s.setSq k { q with state := .draining, cache := [], invalidate := false }
      let s2 := forEach (s1.openEntries f (x.field 16 2)) s1 (fun m s => s.stopEntry true m)
      (s2.waitFor ⟨n, s2.unposted k, 0, some q.head⟩).settleQueue k)

/-! ### Features (R112, Table 04-10) -/

/-- The checks of a feature's selector. -/
def State.featureChecks (s : State) (x : Slot) : List (Bool × Deny) :=
  let feature := x.field 16 1
  let f := x.field 17 1
  let q := x.field 18 2
  [(feature == 0 || decide (6 < feature), bad 16 5), (x.fn != 0 && f != x.fn, bad 17 1), x.fnAt 17, x.resv 20 24]
    ++ (if x.op = 0x07 ∧ feature = 1 then
      [(x.field 24 1 == 0 || x.field 25 1 == 0 || decide (128 < x.field 25 1), bad 24 5)] else [])
    ++ [x.noHandle,
      (feature == 1 && (!s.sqHere f q || (x.op == 0x07 && q == 0)), ⟨.invalidQueue, detailOf 18 0⟩),
      (feature == 2 && !s.cqHere f q, ⟨.invalidQueue, detailOf 18 0⟩)]

/-- The value of a feature as a 64-bit number. -/
def State.featureValue (s : State) (feature f q : Nat) : Nat :=
  match feature with
  | 1 => (s.sq (qKey f q)).weight + 2 ^ 8 * (s.sq (qKey f q)).burst
  | 2 =>
    let c := (s.cq (qKey f q)).settled
    c.aggCount + 2 ^ 16 * c.aggTime
  | 3 =>
    Table.get 0 s.qm.decShare f % 2 ^ 16 + 2 ^ 16 * (s.decUse f % 2 ^ 16) + 2 ^ 32 * (Table.get 0 s.qm.encShare f % 2 ^ 16)
      + 2 ^ 48 * (s.encUse f % 2 ^ 16)
  | 4 => s.pwr.mode.code + 2 ^ 4 * b2n s.time.holdover + 2 ^ 5 * b2n s.degraded + 2 ^ 8 * s.coresUp
  | 5 => s.qm.modeReq % 16 + 2 ^ 4 * b2n s.qm.modeReqPending + 2 ^ 8 * s.qm.modeReqStatus
  | _ => Table.get 0 s.time.overruns f

/-- GET_FEATURE. -/
def State.getFeatureEntry (s : State) (n : Nat) : State :=
  s.command n 0x06 s.featureChecks (fun x =>
    let v := s.featureValue (x.field 16 1) (x.field 17 1) (x.field 18 2)
    s.finish n .ok (wordOf v 0) (wordOf v 1) none)

/-- A SET_FEATURE of one feature. -/
def State.setFeature (s : State) (n feature : Nat) (f : Slot → State) : State :=
  match s.ready n 0x07 with
  | some x => if x.field 16 1 = feature then s.command n 0x07 s.featureChecks f else s
  | none => s

/-- SET_FEATURE QUEUE_ARB: the round that is under way keeps the credit it has set (R74). -/
def State.setArb (s : State) (n : Nat) : State :=
  s.setFeature n 1 (fun x =>
    let k := qKey (x.field 17 1) (x.field 18 2)
    (s.setSq k { s.sq k with weight := x.field 24 1, burst := x.field 25 1 }).finish n .ok 0 0 none)

/-- SET_FEATURE COMPLETION_AGG: the owner of a ring and the physical function meet R28. -/
def State.setAgg (s : State) (n : Nat) : State :=
  s.setFeature n 2 (fun x =>
    let k := qKey (x.field 17 1) (x.field 18 2)
    let value := x.field 24 1 + 2 ^ 16 * x.field 26 2
    match s.contest (.aggregation k) value x.master 0x07 (fun _ => true) (fun _ t => t) with
    | (true, t) => t.finish n .conflict 0 0 (detailOf 0 0)
    | (false, t) =>
      ((t.setCq k { t.cq k with aggNext := some (x.field 24 1, x.field 26 2) }).keepOrder (.aggregation k) value x.master
        0x07 0).finish n .ok 0 0 none)

/-- SET_FEATURE MODE_REQUEST (R437). -/
def State.setMode (s : State) (n : Nat) : State :=
  s.setFeature n 5 (fun x => (s.start n).requestMode (x.field 24 1 % 16) (.command n))

/-! ### Shares (R113) -/

/-- The sum of the shares of the functions other than one. -/
def otherShares (t : Table Nat) (f : Nat) : Nat := (t.filter (fun e => e.1 != f)).foldl (fun n e => n + e.2) 0

/-- The checks of SET_SHARES (R113), in order. -/
def State.setSharesChecks (s : State) (x : Slot) : List (Bool × Deny) :=
  let f := x.field 16 1
  let d := x.field 20 4
  let e := x.field 24 4
  [x.fnAt 16, x.resv 17 20, x.resv 28 32, x.noHandle,
    (decide (24000 < otherShares s.qm.decShare f + d) || decide (d < s.decUse f), ⟨.admissionDenied, detailOf 20 0⟩),
    (decide (12000 < otherShares s.qm.encShare f + e) || decide (e < s.encUse f), ⟨.admissionDenied, detailOf 24 0⟩)]

/-- SET_SHARES. -/
def State.setSharesEntry (s : State) (n : Nat) : State :=
  s.command n 0x08 s.setSharesChecks
    (fun x =>
      let f := x.field 16 1
      { s with qm := { s.qm with
        decShare := Table.set 0 s.qm.decShare f (x.field 20 4)
        encShare := Table.set 0 s.qm.encShare f (x.field 24 4) } }.finish n .ok 0 0 none)

/-! ### STAGE (R114, R115) -/

/-- The route of a command to the staging session: its submission queue. -/
def Slot.route (x : Slot) : Route := .queue x.sq

/-- A sub-operation of STAGE. `used` is where its own fields end, after byte 16. -/
def State.stageCommand (s : State) (n subop : Nat) (checks : Slot → List (Bool × Deny)) (f : Slot → State) : State :=
  match s.ready n 0x09 with
  | some x => if x.field 16 1 = subop then s.command n 0x09 checks f else s
  | none => s

/-- The sub-operation is the holder's, through its own route. -/
def State.holderOnly (s : State) (x : Slot) : Bool × Deny := (!s.holds x.master x.route, ⟨.notPermitted, detailOf 0 0⟩)

/-- The checks of STAGE CLAIM (R114), in order. -/
def claimChecks (x : Slot) : List (Bool × Deny) :=
  [x.resv 17 32, x.noHandle]

/-- STAGE CLAIM. -/
def State.claimEntry (s : State) (n : Nat) : State :=
  s.stageCommand n 0 claimChecks (fun x =>
    match s.claim x.master x.route with
    | (.granted, t) => t.finish n .ok 0 0 none
    | (.busy, t) => t.finish n .busy 0 0 none
    | (.conflict, t) => t.finish n .conflict 0 0 none)

/-- The pairs of a STAGE WRITE or of a STAGE CCW: offsets and values. -/
def stagePairs (bs : List Byte) (start count : Nat) : List (Nat × Nat) :=
  (List.range count).map (fun i => (fieldLe bs (start + 8 * i) 4, fieldLe bs (start + 4 + 8 * i) 4))

/-- A virtual function may stage a register: it belongs to an output that the function owns (R114, chapter 8). -/
def State.ownsReg (s : State) (f off : Nat) : Bool :=
  decide (0x190000 ≤ off) && decide (off < 0x198000) && (match s.outp ((off - 0x190000) / 256) with
    | some o => o.fn == f && (o.st == .active || o.st == .off)
    | none => false)

/-- The first pair that a test accepts, by its place. -/
def pairAt (l : List (Nat × Nat)) (p : Nat → Bool) : Option Nat := (List.range l.length).find? (fun i =>
  match l[i]? with
  | some e => p e.1
  | none => false)

/-- Pairs go to the staging views. -/
def State.putPairs (s : State) (l : List (Nat × Nat)) : State :=
  forEach l s (fun e s => match stagedAt e.1 with
    | some r => s.putStaged r e.2
    | none => s)

/-- The denial of the first pair that a test accepts. -/
def pairDeny (l : List (Nat × Nat)) (start : Nat) (p : Nat → Bool) (d : Nat → Deny) : Bool × Deny :=
  match pairAt l p with
  | some i => (true, d (start + 8 * i))
  | none => (false, d start)

/-- The checks of STAGE WRITE (R115), in order. -/
def State.stageWriteChecks (s : State) (x : Slot) : List (Bool × Deny) :=
  let count := x.field 17 1
  let l := stagePairs x.bytes 24 count
  [(count == 0 || decide (29 < count), bad 17 5),
    pairDeny l 24 (fun off => x.fn != 0 && !s.ownsReg x.fn off) (fun o => ⟨.notPermitted, detailOf o 0⟩),
    x.resv 18 24, pairDeny l 24 (fun off => (stagedAt off).isNone) (fun o => bad o 5),
    x.resv (24 + 8 * count) (16 * x.field 2 2), x.noHandle]

/-- STAGE WRITE: permission comes before the fields (R101, R114). -/
def State.stageWriteEntry (s : State) (n : Nat) : State :=
  s.stageCommand n 1 s.stageWriteChecks
    (fun x =>
      let (st, t) := s.stagingWrite x.master x.route (fun t => t.putPairs (stagePairs x.bytes 24 (x.field 17 1)))
      t.finish n st 0 0 none)

/-- The checks of STAGE CHECK (R115), in order. -/
def State.stageCheckChecks (s : State) (x : Slot) : List (Bool × Deny) :=
  [x.resv 17 32, x.noHandle, s.holderOnly x,
    (s.stage.st == .checking || s.stage.st == .armed, ⟨.busy, none⟩)]

/-- STAGE CHECK. -/
def State.stageCheckEntry (s : State) (n : Nat) : State :=
  s.stageCommand n 2 s.stageCheckChecks
    (fun _ => (s.start n).checkBegin (some (.slot n)))

/-- The checks of STAGE APPLY (R115), in order. -/
def State.stageApplyChecks (s : State) (x : Slot) : List (Bool × Deny) :=
  [(decide (8 ≤ x.field 17 1), bad 17 8), x.resv 18 24, x.noHandle, s.holderOnly x]

/-- STAGE APPLY (R22 to R24, Table 04-12). -/
def State.stageApplyEntry (s : State) (n : Nat) : State :=
  s.stageCommand n 3 s.stageApplyChecks
    (fun x =>
      let (r, t) := (s.start n).applyOrder (bit (x.field 17 1) 0) (Fin.ofNat 4 (x.field 17 1 / 2))
        (BitVec.ofNat 64 (x.field 24 8)) (some (.slot n))
      match r with
      | .armed => t
      | .notChecked => t.finish n .invalidField 0 0 (detailOf 16 0x108)
      | .late => t.finish n .invalidField 0 0 (detailOf 24 0x109)
      | .noTick => t.finish n .invalidField 0 0 (detailOf 17 0x105))

/-- The checks of STAGE CANCEL (R115), in order. -/
def State.stageCancelChecks (s : State) (x : Slot) : List (Bool × Deny) :=
  [x.resv 17 32, x.noHandle, s.holderOnly x]

/-- STAGE CANCEL. -/
def State.stageCancelEntry (s : State) (n : Nat) : State :=
  s.stageCommand n 4 s.stageCancelChecks (fun _ => s.stageCancel.finish n .ok 0 0 none)

/-- The checks of STAGE STATUS (R114), in order. -/
def stageStatusChecks (x : Slot) : List (Bool × Deny) :=
  [x.resv 17 32, x.noHandle]

/-- STAGE STATUS. -/
def State.stageStatusEntry (s : State) (n : Nat) : State :=
  s.stageCommand n 5 stageStatusChecks (fun _ => s.finish n .ok (s.sysField .sysStageStatus) 0 none)

/-! ### ABORT (R116) -/

/-- The checks of ABORT (R116), in order. -/
def State.abortChecks (s : State) (x : Slot) : List (Bool × Deny) :=
  [x.resv 18 20, x.resv 24 32, x.noHandle,
    (x.field 16 2 == 0 || !s.sqHere x.fn (x.field 16 2), ⟨.invalidQueue, detailOf 16 0⟩)]

/-- ABORT: it waits for the completion of every entry it names that has not been written, finished ones among them. -/
def State.abortEntry (s : State) (n : Nat) : State :=
  s.command n 0x0A s.abortChecks
    (fun x =>
      let l := (s.unposted (qKey x.fn (x.field 16 2))).filter (fun m =>
        (s.slot m).any (fun y => y.cid == BitVec.ofNat 32 (x.field 20 4)))
      (forEach l s (fun m s => s.stopEntry true m)).waitFor ⟨n, l, 0, none⟩)

/-! ### Image updates (R117, R459) -/

/-- A change of mode other than that to or from UPDATE is in progress. -/
def State.modeMoves (s : State) : Bool := s.changing && !s.updateDue

/-- The checks of NVS_UPDATE (R117), in order. A LENGTH that is no multiple of 64 is out of RANGE (DESIGN CHOICE, assumption
34: R117 gives INVALID_FIELD and no extra code). -/
def State.nvsUpdateChecks (s : State) (x : Slot) : List (Bool × Deny) :=
  let i := x.field 16 1
  let offline := x.field 17 1 == 1
  let mode := s.pwr.mode
  [(decide (2 < i), bad 16 5), (decide (1 < x.field 17 1), bad 17 5), x.resv 18 20,
    (x.field 20 4 % 64 != 0 || decide (slotSize (Fin.ofNat 3 i) < x.field 20 4), bad 20 5)] ++ x.hostAddr 24 1
  ++ [x.resv 32 48, x.noHandle,
    (offline && !(mode == .provision || mode == .service || mode == .night || mode == .update),
      ⟨.notPermitted, detailOf 0 3⟩),
    ((s.updateOf (Fin.ofNat 3 i)).isSome || (offline && s.modeMoves), ⟨.busy, none⟩)]

/-- NVS_UPDATE. -/
def State.nvsUpdateEntry (s : State) (n : Nat) : State :=
  s.command n 0x0B s.nvsUpdateChecks
    (fun x => (s.updateBegin (Fin.ofNat 3 (x.field 16 1))
      ⟨false, some n, x.fn, x.field 17 1 == 1, x.field 20 4, 0, none⟩).start n)

/-- The NVS offset of a slot of an image (Table 15-7): slot 0 is A. -/
def slotOffset (i : Fin 3) (slot : Nat) : Nat :=
  (match i with | 0 => 0x100000 | 1 => 0x200000 | 2 => 0x400000) + slot * slotSize i

/-- A microcode image or patch is rejected: ICU source 105 (R219). -/
def State.microcodeRejected (s : State) (i : Fin 3) : State := if i = 2 then s else s.raise 105

/-- An image has been written and verified: its slot is PENDING (R459). -/
def State.imagePending (s : State) (i : Fin 3) (v : Word) : State :=
  (s.setImage i ((s.image i).setSpare .pending v)).bootControl.updateEnd i .ok v false

/-- How writing and verifying an image ended (R117, R215, R459): the slot is PENDING, or stays invalid. -/
def State.imageEnds (s : State) (i : Fin 3) (e : ImageEnd) : State :=
  let bad := ((s.fault 0x090 3 (slotOffset i (s.image i).spareSlot)).updateEnd i .dataError 0 false).microcodeRejected i
  match e with
  | .verified v m => if imageInRange i m then s.imagePending i v else bad
  | .badSignature => bad
  | .writeFailed a => ((s.fault 0x090 1 a.toNat).raise 282).updateEnd i .mediaError 0 false

/-- NVS_UPDATE_END: of an update by command, or of one by PLDM that has been downloaded. An OFFLINE update is written in
UPDATE. -/
def State.nvsUpdateEnds (s : State) (i : Fin 3) (e : ImageEnd) : State :=
  match s.updateOf i with
  | some u =>
    if s.live && u.outcome.isNone && (!u.offline || s.pwr.mode == .update)
        && (!u.pldm || s.mgmt.phase == .verify || s.mgmt.phase == .apply) then s.imageEnds i e else s
  | none => s

/-! ### LOG_READ (R118, R452, R456) -/

/-- One bit of CRC-32C. -/
def crc32cBit (c : Nat) : Nat := if c % 2 = 1 then Nat.xor (c / 2) 0x82F63B78 else c / 2
/-- One byte of CRC-32C. -/
def crc32cByte (c : Nat) (b : Byte) : Nat :=
  crc32cBit (crc32cBit (crc32cBit (crc32cBit (crc32cBit (crc32cBit (crc32cBit (crc32cBit (Nat.xor c b.toNat))))))))
/-- CRC-32C (Castagnoli) of bytes (Table 15-8). -/
def crc32c (bs : List Byte) : Nat := Nat.xor (bs.foldl crc32cByte 0xFFFFFFFF) 0xFFFFFFFF

/-- A record as the NVS stores it, with its trailer (Table 15-8). -/
def LogRec.bytes (r : LogRec) : List Byte :=
  let n := r.payload.length
  let b := leBytes 4 0x4C5A5243 ++ leBytes 1 r.type ++ leBytes 1 r.fn ++ leBytes 2 n ++ leBytes 4 r.seq ++ leBytes 4 0
    ++ leBytes 8 r.dts.toNat ++ leBytes 8 0 ++ r.payload
  zeroFill (64 * ceilDiv (32 + n) 64) b
    ++ zeroFill 64 (leBytes 4 (crc32c b) ++ leBytes 4 0 ++ leBytes 4 r.seq ++ leBytes 4 0x4C5A434F)

/-- Records that fit in `room` bytes, and the first that does not. -/
def recordsFit : List LogRec → Nat → List LogRec × Option LogRec
  | [], _ => ([], none)
  | r :: t, room =>
    let n := recSize r.payload.length
    if n ≤ room then
      let (l, o) := recordsFit t (room - n)
      (r :: l, o)
    else ([], some r)

/-- The checks of LOG_READ (R118), in order. -/
def logReadChecks (x : Slot) : List (Bool × Deny) :=
  x.hostAddr 16 64 ++ [(x.field 24 4 % 64 != 0, bad 24 5), (decide (1 < x.field 32 1), bad 32 8),
    x.resv 33 48, x.noHandle]

/-- LOG_READ. -/
def State.logReadEntry (s : State) (n : Nat) : State :=
  s.command n 0x0C logReadChecks
    (fun x =>
      let log := s.nvs.log.reverse
      let oldest := match log.head? with
        | some r => r.seq
        | none => x.field 28 4
      let excess := x.field 32 1 == 0 && decide (x.field 28 4 < oldest)
      let first := if x.field 32 1 = 1 then oldest else max oldest (x.field 28 4)
      let mine := log.filter (fun r => decide (first ≤ r.seq) && (x.fn == 0 || r.fn == x.fn))
      let (l, rest) := recordsFit mine (x.field 24 4)
      let next := match rest, mine.getLast? with
        | some r, _ => r.seq
        | none, some r => r.seq + 1
        | none, none => first
      (s.hostWrite (x.field 16 8) (l.flatMap LogRec.bytes)).finish n .ok l.length next
        (if excess then detailOf 28 0x10 else none))

/-! ### The rows -/

/-- IDENTIFY. -/
def execIdentify (n : Fin 4096) (s : State) : Host.Outcome State Fault Refusal := .next (s.identifyEntry n.val)
/-- CREATE_CQ. -/
def execCreateCq (n : Fin 4096) (s : State) : Host.Outcome State Fault Refusal := .next (s.createRing n.val)
/-- DELETE_CQ. -/
def execDeleteCq (n : Fin 4096) (s : State) : Host.Outcome State Fault Refusal := .next (s.deleteRing n.val)
/-- CREATE_SQ. -/
def execCreateSq (n : Fin 4096) (s : State) : Host.Outcome State Fault Refusal := .next (s.createQueue n.val)
/-- DELETE_SQ. -/
def execDeleteSq (n : Fin 4096) (s : State) : Host.Outcome State Fault Refusal := .next (s.deleteQueue n.val)
/-- GET_FEATURE. -/
def execGetFeature (n : Fin 4096) (s : State) : Host.Outcome State Fault Refusal := .next (s.getFeatureEntry n.val)
/-- SET_QUEUE_ARB. -/
def execSetQueueArb (n : Fin 4096) (s : State) : Host.Outcome State Fault Refusal := .next (s.setArb n.val)
/-- SET_COMPLETION_AGG. -/
def execSetCompletionAgg (n : Fin 4096) (s : State) : Host.Outcome State Fault Refusal := .next (s.setAgg n.val)
/-- SET_MODE_REQUEST. -/
def execSetModeRequest (n : Fin 4096) (s : State) : Host.Outcome State Fault Refusal := .next (s.setMode n.val)
/-- SET_SHARES. -/
def execSetShares (n : Fin 4096) (s : State) : Host.Outcome State Fault Refusal := .next (s.setSharesEntry n.val)
/-- STAGE_CLAIM. -/
def execStageClaim (n : Fin 4096) (s : State) : Host.Outcome State Fault Refusal := .next (s.claimEntry n.val)
/-- STAGE_WRITE. -/
def execStageWrite (n : Fin 4096) (s : State) : Host.Outcome State Fault Refusal := .next (s.stageWriteEntry n.val)
/-- STAGE_CHECK. -/
def execStageCheck (n : Fin 4096) (s : State) : Host.Outcome State Fault Refusal := .next (s.stageCheckEntry n.val)
/-- STAGE_APPLY. -/
def execStageApply (n : Fin 4096) (s : State) : Host.Outcome State Fault Refusal := .next (s.stageApplyEntry n.val)
/-- STAGE_CANCEL. -/
def execStageCancel (n : Fin 4096) (s : State) : Host.Outcome State Fault Refusal := .next (s.stageCancelEntry n.val)
/-- STAGE_STATUS. -/
def execStageStatus (n : Fin 4096) (s : State) : Host.Outcome State Fault Refusal := .next (s.stageStatusEntry n.val)
/-- ABORT. -/
def execAbort (n : Fin 4096) (s : State) : Host.Outcome State Fault Refusal := .next (s.abortEntry n.val)
/-- NVS_UPDATE. -/
def execNvsUpdate (n : Fin 4096) (s : State) : Host.Outcome State Fault Refusal := .next (s.nvsUpdateEntry n.val)
/-- NVS_UPDATE_END. -/
def execNvsUpdateEnd (image : Fin 3) (e : ImageEnd) (s : State) : Host.Outcome State Fault Refusal :=
  .next (s.nvsUpdateEnds image e)
/-- LOG_READ. -/
def execLogRead (n : Fin 4096) (s : State) : Host.Outcome State Fault Refusal := .next (s.logReadEntry n.val)

end Sys2Proof.Machine
end

