-- ==== Sys2Proof/Machine/Mailbox.lean ====
section
/-!
DEFINITION. Machine/Mailbox.lean: the Lantern mailbox (R461, R463, Tables 15-11 and 15-12).
-/
namespace Sys2Proof.Machine

/-- LMB_DATA[0], by live-view offset. -/
def mailData : Nat := 0x70100

/-- Bytes of LMB_DATA from its start. -/
def State.mailBytes (s : State) (n : Nat) : List Byte :=
  ((List.range (ceilDiv n 4)).flatMap (fun w => leBytes 4 (s.regOr 0 (mailData + 4 * w)))).take n

/-- A reply goes into LMB_DATA: bytes beyond it keep what they hold. -/
def State.putMail (s : State) (l : List Byte) : State :=
  forEach (List.range (ceilDiv l.length 4)) s (fun w s =>
    let old := leBytes 4 (s.regOr 0 (mailData + 4 * w))
    let part := (l.drop (4 * w)).take 4
    s.setReg (mailData + 4 * w) (BitVec.ofNat 32 (leNat (part ++ old.drop part.length))))

/-- A mailbox command ends: BUSY clears, the status and the reply stand, and ICU source 281 is raised. -/
def State.mailEnd (s : State) (st : Status) (reply : List Byte) : State :=
  let s1 := s.putMail reply
  { s1 with mail := { s1.mail with busy := false, status := st, rlen := reply.length } }.raise 281

/-- The argument bytes of a mailbox command; none where no command has the code. -/
def mailLen (cmd : Nat) : Option Nat :=
  match cmd with
  | 1 => some 0
  | 2 => some 0
  | 3 => some 96
  | 4 => some 8
  | _ => none

/-- GO: a command starts, unless one runs. One that is unknown, or whose LEN does not match, ends at once. -/
def State.mailGo (s : State) (cmd len : Nat) : State :=
  if s.mail.busy then s
  else
    let s1 := { s with mail := { s.mail with busy := true, cmd := cmd, len := len } }
    match mailLen cmd with
    | none => s1.mailEnd .invalidOpcode []
    | some n => if n = len then s1 else s1.mailEnd .invalidField []

/-- The Lantern core carries out the mailbox command that runs, if it is this one. -/
def State.mailRun (s : State) (cmd : Nat) (f : State → State) : State :=
  if s.mail.busy && s.mail.cmd == cmd && s.pwr.mode != .off && s.pwr.mode != .pilot && !s.pwr.inWarmReset then f s else s

/-- READ_SENSORS: 37 words. -/
def State.readSensors (s : State) : State :=
  let w := fun (id : RegId) (i : Nat) => leBytes 4 (s.pwrField id i)
  s.mailEnd .ok ((List.range 14).flatMap (w .pwrTemp) ++ w .pwrVin 0 ++ w .pwrIin 0 ++ w .pwrPin 0
    ++ (List.range 10).flatMap (fun r => w .pwrRailV r ++ w .pwrRailI r))

/-- DEBUG_CHALLENGE: the nonce stands for one attempt. -/
def State.debugChallenge (s : State) (nonce : List Byte) : State :=
  let n := zeroFill 32 (nonce.take 32)
  { s with mail.nonce := some n }.mailEnd .ok (n ++ leBytes 8 Config.serial.toNat)

/-- DEBUG_UNLOCK: each outcome raises ICU source 284 and is logged. Table 15-8 has no type for it: the record's type and
payload are free values. -/
def State.debugUnlock (s : State) (good : Bool) : State :=
  let yes := good && s.mail.nonce.isSome
  let (v, s1) := s.drawFree
  let s2 := { s1 with mail := { s1.mail with nonce := none, unlocked := s1.mail.unlocked || yes } }
  ((s2.logRecord (v % 256) 0xFF (leBytes 8 (v / 256))).raise 284).mailEnd (if yes then .ok else .dataError) []

/-- A byte of an area of the NVS: of the record that lies there, or 0 where none does. -/
def areaByte (l : List LogRec) (a : Nat) : Byte :=
  match l.find? (fun r => decide (r.pos ≤ a) && decide (a < r.pos + recSize r.payload.length)) with
  | some r => r.bytes.getD (a - r.pos) 0
  | none => 0

/-- The records and the place of an area that NVS_READ may read: boot control in its two copies, the retirement area and the
event log. -/
def State.nvsArea (s : State) (a n : Nat) : Option (List LogRec × Nat) :=
  let within := fun lo size => decide (lo ≤ a) && decide (a + n ≤ lo + size)
  if within 0 0x2000 then some (s.nvs.bootCtl, 0x1000)
  else if within 0x10000 0x10000 then some (s.nvs.retirement, 0x10000)
  else if within 0x01000000 0x01000000 then some (s.nvs.log, 0x01000000)
  else none

/-- NVS_READ. -/
def State.nvsReadMail (s : State) : State :=
  let arg := s.mailBytes 8
  let a := fieldLe arg 0 4
  let n := fieldLe arg 4 4
  if n = 0 ∨ 256 < n then s.mailEnd .invalidField []
  else
    match s.nvsArea a n with
    | none => s.mailEnd .notPermitted []
    | some (l, size) => s.mailEnd .ok ((List.range n).map (fun i => areaByte l ((a + i) % size)))

/-- READ_SENSORS. -/
def execReadSensors (s : State) : Host.Outcome State Fault Refusal := .next (s.mailRun 1 State.readSensors)
/-- DEBUG_CHALLENGE. -/
def execDebugChallenge (nonce : List Byte) (s : State) : Host.Outcome State Fault Refusal :=
  .next (s.mailRun 2 (fun t => t.debugChallenge nonce))
/-- DEBUG_UNLOCK. -/
def execDebugUnlock (good : Bool) (s : State) : Host.Outcome State Fault Refusal :=
  .next (s.mailRun 3 (fun t => t.debugUnlock good))
/-- NVS_READ. -/
def execNvsRead (s : State) : Host.Outcome State Fault Refusal := .next (s.mailRun 4 State.nvsReadMail)

end Sys2Proof.Machine
end

