-- ==== Sys2Proof/Machine/Registers.lean ====
section
/-!
DEFINITION. Machine/Registers.lean: a write to a register of BAR0 or of a virtual function's status page, and the access of
the fabric that the Wick cores and the debug module make to the register blocks (R9, R10, R18, R96, R489).
-/
namespace Sys2Proof.Machine

/-- The RW fields of a register take a value: a write that would put a field outside its range is ignored as a whole
(R489). -/
def State.putRw (s : State) (r : RegAt) (v : Nat) : State :=
  let t := s.setReg r.off (BitVec.ofNat 32 (v &&& r.rwMask))
  if (t.regCheck r.spec.id r.i r.j (v &&& r.rwMask)).isSome then s else t

/-- A setting that takes effect in the interrupt controller. -/
def State.putIcu (s : State) (r : RegAt) (v : Nat) : State := (s.putRw r v).hostCheck

/-- A setting that is also written to the persistent settings (R451). -/
def State.putPersistent (s : State) (r : RegAt) (v : Nat) : State :=
  (s.putRw r v).persist r.off (BitVec.ofNat 32 (v &&& r.rwMask))

/-- A write of a heartbeat timeout; the check starts as the timeout leaves 0 (R87). -/
def State.putTimeout (s : State) (f key v : Nat) : State :=
  let t := s.setReg key (BitVec.ofNat 32 (v % 2 ^ 17))
  if s.hbRaw f = 0 ∧ t.hbRaw f ≠ 0 then t.beat f else t

/-- TIME and the SYS registers that are not plain fields. -/
def State.writeTime (s : State) (m : Master) (r : RegAt) (v : Word) : State :=
  match r.spec.id with
  | .sysStageClaim => s.sysClaim m v
  | .sysStageCheck => s.sysCheck m v
  | .sysStageApply => s.sysApply m v
  | .sysStageCancel => s.sysCancel m v
  | .timeStatus => if v.getLsbD 10 then { s with time.setRej := false } else s
  | .timeRefCfg => (s.putRw r v.toNat).refsReconfigured (s.regAt r)
  | .timeSetGo => s.timeSet m v
  | _ => s.putRw r v.toNat

/-- QMGR: the base and size registers of an enabled admin queue keep their values (R94). -/
def State.writeQmgr (s : State) (r : RegAt) (v : Word) : State :=
  match r.spec.id with
  | .qmgrCtrl => if v.getLsbD 0 then s.adminEnable 0 else s.adminDisable 0
  | .qmgrStatus => if v.getLsbD 2 then { s with qm.cqFull := false } else s
  | .qmgrAsqLo | .qmgrAsqHi | .qmgrAcqLo | .qmgrAcqHi | .qmgrAqSize => if s.aqEn 0 then s else s.putRw r v.toNat
  | .qmgrHeartbeat => if s.live then s.beat 0 else s
  | .qmgrHbCfg => s.putTimeout 0 r.off v.toNat
  | .qmgrFnLost => { s with qm.fnLost := s.qm.fnLost &&& ~~~(BitVec.ofNat 16 (v.toNat % 2 ^ 16)) }
  | _ => s.putRw r v.toNat

/-- ICU and SNUF. -/
def State.writeIcu (s : State) (m : Master) (r : RegAt) (v : Word) : State :=
  let w : Fin 32 := Fin.ofNat 32 r.i
  match r.spec.id with
  | .icuCfg | .icuSrcCfg => s.putIcu r v.toNat
  | .icuStatus => if v.getLsbD 0 then { s with icu.orderErr := false } else s
  | .icuPendSet => if s.icuOpen then s.icuBits (· ||| sourceSet w v) id else s
  | .icuPendClr => if s.icuOpen then s.icuBits (· &&& ~~~sourceSet w v) id else s
  | .icuMaskSet => if s.icuOpen then s.icuBits id (· ||| sourceSet w v) else s
  | .icuMaskClr => if s.icuOpen then s.icuBits id (· &&& ~~~sourceSet w v) else s
  | .icuComplete => if s.icuOpen then s.icuCompleteWrite (Fin.ofNat 14 r.i) v else s
  | .snufStatus => if v.getLsbD 1 then { s with snuf.overflow := false } else s
  | .snufCtrl => s.snufHalt m v
  | .snufFirstCtrl => if v.getLsbD 0 then { s with snuf.first := none } else s
  | .snufRetest => s.snufRetest m v
  | _ => s.putRw r v.toNat

/-- LMB_CTRL: CMD and LEN are set, and GO starts the command (R463). -/
def State.writeMail (s : State) (r : RegAt) (v : Word) : State :=
  let cmd := bits v.toNat 7 0
  let len := bits v.toNat 16 8
  if 256 < len then s
  else
    let t := s.putRw r v.toNat
    if v.getLsbD 31 then t.mailGo cmd len else t

/-- PWR and the mailbox. -/
def State.writePwr (s : State) (m : Master) (r : RegAt) (v : Word) : State :=
  match r.spec.id with
  | .pwrModeReq => s.requestMode (bits v.toNat 3 0) (.register m)
  | .pwrCapCfg | .pwrBootCfg | .pwrPilotCfg => s.putPersistent r v.toNat
  | .lmbCtrl => s.writeMail r v
  | _ => s.putRw r v.toNat

/-- BPM and DMA: the registers of channels 0 to 7 and of a granted channel are not written, but for START of a granted one
(R399). -/
def State.writeBpm (s : State) (r : RegAt) (v : Word) : State :=
  match r.spec.id with
  | .bpmAudCtrl => s.auditRelease v
  | .dmaStatus => if v.getLsbD 0 then { s with dmaReject := false } else s
  | .dmaChCtrl =>
    if !s.live then s
    else
      let s1 := if v.getLsbD 0 then s.dmaStart r.i else s
      let s2 := if v.getLsbD 1 then s1.dmaStop r.i else s1
      if v.getLsbD 2 then s2.dmaClear r.i else s2
  | .dmaChCfg | .dmaChDesc => if r.i < 8 ∨ s.dmaGranted r.i then s else s.putRw r v.toNat
  | _ => s.putRw r v.toNat

/-- SWC, TRF and LMP. -/
def State.writeSwc (s : State) (m : Master) (r : RegAt) (v : Word) : State :=
  match r.spec.id with
  | .swcTblCmd => ((s.tblWrite m v).tblRead m v).tblInvalidate m v
  | .swcTblStatus => if v.getLsbD 1 then { s with swc.tblErr := false } else s
  | .swcTblData => { s with swc.tblData := Table.set 0 s.swc.tblData r.i v }
  | .trfTblCmd => (s.trfTblWrite m v).trfTblRead m v
  | .trfTblStatus => if v.getLsbD 1 then { s with trf.tblErr := false } else s
  | .trfTblData => { s with trf.tblData := Table.set 0 s.trf.tblData r.i v }
  | .trfHistSel => s.histSnap m v
  | .lmpHandover => (s.handover m v 1).handover m v 2
  | .lmpRtCtrl =>
    let s1 := if s.live && v.getLsbD 0 then s.routineLoad else s
    if s.live && v.getLsbD 1 then s1.routineUnload else s1
  | .lmpChEvent => if s.live then s.setEvents r.i (v &&& 0x00FFFFFF) else s
  | .lmpChEventClr =>
    let x := s.chan r.i
    if s.live && x.st != .free then s.setChan r.i { x with events := x.events &&& ~~~v } else s
  | _ => s.putRw r v.toNat

/-- TEST: every access breaks an unlock sequence, and the fields are written only in TEST once unlocked (R429, R434). -/
def State.writeTest (s : State) (m : Master) (r : RegAt) (v : Word) : State :=
  match r.spec.id with
  | .testUnlock => s.testUnlock m v
  | .testInj => s.testInject m v
  | _ =>
    let t := s.testTouched
    if t.pwr.mode == .test && t.snuf.unlocked then t.putRw r v.toNat else t

/-- A write to the live view of a register of BAR0: a staged register is written through its staging view alone (R18). -/
def State.liveWrite (s : State) (m : Master) (off : Nat) (v : Word) : State :=
  match regFind off with
  | none => if 0x400000 ≤ off then s.testTouched else s
  | some r =>
    if r.spec.staged then s
    else if off < 0x20000 then s.writeTime m r v
    else if off < 0x40000 then s.writeQmgr r v
    else if off < 0x60000 then s.writeIcu m r v
    else if off < 0x80000 then s.writePwr m r v
    else if off < 0xA0000 then s.writeBpm r v
    else if off < 0x100000 then s.writeSwc m r v
    else if 0x400000 ≤ off then s.writeTest m r v
    else s.putRw r v.toNat

/-- A write to the doorbell array of the physical function (R60). -/
def State.doorbellWrite (s : State) (off : Nat) (v : Word) : State :=
  let i := (off - 0x200000) / 8
  if off % 8 ≠ 0 then s
  else if i < 4096 then s.sqDoorbell 0 i v
  else if i < 8192 then s.cqDoorbell 0 (i - 4096) v
  else s

/-- The fabric cycle in progress: 0.625 ns, ten units (R386: four cycles take 2.5 ns). -/
def State.fabricCycle (s : State) : Nat := s.now / 10

/-- A register of the live view whose writable fields are plain RW fields: a later write of the cycle replaces an earlier
one. -/
def plainRegister (off : Nat) : Bool :=
  match regFind off with
  | some r => !r.spec.staged && r.spec.fields.all (fun f => f.access == .rw || f.access == .ro)
  | none => false

/-- The Lantern core has written this register in the fabric cycle in progress. -/
def State.lanternWrote (s : State) (off : Nat) : Bool :=
  s.stage.lanternCycle == s.fabricCycle && s.stage.lanternWrites.contains off

/-- The Lantern core writes a plain register: its write is the one of highest precedence in its fabric cycle (R29). -/
def State.noteWrite (s : State) (m : Master) (off : Nat) : State :=
  if m = .lantern ∧ plainRegister off then
    { s with stage := { s.stage with
      lanternCycle := s.fabricCycle
      lanternWrites := off :: (if s.stage.lanternCycle = s.fabricCycle then s.stage.lanternWrites else []) } }
  else s

/-- A write to BAR0 of the physical function, or of the Lantern core over the fabric. Of the plain writes that both make to
one register in one fabric cycle the Lantern core's lands last and stands (R29). -/
def State.writeReg (s : State) (m : Master) (off : Nat) (v : Word) : State :=
  if !s.access m off || decide (0x800000 ≤ off) then s
  else if 0x200000 ≤ off ∧ off < 0x400000 then s.doorbellWrite off v
  else if bit off 15 then s.stagingView m off v
  else if m != .lantern && s.lanternWrote off then s
  else (s.noteWrite m off).liveWrite m off v

/-- A write to the doorbells of a virtual function (Table 03-2). -/
def State.vfDoorbell (s : State) (f off : Nat) (v : Word) : State :=
  if off % 8 ≠ 0 then s
  else if off < 0x2000 then s.sqDoorbell f (off / 8) v
  else s.cqDoorbell f ((off - 0x2000) / 8) v

/-- A write to the doorbells or the status page of a virtual function (Tables 03-2 and 03-11). -/
def State.vfWrite (s : State) (f off : Nat) (v : Word) : State :=
  let key := f * 0x1000000 + off
  if off < 0x4000 then s.vfDoorbell f off v
  else if !s.bar0 0x20000 then s
  else
    match vfRegFind off with
    | none => s
    | some r =>
      match r.spec.id with
      | .vfCtrl => if v.getLsbD 0 then s.adminEnable f else s.adminDisable f
      | .vfAsqLo | .vfAsqHi | .vfAcqLo | .vfAcqHi | .vfAqSize =>
        if s.aqEn f then s else s.setReg key (BitVec.ofNat 32 (v.toNat &&& r.rwMask))
      | .vfHeartbeat => if s.live then s.vfBeat f else s
      | .vfHbTimeout => s.putTimeout f key v.toNat
      | _ => s

/-- REGISTER_WRITE: a function writes its own BAR0, the Lantern core writes the physical function's. -/
def execRegisterWrite (m : Master) (off : Nat) (v : Word) (s : State) : Host.Outcome State Fault Refusal :=
  .next (match m with
    | .fn f => if f.val = 0 then s.writeReg m off v else s.vfWrite f.val off v
    | _ => s.writeReg m off v)

/-! ### The fabric -/

/-- A read of the register blocks by a master; a peek has no effect of the read (R327). -/
def State.busRead (s : State) (m : Master) (off : Nat) (peek : Bool) : Word × State :=
  if !s.access m off || decide (0x800000 ≤ off) || (decide (0x200000 ≤ off) && decide (off < 0x400000)) then (0, s)
  else
    match (if bit off 15 then none else regFind off) with
    | none => (BitVec.ofNat 32 (s.peekReg off), s)
    | some r =>
      if peek then (BitVec.ofNat 32 (s.peekReg off), s)
      else if r.spec.id = .icuClaim then
        let t := s.icuClaim (Fin.ofNat 14 r.i)
        (BitVec.ofNat 32 t.rd.toNat, { t with rd := s.rd })
      else
        let t := if 0x400000 ≤ off then s.testTouched else s.readEffect r
        (BitVec.ofNat 32 (s.peekReg off), t)

/-- A write of the register blocks by a master. -/
def State.busWrite (s : State) (m : Master) (off : Nat) (v : Word) : State := s.writeReg m off v

end Sys2Proof.Machine
end

