-- ==== Sys2Proof/Machine/Manage.lean ====
section
/-!
DEFINITION. Machine/Manage.lean: the MCTP endpoint and its PLDM terminus (R437, R449, R450, Table 15-6). The layouts and codes
of replies come from the DMTF specifications that Table 15-6 names (assumption 15); a reply is kept without its transport
header and instance number.
-/
namespace Sys2Proof.Machine

/-! ### Replies -/

/-- Out-of-band management is served in every mode except OFF and PILOT. -/
def State.managed (s : State) : Bool := s.pwr.mode != .off && s.pwr.mode != .pilot && !s.pwr.inWarmReset

/-- The reply to an MCTP control command: command, completion code, data. -/
def State.mctpReply (s : State) (cmd code : Byte) (data : List Byte) : State := s.emit (.mgmt ([0, 0, cmd, code] ++ data))

/-- The reply to a PLDM command: type, command, completion code, data. -/
def State.pldmReply (s : State) (type cmd code : Byte) (data : List Byte) : State :=
  s.emit (.mgmt ([0, type, cmd, code] ++ data))

/-- A management command is served. -/
def State.serve (s : State) (f : State → State) : State := if s.managed then f s else s

/-! ### MCTP control (DSP0236) -/

/-- Set Endpoint ID: 0 sets and 1 forces the ID; there is no static ID to reset to, and no discovered flag. -/
def State.setEid (s : State) (op : Fin 4) (eid : Byte) : State :=
  if 1 < op.val ∨ eid = 0 ∨ eid = 0xFF then s.mctpReply 1 2 []
  else { s with mgmt.eid := eid }.mctpReply 1 0 [0, eid, 0]

/-- Get MCTP Version Support: of the base (0xFF), of control (0) and of PLDM (1). -/
def State.mctpVersion (s : State) (msgType : Byte) : State :=
  match msgType.toNat with
  | 0xFF => s.mctpReply 4 0 (1 :: leBytes 4 (Config.oobVersion 0).toNat)
  | 0 => s.mctpReply 4 0 (1 :: leBytes 4 (Config.oobVersion 1).toNat)
  | 1 => s.mctpReply 4 0 (1 :: leBytes 4 (Config.oobVersion 2).toNat)
  | _ => s.mctpReply 4 0x80 []

/-- SET_ENDPOINT_ID. -/
def execSetEndpointId (op : Fin 4) (eid : Byte) (s : State) : Host.Outcome State Fault Refusal :=
  .next (s.serve (fun t => t.setEid op eid))
/-- GET_ENDPOINT_ID. -/
def execGetEndpointId (s : State) : Host.Outcome State Fault Refusal :=
  .next (s.serve (fun t => t.mctpReply 2 0 [t.mgmt.eid, 0, 0]))
/-- GET_ENDPOINT_UUID. -/
def execGetEndpointUuid (s : State) : Host.Outcome State Fault Refusal :=
  .next (s.serve (fun t => t.mctpReply 3 0 (leBytes 16 Config.uuid.toNat)))
/-- GET_MCTP_VERSION_SUPPORT. -/
def execGetMctpVersionSupport (msgType : Byte) (s : State) : Host.Outcome State Fault Refusal :=
  .next (s.serve (fun t => t.mctpVersion msgType))
/-- GET_MESSAGE_TYPE_SUPPORT: PLDM beside control. -/
def execGetMessageTypeSupport (s : State) : Host.Outcome State Fault Refusal :=
  .next (s.serve (fun t => t.mctpReply 5 0 [1, 1]))

/-! ### PLDM base (DSP0240) -/

/-- SetTID. -/
def State.takeTid (s : State) (tid : Byte) : State :=
  if tid = 0 ∨ tid = 0xFF then s.pldmReply 0 1 2 [] else { s with mgmt.tid := tid }.pldmReply 0 1 0 []

/-- The commands of a PLDM type that the device supports, as a mask (Table 15-6). -/
def pldmCommands (type : Nat) : Option Nat :=
  let mask := fun (l : List Nat) => l.foldl (fun m k => m + 2 ^ k) 0
  match type with
  | 0 => some (mask [1, 2, 3, 4, 5])
  | 2 => some (mask [0x04, 0x11, 0x21, 0x31, 0x32, 0x39, 0x50, 0x51])
  | 5 => some (mask [0x01, 0x02, 0x10, 0x13, 0x14, 0x15, 0x16, 0x17, 0x18, 0x1A, 0x1B, 0x1C, 0x1D])
  | _ => none

/-- GetPLDMVersion: one part, with its CRC-32. -/
def State.pldmVersion (s : State) (type : Byte) : State :=
  if (pldmCommands type.toNat).isNone then s.pldmReply 0 3 0x83 []
  else
    let v := leBytes 4 (Config.oobVersion (16 + type.toNat)).toNat
    s.pldmReply 0 3 0 (leBytes 4 0 ++ [5] ++ v ++ leBytes 4 (crc32 v))

/-- GetPLDMCommands. -/
def State.pldmCommandList (s : State) (type : Byte) : State :=
  match pldmCommands type.toNat with
  | none => s.pldmReply 0 5 0x83 []
  | some m => s.pldmReply 0 5 0 (leBytes 32 m)

/-- SETTID. -/
def execSetTid (tid : Byte) (s : State) : Host.Outcome State Fault Refusal := .next (s.serve (fun t => t.takeTid tid))
/-- GETTID. -/
def execGetTid (s : State) : Host.Outcome State Fault Refusal :=
  .next (s.serve (fun t => t.pldmReply 0 2 0 [t.mgmt.tid]))
/-- GETPLDMVERSION. -/
def execGetPldmVersion (type : Byte) (s : State) : Host.Outcome State Fault Refusal :=
  .next (s.serve (fun t => t.pldmVersion type))
/-- GETPLDMTYPES: base, platform monitoring and control, firmware update. -/
def execGetPldmTypes (s : State) : Host.Outcome State Fault Refusal :=
  .next (s.serve (fun t => t.pldmReply 0 4 0 (leBytes 8 0x25)))
/-- GETPLDMCOMMANDS. -/
def execGetPldmCommands (type : Byte) (s : State) : Host.Outcome State Fault Refusal :=
  .next (s.serve (fun t => t.pldmCommandList type))

/-! ### PLDM platform monitoring and control (DSP0248) -/

/-- The PDRs of Table 15-6 in order, as the PDR type and the sensor or effecter ID: numeric sensors (2), state sensors (4),
the state effecter (11) and the numeric effecter (9). A record's handle is its place, from 1. -/
def pdrList : List (Nat × Nat) :=
  (List.range 14).map (fun k => (2, k + 1)) ++ [(2, 20), (2, 21), (2, 22)] ++ (List.range 10).map (fun k => (2, 30 + k))
    ++ (List.range 10).map (fun k => (2, 40 + k)) ++ [(4, 100), (4, 101), (11, 200), (9, 201)]

/-- The bytes of a PDR: the common header, the terminus and the ID; what follows is not given. -/
def pdrBytes (i : Nat) (e : Nat × Nat) : List Byte :=
  let body := leBytes 2 0 ++ leBytes 2 e.2 ++ Config.pdrBody i
  leBytes 4 (i + 1) ++ [1] ++ leBytes 1 e.1 ++ leBytes 2 0 ++ leBytes 2 body.length ++ body

/-- The sizes of the PDRs. -/
def pdrSizes : List Nat := (List.range pdrList.length).map (fun i => (pdrBytes i (pdrList.getD i (0, 0))).length)

/-- GetPDRRepositoryInfo: available, without times. -/
def State.pdrInfo (s : State) : State :=
  s.pldmReply 2 0x50 0 ([0] ++ List.replicate 26 0 ++ leBytes 4 pdrList.length ++ leBytes 4 (pdrSizes.foldl (· + ·) 0)
    ++ leBytes 4 (pdrSizes.foldl max 0) ++ [0])

/-- GetPDR: handle 0 names the first record; the last is followed by handle 0. -/
def State.pdr (s : State) (handle : Word) : State :=
  let i := handle.toNat - 1
  match pdrList[i]? with
  | none => s.pldmReply 2 0x51 0x82 []
  | some e =>
    let b := pdrBytes i e
    s.pldmReply 2 0x51 0 (leBytes 4 (if i + 1 < pdrList.length then i + 2 else 0) ++ leBytes 4 0 ++ [5] ++ leBytes 2 b.length
      ++ b)

/-- The data size code, the bytes and the value of a numeric sensor. A temperature is signed, in units of 0.25 °C; a failed
sensor is reported as failed. -/
def State.numericSensor (s : State) (id : Nat) : Option (Byte × Byte × List Byte) :=
  if 1 ≤ id ∧ id ≤ 14 then
    let t := s.temp (id - 1)
    some (3, if t.2 then 4 else 0, leBytes 2 (signedBits 16 t.1))
  else if id = 20 then some (2, 0, leBytes 2 (s.pwrField .pwrVin 0))
  else if id = 21 then some (2, 0, leBytes 2 (s.pwrField .pwrIin 0))
  else if id = 22 then some (4, 0, leBytes 4 (s.pwrField .pwrPin 0))
  else if 30 ≤ id ∧ id ≤ 39 then some (2, 0, leBytes 2 (s.pwrField .pwrRailV (id - 30)))
  else if 40 ≤ id ∧ id ≤ 49 then some (2, 0, leBytes 2 (s.pwrField .pwrRailI (id - 40)))
  else none

/-- GetSensorReading. -/
def State.sensorReading (s : State) (id : BitVec 16) : State :=
  match s.numericSensor id.toNat with
  | some (size, st, v) => s.pldmReply 2 0x11 0 ([size, st, 0, 1, 1, 1] ++ v)
  | none => s.pldmReply 2 0x11 0x80 []

/-- GetStateSensorReadings: sensor 100 is the mode, 101 the conditions. -/
def State.stateReading (s : State) (id : BitVec 16) : State :=
  let now : Option Nat := if id = 100 then some s.pwr.mode.code else if id = 101 then some s.conditions else none
  match now with
  | some v => s.pldmReply 2 0x21 0 ([1, 0] ++ leBytes 1 v ++ [0] ++ leBytes 1 v)
  | none => s.pldmReply 2 0x21 0x80 []

/-- SetStateEffecterStates: effecter 200 requests a mode (R437), whose outcome stands in PWR_MODE_RES. -/
def State.setState (s : State) (id : BitVec 16) (state : Byte) : State :=
  if id = 200 then (s.requestMode state.toNat .outOfBand).pldmReply 2 0x39 0 [] else s.pldmReply 2 0x39 0x80 []

/-- SetNumericEffecterValue: effecter 201 is PCAP, in watts, which is persisted (R451). -/
def State.setPcap (s : State) (id : BitVec 16) (v : Word) : State :=
  if id ≠ 201 then s.pldmReply 2 0x31 0x80 []
  else if 127 < v.toNat then s.pldmReply 2 0x31 2 []
  else
    let w : Word := BitVec.ofNat 32 (s.regOr 1109 0x60010 / 128 * 128 + v.toNat)
    ((s.setReg 0x60010 w).persist 0x60010 w).pldmReply 2 0x31 0 []

/-- GetNumericEffecterValue. -/
def State.getPcap (s : State) (id : BitVec 16) : State :=
  if id ≠ 201 then s.pldmReply 2 0x32 0x80 []
  else
    let v := leBytes 1 (s.regOr 1109 0x60010 % 128)
    s.pldmReply 2 0x32 0 ([0, 1] ++ v ++ v)

/-- SetEventReceiver: 0 disables events, 1 sends them; polling is not supported. -/
def State.setReceiver (s : State) (enable addr : Byte) : State :=
  match enable.toNat with
  | 0 => { s with mgmt.receiver := none }.pldmReply 2 4 0 []
  | 1 => { s with mgmt.receiver := some addr }.pldmReply 2 4 0 []
  | _ => s.pldmReply 2 4 0x82 []

/-- GETPDRREPOSITORYINFO. -/
def execGetPdrRepositoryInfo (s : State) : Host.Outcome State Fault Refusal := .next (s.serve State.pdrInfo)
/-- GETPDR. -/
def execGetPdr (handle : Word) (s : State) : Host.Outcome State Fault Refusal := .next (s.serve (fun t => t.pdr handle))
/-- GETSENSORREADING. -/
def execGetSensorReading (id : BitVec 16) (s : State) : Host.Outcome State Fault Refusal :=
  .next (s.serve (fun t => t.sensorReading id))
/-- GETSTATESENSORREADINGS. -/
def execGetStateSensorReadings (id : BitVec 16) (s : State) : Host.Outcome State Fault Refusal :=
  .next (s.serve (fun t => t.stateReading id))
/-- SETSTATEEFFECTERSTATES. -/
def execSetStateEffecterStates (id : BitVec 16) (state : Byte) (s : State) : Host.Outcome State Fault Refusal :=
  .next (s.serve (fun t => t.setState id state))
/-- SETNUMERICEFFECTERVALUE. -/
def execSetNumericEffecterValue (id : BitVec 16) (v : Word) (s : State) : Host.Outcome State Fault Refusal :=
  .next (s.serve (fun t => t.setPcap id v))
/-- GETNUMERICEFFECTERVALUE. -/
def execGetNumericEffecterValue (id : BitVec 16) (s : State) : Host.Outcome State Fault Refusal :=
  .next (s.serve (fun t => t.getPcap id))
/-- SETEVENTRECEIVER. -/
def execSetEventReceiver (enable addr : Byte) (s : State) : Host.Outcome State Fault Refusal :=
  .next (s.serve (fun t => t.setReceiver enable addr))

/-! ### PLDM firmware update (DSP0267, R450) -/

/-- The number of a phase as GetStatus reports it. -/
def PldmPhase.code : PldmPhase → Nat
  | .idle => 0 | .learn => 1 | .ready => 2 | .download => 3 | .verify => 4 | .apply => 5 | .activate => 6

/-- The image that a component's classification and identifier name. -/
def componentOf (cls comp : BitVec 16) : Option (Fin 3) :=
  if cls ≠ 0xFFFF then none
  else match comp.toNat with | 1 => some 0 | 2 => some 1 | 3 => some 2 | _ => none

/-- A reply of the firmware update type. -/
def State.fwReply (s : State) (cmd code : Byte) (data : List Byte) : State := s.pldmReply 5 cmd code data

/-- A command of an update in a phase that does not take it: NOT_IN_UPDATE_MODE or INVALID_STATE_FOR_COMMAND. -/
def State.wrongPhase (s : State) (cmd : Byte) : State :=
  s.fwReply cmd (if s.mgmt.phase = .idle then 0x80 else 0x84) []

/-- Set the phase. -/
def State.setPhase (s : State) (p : PldmPhase) : State := { s with mgmt.phase := p }

/-- QueryDeviceIdentifiers: the PCI vendor and device IDs. -/
def State.deviceIds (s : State) : State :=
  let l := leBytes 2 0 ++ leBytes 2 2 ++ leBytes 2 0x1F7B ++ leBytes 2 0x100 ++ leBytes 2 2 ++ leBytes 2 0x8964
  s.fwReply 1 0 (leBytes 4 l.length ++ [2] ++ l)

/-- The version of an image's active slot. -/
def ImageState.activeVersion (x : ImageState) : Word := if x.active then x.versionB else x.versionA

/-- GetFirmwareParameters: the three components with the versions of their active and PENDING images; activation is at the
next start. -/
def State.fwParameters (s : State) : State :=
  let entry := fun (i : Fin 3) =>
    let x := s.image i
    leBytes 2 0xFFFF ++ leBytes 2 (i.val + 1) ++ [0] ++ leBytes 4 x.activeVersion.toNat ++ [0, 0] ++ leBytes 8 0
      ++ leBytes 4 x.pendingVersion.toNat ++ [0, 0] ++ leBytes 8 0 ++ leBytes 2 0x10 ++ leBytes 4 0
  s.fwReply 2 0 (leBytes 4 0 ++ leBytes 2 3 ++ [0, 0, 0, 0] ++ (List.finRange 3).flatMap entry)

/-- RequestUpdate. -/
def State.fwRequest (s : State) : State :=
  if s.mgmt.phase = .idle then (s.setPhase .learn).fwReply 0x10 0 [0, 0, 0] else s.fwReply 0x10 0x81 []

/-- PassComponentTable. -/
def State.fwTable (s : State) (cls comp : BitVec 16) : State :=
  if s.mgmt.phase = .learn ∨ s.mgmt.phase = .ready then
    (s.setPhase .ready).fwReply 0x13 0 (if (componentOf cls comp).isSome then [0, 0] else [1, 6])
  else s.wrongPhase 0x13

/-- UpdateComponent: refused with ALREADY_IN_UPDATE_MODE while an update of the image runs (R450). -/
def State.fwComponent (s : State) (cls comp : BitVec 16) (size : Word) : State :=
  if s.mgmt.phase ≠ .ready then s.wrongPhase 0x14
  else
    match componentOf cls comp with
    | none => s.fwReply 0x14 0 ([1, 6] ++ leBytes 6 0)
    | some i =>
      if (s.updateOf i).isSome then s.fwReply 0x14 0x81 []
      else if slotSize i < size.toNat then s.fwReply 0x14 0 ([1, 6] ++ leBytes 6 0)
      else
        let s1 := s.updateBegin i ⟨true, none, 0, false, size.toNat, 0, none⟩
        { s1 with mgmt := { s1.mgmt with phase := .download, component := some i, offset := 0 } }.fwReply 0x14 0
          (leBytes 8 0)

/-- The update under way by PLDM: its image. -/
def State.fwImage (s : State) : Fin 3 := s.mgmt.component.getD 0

/-- The PLDM update of an image is given up: its slot stays invalid. -/
def State.fwAbort (s : State) : State :=
  match s.mgmt.component with
  | some i => if (s.updateOf i).any (fun u => u.pldm) then s.updateAbort i else s
  | none => s

/-- RequestFirmwareData: a part of the image has come. -/
def State.fwData (s : State) (data : List Byte) : State :=
  if s.mgmt.phase ≠ .download then s
  else
    match s.updateOf s.fwImage with
    | some u =>
      let n := min u.length (u.received + data.length)
      let s1 := s.setUpdate s.fwImage (some { u with received := n })
      { s1 with mgmt.offset := n }
    | none => s

/-- TransferComplete: the whole image has come, or the transfer has failed. -/
def State.fwTransfer (s : State) (ok : Bool) : State :=
  if s.mgmt.phase ≠ .download then s
  else if ok && (s.updateOf s.fwImage).any (fun u => decide (u.length ≤ u.received)) then s.setPhase .verify
  else s.fwAbort.setPhase .ready

/-- VerifyComplete (step 4 of R459): a verified image waits to be applied. -/
def State.fwVerify (s : State) (e : ImageEnd) : State :=
  if s.mgmt.phase ≠ .verify then s
  else
    let i := s.fwImage
    match s.updateOf i, e with
    | some _, .verified v m =>
      if imageInRange i m then (s.setImage i ((s.image i).setSpare .invalid v)).setPhase .apply else (s.imageEnds i e).setPhase .ready
    | some _, _ => (s.imageEnds i e).setPhase .ready
    | none, .verified _ _ => s.setPhase .apply
    | none, _ => s.setPhase .ready

/-- ApplyComplete (step 5 of R459): the slot becomes PENDING. -/
def State.fwApply (s : State) (ok : Bool) : State :=
  if s.mgmt.phase ≠ .apply then s
  else
    let i := s.fwImage
    let s1 := match s.updateOf i with
      | some _ => if ok then s.imagePending i (s.image i).spareVersion else s.fwAbort
      | none => s
    s1.setPhase .ready

/-- ActivateFirmware: activation takes place at the next start (R450). -/
def State.fwActivate (s : State) (selfContained : Bool) : State :=
  if s.mgmt.phase ≠ .ready then s.wrongPhase 0x1A
  else if selfContained then s.fwReply 0x1A 0x8C []
  else (s.setPhase .idle).fwReply 0x1A 0 (leBytes 2 0)

/-- GetStatus. -/
def State.fwStatus (s : State) : State :=
  let done : Nat := match s.updateOf s.fwImage with
    | some u => if s.mgmt.phase = .download ∧ 0 < u.length then 100 * u.received / u.length else 101
    | none => 101
  s.fwReply 0x1B 0 (leBytes 1 s.mgmt.phase.code ++ [0, 0, 0] ++ leBytes 1 done ++ [0] ++ leBytes 4 0)

/-- A component's update is under way. -/
def PldmPhase.busy : PldmPhase → Bool
  | .download | .verify | .apply => true
  | _ => false

/-- CancelUpdateComponent. -/
def State.fwCancelComponent (s : State) : State :=
  if s.mgmt.phase.busy then (s.fwAbort.setPhase .ready).fwReply 0x1C 0 [] else s.wrongPhase 0x1C

/-- CancelUpdate. -/
def State.fwCancel (s : State) : State :=
  if s.mgmt.phase = .idle then s.wrongPhase 0x1D
  else ((if s.mgmt.phase.busy then s.fwAbort else s).setPhase .idle).fwReply 0x1D 0 ([0] ++ leBytes 8 0)

/-- QUERYDEVICEIDENTIFIERS. -/
def execQueryDeviceIdentifiers (s : State) : Host.Outcome State Fault Refusal := .next (s.serve State.deviceIds)
/-- GETFIRMWAREPARAMETERS. -/
def execGetFirmwareParameters (s : State) : Host.Outcome State Fault Refusal := .next (s.serve State.fwParameters)
/-- REQUESTUPDATE. -/
def execRequestUpdate (s : State) : Host.Outcome State Fault Refusal := .next (s.serve State.fwRequest)
/-- PASSCOMPONENTTABLE. -/
def execPassComponentTable (cls comp : BitVec 16) (s : State) : Host.Outcome State Fault Refusal :=
  .next (s.serve (fun t => t.fwTable cls comp))
/-- UPDATECOMPONENT. -/
def execUpdateComponent (cls comp : BitVec 16) (size : Word) (s : State) : Host.Outcome State Fault Refusal :=
  .next (s.serve (fun t => t.fwComponent cls comp size))
/-- REQUESTFIRMWAREDATA. -/
def execRequestFirmwareData (data : List Byte) (s : State) : Host.Outcome State Fault Refusal :=
  .next (s.serve (fun t => t.fwData data))
/-- TRANSFERCOMPLETE. -/
def execTransferComplete (ok : Bool) (s : State) : Host.Outcome State Fault Refusal :=
  .next (s.serve (fun t => t.fwTransfer ok))
/-- VERIFYCOMPLETE. -/
def execVerifyComplete (e : ImageEnd) (s : State) : Host.Outcome State Fault Refusal :=
  .next (s.serve (fun t => t.fwVerify e))
/-- APPLYCOMPLETE. -/
def execApplyComplete (ok : Bool) (s : State) : Host.Outcome State Fault Refusal := .next (s.serve (fun t => t.fwApply ok))
/-- ACTIVATEFIRMWARE. -/
def execActivateFirmware (selfContained : Bool) (s : State) : Host.Outcome State Fault Refusal :=
  .next (s.serve (fun t => t.fwActivate selfContained))
/-- GETSTATUS. -/
def execGetStatus (s : State) : Host.Outcome State Fault Refusal := .next (s.serve State.fwStatus)
/-- CANCELUPDATECOMPONENT. -/
def execCancelUpdateComponent (s : State) : Host.Outcome State Fault Refusal := .next (s.serve State.fwCancelComponent)
/-- CANCELUPDATE. -/
def execCancelUpdate (s : State) : Host.Outcome State Fault Refusal := .next (s.serve State.fwCancel)

end Sys2Proof.Machine
end

