-- ==== Sys2Proof/Machine/Tick.lean ====
section
/-!
DEFINITION. Machine/Tick.lean: a tick of a tick group and its ordered actions (R16, R17).
-/
namespace Sys2Proof.Machine

/-- Frames that wait on send queues for a tick of a group become eligible at that tick (R126, stage 1 of Table 12-1), leave as
their shapers let them, and those that cannot have missed it (R48). That a send is eligible at its target tick, and not at
the tick before as step 6 of R16 has it for codec and composition jobs, is a DESIGN CHOICE (assumption 32). -/
def State.releaseFrames (s : State) (g : Fin 4) (k : Int) : State :=
  forEach s.swc.sendQueues.keys s (fun i s =>
    match s.sendQ i with
    | none => s
    | some q =>
      if q.group = g then
        ((s.setSendQ i (some { q with waiting := q.waiting.map (fun x : SendFrame =>
          match x.target with
          | some t => if t.group = g ∧ t.tick ≤ k then { x with target := none } else x
          | none => x) })).runSendQ i).missSends i k
      else s)

/-- The steps of R16 that only group A has, before channels are released: the cores whose gate ends return (R209) and the
auditor takes its snapshot (step 4). -/
def State.tickA (s : State) (k : Int) : State := (s.auditSnapshot k).coresReturn

/-- Ticks of a list of groups fall at this instant: each becomes its group's last tick (R46). -/
def State.tickNumbers (s : State) (l : List (Fin 4)) : State :=
  forEach l s (fun g s => { s with time.groups := s.time.groups.set g ⟨tick62 (s.nextTick g), s.nextTick g + 1⟩ })

/-- The actions of R16 for tick `k` of one group, which is the group's last tick. Where a change of step 1, of this group or
of one before it at the same instant, gives the group another sequence, the tick in progress has the number before that of
its next tick from then on (R45). A codec job that has
not completed by its target tick has missed it (R48), before the frames of this tick reach the encoders; a frame that one of these may
replace is judged after them (R169). -/
def State.tickOne (s : State) (g : Fin 4) (k : Int) : State :=
  let s1 := s.stageTick g k
  let n := s1.nextTick g - 1
  let s2 := (((s1.presentTick g n).missCodec g n false).flipGroup g n).missCodec g n true
  let s3 := if g = 0 then s2.tickA k else s2
  (((s3.releaseTick g).releaseFrames g n).runSendQs).raise (16 + g.val)

/-- What waits for a tick of group A once the actions of R16 are done: the handover, then a change of mode (R283, R435). -/
def State.afterTickA (s : State) : State := s.takeHandover.modeTick

/-- The groups whose next tick falls at an instant, A first (R17). -/
def State.groupsAt (s : State) (t : Int) : List (Fin 4) :=
  (List.finRange 4).filter (fun g => s.groupEn g.val && decide (s.tickTime g.val (s.nextTick g) = t))

/-- TICK: the next tick of a group, and every tick of another group that falls on the same DTS (R17). A step of DTS that
waits for a tick of its group follows that tick's actions (R51). -/
def State.tick (s : State) (g : Fin 4) : State :=
  if !s.live || !s.groupEn g.val then s
  else
    let t := s.tickTime g.val (s.nextTick g)
    let s1 := s.advanceToDts t
    let groups := s1.groupsAt t
    let s2 := forEach groups (s1.tickNumbers groups) (fun h s => s.tickOne h (s1.nextTick h))
    let s3 := if groups.contains 0 then s2.afterTickA else s2
    forEach groups s3 (fun h s => s.stepAtTick h)

/-- TICK. -/
def execTick (g : Fin 4) (s : State) : Host.Outcome State Fault Refusal := .next (s.tick g)

end Sys2Proof.Machine
end

