-- ==== Sys2Proof/Machine/Boot.lean ====
section
/-!
DEFINITION. Machine/Boot.lean: the boot steps, the microcode load, the configuration blob, and the warm reset with its warm
start (R216, R440, R441, R458, R460, R473, and what each chapter says of a warm reset).
-/
namespace Sys2Proof.Machine

/-! ### Steps 1 to 4 (Table 15-3) -/

/-- The next boot step. -/
def State.toStep (s : State) (n : Nat) : State := { s with pwr.bootStep := n }

/-- CAUSE of the shutdown word: 0 where the word is zero, 15 where it fails its pattern (R458). -/
def shutdownCause (w : DWord) : Nat :=
  if w = 0 then 0
  else if bits w.toNat 63 32 = 0x4C5A5344 ∧ bits w.toNat 31 8 = 0 ∧ 1 ≤ bits w.toNat 7 0 ∧ bits w.toNat 7 0 ≤ 6 then bits w.toNat 7 0
  else 15

/-- Step 2: the shutdown word gives LAST_OFF, is recorded and zeroed; a missing CLK32K is logged. A ROM CRC failure leaves
the device in BOOT with FLICKER low. -/
def State.bootStep2 (s : State) (b : BootFacts) : State :=
  if !b.ok then { s with pwr.romBad := true, snuf.flicker := false }
  else
    let cause := shutdownCause s.nvs.shutdown
    let s1 := { s with pwr.lastOff := cause }.logRecord 8 0xFF (leBytes 1 cause ++ List.replicate 7 0)
    let s2 := { s1 with nvs.shutdown := 0 }
    let s3 := if s2.pwr.clk32kLost then s2.keepRecord ⟨s2.time.dts, 0, 0x004, 1, 0, 0, 1, 0⟩ else s2
    s3.toStep (if s3.pwr.warm then 5 else 3)

/-- Step 3: the rows that fail the BIST are spared or fenced, the retirements are applied, and FLICKER starts. -/
def State.bootStep3 (s : State) (b : BootFacts) : State :=
  let s1 := forEach b.badRows s (fun e s => s.spareRow e.1 e.2)
  let s2 := forEach (List.range 8) s1 (fun c s => if s.snuf.retiredCores.getLsbD c then s.setCoreSt c .retired else s)
  { s2 with snuf := { s2.snuf with flickerAt := s2.now, lastAccept := s2.now } }.toStep 4

/-- Step 4: pseudo-channels that fail the training are spared, and a stack that cannot train orders HALT. -/
def State.bootStep4 (s : State) (b : BootFacts) : State :=
  let s1 := forEach b.badChannels s (fun e s => (s.fault (0x080 + e.1.val) 6 e.2.val).spareChannel e.1 e.2)
  if b.ok then s1.toStep 5
  else
    let (st, pc) := match b.badChannels.head? with | some e => (e.1.val, e.2.val) | none => (0, 0)
    s1.accept ⟨BitVec.ofNat 10 (0x080 + st), 6, BitVec.ofNat 48 pc, s1.time.dts, false, false⟩ 7

/-! ### Step 5: the images (R216, R460) -/

/-- Whether a slot of an image verifies, and the version it holds. -/
def bootSlot (b : BootFacts) (i : Fin 3) (slotB : Bool) : Bool × Nat :=
  match b.images[i.val]? with
  | some (a, va, c, vc) => if slotB then (c, vc) else (a, va)
  | none => (false, 0)

/-- The microcode image in a slot. -/
def bootImage (b : BootFacts) (i : Fin 3) (slotB : Bool) : Option McImage :=
  (b.microcode.find? (fun m => m.1 == i && m.2.1 == slotB)).map (fun m => m.2.2)

/-- A slot of an image passes R215: its signature and tag verify, and its fields are in range. -/
def bootPasses (b : BootFacts) (i : Fin 3) (slotB : Bool) : Bool := (bootSlot b i slotB).1 && imageInRange i (bootImage b i slotB)

/-- A PENDING slot is verified again: it becomes active, or the active slot stays (R460). -/
def State.verifyPending (s : State) (b : BootFacts) (i : Fin 3) : State :=
  let x := s.image i
  if x.spare ≠ .pending then s
  else if bootPasses b i (!x.active) then
    (s.setImage i { x.setSpare .valid (BitVec.ofNat 32 (bootSlot b i (!x.active)).2) with active := !x.active }).bootControl
  else
    let s1 := (s.setImage i (x.setSpare .invalid 0)).bootControl
    (({ s1 with pwr.fellBack := s1.pwr.fellBack ||| (1 <<< i.val) }.fault 0x090 4 (slotOffset i x.spareSlot)).raise
      283).microcodeRejected i

/-- Every core takes the copy into its stores and is in service, but a gated one stays gated and a retired one retired, with its
stores loaded for the day it is reinstated; without a copy they stay in NO_MICROCODE. -/
def State.loadCores (s : State) : State :=
  forEach (List.range 8) s (fun c s =>
    if !s.codec.copyLoaded then s
    else if (s.core c).st = .retired then s.loadCore c
    else (s.loadCore c).setCoreSt c (if s.pwr.gated.getLsbD c then .gated else .inService))

/-- The base of the active slot, or of the other one, and the patch of the active patch slot, which applies to the base version it
asks for (R216). A patch slot that is marked invalid and does not verify holds no patch. -/
def State.loadMicrocode (s : State) (b : BootFacts) : State :=
  let x := s.image 0
  let y := s.image 1
  let active := bootPasses b 0 x.active
  let slot := if active then x.active else !x.active
  let base := if bootPasses b 0 slot then bootImage b 0 slot else none
  let patch := if bootPasses b 1 y.active then bootImage b 1 y.active else none
  let version := (base.map mcVersionOf).getD 0
  let applied := if base.isSome then patch.filter (fun m => mcBaseReq m == version) else none
  let mark := if y.active then y.b else y.a
  let rejected := base.isSome && applied.isNone && ((bootSlot b 1 y.active).1 || mark != .invalid)
  let c0 := { s.codec with
    copyLoaded := base.isSome, copyBase := version, copyPatch := (applied.map mcLevelOf).getD 0
    copyRej := rejected, copyBaseSlot := base.isSome && slot, copyPatchSlot := y.active, copyMicro := [], copyNano := [] }
  let words := fun (patch : Bool) (m : Option McImage) => ((m.bind (mcWordsOf patch)).getD [])
  let s1 := { s with codec := loadWords (words false base ++ words true applied) c0 }
  let s2 :=
    if active then s1
    else
      let t := (s1.fault 0x090 (if base.isSome then 4 else 3) (slotOffset 0 (b2n x.active))).raise 105
      if base.isSome then { t with pwr.fellBack := t.pwr.fellBack ||| 1 } else t
  let s3 := if rejected then (s2.fault 0x090 3 (slotOffset 1 (b2n y.active))).raise 105 else s2
  s3.loadCores

/-- Step 5. A warm start reloads the cores from the copy in the firmware region. -/
def State.bootStep5 (s : State) (b : BootFacts) : State :=
  if s.pwr.warm then s.loadCores.toStep 7
  else ((forEach (List.finRange 3) s (fun i s => s.verifyPending b i)).loadMicrocode b).toStep 6

/-! ### The configuration blob (R441) -/

/-- The blob pair of a TIME register, which step 6 applies. -/
def isTimePair (e : Nat × Word) : Bool := decide (0x10000 ≤ e.1) && decide (e.1 < 0x20000)

/-- A pair names a staged register, or an unstaged one with RW fields. -/
def pairOk (e : Nat × Word) : Bool :=
  match regFind e.1 with
  | some r => r.rwMask != 0
  | none => false

/-- A pair names a staged register. -/
def pairStaged (e : Nat × Word) : Bool := (stagedAt e.1).isSome

/-- The staged pairs in the staging views of a session of the Lantern core. -/
def State.stageBlob (s : State) (l : List (Nat × Word)) : State :=
  forEach (l.filter pairStaged) (s.claim .lantern .reg).2 (fun e s => s.stageReg .lantern .reg e.1 e.2.toNat)

/-- The values that the held pairs give, as the check sees them. -/
def State.heldView (s : State) (l : List (Nat × Word)) : State :=
  forEach (l.filter (fun e => !pairStaged e)) s (fun e s =>
    match regFind e.1 with
    | some r => s.setReg e.1 (BitVec.ofNat 32 (e.2.toNat &&& r.rwMask))
    | none => s)

/-- Every pair passes: each names a register that can be written, the stage check of the staged ones passes, and each held
value lies in its ranges. -/
def State.pairsPass (s : State) (l : List (Nat × Word)) : Bool :=
  let t := s.stageBlob l
  let v := t.view.heldView l
  l.all pairOk && t.stageFail.isNone && (l.filter (fun e => !pairStaged e)).all (fun e =>
    match regFind e.1 with
    | some r => (v.regCheck r.spec.id r.i r.j (e.2.toNat &&& r.rwMask)).isNone
    | none => false)

/-- The staged pairs apply at once, and the held ones are written directly after, in their order. -/
def State.applyPairs (s : State) (l : List (Nat × Word)) : State :=
  let s1 := if (l.filter pairStaged).isEmpty then s else (s.stageBlob l).stageApply
  forEach (l.filter (fun e => !pairStaged e)) s1 (fun e s => s.liveWrite .lantern e.1 e.2)

/-- The TIME registers return to their reset values, but for the latencies that firmware loads. -/
def State.timeRegsReset (s : State) : State :=
  ((s.clearRegs 0x10000 0x10100).clearRegs 0x10144 0x20000).refsReconfigured (s.regOr 0 0x10020)

/-- The TIME registers in a warm reset: their RW fields return to their reset values, and the PTP state runs on (R56). -/
def State.timeRegsWarm (s : State) : State :=
  ((s.clearRegs 0x10000 0x10100).clearRegs 0x10144 0x20000).refsChanged [.pps, .clk10m] (s.regOr 0 0x10020)

/-- PWR_BOOT_CFG.TIME_WAIT in units: values above 120 act as 120. -/
def State.timeWait (s : State) : Nat := second * min 120 (bits (s.regOr 10 0x600E4) 7 0)

/-- Step 6: the TIME pairs of a blob that verifies and passes are applied, and the wait for a reference begins. -/
def State.bootStep6 (s : State) (b : BootFacts) : State :=
  if s.pwr.timeWaitEnd.isSome then s
  else
    let l := b.blobPairs.filter isTimePair
    let s1 := if b.blobOk && b.blobPairs.all pairOk && s.pairsPass l then s.applyPairs l else s
    let s2 := { s1 with pwr.timeWaitEnd := some (s1.now + s1.timeWait) }
    if s2.anyQualified then s2.endAcquisition else s2

/-- TIME_WAIT_EXPIRY: the wait ends with DTS running free. HOLDOVER is set where no reference has been enabled (R43). -/
def State.timeWaitExpiry (s : State) : State :=
  match s.pwr.timeWaitEnd with
  | some t =>
    if s.pwr.mode = .boot ∧ s.pwr.bootStep = 6 ∧ !s.halted ∧ !s.pwr.inWarmReset then
      let s1 := (s.advanceTo t).endAcquisition
      if !s1.time.holdover && allRefs.all (fun r => !s1.refEn r) && s1.time.noRefSince.isNone then s1.enterHoldover else s1
    else s
  | none => s

/-- Step 7's blob: all of it but the TIME pairs that step 6 has applied. A blob that fails leaves every register at its reset
value, the TIME registers included. -/
def State.applyBlob (s : State) (b : BootFacts) : State :=
  if b.blobOk && s.pairsPass b.blobPairs then
    let l := if s.pwr.warm then b.blobPairs else b.blobPairs.filter (fun e => !isTimePair e)
    { s.applyPairs l with pwr.blobVersion := b.blobVersion }
  else
    let s1 := (s.timeRegsReset).clearRegs 0x10100 0x10144
    ({ s1 with pwr.blobVersion := 0 }.fault 0x090 3 (slotOffset 2 (b2n (s.image 2).active))).raise 283

/-- The boot record (Table 15-13, type 9). -/
def State.bootRecord (s : State) : State :=
  let kind := if s.pwr.warm then 1 else if s.icu.pilotCause.isSome then 2 else 0
  s.logRecord 9 0xFF (leBytes 1 kind ++ leBytes 1 s.pwr.lastOff ++ leBytes 2 (s.icu.pilotCause.getD 0)
    ++ leBytes 1 s.activeSlots ++ leBytes 1 s.pwr.fellBack.toNat ++ leBytes 2 0 ++ leBytes 4 (s.sysField .identRom)
    ++ leBytes 4 0)

/-! ### The warm reset (R473) -/

/-- The RW fields that a warm reset keeps: SYS, TIME_PORT_LAT, the interrupt controller's and the Snuffer's settings, PWR and
the mailbox. -/
def warmKept (off : Nat) : Bool :=
  decide (off < 0x10000) || (decide (0x10100 ≤ off) && decide (off < 0x10144)) || (decide (0x40000 ≤ off) && decide (off < 0x80000))

/-- A codec core in a warm reset: its counters are kept, and it waits for its microcode unless it is retired. -/
def CodecCore.warm (x : CodecCore) : CodecCore :=
  { CodecCore.reset with
    st := if x.st = .retired then .retired else .noMicrocode
    cycles := x.cycles, jobs := x.jobs, redone := x.redone, fault := x.fault }

/-- The codec pool in a warm reset (R218): no stream, no job; the copy of R216 and the counters stay. -/
def CodecState.warm (c : CodecState) : CodecState :=
  { c with
    cores := Vector.ofFn (fun i : Fin 8 => c.cores[i].warm), dec := [], enc := [], jobs := []
    rr := Vector.replicate 3 0, debt := [], returning := 0 }

/-- The switch core in a warm reset (R353): no table, no frame; the counters stay, those of the bindings among them. -/
def SwcState.warm (c : SwcState) : SwcState :=
  { SwcState.reset with
    counters := c.counters, cntLatch := c.cntLatch, peak := c.peak, frameSeq := c.frameSeq, lastAging := c.lastAging
    runs := c.runs.filterMap (fun e : Nat × BindRun =>
      let r := { BindRun.fresh with units := e.2.units, full := e.2.full, gaps := e.2.gaps }
      if r = BindRun.fresh then none else some (e.1, r)) }

/-- The interrupt controller in a warm reset (R431): nothing pending or active, everything masked; BOOT is grouped. -/
def IcuState.warm (c : IcuState) : IcuState :=
  { c with
    pend := 0, mask := BitVec.allOnes 1024, claims := Vector.replicate 14 [], grouped := Vector.replicate 14 true
    wanted := true, hostAsserted := false, pilotCause := none }

/-- The Snuffer in a warm reset (R431): windows, tests and the input queue are cleared, HALT ends, and the test registers are
locked; records, retirements, fences and spares stay, and so do the counts of messages since PORST_N (Table 14-12). FLICKER is held
low. -/
def SnufState.warm (c : SnufState) : SnufState :=
  { c with
    queue := [], lostSince := false, wins := c.wins.filterMap (fun e =>
      if e.2.events = 0 then .none else some (e.1, { SrcWin.none with events := e.2.events })), tests := [], ended := [], retest := none
    retestResult := if c.retestResult = 1 then 0 else c.retestResult
    halt := none, flicker := false, flickerFrozen := false, live := 0, unlockPos := 0, unlocked := false, resets := []
    recoveryAt := none }

/-- Everything a warm reset returns to its reset state. DTS, ERA and the PTP state run on; DRAM, the PCIe link and the
configuration space stay. -/
def State.warmReset (s0 : State) : State :=
  let s := (((s0.abortChange true).abortUpdates true).stageReset).timeRegsWarm
  let s1 := forEach (List.finRange 13) s (fun c s => s.wickReset c)
  let regs := s.regs.filter (fun e => warmKept e.1)
  let lamps := maskBelow 4 (fun k => !s.snuf.isolated.contains (0x050 + k, 0))
  { s1 with
    regs := regs
    qm := { QmState.reset with
      orphans := s.qm.orphans, hostLost := s.qm.hostLost, linkUp := s.qm.linkUp, linkWidth := s.qm.linkWidth
      linkSpeed := s.qm.linkSpeed }
    codec := s.codec.warm
    cmp := { CmpState.reset with
      glyphCnt := s.cmp.glyphCnt, lateCnt := s.cmp.lateCnt, counts := s.cmp.counts, updateSeq := s.cmp.updateSeq }
    lmp := { LmpState.reset with cores := BitVec.ofNat 4 lamps, gpioIn := s.lmp.gpioIn }
    wick := { s1.wick with retries := [] }
    swc := s.swc.warm
    trf := { TrfState.reset with
      gateDrop := s.trf.gateDrop, redDrop := s.trf.redDrop, wheelPos := s.trf.wheelPos, histLast := s.trf.histLast
      sweepLast := s.trf.sweepLast }
    pool := { PoolState.reset with refused := s.pool.refused, fallbacks := s.pool.fallbacks }
    dma := s.dma.filterMap (fun e : Nat × DmaCh =>
      if e.2.isolated then some (e.1, { DmaCh.idle with isolated := true }) else none)
    audit := { AuditState.reset with
      pass := s.audit.pass, viol := s.audit.viol, lastTick := s.audit.lastTick, failLaws := s.audit.failLaws }
    icu := s.icu.warm
    snuf := s.snuf.warm
    mail := { s.mail with busy := false, nonce := none }
    mgmt := ⟨0, 0, .none, .idle, .none, 0⟩
    updates := []
    pwr := { s.pwr with
      change := none, inWarmReset := true, nightGated := 0, timeWaitEnd := none, capHeld := false, provisioned := false } }

/-- WARM_RST_N_ASSERT: ignored in OFF, PILOT and during a cold start, and under a HALT that a JTAG instruction ordered. -/
def State.warmAssert (s0 : State) : State :=
  let s := { s0 with pwr.warmRstN := false }
  if s.pwr.mode = .off ∨ s.pwr.mode = .pilot ∨ (s.pwr.mode = .boot ∧ s.pwr.cold) ∨ s.pwr.inWarmReset
      ∨ s.snuf.halt = some .jtag then s
  else s.warmReset

/-- WARM_RST_N_RELEASE: the warm start begins at step 2. -/
def State.warmRelease (s0 : State) : State :=
  let s := { s0 with pwr.warmRstN := true }
  if s.pwr.inWarmReset then
    let s1 := s.logMode .boot .warmReset none
    { s1 with pwr := { s1.pwr with
      mode := .boot, bootStep := 2, warm := true, cold := false, inWarmReset := false, restartUsed := false, romBad := false
      fellBack := 0, clk32kLost := false } }
  else s

/-! ### Step 7 and the rows -/

/-- Entry to PROVISION at the end of a start: the ticks begin, and the ports come up as they are configured. -/
def State.enterProvision (s : State) : State :=
  let s1 := forEach (List.finRange 4) s (fun g s => s.startGroup g)
  let s2 : State := { s1 with pwr.cold := false }
  forEach (List.range 17) (s2.enterMode .provision .boot none) (fun p s => s.portStart p)

/-- Step 7: the blob is applied, the boot is recorded, and the device enters PROVISION. A WARM_RST_N still low at the end of a
cold start is taken then (R473). -/
def State.bootStep7 (s : State) (b : BootFacts) : State :=
  let s1 := (s.applyBlob b).bootRecord.enterProvision
  let s2 := if s1.pwr.lastOff = 0 then s1 else s1.raise 279
  if s.pwr.cold && !s2.pwr.warmRstN then s2.warmAssert else s2

/-- BOOT_STEP_END: the boot step in progress ends with what the board and the NVS give it. -/
def State.stepEnd (s : State) (b : BootFacts) : State :=
  if s.pwr.mode != .boot || s.pwr.inWarmReset || s.halted || s.pwr.romBad then s
  else
    match s.pwr.bootStep with
    | 1 => { s with pwr.clk32kLost := !b.ok }.toStep 2
    | 2 => s.bootStep2 b
    | 3 => s.bootStep3 b
    | 4 => s.bootStep4 b
    | 5 => s.bootStep5 b
    | 6 => s.bootStep6 b
    | _ => s.bootStep7 b

/-- BOOT_STEP_END. -/
def execBootStepEnd (b : BootFacts) (s : State) : Host.Outcome State Fault Refusal := .next (s.stepEnd b)
/-- TIME_WAIT_EXPIRY. -/
def execTimeWaitExpiry (s : State) : Host.Outcome State Fault Refusal := .next s.timeWaitExpiry
/-- WARM_RST_N_ASSERT. -/
def execWarmRstNAssert (s : State) : Host.Outcome State Fault Refusal := .next s.warmAssert
/-- WARM_RST_N_RELEASE. -/
def execWarmRstNRelease (s : State) : Host.Outcome State Fault Refusal := .next s.warmRelease

end Sys2Proof.Machine
end

