-- ==== Sys2Proof/Machine/Streams.lean ====
section
/-!
DEFINITION. Machine/Streams.lean: opening streams, outputs and send queues (R119, R163, R168 to R171, R220, R240), and closing
objects (R120).
-/
namespace Sys2Proof.Machine

/-! ### Handles (R98, R99) -/

/-- A handle names a live object of a function. An object being closed is none (R120). -/
def State.namesLive (s : State) (fn h : Nat) : Bool :=
  let i := h % 65536
  match bits h 23 16 with
  | 1 => (s.dec i).any (fun d => d.fn == fn && d.st != .closing && d.handle i == h)
  | 2 => (s.enc i).any (fun e => e.fn == fn && e.st != .closing && e.handle i == h)
  | 3 => (s.outp i).any (fun o => o.fn == fn && o.st != .closing && o.st != .closed && o.handle i == h)
  | 4 => (s.sendQ i).any (fun q => q.fn == fn && !q.drain && handleOf 4 i q.fn q.gen == h)
  | 5 => decide (i < 64) && (s.chan i).st != .free && (s.chan i).fn == fn && handleOf 5 i fn (s.chan i).gen == h
  | _ => false

/-- A handle field at an offset must name a live object of one type. A handle of another of the five types is of the wrong
kind, live or not. -/
def State.handleBad (s : State) (fn h type offset : Nat) : Bool × Deny :=
  let t := bits h 23 16
  if t ≠ type ∧ 1 ≤ t ∧ t ≤ 5 then (true, bad offset 2) else (!(t == type && s.namesLive fn h), bad offset 1)

/-! ### Reading what a command addresses -/

/-- Bytes that firmware reads at a 64-bit address: what the read ended with where it failed, the bytes, and the state after
it. Host bytes are those the read returned; fewer than asked mean that it failed. In CONTINUITY host space is not reached (R280). -/
def State.takeBytes (s : State) (a : DWord) (n : Nat) (host : List Byte) : Option Status × List Byte × State :=
  if isDevice a then
    if !reaches a n then (some .busError, [], s)
    else if s.poisonIn (spaceOff a) n ≠ [] then (some .mediaError, [], s.devRead (spaceOff a) n)
    else (none, s.dev.bytes (spaceOff a) n, s.devRead (spaceOff a) n)
  else if s.pwr.mode == .continuity || decide (host.length < n) then (some .busError, [], s)
  else (none, host.take n, s)

/-! ### OPEN -/

/-- The index that a new object takes: the one firmware picks where it is free, else the lowest free one (R98 leaves the
choice open). -/
def pickFree (n pick : Nat) (free : Nat → Bool) : Option Nat :=
  if pick < n && free pick then some pick else firstBelow n free

/-- The bytes that every OPEN has in common (R119). -/
def Slot.openCommon (x : Slot) : List (Bool × Deny) :=
  [(decide (3 < x.field 17 1), bad 17 5), (decide (1 < x.field 18 1), bad 18 5),
    (x.field 19 1 != 0, bad 19 8)]

/-- The tick group an OPEN names. -/
def Slot.group (x : Slot) : Fin 4 := Fin.ofNat 4 (x.field 17 1)

/-- OPEN completes with the handle of the new object (R98). -/
def State.opened (s : State) (n h : Nat) : State := s.finish n .ok (h % 2 ^ 32) (h / 2 ^ 32) none

/-- A profile of the decode formats (Table 05-1). -/
def decodeProfile (format profile : Nat) : Bool :=
  match format with
  | 0 => [66, 77, 100].contains profile
  | 1 => [1, 2, 3].contains profile
  | _ => profile == 0

/-- A level code is above those that OPEN takes (Table 04-13). -/
def levelAbove (format level : Nat) : Bool :=
  match format with
  | 0 => decide (52 < level)
  | 1 => decide (183 < level)
  | 2 => decide (17 < level)
  | _ => level != 0

/-- A level code lies below those of Tables 05-1 and 06-1: H.264 from 1b, HEVC from level 1. -/
def levelBelow (format level : Nat) : Bool :=
  match format with
  | 0 => decide (level < 9)
  | 1 => decide (level < 30)
  | _ => false

/-- The size, rate and depth fields that both kinds of stream have (Table 04-13): 10 bits only for HEVC Main 10 and AV1. What else is
asked of WIDTH, HEIGHT and RATE stands with their own ranges. -/
def streamSize (x : Slot) (wide tall fast : List (Bool × Deny)) : List (Bool × Deny) :=
  let w := x.field 24 2
  let h := x.field 26 2
  let ten := x.field 32 1 == 10
  [(decide (2 < x.field 23 1), bad 23 5), (decide (w < 16) || decide (8192 < w) || w % 2 == 1, bad 24 5)] ++ wide
  ++ [(decide (h < 16) || decide (4320 < h) || h % 2 == 1, bad 26 5)] ++ tall
  ++ [(decide (x.field 28 4 < 1000) || decide (240000 < x.field 28 4), bad 28 5)] ++ fast
  ++ [(!(x.field 32 1 == 8 || (ten && ((x.field 20 1 == 1 && x.field 21 1 == 2) || x.field 20 1 == 2))), bad 32 7)]

/-- The checks of OPEN of a decode stream (Table 04-13), in order. -/
def Slot.openDecChecks (x : Slot) : List (Bool × Deny) :=
  let f := x.field 20 1
  x.openCommon ++ [(decide (3 < f), bad 20 5), (!decodeProfile f (x.field 21 1), bad 21 7),
      (levelAbove f (x.field 22 1) || levelBelow f (x.field 22 1), bad 22 7)] ++ streamSize x [] [] [] ++ [(x.field 33 1 != 0, bad 33 5), (x.field 34 1 != 0, bad 34 5),
      (x.field 35 1 != 0, bad 35 5), x.resv 40 64, x.noHandle]

/-- OPEN of a decode stream (R128, R135, R196, R199). -/
def State.openDec (s : State) (n pick : Nat) (x : Slot) : State :=
  let f := x.field 20 1
  let w := x.field 24 2
  let h := x.field 26 2
  let ten := x.field 32 1 == 10
  let rate := x.field 28 4
  let kbps := if x.field 36 4 = 0 then levelKbps f (x.field 21 1) (x.field 22 1) else x.field 36 4
  let cost := decodeCost f w h kbps rate
  let most := dpbMax f (x.field 22 1) w h
  match firstDeny x.openDecChecks, pickFree 512 pick (fun i => (s.dec i).isNone) with
  | some d, _ => s.deny n d
  | none, none => s.deny n ⟨.noResource, detailOf 16 0⟩
  | none, some i =>
    match (s.poolFor (pictureBytes w h ten)).bind (fun p => (s.earmark p x.fn (most + 3)).map (fun t => (p, t))) with
    | none => s.deny n ⟨.noResource, detailOf 24 0⟩
    | some (p, t) =>
      match s.admission x.fn false cost with
      | some code => s.deny n ⟨.admissionDenied, detailOf 16 code⟩
      | none =>
        let gen := s.genOf 1 i
        let d : DecStream := {
          st := .active, fn := x.fn, gen := gen, group := x.group, retarget := x.field 18 1 == 1, format := f
          profile := x.field 21 1, level := x.field 22 1, cls := x.field 23 1, width := w, height := h, rate := rate
          tenBit := ten, kbps := kbps, cost := cost, cycles := decodeCycles f w h kbps rate, opened := s.codec.openSeq
          evicted := false, lastCores := [], sets := [], pool := p, dpbMax := most, reserved := most + 3, entries := [], seqNext := 0, current := none
          curW := 0, curH := 0, concealed := 0, skipped := 0, decoded := 0, overruns := 0, credit := 0, closer := none
          drain := false }
        let t1 := t.setDec i (some { d with entries := List.replicate 24 PicEntry.free })
        { t1 with codec.openSeq := t1.codec.openSeq + 1 }.opened n (handleOf 1 i x.fn gen)

/-! ### The parameter block (R170) -/

/-- The entry of a rung in the parameter block. -/
def rungAt (pb : List Byte) (r : Nat) : List Byte := pb.drop (64 + 128 * r)

/-- The size of a rung: rung 0 has that of OPEN. -/
def rungSize (x : Slot) (pb : List Byte) (r : Nat) : Nat × Nat :=
  if r = 0 then (x.field 24 2, x.field 26 2) else (fieldLe (rungAt pb r) 0 2, fieldLe (rungAt pb r) 2 2)
/-- The target bit rate of a rung. -/
def rungKbps (x : Slot) (pb : List Byte) (r : Nat) : Nat := if r = 0 then x.field 36 4 else fieldLe (rungAt pb r) 4 4
/-- The sink handle of a rung, 0 for none. -/
def rungSink (x : Slot) (pb : List Byte) (r : Nat) : Nat := if r = 0 then x.field 48 8 else fieldLe (rungAt pb r) 8 8

/-- The QP range of a block: 0 in both fields stands for 10 and 51, or 40 and 255 for AV1 (Table 06-3). -/
def qpRange (format : Nat) (pb : List Byte) : Nat × Nat :=
  let lo := fieldLe pb 4 1
  let hi := fieldLe pb 5 1
  if lo = 0 ∧ hi = 0 then (if format = 2 then (40, 255) else (10, 51)) else (lo, hi)

/-- The bytes from `lo` to below `hi` of a block are all zero. -/
def zeroIn (b : List Byte) (lo hi : Nat) : Bool := fieldLe b lo (hi - lo) == 0

/-- The header of a parameter block is in range (Table 06-3). -/
def headerOk (x : Slot) (pb : List Byte) : Bool :=
  let f := x.field 20 1
  let top := if f = 2 then 255 else 51
  let q := qpRange f pb
  fieldLe pb 0 1 == 1 && decide (fieldLe pb 1 1 ≤ 4) && decide (fieldLe pb 2 1 ≤ 6) && decide (fieldLe pb 3 1 < 8)
    && decide (q.2 ≤ top) && decide (q.1 ≤ q.2) && decide (fieldLe pb 6 1 ≤ top) && decide (fieldLe pb 7 1 ≤ top)
    && decide (fieldLe pb 8 4 ≤ 1000000)
    && (!bit (fieldLe pb 3 1) 0 || (decide (2 ≤ fieldLe pb 12 2) && decide (fieldLe pb 12 2 ≤ 256)))
    && decide (fieldLe pb 14 1 ≤ 100) && decide (fieldLe pb 15 1 ≤ (if f = 1 then 1 else 0))
    && fieldLe pb 16 8 % 64 == 0 && (fieldLe pb 16 8 == 0 || decide (2 ≤ fieldLe pb 24 2)) && zeroIn pb 26 64

/-- A rung entry is in range (Table 06-4, R178); its header template, where the rung has a sink, is one of R188. -/
def rungOk (x : Slot) (pb : List Byte) (r : Nat) : Bool :=
  let e := rungAt pb r
  let (w, h) := rungSize x pb r
  let (w1, h1) := rungSize x pb (r - 1)
  let sink := rungSink x pb r
  let len := fieldLe e 26 1
  let v4 := fieldBe (e.drop 32) 12 2 == 0x0800
  (r == 0 || (w % 2 == 0 && h % 2 == 0 && decide (w ≤ w1) && decide (h ≤ h1) && decide (16 ≤ w) && decide (16 ≤ h)
      && decide (x.field 24 2 ≤ 8 * w) && decide (x.field 26 2 ≤ 8 * h) && sink != 0))
    && (if x.field 33 1 = 1 then decide (rungKbps x pb r ≤ fieldLe e 16 4) else fieldLe e 16 4 == 0) && zeroIn e 27 32
    && decide (128 ≤ fieldLe e 24 2) && decide (fieldLe e 24 2 ≤ 9212) && (len == 54 || len == 74)
    && (sink == 0 || ((len == 54) == v4 && templateOk (e.drop 32)))

/-- The rate and checkpoint state of a rung at OPEN. Its first RTP sequence number and IPv4 identification, the fullness of its CPB and
its first QP estimate are not given: they are free values. -/
def newRung (x : Slot) (pb : List Byte) (pool r free : Nat) : RungState :=
  let e := rungAt pb r
  let kbps := rungKbps x pb r
  let most := levelCpb (x.field 20 1) (x.field 21 1) (x.field 22 1) (fieldLe pb 15 1)
  let cpb := if fieldLe e 20 4 = 0 then min (1000 * kbps) most else fieldLe e 20 4
  let sink := rungSink x pb r
  { width := (rungSize x pb r).1, height := (rungSize x pb r).2, kbps := kbps
    sink := if sink = 0 then none else some (sink % 65536), pool := pool, maxKbps := fieldLe e 16 4
    cpbBits := cpb, pktMax := fieldLe e 24 2, hdr := (e.drop 32).take (fieldLe e 26 1)
    cpb := if x.field 33 1 = 2 then 0 else BitVec.ofNat 32 (free / 2 ^ 32 % (cpb + 1)), rcQ := BitVec.ofNat 32 (free / 2 ^ 64)
    rcErr := 0, refs := [], rtpSeq := BitVec.ofNat 16 free, ipId := BitVec.ofNat 16 (free / 65536), settle := [], carried := 0
    refTicks := [], dmgQp := [], vectors := [], units := [] }

/-- Raise the owner's EAR by `k` in each of a list of pools. -/
def State.earmarkAll (s : State) (o k : Nat) : List (Option Nat) → Option State
  | [] => some s
  | none :: _ => none
  | some p :: t =>
    match s.earmark p o k with
    | some s1 => s1.earmarkAll o k t
    | none => none

/-! ### OPEN of an encode stream -/

/-- A profile of the encode formats (Table 06-1). -/
def encodeProfile (format profile : Nat) : Bool :=
  match format with
  | 0 => profile == 100
  | 1 => profile == 1 || profile == 2
  | _ => profile == 0

/-- The output that an encode stream's SOURCE names, where it names one. -/
def State.sourceOf (s : State) (x : Slot) : Option Output :=
  if bits (x.field 40 8) 23 16 == 3 && s.namesLive x.fn (x.field 40 8) then s.outp (x.field 40 8 % 65536) else none

/-- The fields of an encode stream's OPEN up to PARAMS (R163, R168). The checks of R168 wait for a SOURCE that names an
output. -/
def State.openEncFields (s : State) (x : Slot) : List (Bool × Deny) :=
  let f := x.field 20 1
  let w := x.field 24 2
  let h := x.field 26 2
  let level := x.field 22 1
  let src := s.sourceOf x
  x.openCommon ++ [(src.any (fun o => o.group != x.group), bad 17 5), (decide (3 < f), bad 20 5), (f == 3, bad 20 7),
    (!encodeProfile f (x.field 21 1), bad 21 7), (levelAbove f (x.field 22 1) || levelBelow f (x.field 22 1), bad 22 7)]
  ++ streamSize x
    [(!sizeInLevel f level w h || !dimInLevel f level w Level.maxW, bad 24 5), (src.any (fun o => o.width != w || o.height != h), bad 24 5)]
    [(!dimInLevel f level h Level.maxH, bad 26 5)] [(!rateInLevel f level w h (x.field 28 4), bad 28 5)]
  ++ [(decide (3 < x.field 33 1), bad 33 5),
    (x.field 34 1 == 0 || decide (4 < x.field 34 1), bad 34 5), (decide (8 < x.field 35 1), bad 35 5),
    (src.isSome && x.field 48 8 == 0, bad 48 5), (x.field 56 8 % 64 != 0, bad 56 6),
    (x.field 56 8 == 0 && (decide (1 < x.field 34 1) || x.field 48 8 != 0), bad 56 5)]

/-- What comes after the parameter block has been read: its fields, the handles, the contexts (R170, R171, R240). Of a block that could
not be read only what OPEN itself holds is checked. -/
def State.openEncLast (s : State) (x : Slot) (block : Option (List Byte)) : List (Bool × Deny) :=
  let pb := block.getD []
  let rungs := List.range (x.field 34 1)
  let src := x.field 40 8
  [(block.isSome && x.field 56 8 != 0 && !(headerOk x pb && rungs.all (rungOk x pb)), bad 56 5), x.noHandle]
  ++ (if src = 0 then [] else [s.handleBad x.fn src 3 40])
  ++ rungs.map (fun r => if rungSink x pb r = 0 then (false, bad 48 1)
      else s.handleBad x.fn (rungSink x pb r) 4 (if r = 0 then 48 else 56))
  ++ [(decide (256 < s.encList.foldl (fun k e => k + e.2.contexts) (x.field 34 1)), ⟨.noResource, detailOf 16 0⟩),
    (src != 0 && decide (4 ≤ (s.encList.filter (fun e => e.2.source == some (src % 65536))).length),
      ⟨.noResource, detailOf 40 0⟩)]

/-- The object that OPEN makes of an encode stream. -/
def newEnc (x : Slot) (pb : List Byte) (pools : List Nat) (gen opened cost cycles split free : Nat) : EncStream :=
  let f := x.field 20 1
  let q := qpRange f pb
  let or_ := fun (v d : Nat) => if v = 0 then d else v
  let rungs := (List.range (x.field 34 1)).map (fun r => newRung x pb (pools.getD r 0) r (Config.freeNat (free + r)))
  let ck : Checkpoint := ⟨true, 0, false, 0, none, 0, rungs⟩
  let refresh := bit (fieldLe pb 3 1) 0
  { st := .active, fn := x.fn, gen := gen, group := x.group, retarget := x.field 18 1 == 1, format := f
    profile := x.field 21 1, level := x.field 22 1, cls := x.field 23 1, width := x.field 24 2, height := x.field 26 2
    rate := x.field 28 4, tenBit := x.field 32 1 == 10, rcMode := x.field 33 1, settlePasses := x.field 35 1
    source := if x.field 40 8 = 0 then none else some (x.field 40 8 % 65536), cost := cost, cycles := cycles
    opened := opened, evicted := false, lastCores := [], split := split, contexts := x.field 34 1, nref := or_ (fieldLe pb 1 1) 1
    settleDq := fieldLe pb 2 1 * (if f = 2 then 8 else 1), refresh := refresh, psEvery := bit (fieldLe pb 3 1) 1
    screen := bit (fieldLe pb 3 1) 2 && f == 2, qpMin := q.1, qpMax := q.2
    qpI := or_ (fieldLe pb 6 1) (if f = 2 then 120 else 30), qpP := or_ (fieldLe pb 7 1) (if f = 2 then 128 else 32)
    keyInterval := fieldLe pb 8 4, refreshFrames := fieldLe pb 12 2, pace := fieldLe pb 14 1, tier := fieldLe pb 15 1
    resultAddr := BitVec.ofNat 64 (fieldLe pb 16 8), resultCount := fieldLe pb 24 2, resultPos := 0, seqNext := 0
    ckA := ck, ckB := { ck with valid := false }, newer := false, keyDue := true, keyAfter := false, owed := [], overruns := 0, credit := 0
    closer := none, drain := false }

/-- The cost of an encode stream in encode units, and its frame cycles (R197). -/
def State.encodeCost (s : State) (x : Slot) (pb : List Byte) : Nat × Nat :=
  let d := if x.field 40 8 = 0 then 100 else s.dmgCeil x.fn
  let cycles := (List.range (x.field 34 1)).foldl (fun k r =>
    k + rungCycles (rungSize x pb r).1 (rungSize x pb r).2 d (x.field 35 1)) 0
  let (a, b) := s.grpRate x.group.val
  (ceilDiv (a * cycles) (b * 800000), cycles)

/-- OPEN of an encode stream. A parameter block that could not be read, poisoned or out of reach, ends it with BUS_ERROR where no other
check fails (R101, R170). -/
def State.openEnc (s : State) (n pick : Nat) (params : List Byte) (x : Slot) : State :=
  match firstDeny (s.openEncFields x) with
  | some d => s.deny n d
  | none =>
    let a := BitVec.ofNat 64 (x.field 56 8)
    let (failed, pb, s1) := if x.field 56 8 = 0 then (none, [], s) else s.takeBytes a (64 + 128 * x.field 34 1) params
    let ten := x.field 32 1 == 10
    let pools := (List.range (x.field 34 1)).map (fun r =>
      s1.poolFor (pictureBytes (rungSize x pb r).1 (rungSize x pb r).2 ten))
    match firstDeny (s1.openEncLast x (if failed.isSome then none else some pb)), pickFree 256 pick (fun i => (s1.enc i).isNone) with
    | some d, _ => s1.deny n d
    | none, none => s1.deny n ⟨.noResource, detailOf 16 0⟩
    | none, some i =>
      if failed.isSome then s1.deny n ⟨.busError, none⟩
      else
        let nref := if fieldLe pb 1 1 = 0 then 1 else fieldLe pb 1 1
        let (cost, cycles) := s1.encodeCost x pb
        match s1.earmarkAll x.fn (nref + 1) pools, s1.admission x.fn true cost with
        | none, _ => s1.deny n ⟨.noResource, detailOf 24 0⟩
        | some _, some code => s1.deny n ⟨.admissionDenied, detailOf 16 code⟩
        | some t, none =>
          let gen := s1.genOf 2 i
          let split := if x.field 20 1 = 0 then 1 else s1.splitFor x.group (x.field 24 2) (x.field 26 2) 8
          let e := newEnc x pb (pools.map (fun p => p.getD 0)) gen t.codec.openSeq cost cycles split t.free
          let t1 := t.setEnc i (some e)
          ({ t1 with codec.openSeq := t1.codec.openSeq + 1, free := t1.free + x.field 34 1 }).opened n (handleOf 2 i x.fn gen)

/-! ### OPEN of an output and of a send queue -/

/-- The checks of OPEN of a compositor output (R220), in order. -/
def State.openOutChecks (s : State) (x : Slot) : List (Bool × Deny) :=
  let w := x.field 24 2
  let h := x.field 26 2
  let st := x.field 32 8
  let route := x.field 29 1
  x.openCommon ++ [x.resv 20 24, (decide (w < 16) || decide (8192 < w) || w % 2 == 1, bad 24 5),
    (decide (h < 16) || decide (4320 < h) || h % 2 == 1, bad 26 5), (decide (1 < x.field 28 1), bad 28 7),
    (decide (3 < route), bad 29 5), x.resv 30 32, (!bit route 1 && st != 0, bad 32 5), x.resv 40 64, x.noHandle]
    ++ (if bit route 1 then [s.handleBad x.fn st 4 32] else [])

/-- OPEN of a compositor output (R220). -/
def State.openOut (s : State) (n pick : Nat) (x : Slot) : State :=
  let w := x.field 24 2
  let h := x.field 26 2
  let ten := x.field 28 1 == 1
  let st := x.field 32 8
  let route := x.field 29 1
  let all := s.pixelRate + s.outRate w h x.group
  match firstDeny (s.openOutChecks x), pickFree 128 pick (fun i => (s.outp i).isNone) with
  | some d, _ => s.deny n d
  | none, none => s.deny n ⟨.noResource, detailOf 16 0⟩
  | none, some i =>
    match (s.poolFor (outFrameBytes w h ten)).bind (fun p => (s.earmark p x.fn 3).map (fun t => (p, t))) with
    | none => s.deny n ⟨.noResource, detailOf 24 0⟩
    | some (p, t) =>
      if 16000000000 * 1001 < all then s.deny n ⟨.noResource, detailOf 24 0⟩
      else
        let gen := s.genOf 3 i
        let (free, t1) := t.drawFree
        let o : Output := {
          st := .active, fn := x.fn, gen := gen, group := x.group, retarget := x.field 18 1 == 1, width := w, height := h
          tenBit := ten, route := route, stQueue := if bit route 1 then some (st % 65536) else none, pool := p
          planes := List.replicate 16 Plane.off, updates := [], frame := none, onShow := none, tags := [], shown := [], holds := []
          dirty := 0, all := true, late := false, uncounted := false, ring := [], seq := 0, overruns := 0, st2110 := []
          stSeq := BitVec.ofNat 32 free, closer := none, drain := false }
        (((t1.setOut i (some o)).updCounts i (fun c => { c with frames := 0 })).settleNight).opened n (handleOf 3 i x.fn gen)

/-- The checks of OPEN of a send queue (Table 04-14), in order. -/
def Slot.openSendQChecks (x : Slot) : List (Bool × Deny) :=
  let kind := x.field 20 1
  x.openCommon ++ [(decide (1 < kind), bad 20 5), (decide (7 < x.field 21 1), bad 21 5),
    (decide ((if kind = 0 then 16 else 8191) < x.field 22 2), bad 22 5),
    (decide (4095 < x.field 24 2) && x.field 24 2 != 0xFFFF, bad 24 5),
    (decide (16383 < x.field 26 2) && x.field 26 2 != 0xFFFF, bad 26 5), x.resv 28 64, x.noHandle]

/-- OPEN of a send queue. -/
def State.openSendQ (s : State) (n pick : Nat) (x : Slot) : State :=
  let kind := x.field 20 1
  match firstDeny x.openSendQChecks, pickFree 65536 pick (fun i => (s.sendQ i).isNone) with
  | some d, _ => s.deny n d
  | none, none => s.deny n ⟨.noResource, detailOf 16 0⟩
  | none, some i =>
    let gen := s.genOf 4 i
    let q : SendQueue := ⟨x.fn, gen, x.group, x.field 18 1 == 1, kind, x.field 21 1, x.field 22 2, x.field 24 2, x.field 26 2,
      [], none, false, 0⟩
    (s.setSendQ i (some q)).opened n (handleOf 4 i x.fn gen)

/-- OPEN (R119). -/
def State.openEntry (s : State) (n pick : Nat) (params : List Byte) : State :=
  match s.ready n 0x20 with
  | none => s
  | some x =>
    match x.field 16 1 with
    | 0 => s.openDec n pick x
    | 1 => s.openEnc n pick params x
    | 2 => s.openOut n pick x
    | _ => s.openSendQ n pick x

/-! ### CLOSE (R120) -/

/-- An object that others use, or a channel that is at work, refuses CLOSE. -/
def State.closeBusy (s : State) (h : Nat) : Bool :=
  let i := h % 65536
  match bits h 23 16 with
  | 3 => s.encList.any (fun e => e.2.source == some i)
  | 4 => s.encList.any (fun e => e.2.ck.rungs.any (fun r => r.sink == some i)) || s.outList.any (fun e => e.2.stQueue == some i)
  | 5 => (s.chan i).st != .idle && (s.chan i).st != .ended
  | _ => false

/-- The checks of CLOSE (R120), in order. -/
def State.closeChecks (s : State) (x : Slot) : List (Bool × Deny) :=
  [(decide (1 < x.field 16 1), bad 16 8), x.resv 17 32, (!s.namesLive x.fn x.handle, bad 8 1),
    (s.closeBusy x.handle, ⟨.busy, none⟩)]

/-- CLOSE. -/
def State.closeEntry (s : State) (n : Nat) : State :=
  s.command n 0x21 s.closeChecks
    (fun x =>
      let drain := x.field 16 1 == 1
      let i := x.handle % 65536
      let t := s.start n
      match bits x.handle 23 16 with
      | 1 => t.closeDec i (some n) drain true
      | 2 => t.closeEnc i (some n) drain true
      | 3 => (t.genNext 3 i).closeOut i (some n) drain
      | 4 =>
        let on := (t.slotList.filter (fun e =>
          e.1 != n && e.2.handle == x.handle && (e.2.phase == .running || e.2.phase == .finished))).map Prod.fst
        (t.closeSendQ i drain).waitFor ⟨n, on, 0, some 0⟩
      | _ => (t.freeChannel (Fin.ofNat 64 i)).finish n .ok 0 0 none)

/-- OPEN. -/
def execOpenObject (n : Fin 4096) (pick : Nat) (params : List Byte) (s : State) : Host.Outcome State Fault Refusal :=
  .next (s.openEntry n.val pick params)
/-- CLOSE. -/
def execClose (n : Fin 4096) (s : State) : Host.Outcome State Fault Refusal := .next (s.closeEntry n.val)

end Sys2Proof.Machine
end

