-- ==== Sys2Proof/Machine/Jobs.lean ====
section
/-!
DEFINITION. Machine/Jobs.lean: the orders that submission queues and channel programs share, DECODE, ENCODE, COMPOSE and SEND
(R121 to R126, R224 to R229, R257 to R261), and the CHANNEL commands (R127, R264).
-/
namespace Sys2Proof.Machine

/-- An order to an object: the bytes of its entry or unit CCW, whose layouts agree from byte 8 on (R257), its function, the
master it comes from and who learns its end. -/
structure Ask where
  bytes : List Byte
  fn : Nat
  master : Master
  origin : JobOrigin
deriving DecidableEq, Repr

/-- A field of an order. -/
def Ask.field (a : Ask) (i n : Nat) : Nat := fieldLe a.bytes i n
/-- An address field. -/
def Ask.addr (a : Ask) (i : Nat) : DWord := BitVec.ofNat 64 (a.field i 8)
/-- The bytes from `lo` to below `hi` are reserved. -/
def Ask.resv (a : Ask) (lo hi : Nat) : Bool × Deny :=
  match (List.range (hi - lo)).find? (fun i => a.field (lo + i) 1 != 0) with
  | some i => (true, bad (lo + i) 8)
  | none => (false, bad lo 8)
/-- The index of the object that the order names. -/
def Ask.index (a : Ask) : Nat := a.field 8 8 % 65536
/-- The sender of a frame that the order stands for. -/
def Ask.sender (a : Ask) : Sender :=
  match a.origin with
  | .slot n => .slot n
  | .channel c async => .channel c async
  | .flip => .firmware

/-- A target tick reference names a tick of another group than the object's: it is refused as out of RANGE (DESIGN CHOICE,
assumption 34: R126 and R121 to R123 give no such check). -/
def Ask.otherGroup (a : Ask) (i : Nat) (g : Fin 4) : Bool := a.field i 8 / 2 ^ 62 != g.val

/-- What an order comes to: a denial and the state that its checks leave, or the state in which it is under way. -/
abbrev Asked := Except (Deny × State) State

/-! ### DECODE and ENCODE -/

/-- The checks of DECODE (R121), in order. -/
def State.decodeChecks (s : State) (a : Ask) : List (Bool × Deny) :=
  let len := a.field 24 4
  let group := match s.dec a.index with | some d => d.group | none => 0
  [(len == 0 || decide (2 ^ 26 < len), bad 24 5), (decide (7 < a.field 28 1), bad 28 8), a.resv 29 32,
    (a.field 40 8 % 64 != 0, bad 40 6), s.handleBad a.fn (a.field 8 8) 1 8, (a.otherGroup 32 group, bad 32 5),
    (!reaches (a.addr 16) len, ⟨.busError, none⟩)]

/-- DECODE (R121): steps 6 to 10 of Table 04-3, then its dispatch. -/
def State.askDecode (s : State) (a : Ask) : Asked :=
  match firstDeny (s.decodeChecks a) with
  | some d => .error (d, s)
  | none => .ok (s.submitDecode a.index a.origin a.fn (a.addr 16) (a.field 24 4) (BitVec.ofNat 8 (a.field 28 1)) (a.field 32 8) (a.addr 40))

/-- The checks of ENCODE (R122, R167), in order. -/
def State.encodeChecks (s : State) (a : Ask) : List (Bool × Deny) :=
  let e := s.enc a.index
  let group := match e with | some e => e.group | none => 0
  let sunk := e.any (fun e => match e.ck.rungs with | r :: _ => r.sink.isSome | [] => false)
  let size := match e with | some e => outFrameBytes e.width e.height e.tenBit | none => 0
  [(a.field 16 8 % 256 != 0, bad 16 6), (decide (3 < a.field 36 1), bad 36 8), a.resv 37 40,
    s.handleBad a.fn (a.field 8 8) 2 8, (e.any (fun e => e.source.isSome), bad 8 2),
    (sunk != (a.field 24 8 == 0), bad 24 5), (a.otherGroup 40 group, bad 40 5),
    (!reaches (a.addr 16) size || (a.field 24 8 != 0 && !reaches (a.addr 24) (a.field 32 4)), ⟨.busError, none⟩)]

/-- ENCODE (R122, R167). -/
def State.askEncode (s : State) (a : Ask) : Asked :=
  match firstDeny (s.encodeChecks a) with
  | some d => .error (d, s)
  | none => .ok (s.submitEncode a.index a.origin a.fn (a.addr 16) (a.addr 24) (a.field 32 4) (BitVec.ofNat 8 (a.field 36 1))
      (a.field 40 8))

/-! ### SEND -/

/-- The checks of SEND (R126) before its target, in order. -/
def State.sendChecks (s : State) (a : Ask) : List (Bool × Deny) :=
  let len := a.field 24 2
  let flags := a.field 26 1
  [(decide (len < 60) || decide (9212 < len), bad 24 5), (decide (3 < flags), bad 26 8), a.resv 27 32,
    a.resv 40 48, s.handleBad a.fn (a.field 8 8) 4 8]

/-- SEND (R126): one whose target is past has missed at dispatch (R48). -/
def State.askSend (s : State) (a : Ask) (data : List Byte) : Asked :=
  let len := a.field 24 2
  let flags := a.field 26 1
  let untimed := bit flags 1
  match firstDeny (s.sendChecks a), s.sendQ a.index with
  | some d, _ => .error (d, s)
  | none, none => .error (bad 8 1, s)
  | none, some q =>
    if !untimed && a.otherGroup 32 q.group then .error (bad 32 5, s)
    else
      match s.takeBytes (a.addr 16) len data with
      | (some st, _, t) => .error (⟨st, none⟩, t)
      | (none, bs, t) =>
        let target := t.resolve (a.field 32 8)
        let next := t.nextTick q.group
        let missed := !untimed && t.isPast target
        let x : SendFrame := {
          sender := a.sender, fn := a.fn, bytes := bs, stampWanted := bit flags 0
          target := if untimed then none else some ⟨q.group, if missed then next else target.tick⟩
          firstTarget := target.tick, missed := missed, discarded := false, untimed := untimed, uncounted := false
          buffer := none }
        let u := if missed then t.countSendMiss a.index a.fn else t
        if missed && (!q.retarget || decide (target.tick + 3 < next)) then .ok (u.jobDone a.origin .deadlineMissed 0 0 none)
        else .ok (u.placeFrame a.index x)

/-! ### COMPOSE: what a plane shows -/

/-- The rectangle at two words has no part of the output. -/
def Ask.outside (a : Ask) (o : Output) : Bool :=
  o.planeBlocks { Plane.off with kind := 1, dstXy := BitVec.ofNat 32 (a.field 32 4), dstWh := BitVec.ofNat 32 (a.field 36 4) } == 0

/-- The crop of SRC_XY and SRC_WH lies within a size (R229). -/
def Ask.cropIn (a : Ask) (w h : Nat) : Bool := decide (a.field 40 2 + a.field 44 2 ≤ w) && decide (a.field 42 2 + a.field 46 2 ≤ h)

/-- The scaling ratio of one dimension lies from 1/8 to 8 (R229). -/
def ratioOk (dst src : Nat) : Bool := decide (0 < src) && decide (0 < dst) && decide (src ≤ 8 * dst) && decide (dst ≤ 8 * src)

/-- The header of a still is in range (Table 08-2). -/
def stillOk (b : List Byte) : Bool :=
  let w := fieldLe b 0 2
  let h := fieldLe b 2 2
  decide (1 ≤ w) && decide (w ≤ 8192) && decide (1 ≤ h) && decide (h ≤ 4320) && decide (fieldLe b 4 1 ≤ 2)
    && decide (fieldLe b 5 1 ≤ 1) && fieldLe b 8 4 % 256 == 0 && zeroIn b 16 256

/-- The bytes of a still's pixel data. -/
def stillBytes (b : List Byte) : Nat :=
  let luma := fieldLe b 8 4 * fieldLe b 2 2
  if fieldLe b 4 1 = 2 then luma else max luma (fieldLe b 12 4 + fieldLe b 8 4 * ceilDiv (fieldLe b 2 2) 2)

/-- A text-layer descriptor is in range (Table 08-3). -/
def descriptorOk (b : List Byte) : Bool :=
  fieldLe b 8 8 % 8 == 0 && decide (fieldLe b 16 2 ≤ 4096) && decide (1 ≤ fieldLe b 18 2) && decide (fieldLe b 18 2 ≤ 8192)
    && decide (1 ≤ fieldLe b 20 2) && decide (fieldLe b 20 2 ≤ 4320) && zeroIn b 22 24
    && (List.range 5).all (fun i => decide (fieldLe b (24 + 4 * i) 4 < 2 ^ 30)) && zeroIn b 45 64

/-- An atlas header is in range (R227). -/
def atlasOk (b : List Byte) : Bool :=
  let w := fieldLe b 2 2
  let h := fieldLe b 4 2
  decide (1 ≤ fieldLe b 0 2) && decide (16 ≤ w) && decide (w ≤ 4096) && decide (16 ≤ h) && decide (h ≤ 4096)
    && decide (fieldLe b 6 1 ≤ 1) && (fieldLe b 6 1 == 0 || w % 2 == 0) && zeroIn b 7 8 && decide (fieldLe b 8 4 ≤ 2 ^ 21)
    && zeroIn b 12 64

/-- A glyph entry is in range (Table 08-4, R227). -/
def glyphOk (b : List Byte) (glyphs i : Nat) : Bool :=
  decide (fieldLe b (8 * i) 2 < glyphs) && decide (fieldLe b (8 * i + 6) 1 ≤ 3) && fieldLe b (8 * i + 7) 1 == 0

/-- What firmware found at SOURCE: the size of the layer or still, the bytes of a still to copy, the atlas with its size in
KiB and its glyphs, and the glyph count of the layer. -/
structure Found where
  width : Nat
  height : Nat
  copy : Option (List Byte)
  atlas : Option (DWord × Nat × Nat)
  glyphs : Nat
deriving DecidableEq, Repr

/-- A still is read (R224). -/
def State.readStill (s : State) (a : Ask) (x : PlaneData) : Except (Deny × State) (Found × State) :=
  let src := a.addr 24
  match s.takeBytes src 256 x.header with
  | (some st, _, t) => .error (⟨st, none⟩, t)
  | (none, b, t) =>
    if !stillOk b then .error (bad 24 5, t)
    else if isDevice src then
      if reaches src (256 + stillBytes b) then .ok (⟨fieldLe b 0 2, fieldLe b 2 2, none, none, 0⟩, t)
      else .error (⟨.busError, none⟩, t)
    else if !x.ok || x.pixels.length < stillBytes b then .error (⟨.busError, none⟩, t)
    else .ok (⟨fieldLe b 0 2, fieldLe b 2 2, some (b ++ x.pixels.take (stillBytes b)), none, 0⟩, t)

/-- The glyph count of an atlas and its size in KiB: of a resident one as it became resident (R227). -/
def State.readAtlas (s : State) (at_ : DWord) (x : PlaneData) : Except (Deny × State) ((Nat × Nat) × State) :=
  match s.cmp.atlases.find? (fun e => e.address == at_) with
  | some e => .ok ((e.kib, e.glyphs), s)
  | none =>
    match s.takeBytes at_ 64 x.atlas with
    | (some st, _, t) => .error (⟨st, none⟩, t)
    | (none, b, t) => if atlasOk b then .ok ((ceilDiv (fieldLe b 8 4) 1024, fieldLe b 0 2), t) else .error (bad 24 5, t)

/-- A text layer is read: its descriptor, its atlas, its glyph entries (R226, R227). -/
def State.readText (s : State) (a : Ask) (x : PlaneData) : Except (Deny × State) (Found × State) :=
  match s.takeBytes (a.addr 24) 64 x.header with
  | (some st, _, t) => .error (⟨st, none⟩, t)
  | (none, b, t) =>
    let at_ := BitVec.ofNat 64 (fieldLe b 0 8)
    let n := fieldLe b 16 2
    if !descriptorOk b then .error (bad 24 5, t)
    else
      match t.readAtlas at_ x with
      | .error e => .error e
      | .ok ((kib, glyphs), t1) =>
        match t1.takeBytes (BitVec.ofNat 64 (fieldLe b 8 8)) (8 * n) x.glyphs with
        | (some st, _, t2) => .error (⟨st, none⟩, t2)
        | (none, g, t2) =>
          if !(List.range n).all (glyphOk g glyphs) then .error (bad 24 5, t2)
          else .ok (⟨fieldLe b 18 2, fieldLe b 20 2, none, some (at_, kib, glyphs), n⟩, t2)

/-- What a plane's SOURCE holds: nothing is read of a video, of a colour, of a disabled plane. -/
def State.readSource (s : State) (a : Ask) (x : PlaneData) : Except (Deny × State) (Found × State) :=
  match a.field 17 1 with
  | 2 => s.readStill a x
  | 4 => s.readText a x
  | _ => .ok (⟨0, 0, none, none, 0⟩, s)

/-! ### COMPOSE -/

/-- An update that has been applied has no effect after all (R28): its plane holds again what it held before, and a frame that
took it composes the plane anew, which takes its time over again (DESIGN CHOICE, assumption 35). -/
def State.undoUpdate (s : State) (o : Nat) (u : PlaneUpdate) : State :=
  match s.outp o, u.prev with
  | some x, some p =>
    let struck := x.planeBlocks u.content ||| x.planeBlocks p
    let x1 := { x with
      planes := Sys2Proof.setAt x.planes u.plane p, dirty := x.dirty ||| struck
      updates := x.updates.map (fun v : PlaneUpdate => if v.id = u.id then { v with prev := none } else v) }
    let s1 := (s.setOut o (some x1)).dropContent u.content
    match x1.frame with
    | none => s1
    | some f =>
      let pic := s1.planePicture x1 u.plane (s1.tickTime x1.group.val f.tick)
      let crop := s1.planeCrop p pic
      let f1 := { f with
        ended := false, planes := Sys2Proof.setAt f.planes u.plane (p.shownAs crop), pictures := Sys2Proof.setAt f.pictures u.plane pic
        crops := Sys2Proof.setAt f.crops u.plane crop, dirty := f.dirty ||| struck
        due := max f.due s1.now + x1.composeTime (f.dirty ||| struck) }
      (s1.updOut o (fun y => { y with frame := some f1 })).takePictures o (shownBy f1.pictures)
  | _, _ => s.dropContent u.content

/-- An update that loses to a later order of another master is taken back (R28, R107). -/
def State.dropUpdate (s : State) (o id : Nat) : State :=
  match (s.outp o).bind (fun x => x.updates.find? (fun u => u.id == id)) with
  | some u => (s.undoUpdate o u).endUpdate o u .conflict none
  | none => s

/-- The order has completed: its update is gone, shown by a flip (R123). -/
def State.composed (s : State) (o id : Nat) : Bool := !(s.outp o).any (fun x => x.updates.any (fun u => u.id == id))

/-- The resident atlases leave no room for one more of a size (R227). -/
def State.atlasFull (s : State) (at_ : DWord) (kib : Nat) : Bool :=
  let l := s.cmp.atlases
  !l.any (fun e => e.address == at_) && (decide (32 ≤ l.length)
    || decide (bits (s.regOr 6144 0x180000) 13 0 < l.foldl (fun k e => k + e.kib) kib))

/-- The content that a COMPOSE gives its plane. -/
def Ask.content (a : Ask) (f : Found) (buffer : Option Nat) : Plane :=
  { kind := a.field 17 1, source := a.addr 24, dstXy := BitVec.ofNat 32 (a.field 32 4), dstWh := BitVec.ofNat 32 (a.field 36 4)
    srcXy := BitVec.ofNat 32 (a.field 40 4), srcWh := BitVec.ofNat 32 (a.field 44 4), alpha := BitVec.ofNat 8 (a.field 48 1)
    atlas := f.atlas.map Prod.fst, glyphs := f.glyphs, buffer := buffer }

/-- Step 9 of Table 04-3: the room an atlas needs, and the buffer that a host still is copied into. -/
def State.composeRoom (s : State) (a : Ask) (f : Found) : Except (Deny × State) (Option Nat × State) :=
  match f.atlas, f.copy with
  | some (at_, kib, glyphs), _ =>
    if s.atlasFull at_ kib then .error (⟨.noResource, detailOf 24 0⟩, s.raise 117)
    else .ok (none, s.useAtlas at_ kib glyphs)
  | none, some bs =>
    match s.poolFor bs.length with
    | none => .error (⟨.noResource, detailOf 24 0⟩, s)
    | some p =>
      match s.request p a.fn with
      | (some b, t) => .ok (some b, t.devWrite (t.bufAddr b) bs)
      | (none, t) => .error (⟨.noResource, detailOf 24 0⟩, t)
  | none, none => .ok (none, s)

/-- The checks of a COMPOSE after its source (R124, R229): what was found there is none where it could not be read. -/
def State.composeChecks (s : State) (a : Ask) (f : Option Found) : List (Bool × Deny) :=
  let kind := a.field 17 1
  let o := if (s.handleBad a.fn (a.field 8 8) 3 8).1 then none else s.outp a.index
  let group := match o with | some o => o.group | none => 0
  [(kind != 0 && o.any a.outside, bad 32 5),
    ((kind == 2 || kind == 4) && f.any (fun f => !a.cropIn f.width f.height), bad 40 5),
    (kind != 0 && kind != 3 && !(ratioOk (a.field 36 2) (a.field 44 2) && ratioOk (a.field 38 2) (a.field 46 2)), bad 44 5),
    a.resv 49 56, s.handleBad a.fn (a.field 8 8) 3 8] ++ (if kind = 1 then [s.handleBad a.fn (a.field 24 8) 1 24] else [])
  ++ [(a.otherGroup 56 group, bad 56 5)]

/-- The checks of a COMPOSE before its source is read (R123), in order. -/
def Ask.composeChecks (a : Ask) : List (Bool × Deny) :=
  [(decide (15 < a.field 16 1), bad 16 5), (decide (4 < a.field 17 1), bad 17 5), a.resv 18 24,
    (a.field 17 1 == 3 && decide (2 ^ 30 ≤ a.field 24 8), bad 24 5)]

/-- COMPOSE (R123 to R125, R28): `op` is the opcode by which the order is logged. A source that could not be read ends it only
where every other check passes; orders it contradicts are met once none is left to fail. -/
def State.askCompose (s : State) (a : Ask) (x : PlaneData) : Asked :=
  let o := a.index
  let n := a.field 16 1
  match firstDeny a.composeChecks with
  | some d => .error (d, s)
  | none =>
    match s.readSource a x with
    | .error (d, s1) =>
      match d.st, firstDeny (s.composeChecks a none) with
      | .invalidField, _ => .error (d, s1)
      | _, some e => .error (e, s)
      | _, none => .error (d, s1)
    | .ok (f, s1) =>
      match firstDeny (s1.composeChecks a (some f)) with
      | some d => .error (d, s1)
      | none =>
        let setting := Setting.plane o n
        let value := a.field 16 40
        let op := match a.master with | .chan _ => 0x22 | _ => 0x24
        let (lost, s2) := s1.contest setting value a.master op (fun y => s1.composed o y.id) (fun y s => s.dropUpdate o y.id)
        if lost then .error (⟨.conflict, detailOf 0 0⟩, s2)
        else
          match s1.composeRoom a f with
          | .error e => .error e
          | .ok (b, s3) =>
            let met := (s3.contest setting value a.master op (fun y => s3.composed o y.id) (fun y s => s.dropUpdate o y.id)).2
            let s4 := met.keepOrder setting value a.master op met.cmp.updateSeq
            .ok (s4.submitCompose o a.master a.fn a.origin n (a.content f b) (s4.resolve (a.field 56 8)))

/-! ### The commands -/

/-- Carry out an order that came through a submission queue. -/
def State.askEntry (s : State) (n op : Nat) (f : State → Ask → Asked) : State :=
  match s.ready n op with
  | none => s
  | some x =>
    match f (s.start n) ⟨x.bytes, x.fn, x.master, .slot n⟩ with
    | .ok t => t
    | .error (d, t) => t.deny n d

/-- DECODE. -/
def execDecode (n : Fin 4096) (s : State) : Host.Outcome State Fault Refusal :=
  .next (s.askEntry n.val 0x22 (fun t a => t.askDecode a))
/-- ENCODE. -/
def execEncode (n : Fin 4096) (s : State) : Host.Outcome State Fault Refusal :=
  .next (s.askEntry n.val 0x23 (fun t a => t.askEncode a))
/-- COMPOSE. -/
def execCompose (n : Fin 4096) (x : PlaneData) (s : State) : Host.Outcome State Fault Refusal :=
  .next (s.askEntry n.val 0x24 (fun t a => t.askCompose a x))
/-- SEND. -/
def execSend (n : Fin 4096) (data : List Byte) (s : State) : Host.Outcome State Fault Refusal :=
  .next (s.askEntry n.val 0x25 (fun t a => t.askSend a data))

/-! ### Unit CCWs (R257 to R260) -/

/-- The subchannel that a unit CCW must name for its handle (R257). -/
def unitSubch (h : Nat) : Nat :=
  match bits h 23 16 with
  | 1 => 0x200 + h % 65536
  | 2 => 0x100 + h % 65536
  | 3 => 0x080 + h % 65536
  | _ => 0x020

/-- A unit CCW addresses host space, which no channel reaches in CONTINUITY (R280). -/
def unitHost (b : List Byte) : Bool :=
  let host := fun (i : Nat) => decide (fieldLe b i 8 < 2 ^ 63)
  match ccwOp b with
  | 0x20 => host 16 || (fieldLe b 40 8 != 0 && host 40)
  | 0x21 => host 16 || (fieldLe b 24 8 != 0 && host 24)
  | 0x22 => (fieldLe b 17 1 == 2 || fieldLe b 17 1 == 4) && host 24
  | _ => host 16

/-- The code of a unit CCW that is a program error: its COUNT, its handle, its subchannel. -/
def State.unitCcwBad (s : State) (fn : Nat) (b : List Byte) : Option CcwCode :=
  let h := (ccwAddr b).toNat
  let kind := match ccwOp b with | 0x20 => 1 | 0x21 => 2 | 0x22 => 3 | _ => 4
  if ccwCount b ≠ 0 then some .range
  else if !s.namesLive fn h || bits h 23 16 == 5 then some .protection
  else if bits h 23 16 ≠ kind ∨ ccwSubch b ≠ unitSubch h then some .invalidSubchannel
  else if s.pwr.mode == .continuity && unitHost b then some .hostUnavailable
  else none

/-- Carry out a unit CCW: a failed check ends it with UNIT_ERROR and the status (R258); with ASYNC it ends once its job is
dispatched, otherwise it waits for the job (R259). -/
def State.ccwUnit (s : State) (c : Nat) (w : List Byte) (op : Nat) (f : State → Ask → Asked) : State :=
  s.runCcw c w (· == op) (fun t b =>
    let x := t.chan c
    let async := ccwAsync b
    match t.unitCcwBad x.fn b with
    | some code => t.failCcw c (if code = .protection then .accessError else .programError) code 0
    | none =>
      let t1 := if async then t else t.setChan c { x with st := .waiting, wait := .job }
      match f t1 ⟨b, x.fn, .chan (Fin.ofNat 64 c), .channel c async⟩ with
      | .ok t2 => if async then t2.endCcw c .ok .none 0 0 else t2
      | .error (d, t2) => t2.failCcw c .unitError .none d.st.code)

/-- CCW_DECODE. -/
def execCcwDecode (c : Fin 64) (w : List Byte) (s : State) : Host.Outcome State Fault Refusal :=
  .next (s.ccwUnit c.val w 0x20 (fun t a => t.askDecode a))
/-- CCW_ENCODE. -/
def execCcwEncode (c : Fin 64) (w : List Byte) (s : State) : Host.Outcome State Fault Refusal :=
  .next (s.ccwUnit c.val w 0x21 (fun t a => t.askEncode a))
/-- CCW_COMPOSE. -/
def execCcwCompose (c : Fin 64) (w : List Byte) (x : PlaneData) (s : State) : Host.Outcome State Fault Refusal :=
  .next (s.ccwUnit c.val w 0x22 (fun t a => t.askCompose a x))
/-- CCW_SEND. -/
def execCcwSend (c : Fin 64) (w : List Byte) (data : List Byte) (s : State) : Host.Outcome State Fault Refusal :=
  .next (s.ccwUnit c.val w 0x23 (fun t a => t.askSend a data))

end Sys2Proof.Machine
end

