-- ==== Sys2Proof/Machine/ChannelOrders.lean ====
section
/-!
DEFINITION. Machine/ChannelOrders.lean: the CHANNEL commands (R127, R264, R266) and the CONTROL CCW on STAGE (R261).
-/
namespace Sys2Proof.Machine

/-! ### CHANNEL -/

/-- A CHANNEL command with an action. -/
def State.channelCommand (s : State) (n action : Nat) (checks : Slot → List (Bool × Deny)) (f : Slot → State) : State :=
  match s.ready n 0x26 with
  | some x => if x.field 16 1 = action then s.command n 0x26 checks f else s
  | none => s

/-- The channel that a CHANNEL command names. -/
def Slot.channel (x : Slot) : Nat := x.handle % 65536

/-- The checks of CHANNEL ALLOCATE (R264), in order. -/
def allocateChecks (x : Slot) : List (Bool × Deny) :=
  [(decide (63 < x.field 17 1) && x.field 17 1 != 0xFF, bad 17 5), x.resv 18 32, x.noHandle]

/-- CHANNEL ALLOCATE. -/
def State.allocateEntry (s : State) (n pick : Nat) : State :=
  s.channelCommand n 0 allocateChecks
    (fun x =>
      let want := x.field 17 1
      let free := fun c => (s.chan c).st == .free
      match if want = 0xFF then pickFree 64 pick free else if free want then some want else none with
      | none => s.deny n ⟨.noResource, detailOf 17 0⟩
      | some c =>
        let gen := s.genOf 5 c
        (s.setChan c { Channel.free with st := .idle, fn := x.fn, gen := gen }).opened n (handleOf 5 c x.fn gen))

/-- A CHANNEL command on a channel in one of the states that a test accepts; BUSY in any other (Table 09-7). `extra` are the
checks of its own fields. -/
def State.channelOn (s : State) (n action : Nat) (extra : Slot → List (Bool × Deny)) (from_ : ChSt → Bool)
    (f : State → Fin 64 → Channel → Slot → State) : State :=
  s.channelCommand n action (fun x => extra x ++ [s.handleBad x.fn x.handle 5 8,
      (!from_ (s.chan x.channel).st, ⟨.busy, none⟩)])
    (fun x => f s (Fin.ofNat 64 x.channel) (s.chan x.channel) x)

/-- The bytes that the actions after START leave unused. -/
def unusedFields (x : Slot) : List (Bool × Deny) := [x.resv 17 32]

/-- The checks of CHANNEL START (R264), in order. -/
def startChecks (x : Slot) : List (Bool × Deny) :=
  [x.resv 17 18, (decide (1 < x.field 18 1), bad 18 8), x.resv 19 24,
    (x.field 24 8 % 16 != 0, bad 24 6), (x.field 18 1 == 1 && decide (x.field 24 8 < 2 ^ 63), bad 24 5)]

/-- CHANNEL START. -/
def State.startEntry (s : State) (n : Nat) : State :=
  s.channelOn n 1 startChecks
    (fun st => st == .idle || st == .ended)
    (fun s c y x => (s.start n).setChan c.val { y with
      st := .active, mark := x.field 18 1 == 1, ccw := BitVec.ofNat 64 (x.field 24 8), cur := none, wait := .none
      startSlot := some n, suspend := none, byMode := false, clearing := false, skip := false, ticked := false
      spanning := false })

/-- CHANNEL SUSPEND: a channel between two CCWs suspends at once. -/
def State.suspendEntry (s : State) (n : Nat) : State :=
  s.channelOn n 2 unusedFields (fun st => st == .active || st == .waiting || st == .suspended) (fun s c y _ =>
    if y.st = .suspended then s.finish n .ok 0 0 none
    else
      let s1 := (s.start n).setChan c.val { y with suspend := some .host, suspendSlots := y.suspendSlots ++ [n] }
      if y.st == .active && y.cur.isNone && !y.spanning then s1.suspendNow c.val .host else s1)

/-- CHANNEL RESUME. -/
def State.resumeEntry (s : State) (n : Nat) : State :=
  s.channelOn n 3 unusedFields (· == .suspended) (fun s c y _ =>
    (s.setChan c.val { y with st := .active, byMode := false }).finish n .ok 0 0 none)

/-- CHANNEL HALT: it completes once the program has ended, after the START completion. -/
def State.haltEntry (s : State) (n : Nat) : State :=
  s.channelOn n 4 unusedFields (fun st => st != .halting) (fun s c y _ =>
    if y.st = .idle ∨ y.st = .ended then s.finish n .ok 0 0 none
    else ((s.start n).setChan c.val { y with haltSlots := y.haltSlots ++ [n] }).haltChannel c)

/-- CHANNEL CLEAR: as HALT, then IDLE with the CSW cleared. -/
def State.clearEntry (s : State) (n : Nat) : State :=
  s.channelOn n 5 unusedFields (fun _ => true) (fun s c y _ =>
    if y.st = .idle ∨ y.st = .ended then
      ((s.dropChannelSession c).setChan c.val { y with st := .idle, csw := List.replicate 32 0 }).finish n .ok 0 0 none
    else
      let s1 := (s.start n).setChan c.val { y with haltSlots := y.haltSlots ++ [n], clearing := true }
      if y.st = .halting then s1 else s1.haltChannel c)

/-- CHANNEL_ALLOCATE. -/
def execChannelAllocate (n : Fin 4096) (pick : Nat) (s : State) : Host.Outcome State Fault Refusal :=
  .next (s.allocateEntry n.val pick)
/-- CHANNEL_START. -/
def execChannelStart (n : Fin 4096) (s : State) : Host.Outcome State Fault Refusal := .next (s.startEntry n.val)
/-- CHANNEL_SUSPEND. -/
def execChannelSuspend (n : Fin 4096) (s : State) : Host.Outcome State Fault Refusal := .next (s.suspendEntry n.val)
/-- CHANNEL_RESUME. -/
def execChannelResume (n : Fin 4096) (s : State) : Host.Outcome State Fault Refusal := .next (s.resumeEntry n.val)
/-- CHANNEL_HALT. -/
def execChannelHalt (n : Fin 4096) (s : State) : Host.Outcome State Fault Refusal := .next (s.haltEntry n.val)
/-- CHANNEL_CLEAR. -/
def execChannelClear (n : Fin 4096) (s : State) : Host.Outcome State Fault Refusal := .next (s.clearEntry n.val)

/-! ### CONTROL on STAGE (R261) -/

/-- The pairs of a STAGE WRITE by a channel: at ADDRESS, of device space from memory, of host space and behind a page list as
the read returned them. -/
def State.channelPairs (s : State) (b pairs : List Byte) : List (Nat × Nat) :=
  let bs := if isDevice (ccwAddr b) && !ccwFlag b 6 then s.dev.bytes (spaceOff (ccwAddr b)) (ccwCount b) else pairs
  stagePairs bs 0 (ccwCount b / 8)

/-- A staging operation ends a channel's CCW with OK, or with UNIT_ERROR and its status. -/
def State.endStageCcw (s : State) (c : Nat) (st : Status) : State :=
  if st.good then s.orderDone c else s.failCcw c .unitError .none st.code

/-- STAGE WRITE by a channel: the checks of R114, then the pairs. -/
def State.channelWrite (s : State) (c : Nat) (b pairs : List Byte) : State :=
  let n := ccwCount b
  let fn := (s.chan c).fn
  let m := Master.chan (Fin.ofNat 64 c)
  if n < 8 ∨ 512 < n ∨ n % 8 ≠ 0 then s.failCcw c .programError .range 0
  else
    match s.ccwAreas b n [ccwAddr b] with
    | .error e => s.failCcw c .programError e 0
    | .ok l =>
      let (s1, poison) := s.readAreas l
      let w := s1.channelPairs b pairs
      if poison then s1.failCcw c .poison .none 0
      else if (pairAt w (fun off => fn != 0 && !s1.ownsReg fn off)).isSome then s1.endStageCcw c .notPermitted
      else if (pairAt w (fun off => (stagedAt off).isNone)).isSome then s1.endStageCcw c .invalidField
      else
        let (st, t) := s1.stagingWrite m .channel (fun t => t.putPairs w)
        t.endStageCcw c st

/-- The sub-operations of a channel but for WRITE: the fields are at the offsets of the command (Table 04-11). -/
def State.channelStage (s : State) (c : Nat) (b : List Byte) : State :=
  let m := Master.chan (Fin.ofNat 64 c)
  let x := s.chan c
  let async := ccwAsync b
  let held := s.holds m .channel
  let plain := zeroIn b 17 32
  let waits := if async then s else s.setChan c { x with st := .waiting, wait := .job }
  match fieldLe b 16 1 with
  | 0 =>
    if !plain then s.endStageCcw c .invalidField
    else
      match s.claim m .channel with
      | (.granted, t) => t.endStageCcw c .ok
      | (.busy, t) => t.endStageCcw c .busy
      | (.conflict, t) => t.endStageCcw c .conflict
  | 2 =>
    if !plain then s.endStageCcw c .invalidField
    else if !held then s.endStageCcw c .notPermitted
    else if s.stage.st == .checking || s.stage.st == .armed then s.endStageCcw c .busy
    else
      let t := waits.checkBegin (some (.channel c async))
      if async then t.endCcw c .ok .none 0 0 else t
  | 3 =>
    if decide (8 ≤ fieldLe b 17 1) || !zeroIn b 18 24 then s.endStageCcw c .invalidField
    else if !held then s.endStageCcw c .notPermitted
    else
      let (r, t) := waits.applyOrder (bit (fieldLe b 17 1) 0) (Fin.ofNat 4 (fieldLe b 17 1 / 2))
        (BitVec.ofNat 64 (fieldLe b 24 8)) (some (.channel c async))
      match r with
      | .armed => if async then t.endCcw c .ok .none 0 0 else t
      | _ => t.endStageCcw c .invalidField
  | 4 =>
    if !plain then s.endStageCcw c .invalidField
    else if !held then s.endStageCcw c .notPermitted
    else s.stageCancel.endStageCcw c .ok
  | 5 => s.endStageCcw c (if plain then .ok else .invalidField)
  | _ => s.endStageCcw c .invalidField

/-- CCW_CONTROL_STAGE. A channel's STATUS has nowhere to put SYS_STAGE_STATUS and only ends. -/
def State.ccwStage (s : State) (c : Nat) (w pairs : List Byte) : State :=
  if ccwSubch (s.nextCcw c w) ≠ 0x21 then s
  else s.runCcw c w (· == 0x03) (fun t b => if fieldLe b 16 1 = 1 then t.channelWrite c b pairs else t.channelStage c b)

/-- CCW_CONTROL_STAGE. -/
def execCcwControlStage (c : Fin 64) (w pairs : List Byte) (s : State) : Host.Outcome State Fault Refusal :=
  .next (s.ccwStage c.val w pairs)

end Sys2Proof.Machine
end

