-- ==== Sys2Proof/Machine/WickAccess.lean ====
section
/-!
DEFINITION. Machine/WickAccess.lean: how a Wick core reaches memory, how it enters and leaves exceptions, and the frame
in which every instruction runs: fetch checks, the load-delay slot, zero-overhead loops, ATOM, halts (R297 to R317).
-/
namespace Sys2Proof.Machine

/-- An exception: its vector (Table 10-10), the segment, whether a store, the TRAP code and the offset for FADDR. -/
structure WExc where
  vector : Nat
  seg : Nat
  store : Bool
  code : Nat
  addr : Word
deriving DecidableEq, Repr

/-- An instruction's outcome before the core goes on: the device with the core, a transfer of control if any, and a
load whose result is still to be committed. -/
structure WDone where
  s : State
  jump : Option Word
  load : Option (Fin 32 × Word)

/-- The result of an instruction: done, or an exception in a state in which only messages may have changed. -/
abbrev WResult := Except (WExc × State) WDone

/-- An instruction that only changes its core, and goes on. -/
def WDone.go (s : State) : WDone := ⟨s, none, none⟩

/-- The master that a Wick core's register accesses come from (assumption 30). -/
def wickMaster (_c : Fin 13) : Master := .lantern

/-- A word of register space through a Wick access. -/
def State.wRegRead (s : State) (c : Fin 13) (a : Nat) (peek : Bool) : Word × State :=
  s.busRead (wickMaster c) ((a - 0x5000000000) / 4 * 4) peek

/-- The bytes of `n` words of register space from the word at `a` on, read in rising order. -/
def State.wRegBytes (s : State) (c : Fin 13) (a : Nat) : Nat → List Byte × State
  | 0 => ([], s)
  | n + 1 =>
    let r := s.wRegRead c a false
    let t := r.2.wRegBytes c (a + 4) n
    (leBytes 4 r.1.toNat ++ t.1, t.2)

/-- Write bytes into the `n` words of register space from the word at `a` on, in rising order; bytes of a word that are not
written stay as they read. -/
def State.wRegPut (s : State) (c : Fin 13) (a : Nat) (bs : List Byte) : Nat → State
  | 0 => s
  | n + 1 =>
    let old := leBytes 4 (s.wRegRead c a true).1.toNat
    let m := min (4 - a % 4) bs.length
    let w := old.take (a % 4) ++ bs.take m ++ old.drop (a % 4 + m)
    (s.busWrite (wickMaster c) ((a - 0x5000000000) / 4 * 4) (BitVec.ofNat 32 (leNat w))).wRegPut c (a + m) (bs.drop m) n

/-- The words of register space that `n` bytes from an address touch. -/
def wRegWords (a n : Nat) : Nat := ceilDiv (a % 4 + n) 4

/-- Read `n` bytes at a physical address: BUS_ERROR (9) outside the regions the core reaches, MEDIA (10) for poison. -/
def State.wRead (s : State) (c : Fin 13) (kernel : Bool) (a n : Nat) (cache : Bool) :
    Except (Nat × State) (List Byte × State) :=
  match wRegion c kernel a n with
  | none => .error (9, s)
  | some .host =>
    if s.qm.linkUp then .ok (leBytes n s.drawFree.1, s.drawFree.2) else .error (9, s)
  | some .reg =>
    let r := s.wRegBytes c a (wRegWords a n)
    .ok (r.1.drop (a % 4) |>.take n, r.2)
  | some g =>
    if g == .cluster || cache then
      let s1 := forEach (wLines a n) s (fun l s => s.wHave c false l)
      if (g == .dram || g == .onDie) && s.poisonIn a n != [] then .error (10, s1)
      else .ok ((List.range n).map (fun i => (s1.wc c).cacheByte (a + i)), s1)
    else if g == .dram || g == .onDie then
      let s1 := s.devRead a n
      if s.poisonIn a n != [] then .error (10, s1) else .ok (s.dev.bytes a n, s1)
    else .ok (s.wRaw c a n, s)

/-- Write bytes at a physical address. ROM is not writable (Table 10-1). -/
def State.wWrite (s : State) (c : Fin 13) (kernel : Bool) (a : Nat) (bs : List Byte) (cache : Bool) :
    Except (Nat × State) State :=
  match wRegion c kernel a bs.length with
  | none => .error (9, s)
  | some .rom => .error (9, s)
  | some .host =>
    if s.qm.linkUp then .ok (s.hostWrite (a - 0x800000000000) bs) else .error (9, s)
  | some .reg =>
    .ok (s.wRegPut c a bs (wRegWords a bs.length))
  | some g =>
    if g == .cluster || cache then
      let s1 := forEach (wLines a bs.length) s (fun l s => s.wHave c true l)
      .ok (s1.setWc c ((s1.wc c).cachePut a bs))
    else if g == .dram || g == .onDie then .ok (s.devWrite a bs)
    else .ok (s.wPut c a bs)

/-- The checks of R298 on an access of `n` bytes at offset `o`: SEG_LIMIT (4), then SEG_RIGHTS (5). -/
def WSeg.refuses (g : WSeg) (o n : Nat) (right : WSeg → Bool) : Option Nat :=
  if g.limit.toNat < o + n then some 4 else if !right g then some 5 else .none

/-- A watchpoint on the words that an access touches (Table 10-12). -/
def WickCore.watched (k : WickCore) (seg : Fin 8) (o n : Nat) (store : Bool) : Bool :=
  k.wpCfg.getLsbD 6 && k.wpCfg.getLsbD (if store then 5 else 4) && k.wpCfg.getLsbD 3 == k.u
    && bits k.wpCfg.toNat 2 0 == seg.val && decide (o / 4 ≤ k.wpAddr.toNat / 4) && decide (k.wpAddr.toNat / 4 ≤ (o + n - 1) / 4)

/-- A watchpoint halts the core after the access completes. -/
def State.wWatch (s : State) (c : Fin 13) (seg : Fin 8) (o n : Nat) (store : Bool) : State :=
  if (s.wc c).watched seg o n store then s.setWc c { s.wc c with due := some 3 } else s

/-- Read `n` bytes at an offset of a segment of the bank in use, aligned to `al`. -/
def State.wLoad (s : State) (c : Fin 13) (seg : Fin 8) (o : Word) (n al : Nat) :
    Except (WExc × State) (List Byte × State) :=
  let k := s.wc c
  let g := k.seg seg
  let e := fun v => (⟨v, seg.val, false, 0, o⟩ : WExc)
  if o.toNat % al ≠ 0 then .error (e 6, s)
  else
    match g.refuses o.toNat n WSeg.r with
    | some v => .error (e v, s)
    | none =>
      match s.wRead c (!k.u) (g.base.toNat + o.toNat) n g.c with
      | .error (v, t) => .error (e v, t)
      | .ok (bs, t) => .ok (bs, t.wWatch c seg o.toNat n false)

/-- Write bytes at an offset of a segment of the bank in use, aligned to `al`. -/
def State.wStore (s : State) (c : Fin 13) (seg : Fin 8) (o : Word) (bs : List Byte) (al : Nat) :
    Except (WExc × State) State :=
  let k := s.wc c
  let g := k.seg seg
  let e := fun v => (⟨v, seg.val, true, 0, o⟩ : WExc)
  if o.toNat % al ≠ 0 then .error (e 6, s)
  else
    match g.refuses o.toNat bs.length WSeg.w with
    | some v => .error (e v, s)
    | none =>
      match s.wWrite c (!k.u) (g.base.toNat + o.toNat) bs g.c with
      | .error (v, t) => .error (e v, t)
      | .ok t => .ok (t.wWatch c seg o.toNat bs.length true)

/-! ### Exceptions and events -/

/-- CAUSE (Table 10-2). -/
def causeWord (vector : Nat) (e : WExc) (emergency : Bool) : Word :=
  BitVec.ofNat 32 (vector + 256 * e.seg + 2048 * b2n e.store + 4096 * b2n emergency + 65536 * e.code)

/-- The core halts under debug (R325): the reservation is cleared and the request is served. -/
def WickCore.halt (k : WickCore) (why : BitVec 3) : WickCore :=
  { k with halted := true, reason := why, haltReq := false, due := none, stepping := false, reservation := none
           waiting := false }

/-- The frame goes through the emergency stack for one of the reasons that can be seen before it is written (R314). -/
def WickCore.emergency (k : WickCore) : Bool :=
  decide (0 < k.ed) || decide (k.kcsp.toNat < 8) || decide (k.ksegs[7].limit.toNat < k.kcsp.toNat)
    || !k.ksegs[7].r || !k.ksegs[7].w

/-- Steps 4 and 5 of R314. -/
def WickCore.vectorTo (k : WickCore) (e : WExc) (emergency : Bool) : WickCore :=
  let v := if emergency then 1 else e.vector
  { k with
    u := false, ie := false, ld := 0, ac := 0, reservation := none, load := none, waiting := false
    cause := causeWord v e emergency, faddr := e.addr, pc := k.vbr + BitVec.ofNat 32 (16 * v) }

/-- Entry through the emergency stack; the core locks up with four frames in use (R314 step 3, R318). -/
def State.wEmergency (s : State) (c : Fin 13) (e : WExc) (pc : Word) : State :=
  let k := s.wc c
  if 4 ≤ k.ed then s.wickLock c
  else
    let frame := leBytes 4 pc.toNat ++ leBytes 4 k.status.toNat ++ leBytes 4 k.kcsp.toNat
      ++ leBytes 4 (causeWord e.vector e false).toNat
    s.setWc c ({ k with mem := k.mem.setBytes (16 * k.ed) frame, ed := k.ed + 1 }.vectorTo e true)

/-- Entry to an exception or event with the PC to save (R314). A step that ends in it halts at the handler (R326). -/
def State.wEnter (s : State) (c : Fin 13) (e : WExc) (pc : Word) : State :=
  let k := { s.wc c with ac := 0 }
  let s0 := s.setWc c k
  let s1 :=
    if k.emergency then s0.wEmergency c e pc
    else
      let g := k.ksegs[7]
      let csp := k.kcsp - 8
      let a := g.base.toNat + csp.toNat
      if s.poisonIn a 8 ≠ [] ∧ (wRegion c true a 8 = some .dram ∨ wRegion c true a 8 = some .onDie) then
        s0.wEmergency c e pc
      else
        match s0.wWrite c true a (leBytes 4 pc.toNat ++ leBytes 4 k.status.toNat) g.c with
        | .error (_, t) => t.wEmergency c e pc
        | .ok t => t.setWc c ({ t.wc c with kcsp := csp }.vectorTo e false)
  let k1 := s1.wc c
  if k1.locked then s1
  else
    match (if k.stepping then some 1 else k.due) with
    | some why => s1.setWc c (k1.halt why)
    | none => s1

/-- An exception or EXIT in a customer routine ends its CALL; INTERRUPT returns to it (R319, R278). -/
def State.wRaise (s : State) (c : Fin 13) (e : WExc) (pc : Word) : State :=
  let inRoutine := (s.wc c).u && (s.wc c).call.isSome && e.vector != 0x0F
  let s1 := s.wEnter c e pc
  if inRoutine && !(s1.wc c).locked then
    if e.vector = 0x0E then s1.callReturn c else s1.callFault c e.vector
  else s1

/-! ### Running an instruction -/

/-- Commit a load whose slot has run (R306). -/
def WickCore.commit (k : WickCore) (l : Option (Fin 32 × Word)) : WickCore :=
  match l with
  | some (r, v) => k.setReg r v
  | none => k

/-- The loop test after the instruction at `pc` (R308): the address that follows, and the loop levels. -/
def WickCore.loopTest (k : WickCore) (pc : Word) : Nat → Word × WickCore
  | 0 => (pc + 4, k)
  | fuel + 1 =>
    if h : 0 < k.ld ∧ k.ld ≤ 4 then
      let j : Fin 4 := ⟨k.ld - 1, by omega⟩
      if k.le[j] = pc then
        if 1 < k.lc[j].toNat then (k.ls[j], { k with lc := k.lc.set j (k.lc[j] - 1) })
        else WickCore.loopTest { k with ld := k.ld - 1 } pc fuel
      else (pc + 4, k)
    else (pc + 4, k)

/-- An interrupt is pending for the core: the ICU asserts its target. -/
def State.wPending (s : State) (c : Fin 13) : Bool := (s.readySource ⟨c.val, by omega⟩).isSome

/-- A core in WAIT goes on once an interrupt is pending for it (Table 10-8). -/
def State.wWake (s : State) (c : Fin 13) : State :=
  let k := s.wc c
  if k.waiting && s.wPending c then
    let r := k.loopTest k.pc 5
    s.setWc c { r.2 with pc := r.1, waiting := false }
  else s

/-- The next instruction boundary lies outside an ATOM block and after a load's slot. -/
def WickCore.boundary (k : WickCore) : Bool := k.ac == 0 && k.load.isNone

/-- A breakpoint stands at the next instruction (Table 10-12). -/
def WickCore.breaks (k : WickCore) : Bool :=
  k.bps.toList.any (fun b => b.getLsbD 0 && b.getLsbD 1 == k.u && b.toNat / 4 == k.pc.toNat / 4)

/-- The fetch at PC (R298, R301, R313): its exception, and the state in which the instruction cache holds the line. -/
def State.wFetch (s : State) (c : Fin 13) : Except (WExc × State) State :=
  let k := s.wc c
  let g := k.seg 0
  let e := fun v => (⟨v, 0, false, 0, k.pc⟩ : WExc)
  match g.refuses k.pc.toNat 4 WSeg.x with
  | some v => .error (e v, s)
  | none =>
    if k.pc.toNat % 4 ≠ 0 then .error (e 6, s)
    else
      let a := g.base.toNat + k.pc.toNat
      let line := a / 64
      if k.icache.contains line then .ok s
      else
        match wRegion c (!k.u) a 4 with
        | none => .error (e 9, s)
        | some r =>
          let dev := r == .dram || r == .onDie
          if r == .host && !s.qm.linkUp then .error (e 9, s)
          else if dev && s.poisonIn a 4 != [] then .error (e 10, s.devRead a 4)
          else
            let s1 := if dev then s.devRead a 4 else if r == .reg then (s.wRegRead c a false).2 else s
            if (g.c && r != .reg && r != .host) || r == .cluster then
              let room := s1.drawFree
              if 512 ≤ k.icache.length then
                .ok (room.2.setWc c { k with icache := line :: k.icache.eraseIdx (room.1 % k.icache.length) })
              else .ok (s1.setWc c { k with icache := line :: k.icache })
            else .ok s1

/-- After an instruction: the pending load of the instruction before it is committed, ATOM counts, PC moves, loops are
tested, and a step or a halt that was due takes effect. `ac` is AC before the instruction, `l` the load pending then,
`pc` its address. -/
def wFinish (c : Fin 13) (d : WDone) (ac : Nat) (l : Option (Fin 32 × Word)) (pc : Word) : State :=
  let k := { (d.s.wc c).commit l with load := d.load }
  let k1 := if ac = 0 then k else { k with ac := k.ac - 1 }
  let k2 := match d.jump with
    | some t => { k1 with pc := t }
    | none =>
      if k1.waiting then k1
      else
        let r := k1.loopTest pc 5
        { r.2 with pc := r.1 }
  let s1 := d.s.setWc c k2
  if k2.u && d.jump == some 0xFFFFFFF0 then s1.wRaise c ⟨0x0E, 0, false, 0, 0xFFFFFFF0⟩ 0xFFFFFFF0
  else if k2.boundary then
    if k2.stepping then s1.setWc c (k2.halt 1)
    else
      match k2.due with
      | some why => s1.setWc c (k2.halt why)
      | none => s1
  else s1

/-- The next instruction of a core runs: `kernelOnly` marks the K column of Tables 10-7 and 10-8. -/
def State.wRun (s : State) (c : Fin 13) (kernelOnly : Bool) (f : State → WickCore → WResult) : State :=
  let s0 := s.wWake c
  let k := s0.wc c
  if !s.wickUp c || k.halted || k.locked || k.waiting || (k.haltReq && k.boundary && !k.stepping) then s
  else if k.breaks && !k.stepping && k.boundary then s0.setWc c (k.halt 2)
  else
    let s1 := if k.breaks && !k.stepping then s0.setWc c { k with due := some 2 } else s0
    let raise := fun (e : WExc) (t : State) =>
      let next := if e.vector = 0x0B ∨ e.vector = 0x0C then k.pc + 4 else k.pc
      (t.setWc c { (t.wc c).commit k.load with load := none }).wRaise c e next
    match s1.wFetch c with
    | .error (e, t) => raise e t
    | .ok s2 =>
      if kernelOnly && k.u then raise ⟨3, 0, false, 0, k.pc⟩ s2
      else
        match f s2 (s2.wc c) with
        | .error (e, t) => raise e t
        | .ok d => wFinish c d k.ac k.load k.pc

/-- An instruction that computes one register from others (R302, R303). -/
def State.wAlu (s : State) (c : Fin 13) (rd : Fin 32) (f : WickCore → Word) : State :=
  s.wRun c false (fun t k => .ok (.go (t.setWc c (k.setReg rd (f k)))))

/-- An exception raised at the fetch offset. -/
def WickCore.exc (k : WickCore) (vector : Nat) : WExc := ⟨vector, 0, false, 0, k.pc⟩

/-- Branch target (Table 10-7). -/
def branchTarget (pc : Word) (off : BitVec 16) : Word := pc + 4 + 4 * off.signExtend 32
/-- Jump target. -/
def jumpTarget (pc : Word) (off : BitVec 26) : Word := pc + 4 + 4 * off.signExtend 32

/-- A branch. -/
def State.wBranch (s : State) (c : Fin 13) (off : BitVec 16) (taken : WickCore → Bool) : State :=
  s.wRun c false (fun t k => .ok ⟨t, if taken k then some (branchTarget k.pc off) else none, none⟩)

/-- The offset of an M-format access. -/
def WickCore.offset (k : WickCore) (rs : Fin 32) (imm : BitVec 13) : Word := k.reg rs + imm.signExtend 32

/-- A load (R306). -/
def State.wLoadInstr (s : State) (c : Fin 13) (rd rs : Fin 32) (seg : Fin 8) (imm : BitVec 13) (n : Nat)
    (ext : Nat → Word) : State :=
  s.wRun c false (fun t k => do
    let (bs, t1) ← t.wLoad c seg (k.offset rs imm) n n
    pure ⟨t1, none, some (rd, ext (leNat bs))⟩)

/-- A store. -/
def State.wStoreInstr (s : State) (c : Fin 13) (rd rs : Fin 32) (seg : Fin 8) (imm : BitVec 13) (n : Nat) : State :=
  s.wRun c false (fun t k => do
    let t1 ← t.wStore c seg (k.offset rs imm) (leBytes n (k.reg rd).toNat) n
    pure (.go t1))

/-- The physical line of an offset of a segment. -/
def WickCore.lineOf (k : WickCore) (seg : Fin 8) (o : Word) : Nat := ((k.seg seg).base.toNat + o.toNat) / 64

/-- A reservation can stand on a line: cluster memory and the core's own local memory (R309). -/
def reservable (line : Nat) : Bool := isCluster line || (decide (0x3000000000 / 64 ≤ line) && decide (line < 0x4000000000 / 64))

/-- Push the return address (R300). -/
def State.wPushReturn (s : State) (c : Fin 13) (k : WickCore) : Except (WExc × State) State :=
  let g := k.seg 7
  let csp := k.csp
  let o := csp - 4
  let e := fun v => (⟨v, 7, true, 0, o⟩ : WExc)
  if csp.toNat % 4 ≠ 0 then .error (e 6, s)
  else if csp.toNat < 4 ∨ g.limit.toNat < csp.toNat ∨ !g.r ∨ !g.w then .error (e 1, s)
  else
    match s.wWrite c (!k.u) (g.base.toNat + o.toNat) (leBytes 4 (k.pc + 4).toNat) g.c with
    | .error (v, t) => .error (e v, t)
    | .ok t => .ok (t.setWc c ((t.wc c).setCsp o))

/-- Pop PC from the call stack (R300). -/
def State.wPopReturn (s : State) (c : Fin 13) (k : WickCore) : Except (WExc × State) (Word × State) :=
  let g := k.seg 7
  let csp := k.csp
  let e := fun v => (⟨v, 7, false, 0, csp⟩ : WExc)
  if csp.toNat % 4 ≠ 0 then .error (e 6, s)
  else if g.limit.toNat < csp.toNat + 4 ∨ !g.r ∨ !g.w then .error (e 1, s)
  else
    match s.wRead c (!k.u) (g.base.toNat + csp.toNat) 4 g.c with
    | .error (v, t) => .error (e v, t)
    | .ok (bs, t) => .ok (BitVec.ofNat 32 (leNat bs), t.setWc c ((t.wc c).setCsp (csp + 4)))

/-- A loop level is set up (R307): `off` is unsigned. -/
def WickCore.setLoop (k : WickCore) (n : Word) (off : BitVec 16) : Except Nat (WickCore × Option Word) :=
  let e := k.pc + 4 + 4 * off.zeroExtend 32
  if n = 0 then .ok (k, some (e + 4))
  else if h : k.ld < 4 then
    let j : Fin 4 := ⟨k.ld, h⟩
    .ok ({ k with ls := k.ls.set j (k.pc + 4), le := k.le.set j e, lc := k.lc.set j n, ld := k.ld + 1 }, none)
  else .error 7

/-! ### Special registers -/

/-- The special registers of Table 10-2. -/
def isSpecial (sr : Nat) : Bool := decide (sr ≤ 22) || (decide (24 ≤ sr) && decide (sr ≤ 27))
/-- Those that user mode reads. -/
def userReads (sr : Nat) : Bool := [0, 4, 5, 6].contains sr || (decide (8 ≤ sr) && decide (sr ≤ 22))
/-- Those that user mode writes. -/
def userWrites (sr : Nat) : Bool := sr == 4 || (decide (8 ≤ sr) && decide (sr ≤ 19))

/-- The value of a special register. CYCLE counts the 1.0 GHz cycles since the core's reset. -/
def State.special (s : State) (c : Fin 13) (sr : Nat) : Word :=
  let k := s.wc c
  match sr with
  | 0 => k.status
  | 1 => k.cause
  | 2 => k.faddr
  | 3 => k.vbr
  | 4 => k.dsp
  | 5 => k.csp
  | 6 => BitVec.ofNat 32 c.val
  | 7 => BitVec.ofNat 32 k.ed
  | 8 => k.ls[0] | 9 => k.ls[1] | 10 => k.ls[2] | 11 => k.ls[3]
  | 12 => k.le[0] | 13 => k.le[1] | 14 => k.le[2] | 15 => k.le[3]
  | 16 => k.lc[0] | 17 => k.lc[1] | 18 => k.lc[2] | 19 => k.lc[3]
  | 20 => s.time.dts.truncate 32
  | 21 => k.dtsh
  | 22 => BitVec.ofNat 32 ((s.now - k.since) / 16)
  | 24 => k.kscr0
  | 25 => k.kscr1
  | 26 => k.udsp
  | 27 => k.ucsp
  | _ => 0

/-- What a read of a special register does: DTSL latches bits [63:32]. -/
def State.specialRead (s : State) (c : Fin 13) (sr : Nat) : State :=
  if sr = 20 then s.setWc c { s.wc c with dtsh := (s.time.dts >>> 32).truncate 32 } else s

/-- Write a special register; a register that is only read ignores it. -/
def WickCore.setSpecial (k : WickCore) (sr : Nat) (v : Word) : WickCore :=
  match sr with
  | 0 => k.setStatus v
  | 3 => { k with vbr := v &&& 0xFFFFFF00 }
  | 4 => k.setDsp v
  | 5 => k.setCsp v
  | 8 => { k with ls := k.ls.set 0 v } | 9 => { k with ls := k.ls.set 1 v }
  | 10 => { k with ls := k.ls.set 2 v } | 11 => { k with ls := k.ls.set 3 v }
  | 12 => { k with le := k.le.set 0 v } | 13 => { k with le := k.le.set 1 v }
  | 14 => { k with le := k.le.set 2 v } | 15 => { k with le := k.le.set 3 v }
  | 16 => { k with lc := k.lc.set 0 v } | 17 => { k with lc := k.lc.set 1 v }
  | 18 => { k with lc := k.lc.set 2 v } | 19 => { k with lc := k.lc.set 3 v }
  | 24 => { k with kscr0 := v }
  | 25 => { k with kscr1 := v }
  | 26 => { k with udsp := v }
  | 27 => { k with ucsp := v }
  | _ => k

/-! ### Descriptors -/

/-- The segment that a descriptor gives (Table 10-4). -/
def segOf (b : List Byte) : WSeg :=
  let r := fieldLe b 12 1
  ⟨BitVec.ofNat 48 (fieldLe b 0 6), BitVec.ofNat 32 (fieldLe b 8 4), bit r 0, bit r 1, bit r 2, bit r 3⟩

/-- The descriptor of a segment. -/
def segBytes (g : WSeg) : List Byte :=
  leBytes 8 g.base.toNat ++ leBytes 4 g.limit.toNat ++ leBytes 4 (b2n g.r + 2 * b2n g.w + 4 * b2n g.x + 8 * b2n g.c)

/-- A range lies within one of the regions that user mode may reach (R297). -/
def userRange (a n : Nat) : Bool :=
  (decide (0x40000000 ≤ a) && decide (a + n ≤ 0x800000000)) || (decide (0x1000000000 ≤ a) && decide (a + n ≤ 0x1000800000))
    || (decide (0x2000170000 ≤ a) && decide (a + n ≤ 0x2000200000))

/-- A descriptor may be loaded (R297). -/
def descOk (c : Fin 13) (user : Bool) (b : List Byte) : Bool :=
  let g := segOf b
  let n := g.limit.toNat
  fieldLe b 6 2 == 0 && fieldLe b 13 3 == 0 && decide (fieldLe b 12 1 < 16)
    && (n == 0 || (wRegion c true g.base.toNat n).isSome) && (!user || n == 0 || userRange g.base.toNat n)

/-- Load a segment register of a bank. -/
def WickCore.setSeg (k : WickCore) (user : Bool) (n : Fin 8) (g : WSeg) : WickCore :=
  if user then { k with usegs := k.usegs.set n g } else { k with ksegs := k.ksegs.set n g }

/-- A data-cache line is dropped without being written back (CINV). -/
def State.wInvalidate (s : State) (c : Fin 13) (line : Nat) : State :=
  let s1 := s.setWc c ((s.wc c).lose line)
  if isCluster line then
    let i := line - 0x2000000000 / 64
    match s1.dir i with
    | .owned r => if requesterCore r = c then s1.setDir i .unowned else s1
    | .shared who =>
      let w := who &&& ~~~((1 : BitVec 5) <<< wickRequester c)
      s1.setDir i (if w = 0 then .unowned else .shared w)
    | .unowned => s1
  else s1

end Sys2Proof.Machine
end

