-- ==== Sys2Proof/Machine/Debug.lean ====
section
/-!
DEFINITION. Machine/Debug.lean: the debug module and the debug registers of the Wick cores (R323 to R327).
-/
namespace Sys2Proof.Machine

/-- The debug module answers: the TAP selects DBG and the debug unlock is in force (R323, R461). -/
def State.dbgOpen (s : State) : Bool := s.mail.unlocked

/-- The descriptor word of a segment (Table 10-4). -/
def segWord (g : WSeg) (i : Nat) : Word := BitVec.ofNat 32 (fieldLe (segBytes g) (4 * i) 4)
/-- A segment with one descriptor word replaced. -/
def setSegWord (g : WSeg) (i : Nat) (v : Word) : WSeg :=
  segOf ((segBytes g).take (4 * i) ++ leBytes 4 v.toNat ++ (segBytes g).drop (4 * i + 4))

/-- The register that DREG_SEL names, for a core that is halted or locked up. -/
def State.dregRead (s : State) (c : Fin 13) : Option Word :=
  let k := s.wc c
  let n := bits k.dregSel.toNat 5 0
  if !(k.halted || k.locked) then none
  else
    match bits k.dregSel.toNat 7 6 with
    | 0 => if n < 32 then some (k.reg (Fin.ofNat 32 n)) else if n = 32 then some k.pc else none
    | 1 => if isSpecial n then some (s.special c n) else none
    | 2 => if n < 32 then some (segWord k.ksegs[Fin.ofNat 8 (n / 4)] (n % 4)) else none
    | _ => if n < 32 then some (segWord k.usegs[Fin.ofNat 8 (n / 4)] (n % 4)) else none

/-- What the read of DREG_DATA does besides: with PEEK 0 a read of DTSL latches as the core's own read would (R327). -/
def State.dregTouched (s : State) (c : Fin 13) : State :=
  let k := s.wc c
  if bits k.dregSel.toNat 7 6 = 1 ∧ !k.peek then s.specialRead c (bits k.dregSel.toNat 5 0) else s

/-- Write the register that DREG_SEL names, of a core that is halted and not locked up. -/
def State.dregWrite (s : State) (c : Fin 13) (v : Word) : Option State :=
  let k := s.wc c
  let n := bits k.dregSel.toNat 5 0
  let i := Fin.ofNat 8 (n / 4)
  if !k.halted || k.locked then none
  else
    match bits k.dregSel.toNat 7 6 with
    | 0 =>
      if n < 32 then some (s.setWc c (k.setReg (Fin.ofNat 32 n) v))
      else if n = 32 then some (s.setWc c { k with pc := v }) else none
    | 1 => if isSpecial n then some (s.setWc c (k.setSpecial n v)) else none
    | 2 => if n < 32 then some (s.setWc c (k.setSeg false i (setSegWord k.ksegs[i] (n % 4) v))) else none
    | _ => if n < 32 then some (s.setWc c (k.setSeg true i (setSegWord k.usegs[i] (n % 4) v))) else none

/-- DMEM_ADDR. -/
def WickCore.dmem (k : WickCore) : Nat := k.dmemLo.toNat / 4 * 4 + 2 ^ 32 * k.dmemHi.toNat

/-- AUTOINC adds 4 to DMEM_ADDR after each access. -/
def State.dmemNext (s : State) (c : Fin 13) : State :=
  let k := s.wc c
  if k.autoinc then
    let a := k.dmem + 4
    s.setWc c { k with dmemLo := BitVec.ofNat 32 a, dmemHi := BitVec.ofNat 16 (a / 2 ^ 32) }
  else s

/-- The current data of a cluster word: the owner's if the line is modified (R327). -/
def State.clusterNow (s : State) (a : Nat) : List Byte :=
  match s.dir (a / 64 - 0x2000000000 / 64) with
  | .owned r => (List.range 4).map (fun i => (s.wc (requesterCore r)).cacheByte (a + i))
  | _ => s.wRaw 12 a 4

/-- A debug read of the word at DMEM_ADDR (R327): its status (0 OK, 2 ERROR), the word, the state after. -/
def State.dmemRead (s : State) (c : Fin 13) : Nat × Word × State :=
  let a := (s.wc c).dmem
  let word := fun bs : List Byte => (BitVec.ofNat 32 (leNat bs) : Word)
  match wRegion c true a 4 with
  | none => (2, 0, s.dmemNext c)
  | some .host =>
    if s.qm.linkUp then (0, word (leBytes 4 s.drawFree.1), s.drawFree.2.dmemNext c) else (2, 0, s.dmemNext c)
  | some .reg =>
    let r := s.wRegRead c a (s.wc c).peek
    (0, r.1, r.2.dmemNext c)
  | some .cluster => (0, word (s.clusterNow a), s.dmemNext c)
  | some g =>
    let dev := g == .dram || g == .onDie
    (if dev && s.poisonIn a 4 != [] then 2 else 0, word (s.wRaw c a 4), s.dmemNext c)

/-- A debug write of a cluster word: an OWN on behalf of the debug module (R327). -/
def State.clusterDebugWrite (s : State) (a : Nat) (v : Word) : State :=
  let line := a / 64
  let i := line - 0x2000000000 / 64
  let s1 := match s.dir i with
    | .owned r =>
      match (s.wc (requesterCore r)).cached line with
      | some l => s.wPut 12 (64 * line) l.bytes
      | none => s
    | _ => s
  ((s1.forRequesters (fun _ k => k.lose line)).setDir i .unowned).wPut 12 a (leBytes 4 v.toNat)

/-- A debug write of the word at DMEM_ADDR. -/
def State.dmemWrite (s : State) (c : Fin 13) (v : Word) : Nat × State :=
  let a := (s.wc c).dmem
  match wRegion c true a 4 with
  | none => (2, s.dmemNext c)
  | some .rom => (2, s.dmemNext c)
  | some .host =>
    if s.qm.linkUp then (0, (s.hostWrite (a - 0x800000000000) (leBytes 4 v.toNat)).dmemNext c) else (2, s.dmemNext c)
  | some .reg => (0, (s.busWrite (wickMaster c) (a - 0x5000000000) v).dmemNext c)
  | some .cluster => (0, (s.clusterDebugWrite a v).dmemNext c)
  | some g =>
    let s1 := if g == .dram || g == .onDie then s.devWrite a (leBytes 4 v.toNat) else s.wPut c a (leBytes 4 v.toNat)
    let k := s1.wc c
    (0, (s1.setWc c { k with
      reservation := if k.reservation = some (a / 64) then none else k.reservation }).dmemNext c)

/-- A write of HALT_REQ requests a halt; a halted core has none to request. -/
def State.haltRequest (s : State) (c : Fin 13) : State :=
  let k := s.wc c
  if k.halted then s else s.setWc c { k with haltReq := true }

/-- A requested halt takes effect at the next instruction boundary outside an ATOM block and after a load's slot; a core
in WAIT halts at once (R325). -/
def State.debugHalt (s : State) (c : Fin 13) : State :=
  let k := s.wc c
  if k.haltReq && k.boundary && !k.halted && !k.locked then s.setWc c (k.halt 0) else s

/-- RESUME. -/
def State.debugResume (s : State) (c : Fin 13) : State :=
  let k := s.wc c
  if k.halted && !k.locked then s.setWc c { k with halted := false } else s

/-- STEP: the halted core may run one instruction, a load with its slot, or an ATOM block (R326). -/
def State.debugStep (s : State) (c : Fin 13) : State :=
  let k := s.wc c
  if k.halted && !k.locked then s.setWc c { k with halted := false, stepping := true } else s

/-- A read of a debug register (Table 10-12): status, data, state. -/
def State.dbgRead (s : State) (c : Fin 13) (addr : Nat) : Nat × Word × State :=
  let k := s.wc c
  match addr with
  | 0x00 => (0, BitVec.ofNat 32 (b2n k.haltReq + 8 * b2n k.brkHalt), s)
  | 0x01 =>
    let deferred := (k.haltReq || k.due.isSome) && !k.boundary
    (0, BitVec.ofNat 32 (b2n k.halted + 2 * k.reason.toNat + 16 * b2n deferred + 32 * b2n k.locked), s)
  | 0x02 => (0, k.dregSel.zeroExtend 32, s)
  | 0x03 => match s.dregRead c with
    | some v => (0, v, s.dregTouched c)
    | none => (2, 0, s)
  | 0x04 => (0, k.dmemLo, s)
  | 0x05 => (0, k.dmemHi.zeroExtend 32, s)
  | 0x06 => s.dmemRead c
  | 0x07 => (0, BitVec.ofNat 32 (b2n k.autoinc + 2 * b2n k.peek), s)
  | 0x08 => (0, k.bps[0], s)
  | 0x09 => (0, k.bps[1], s)
  | 0x0A => (0, k.bps[2], s)
  | 0x0B => (0, k.bps[3], s)
  | 0x0C => (0, k.wpAddr, s)
  | 0x0D => (0, k.wpCfg.zeroExtend 32, s)
  | _ => (2, 0, s)

/-- A write of DCTRL. -/
def State.dctrlWrite (s : State) (c : Fin 13) (v : Word) : State :=
  let s1 := s.setWc c { s.wc c with brkHalt := v.getLsbD 3 }
  let s2 := if v.getLsbD 0 then s1.haltRequest c else s1
  let s3 := if v.getLsbD 1 then s2.debugResume c else s2
  if v.getLsbD 2 then s3.debugStep c else s3

/-- A write of a debug register. -/
def State.dbgWrite (s : State) (c : Fin 13) (addr : Nat) (v : Word) : Nat × State :=
  let k := s.wc c
  match addr with
  | 0x00 => (0, s.dctrlWrite c v)
  | 0x01 => (0, s)
  | 0x02 => (0, s.setWc c { k with dregSel := v.truncate 8 })
  | 0x03 => match s.dregWrite c v with
    | some t => (0, t)
    | none => (2, s)
  | 0x04 => (0, s.setWc c { k with dmemLo := v &&& 0xFFFFFFFC })
  | 0x05 => (0, s.setWc c { k with dmemHi := v.truncate 16 })
  | 0x06 => s.dmemWrite c v
  | 0x07 => (0, s.setWc c { k with autoinc := v.getLsbD 0, peek := v.getLsbD 1 })
  | 0x08 => (0, s.setWc c { k with bps := k.bps.set 0 v })
  | 0x09 => (0, s.setWc c { k with bps := k.bps.set 1 v })
  | 0x0A => (0, s.setWc c { k with bps := k.bps.set 2 v })
  | 0x0B => (0, s.setWc c { k with bps := k.bps.set 3 v })
  | 0x0C => (0, s.setWc c { k with wpAddr := v })
  | 0x0D => (0, s.setWc c { k with wpCfg := v.truncate 7 })
  | _ => (2, s)

/-- What the next capture returns: the data and the status of this access. -/
def State.dbgDone (s : State) (status : Nat) (v : Word) : State :=
  { s with wick := { s.wick with dbgData := v, dbgStatus := BitVec.ofNat 2 status } }

/-- A debug access by core and register. While the unlock is not in force every access returns ERROR (R323). -/
def State.dbgAccess (s : State) (core addr : Nat) (write : Bool) (v : Word) : State :=
  if !s.dbgOpen then s.dbgDone 2 0
  else if h : core < 13 then
    if write then
      let r := s.dbgWrite ⟨core, h⟩ addr v
      r.2.dbgDone r.1 v
    else
      let r := s.dbgRead ⟨core, h⟩ addr
      r.2.2.dbgDone r.1 r.2.1
  else s.dbgDone 2 0

/-- DBG_ACCESS: an update of the 46-bit DBG data register starts an access; the capture returns the previous access's
data and status (R323). -/
def execDbgAccess (d : BitVec 46) (s : State) : Host.Outcome State Fault Refusal :=
  .next <|
    if s.pwr.tap = 0x10 then
      let n := d.toNat
      let prev := s.emit (.debug (bits n 43 40) (s.wick.dbgData.toNat + 2 ^ 32 * s.wick.dbgStatus.toNat))
      if bit n 45 then prev.dbgDone 2 0
      else prev.dbgAccess (bits n 43 40) (bits n 39 32) (bit n 44) (BitVec.ofNat 32 n)
    else s

/-- HALT_REQ. -/
def execHaltReq (c : Fin 13) (s : State) : Host.Outcome State Fault Refusal :=
  .next (if s.dbgOpen then s.haltRequest c else s.dbgDone 2 0)
/-- DEBUG_HALT. -/
def execDebugHalt (c : Fin 13) (s : State) : Host.Outcome State Fault Refusal := .next (s.debugHalt c)
/-- DEBUG_RESUME. -/
def execDebugResume (c : Fin 13) (s : State) : Host.Outcome State Fault Refusal :=
  .next (if s.dbgOpen then s.debugResume c else s.dbgDone 2 0)
/-- DEBUG_STEP. -/
def execDebugStep (c : Fin 13) (s : State) : Host.Outcome State Fault Refusal :=
  .next (if s.dbgOpen then s.debugStep c else s.dbgDone 2 0)
/-- DREG_DATA_ACCESS. -/
def execDregDataAccess (c : Fin 13) (write : Bool) (v : Word) (s : State) : Host.Outcome State Fault Refusal :=
  .next (s.dbgAccess c.val 0x03 write v)
/-- DMEM_DATA_ACCESS. -/
def execDmemDataAccess (c : Fin 13) (write : Bool) (v : Word) (s : State) : Host.Outcome State Fault Refusal :=
  .next (s.dbgAccess c.val 0x06 write v)

end Sys2Proof.Machine
end

