-- ==== Sys2Proof/Machine/Fabric.lean ====
section
/-!
DEFINITION. Machine/Fabric.lean: the fabric access timer (R478, R488).
-/
namespace Sys2Proof.Machine

/-- SYS_FABRIC_LAST and the count take a timed-out access. -/
def State.fabricRecord (s : State) (domain master a : Nat) : State :=
  { s with pwr := { s.pwr with
    fabricDomain := domain, fabricMaster := master, fabricAddr := a, fabricCnt := incWord s.pwr.fabricCnt } }

/-- A Wick core whose access timed out takes BUS_ERROR at the instruction that made it. The segment, the kind of the access
and the offset are free values: the event names only the address. -/
def State.fabricWick (s : State) (c : Fin 13) : State :=
  let (n, t) := s.drawFree
  if s.wickUp c && !(s.wc c).halted && !(s.wc c).locked then
    t.wRaise c ⟨9, n % 8, n / 8 % 2 == 1, 0, BitVec.ofNat 32 (n / 16)⟩ (s.wc c).pc
  else s

/-- The error response as it reaches the master of the access: 0 the host, 1 a Wick core, 2 a DMA channel, 3 the debug
module. -/
def State.fabricError (s : State) (master : Fin 4) (index : Nat) : State :=
  match master with
  | 0 => (s.setRd 0xFFFFFFFF).emit (.aer 0)
  | 1 => if h : index < 13 then s.fabricWick ⟨index, h⟩ else s
  | 2 => if index < 64 ∧ (s.dmaCh index).active then s.dmaFail index (s.dmaCh index) else s
  | 3 => { s with wick := { s.wick with dbgData := 0xFFFFFFFF, dbgStatus := 2 } }

/-- FABRIC_ACCESS_TIMEOUT: the access completes with all-ones data and an error response, the fault is sent with the target
address, and SYS_FABRIC_LAST records the access. -/
def State.fabricTimeout (s : State) (domain : Nat) (m : Fin 4) (index a : Nat) : State :=
  if s.powered && !s.halted then
    ((s.fabricRecord domain m.val a).fault 0x0C0 1 a).fabricError m index
  else s

/-- FABRIC_ACCESS_TIMEOUT. -/
def execFabricAccessTimeout (domain : Fin 9) (master : Fin 4) (index : Nat) (a : Nat) (s : State) :
    Host.Outcome State Fault Refusal := .next (s.fabricTimeout domain.val master index a)

/-- SYS_FABRIC_CNT_READ: the read returns and clears the count. -/
def execSysFabricCntRead (s : State) : Host.Outcome State Fault Refusal :=
  .next (if s.bar0 0x104C then { s.setRd s.pwr.fabricCnt.toNat with pwr.fabricCnt := 0 } else s.setRd 0)

end Sys2Proof.Machine
end

