-- ==== Sys2Proof/Machine/Wick.lean ====
section
/-!
DEFINITION. Machine/Wick.lean: the instructions of the Wick processor (Tables 10-6 to 10-8) and the acceptance of
interrupts. An instruction runs under `State.wRun`, the frame that all share.
-/
namespace Sys2Proof.Machine

/-- 1 for true. -/
def flag (b : Bool) : Word := if b then 1 else 0
/-- A shift amount: bits [4:0]. -/
def shiftBy (w : Word) : Nat := w.toNat % 32
/-- A register with its four bytes reversed. -/
def byteSwap (w : Word) : Word := BitVec.ofNat 32 (leNat (leBytes 4 w.toNat).reverse)
/-- The count of leading zero bits, 32 for 0. -/
def leadingZeros (w : Word) : Nat := ((List.range 32).find? (fun i => w.getLsbD (31 - i))).getD 32
/-- A division: DIV_ZERO where rt is 0. -/
def State.wDiv (s : State) (c : Fin 13) (rd rs rt : Fin 32) (f : Word → Word → Word) : State :=
  s.wRun c false (fun t k =>
    if k.reg rt = 0 then .error (k.exc 8, t) else .ok (.go (t.setWc c (k.setReg rd (f (k.reg rs) (k.reg rt))))))

/-- ADD: rd gets rs plus rt. -/
def execAdd (c : Fin 13) (rd rs rt : Fin 32) (s : State) : Host.Outcome State Fault Refusal :=
  .next (s.wAlu c rd (fun k => k.reg rs + k.reg rt))

/-- SUB: rd gets rs minus rt. -/
def execSub (c : Fin 13) (rd rs rt : Fin 32) (s : State) : Host.Outcome State Fault Refusal :=
  .next (s.wAlu c rd (fun k => k.reg rs - k.reg rt))

/-- AND: rd gets rs AND rt. -/
def execAnd (c : Fin 13) (rd rs rt : Fin 32) (s : State) : Host.Outcome State Fault Refusal :=
  .next (s.wAlu c rd (fun k => k.reg rs &&& k.reg rt))

/-- OR: rd gets rs OR rt. -/
def execOr (c : Fin 13) (rd rs rt : Fin 32) (s : State) : Host.Outcome State Fault Refusal :=
  .next (s.wAlu c rd (fun k => k.reg rs ||| k.reg rt))

/-- XOR: rd gets rs XOR rt. -/
def execXor (c : Fin 13) (rd rs rt : Fin 32) (s : State) : Host.Outcome State Fault Refusal :=
  .next (s.wAlu c rd (fun k => k.reg rs ^^^ k.reg rt))

/-- NOR: rd gets NOT (rs OR rt). -/
def execNor (c : Fin 13) (rd rs rt : Fin 32) (s : State) : Host.Outcome State Fault Refusal :=
  .next (s.wAlu c rd (fun k => ~~~(k.reg rs ||| k.reg rt)))

/-- SLT: signed set on less than. -/
def execSlt (c : Fin 13) (rd rs rt : Fin 32) (s : State) : Host.Outcome State Fault Refusal :=
  .next (s.wAlu c rd (fun k => flag ((k.reg rs).slt (k.reg rt))))

/-- SLTU: unsigned set on less than. -/
def execSltu (c : Fin 13) (rd rs rt : Fin 32) (s : State) : Host.Outcome State Fault Refusal :=
  .next (s.wAlu c rd (fun k => flag ((k.reg rs).ult (k.reg rt))))

/-- SLL: left shift by rt[4:0]. -/
def execSll (c : Fin 13) (rd rs rt : Fin 32) (s : State) : Host.Outcome State Fault Refusal :=
  .next (s.wAlu c rd (fun k => k.reg rs <<< shiftBy (k.reg rt)))

/-- SRL: logical right shift by rt[4:0]. -/
def execSrl (c : Fin 13) (rd rs rt : Fin 32) (s : State) : Host.Outcome State Fault Refusal :=
  .next (s.wAlu c rd (fun k => k.reg rs >>> shiftBy (k.reg rt)))

/-- SRA: arithmetic right shift by rt[4:0]. -/
def execSra (c : Fin 13) (rd rs rt : Fin 32) (s : State) : Host.Outcome State Fault Refusal :=
  .next (s.wAlu c rd (fun k => (k.reg rs).sshiftRight (shiftBy (k.reg rt))))

/-- MUL: bits [31:0] of the product. -/
def execMul (c : Fin 13) (rd rs rt : Fin 32) (s : State) : Host.Outcome State Fault Refusal :=
  .next (s.wAlu c rd (fun k => k.reg rs * k.reg rt))

/-- MULH: bits [63:32] of the signed product. -/
def execMulh (c : Fin 13) (rd rs rt : Fin 32) (s : State) : Host.Outcome State Fault Refusal :=
  .next (s.wAlu c rd (fun k => (((k.reg rs).signExtend 64 * (k.reg rt).signExtend 64) >>> 32).truncate 32))

/-- MULHU: bits [63:32] of the unsigned product. -/
def execMulhu (c : Fin 13) (rd rs rt : Fin 32) (s : State) : Host.Outcome State Fault Refusal :=
  .next (s.wAlu c rd (fun k => (((k.reg rs).zeroExtend 64 * (k.reg rt).zeroExtend 64) >>> 32).truncate 32))

/-- DIVU: unsigned quotient, truncated; rt = 0 raises DIV_ZERO. -/
def execDivu (c : Fin 13) (rd rs rt : Fin 32) (s : State) : Host.Outcome State Fault Refusal :=
  .next (s.wDiv c rd rs rt (fun a b => a / b))

/-- REMU: unsigned remainder; rt = 0 raises DIV_ZERO. -/
def execRemu (c : Fin 13) (rd rs rt : Fin 32) (s : State) : Host.Outcome State Fault Refusal :=
  .next (s.wDiv c rd rs rt (fun a b => a % b))

/-- SLLI: left shift by sh. -/
def execSlli (c : Fin 13) (rd rs : Fin 32) (sh : Fin 32) (s : State) : Host.Outcome State Fault Refusal :=
  .next (s.wAlu c rd (fun k => k.reg rs <<< sh.val))

/-- SRLI: logical right shift by sh. -/
def execSrli (c : Fin 13) (rd rs : Fin 32) (sh : Fin 32) (s : State) : Host.Outcome State Fault Refusal :=
  .next (s.wAlu c rd (fun k => k.reg rs >>> sh.val))

/-- SRAI: arithmetic right shift by sh. -/
def execSrai (c : Fin 13) (rd rs : Fin 32) (sh : Fin 32) (s : State) : Host.Outcome State Fault Refusal :=
  .next (s.wAlu c rd (fun k => (k.reg rs).sshiftRight sh.val))

/-- CLZ: count of leading zero bits. -/
def execClz (c : Fin 13) (rd rs : Fin 32) (s : State) : Host.Outcome State Fault Refusal :=
  .next (s.wAlu c rd (fun k => BitVec.ofNat 32 (leadingZeros (k.reg rs))))

/-- BSWAP: the four bytes reversed. -/
def execBswap (c : Fin 13) (rd rs : Fin 32) (s : State) : Host.Outcome State Fault Refusal :=
  .next (s.wAlu c rd (fun k => byteSwap (k.reg rs)))

/-- ADDI: rs plus the sign-extended immediate. -/
def execAddi (c : Fin 13) (rd rs : Fin 32) (imm : BitVec 16) (s : State) : Host.Outcome State Fault Refusal :=
  .next (s.wAlu c rd (fun k => k.reg rs + imm.signExtend 32))

/-- ANDI: rs AND the zero-extended immediate. -/
def execAndi (c : Fin 13) (rd rs : Fin 32) (imm : BitVec 16) (s : State) : Host.Outcome State Fault Refusal :=
  .next (s.wAlu c rd (fun k => k.reg rs &&& imm.zeroExtend 32))

/-- ORI: rs OR the zero-extended immediate. -/
def execOri (c : Fin 13) (rd rs : Fin 32) (imm : BitVec 16) (s : State) : Host.Outcome State Fault Refusal :=
  .next (s.wAlu c rd (fun k => k.reg rs ||| imm.zeroExtend 32))

/-- XORI: rs XOR the zero-extended immediate. -/
def execXori (c : Fin 13) (rd rs : Fin 32) (imm : BitVec 16) (s : State) : Host.Outcome State Fault Refusal :=
  .next (s.wAlu c rd (fun k => k.reg rs ^^^ imm.zeroExtend 32))

/-- SLTI: signed compare with the immediate. -/
def execSlti (c : Fin 13) (rd rs : Fin 32) (imm : BitVec 16) (s : State) : Host.Outcome State Fault Refusal :=
  .next (s.wAlu c rd (fun k => flag ((k.reg rs).slt (imm.signExtend 32))))

/-- SLTIU: unsigned compare with the sign-extended immediate. -/
def execSltiu (c : Fin 13) (rd rs : Fin 32) (imm : BitVec 16) (s : State) : Host.Outcome State Fault Refusal :=
  .next (s.wAlu c rd (fun k => flag ((k.reg rs).ult (imm.signExtend 32))))

/-- LUI: the immediate in the upper half. -/
def execLui (c : Fin 13) (rd : Fin 32) (imm : BitVec 16) (s : State) : Host.Outcome State Fault Refusal :=
  .next (s.wAlu c rd (fun _ => imm.zeroExtend 32 <<< 16))

/-- LB: byte load, sign-extended. -/
def execLb (c : Fin 13) (rd rs : Fin 32) (seg : Fin 8) (imm : BitVec 13) (s : State) : Host.Outcome State Fault Refusal :=
  .next (s.wLoadInstr c rd rs seg imm 1 (fun v => (BitVec.ofNat 8 v).signExtend 32))

/-- LBU: byte load, zero-extended. -/
def execLbu (c : Fin 13) (rd rs : Fin 32) (seg : Fin 8) (imm : BitVec 13) (s : State) : Host.Outcome State Fault Refusal :=
  .next (s.wLoadInstr c rd rs seg imm 1 (BitVec.ofNat 32))

/-- LH: halfword load, sign-extended. -/
def execLh (c : Fin 13) (rd rs : Fin 32) (seg : Fin 8) (imm : BitVec 13) (s : State) : Host.Outcome State Fault Refusal :=
  .next (s.wLoadInstr c rd rs seg imm 2 (fun v => (BitVec.ofNat 16 v).signExtend 32))

/-- LHU: halfword load, zero-extended. -/
def execLhu (c : Fin 13) (rd rs : Fin 32) (seg : Fin 8) (imm : BitVec 13) (s : State) : Host.Outcome State Fault Refusal :=
  .next (s.wLoadInstr c rd rs seg imm 2 (BitVec.ofNat 32))

/-- LW: word load. -/
def execLw (c : Fin 13) (rd rs : Fin 32) (seg : Fin 8) (imm : BitVec 13) (s : State) : Host.Outcome State Fault Refusal :=
  .next (s.wLoadInstr c rd rs seg imm 4 (BitVec.ofNat 32))

/-- LDX: a word load that sets the reservation on its line (R309). -/
def execLdx (c : Fin 13) (rd rs : Fin 32) (seg : Fin 8) (imm : BitVec 13) (s : State) : Host.Outcome State Fault Refusal :=
  .next (s.wRun c false (fun t k => do
    let (bs, t1) ← t.wLoad c seg (k.offset rs imm) 4 4
    let line := k.lineOf seg (k.offset rs imm)
    let t2 := if reservable line then t1.setWc c { t1.wc c with reservation := some line } else t1
    pure ⟨t2, none, some (rd, BitVec.ofNat 32 (leNat bs))⟩))

/-- SB: stores a byte. -/
def execSb (c : Fin 13) (rd rs : Fin 32) (seg : Fin 8) (imm : BitVec 13) (s : State) : Host.Outcome State Fault Refusal :=
  .next (s.wStoreInstr c rd rs seg imm 1)

/-- SH: stores a halfword. -/
def execSh (c : Fin 13) (rd rs : Fin 32) (seg : Fin 8) (imm : BitVec 13) (s : State) : Host.Outcome State Fault Refusal :=
  .next (s.wStoreInstr c rd rs seg imm 2)

/-- SW: stores a word. -/
def execSw (c : Fin 13) (rd rs : Fin 32) (seg : Fin 8) (imm : BitVec 13) (s : State) : Host.Outcome State Fault Refusal :=
  .next (s.wStoreInstr c rd rs seg imm 4)

/-- STX: the conditional store (R309). Its checks come whatever the reservation; every STX clears it. -/
def State.wStx (s : State) (c : Fin 13) (rd rs : Fin 32) (seg : Fin 8) (imm : BitVec 13) : State :=
  s.wRun c false (fun t k => do
    let o := k.offset rs imm
    let g := k.seg seg
    let e := fun v => (⟨v, seg.val, true, 0, o⟩ : WExc)
    if o.toNat % 4 ≠ 0 then throw (e 6, t)
    match g.refuses o.toNat 4 WSeg.w with
    | some v => throw (e v, t)
    | none =>
      if k.reservation = some (k.lineOf seg o) then
        let t1 ← t.wStore c seg o (leBytes 4 (k.reg rd).toNat) 4
        pure (.go (t1.setWc c { (t1.wc c).setReg rd 1 with reservation := none }))
      else if (wRegion c (!k.u) (g.base.toNat + o.toNat) 4).isNone then throw (e 9, t)
      else pure (.go (t.setWc c { k.setReg rd 0 with reservation := none })))

/-- STX. -/
def execStx (c : Fin 13) (rd rs : Fin 32) (seg : Fin 8) (imm : BitVec 13) (s : State) : Host.Outcome State Fault Refusal :=
  .next (s.wStx c rd rs seg imm)

/-- LSEG loads a segment register, or raises DESCRIPTOR and loads nothing (R297). -/
def execLseg (c : Fin 13) (user : Bool) (n : Fin 8) (rs : Fin 32) (seg : Fin 8) (imm : BitVec 13) (s : State) :
    Host.Outcome State Fault Refusal :=
  .next (s.wRun c true (fun t k => do
    let (bs, t1) ← t.wLoad c seg (k.offset rs imm) 16 16
    if descOk c user bs then pure (.go (t1.setWc c ((t1.wc c).setSeg user n (segOf bs))))
    else throw (⟨0x0D, seg.val, false, 0, k.offset rs imm⟩, t1)))

/-- SSEG stores a segment register as a descriptor. -/
def execSseg (c : Fin 13) (user : Bool) (n : Fin 8) (rs : Fin 32) (seg : Fin 8) (imm : BitVec 13) (s : State) :
    Host.Outcome State Fault Refusal :=
  .next (s.wRun c true (fun t k => do
    let t1 ← t.wStore c seg (k.offset rs imm) (segBytes (if user then k.usegs[n] else k.ksegs[n])) 16
    pure (.go t1)))

/-- BEQ: branches if equal. -/
def execBeq (c : Fin 13) (ra rb : Fin 32) (off : BitVec 16) (s : State) : Host.Outcome State Fault Refusal :=
  .next (s.wBranch c off (fun k => k.reg ra == k.reg rb))

/-- BNE: branches if not equal. -/
def execBne (c : Fin 13) (ra rb : Fin 32) (off : BitVec 16) (s : State) : Host.Outcome State Fault Refusal :=
  .next (s.wBranch c off (fun k => k.reg ra != k.reg rb))

/-- BLT: branches if less, signed. -/
def execBlt (c : Fin 13) (ra rb : Fin 32) (off : BitVec 16) (s : State) : Host.Outcome State Fault Refusal :=
  .next (s.wBranch c off (fun k => (k.reg ra).slt (k.reg rb)))

/-- BGE: branches if greater or equal, signed. -/
def execBge (c : Fin 13) (ra rb : Fin 32) (off : BitVec 16) (s : State) : Host.Outcome State Fault Refusal :=
  .next (s.wBranch c off (fun k => !(k.reg ra).slt (k.reg rb)))

/-- BLTU: branches if less, unsigned. -/
def execBltu (c : Fin 13) (ra rb : Fin 32) (off : BitVec 16) (s : State) : Host.Outcome State Fault Refusal :=
  .next (s.wBranch c off (fun k => (k.reg ra).ult (k.reg rb)))

/-- BGEU: branches if greater or equal, unsigned. -/
def execBgeu (c : Fin 13) (ra rb : Fin 32) (off : BitVec 16) (s : State) : Host.Outcome State Fault Refusal :=
  .next (s.wBranch c off (fun k => !(k.reg ra).ult (k.reg rb)))

/-- J jumps. -/
def execJ (c : Fin 13) (off : BitVec 26) (s : State) : Host.Outcome State Fault Refusal :=
  .next (s.wRun c false (fun t k => .ok ⟨t, some (jumpTarget k.pc off), none⟩))

/-- CALL pushes the return address and jumps. -/
def execCall (c : Fin 13) (off : BitVec 26) (s : State) : Host.Outcome State Fault Refusal :=
  .next (s.wRun c false (fun t k => do
    let t1 ← t.wPushReturn c k
    pure ⟨t1, some (jumpTarget k.pc off), none⟩))

/-- JR jumps to rs. -/
def execJr (c : Fin 13) (rs : Fin 32) (s : State) : Host.Outcome State Fault Refusal :=
  .next (s.wRun c false (fun t k => .ok ⟨t, some (k.reg rs), none⟩))

/-- CALLR pushes the return address and jumps to rs. -/
def execCallr (c : Fin 13) (rs : Fin 32) (s : State) : Host.Outcome State Fault Refusal :=
  .next (s.wRun c false (fun t k => do
    let t1 ← t.wPushReturn c k
    pure ⟨t1, some (k.reg rs), none⟩))

/-- A loop instruction with its count (R307). -/
def State.wLoop (s : State) (c : Fin 13) (n : WickCore → Word) (off : BitVec 16) : State :=
  s.wRun c false (fun t k =>
    match k.setLoop (n k) off with
    | .ok (k1, jump) => .ok ⟨t.setWc c k1, jump, none⟩
    | .error v => .error (k.exc v, t))

/-- LOOP: a loop of rs iterations. -/
def execLoop (c : Fin 13) (rs : Fin 32) (off : BitVec 16) (s : State) : Host.Outcome State Fault Refusal :=
  .next (s.wLoop c (fun k => k.reg rs) off)

/-- LOOPI: a loop of an immediate count. -/
def execLoopi (c : Fin 13) (count : BitVec 10) (off : BitVec 16) (s : State) : Host.Outcome State Fault Refusal :=
  .next (s.wLoop c (fun _ => count.zeroExtend 32) off)

/-- RET pops PC from the call stack. -/
def execRet (c : Fin 13) (s : State) : Host.Outcome State Fault Refusal :=
  .next (s.wRun c false (fun t k => do
    let (jump, t1) ← t.wPopReturn c k
    pure ⟨t1, some jump, none⟩))

/-- ERET restores from the emergency stack's last frame, or from the kernel call stack (R316). -/
def State.wEret (s : State) (c : Fin 13) : State :=
  s.wRun c true (fun t k =>
    let done := fun (k : WickCore) (st : Word) => { k.setStatus st with ac := 0, reservation := none }
    if 0 < k.ed then
      let f := k.mem.bytes (16 * (k.ed - 1)) 16
      let k1 := done { k with kcsp := BitVec.ofNat 32 (fieldLe f 8 4), ed := k.ed - 1 } (BitVec.ofNat 32 (fieldLe f 4 4))
      .ok ⟨t.setWc c k1, some (BitVec.ofNat 32 (fieldLe f 0 4)), none⟩
    else
      let g := k.ksegs[7]
      let e := fun v => (⟨v, 7, false, 0, k.kcsp⟩ : WExc)
      if g.limit.toNat < k.kcsp.toNat + 8 ∨ !g.r ∨ !g.w then .error (e 1, t)
      else
        match t.wRead c true (g.base.toNat + k.kcsp.toNat) 8 g.c with
        | .error (v, t1) => .error (e v, t1)
        | .ok (bs, t1) =>
          let k1 := done { t1.wc c with kcsp := k.kcsp + 8 } (BitVec.ofNat 32 (fieldLe bs 4 4))
          .ok ⟨t1.setWc c k1, some (BitVec.ofNat 32 (fieldLe bs 0 4)), none⟩)

/-- ERET. -/
def execEret (c : Fin 13) (s : State) : Host.Outcome State Fault Refusal := .next (s.wEret c)

/-- TRAP raises TRAP with its code. -/
def execTrap (c : Fin 13) (code : BitVec 15) (s : State) : Host.Outcome State Fault Refusal :=
  .next (s.wRun c false (fun t k => .error (⟨0x0B, 0, false, code.toNat, k.pc⟩, t)))

/-- BRK halts the core where DCTRL.BRK_HALT is 1, or raises BREAK. -/
def execBrk (c : Fin 13) (s : State) : Host.Outcome State Fault Refusal :=
  .next (s.wRun c false (fun t k =>
    if k.brkHalt then .ok (.go (t.setWc c { k with due := some 4 })) else .error (k.exc 0x0C, t)))

/-- WAIT stops until an interrupt is pending for the core; inside an ATOM block it is ILLEGAL (R305). -/
def execWait (c : Fin 13) (s : State) : Host.Outcome State Fault Refusal :=
  .next (s.wRun c false (fun t k =>
    if k.ac ≠ 0 then .error (k.exc 2, t)
    else if k.u then .error (k.exc 3, t)
    else if t.wPending c then .ok (.go t)
    else .ok (.go (t.setWc c { k with waiting := true }))))

/-- ATOM n: the next n instructions run without interruption (R310). -/
def execAtom (c : Fin 13) (n : Fin 16) (s : State) : Host.Outcome State Fault Refusal :=
  .next (s.wRun c false (fun t k =>
    if n.val = 0 ∨ 8 < n.val ∨ k.ac ≠ 0 then .error (k.exc 2, t)
    else .ok (.go (t.setWc c { k with ac := n.val }))))

/-- PUSH (R299): DSP falls by 4 and the word is stored there. -/
def execPush (c : Fin 13) (rs : Fin 32) (s : State) : Host.Outcome State Fault Refusal :=
  .next (s.wRun c false (fun t k => do
    let t1 ← t.wStore c 6 (k.dsp - 4) (leBytes 4 (k.reg rs).toNat) 4
    pure (.go (t1.setWc c ((t1.wc c).setDsp (k.dsp - 4))))))

/-- POP (R299): the word at DSP is loaded and DSP rises by 4. -/
def execPop (c : Fin 13) (rd : Fin 32) (s : State) : Host.Outcome State Fault Refusal :=
  .next (s.wRun c false (fun t k => do
    let (bs, t1) ← t.wLoad c 6 k.dsp 4 4
    pure ⟨t1.setWc c ((t1.wc c).setDsp (k.dsp + 4)), none, some (rd, BitVec.ofNat 32 (leNat bs))⟩))

/-- MFS reads a special register (R294). -/
def execMfs (c : Fin 13) (rd : Fin 32) (sr : Fin 32) (s : State) : Host.Outcome State Fault Refusal :=
  .next (s.wRun c false (fun t k =>
    if !isSpecial sr.val then .error (k.exc 2, t)
    else if k.u && !userReads sr.val then .error (k.exc 3, t)
    else
      let v := t.special c sr.val
      let t1 := t.specialRead c sr.val
      .ok (.go (t1.setWc c ((t1.wc c).setReg rd v)))))

/-- MTS writes a special register (R294). -/
def execMts (c : Fin 13) (sr : Fin 32) (rs : Fin 32) (s : State) : Host.Outcome State Fault Refusal :=
  .next (s.wRun c false (fun t k =>
    if !isSpecial sr.val then .error (k.exc 2, t)
    else if k.u && !userWrites sr.val then .error (k.exc 3, t)
    else .ok (.go (t.setWc c (k.setSpecial sr.val (k.reg rs))))))

/-- LBRK discards the innermost loop level; with none it has no effect (R308). -/
def execLbrk (c : Fin 13) (s : State) : Host.Outcome State Fault Refusal :=
  .next (s.wRun c false (fun t k => .ok (.go (t.setWc c { k with ld := k.ld - 1 }))))

/-- FENCE orders accesses (R311): every access of the model is complete when its instruction ends. -/
def execFence (c : Fin 13) (s : State) : Host.Outcome State Fault Refusal := .next (s.wRun c false (fun t _ => .ok (.go t)))

/-- CWB writes back the line at offset rs of a segment. -/
def execCwb (c : Fin 13) (rs : Fin 32) (seg : Fin 8) (s : State) : Host.Outcome State Fault Refusal :=
  .next (s.wRun c false (fun t k => .ok (.go (t.wWriteBack c (k.lineOf seg (k.reg rs))))))

/-- CINV invalidates the line at offset rs of a segment without writing it back. -/
def execCinv (c : Fin 13) (rs : Fin 32) (seg : Fin 8) (s : State) : Host.Outcome State Fault Refusal :=
  .next (s.wRun c true (fun t k => .ok (.go (t.wInvalidate c (k.lineOf seg (k.reg rs))))))

/-- IINV invalidates the instruction cache. -/
def execIinv (c : Fin 13) (s : State) : Host.Outcome State Fault Refusal :=
  .next (s.wRun c true (fun t k => .ok (.go (t.setWc c { k with icache := [] }))))

/-- INTERRUPT_ENTRY: an interrupt is accepted between instructions (R317). -/
def State.wInterrupt (s : State) (c : Fin 13) : State :=
  let s0 := s.wWake c
  let k := s0.wc c
  if s.wickUp c && k.ie && k.boundary && !k.halted && !k.locked && !k.stepping && !k.haltReq && s0.wPending c then
    s0.wRaise c ⟨0x0F, 0, false, 0, k.pc⟩ k.pc
  else s

/-- INTERRUPT_ENTRY. -/
def execInterruptEntry (c : Fin 13) (s : State) : Host.Outcome State Fault Refusal := .next (s.wInterrupt c)

end Sys2Proof.Machine
end

