-- ==== Sys2Proof/Machine/Dispatch.lean ====
section
/-!
DEFINITION. Machine/Dispatch.lean: which meaning each command has, one arm per constructor.
-/
namespace Sys2Proof.Machine

def exec (i : Instr) (s : State) : Host.Outcome State Fault Refusal :=
  match i with
  | .tick g => Sys2Proof.Machine.execTick g s
  | .stagedChangeApplyAtDts => Sys2Proof.Machine.execStagedChangeApplyAtDts s
  | .registerWrite m off v => Sys2Proof.Machine.execRegisterWrite m off v s
  | .sysStageClaim m v => Sys2Proof.Machine.execSysStageClaim m v s
  | .stagingWrite m off v => Sys2Proof.Machine.execStagingWrite m off v s
  | .sysStageCheck m v => Sys2Proof.Machine.execSysStageCheck m v s
  | .stageCheckEnd => Sys2Proof.Machine.execStageCheckEnd s
  | .sysStageApply m v => Sys2Proof.Machine.execSysStageApply m v s
  | .sysStageCancel m v => Sys2Proof.Machine.execSysStageCancel m v s
  | .timeDtsLoRead => Sys2Proof.Machine.execTimeDtsLoRead s
  | .timeSetGo m v => Sys2Proof.Machine.execTimeSetGo m v s
  | .announceReceived port a => Sys2Proof.Machine.execAnnounceReceived port a s
  | .ppsInEdge rising => Sys2Proof.Machine.execPpsInEdge rising s
  | .referenceLost r => Sys2Proof.Machine.execReferenceLost r s
  | .referenceQualified r delta adj => Sys2Proof.Machine.execReferenceQualified r delta adj s
  | .holdoverSet => Sys2Proof.Machine.execHoldoverSet s
  | .hoSpecExpired => Sys2Proof.Machine.execHoSpecExpired s
  | .slewDone => Sys2Proof.Machine.execSlewDone s
  | .ppsOutPulse => Sys2Proof.Machine.execPpsOutPulse s
  | .submissionDoorbell f q v => Sys2Proof.Machine.execSubmissionDoorbell f q v s
  | .completionDoorbell f c v => Sys2Proof.Machine.execCompletionDoorbell f c v s
  | .entryFetched f q r => Sys2Proof.Machine.execEntryFetched f q r s
  | .fetchCompletionTimeout f q => Sys2Proof.Machine.execFetchCompletionTimeout f q s
  | .entryDispatch => Sys2Proof.Machine.execEntryDispatch s
  | .completionPost f c ok => Sys2Proof.Machine.execCompletionPost f c ok s
  | .aggTimeExpiry f c => Sys2Proof.Machine.execAggTimeExpiry f c s
  | .completionRepost f c ok => Sys2Proof.Machine.execCompletionRepost f c ok s
  | .pcieLinkDown => Sys2Proof.Machine.execPcieLinkDown s
  | .qmgrHeartbeat m v => Sys2Proof.Machine.execQmgrHeartbeat m v s
  | .heartbeatTimeout => Sys2Proof.Machine.execHeartbeatTimeout s
  | .vfHeartbeat f v => Sys2Proof.Machine.execVfHeartbeat f v s
  | .vfHeartbeatTimeout f => Sys2Proof.Machine.execVfHeartbeatTimeout f s
  | .functionLevelReset f => Sys2Proof.Machine.execFunctionLevelReset f s
  | .adminQueueEnable f => Sys2Proof.Machine.execAdminQueueEnable f s
  | .adminQueueDisable f => Sys2Proof.Machine.execAdminQueueDisable f s
  | .adminQueueReady f => Sys2Proof.Machine.execAdminQueueReady f s
  | .qmgrDbErrRead => Sys2Proof.Machine.execQmgrDbErrRead s
  | .identify n => Sys2Proof.Machine.execIdentify n s
  | .createCq n => Sys2Proof.Machine.execCreateCq n s
  | .deleteCq n => Sys2Proof.Machine.execDeleteCq n s
  | .createSq n => Sys2Proof.Machine.execCreateSq n s
  | .deleteSq n => Sys2Proof.Machine.execDeleteSq n s
  | .getFeature n => Sys2Proof.Machine.execGetFeature n s
  | .setQueueArb n => Sys2Proof.Machine.execSetQueueArb n s
  | .setCompletionAgg n => Sys2Proof.Machine.execSetCompletionAgg n s
  | .setModeRequest n => Sys2Proof.Machine.execSetModeRequest n s
  | .setShares n => Sys2Proof.Machine.execSetShares n s
  | .stageClaim n => Sys2Proof.Machine.execStageClaim n s
  | .stageWrite n => Sys2Proof.Machine.execStageWrite n s
  | .stageCheck n => Sys2Proof.Machine.execStageCheck n s
  | .stageApply n => Sys2Proof.Machine.execStageApply n s
  | .stageCancel n => Sys2Proof.Machine.execStageCancel n s
  | .stageStatus n => Sys2Proof.Machine.execStageStatus n s
  | .abort n => Sys2Proof.Machine.execAbort n s
  | .nvsUpdate n => Sys2Proof.Machine.execNvsUpdate n s
  | .nvsUpdateEnd image e => Sys2Proof.Machine.execNvsUpdateEnd image e s
  | .logRead n => Sys2Proof.Machine.execLogRead n s
  | .openObject n pick params => Sys2Proof.Machine.execOpenObject n pick params s
  | .close n => Sys2Proof.Machine.execClose n s
  | .decode n => Sys2Proof.Machine.execDecode n s
  | .encode n => Sys2Proof.Machine.execEncode n s
  | .compose n x => Sys2Proof.Machine.execCompose n x s
  | .send n data => Sys2Proof.Machine.execSend n data s
  | .channelAllocate n pick => Sys2Proof.Machine.execChannelAllocate n pick s
  | .channelStart n => Sys2Proof.Machine.execChannelStart n s
  | .channelSuspend n => Sys2Proof.Machine.execChannelSuspend n s
  | .channelResume n => Sys2Proof.Machine.execChannelResume n s
  | .channelHalt n => Sys2Proof.Machine.execChannelHalt n s
  | .channelClear n => Sys2Proof.Machine.execChannelClear n s
  | .codecJobStart x w h => Sys2Proof.Machine.execCodecJobStart x w h s
  | .pictureEnd c p => Sys2Proof.Machine.execPictureEnd c p s
  | .budgetAbort c => Sys2Proof.Machine.execBudgetAbort c s
  | .encodeFrameEnd c e => Sys2Proof.Machine.execEncodeFrameEnd c e s
  | .encodePacketRelease stream => Sys2Proof.Machine.execEncodePacketRelease stream s
  | .sequencerWatchdog c => Sys2Proof.Machine.execSequencerWatchdog c s
  | .microword c x => Sys2Proof.Machine.execMicroword c x s
  | .coreLeavesService c retired => Sys2Proof.Machine.execCoreLeavesService c retired s
  | .coreResetEnd c pass => Sys2Proof.Machine.execCoreResetEnd c pass s
  | .frameBegin g => Sys2Proof.Machine.execFrameBegin g s
  | .composeFrameEnd o equal poisoned => Sys2Proof.Machine.execComposeFrameEnd o equal poisoned s
  | .st2110PacketSend o payload => Sys2Proof.Machine.execSt2110PacketSend o payload s
  | .ccwWrite c w pages data => Sys2Proof.Machine.execCcwWrite c w pages data s
  | .ccwRead c w pages => Sys2Proof.Machine.execCcwRead c w pages s
  | .ccwSense c w pages => Sys2Proof.Machine.execCcwSense c w pages s
  | .ccwNop c w => Sys2Proof.Machine.execCcwNop c w s
  | .ccwTic c w => Sys2Proof.Machine.execCcwTic c w s
  | .ccwWaitTick c w => Sys2Proof.Machine.execCcwWaitTick c w s
  | .ccwWaitEvent c w => Sys2Proof.Machine.execCcwWaitEvent c w s
  | .waitEventTimeout c => Sys2Proof.Machine.execWaitEventTimeout c s
  | .ccwSetTimer c w => Sys2Proof.Machine.execCcwSetTimer c w s
  | .channelTimerExpiry c => Sys2Proof.Machine.execChannelTimerExpiry c s
  | .ccwPost c w => Sys2Proof.Machine.execCcwPost c w s
  | .ccwCall c w => Sys2Proof.Machine.execCcwCall c w s
  | .routineTimeout c => Sys2Proof.Machine.execRoutineTimeout c s
  | .ccwDecode c w => Sys2Proof.Machine.execCcwDecode c w s
  | .ccwEncode c w => Sys2Proof.Machine.execCcwEncode c w s
  | .ccwCompose c w x => Sys2Proof.Machine.execCcwCompose c w x s
  | .ccwSend c w data => Sys2Proof.Machine.execCcwSend c w data s
  | .ccwControlStage c w pairs => Sys2Proof.Machine.execCcwControlStage c w pairs s
  | .statusRing c w order => Sys2Proof.Machine.execStatusRing c w order s
  | .uartConfig c w order => Sys2Proof.Machine.execUartConfig c w order s
  | .uartBreak c w order => Sys2Proof.Machine.execUartBreak c w order s
  | .spiConfig c w order => Sys2Proof.Machine.execSpiConfig c w order s
  | .i2cConfig c w order => Sys2Proof.Machine.execI2cConfig c w order s
  | .busClear c w order held => Sys2Proof.Machine.execBusClear c w order held s
  | .canConfig c w order => Sys2Proof.Machine.execCanConfig c w order s
  | .canFilter c w order => Sys2Proof.Machine.execCanFilter c w order s
  | .canRecover c w order => Sys2Proof.Machine.execCanRecover c w order s
  | .i2sConfig c w order => Sys2Proof.Machine.execI2sConfig c w order s
  | .gpioDrive c w order => Sys2Proof.Machine.execGpioDrive c w order s
  | .gpioDirection c w order => Sys2Proof.Machine.execGpioDirection c w order s
  | .gpioPulse c w order => Sys2Proof.Machine.execGpioPulse c w order s
  | .gpioEvent c w order => Sys2Proof.Machine.execGpioEvent c w order s
  | .gpioEdge pin rising => Sys2Proof.Machine.execGpioEdge pin rising s
  | .canFrameRx k frame => Sys2Proof.Machine.execCanFrameRx k frame s
  | .peripheralTransferEnd c e => Sys2Proof.Machine.execPeripheralTransferEnd c e s
  | .readTimeout c => Sys2Proof.Machine.execReadTimeout c s
  | .ccwRetry c => Sys2Proof.Machine.execCcwRetry c s
  | .lineStuck u => Sys2Proof.Machine.execLineStuck u s
  | .busFault k levels => Sys2Proof.Machine.execBusFault k levels s
  | .lmpChEventWrite m c v => Sys2Proof.Machine.execLmpChEventWrite m c v s
  | .routineLoad m v => Sys2Proof.Machine.execRoutineLoad m v s
  | .routineUnload m v => Sys2Proof.Machine.execRoutineUnload m v s
  | .handoverResume m v => Sys2Proof.Machine.execHandoverResume m v s
  | .handoverReset m v => Sys2Proof.Machine.execHandoverReset m v s
  | .lamplighterStall k c => Sys2Proof.Machine.execLamplighterStall k c s
  | .add c rd rs rt => Sys2Proof.Machine.execAdd c rd rs rt s
  | .sub c rd rs rt => Sys2Proof.Machine.execSub c rd rs rt s
  | .and c rd rs rt => Sys2Proof.Machine.execAnd c rd rs rt s
  | .or c rd rs rt => Sys2Proof.Machine.execOr c rd rs rt s
  | .xor c rd rs rt => Sys2Proof.Machine.execXor c rd rs rt s
  | .nor c rd rs rt => Sys2Proof.Machine.execNor c rd rs rt s
  | .slt c rd rs rt => Sys2Proof.Machine.execSlt c rd rs rt s
  | .sltu c rd rs rt => Sys2Proof.Machine.execSltu c rd rs rt s
  | .sll c rd rs rt => Sys2Proof.Machine.execSll c rd rs rt s
  | .srl c rd rs rt => Sys2Proof.Machine.execSrl c rd rs rt s
  | .sra c rd rs rt => Sys2Proof.Machine.execSra c rd rs rt s
  | .slli c rd rs sh => Sys2Proof.Machine.execSlli c rd rs sh s
  | .srli c rd rs sh => Sys2Proof.Machine.execSrli c rd rs sh s
  | .srai c rd rs sh => Sys2Proof.Machine.execSrai c rd rs sh s
  | .mul c rd rs rt => Sys2Proof.Machine.execMul c rd rs rt s
  | .mulh c rd rs rt => Sys2Proof.Machine.execMulh c rd rs rt s
  | .mulhu c rd rs rt => Sys2Proof.Machine.execMulhu c rd rs rt s
  | .divu c rd rs rt => Sys2Proof.Machine.execDivu c rd rs rt s
  | .remu c rd rs rt => Sys2Proof.Machine.execRemu c rd rs rt s
  | .clz c rd rs => Sys2Proof.Machine.execClz c rd rs s
  | .bswap c rd rs => Sys2Proof.Machine.execBswap c rd rs s
  | .addi c rd rs imm => Sys2Proof.Machine.execAddi c rd rs imm s
  | .andi c rd rs imm => Sys2Proof.Machine.execAndi c rd rs imm s
  | .ori c rd rs imm => Sys2Proof.Machine.execOri c rd rs imm s
  | .xori c rd rs imm => Sys2Proof.Machine.execXori c rd rs imm s
  | .slti c rd rs imm => Sys2Proof.Machine.execSlti c rd rs imm s
  | .sltiu c rd rs imm => Sys2Proof.Machine.execSltiu c rd rs imm s
  | .lui c rd imm => Sys2Proof.Machine.execLui c rd imm s
  | .lb c rd rs seg imm => Sys2Proof.Machine.execLb c rd rs seg imm s
  | .lbu c rd rs seg imm => Sys2Proof.Machine.execLbu c rd rs seg imm s
  | .lh c rd rs seg imm => Sys2Proof.Machine.execLh c rd rs seg imm s
  | .lhu c rd rs seg imm => Sys2Proof.Machine.execLhu c rd rs seg imm s
  | .lw c rd rs seg imm => Sys2Proof.Machine.execLw c rd rs seg imm s
  | .ldx c rd rs seg imm => Sys2Proof.Machine.execLdx c rd rs seg imm s
  | .sb c rd rs seg imm => Sys2Proof.Machine.execSb c rd rs seg imm s
  | .sh c rd rs seg imm => Sys2Proof.Machine.execSh c rd rs seg imm s
  | .sw c rd rs seg imm => Sys2Proof.Machine.execSw c rd rs seg imm s
  | .stx c rd rs seg imm => Sys2Proof.Machine.execStx c rd rs seg imm s
  | .lseg c user n rs seg imm => Sys2Proof.Machine.execLseg c user n rs seg imm s
  | .sseg c user n rs seg imm => Sys2Proof.Machine.execSseg c user n rs seg imm s
  | .beq c ra rb off => Sys2Proof.Machine.execBeq c ra rb off s
  | .bne c ra rb off => Sys2Proof.Machine.execBne c ra rb off s
  | .blt c ra rb off => Sys2Proof.Machine.execBlt c ra rb off s
  | .bge c ra rb off => Sys2Proof.Machine.execBge c ra rb off s
  | .bltu c ra rb off => Sys2Proof.Machine.execBltu c ra rb off s
  | .bgeu c ra rb off => Sys2Proof.Machine.execBgeu c ra rb off s
  | .j c off => Sys2Proof.Machine.execJ c off s
  | .call c off => Sys2Proof.Machine.execCall c off s
  | .jr c rs => Sys2Proof.Machine.execJr c rs s
  | .callr c rs => Sys2Proof.Machine.execCallr c rs s
  | .loop c rs off => Sys2Proof.Machine.execLoop c rs off s
  | .loopi c count off => Sys2Proof.Machine.execLoopi c count off s
  | .ret c => Sys2Proof.Machine.execRet c s
  | .eret c => Sys2Proof.Machine.execEret c s
  | .trap c code => Sys2Proof.Machine.execTrap c code s
  | .brk c => Sys2Proof.Machine.execBrk c s
  | .wait c => Sys2Proof.Machine.execWait c s
  | .atom c n => Sys2Proof.Machine.execAtom c n s
  | .push c rs => Sys2Proof.Machine.execPush c rs s
  | .pop c rd => Sys2Proof.Machine.execPop c rd s
  | .mfs c rd sr => Sys2Proof.Machine.execMfs c rd sr s
  | .mts c sr rs => Sys2Proof.Machine.execMts c sr rs s
  | .lbrk c => Sys2Proof.Machine.execLbrk c s
  | .fence c => Sys2Proof.Machine.execFence c s
  | .cwb c rs seg => Sys2Proof.Machine.execCwb c rs seg s
  | .cinv c rs seg => Sys2Proof.Machine.execCinv c rs seg s
  | .iinv c => Sys2Proof.Machine.execIinv c s
  | .interruptEntry c => Sys2Proof.Machine.execInterruptEntry c s
  | .dbgAccess d => Sys2Proof.Machine.execDbgAccess d s
  | .haltReq c => Sys2Proof.Machine.execHaltReq c s
  | .debugHalt c => Sys2Proof.Machine.execDebugHalt c s
  | .debugResume c => Sys2Proof.Machine.execDebugResume c s
  | .debugStep c => Sys2Proof.Machine.execDebugStep c s
  | .dregDataAccess c write v => Sys2Proof.Machine.execDregDataAccess c write v s
  | .dmemDataAccess c write v => Sys2Proof.Machine.execDmemDataAccess c write v s
  | .dirRead r line same => Sys2Proof.Machine.execDirRead r line same s
  | .dirOwn r line same => Sys2Proof.Machine.execDirOwn r line same s
  | .dirWb r line same => Sys2Proof.Machine.execDirWb r line same s
  | .frameHeadLookup p head => Sys2Proof.Machine.execFrameHeadLookup p head s
  | .frameTail p t => Sys2Proof.Machine.execFrameTail p t s
  | .egressSelect p => Sys2Proof.Machine.execEgressSelect p s
  | .copyTransmitEnd p media => Sys2Proof.Machine.execCopyTransmitEnd p media s
  | .macAgingPass => Sys2Proof.Machine.execMacAgingPass s
  | .tblWrite m v => Sys2Proof.Machine.execTblWrite m v s
  | .tblRead m v => Sys2Proof.Machine.execTblRead m v s
  | .tblInvalidate m v => Sys2Proof.Machine.execTblInvalidate m v s
  | .portLock p => Sys2Proof.Machine.execPortLock p s
  | .trainingRetry p => Sys2Proof.Machine.execTrainingRetry p s
  | .linkDown p => Sys2Proof.Machine.execLinkDown p s
  | .downRetrain p => Sys2Proof.Machine.execDownRetrain p s
  | .laneFault n => Sys2Proof.Machine.execLaneFault n s
  | .swcCntLowRead p c => Sys2Proof.Machine.execSwcCntLowRead p c s
  | .swcBufPeakRead => Sys2Proof.Machine.execSwcBufPeakRead s
  | .swcRbDropRead b => Sys2Proof.Machine.execSwcRbDropRead b s
  | .wheelTick => Sys2Proof.Machine.execWheelTick s
  | .bucketSweep => Sys2Proof.Machine.execBucketSweep s
  | .gateEntryChange p => Sys2Proof.Machine.execGateEntryChange p s
  | .histSample => Sys2Proof.Machine.execHistSample s
  | .histSnap m v => Sys2Proof.Machine.execHistSnap m v s
  | .trfTblWrite m v => Sys2Proof.Machine.execTrfTblWrite m v s
  | .trfTblRead m v => Sys2Proof.Machine.execTrfTblRead m v s
  | .trfGateDropRead p => Sys2Proof.Machine.execTrfGateDropRead p s
  | .trfRedDropRead => Sys2Proof.Machine.execTrfRedDropRead s
  | .bufferRequest pool owner => Sys2Proof.Machine.execBufferRequest pool owner s
  | .bufferTake a => Sys2Proof.Machine.execBufferTake a s
  | .bufferDrop a => Sys2Proof.Machine.execBufferDrop a s
  | .dmaStart m c v => Sys2Proof.Machine.execDmaStart m c v s
  | .dmaStop m c v => Sys2Proof.Machine.execDmaStop m c v s
  | .dmaClear m c v => Sys2Proof.Machine.execDmaClear m c v s
  | .dmaDescriptorFetch c r => Sys2Proof.Machine.execDmaDescriptorFetch c r s
  | .dmaBlockEnd c r writeFailed => Sys2Proof.Machine.execDmaBlockEnd c r writeFailed s
  | .dmaRetry c => Sys2Proof.Machine.execDmaRetry c s
  | .auditEnd errs => Sys2Proof.Machine.execAuditEnd errs s
  | .auditRelease m v => Sys2Proof.Machine.execAuditRelease m v s
  | .bpmPoolRefusedRead n => Sys2Proof.Machine.execBpmPoolRefusedRead n s
  | .bpmPoolFallbacksRead n => Sys2Proof.Machine.execBpmPoolFallbacksRead n s
  | .bpmAudViolRead => Sys2Proof.Machine.execBpmAudViolRead s
  | .cdcPoolEvictRead => Sys2Proof.Machine.execCdcPoolEvictRead s
  | .cmpLateCntRead => Sys2Proof.Machine.execCmpLateCntRead s
  | .cmpOutMissedRead o => Sys2Proof.Machine.execCmpOutMissedRead o s
  | .cmpOutStSkipRead o => Sys2Proof.Machine.execCmpOutStSkipRead o s
  | .faultMessage m => Sys2Proof.Machine.execFaultMessage m s
  | .severityWindowEnd src => Sys2Proof.Machine.execSeverityWindowEnd src s
  | .selfTestEnd r pass => Sys2Proof.Machine.execSelfTestEnd r pass s
  | .unitResetEnd u => Sys2Proof.Machine.execUnitResetEnd u s
  | .recoveryEnd => Sys2Proof.Machine.execRecoveryEnd s
  | .icuClaimRead t => Sys2Proof.Machine.execIcuClaimRead t s
  | .icuComplete t v => Sys2Proof.Machine.execIcuComplete t v s
  | .icuPendSet w v => Sys2Proof.Machine.execIcuPendSet w v s
  | .icuPendClr w v => Sys2Proof.Machine.execIcuPendClr w v s
  | .icuMaskSet w v => Sys2Proof.Machine.execIcuMaskSet w v s
  | .icuMaskClr w v => Sys2Proof.Machine.execIcuMaskClr w v s
  | .snufHalt m v => Sys2Proof.Machine.execSnufHalt m v s
  | .snufFirstClear m v => Sys2Proof.Machine.execSnufFirstClear m v s
  | .snufRetest m v => Sys2Proof.Machine.execSnufRetest m v s
  | .snufCorrectedRead => Sys2Proof.Machine.execSnufCorrectedRead s
  | .patrolScrub bank a => Sys2Proof.Machine.execPatrolScrub bank a s
  | .flickerToggle => Sys2Proof.Machine.execFlickerToggle s
  | .testUnlock m v => Sys2Proof.Machine.execTestUnlock m v s
  | .testInjGo m v => Sys2Proof.Machine.execTestInjGo m v s
  | .pwrModeReq m v => Sys2Proof.Machine.execPwrModeReq m v s
  | .modeTransitionEnd => Sys2Proof.Machine.execModeTransitionEnd s
  | .sensorSample r => Sys2Proof.Machine.execSensorSample r s
  | .capEnd => Sys2Proof.Machine.execCapEnd s
  | .capGateMore => Sys2Proof.Machine.execCapGateMore s
  | .railFault rail kind => Sys2Proof.Machine.execRailFault rail kind s
  | .brownOut => Sys2Proof.Machine.execBrownOut s
  | .vinLoss => Sys2Proof.Machine.execVinLoss s
  | .vinGood => Sys2Proof.Machine.execVinGood s
  | .bootStepEnd b => Sys2Proof.Machine.execBootStepEnd b s
  | .timeWaitExpiry => Sys2Proof.Machine.execTimeWaitExpiry s
  | .pilotWake rising => Sys2Proof.Machine.execPilotWake rising s
  | .pilotTimer => Sys2Proof.Machine.execPilotTimer s
  | .smbWake => Sys2Proof.Machine.execSmbWake s
  | .porstNAssert => Sys2Proof.Machine.execPorstNAssert s
  | .porstNRelease straps => Sys2Proof.Machine.execPorstNRelease straps s
  | .warmRstNAssert => Sys2Proof.Machine.execWarmRstNAssert s
  | .warmRstNRelease => Sys2Proof.Machine.execWarmRstNRelease s
  | .pciePerstNAssert => Sys2Proof.Machine.execPciePerstNAssert s
  | .pciePerstNRelease => Sys2Proof.Machine.execPciePerstNRelease s
  | .refclkSysLoss => Sys2Proof.Machine.execRefclkSysLoss s
  | .refclkLoss r => Sys2Proof.Machine.execRefclkLoss r s
  | .smbStuck => Sys2Proof.Machine.execSmbStuck s
  | .fabricAccessTimeout domain master index a => Sys2Proof.Machine.execFabricAccessTimeout domain master index a s
  | .sysFabricCntRead => Sys2Proof.Machine.execSysFabricCntRead s
  | .pwrPinPeakRead => Sys2Proof.Machine.execPwrPinPeakRead s
  | .jtagInstructionLoad code => Sys2Proof.Machine.execJtagInstructionLoad code s
  | .readSensors => Sys2Proof.Machine.execReadSensors s
  | .debugChallenge nonce => Sys2Proof.Machine.execDebugChallenge nonce s
  | .debugUnlock good => Sys2Proof.Machine.execDebugUnlock good s
  | .nvsRead => Sys2Proof.Machine.execNvsRead s
  | .setEndpointId op eid => Sys2Proof.Machine.execSetEndpointId op eid s
  | .getEndpointId => Sys2Proof.Machine.execGetEndpointId s
  | .getEndpointUuid => Sys2Proof.Machine.execGetEndpointUuid s
  | .getMctpVersionSupport msgType => Sys2Proof.Machine.execGetMctpVersionSupport msgType s
  | .getMessageTypeSupport => Sys2Proof.Machine.execGetMessageTypeSupport s
  | .setTid tid => Sys2Proof.Machine.execSetTid tid s
  | .getTid => Sys2Proof.Machine.execGetTid s
  | .getPldmVersion type => Sys2Proof.Machine.execGetPldmVersion type s
  | .getPldmTypes => Sys2Proof.Machine.execGetPldmTypes s
  | .getPldmCommands type => Sys2Proof.Machine.execGetPldmCommands type s
  | .getPdrRepositoryInfo => Sys2Proof.Machine.execGetPdrRepositoryInfo s
  | .getPdr handle => Sys2Proof.Machine.execGetPdr handle s
  | .getSensorReading id => Sys2Proof.Machine.execGetSensorReading id s
  | .getStateSensorReadings id => Sys2Proof.Machine.execGetStateSensorReadings id s
  | .setStateEffecterStates id state => Sys2Proof.Machine.execSetStateEffecterStates id state s
  | .setNumericEffecterValue id v => Sys2Proof.Machine.execSetNumericEffecterValue id v s
  | .getNumericEffecterValue id => Sys2Proof.Machine.execGetNumericEffecterValue id s
  | .setEventReceiver enable addr => Sys2Proof.Machine.execSetEventReceiver enable addr s
  | .queryDeviceIdentifiers => Sys2Proof.Machine.execQueryDeviceIdentifiers s
  | .getFirmwareParameters => Sys2Proof.Machine.execGetFirmwareParameters s
  | .requestUpdate => Sys2Proof.Machine.execRequestUpdate s
  | .passComponentTable cls comp => Sys2Proof.Machine.execPassComponentTable cls comp s
  | .updateComponent cls comp size => Sys2Proof.Machine.execUpdateComponent cls comp size s
  | .requestFirmwareData data => Sys2Proof.Machine.execRequestFirmwareData data s
  | .transferComplete ok => Sys2Proof.Machine.execTransferComplete ok s
  | .verifyComplete e => Sys2Proof.Machine.execVerifyComplete e s
  | .applyComplete ok => Sys2Proof.Machine.execApplyComplete ok s
  | .activateFirmware selfContained => Sys2Proof.Machine.execActivateFirmware selfContained s
  | .getStatus => Sys2Proof.Machine.execGetStatus s
  | .cancelUpdateComponent => Sys2Proof.Machine.execCancelUpdateComponent s
  | .cancelUpdate => Sys2Proof.Machine.execCancelUpdate s
  | .clk10mInEdge => Sys2Proof.Machine.execClk10mInEdge s
  | .ptpIntervalExpiry port kind => Sys2Proof.Machine.execPtpIntervalExpiry port kind s
  | .pcieLinkUp width speed => Sys2Proof.Machine.execPcieLinkUp width speed s
  | .refclkReturn r => Sys2Proof.Machine.execRefclkReturn r s
  | .nightCoreClockGate c => Sys2Proof.Machine.execNightCoreClockGate c s
  | .recoveryTimeout => Sys2Proof.Machine.execRecoveryTimeout s
  | .lanternWatchdog => Sys2Proof.Machine.execLanternWatchdog s
  | .pseudoChannelSpared stack pc => Sys2Proof.Machine.execPseudoChannelSpared stack pc s

end Sys2Proof.Machine
end

