-- ==== Sys2Proof/Safety.lean ====
section
/-!
DEFINITION. Safety.lean: the words that the claims use: the canonical form of the memories, runs, how a command of a queue has
ended, and when a Wick core executes an instruction.
-/
namespace Sys2Proof.Machine

/-- Both memories are in canonical form: addresses strictly rise and no byte that is listed is zero. -/
def State.wf (s : State) : Prop := s.host.wf = true ∧ s.dev.wf = true

/-- The state after `n` steps; none if a step stops. -/
def run : Nat → State → Option State
  | 0, s => some s
  | n + 1, s =>
    match step s with
    | .next t => run n t
    | _ => none

/-- A run of any length from this state never stops. -/
def Safe (s : State) : Prop := ∀ n, (run n s).isSome = true

/-- The command in slot `n` has finished with a status and two results (Table 03-5). -/
def Finished (t : State) (n : Nat) (st : Status) (r0 r1 : Nat) : Prop :=
  ∃ y, t.slot n = some y ∧ y.phase = .finished ∧ y.completion.status = st ∧ y.completion.result0 = BitVec.ofNat 32 r0 ∧
    y.completion.result1 = BitVec.ofNat 32 r1

/-- No check of a list fails. -/
def Passes (l : List (Bool × Deny)) : Prop := firstDeny l = none

/-- Core `c` executes the instruction at its PC: it runs, no halt is due, and the fetch leaves state `t`. With `kernel`, the
core is in kernel mode. -/
def Executes (s : State) (c : Fin 13) (kernel : Bool) (t : State) : Prop :=
  let s0 := s.wWake c
  let k := s0.wc c
  s.wickUp c = true ∧ k.halted = false ∧ k.locked = false ∧ k.waiting = false ∧
    (k.haltReq && k.boundary && !k.stepping) = false ∧ (k.breaks && !k.stepping && k.boundary) = false ∧
    (if k.breaks && !k.stepping then s0.setWc c { k with due := some 2 } else s0).wFetch c = .ok t ∧
    (kernel = true → k.u = false)

/-- What an instruction that core `c` has executed comes to: its result `d`, the end of the load before it, the count of an
ATOM sequence and the PC as the core had them before it. -/
def ended (s : State) (c : Fin 13) (d : WDone) : State :=
  let k := (s.wWake c).wc c
  wFinish c d k.ac k.load k.pc

/-- Core `c`, whose fetch left state `t`, takes exception `e` at an instruction that it executes (R312): a load before it ends
first, and the handler comes back to the instruction, or for TRAP and BRK to the one after it. -/
def raised (s t : State) (c : Fin 13) (e : WExc) : State :=
  let k := (s.wWake c).wc c
  (t.setWc c { (t.wc c).commit k.load with load := none }).wRaise c e
    (if e.vector = 0x0B ∨ e.vector = 0x0C then k.pc + 4 else k.pc)

/-- The bytes of the next CCW of channel `c`, whose fetch from host space returned `w` (R250). -/
def ccwAhead (s : State) (c : Nat) (w : List Byte) : List Byte := s.ccwBytes (s.chan c).ccw w

/-- Channel `c` begins a CCW of opcode `op` (R250 to R253, R268): it is ACTIVE between two CCWs, passes none over and is not to
be suspended, its mode and the cores let CCWs run, and the CCW at its place can be fetched, has no HOLD and has legal flags. -/
def CcwStarts (s : State) (c : Nat) (w : List Byte) (op : Nat) : Prop :=
  let x := s.chan c
  let b := ccwAhead s c w
  x.st = .active ∧ x.cur = none ∧ x.skip = false ∧ x.suspend = none ∧ s.ccwsGoOn = true ∧ s.chansRun = true ∧
    s.fetchCheck x.ccw w = none ∧ ccwFlag b 3 = false ∧ ccwOp b = op ∧ ccwFlagCheck b = none

/-- The state in which that CCW has begun: it is the channel's current one, and under PROGRESS a CSW of kind PROGRESS has been
posted (R253, R267). -/
def ccwBegun (s : State) (c : Nat) (w : List Byte) : State :=
  let b := ccwAhead s c w
  let s1 := s.enterCcw c b
  let s2 := if ccwFlag b 5 then s1.postCsw c 1 0 else s1
  s2.setChan c { s2.chan c with ticked := false }

/-- A CONTROL order on a peripheral is carried out (R262, R270): the next CCW of channel `c` is a CONTROL that begins and names a
subchannel of the order's kind, its block is known and in range, its function has the grant, its extension and its COUNT are in
range, the block can be read, and the subchannel is free or the channel's. -/
def OrderRuns (s : State) (c : Nat) (w blk : List Byte) (kind : PKind) (code : Nat) : Prop :=
  let b := ccwAhead s c w
  let t := ccwBegun s c w
  let u := ccwSubch b
  CcwStarts s c w 0x03 ∧ periph u = some kind ∧ fieldLe blk 0 1 = code ∧ orderOk kind blk = true ∧
    t.subGranted c u = true ∧ ccwExtFields u b = true ∧ ccwCount b ≤ 16777215 ∧ (∃ l, t.ccwAreas b 32 [ccwAddr b] = .ok l) ∧
    Table.get none s.lmp.busy u ∈ [none, some c] ∧ (isDevice (ccwAddr b) && t.poisonIn (spaceOff (ccwAddr b)) 32 != []) = false

/-- What the declaration of host loss leaves (R87, R88): the condition, every ACTIVE queue and ring FROZEN, and CONTINUITY where
the device ran media for its host; in RECOVERY the queues are left to what follows it. -/
def HostLossFrom (s t : State) : Prop :=
  t.qm.hostLost = true ∧
    (s.pwr.mode ≠ .recovery → ∀ k, (s.sq k).state = .active → (t.sq k).state = .frozen) ∧
    (s.pwr.mode ≠ .recovery → ∀ k, (s.cq k).state = .active → (t.cq k).state = .frozen) ∧
    t.pwr.mode = (match s.pwr.mode with | .service | .night | .limited => Mode.continuity | m => m)

/-- What the reset of a function leaves of its queue management (R49, R85, R94). -/
def FunctionReset (f : Nat) (t : State) : Prop :=
  t.aqEn f = false ∧ t.qm.aqErr.getLsbD f = false ∧ Table.get 0 t.time.overruns f = 0 ∧
    ∀ k, keyFn k = f → (t.sq k).state ∈ [QState.draining, .absent]

/-- How a CCW of channel `c` that had begun in state `t` has ended in state `u` (R253, R265, R268): its result, code and residual
are in the CSW's fields, and no CCW is in progress. Under NEXT, after OK or SKIP_NEXT, the channel goes on after it, passing over
one CCW after SKIP_NEXT; otherwise its program has ended, and its START is finished with the status of the result. -/
def CcwEnded (t u : State) (c : Nat) (r : CcwResult) (code : CcwCode) (moved : Nat) : Prop :=
  let x := t.chan c
  let y := u.chan c
  ∀ k, x.cur = some k →
    y.result = r ∧ y.code = code ∧ y.cur = none ∧ y.residual = BitVec.ofNat 32 (ccwCount k.bytes - moved) ∧
    (ccwFlag k.bytes 0 = true ∧ r ∈ [CcwResult.ok, .skipNext] → y.st = .active ∧ y.skip = (r == .skipNext) ∧
      y.ccw = k.address + BitVec.ofNat 64 (ccwLen k.bytes) ∧ y.cswSeq = x.cswSeq) ∧
    (¬ (ccwFlag k.bytes 0 = true ∧ r ∈ [CcwResult.ok, .skipNext]) → y.st = (if x.clearing then .idle else .ended) ∧
      y.startSlot = none ∧ y.cswSeq = x.cswSeq + 1 ∧
      ∀ n z, x.startSlot = some n → t.slot n = some z → z.phase = .running →
        ∃ r0, Finished u n (endStatus r code) r0 (ccwCount k.bytes - moved))

/-- The parts of the device. -/
inductive Part where
  | time | stage | queues | codec | compositor | channels | wick | switch | traffic | pools | dma | audit | icu | snuffer
  | power | nvs | updates | management | mailbox | host | dev | ecc | regs | rd | out | free
deriving DecidableEq, Repr

/-- Two states agree on a part. -/
def Part.same (p : Part) (s t : State) : Prop :=
  match p with
  | .time => t.time = s.time
  | .stage => t.stage = s.stage
  | .queues => t.qm = s.qm
  | .codec => t.codec = s.codec
  | .compositor => t.cmp = s.cmp
  | .channels => t.lmp = s.lmp
  | .wick => t.wick = s.wick
  | .switch => t.swc = s.swc
  | .traffic => t.trf = s.trf
  | .pools => t.pool = s.pool
  | .dma => t.dma = s.dma ∧ t.dmaReject = s.dmaReject
  | .audit => t.audit = s.audit
  | .icu => t.icu = s.icu
  | .snuffer => t.snuf = s.snuf
  | .power => t.pwr = s.pwr
  | .nvs => t.nvs = s.nvs
  | .updates => t.updates = s.updates
  | .management => t.mgmt = s.mgmt
  | .mailbox => t.mail = s.mail
  | .host => t.host = s.host
  | .dev => t.dev = s.dev
  | .ecc => t.poison = s.poison ∧ t.correctable = s.correctable
  | .regs => t.regs = s.regs
  | .rd => t.rd = s.rd
  | .out => t.out = s.out
  | .free => t.free = s.free

/-- From `s` to `t` only the listed parts change; the queue of waiting commands does not. -/
def OnlyIn (l : List Part) (s t : State) : Prop := t.pending = s.pending ∧ ∀ p, p ∉ l → p.same s t

/-- The core and the destination register of an instruction that computes one register from others (Tables 10-6, 10-7). -/
def aluTarget : Instr → Option (Fin 13 × Fin 32)
  | .add c rd _ _ | .sub c rd _ _ | .and c rd _ _ | .or c rd _ _ | .xor c rd _ _ | .nor c rd _ _ | .slt c rd _ _
  | .sltu c rd _ _ | .sll c rd _ _ | .srl c rd _ _ | .sra c rd _ _ | .mul c rd _ _ | .mulh c rd _ _ | .mulhu c rd _ _
  | .slli c rd _ _ | .srli c rd _ _ | .srai c rd _ _ | .clz c rd _ | .bswap c rd _ | .addi c rd _ _ | .andi c rd _ _
  | .ori c rd _ _ | .xori c rd _ _ | .slti c rd _ _ | .sltiu c rd _ _ | .lui c rd _ => some (c, rd)
  | _ => none

/-- The core of a kernel-only instruction (column K of Tables 10-7 and 10-8). -/
def kernelCore : Instr → Option (Fin 13)
  | .lseg c _ _ _ _ _ | .sseg c _ _ _ _ _ | .eret c | .wait c | .cinv c _ _ | .iinv c => some c
  | _ => none

/-- A plain store: its core, source register, base register, segment, displacement and width (Table 10-7). -/
def storeOf : Instr → Option (Fin 13 × Fin 32 × Fin 32 × Fin 8 × BitVec 13 × Nat)
  | .sb c rd rs g imm => some (c, rd, rs, g, imm, 1)
  | .sh c rd rs g imm => some (c, rd, rs, g, imm, 2)
  | .sw c rd rs g imm => some (c, rd, rs, g, imm, 4)
  | _ => none

end Sys2Proof.Machine
end

