-- ==== Sys2Proof/Certificates/Slice0/Obligations.lean ====
section
/-!
DEFINITION. Certificates/Slice0/Obligations.lean: the statements for the provers, chapter by chapter. Each docstring says in
words what its statement says and names the rules of the spec it formalises.
-/
open Sys2Proof Sys2Proof.Machine

/-! ### The queue, the reset and the whole machine -/

/-- A step runs the command at the front of the queue on the state with the queue's rest. On an empty queue one unit of time
passes and nothing but the time unit changes: that the block idles so is the model's choice (assumption 2). -/
def Obligations.StepTakesTheCommandAtTheFront : Prop :=
  (∀ (c : Instr) (rest : List Instr) (s : State), s.pending = c :: rest → step s = exec c { s with pending := rest }) ∧
  ∀ s : State, s.pending = [] → ∃ t, step s = .next t ∧ OnlyIn [.time] s t ∧ t.time.osc = s.time.osc + 1

/-- Right after the release of PORST_N the device is in BOOT at step 1 of a cold start, DTS and ERA are 0, no reference is
qualified, the stage is IDLE with PASS and no holder, no queue or ring exists, every codec core is in NO_MICROCODE, all four
Lamplighter cores are in service, every interrupt source is masked and none is pending, and no HALT is in force. The reset state
lists nothing in either memory, so that both are in canonical form, and no command waits. -/
def Obligations.ResetLeavesTheSpecsValues : Prop :=
  (let r := State.reset
  r.pwr.mode = .boot ∧ r.pwr.bootStep = 1 ∧ r.pwr.warm = false ∧ r.time.dts = 0 ∧ r.time.era = 0 ∧ r.time.selected = 0 ∧
  r.anyQualified = false ∧ r.time.holdover = false ∧ r.time.stepCnt = 0 ∧ r.clockQuality.1 = 248 ∧
  r.stage.st = .idle ∧ r.stage.code = .pass ∧ r.stage.holder = none ∧
  (∀ k, r.sq k = Sq.absent ∧ r.cq k = Cq.absent ∧ r.slot k = none) ∧ r.qm.orphans = 0 ∧
  (∀ c : Fin 8, r.codec.cores[c].st = .noMicrocode) ∧ r.codec.evictions = 0 ∧ r.lmp.cores = 0xF ∧
  (∀ c, (r.chan c).st = .free) ∧ (∀ n, n < 1024 → r.icu.mask.getLsbD n = true ∧ r.icu.pend.getLsbD n = false) ∧
  r.snuf.hist = [] ∧ r.snuf.first = none ∧ r.snuf.halt = none ∧ r.snuf.corrected = 0) ∧
  (State.reset.wf ∧ State.reset.pending = [] ∧ State.reset.host = [] ∧ State.reset.dev = [])

/-- THE INVARIANT OF EVERY STEP: the two byte memories stay in canonical form (addresses strictly rise, no listed byte is zero),
from every state, whatever command is at the front of the queue, and on an empty queue too. -/
def Obligations.EveryStepKeepsTheMemoriesCanonical : Prop :=
  ∀ s t : State, s.wf → step s = .next t → t.wf

/-- No command stops the device, and none touches the queue of waiting commands: `exec` answers a next state for every command
in every state, whose queue is the one before. So no run of any length, from any state, ends in a fault or a refusal. -/
def Obligations.NoCommandStopsTheDevice : Prop :=
  (∀ (c : Instr) (s : State), ∃ t, exec c s = .next t ∧ t.pending = s.pending) ∧ ∀ s : State, Safe s

/-! ### Staging: claim, stage, check, apply (chapter 1) -/

/-- The four SYS stage registers act on a write of 1 by the physical function or the Lantern core only (R33): any other write of
them changes nothing. A claim of the staging session is resolved by the order of precedence (R27, R19): without a holder it
opens a session with CODE PASS and no failing item; from the holder's own master, through the same route or another, it changes
nothing; from a master of lower precedence it is refused, the session stands as it is, and the conflict is recorded and raises
source 287; from a master of higher precedence it takes the session over, and nothing that was staged is left. -/
def Obligations.ClaimIsResolvedByPrecedence : Prop :=
  (∀ (m : Master) (v : Word) (s : State), (s.stageReach m && v.getLsbD 0) = false →
    exec (.sysStageClaim m v) s = .next s ∧ exec (.sysStageCheck m v) s = .next s ∧
    exec (.sysStageApply m v) s = .next s ∧ exec (.sysStageCancel m v) s = .next s) ∧
  (∀ (m : Master) (v : Word) (s : State), s.stageReach m = true → v.getLsbD 0 = true →
    ∃ t, exec (.sysStageClaim m v) s = .next t ∧
      (s.stage.holder = none → t = { s with stage := { s.stage with
        st := .opened, code := .pass, failAddr := 0, failItem := 0, holder := some (m, .reg), claimedAt := s.time.dts } }) ∧
      (∀ r, s.stage.holder = some (m, r) → t = s) ∧
      ∀ h r, s.stage.holder = some (h, r) → h ≠ m →
        (masterRank h < masterRank m →
          t.stage = { s.stage with winner := some h, loser := some m, conflictDts := s.time.dts } ∧
          (s.collectorRuns = true → t.icu.pend.getLsbD 287 = true) ∧ OnlyIn [.stage, .nvs, .icu, .out] s t) ∧
        (masterRank m < masterRank h →
          t.stage.st = .opened ∧ t.stage.code = .pass ∧ t.stage.holder = some (m, .reg) ∧ t.stage.regs = [] ∧
          t.stage.entries = [] ∧ t.stage.armed = none ∧ t.stage.failAddr = 0 ∧ t.stage.failItem = 0))

/-- A write to the staging view of a staged register through the register route (R18, R19, R490): without a holder it claims the
session, the holder's own write needs none; the staging view then holds the RW bits written, a check that ran or had ended is
void (OPEN), and no live register changes. While the change is ARMED, and at the view of an unstaged register, the write does
nothing. -/
def Obligations.StagingWritesHoldTheirValue : Prop :=
  ∀ (m : Master) (off : Nat) (v : Word) (s : State), masterDirect m = true → s.access m off = true →
    off % 65536 / 32768 = 1 → off < 0x800000 →
    (∀ r, stagedAt (off - 32768) = some r →
      (s.stage.holder = none ∨ (s.holds m .reg = true ∧ s.stage.st ≠ .armed)) →
        ∃ t, exec (.stagingWrite m off v) s = .next t ∧
          Table.get none t.stage.regs r.off = some (BitVec.ofNat 32 (v.toNat &&& r.rwMask)) ∧
          (∀ k, k ≠ r.off → Table.get none t.stage.regs k = Table.get none s.stage.regs k) ∧
          t.stage.holder = some (m, .reg) ∧ (s.stage.st ∈ [StageSt.checking, .checked, .failed, .opened] → t.stage.st = .opened) ∧
          t.regs = s.regs) ∧
    (s.holds m .reg = true → s.stage.st = .armed → exec (.stagingWrite m off v) s = .next s) ∧
    (stagedAt (off - 32768) = none → exec (.stagingWrite m off v) s = .next s)

/-- SYS_STAGE_CHECK of the holder starts a check in OPEN, CHECKED and FAILED, and does nothing in CHECKING or ARMED, or from a
master or route that holds no session (R490). When the check ends, the change is CHECKED with PASS where nothing fails, else
FAILED with the first failing item's code, register and entry, and with source 287 (R21, R30). SYS_STAGE_APPLY outside CHECKED
arms nothing and sets NOT_CHECKED, whoever writes it (R22). In CHECKED a write by another master or route than the holder's does
nothing (the model's choice, assumption 31), and the holder's arms the change: in DTS mode for the DTS of SYS_STAGE_AT, refused
with LATE where that is less than 10 µs away; in tick mode for the next tick of the group, or the one after it where the next is
less than 10 µs away, refused with RANGE where the group's EN is 0 (R23, R24). The resolved instant stands in SYS_STAGE_AT. The
session ends in CANCELLED when its holder writes SYS_STAGE_CANCEL, and in APPLIED with PASS when an armed DTS comes. No staged
value and no holder is left either way, and source 287 is raised (R19, R20, R30, R33). -/
def Obligations.CheckApplyAndCancelDriveTheSession : Prop :=
  ((∀ (m : Master) (v : Word) (s : State), s.stageReach m = true → v.getLsbD 0 = true →
    (s.holds m .reg = true → s.stage.st ∈ [StageSt.opened, .checked, .failed] →
      exec (.sysStageCheck m v) s = .next { s with stage := { s.stage with st := .checking, checkWaiter := none } }) ∧
    (s.stage.st ∈ [StageSt.checking, .armed] ∨ s.holds m .reg = false → exec (.sysStageCheck m v) s = .next s)) ∧
  ∀ s : State, s.live = true → s.stage.st = .checking → ∃ t, exec .stageCheckEnd s = .next t ∧
    (s.stageFail = none → t.stage.st = .checked ∧ t.stage.code = .pass) ∧
    (∀ f, s.stageFail = some f → t.stage.st = .failed ∧ t.stage.code = f.code ∧
      t.stage.failAddr = BitVec.ofNat 23 f.addr ∧ t.stage.failItem = BitVec.ofNat 16 f.item ∧
      t.icu.pend.getLsbD 287 = true) ∧
    t.stage.regs = s.stage.regs ∧ t.stage.holder = s.stage.holder ∧ t.regs = s.regs) ∧
  (∀ (m : Master) (v : Word) (s : State), s.stageReach m = true → v.getLsbD 0 = true →
    let g : Fin 4 := Fin.ofNat 4 (bits v.toNat 3 2)
    let at_ : DWord := BitVec.ofNat 64 (s.regOr 0 0x1010 + 2 ^ 32 * s.regOr 0 0x1014)
    let code (c : StageCode) : State := { s with stage := { s.stage with code := c } }
    (s.stage.st ≠ .checked → exec (.sysStageApply m v) s = .next (code .notChecked)) ∧
    (s.stage.st = .checked → s.holds m .reg = false → exec (.sysStageApply m v) s = .next s) ∧
    (s.holds m .reg = true → s.stage.st = .checked → v.getLsbD 1 = true → s.untilDts at_ < 160000 →
      exec (.sysStageApply m v) s = .next (code .late)) ∧
    (s.holds m .reg = true → s.stage.st = .checked → v.getLsbD 1 = false → s.groupEn g.val = false →
      exec (.sysStageApply m v) s = .next (code .range)) ∧
    (s.holds m .reg = true → s.stage.st = .checked → v.getLsbD 1 = true → 160000 ≤ s.untilDts at_ →
      ∃ t, exec (.sysStageApply m v) s = .next t ∧ t.stage = { s.stage with
          st := .armed, code := .pass, armed := some (.dts at_), applyWaiter := none } ∧
        t.regOr 0 0x1010 = at_.toNat % 2 ^ 32 ∧ t.regOr 0 0x1014 = at_.toNat / 2 ^ 32 ∧ OnlyIn [.stage, .regs] s t) ∧
    (s.holds m .reg = true → s.stage.st = .checked → v.getLsbD 1 = false → s.groupEn g.val = true →
      ∃ t k, exec (.sysStageApply m v) s = .next t ∧ t.stage = { s.stage with
          st := .armed, code := .pass, armed := some (.tick g k), applyWaiter := none } ∧
        (160000 ≤ s.tickTime g.val (s.nextTick g) - s.fullTime → k = s.nextTick g) ∧
        (s.tickTime g.val (s.nextTick g) - s.fullTime < 160000 → k = s.nextTick g + 1) ∧
        (t.regOr 0 0x1010 + 2 ^ 32 * t.regOr 0 0x1014 : Nat) = s.tickTime g.val k % 2 ^ 64 ∧ OnlyIn [.stage, .regs] s t)) ∧
  ((∀ (m : Master) (v : Word) (s : State), s.stageReach m = true → v.getLsbD 0 = true → s.holds m .reg = true →
    ∃ t, exec (.sysStageCancel m v) s = .next t ∧ t.stage.st = .cancelled ∧ t.stage.code = s.stage.code ∧
      t.stage.holder = none ∧ t.stage.armed = none ∧ t.stage.regs = [] ∧ t.stage.entries = [] ∧ t.regs = s.regs ∧
      (s.collectorRuns = true → t.icu.pend.getLsbD 287 = true)) ∧
  ∀ (d : DWord) (s : State), s.live = true → s.stage.armed = some (.dts d) →
    ∃ t, exec .stagedChangeApplyAtDts s = .next t ∧ t.stage.st = .applied ∧ t.stage.code = .pass ∧
      t.stage.holder = none ∧ t.stage.armed = none ∧ t.stage.regs = [] ∧ t.stage.entries = [] ∧
      t.icu.pend.getLsbD 287 = true)

/-! ### Registers (R9, R10, R18, R489) -/

/-- A plain RW register takes the RW bits of a write that keeps every field within its range, and no other register changes; a
write that would put a field outside its range is ignored as a whole (R489); a write to an offset that no table defines (R10),
to the live view of a staged register (R18) or by a master without access changes nothing. Of two masters' writes to one plain
register in one fabric cycle the Lantern core's stands (R29). The plain RW registers named are those of the time unit, the
staging instant and the watermarks. -/
def Obligations.RegisterWritesFollowTheirTable : Prop :=
  ∀ (m : Master) (off : Nat) (v : Word) (s : State), (∀ f : Fin 16, f ≠ 0 → m ≠ .fn f) →
    (s.access m off = false → exec (.registerWrite m off v) s = .next s) ∧
    (regFind off = none → bit off 15 = false → off < 0x200000 → exec (.registerWrite m off v) s = .next s) ∧
    (∀ r, regFind off = some r → r.spec.staged = true → bit off 15 = false → ¬ (0x200000 ≤ off ∧ off < 0x400000) →
      exec (.registerWrite m off v) s = .next s) ∧
    (∀ r, regFind off = some r → s.access m off = true →
      off ∈ [0x1010, 0x1014, 0x1002C, 0x10030, 0x10034, 0x10038, 0x100A0, 0x100A4, 0x80134] →
        let u := s.noteWrite m off
        let w := v.toNat &&& r.rwMask
        let t := u.setReg r.off (BitVec.ofNat 32 w)
        (m = .lantern ∨ s.lanternWrote off = false →
          exec (.registerWrite m off v) s = .next (if (t.regCheck r.spec.id r.i r.j w).isSome then u else t)) ∧
        (m ≠ .lantern → s.lanternWrote off = true → exec (.registerWrite m off v) s = .next s)) ∧
    (m ≠ .lantern → s.noteWrite m off = s) ∧
    (m = .lantern → plainRegister off = true → (s.noteWrite m off).lanternWrote off = true ∧
      OnlyIn [.stage] s (s.noteWrite m off))

/-! ### Device time, references and holdover (chapter 2) -/

/-- A read of TIME_DTS_LO returns DTS bits [31:0] and copies bits [63:32] into the shadow that TIME_DTS_HI then reads; nothing
else changes (R37). -/
def Obligations.DtsReadReturnsLowAndLatchesHigh : Prop :=
  ∀ s : State, s.bar0 0x10000 = true → ∃ t, exec .timeDtsLoRead s = .next t ∧
    t.rd.toNat = s.time.dts.toNat % 2 ^ 32 ∧ t.time = { s.time with hiShadow := (s.time.dts >>> 32).setWidth 32 } ∧
    (t.busRead .lantern 0x10004 false).1.toNat = s.time.dts.toNat / 2 ^ 32 ∧ OnlyIn [.time, .rd] s t

/-- TIME_SET_GO (R54): while any reference is qualified the write is ignored and SET_REJ is set, nothing else. Otherwise, outside
BOOT and PROVISION, the step to TIME_SET waits for its tick (R51): its offset is TIME_SET less DTS by their signed difference
(R36), STEP_PENDING raises source 23, and DTS itself is not changed. A write without GO, or by a master without access, does
nothing. -/
def Obligations.TimeSetStepsOrIsRejected : Prop :=
  ∀ (m : Master) (v : Word) (s : State),
    ((s.access m 0x100A8 && v.getLsbD 0) = false → exec (.timeSetGo m v) s = .next s) ∧
    (s.access m 0x100A8 = true → v.getLsbD 0 = true → s.anyQualified = true →
      exec (.timeSetGo m v) s = .next { s with time := { s.time with setRej := true } }) ∧
    (s.access m 0x100A8 = true → v.getLsbD 0 = true → s.anyQualified = false → s.pwr.mode ∉ [Mode.boot, .provision] →
      ∃ t p, exec (.timeSetGo m v) s = .next t ∧ t.time.step = some p ∧ p.cause = 1 ∧
        p.delta = (BitVec.ofNat 64 (s.regOr 0 0x100A0 + 2 ^ 32 * s.regOr 0 0x100A4) - s.time.dts).toInt ∧
        (p.needsNight = true ↔ bit (s.regOr 0x6405 0x10034) 17 = true ∧ s.pwr.mode ≠ .night) ∧
        t.time.dts = s.time.dts ∧ (s.collectorRuns = true → t.icu.pend.getLsbD 23 = true) ∧ OnlyIn [.time, .icu, .out] s t)

/-- A valid event of an enabled reference carries on its run of valid events, or opens one, and ends its loss (R42): an Announce
from the selected parent, whose clock quality and UTC offset are kept; an edge of CLK10M_IN; an edge of PPS_IN of the polarity
that marks the second, 1 s ± 10 µs after the last. An edge of PPS_IN at another distance from the last begins the run anew. A
reference whose loss time runs out is lost and no longer qualified, and its run is broken; PTP and PPS_IN are lost when three
announce intervals or 2 s have passed since their last valid event, CLK10M_IN at once; source 21 is raised (R42, Table 02-2,
Table 02-7). -/
def Obligations.ReferencesQualifyAndAreLost : Prop :=
  ((∀ (p : Fin 17) (a : Announce) (s : State), s.refsRun = true → s.refEn .ptp = true → s.ptpPort p.val = true →
    s.portUp p.val = true → ∃ t, exec (.announceReceived p a) s = .next t ∧
      t.time.ptp.lastEvent = some s.now ∧ t.time.ptp.lost = false ∧
      t.time.ptp.runStart = some (if s.overdue .ptp then s.now else s.time.ptp.runStart.getD s.now) ∧
      t.time.gmClass = a.clockClass ∧ t.time.gmAccuracy = a.clockAccuracy ∧ t.time.gmSource = a.timeSource ∧
      t.time.utc.toNat % 2 ^ 16 = a.utcOffset.toNat ∧ Table.get .listening t.time.ptpPorts p.val = .slave ∧
      t.time.dts = s.time.dts ∧ OnlyIn [.time, .icu, .out] s t) ∧
  (∀ s : State, s.refsRun = true → s.refEn .clk10m = true → ∃ t, exec .clk10mInEdge s = .next t ∧
      t.time.clk10m.lastEvent = some s.now ∧ t.time.clk10m.lost = false ∧
      t.time.clk10m.runStart = some (if s.overdue .clk10m then s.now else s.time.clk10m.runStart.getD s.now) ∧
      t.time.dts = s.time.dts ∧ OnlyIn [.time, .icu, .out] s t) ∧
  ∀ (rising : Bool) (s : State), s.refsRun = true → s.refEn .pps = true → rising = !bit (s.regOr 0 0x10020) 3 →
    s.time.pps.qualified = false → ∃ t, exec (.ppsInEdge rising) s = .next t ∧
      t.time.pps.lastEvent = some s.now ∧ t.time.pps.lost = false ∧
      (∀ e, s.time.pps.lastEvent = some e → e ≤ s.now →
        (s.now - e < 15999840000 ∨ 16000160000 < s.now - e) → t.time.pps.runStart = some s.now) ∧
      (∀ e, s.time.pps.lastEvent = some e → 15999840000 ≤ s.now - e → s.now - e ≤ 16000160000 → s.time.pps.lost = false →
        t.time.pps.runStart = some (s.time.pps.runStart.getD s.now)) ∧
      t.time.dts = s.time.dts ∧ OnlyIn [.time, .icu, .out] s t) ∧
  (∀ (r : TimeRef) (s : State), s.refsRun = true → s.refEn r = true → (s.ref r).lost = false →
    ∃ t, exec (.referenceLost r) s = .next t ∧ (t.ref r).lost = true ∧ (t.ref r).qualified = false ∧
      (t.ref r).runStart = none ∧ (t.ref r).lastEvent = (s.ref r).lastEvent ∧
      (r = .ptp → t.now = max s.now (s.time.ptp.lastValid + 3 * s.announceInterval)) ∧
      (r = .pps → t.now = max s.now (s.time.pps.lastValid + 32000000000)) ∧ (r = .clk10m → t.now = s.now) ∧
      (s.collectorRuns = true → t.icu.pend.getLsbD 21 = true) ∧ OnlyIn [.time, .icu, .out] s t)

/-- A reference qualifies at QUAL seconds after the later of its enabling and the start of its run (R42); PTP needs a slave port
that has heard a valid Sync (Table 02-2; that QUAL counts from the run's start is the model's choice, assumption 33). PTP is the
best reference: where its offset is no more than 1 ms the servo slews DTS by it, and HOLDOVER clears where it is below 1 µs; a
larger offset makes a step that waits for its tick, outside BOOT and PROVISION (R50, R51). While a step waits the phase is left
alone (R51). PPS_OUT pulses at a second boundary of DTS, after the last one, for the width of TIME_PPS_OUT (R43, R54). A port in
MASTER state sends its Announce and Sync with the clock quality then advertised: with PPS_IN in use clockClass 6, clockAccuracy
0x21 and timeSource 0x90 (R39, R493); a port that hears no parent becomes MASTER as its announce interval runs out. A one-step
Sync carries as originTimestamp and correctionField the instant at which it leaves, DTS with TX_LAT added, and a frame check
sequence over the whole (R40, R41). -/
def Obligations.PtpFollowsAndPpsOutShowsTheTime : Prop :=
  (∀ (delta : Int) (adj : Word) (s : State) (start : Nat), s.refsRun = true → s.refEn .ptp = true →
    s.time.ptp.qualified = false → s.time.ptp.lost = false → s.time.ptp.runStart = some start →
    s.time.ptpPorts.any (fun e => e.2 == .slave) = true → s.time.ptpSync.isSome = true →
    let due := max (s.time.ptp.enabledAt.getD 0) start + second * bits (s.regOr 0x6405 0x10034) 7 0
    due ≤ s.time.ptp.lastValid + 3 * s.announceInterval →
    (delta.natAbs ≤ 16000000 ∨ s.pwr.mode ∉ [Mode.boot, .provision]) →
    ∃ t, exec (.referenceQualified .ptp delta adj) s = .next t ∧ t.time.ptp.qualified = true ∧ t.time.selected = 1 ∧
      t.time.traceable = true ∧ t.time.freqAdj = adj ∧ t.time.offset = delta ∧ t.now = max s.now due ∧
      (s.time.step = none → delta.natAbs ≤ 16000000 → t.time.step = none ∧ t.time.slewLeft = delta) ∧
      (s.time.step = none → delta.natAbs < 16000 → t.time.holdover = false) ∧
      (s.time.step = none → 16000000 < delta.natAbs →
        t.time.holdover = s.time.holdover ∧ ∃ p, t.time.step = some p ∧ p.delta = delta) ∧
      (s.time.step.isSome = true → t.time.step = s.time.step ∧ t.time.holdover = s.time.holdover)) ∧
  ((∀ s : State, s.ppsRuns = true → ∃ t, exec .ppsOutPulse s = .next t ∧ t.out = .ppsOut t.time.dts :: s.out ∧
    t.time.ppsHigh = some (t.now + 16000 * s.regOr 100000 0x10038) ∧ s.time.ppsSecond < t.time.ppsSecond ∧
    s.fullTime ≤ second * t.time.ppsSecond ∧
    ((-2 : Int) ^ 79 ≤ s.fullTime → second * t.time.ppsSecond < (2 : Int) ^ 79 → t.fullTime = second * t.time.ppsSecond) ∧
    OnlyIn [.time, .out] s t) ∧
  ∀ (p : Fin 17) (k : Fin 3) (s : State), k ≠ 2 → s.refsRun = true → s.ptpPort p.val = true → s.portUp p.val = true →
    (Table.get .listening s.time.ptpPorts p.val = .master ∨ (k = 0 ∧ Table.get .listening s.time.ptpPorts p.val = .listening)) →
    ∃ t acc, exec (.ptpIntervalExpiry p k) s = .next t ∧ Table.get .listening t.time.ptpPorts p.val = .master ∧
      (∀ a, s.clockQuality.2.1 = some a → acc = a) ∧
      (∃ l, t.out = .ptp p.val k.val s.clockQuality.1 acc s.clockQuality.2.2 :: l ∧ s.out <:+ l ∧
        (k = 1 → s.twoStep = false → bits s.ptpCfg 6 5 = 0 →
          let at_ := s.fullTime + ((s.portLat p.val).1 : Nat)
          ∃ bs, l = .frame p.val (bs ++ fcsOf bs) (s.time.dts + BitVec.ofNat 64 (s.portLat p.val).1) :: s.out ∧
            etherType bs = 0x88F7 ∧ fieldBe bs 14 1 % 16 = 0 ∧ fieldBe bs 18 1 = bits s.ptpCfg 15 8 ∧
            fieldBe bs 22 8 = (at_ % 16).toNat * 4096 ∧
            (fieldBe bs 48 6 : Int) = at_ / 16000000000 % 2 ^ 48 ∧ (fieldBe bs 54 4 : Int) = at_ % 16000000000 / 16)) ∧
      (s.time.traceable = true → s.time.holdover = false → (s.time.selected = 2 ∨ s.time.selected = 3) →
        t.out.head? = some (.ptp p.val k.val 6 0x21 0x90)) ∧ OnlyIn [.time, .out, .free] s t)

/-- HOLDOVER is set once every enabled reference is lost, three announce intervals after the last valid event of any of them at
the earliest, and raises source 20; the frequency correction stays as it is (R43). Once the holdover time passes TIME_HO_SPEC, a
device that has had a PTP or PPS_IN reference advertises clockClass 52, clockAccuracy 0xFE and timeSource 0xA0 where it
advertised clockClass 7 and timeSource 0xA0 before, or 248, 0xFE and 0xA0 under 802.1AS both times (R43, Table 02-3). A slew
that is done ends HOLDOVER where a reference is qualified, and raises source 22 (R50, Table 02-7). -/
def Obligations.HoldoverBeginsAgesAndEnds : Prop :=
  (∀ s : State, s.refsRun = true → s.time.holdover = false → allRefs.any s.refEn = true →
    (∀ r, s.refEn r = true → (s.ref r).lost = true) →
    ∃ t, exec .holdoverSet s = .next t ∧ t.time.holdover = true ∧ t.time.holdoverAt = t.now ∧
      (∀ r, s.refEn r = true → (s.ref r).lastValid + 3 * s.announceInterval ≤ t.now) ∧
      (t.now = s.now ∨ ∃ r, s.refEn r = true ∧ t.now = (s.ref r).lastValid + 3 * s.announceInterval) ∧
      t.time.freqAdj = s.time.freqAdj ∧ (s.collectorRuns = true → t.icu.pend.getLsbD 20 = true) ∧
      OnlyIn [.time, .icu, .out] s t) ∧
  ((∀ s : State, s.refsRun = true → s.time.holdover = true → s.time.hoSpecPassed = false → s.time.traceable = true →
    ∃ t, exec .hoSpecExpired s = .next t ∧ s.time.holdoverAt + second * s.regOr 600 0x10030 < t.now ∧
      (bits s.ptpCfg 1 0 ≠ 1 → s.clockQuality = (7, none, 0xA0) ∧ t.clockQuality = (52, some 0xFE, 0xA0)) ∧
      (bits s.ptpCfg 1 0 = 1 → s.clockQuality = (248, some 0xFE, 0xA0) ∧ t.clockQuality = (248, some 0xFE, 0xA0)) ∧
      t.time.holdover = true ∧ OnlyIn [.time] s t) ∧
  ∀ s : State, s.time.slewing = true → s.timeKept = true → ∃ t, exec .slewDone s = .next t ∧ t.time.slewing = false ∧
    (s.anyQualified = true → t.time.holdover = false) ∧ (s.anyQualified = false → t.time.holdover = s.time.holdover) ∧
    (s.collectorRuns = true → t.icu.pend.getLsbD 22 = true) ∧ OnlyIn [.time, .icu, .out] s t)

/-! ### Rings and doorbells (chapter 3) -/

/-- A submission doorbell of a queue that exists sets its tail, and with INVALIDATE drops the queue's cached entries, or records
that where the queue is FROZEN (R69, R72, R88); a write that names no queue, sets reserved bits or gives a tail at or beyond the
ring's size is ignored, counted in QMGR_DB_ERR and raises source 289 (R70); a queue in DRAINING, or beyond a virtual function's
1,023, takes none. Where TEST_DB delays the function's doorbells, this comes about that many microseconds later, at most 1,000
(R430). A completion doorbell within the ring sets its head and frees every command slot whose posted completion lies between
the old head and the new one; a head equal to the tail ends the count towards the next message; the ring stays as it is
otherwise (R69, R80, R82). A read of QMGR_DB_ERR returns the count of bad doorbells with the last one's function and kind, and
clears it (R70). -/
def Obligations.DoorbellsMoveTailsAndFreeSlots : Prop :=
  (∀ (f : Fin 16) (q : Fin 4096) (v : Word) (s : State),
    let k := qKey f.val q.val
    let x := s.sq k
    let n := v.toNat % 2 ^ 16
    let late := bits (s.regOr 0 0x400060) 25 16
    let u := s.bellArrives f
    (bit (s.regOr 0 0x400060) f = false ∨ late = 0 → u = s) ∧
    (bit (s.regOr 0 0x400060) f = true → late ≠ 0 → u.now = s.now + 16000 * min 1000 late ∧ OnlyIn [.time] s u) ∧
    (f ≠ 0 → 1024 ≤ q.val → exec (.submissionDoorbell f q v) s = .next s) ∧
    ((f = 0 ∨ q.val < 1024) → x.state = .draining → exec (.submissionDoorbell f q v) s = .next u) ∧
    ((f = 0 ∨ q.val < 1024) → s.qmRuns = true → x.state ≠ .draining →
      (x.state = .absent ∨ 2 ^ 17 ≤ v.toNat ∨ x.size ≤ n) → ∃ t, exec (.submissionDoorbell f q v) s = .next t ∧
        t.qm = { s.qm with
          dbErr := satInc 0xFFFF s.qm.dbErr, dbErrFn := f.val, dbErrCq := false, dbErrQ := q.val } ∧
        (s.collectorRuns = true → t.icu.pend.getLsbD 289 = true) ∧ OnlyIn [.queues, .icu, .out] u t) ∧
    ((f = 0 ∨ q.val < 1024) → s.qmRuns = true → x.state ≠ .draining → x.state ≠ .absent → v.toNat < 2 ^ 17 → n < x.size →
      (n + x.size - x.tail) % x.size ≤ (x.head + x.size - 1 - x.tail) % x.size →
      exec (.submissionDoorbell f q v) s = .next (u.setSq k { x with
        tail := n
        cache := if v.getLsbD 16 && x.state != .frozen then [] else x.cache
        invalidate := x.invalidate || (v.getLsbD 16 && x.state == .frozen) }))) ∧
  ((∀ (f : Fin 16) (c : Fin 4096) (v : Word) (s : State), (f = 0 ∨ c.val < 1024) → s.qmRuns = true →
    let k := qKey f.val c.val
    let r := s.cq k
    let h := v.toNat
    let step := (h + r.size - r.head) % r.size
    r.state ∈ [QState.active, .error, .frozen] → h < 2 ^ 16 → h < r.size → step ≤ (r.tail + r.size - r.head) % r.size →
    ∃ t, exec (.completionDoorbell f c v) s = .next t ∧ (t.cq k).head = h ∧ (t.cq k).tail = r.tail ∧
      (t.cq k).phase = r.phase ∧ (t.cq k).base = r.base ∧ (h = r.tail → (t.cq k).unsignalled = 0 ∧ (t.cq k).oldestAt = none) ∧
      (∀ n x, s.slot n = some x → x.fn = f.val → x.cq = c.val → x.phase = .posted →
        (x.ringPos + r.size - r.head) % r.size < step → t.slot n = none) ∧
      OnlyIn [.queues, .icu, .out] (s.bellArrives f) t) ∧
  ∀ s : State, s.bar0 0x20030 = true → s.qm.dbErrFn < 16 → s.qm.dbErr < 2 ^ 16 → ∃ t, exec .qmgrDbErrRead s = .next t ∧
    t.rd.toNat = s.qm.dbErr + 2 ^ 16 * s.qm.dbErrFn + (if s.qm.dbErrCq then 2 ^ 20 else 0) ∧ t.qm = { s.qm with dbErr := 0 } ∧
    OnlyIn [.queues, .rd] s t)

/-- A read of submission entries that returns a whole entry puts it at the end of the queue's cache; one that returns PAD slots
moves the head past them (R66, R71). A failed read, or the second completion timeout in a row, sets the queue to ERROR, drops
its cached entries and raises source 290; the first completion timeout is only retried (R93). The arbiter's dispatch accepts the
first cached entry of the queue it chose (R67, R73, R74): a free slot takes the entry with its CID and the queue's sequence
number, which goes up by one. A good entry waits for firmware; one whose header an early check denies is finished with that
check's status; one with a header fault is finished with INVALID_FIELD and sets its queue to ERROR with an empty cache (R68). A
completion is posted at its ring's tail (R77 to R80): its 32 bytes stand at the tail's place in host memory with the ring's
PHASE, the tail moves on by one, and PHASE flips as it wraps. The slot is kept until the host's head passes it. A re-post writes
the same bytes at the same place; a re-post that fails freezes the ring and raises source 290 (R93). AGG_TIME after the oldest
unsignalled completion the ring's message is sent (R82). -/
def Obligations.EntriesAreFetchedDispatchedAndCompleted : Prop :=
  (∀ (f : Fin 16) (q : Fin 4096) (s : State), s.mayFetch f.val q.val = true →
    let k := qKey f.val q.val
    let x := s.sq k
    let p := x.fetchPos
    (∀ bytes : List Byte, let len := fieldLe bytes 2 2
      1 ≤ len → len ≤ 16 → p + len ≤ x.size → len ≤ (x.tail + x.size - p) % x.size → bytes.length = 16 * len →
      (fieldLe bytes 0 1 ≠ 0 → (∀ e ∈ x.cache, e.pad = false) → exec (.entryFetched f q (.data bytes)) s = .next (s.setSq k { x with
        cache := x.cache ++ [⟨p, len, bytes, false, false, false⟩], retried := false })) ∧
      (fieldLe bytes 0 1 = 0 → x.cache = [] → exec (.entryFetched f q (.data bytes)) s = .next (s.setSq k { x with
        head := (p + len) % x.size, cache := [], retried := false }))) ∧
    (∃ t, exec (.entryFetched f q .failed) s = .next t ∧ t.sq k = { x with state := .error, cache := [], retried := false } ∧
      (s.collectorRuns = true → t.icu.pend.getLsbD 290 = true) ∧ OnlyIn [.queues, .icu, .out] s t) ∧
    (x.retried = true → ∃ t, exec (.fetchCompletionTimeout f q) s = .next t ∧
      t.sq k = { x with state := .error, cache := [], retried := false } ∧
      (s.collectorRuns = true → t.icu.pend.getLsbD 290 = true) ∧ OnlyIn [.queues, .icu, .out] s t) ∧
    (x.retried = false → ∃ t, exec (.fetchCompletionTimeout f q) s = .next t ∧ t.sq k = { x with retried := true } ∧
      t.out = .aer 1 :: s.out ∧ OnlyIn [.queues, .out] s t)) ∧
  (∀ (s : State) (k : Nat) (a : Arb) (e : Cached) (rest : List Cached), s.arbNext s.qm.arb 8 = some (k, a) →
    (s.sq k).cache = e :: rest → (s.sq k).state ≠ .absent → e.poisoned = false → s.qm.slots.wf none = true →
    ∃ t n y, exec .entryDispatch s = .next t ∧ s.slot n = none ∧ t.slot n = some y ∧ y.fn = keyFn k ∧ y.sq = k % 4096 ∧
      y.cq = (s.sq k).cq ∧ y.cid = BitVec.ofNat 32 (fieldLe e.bytes 4 4) ∧ y.seq = (s.sq k).seq ∧ y.bytes = e.bytes ∧
      (t.sq k).seq = (s.sq k).seq + 1 ∧
      (e.fault = false → s.entryDeny (keyFn k) (k % 4096) e.bytes = none → y.phase = .accepted ∧ (t.sq k).state = (s.sq k).state) ∧
      (∀ d, e.fault = false → s.entryDeny (keyFn k) (k % 4096) e.bytes = some d → y.phase = .finished ∧ y.completion.status = d.st) ∧
      (e.fault = true → y.phase = .finished ∧ y.completion.status = .invalidField ∧ (t.sq k).state = .error ∧ (t.sq k).cache = [])) ∧
  (∀ (f : Fin 16) (c : Fin 4096) (s : State), s.qmRuns = true → s.qm.resetting.getLsbD f.val = false →
    let k := qKey f.val c.val
    let r := s.cq k
    (∀ n x, r.state ∈ [QState.active, .frozen] → r.writeFrozen = false → s.qm.linkUp = true → r.isFull = false → r.repost = [] →
      s.nextPost f.val c.val = some (n, x) → ∃ t y, exec (.completionPost f c true) s = .next t ∧ t.slot n = some y ∧
        y.phase = .posted ∧ y.completion = x.completion ∧ y.ringPos = r.tail ∧ y.ringPhase = r.phase ∧
        y.sqHead = (s.sq (qKey f.val x.sq)).head ∧ t.host = s.host.setBytes (r.base + 32 * r.tail) (completionBytes y) ∧
        (t.cq k).tail = (r.tail + 1) % r.size ∧ (t.cq k).phase = (if (r.tail + 1) % r.size = 0 then !r.phase else r.phase) ∧
        (t.cq k).head = r.head) ∧
    (∀ n l x, r.repost = n :: l → s.qm.linkUp = true → s.slot n = some x → ∃ t, exec (.completionRepost f c true) s = .next t ∧
      t.host = s.host.setBytes (r.base + 32 * x.ringPos) (completionBytes x) ∧ (t.cq k).repost = l ∧
      (∃ y, t.slot n = some y ∧ y.written = true) ∧ OnlyIn [.time, .queues, .audit, .host, .out] s t) ∧
    (r.repost ≠ [] → s.qm.linkUp = true → ∃ t, exec (.completionRepost f c false) s = .next t ∧
      (t.cq k).state = .frozen ∧ (t.cq k).writeFrozen = true ∧ (s.collectorRuns = true → t.icu.pend.getLsbD 290 = true) ∧
      OnlyIn [.time, .queues, .icu, .out] s t) ∧
    ∀ d, r.oldestAt = some d → r.aggTime ≠ 0 → ∃ t, exec (.aggTimeExpiry f c) s = .next t ∧
      t.out = .msix f.val r.vector :: s.out ∧ t.now = max s.now (d + 16000 * r.aggTime) ∧
      t.cq k = { r with unsignalled := 0, oldestAt := none } ∧ OnlyIn [.time, .queues, .out] s t)

/-! ### The link, heartbeats and host loss (chapter 3) -/

/-- Host loss is declared when the link goes down, PERST# is asserted or the physical function's heartbeat timeout passes (R87,
R474): every ACTIVE queue and ring becomes FROZEN, and the device moves from SERVICE, NIGHT or LIMITED to CONTINUITY (R88); in
PROVISION, STANDBY, UPDATE and TEST the mode stays. A link that trains to an allowed width and a rate is up (R474). A heartbeat
of the physical function starts its timeout anew (R87). A handover written while host loss stands waits for the next tick of
group A; with no host loss it is ignored (R283). A virtual function that misses its heartbeat has its own queues frozen and no
others, its QMGR_FN_LOST bit set and source 288 raised, and the mode stays; its next heartbeat makes them ACTIVE again with
empty entry caches, unless host loss holds them (R89, R90). -/
def Obligations.HostsAreLostAndHandedOver : Prop :=
  (∀ s : State, s.live = true → s.qm.hostLost = false →
    (s.qm.linkUp = true → ∃ t, exec .pcieLinkDown s = .next t ∧ t.qm.linkUp = false ∧ HostLossFrom s t) ∧
    (∃ t, exec .pciePerstNAssert s = .next t ∧ t.pwr.perstN = false ∧ t.qm.linkUp = false ∧ HostLossFrom s t) ∧
    (s.hbTime 0 ≠ 0 → ∃ t, exec .heartbeatTimeout s = .next t ∧ s.lastBeat 0 + s.hbTime 0 ≤ t.now ∧ HostLossFrom s t)) ∧
  ((∀ (w : Fin 17) (r : Fin 6) (s : State), s.pcieUp = true → s.pwr.perstN = true → s.pwr.clocksLost.getLsbD 3 = false →
    w.val ∈ [4, 8, 16] → w.val ≤ s.strapWidth → 1 ≤ r.val → exec (.pcieLinkUp w r) s =
      .next { s with qm := { s.qm with linkUp := true, linkWidth := w.val, linkSpeed := r.val } }) ∧
  (∀ (m : Master) (v : Word) (s : State), s.access m 0x20020 = true → s.live = true → ∃ t,
    exec (.qmgrHeartbeat m v) s = .next t ∧ t.lastBeat 0 = s.now ∧ (∀ f, f ≠ 0 → t.lastBeat f = s.lastBeat f) ∧
    t.sq = s.sq ∧ OnlyIn [.queues] s t) ∧
  ∀ (m : Master) (v : Word) (s : State), s.access m 0xE0004 = true → s.live = true →
    (s.qm.hostLost = true → v.toNat % 4 = 1 →
      exec (.handoverResume m v) s = .next { s with lmp := { s.lmp with handover := some false } }) ∧
    (s.qm.hostLost = true → v.toNat % 4 = 2 →
      exec (.handoverReset m v) s = .next { s with lmp := { s.lmp with handover := some true } }) ∧
    (s.qm.hostLost = false → exec (.handoverResume m v) s = .next s ∧ exec (.handoverReset m v) s = .next s)) ∧
  (∀ (f : Fin 16) (s : State), f ≠ 0 → s.live = true →
    (s.hbTime f.val ≠ 0 → s.qm.vfLost.getLsbD f.val = false → ∃ t, exec (.vfHeartbeatTimeout f) s = .next t ∧
      t.qm.fnLost.getLsbD f.val = true ∧ t.qm.vfLost.getLsbD f.val = true ∧
      (∀ k, keyFn k = f.val → (s.sq k).state = .active → t.sq k = { s.sq k with state := .frozen }) ∧
      (∀ k, keyFn k = f.val → (s.cq k).state = .active → t.cq k = { s.cq k with state := .frozen }) ∧
      (∀ k, keyFn k ≠ f.val → t.sq k = s.sq k ∧ t.cq k = s.cq k) ∧
      (s.collectorRuns = true → t.icu.pend.getLsbD 288 = true) ∧ OnlyIn [.time, .queues, .icu, .out] s t) ∧
    ∀ v, s.bar0 0x20000 = true → s.qm.vfLost.getLsbD f.val = true → ∃ t, exec (.vfHeartbeat f v) s = .next t ∧
      t.lastBeat f.val = s.now ∧ t.qm.vfLost.getLsbD f.val = false ∧
      (s.qm.hostLost = false → ∀ k, keyFn k = f.val → (s.sq k).state = .frozen →
        t.sq k = { s.sq k with state := .active, cache := [], invalidate := false }) ∧
      (s.qm.hostLost = true → t.sq = s.sq ∧ t.cq = s.cq) ∧ (∀ k, keyFn k ≠ f.val → t.sq k = s.sq k ∧ t.cq k = s.cq k) ∧
      OnlyIn [.queues] s t)

/-- Setting the admin EN of a function creates its admin queue and ring at their bases with their sizes, unless a base or size
is illegal, which sets AQ_ERR; the queue then becomes ready (R94). Clearing EN, and a Function Level Reset, clear EN, AQ_ERR and
the function's overrun count, and leave every queue of the function DRAINING or ABSENT (R49, R85, R94). CREATE_CQ and CREATE_SQ
make an ACTIVE ring or queue with the fields of the command, and no other ring or queue changes (R109, R110). DELETE_CQ leaves
the ring ABSENT and frees the slots whose completions were posted to it (R111). DELETE_SQ drops the queue's cached entries and
aborts its entries not yet carried out; the queue is ABSENT, and the command finished with the head, once every completion has
been posted, and DRAINING before that (R84, R111). -/
def Obligations.QueuesAndRingsAreCreatedAndDeleted : Prop :=
  (∀ (f : Fin 16) (s : State), s.qmRuns = true →
    (s.bar0 0x20000 = true → s.aqEn f.val = false → ∃ t, exec (.adminQueueEnable f) s = .next t ∧ t.aqEn f.val = true ∧
      (s.aqIllegal f.val = true → t.qm.aqErr.getLsbD f.val = true ∧ t.sq = s.sq) ∧
      (s.aqIllegal f.val = false → s.qm.resetting.getLsbD f.val = false → (s.sq (qKey f.val 0)).state = .absent →
        t.sq (qKey f.val 0) = { Sq.absent with state := .active, base := s.asq f.val, size := s.aqSqN f.val + 1 } ∧
        t.cq (qKey f.val 0) = { Cq.absent with state := .active, base := s.acq f.val, size := s.aqCqM f.val + 1 }) ∧
      OnlyIn [.queues, .regs] s t) ∧
    (s.qm.aqPending.getLsbD f.val = true → s.qm.resetting.getLsbD f.val = false → ∃ t, exec (.adminQueueReady f) s = .next t ∧
      t.qm.rdy.getLsbD f.val = true ∧ t.qm.aqPending.getLsbD f.val = false ∧ OnlyIn [.queues] s t) ∧
    (s.bar0 0x20000 = true → s.aqEn f.val = true → ∃ t, exec (.adminQueueDisable f) s = .next t ∧ FunctionReset f.val t) ∧
    ∃ t, exec (.functionLevelReset f) s = .next t ∧ FunctionReset f.val t) ∧
  ((∀ (n : Fin 4096) (s : State) (x : Slot), s.ready n.val 0x02 = some x → Passes (s.createRingChecks x) →
    ∃ t, exec (.createCq n) s = .next t ∧ Finished t n.val .ok 0 0 ∧ OnlyIn [.queues] s t ∧ t.sq = s.sq ∧
      let k := qKey (x.field 34 1) (x.field 24 2)
      t.cq k = { Cq.absent with
        state := .active, base := x.field 16 8, size := x.field 26 2 + 1, vector := x.field 28 2, aggCount := x.field 30 1
        aggTime := x.field 32 2 } ∧ ∀ j, j ≠ k → t.cq j = s.cq j) ∧
  (∀ (n : Fin 4096) (s : State) (x : Slot), s.ready n.val 0x04 = some x → Passes (s.createQueueChecks x) →
    ∃ t, exec (.createSq n) s = .next t ∧ Finished t n.val .ok 0 0 ∧ OnlyIn [.queues] s t ∧ t.cq = s.cq ∧
      let k := qKey (x.field 32 1) (x.field 24 2)
      t.sq k = { Sq.absent with
        state := .active, base := x.field 16 8, size := x.field 26 2 + 1, cq := x.field 28 2, weight := x.field 30 1
        burst := x.field 31 1, ordered := bit (x.field 33 1) 0 } ∧ ∀ j, j ≠ k → t.sq j = s.sq j) ∧
  (∀ (n : Fin 4096) (s : State) (x : Slot), s.ready n.val 0x03 = some x → Passes (s.deleteRingChecks x) →
    ∃ t, exec (.deleteCq n) s = .next t ∧ OnlyIn [.queues, .icu, .out] s t ∧ t.sq = s.sq ∧
      let k := qKey (x.field 18 1) (x.field 16 2)
      t.cq k = Cq.absent ∧ (∀ j, j ≠ k → t.cq j = s.cq j) ∧
      (∀ m y, s.slot m = some y → y.fn = x.field 18 1 → y.cq = x.field 16 2 → y.phase = .posted → t.slot m = none) ∧
      ((∀ e ∈ s.slotList, e.1 = n.val → e.2.phase ≠ .posted) → Finished t n.val .ok 0 0)) ∧
  ∀ (n : Fin 4096) (s : State) (x : Slot), s.ready n.val 0x05 = some x → Passes (s.deleteQueueChecks x) →
    let k := qKey (x.field 18 1) (x.field 16 2)
    let l := s.openEntries (x.field 18 1) (x.field 16 2)
    n.val ∉ s.unposted k → (∀ m ∈ l, ∃ y, s.slot m = some y ∧ y.phase = .accepted) →
    ∃ t, exec (.deleteSq n) s = .next t ∧ OnlyIn [.queues] s t ∧ (t.sq k).cache = [] ∧ (∀ j, j ≠ k → t.sq j = s.sq j) ∧
      (∀ m ∈ l, ∃ y, t.slot m = some y ∧ y.phase = .finished ∧ y.completion.status = .aborted) ∧
      (s.unposted k = [] → (t.sq k).state = .absent ∧ Finished t n.val .ok (s.sq k).head 0) ∧
      (s.unposted k ≠ [] → (t.sq k).state = .draining))

/-! ### The commands of the admin queues (chapter 4) -/

/-- IDENTIFY writes the device or the function identify structure to host memory (R108). GET_FEATURE returns the feature's value
in its two result words (R112). STAGE STATUS returns SYS_STAGE_STATUS (R114). LOG_READ copies records of the event log that fit,
of the caller's function only unless it is the physical function, and returns their number and the sequence number to go on with
(R118). An IDENTIFY that a check denies finishes with that check's status, and nothing else changes. SET_FEATURE QUEUE_ARB sets
the weight and burst of a queue and nothing else of it; COMPLETION_AGG sets what a ring's aggregation becomes at its next posted
completion, unless a recent order of a master of higher precedence contradicts it, which finishes it with CONFLICT and no effect
(R112, R28). SET_SHARES sets a function's decode and encode shares (R113). -/
def Obligations.ReportsAndSettingsByCommand : Prop :=
  ((∀ (n : Fin 4096) (s : State) (x : Slot), s.ready n.val 0x01 = some x →
    (Passes (identifyChecks x) → ∃ t, exec (.identify n) s = .next t ∧ Finished t n.val .ok 0 0 ∧
      t.host = s.host.setBytes (x.field 24 8) (if x.field 16 1 = 0 then s.deviceIdentity else s.functionIdentity x.fn) ∧
      OnlyIn [.queues, .host] s t) ∧
    ∀ d, firstDeny (identifyChecks x) = some d → ∃ t, exec (.identify n) s = .next t ∧ Finished t n.val d.st 0 0 ∧
      OnlyIn [.queues] s t) ∧
  (∀ (n : Fin 4096) (s : State) (x : Slot), s.ready n.val 0x06 = some x → Passes (s.featureChecks x) →
    ∃ t, exec (.getFeature n) s = .next t ∧ OnlyIn [.queues] s t ∧
      let v := s.featureValue (x.field 16 1) (x.field 17 1) (x.field 18 2)
      Finished t n.val .ok (v % 2 ^ 32) (v / 2 ^ 32 % 2 ^ 32)) ∧
  (∀ (n : Fin 4096) (s : State) (x : Slot), s.ready n.val 0x09 = some x → x.field 16 1 = 5 →
    Passes (stageStatusChecks x ++ [x.noHandle]) → ∃ t, exec (.stageStatus n) s = .next t ∧
      Finished t n.val .ok (s.sysField .sysStageStatus) 0 ∧ OnlyIn [.queues] s t) ∧
  ∀ (n : Fin 4096) (s : State) (x : Slot), s.ready n.val 0x0C = some x → Passes (logReadChecks x) →
    ∃ (t : State) (l : List LogRec) (next : Nat), exec (.logRead n) s = .next t ∧ Finished t n.val .ok l.length next ∧
      t.host = s.host.setBytes (x.field 16 8) (l.flatMap LogRec.bytes) ∧ (l.flatMap LogRec.bytes).length ≤ x.field 24 4 ∧
      (∀ r ∈ l, r ∈ s.nvs.log ∧ (x.fn ≠ 0 → r.fn = x.fn)) ∧ OnlyIn [.queues, .host] s t) ∧
  ((∀ (n : Fin 4096) (s : State) (x : Slot), s.ready n.val 0x07 = some x → x.field 16 1 = 1 → Passes (s.featureChecks x) →
    ∃ t, exec (.setQueueArb n) s = .next t ∧ Finished t n.val .ok 0 0 ∧ OnlyIn [.queues] s t ∧
      let k := qKey (x.field 17 1) (x.field 18 2)
      t.sq k = { s.sq k with weight := x.field 24 1, burst := x.field 25 1 } ∧ (∀ j, j ≠ k → t.sq j = s.sq j) ∧
      t.qm.arb = s.qm.arb) ∧
  (∀ (n : Fin 4096) (s : State) (x : Slot), s.ready n.val 0x07 = some x → x.field 16 1 = 2 → Passes (s.featureChecks x) →
    let k := qKey (x.field 17 1) (x.field 18 2)
    let l := s.rivals (.aggregation k) (x.field 24 1 + 2 ^ 16 * x.field 26 2) x.master
    (l = [] → ∃ t, exec (.setCompletionAgg n) s = .next t ∧ Finished t n.val .ok 0 0 ∧ OnlyIn [.stage, .queues] s t ∧
      t.cq k = { s.cq k with aggNext := some (x.field 24 1, x.field 26 2) } ∧ ∀ j, j ≠ k → t.cq j = s.cq j) ∧
    ((∃ o ∈ l, masterRank o.master < masterRank x.master) → ∃ t, exec (.setCompletionAgg n) s = .next t ∧
      Finished t n.val .conflict 0 0 ∧ t.cq = s.cq ∧ t.stage.orders = s.stage.orders ∧
      OnlyIn [.stage, .queues, .nvs, .icu, .out] s t)) ∧
  ∀ (n : Fin 4096) (s : State) (x : Slot), s.ready n.val 0x08 = some x → Passes (s.setSharesChecks x) →
    ∃ t, exec (.setShares n) s = .next t ∧ Finished t n.val .ok 0 0 ∧ OnlyIn [.queues] s t ∧
      Table.get 0 t.qm.decShare (x.field 16 1) = x.field 20 4 ∧ Table.get 0 t.qm.encShare (x.field 16 1) = x.field 24 4 ∧
      ∀ f, f ≠ x.field 16 1 → Table.get 0 t.qm.decShare f = Table.get 0 s.qm.decShare f ∧
        Table.get 0 t.qm.encShare f = Table.get 0 s.qm.encShare f)

/-- The sub-operations of STAGE are those of the register route, through the queue's own route (R114, R115). CLAIM without a
holder, or under one of lower precedence, opens a session for the queue, and finishes with BUSY where the master holds one
through another route and with CONFLICT under one of higher precedence; WRITE by the holder puts its pairs in the staging views,
where the last one stands; CHECK and APPLY run on until the check or the change has ended, and APPLY outside CHECKED finishes
with INVALID_FIELD and NOT_CHECKED (R22); CANCEL ends the session in CANCELLED. A channel stages with CONTROL on STAGE (R27,
R30, R261, Table 04-11): CLAIM opens a session for the channel and ends its CCW with OK, or with UNIT_ERROR and BUSY or
CONFLICT; WRITE by the holder puts its pairs; CHECK and APPLY end it at once under ASYNC and otherwise wait for their outcome;
CANCEL ends the session and STATUS changes nothing; a channel that does not hold the session gets NOT_PERMITTED. -/
def Obligations.CommandsAndChannelsStage : Prop :=
  (∀ (n : Fin 4096) (s : State) (x : Slot), s.ready n.val 0x09 = some x →
    (x.field 16 1 = 0 → Passes (claimChecks x) → s.stage.holder = none → ∃ t, exec (.stageClaim n) s = .next t ∧
      Finished t n.val .ok 0 0 ∧ t.stage.st = .opened ∧ t.stage.code = .pass ∧
      t.stage.holder = some (x.master, x.route) ∧ OnlyIn [.stage, .queues] s t) ∧
    (x.field 16 1 = 0 → Passes (claimChecks x) → ∀ h r, s.stage.holder = some (h, r) → masterRank x.master < masterRank h →
      s.stage.checkWaiter = none → s.stage.applyWaiter = none → ∃ t, exec (.stageClaim n) s = .next t ∧
        Finished t n.val .ok 0 0 ∧ t.stage.st = .opened ∧ t.stage.holder = some (x.master, x.route) ∧ t.stage.regs = [] ∧
        t.stage.entries = [] ∧ t.stage.armed = none) ∧
    (x.field 16 1 = 0 → Passes (claimChecks x) → ∀ r, s.stage.holder = some (x.master, r) → r ≠ x.route →
      ∃ t, exec (.stageClaim n) s = .next t ∧ Finished t n.val .busy 0 0 ∧ OnlyIn [.queues] s t) ∧
    (x.field 16 1 = 0 → Passes (claimChecks x) → ∀ h r, s.stage.holder = some (h, r) → masterRank h < masterRank x.master →
      ∃ t, exec (.stageClaim n) s = .next t ∧ Finished t n.val .conflict 0 0 ∧ t.stage.holder = s.stage.holder ∧
        t.stage.st = s.stage.st ∧ OnlyIn [.stage, .queues, .nvs, .icu, .out] s t) ∧
    (x.field 16 1 = 1 → Passes (s.stageWriteChecks x) → s.holds x.master x.route = true →
      s.stage.st ∈ [StageSt.opened, .checked, .failed] → s.stage.checkWaiter = none → ∃ t, exec (.stageWrite n) s = .next t ∧
        Finished t n.val .ok 0 0 ∧ OnlyIn [.stage, .queues] s t ∧ t.stage.st = .opened ∧ t.stage.entries = s.stage.entries ∧
        (∀ off v r, (stagePairs x.bytes 24 (x.field 17 1)).getLast? = some (off, v) → stagedAt off = some r →
          Table.get none t.stage.regs r.off = some (BitVec.ofNat 32 (v &&& r.rwMask)))) ∧
    (x.field 16 1 = 2 → Passes (s.stageCheckChecks x) → ∃ t, exec (.stageCheck n) s = .next t ∧
      t.stage.st = .checking ∧ t.stage.checkWaiter = some (.slot n.val) ∧ t.slot n.val = some { x with phase := .running } ∧
      t.stage.regs = s.stage.regs ∧ OnlyIn [.stage, .queues] s t) ∧
    (x.field 16 1 = 3 → Passes (s.stageApplyChecks x) → s.stage.st ≠ .checked → ∃ t, exec (.stageApply n) s = .next t ∧
      Finished t n.val .invalidField 0 0 ∧ t.stage = { s.stage with code := .notChecked } ∧ OnlyIn [.stage, .queues] s t) ∧
    (let d : DWord := BitVec.ofNat 64 (x.field 24 8)
    x.field 16 1 = 3 → Passes (s.stageApplyChecks x) → s.stage.st = .checked → bit (x.field 17 1) 0 = true →
      160000 ≤ s.untilDts d → ∃ t, exec (.stageApply n) s = .next t ∧ t.stage = { s.stage with
        st := .armed, code := .pass, armed := some (.dts d), applyWaiter := some (.slot n.val) } ∧
        t.slot n.val = some { x with phase := .running } ∧ OnlyIn [.stage, .queues, .regs] s t) ∧
    (x.field 16 1 = 4 → Passes (s.stageCancelChecks x) → s.stage.checkWaiter = none → s.stage.applyWaiter = none →
      ∃ t, exec (.stageCancel n) s = .next t ∧ Finished t n.val .ok 0 0 ∧ t.stage.st = .cancelled ∧ t.stage.holder = none ∧
        t.stage.armed = none ∧ t.stage.regs = [] ∧ t.stage.entries = [])) ∧
  (∀ (c : Fin 64) (w pairs : List Byte) (s : State), CcwStarts s c w 0x03 →
    let b := ccwAhead s c w
    let t := ccwBegun s c w
    let m := Master.chan c
    let op := fieldLe b 16 1
    let runs := exec (.ccwControlStage c w pairs) s
    let good (u : State) : Prop := CcwEnded t u c .ok .none (ccwCount b)
    let fails (u : State) (st : Status) : Prop :=
      CcwEnded t u c .unitError .none 0 ∧ (u.chan c).detail = BitVec.ofNat 8 st.code
    let awaited (u : State) : Prop := if ccwAsync b then CcwEnded t u c .ok .none 0
      else u.chan c = { t.chan c with st := .waiting, wait := .job }
    let d : DWord := BitVec.ofNat 64 (fieldLe b 24 8)
    ccwSubch b = 0x21 →
    (op = 0 → zeroIn b 17 32 = true → s.stage.holder = none → ∃ u, runs = .next u ∧ good u ∧ u.stage.st = .opened ∧
      u.stage.code = .pass ∧ u.stage.holder = some (m, .channel)) ∧
    (op = 0 → zeroIn b 17 32 = true → ∀ r, s.stage.holder = some (m, r) → r ≠ .channel → ∃ u, runs = .next u ∧
      fails u .busy ∧ u.stage = s.stage) ∧
    (op = 0 → zeroIn b 17 32 = true → ∀ h r, s.stage.holder = some (h, r) → masterRank h < masterRank m →
      ∃ u, runs = .next u ∧ fails u .conflict ∧ u.stage.holder = s.stage.holder ∧ u.stage.st = s.stage.st) ∧
    (op = 1 → 8 ≤ ccwCount b → ccwCount b ≤ 512 → ccwCount b % 8 = 0 → s.holds m .channel = true → s.stage.st = .opened →
      ∀ l, t.ccwAreas b (ccwCount b) [ccwAddr b] = .ok l → (t.readAreas l).2 = false →
        let p := t.channelPairs b pairs
        pairAt p (fun off => (t.chan c).fn != 0 && !t.ownsReg (t.chan c).fn off) = none →
        pairAt p (fun off => (stagedAt off).isNone) = none →
        ∃ u, runs = .next u ∧ good u ∧ u.stage.st = .opened ∧ u.stage.entries = s.stage.entries ∧
          ∀ off v r, p.getLast? = some (off, v) → stagedAt off = some r →
            Table.get none u.stage.regs r.off = some (BitVec.ofNat 32 (v &&& r.rwMask))) ∧
    (op ∈ [2, 4] → zeroIn b 17 32 = true → s.holds m .channel = false → ∃ u, runs = .next u ∧ fails u .notPermitted ∧
      u.stage = s.stage) ∧
    (op = 2 → zeroIn b 17 32 = true → s.holds m .channel = true → s.stage.st ≠ .checking → s.stage.st ≠ .armed →
      ∃ u, runs = .next u ∧ awaited u ∧ u.stage = { s.stage with
        st := .checking, checkWaiter := some (.channel c (ccwAsync b)) }) ∧
    (op = 3 → fieldLe b 17 1 < 8 → zeroIn b 18 24 = true → s.holds m .channel = true → s.stage.st = .checked →
      bit (fieldLe b 17 1) 0 = true → 160000 ≤ s.untilDts d → ∃ u, runs = .next u ∧ awaited u ∧ u.stage = { s.stage with
        st := .armed, code := .pass, armed := some (.dts d), applyWaiter := some (.channel c (ccwAsync b)) }) ∧
    (op = 3 → fieldLe b 17 1 < 8 → zeroIn b 18 24 = true → s.holds m .channel = true → s.stage.st ≠ .checked →
      ∃ u, runs = .next u ∧ fails u .invalidField ∧ u.stage = { s.stage with code := .notChecked }) ∧
    (op = 4 → zeroIn b 17 32 = true → s.holds m .channel = true → s.stage.checkWaiter = none → s.stage.applyWaiter = none →
      ∃ u, runs = .next u ∧ good u ∧ u.stage.st = .cancelled ∧ u.stage.holder = none ∧ u.stage.regs = [] ∧
        u.stage.entries = []) ∧
    (op = 5 → zeroIn b 17 32 = true → ∃ u, runs = .next u ∧ good u ∧ u.stage = s.stage))

/-- OPEN makes an object of the kind that it names, at a free index, with the next generation, and completes with its handle (R98,
R119, R163, R220): a decode stream that a pool of buffers, its earmark and the admission of R199 let in; an encode stream; a
compositor output; a send queue. CLOSE of a stream without jobs, of a send queue without frames and of a channel destroys the
object and, with no other command of the object outstanding, completes (R120). -/
def Obligations.OpenAndCloseMakeAndDestroyObjects : Prop :=
  (∀ (n : Fin 4096) (pick : Nat) (params : List Byte) (s : State) (x : Slot), s.ready n.val 0x20 = some x →
    (∀ i p u, x.field 16 1 = 0 → Passes (x.openDecChecks) → pickFree 512 pick (fun i => (s.dec i).isNone) = some i →
      s.poolFor (pictureBytes (x.field 24 2) (x.field 26 2) (x.field 32 1 == 10)) = some p →
      s.earmark p x.fn (dpbMax (x.field 20 1) (x.field 22 1) (x.field 24 2) (x.field 26 2) + 3) = some u →
      s.admission x.fn false (decodeCost (x.field 20 1) (x.field 24 2) (x.field 26 2)
        (if x.field 36 4 = 0 then levelKbps (x.field 20 1) (x.field 21 1) (x.field 22 1) else x.field 36 4)
        (x.field 28 4)) = none →
      ∃ t d, exec (.openObject n pick params) s = .next t ∧ t.dec i = some d ∧ d.st = .active ∧ d.fn = x.fn ∧
        d.gen = s.genOf 1 i ∧ d.format = x.field 20 1 ∧ d.width = x.field 24 2 ∧ d.height = x.field 26 2 ∧
        d.group = x.group ∧ d.pool = p ∧ (∀ e ∈ d.entries, e = PicEntry.free) ∧
        (let h := handleOf 1 i x.fn (s.genOf 1 i); Finished t n.val .ok (h % 2 ^ 32) (h / 2 ^ 32)) ∧
        OnlyIn [.queues, .codec, .pools] s t) ∧
    (∀ i p u, x.field 16 1 = 2 → Passes (s.openOutChecks x) → pickFree 128 pick (fun i => (s.outp i).isNone) = some i →
      s.poolFor (outFrameBytes (x.field 24 2) (x.field 26 2) (x.field 28 1 == 1)) = some p → s.earmark p x.fn 3 = some u →
      s.pixelRate + s.outRate (x.field 24 2) (x.field 26 2) x.group ≤ 16000000000 * 1001 →
      ∃ t o, exec (.openObject n pick params) s = .next t ∧ t.outp i = some o ∧ o.fn = x.fn ∧ o.gen = s.genOf 3 i ∧
        o.st = (if s.pwr.mode = .night ∧ s.nightOff i = true then .off else .active) ∧ o.width = x.field 24 2 ∧
        o.height = x.field 26 2 ∧ o.planes = List.replicate 16 Plane.off ∧ o.updates = [] ∧
        (let h := handleOf 3 i x.fn (s.genOf 3 i); Finished t n.val .ok (h % 2 ^ 32) (h / 2 ^ 32))) ∧
    (∀ i, 2 < x.field 16 1 → Passes (x.openSendQChecks) → pickFree 65536 pick (fun i => (s.sendQ i).isNone) = some i →
      ∃ t q, exec (.openObject n pick params) s = .next t ∧ t.sendQ i = some q ∧ q.fn = x.fn ∧ q.gen = s.genOf 4 i ∧
        q.group = x.group ∧ q.waiting = [] ∧ (∀ j, j ≠ i → t.sendQ j = s.sendQ j) ∧
        (let h := handleOf 4 i x.fn (s.genOf 4 i); Finished t n.val .ok (h % 2 ^ 32) (h / 2 ^ 32)) ∧
        OnlyIn [.queues, .switch] s t) ∧
    (∀ i u, x.field 16 1 = 1 → x.field 56 8 = 0 → Passes (s.openEncFields x) → Passes (s.openEncLast x (some [])) →
      pickFree 256 pick (fun i => (s.enc i).isNone) = some i →
      s.earmarkAll x.fn 2 ((List.range (x.field 34 1)).map (fun r =>
        s.poolFor (pictureBytes (rungSize x [] r).1 (rungSize x [] r).2 (x.field 32 1 == 10)))) = some u →
      s.admission x.fn true (s.encodeCost x []).1 = none →
      ∃ t e, exec (.openObject n pick params) s = .next t ∧ t.enc i = some e ∧ e.st = .active ∧ e.fn = x.fn ∧
        e.gen = s.genOf 2 i ∧ e.format = x.field 20 1 ∧ e.width = x.field 24 2 ∧ e.height = x.field 26 2 ∧
        e.keyDue = true ∧
        (let h := handleOf 2 i x.fn (s.genOf 2 i); Finished t n.val .ok (h % 2 ^ 32) (h / 2 ^ 32)) ∧
        OnlyIn [.queues, .codec, .pools, .free] s t) ∧
    (∀ d, x.field 16 1 = 1 → firstDeny (s.openEncFields x) = some d → ∃ t, exec (.openObject n pick params) s = .next t ∧
      Finished t n.val d.st 0 0 ∧ OnlyIn [.queues] s t)) ∧
  ∀ (n : Fin 4096) (s : State) (x : Slot), s.ready n.val 0x21 = some x → Passes (s.closeChecks x) →
    (∀ e ∈ s.slotList, e.1 ≠ n.val → e.2.handle ≠ x.handle) →
    let i := x.handle % 65536
    let ty := bits x.handle 23 16
    ∃ t, exec (.close n) s = .next t ∧
      (ty = 1 → s.jobsOf false i = [] → t.dec i = none ∧ Finished t n.val .ok 0 0) ∧
      (ty = 2 → s.jobsOf true i = [] → t.enc i = none ∧ Finished t n.val .ok 0 0) ∧
      (∀ q, ty = 4 → s.sendQ i = some q → q.waiting = [] → t.sendQ i = none ∧ Finished t n.val .ok 0 0) ∧
      (ty = 5 → (∀ c r, s.stage.holder ≠ some (.chan c, r)) → t.chan i = Channel.free ∧ Finished t n.val .ok 0 0)

/-- ABORT finishes with ABORTED the entries of a queue that carry its CID and have not been carried out, and itself waits for
their completions, or finishes with 0 at once where there are none (R116). NVS_UPDATE marks the inactive slot of an image
invalid and runs on (R117, R459). When its image is verified the slot is PENDING with the image's version, and the command
finishes with the slot and the version; a bad signature, or a microcode image whose header or records are out of range, finishes
it with DATA_ERROR and source 105 of a microcode image, and a page that cannot be written with MEDIA_ERROR and source 282; these
leave the slot as it was, and source 283 is raised in each case (R215, R219). -/
def Obligations.AbortsAndImageUpdatesByCommand : Prop :=
  (∀ (n : Fin 4096) (s : State) (x : Slot), s.ready n.val 0x0A = some x → Passes (s.abortChecks x) →
    let l := (s.openEntries x.fn (x.field 16 2)).filter (fun m =>
      (s.slot m).any (fun y => y.cid == BitVec.ofNat 32 (x.field 20 4)))
    n.val ∉ l → (∀ m ∈ l, ∃ y, s.slot m = some y ∧ y.phase = .accepted) →
    ∃ t, exec (.abort n) s = .next t ∧ OnlyIn [.queues] s t ∧ t.sq = s.sq ∧ t.cq = s.cq ∧
      (∀ m ∈ l, ∃ y, t.slot m = some y ∧ y.phase = .finished ∧ y.completion.status = .aborted) ∧
      (∀ m, m ∉ l → m ≠ n.val → t.slot m = s.slot m) ∧ (l = [] → Finished t n.val .ok 0 0) ∧
      (l ≠ [] → t.slot n.val = some { x with phase := .running } ∧ t.qm.barriers = s.qm.barriers ++ [⟨n.val, l, 0, none⟩])) ∧
  ((∀ (n : Fin 4096) (s : State) (x : Slot), s.ready n.val 0x0B = some x → Passes (s.nvsUpdateChecks x) →
    let i : Fin 3 := Fin.ofNat 3 (x.field 16 1)
    ∃ t, exec (.nvsUpdate n) s = .next t ∧ t.image i = (s.image i).setSpare .invalid 0 ∧
      (∀ j, j ≠ i → t.image j = s.image j) ∧
      t.updateOf i = some ⟨false, some n.val, x.fn, x.field 17 1 == 1, x.field 20 4, 0, none⟩ ∧
      t.slot n.val = some { x with phase := .running } ∧ OnlyIn [.queues, .updates, .nvs] s t) ∧
  ∀ (i : Fin 3) (s : State) (u : Update), s.updateOf i = some u → s.live = true → u.outcome = none → u.offline = false →
    u.pldm = false →
    (∀ v m, imageInRange i m = true → ∃ t, exec (.nvsUpdateEnd i (.verified v m)) s = .next t ∧
      t.image i = (s.image i).setSpare .pending v ∧ t.updateOf i = none ∧
      (s.collectorRuns = true → t.icu.pend.getLsbD 283 = true) ∧
      (∀ n x, u.slot = some n → s.slot n = some x → x.phase = .running →
        Finished t n .ok ((s.image i).setSpare .pending v).spareSlot v.toNat) ∧
      OnlyIn [.queues, .updates, .nvs, .icu, .out] s t) ∧
    (∀ e, (e = .badSignature ∨ ∃ v m, e = .verified v m ∧ imageInRange i m = false) →
      ∃ t, exec (.nvsUpdateEnd i e) s = .next t ∧ t.image i = s.image i ∧ t.updateOf i = none ∧
      (s.collectorRuns = true → t.icu.pend.getLsbD 283 = true ∧ (i ≠ 2 → t.icu.pend.getLsbD 105 = true)) ∧
      (∀ n x, u.slot = some n → s.slot n = some x → x.phase = .running → Finished t n .dataError 0 0) ∧
      OnlyIn [.queues, .updates, .nvs, .icu, .out, .snuffer] s t) ∧
    ∀ a, ∃ t, exec (.nvsUpdateEnd i (.writeFailed a)) s = .next t ∧ t.image i = s.image i ∧ t.updateOf i = none ∧
      (s.collectorRuns = true → t.icu.pend.getLsbD 282 = true ∧ t.icu.pend.getLsbD 283 = true) ∧
      (∀ n x, u.slot = some n → s.slot n = some x → x.phase = .running → Finished t n .mediaError 0 0) ∧
      OnlyIn [.queues, .updates, .nvs, .icu, .out, .snuffer] s t)

/-- DECODE and ENCODE put a job at the end of the pool's jobs, with the stream's next sequence number and the tick that they
name, and run on; a DECODE of a stream that is evicted finishes with EVICTED (R121, R122), and one whose target is past counts
an overrun of the function (R48, R49). COMPOSE adds an update of its plane to its output, for its tick (R123). A timed SEND
waits on its queue for its tick (R126). A DECODE that a check denies finishes with that check's status. -/
def Obligations.JobsAreSubmittedByCommand : Prop :=
  (∀ (n : Fin 4096) (s : State) (x : Slot), s.ready n.val 0x22 = some x →
    let a : Ask := ⟨x.bytes, x.fn, x.master, .slot n.val⟩
    (∀ d, firstDeny ((s.start n.val).decodeChecks a) = some d → ∃ t, exec (.decode n) s = .next t ∧
      Finished t n.val d.st 0 0 ∧ OnlyIn [.queues] s t) ∧
    ∀ d, Passes ((s.start n.val).decodeChecks a) → s.dec a.index = some d → ∃ t, exec (.decode n) s = .next t ∧
      (d.evicted = true → Finished t n.val .evicted 0xFFFFFFFF 0) ∧
      (d.evicted = false → s.isPast (s.resolve (a.field 32 8)) = false → ∃ j, t.codec.jobs = s.codec.jobs ++ [j] ∧
        j.encode = false ∧ j.stream = a.index ∧ j.origin = .slot n.val ∧ j.fn = x.fn ∧ j.seq = d.seqNext ∧
        j.target = s.resolve (a.field 32 8) ∧ j.phase = .waiting ∧ j.addr = a.addr 16 ∧ j.length = a.field 24 4 ∧
        t.dec a.index = some { d with seqNext := d.seqNext + 1 } ∧ t.slot n.val = some { x with phase := .running } ∧
        OnlyIn [.queues, .codec] s t) ∧
      (d.evicted = false → s.isPast (s.resolve (a.field 32 8)) = true →
        Table.get 0 t.time.overruns x.fn = satInc 0xFFFFFFFF (Table.get 0 s.time.overruns x.fn))) ∧
  (∀ (n : Fin 4096) (s : State) (x : Slot), s.ready n.val 0x23 = some x →
    let a : Ask := ⟨x.bytes, x.fn, x.master, .slot n.val⟩
    ∀ e, Passes ((s.start n.val).encodeChecks a) → s.enc a.index = some e → e.evicted = false →
      s.isPast (s.resolve (a.field 40 8)) = false → ∃ t j, exec (.encode n) s = .next t ∧ t.codec.jobs = s.codec.jobs ++ [j] ∧
        j.encode = true ∧ j.stream = a.index ∧ j.origin = .slot n.val ∧ j.seq = e.seqNext ∧ j.phase = .waiting ∧
        j.target = s.resolve (a.field 40 8) ∧ j.addr = a.addr 16 ∧ j.out = a.addr 24 ∧ j.outSize = a.field 32 4 ∧
        j.parts = e.split ∧ t.enc a.index = some { e with seqNext := e.seqNext + 1 } ∧
        t.slot n.val = some { x with phase := .running } ∧ OnlyIn [.queues, .codec] s t) ∧
  (∀ (n : Fin 4096) (p : PlaneData) (s : State) (x : Slot), s.ready n.val 0x24 = some x →
    let a : Ask := ⟨x.bytes, x.fn, x.master, .slot n.val⟩
    let g := s.resolve (a.field 56 8)
    ∀ f s1 b s3 o, Passes a.composeChecks → (s.start n.val).readSource a p = .ok (f, s1) → Passes (s1.composeChecks a (some f)) →
      s1.rivals (.plane a.index (a.field 16 1)) (a.field 16 40) x.master = [] → s1.composeRoom a f = .ok (b, s3) →
      s.outp a.index = some o → s.isPast g = false → s.fullTime ≤ s.beginTime g.group.val g.tick → o.frame = none →
      ∃ t o' u, exec (.compose n p) s = .next t ∧ t.outp a.index = some o' ∧ o'.updates.getLast? = some u ∧
        o'.updates.length = o.updates.length + 1 ∧ u.plane = a.field 16 1 ∧ u.content = a.content f b ∧ u.target = g ∧
        u.origin = .slot n.val ∧ u.late = false ∧ o'.planes = o.planes ∧ o'.onShow = o.onShow) ∧
  ∀ (n : Fin 4096) (data : List Byte) (s : State) (x : Slot), s.ready n.val 0x25 = some x →
    let a : Ask := ⟨x.bytes, x.fn, x.master, .slot n.val⟩
    let g := s.resolve (a.field 32 8)
    ∀ q bs s1, Passes ((s.start n.val).sendChecks a) → s.sendQ a.index = some q → bit (a.field 26 1) 1 = false →
      a.otherGroup 32 q.group = false → (s.start n.val).takeBytes (a.addr 16) (a.field 24 2) data = (none, bs, s1) →
      s.isPast g = false → q.waiting = [] → ∃ t y, exec (.send n data) s = .next t ∧
        t.sendQ a.index = some { q with waiting := [y] } ∧ y.bytes = bs ∧ y.sender = .slot n.val ∧
        y.target = some ⟨q.group, g.tick⟩ ∧ y.missed = false

/-! ### Channels (chapters 4 and 9) -/

/-- CHANNEL ALLOCATE takes a free channel, with the next generation, and completes with its handle; START runs it from its first
CCW; SUSPEND stops it before its next CCW and RESUME lets it go on; HALT ends its program with STOPPED; CLEAR of a channel at
rest leaves it IDLE with its CSW cleared. START is finished with BUSY in any other state of the channel, and ALLOCATE with
NO_RESOURCE where no channel is free (R127, R264, R266). -/
def Obligations.ChannelCommandsMoveTheChannel : Prop :=
  ∀ (n : Fin 4096) (s : State) (x : Slot), s.ready n.val 0x26 = some x →
    let op := x.field 16 1
    let c := x.channel
    let y := s.chan c
    let named := s.namesLive x.fn x.handle = true ∧ bits x.handle 23 16 = 5
    (∀ pick, op = 0 → Passes (allocateChecks x) →
      (∀ k, (if x.field 17 1 = 0xFF then pickFree 64 pick (fun c => (s.chan c).st == .free)
          else if (s.chan (x.field 17 1)).st = .free then some (x.field 17 1) else none) = some k →
        ∃ t, exec (.channelAllocate n pick) s = .next t ∧
          t.chan k = { Channel.free with st := .idle, fn := x.fn, gen := s.genOf 5 k } ∧ (∀ j, j ≠ k → t.chan j = s.chan j) ∧
          (let h := handleOf 5 k x.fn (s.genOf 5 k); Finished t n.val .ok (h % 2 ^ 32) (h / 2 ^ 32)) ∧
          OnlyIn [.queues, .channels] s t) ∧
      ((∀ k, k < 64 → (s.chan k).st ≠ .free) → ∃ t, exec (.channelAllocate n pick) s = .next t ∧
        Finished t n.val .noResource 0 0 ∧ OnlyIn [.queues] s t)) ∧
    (op = 1 → named → Passes (startChecks x) → y.st ∈ [ChSt.idle, .ended] → ∃ t, exec (.channelStart n) s = .next t ∧
      (t.chan c).st = .active ∧ (t.chan c).ccw = BitVec.ofNat 64 (x.field 24 8) ∧ (t.chan c).cur = none ∧
      (t.chan c).startSlot = some n.val ∧ (t.chan c).events = y.events ∧ t.slot n.val = some { x with phase := .running } ∧
      (∀ j, j ≠ c → t.chan j = s.chan j) ∧ OnlyIn [.queues, .channels] s t) ∧
    (op = 1 → named → Passes (startChecks x) → y.st ∉ [ChSt.idle, .ended] → ∃ t, exec (.channelStart n) s = .next t ∧
      Finished t n.val .busy 0 0 ∧ t.lmp = s.lmp) ∧
    (op = 2 → named → Passes (unusedFields x) → y.st = .active → y.cur = none → y.spanning = false → y.suspendSlots = [] →
      ∃ t, exec (.channelSuspend n) s = .next t ∧ Finished t n.val .ok 0 0 ∧ (t.chan c).st = .suspended ∧
        (t.chan c).ccw = y.ccw ∧ (t.chan c).cswSeq = y.cswSeq + 1 ∧ (s.collectorRuns = true → t.icu.pend.getLsbD (32 + c) = true)) ∧
    (op = 3 → named → Passes (unusedFields x) → y.st = .suspended → ∃ t, exec (.channelResume n) s = .next t ∧
      Finished t n.val .ok 0 0 ∧ t.chan c = { y with st := .active, byMode := false } ∧
      (∀ j, j ≠ c → t.chan j = s.chan j) ∧ OnlyIn [.queues, .channels] s t) ∧
    (op = 4 → named → Passes (unusedFields x) → y.st ∈ [ChSt.active, .suspended] → (∀ d r, s.stage.holder ≠ some (.chan d, r)) →
      ∃ t, exec (.channelHalt n) s = .next t ∧ (t.chan c).st = (if y.clearing then .idle else .ended) ∧
        (t.chan c).result = .stopped ∧ (t.chan c).cur = none ∧ (t.chan c).haltSlots = []) ∧
    (op = 5 → named → Passes (unusedFields x) → y.st ∈ [ChSt.idle, .ended] → (∀ d r, s.stage.holder ≠ some (.chan d, r)) →
      ∃ t, exec (.channelClear n) s = .next t ∧ Finished t n.val .ok 0 0 ∧
        t.chan c = { y with st := .idle, csw := List.replicate 32 0 } ∧ (∀ j, j ≠ c → t.chan j = s.chan j) ∧
        OnlyIn [.queues, .channels] s t)

/-! ### Ticks (chapters 1 and 2) -/

/-- A tick of a group that is enabled takes its number, and the next one is the one after it (R16, R46); no other group's ticks
change, and the group's interrupt source, 16 + g, is pending once its actions are done. Stated for groups B to D, at an instant
at which no other group ticks, with no staged change armed and no step of DTS pending. A group that is not enabled, and a device
without ticks, has none. -/
def Obligations.TickTakesItsNumber : Prop :=
  ∀ (g : Fin 4) (s : State),
    ((s.live && s.groupEn g.val) = false → exec (.tick g) s = .next s) ∧
    (g ≠ 0 → s.live = true → s.groupEn g.val = true → s.stage.armed = none → s.time.step = none →
      let k := s.nextTick g
      (s.advanceToDts (s.tickTime g.val k)).groupsAt (s.tickTime g.val k) = [g] →
      ∃ t, exec (.tick g) s = .next t ∧ t.time.groups[g] = ⟨tick62 k, k + 1⟩ ∧
        (∀ h, h ≠ g → t.time.groups[h] = s.time.groups[h]) ∧
        t.icu.pend.getLsbD (16 + g.val) = true)

/-! ### Decoding, encoding and the codec cores (chapters 5 to 7) -/

/-- A core that is idle takes the next job: of the jobs that may start, one of a tenant without debt where there is any, and of
those one of the least class (R156, R202). The job runs on an idle core, whose sequencer starts at address 0 (R203, R212).
Stated for a job of one part where no job is to be redone and no split job holds cores. The end of a picture frees its cores
(R139). Its command completes with DATA_ERROR where a parameter set is refused, as are the later units that refer to it, or no
header could be parsed (R129, R130, R150), and otherwise with MEDIA_ERROR where poison was met, with OK_CONCEALED where a block
was not decoded, and else with OK or OK_CONCEALED (R121, R152, R153): without a presentation tick at once where the picture is
not for output, and with the tick at which it is presented where it is, which is the next tick if its own is past (R141). A
short-term reference picture is marked so, and the stream counts it. -/
def Obligations.JobsStartAndDecodesComplete : Prop :=
  (∀ (x : Tiling) (w h : Nat) (s u : State) (j : CodecJob), s.codecRuns = true → s.idleCores ≠ [] →
    (∀ k ∈ s.codec.jobs, k.phase ≠ .redo ∧ (k.phase = .waiting → k.cores = [])) → s.select = some (j, u) →
    u.partsOf j x w h = 1 →
    (∀ k ∈ s.eligibleJobs, Table.get 0 s.codec.debt (s.jobTenant k) = 0 →
      Table.get 0 s.codec.debt (s.jobTenant j) = 0 ∧ s.jobClass j ≤ s.jobClass k) ∧
    ∃ t c k, exec (.codecJobStart x w h) s = .next t ∧ c ∈ s.idleCores ∧ (t.core c).job = some j.id ∧
      (t.core c).upc = 0 ∧ (t.core c).ustack = [] ∧ (t.core c).ustopped = false ∧ k ∈ t.codec.jobs ∧ k.id = j.id ∧
      k.phase = .running ∧ k.cores = [c] ∧ t.pwr.nightGated.getLsbD c = false) ∧
  (∀ (c : Fin 8) (p : PicFacts) (s : State) (j : CodecJob) (d : DecStream) (n m : Nat) (y : Slot),
    (s.core c.val).job.bind s.job = some j → j.encode = false → j.phase = .running → s.dec j.stream = some d →
    j.entry = some n → s.loaded = true → p.grain = false → s.pwr.gated = 0 → j.flags.getLsbD 0 = false →
    s.jobsOf false j.stream = [j] → d.st = .active → d.evicted = false → d.entries.length = 24 → n < 24 →
    (∀ k, k ≠ n → (d.entry k).outputPending = false) → j.origin = .slot m → s.slot m = some y → y.phase = .running →
    d.retarget = false → j.discarded = false → j.redone = false →
    let known := d.addSets p.sets
    let a := s.scan j known p (2 * frameBudget d.format p.width p.height p.coded) (j.cores.headD 0)
    let good (st : Status) : Prop := (a.media = true → st = .mediaError) ∧ (a.media = false → st ∈ [Status.ok, .okConcealed]) ∧
      (a.media = false → (∃ k, k < picBlocks p ∧ k ∉ a.good) → st = .okConcealed)
    let tick := if s.isPast j.target then s.nextTick j.target.group else j.target.tick
    ∃ t, exec (.pictureEnd c p) s = .next t ∧ (∀ k, k < 8 → (t.core k).job ≠ some j.id) ∧
      ((known.refuses p).isSome = true → ∃ r, Finished t m .dataError 0xFFFFFFFF r) ∧
      (p.outcome = .picture → known.refuses p = none → p.forOutput = false → p.outputs = [] →
        (∃ st r, Finished t m st 0xFFFFFFFF r ∧ good st) ∧ ∃ e, t.dec j.stream = some e ∧ e.decoded = incWord d.decoded ∧
          e.curW = p.width ∧ e.sets = known.sets ∧ (p.refKind = 1 → (e.entry n).refShort = true)) ∧
      (p.outcome = .picture → known.refuses p = none → p.forOutput = true → j.flags.getLsbD 2 = false → p.outputs = [none] →
        ∃ st r, Finished t m st ((tick62 tick).toNat % 2 ^ 32) r ∧ good st))

/-- The end of an encoded frame writes the stream's other checkpoint, which is the newer one from then on (R185), and completes
its command with the size of its bitstream (R122); a frame that does not fit at OUT completes with NO_RESOURCE and the stream
keeps its newer checkpoint (R167, R186). A paced packet leaves for its send queue at the instant it is due (R189). A picture at
twice its budget is marked to end so, and its sequencers stop (R149). -/
def Obligations.EncodedFramesCompleteAndArePaced : Prop :=
  (∀ (c : Fin 8) (x : EncFacts) (s : State) (j : CodecJob) (e : EncStream) (m : Nat) (y : Slot),
    (s.core c.val).job.bind s.job = some j → j.encode = true → j.phase = .running → s.enc j.stream = some e →
    s.loaded = true → s.pwr.gated = 0 → e.st = .active → e.evicted = false → x.rungs.length = e.ck.rungs.length →
    e.ck.rungs ≠ [] → (∀ r ∈ e.ck.rungs, r.sink = none) → j.origin = .slot m → s.slot m = some y → y.phase = .running →
    s.encTooLate j e = false →
    let outs := s.rungEnds j e x
    ∃ t, exec (.encodeFrameEnd c x) s = .next t ∧ (∀ k, k < 8 → (t.core k).job ≠ some j.id) ∧
      (encNoFit j e outs = false → ∃ e', t.enc j.stream = some e' ∧ e'.newer = !e.newer ∧ e'.ck = s.nextCk j e outs ∧
        e'.keyDue = j.flags.getLsbD 1 ∧
        ∃ r, Finished t m (if x.poisoned || s.framePoisoned j e then .mediaError else if j.redone then .okRedone else .ok)
          (firstSize outs) r) ∧
      (encNoFit j e outs = true → ∃ e', t.enc j.stream = some e' ∧ e'.newer = e.newer ∧ e'.ck.seq = e.ck.seq ∧
        Finished t m .noResource (firstSize outs) 0)) ∧
  (∀ (i : Fin 256) (s : State) (p : Packet) (l : List Packet), takePaced i.val s.codec.paced = some (p, l) →
    s.loaded = true → ∃ t, exec (.encodePacketRelease i) s = .next t ∧ t.codec.paced = l ∧ t.now = max s.now p.due) ∧
  ∀ (c : Fin 8) (s : State) (j : CodecJob), (s.core c.val).job.bind s.job = some j → j.encode = false → s.loaded = true →
    ∃ t, exec (.budgetAbort c) s = .next t ∧ OnlyIn [.codec] s t ∧
      (∀ k ∈ t.codec.jobs, k.id = j.id → k.budgetAbort = true) ∧ ∀ k ∈ j.cores, k < 8 → (t.core k).ustopped = true

/-- A microword issues its nanoword and computes the next micro address by its KIND: EXEC, CALL and RET under a condition, which
go on at the next address where it does not hold, and WAIT, which repeats; on a command of the header processor the sequencer
starts at address 0 (R212). A call that finds the stack full, a return that finds it empty and a word of wrong parity stop the
sequencer, and CDC_FAULT keeps the kind (R213). A sequencer without progress for 1 ms is stopped and reported (R205). A core
leaves service into RETIRED or RESETTING with its running jobs to be redone, where its loss evicts no stream and no cap gates a
core (R206, R208); a core that was reset has its stores reloaded and comes back at a tick of group A, or is RETIRED where its
self-test failed (R205, R209). In NIGHT an idle core's clock is gated while it stays in service (R438). -/
def Obligations.CodecCoresRunLeaveAndReturn : Prop :=
  (∀ (c : Fin 8) (command : Bool) (cond : BitVec 16) (s : State), s.loaded = true → (s.core c.val).job.isSome = true →
    (s.core c.val).ustopped = false →
    let x := if command then { s.core c.val with upc := 0, ustack := [] } else s.core c.val
    let w := (Table.get 0 x.microStore x.upc.toNat).toNat
    let k := w / 2 ^ 12 % 16
    let yes : Prop := k = 1 ∨ (k ≠ 0 ∧ cond.getLsbD k = true)
    let target : BitVec 14 := BitVec.ofNat 14 (w / 2 ^ 16 % 2 ^ 14)
    let seq := w / 2 ^ 30 % 4
    let runs (parity : Bool) := exec (.microword c ⟨command, parity, cond⟩) s
    let go (y : CodecCore) : State := s.setCore c.val { y with issued := Table.get 0 x.nanoStore (w % 2 ^ 10) }
    let stops (r : Host.Outcome State Fault Refusal) (kind : Nat) : Prop := ∃ t, r = .next t ∧
      (t.core c.val).ustopped = true ∧ (t.core c.val).upc = x.upc ∧ (t.core c.val).fault = BitVec.ofNat 8 kind ∧
      OnlyIn [.codec, .snuffer, .icu, .out] s t
    (x.badParity.contains (false, x.upc.toNat) = false → x.badParity.contains (true, w % 2 ^ 10) = false →
      (seq = 0 → yes → runs false = .next (go { x with upc := target })) ∧
      (seq = 0 → ¬ yes → runs false = .next (go { x with upc := x.upc + 1 })) ∧
      (seq = 1 → yes → x.ustack.length < 4 →
        runs false = .next (go { x with upc := target, ustack := (x.upc + 1) :: x.ustack })) ∧
      (∀ a l, seq = 2 → yes → x.ustack = a :: l → runs false = .next (go { x with upc := a, ustack := l })) ∧
      (seq = 1 ∨ seq = 2 → ¬ yes → runs false = .next (go { x with upc := x.upc + 1 })) ∧
      (seq = 3 → yes → runs false = .next (go { x with upc := x.upc + 1 })) ∧
      (seq = 3 → ¬ yes → runs false = .next (go x)) ∧
      ((seq = 1 ∧ yes ∧ 4 ≤ x.ustack.length) ∨ (seq = 2 ∧ yes ∧ x.ustack = []) → stops (runs false) (seq + 1))) ∧
    (x.badParity.contains (false, x.upc.toNat) = true ∨ x.badParity.contains (true, w % 2 ^ 10) = true →
      stops (runs false) 4) ∧
    stops (runs true) 4) ∧
  ((∀ (c : Fin 8) (s : State), s.loaded = true → (s.core c.val).job.isSome = true → ∃ t, exec (.sequencerWatchdog c) s = .next t ∧
    (t.core c.val).ustopped = true ∧ (t.core c.val).fault = 5 ∧ (t.core c.val).st = (s.core c.val).st ∧
    (s.snuf.queue.length < 256 → t.snuf.queue = s.snuf.queue ++
      [⟨BitVec.ofNat 10 (0x010 + c.val), 5, 0, s.time.dts, false, s.snuf.lostSince⟩]) ∧
    OnlyIn [.codec, .snuffer, .icu, .out] s t) ∧
  (∀ (c : Fin 8) (s : State), s.live = true → s.pwr.gated = 0 → s.poolUnits + 3000 ≤ 3000 * s.coresUp →
    (s.snuf.retiredCores.getLsbD c.val = false → ∃ t, exec (.coreLeavesService c true) s = .next t ∧
      (t.core c.val).st = .retired ∧ (t.core c.val).job = none ∧ t.snuf.retiredCores.getLsbD c.val = true ∧
      (∀ j ∈ s.codec.jobs, j.phase = .running → c.val ∈ j.cores →
        ∃ k ∈ t.codec.jobs, k.id = j.id ∧ k.phase = .redo ∧ k.redone = true ∧ k.cores = [])) ∧
    ((s.core c.val).st ∈ [CoreSt.inService, .gated] → s.snuf.resets.contains (.codec c) = false →
      ∃ t, exec (.coreLeavesService c false) s = .next t ∧ (t.core c.val).st = .resetting ∧ (t.core c.val).job = none ∧
        t.snuf.resets.contains (.codec c) = true ∧
        ∀ j ∈ s.codec.jobs, j.phase = .running → c.val ∈ j.cores →
          ∃ k ∈ t.codec.jobs, k.id = j.id ∧ k.phase = .redo ∧ k.redone = true ∧ k.cores = [])) ∧
  (∀ (c : Fin 8) (s : State), s.halted = false → s.pwr.inWarmReset = false → s.snuf.resets.contains (.codec c) = true →
    (s.core c.val).st = .resetting →
    (∃ t, exec (.coreResetEnd c true) s = .next t ∧ t.codec.returning.getLsbD c.val = true ∧
      (t.core c.val).st = .resetting ∧ (t.core c.val).mcBase = s.codec.copyBase ∧
      (t.core c.val).microStore = s.codec.copyMicro ∧ t.snuf.resets.contains (.codec c) = false ∧
      (s.collectorRuns = true → t.icu.pend.getLsbD 6 = true)) ∧
    ∃ t, exec (.coreResetEnd c false) s = .next t ∧ (t.core c.val).st = .retired ∧
      t.snuf.retiredCores.getLsbD c.val = true ∧ t.snuf.resets.contains (.codec c) = false) ∧
  ∀ (c : Fin 8) (s : State), s.live = true → s.pwr.mode = .night → (s.core c.val).st = .inService → (s.core c.val).job = none →
    (s.core c.val).reserved = none → ∃ t, exec (.nightCoreClockGate c) s = .next t ∧
      t.pwr = { s.pwr with nightGated := s.pwr.nightGated ||| ((1 : BitVec 8) <<< c.val) } ∧ t.codec = s.codec ∧
      OnlyIn [.power] s t)

/-! ### The compositor (chapter 8) -/

/-- At LEAD before a group's next tick the compositor begins that tick's frame of an output with a free buffer: with the planes of
the output, a new dirty set and the frame on show as it was (R232, R233); while another group's frames run the group waits. The
frame ends with its damage, the dirty blocks less those that the comparison of a VERIFIED output found equal (R237), and its
bytes are those of the frame on show in the blocks that are not damaged and of the planes elsewhere, over the background as it
was when the frame began (R25, R225, R231, R233). A packet
of an ST 2110-20 frame takes the next sequence number, and the last one of a frame lets the next frame begin (R242). -/
def Obligations.FramesBeginEndAndAreSent : Prop :=
  (∀ (g : Fin 4) (s : State), s.composes = true →
    (∀ h, s.cmp.group = some h → h ≠ g → g ∉ s.cmp.waiting → ∃ t, exec (.frameBegin g) s = .next t ∧
      t.cmp = { s.cmp with waiting := s.cmp.waiting ++ [g] } ∧ OnlyIn [.time, .compositor] s t) ∧
    ∀ (o : Nat) (x : Output), (s.cmp.group = none ∨ s.cmp.group = some g) → s.outsOf g = [o] → s.outp o = some x →
      x.frame = none → x.st = .active → x.updates = [] →
      let u := s.advanceToDts (s.beginTime g.val (s.nextTick g))
      (s.outBuffers o).length < 6 → s.poolServes x.fn 16 x.pool = true → (u.request x.pool x.fn).1.isSome = true →
      ∃ t y f, exec (.frameBegin g) s = .next t ∧ t.cmp.group = some g ∧ t.outp o = some y ∧ y.frame = some f ∧
        f.tick = s.nextTick g ∧ f.ended = false ∧ f.planes = x.planes ∧ y.dirty = 0 ∧ y.all = false ∧
        f.all = (x.all || x.onShow.isNone) ∧ f.bg = s.outBg o ∧ f.verified = s.verified o ∧ y.onShow = x.onShow ∧ y.planes = x.planes) ∧
  (∀ (o : Fin 128) (equal : Nat) (s : State) (x : Output) (f : OutFrame), s.wf → s.loaded = true →
    s.composing.head? = some o.val → s.outp o.val = some x → x.frame = some f →
    (∀ n, n < 16 → (s.advanceTo f.due).planePoison f 0 n = none) →
    let base := if f.all then x.allBlocks else f.dirty
    let old := fun i => match x.onShow with
      | some b => s.dev.byte (s.bufAddr b + i)
      | none => 0
    let f' : OutFrame := { f with
      ended := true
      damage := (if f.verified && !f.all then without base (x.sameBlocks f old equal) else base) &&& x.allBlocks }
    ∃ t y, exec (.composeFrameEnd o equal 0) s = .next t ∧ t.outp o.val = some y ∧ y.frame = some f' ∧ t.now = max s.now f.due ∧
      (∀ i, i < outFrameBytes x.width x.height x.tenBit → t.dev.byte (s.bufAddr f.buffer + i) =
        frameByte x f' old (Config.freeNat s.free) i) ∧
      ∀ a, (a < s.bufAddr f.buffer ∨ s.bufAddr f.buffer + outFrameBytes x.width x.height x.tenBit ≤ a) →
        t.dev.byte a = s.dev.byte a) ∧
  ∀ (o : Fin 128) (payload : List Byte) (s : State) (x : Output) (f : StFrame) (l : List StFrame) (q : Nat),
    s.outp o.val = some x → x.st2110 = f :: l → x.stQueue = some q → s.composes = true →
    ∃ t y, exec (.st2110PacketSend o payload) s = .next t ∧ t.outp o.val = some y ∧ y.stSeq = x.stSeq + 1 ∧
      (f.sent + 1 < f.total → y.st2110 = { f with sent := f.sent + 1 } :: l) ∧
      (f.total ≤ f.sent + 1 → y.st2110.map StFrame.buffer = l.map StFrame.buffer ∧
        ∀ z k, y.st2110 = z :: k → z.start.isSome = true)

/-! ### Counts that a read clears -/

/-- A read of a count returns it and clears it: the evictions of the codec pool (R218), the late frames, missed frames and
skipped ST 2110-20 frames (R245), the peak of the cell buffer and the drops of a receive binding (R355), the gate and RED drops
(R379), the refusals and fallbacks of a pool and the violations of the auditor (R398), the corrected errors (R433), the fabric
errors (R488) and the peak input power (R462). A read of a counter's low word latches its high word (R354). -/
def Obligations.CountsAreReadAndCleared : Prop :=
  ∀ s : State,
    (s.bar0 0x10400C = true → ∃ t, exec .cdcPoolEvictRead s = .next t ∧ t.rd = s.codec.evictions.setWidth 64 ∧
      t.codec = { s.codec with evictions := 0 } ∧ OnlyIn [.codec, .rd] s t) ∧
    (s.bar0 0x180020 = true → ∃ t, exec .cmpLateCntRead s = .next t ∧ t.rd = s.cmp.lateCnt.setWidth 64 ∧
      t.cmp = { s.cmp with lateCnt := 0 } ∧ OnlyIn [.compositor, .rd] s t) ∧
    (∀ o, s.bar0 (0x190014 + 256 * o.val) = true → ∃ t, exec (.cmpOutMissedRead o) s = .next t ∧
      t.rd = (s.outCounts o.val).missed.setWidth 64 ∧ t.outCounts o.val = { s.outCounts o.val with missed := 0 } ∧
      (∀ k, k ≠ o.val → t.outCounts k = s.outCounts k) ∧ t.cmp.outputs = s.cmp.outputs ∧ OnlyIn [.compositor, .rd] s t) ∧
    (∀ o, s.bar0 (0x190020 + 256 * o.val) = true → ∃ t, exec (.cmpOutStSkipRead o) s = .next t ∧
      t.rd = (s.outCounts o.val).stSkip.setWidth 64 ∧ t.outCounts o.val = { s.outCounts o.val with stSkip := 0 } ∧
      (∀ k, k ≠ o.val → t.outCounts k = s.outCounts k) ∧ t.cmp.outputs = s.cmp.outputs ∧ OnlyIn [.compositor, .rd] s t) ∧
    (s.bar0 0xA0018 = true → ∃ t, exec .swcBufPeakRead s = .next t ∧ t.rd = BitVec.ofNat 64 s.swc.peak ∧
      t.swc = { s.swc with peak := 0 } ∧ OnlyIn [.switch, .rd] s t) ∧
    (∀ b, s.bar0 (0xB4004 + 8 * b.val) = true → ∃ t, exec (.swcRbDropRead b) s = .next t ∧
      t.rd.toNat = (s.bindRun b.val).full.toNat + 2 ^ 16 * (s.bindRun b.val).gaps.toNat ∧
      t.bindRun b.val = { s.bindRun b.val with full := 0, gaps := 0 } ∧ OnlyIn [.switch, .rd] s t) ∧
    (∀ p c, s.bar0 (0xB0000 + 256 * p.val + 8 * c.val) = true → ∃ t, exec (.swcCntLowRead p c) s = .next t ∧
      let v := Table.get 0 s.swc.counters (32 * p.val + c.val)
      t.rd.toNat = v.toNat % 2 ^ 32 ∧ t.swc = { s.swc with cntLatch := BitVec.ofNat 32 (v.toNat / 2 ^ 32) } ∧
      OnlyIn [.switch, .rd] s t) ∧
    (∀ p, s.bar0 (0xC0204 + 16 * p.val) = true → ∃ t, exec (.trfGateDropRead p) s = .next t ∧
      t.rd = (Table.get 0 s.trf.gateDrop p.val).setWidth 64 ∧ Table.get 0 t.trf.gateDrop p.val = 0 ∧
      (∀ k, k ≠ p.val → Table.get 0 t.trf.gateDrop k = Table.get 0 s.trf.gateDrop k) ∧ OnlyIn [.traffic, .rd] s t) ∧
    (s.bar0 0xC0500 = true → ∃ t, exec .trfRedDropRead s = .next t ∧ t.rd = s.trf.redDrop.setWidth 64 ∧
      t.trf = { s.trf with redDrop := 0 } ∧ OnlyIn [.traffic, .rd] s t) ∧
    (∀ n, s.bar0 (0x80118 + 32 * n.val) = true → ∃ t, exec (.bpmPoolRefusedRead n) s = .next t ∧
      t.rd = (Table.get 0 s.pool.refused n.val).setWidth 64 ∧ Table.get 0 t.pool.refused n.val = 0 ∧
      t.pool.bufs = s.pool.bufs ∧ OnlyIn [.pools, .rd] s t) ∧
    (∀ n, s.bar0 (0x8011C + 32 * n.val) = true → ∃ t, exec (.bpmPoolFallbacksRead n) s = .next t ∧
      t.rd = (Table.get 0 s.pool.fallbacks n.val).setWidth 64 ∧ Table.get 0 t.pool.fallbacks n.val = 0 ∧
      t.pool.bufs = s.pool.bufs ∧ OnlyIn [.pools, .rd] s t) ∧
    (s.bar0 0x84014 = true → ∃ t, exec .bpmAudViolRead s = .next t ∧ t.rd.toNat = s.audit.viol.toNat ∧
      t.audit = { s.audit with viol := 0 } ∧ OnlyIn [.audit, .rd] s t) ∧
    (s.bar0 0x50098 = true → ∃ t, exec .snufCorrectedRead s = .next t ∧ t.rd.toNat = s.snuf.corrected.toNat ∧
      t.snuf = { s.snuf with corrected := 0 } ∧ OnlyIn [.snuffer, .rd] s t) ∧
    (s.bar0 0x104C = true → ∃ t, exec .sysFabricCntRead s = .next t ∧ t.rd.toNat = s.pwr.fabricCnt.toNat ∧
      t.pwr = { s.pwr with fabricCnt := 0 } ∧ OnlyIn [.power, .rd] s t) ∧
    (s.bar0 0x6002C = true → ∃ t, exec .pwrPinPeakRead s = .next t ∧ t.rd = BitVec.ofNat 64 s.pwr.pinPeak ∧
      t.pwr = { s.pwr with pinPeak := 0 } ∧ OnlyIn [.power, .rd] s t)

/-! ### CCWs (chapter 9) -/

/-- A CCW that begins (R250 to R253) is the channel's current one, with its opcode's bytes. One that has begun and ends leaves
its channel as R253, R265 and R268 say: the result and code, going on under NEXT, or the end of the program with the completion
of START. The basic CCWs (R254 to R256, Table 09-10): NOP ends; TIC goes on at ADDRESS and refuses a TIC after a TIC; WAIT_TICK
waits for COUNT ticks of its group; WAIT_EVENT ends at once where an event of its mask is set, and clears it, passes over the
next CCW where COUNT is 0, and otherwise waits; SET_TIMER sets the timer COUNT microseconds ahead, or clears it; POST sets event
bits of a channel of its function, and ends with ACCESS_ERROR for another's. -/
def Obligations.BasicCcwsRunAsTheirOpcodesSay : Prop :=
  ((∀ (c : Fin 64) (w : List Byte) (op : Nat) (s : State), CcwStarts s c w op →
    let x := s.chan c
    let y := (ccwBegun s c w).chan c
    y.cur = some ⟨x.ccw, ccwAhead s c w, ccwAhead s c w, [], []⟩ ∧ y.st = .active ∧ y.suspend = none ∧ y.events = x.events ∧
      y.startSlot = x.startSlot ∧ y.fn = x.fn ∧ y.ccwAddr = x.ccw) ∧
  ∀ (c : Fin 64) (t : State) (k : CurCcw) (r : CcwResult) (code : CcwCode) (detail : Byte) (moved : Nat),
    (t.chan c).cur = some k → (t.chan c).st ≠ .halting → (t.chan c).suspend = none →
    CcwEnded t (t.endCcw c r code detail moved) c r code moved) ∧
  (∀ (c : Fin 64) (w : List Byte) (s : State),
    let b := ccwAhead s c w
    let t := ccwBegun s c w
    let x := t.chan c
    let starts := CcwStarts s c w
    let n := ccwCount b
    let mask : Word := BitVec.ofNat 32 (fieldLe b 8 4)
    let y := t.chan (ccwSubch b)
    (starts 0x05 → ∃ u, exec (.ccwNop c w) s = .next u ∧ CcwEnded t u c .ok .none 0) ∧
    (starts 0x08 → (s.chan c).ticked = false → ccwSubch b = 0 → (ccwAddr b).toNat % 16 = 0 →
      exec (.ccwTic c w) s = .next (t.setChan c { x with cur := none, ccw := ccwAddr b, ticked := true })) ∧
    (starts 0x08 → (s.chan c).ticked = true → ∃ u, exec (.ccwTic c w) s = .next u ∧
      CcwEnded t u c .programError .ticTic 0) ∧
    (∀ g : Fin 4, starts 0x09 → ccwSubch b = g.val → s.groupEn g = true → 0 < n → n ≤ 65535 →
      exec (.ccwWaitTick c w) s = .next (t.setChan c { x with st := .waiting, wait := .ticks g n })) ∧
    (starts 0x0A → fieldLe b 12 4 = 0 → ccwSubch b = 0 → x.events &&& mask ≠ 0 → ∃ u, exec (.ccwWaitEvent c w) s = .next u ∧
      CcwEnded t u c .ok .none 0 ∧ (u.chan c).events = x.events &&& ~~~mask) ∧
    (starts 0x0A → fieldLe b 12 4 = 0 → ccwSubch b = 0 → x.events &&& mask = 0 → n = 0 →
      ∃ u, exec (.ccwWaitEvent c w) s = .next u ∧ CcwEnded t u c .skipNext .none 0 ∧ (u.chan c).events = x.events) ∧
    (starts 0x0A → fieldLe b 12 4 = 0 → ccwSubch b = 0 → x.events &&& mask = 0 → n ≠ 0 →
      exec (.ccwWaitEvent c w) s = .next (t.setChan c { x with
        st := .waiting
        wait := .event mask (if n = 0xFFFFFFFF then none else some (s.time.run + microsecond * n)) })) ∧
    (starts 0x0B → ccwSubch b = 0 → ∃ u, exec (.ccwSetTimer c w) s = .next u ∧ CcwEnded t u c .ok .none 0 ∧
      (u.chan c).timer = (if n = 0 then none else some (s.time.run + microsecond * n))) ∧
    (starts 0x0C → n < 2 ^ 24 → ccwSubch b < 64 → ccwSubch b ≠ c.val → y.st ≠ .free → y.fn = x.fn → y.wait = .none →
      ∃ u, exec (.ccwPost c w) s = .next u ∧ CcwEnded t u c .ok .none 0 ∧
        (u.chan (ccwSubch b)).events = y.events ||| BitVec.ofNat 32 n) ∧
    (starts 0x0C → n < 2 ^ 24 → ccwSubch b = c.val → ∃ u, exec (.ccwPost c w) s = .next u ∧ CcwEnded t u c .ok .none 0 ∧
      (u.chan c).events = x.events ||| BitVec.ofNat 32 n) ∧
    (starts 0x0C → n < 2 ^ 24 → ccwSubch b < 64 → y.st = .free ∨ y.fn ≠ x.fn → ∃ u, exec (.ccwPost c w) s = .next u ∧
      CcwEnded t u c .accessError .protection 0))

/-- Events reach their channel (R255, R256, Table 09-15): a write of LMP_CH_EVENT sets bits 23 to 0; the timer of a channel sets
bit 31 when it expires; a WAIT_EVENT whose mask is met ends and its bits are cleared; one whose time-out runs out passes over
the next CCW. A routine that has run for LIMIT is stopped and its CALL ends with ROUTINE_TIMEOUT (R278). CALL enters a loaded
routine that is open to its function, on the core that interprets the channel (R277, R278): in user mode, at its entry, with the
count and the argument in g1 and g2, until its limit. A function outside the mask gets ACCESS_ERROR. LOAD puts the image of the
selected routine into the routine area and UNLOAD removes it; RESULT says what came of either (R276). -/
def Obligations.EventsAndRoutinesOfChannels : Prop :=
  (∀ (c : Fin 64) (s : State), s.live = true →
    let x := s.chan c
    (∀ m v, s.access m (0xE100C + 64 * c.val) = true → x.st ≠ .free →
      let e := x.events ||| (v &&& 0x00FFFFFF)
      ((∀ mask u, x.wait = .event mask u → e &&& mask = 0) → ∃ t, exec (.lmpChEventWrite m c v) s = .next t ∧
        t.chan c = { x with events := e } ∧ (∀ j, j ≠ c.val → t.chan j = s.chan j) ∧ OnlyIn [.channels] s t) ∧
      ∀ mask u k, x.wait = .event mask u → e &&& mask ≠ 0 → x.cur = some k → x.st = .waiting → x.suspend = none →
        ∃ t, exec (.lmpChEventWrite m c v) s = .next t ∧ (t.chan c).events = e &&& ~~~mask ∧ CcwEnded s t c .ok .none 0) ∧
    (∀ u, x.timer = some u → x.st ≠ .free → (∀ mask v, x.wait ≠ .event mask v) →
      ∃ t, exec (.channelTimerExpiry c) s = .next t ∧ t.chan c = { x with timer := none, events := x.events ||| 0x80000000 } ∧
        u ≤ t.time.run ∧ OnlyIn [.channels, .time] s t) ∧
    (∀ mask u k, x.wait = .event mask (some u) → x.cur = some k → x.st = .waiting → x.suspend = none →
      ∃ t, exec (.waitEventTimeout c) s = .next t ∧ u ≤ t.time.run ∧ CcwEnded s t c .skipNext .none 0) ∧
    ∀ n u k, x.wait = .call n u → x.cur = some k → x.st = .active → x.suspend = none →
      ∃ t, exec (.routineTimeout c) s = .next t ∧ u ≤ t.time.run ∧ CcwEnded s t c .programError .routineTimeout 0 ∧
        ∀ (j : Fin 13) (w : WCall), (s.wc j).call = some w → w.channel = c.val →
          (∀ i v, i ≠ j → (s.wc i).call = some v → v.channel ≠ c.val) →
          (t.wc j).call = none ∧ (t.wc j).pc = w.pc ∧ (t.wc j).u = false) ∧
  ((∀ (c : Fin 64) (w : List Byte) (s : State) (r : Routine), CcwStarts s c w 0x0D →
    let b := ccwAhead s c w
    let t := ccwBegun s c w
    ccwSubch b = 0 → fieldLe b 16 1 < 64 → fieldLe b 17 1 < 2 → fieldLe b 18 2 = 0 → fieldLe b 24 8 = 0 →
    isDevice (ccwAddr b) = true → t.areaCheck (ccwAddr b) (max 1 (ccwCount b)) = none → s.routine (fieldLe b 16 1) = some r →
    (r.mask.getLsbD (s.chan c).fn = false → ∃ u, exec (.ccwCall c w) s = .next u ∧
      CcwEnded t u c .accessError .protection 0) ∧
    (r.mask.getLsbD (s.chan c).fn = true → ∃ u, exec (.ccwCall c w) s = .next u ∧ (u.chan c).st = .active ∧
      (u.chan c).wait = .call (fieldLe b 16 1) (s.time.run + microsecond * bits (s.regOr 1000 0xE0008) 16 0) ∧
      let j := lampWick t.lampCore
      (u.wc j).pc = BitVec.ofNat 32 r.entry ∧ (u.wc j).u = true ∧ (u.wc j).reg 1 = BitVec.ofNat 32 (ccwCount b) ∧
        (u.wc j).reg 2 = BitVec.ofNat 32 (fieldLe b 20 4) ∧ (u.wc j).udsp = 4096 ∧ (u.wc j).ucsp = 1020 ∧
        (u.wc j).call.map WCall.channel = some c.val)) ∧
  ∀ (m : Master) (v : Word) (s : State), s.access m 0xE001C = true → s.live = true →
    let n := bits (s.regOr 0 0xE0010) 5 0
    let a := s.regOr 0 0xE0014 + 2 ^ 32 * s.regOr 0 0xE0018
    let h := s.dev.bytes a 64
    let code := fieldLe h 4 4
    let init := fieldLe h 12 4
    (v.getLsbD 0 = true → s.routine n ≠ none → exec (.routineLoad m v) s = .next (s.rtResult 4)) ∧
    (v.getLsbD 0 = true → s.routine n = none →
      (a % 64 ≠ 0 ∨ routineHeaderOk h = false → exec (.routineLoad m v) s = .next (s.rtResult 3)) ∧
      (a % 64 = 0 → inDevice a (64 + code + init) = true → routineHeaderOk h = true → s.poisonIn a (64 + code + init) = [] →
        (routineGap (code + fieldLe h 8 4) s.routineSpace 0 = none → exec (.routineLoad m v) s = .next (s.rtResult 2)) ∧
        ∀ base, routineGap (code + fieldLe h 8 4) s.routineSpace 0 = some base → ∃ t, exec (.routineLoad m v) s = .next t ∧
          t.lmp.rtResult = 0 ∧ OnlyIn [.channels, .wick] s t ∧ t.wick.cores = s.wick.cores ∧
          t.routine n = some ⟨base, code, fieldLe h 8 4, fieldLe h 16 4, BitVec.ofNat 16 (fieldLe h 20 2),
            BitVec.ofNat 16 (fieldLe h 22 2)⟩ ∧
          t.wick.cluster = s.wick.cluster.setBytes (0x1C0000 + base)
            (s.dev.bytes (a + 64) (code + init) ++ List.replicate (fieldLe h 8 4 - init) 0))) ∧
    (v.getLsbD 1 = true → (s.routineBusy n = true → exec (.routineUnload m v) s = .next (s.rtResult 1)) ∧
      (s.routineBusy n = false → ∃ t, exec (.routineUnload m v) s = .next t ∧ t.routine n = none ∧ t.lmp.rtResult = 0 ∧
        (∀ j, j ≠ n → t.routine j = s.routine j) ∧ OnlyIn [.channels] s t)))

/-- WRITE and READ take their subchannel and begin their transfer when the span is complete (R249, R253, R269, R271), SENSE
stores 32 bytes of sense data (R275), and the unit CCWs hand their order to the unit and end when it is dispatched, under ASYNC,
or wait for their job; a denied order ends them with UNIT_ERROR (R257 to R259). The end of a transfer ends its CCW (R268, R271):
a WRITE has sent its bytes; a READ has stored what was received, up to a UART's terminator, with LENGTH_ERROR where it is short
without SHORT_OK; a subchannel that is lost ends it with UNIT_LOST. A READ that receives nothing within TIMEOUT is a unit error
of code 6, and a CCW with retries left is carried out again once the cause has cleared (R272, R273). -/
def Obligations.TransferAndUnitCcwsBeginAndEnd : Prop :=
  ((∀ (c : Fin 64) (w : List Byte) (pages : List DWord) (data b : List Byte) (s t t1 : State) (op : Nat) (l : List (DWord × Nat))
    (i : Instr), (op = 0x01 ∧ i = .ccwWrite c w pages data) ∨ (op = 0x02 ∧ data = [] ∧ i = .ccwRead c w pages) →
    let v := ccwSubch b
    (s.chan c).cur = none → (s.chan c).spanning = false → s.beginCcw c w (· == op) = .ok (t, b) → t.subCheck c v op = none →
    ccwExtFields v b = true → (v ∈ [0x10, 0x11] → ccwCount b % 80 = 0) → isDmaSub v = false → t.takeSubch c v = (t1, true) →
    ccwCount b ≤ 16777215 → t1.ccwAreas b (ccwCount b) pages = .ok l → (op = 0x01 → (t1.readAreas l).2 = false) →
    ∃ u k, exec i s = .next u ∧ (u.chan c).cur = some k ∧ k.bytes = b ∧ k.first = b ∧
      k.areas = l.map (fun e => (if op = 0x02 ∧ ccwFlag b 2 then none else some e.1, e.2)) ∧
      k.data = (if op = 0x01 then t1.gather l data else []) ∧
      (ccwFlag b 1 = true → (u.chan c).spanning = true ∧ (u.chan c).ccw = (s.chan c).ccw + BitVec.ofNat 64 (ccwLen b)) ∧
      (ccwFlag b 1 = false → (v < 8 → t1.lmp.stuck.getLsbD v = false) →
        (v ∈ [0x10, 0x11] → t1.lmp.busOff.getLsbD (v - 0x10) = false) →
        (u.chan c).wait = .transfer v (if op = 0x02 ∧ ccwTimeout b ≠ 0 then some (t1.now + microsecond * ccwTimeout b) else none))) ∧
  (∀ (c : Fin 64) (w : List Byte) (pages : List DWord) (b : List Byte) (s t t1 : State) (l : List (DWord × Nat)),
    let v := ccwSubch b
    s.beginCcw c w (· == 0x04) = .ok (t, b) → periph v ≠ none → t.subGranted c v = true → ccwCount b ≤ 16777215 →
    t.ccwAreas b (min 32 (ccwCount b)) pages = .ok l → t.takeSubch c v = (t1, true) → ccwFlag b 2 = false →
    let t2 := t1.scatter (l.map (fun e => (some e.1, e.2))) (t1.senseBytes c v)
    exec (.ccwSense c w pages) s = .next (if ccwCount b < 32 then t2.endCcw c .lengthError .none 0 (ccwCount b)
      else t2.endCcw c .ok .none 0 32)) ∧
  ∀ (c : Fin 64) (w : List Byte) (p : PlaneData) (data b : List Byte) (s t : State) (op : Nat) (i : Instr)
    (f : State → Ask → Asked),
    (op = 0x20 ∧ i = .ccwDecode c w ∧ f = fun t a => t.askDecode a) ∨
    (op = 0x21 ∧ i = .ccwEncode c w ∧ f = fun t a => t.askEncode a) ∨
    (op = 0x22 ∧ i = .ccwCompose c w p ∧ f = fun t a => t.askCompose a p) ∨
    (op = 0x23 ∧ i = .ccwSend c w data ∧ f = fun t a => t.askSend a data) →
    s.beginCcw c w (· == op) = .ok (t, b) →
    let x := t.chan c
    let a : Ask := ⟨b, x.fn, .chan c, .channel c (ccwAsync b)⟩
    let t1 := if ccwAsync b then t else t.setChan c { x with st := .waiting, wait := .job }
    (∀ code, t.unitCcwBad x.fn b = some code → exec i s =
      .next (t.failCcw c (if code = .protection then .accessError else .programError) code 0)) ∧
    (t.unitCcwBad x.fn b = none →
      (∀ t2, f t1 a = .ok t2 → exec i s = .next (if ccwAsync b then t2.endCcw c .ok .none 0 0 else t2)) ∧
      ∀ d t2, f t1 a = .error (d, t2) → exec i s = .next (t2.failCcw c .unitError .none d.st.code))) ∧
  (∀ (c : Fin 64) (s : State) (k : CurCcw) (u : Nat) (until_ : Option Nat), s.live = true → (s.chan c).cur = some k →
    let x := s.chan c
    let op := ccwOp k.first
    let total := (k.areas.map Prod.snd).sum
    x.suspend = none → x.ring = none → isDmaSub u = false → x.st = .active →
    (x.wait = .transfer u until_ →
      (∀ e : TransferEnd, e.sense.val = 0 → e.lost = false → e.busError = false → e.poisoned = false → op = 0x01 →
        ccwCount k.bytes ≤ total → ∃ t, exec (.peripheralTransferEnd c e) s = .next t ∧
          (k.sent u total ≠ [] → .peripheral u (k.sent u total) ∈ t.out) ∧ CcwEnded s t c .ok .none (ccwCount k.bytes)) ∧
      (∀ (e : TransferEnd) (a : DWord) (n : Nat), e.sense.val = 0 → e.lost = false → e.busError = false → e.poisoned = false →
        op = 0x02 → u ∉ [0x10, 0x11] → k.areas = [(some a, n)] → ccwCount k.bytes = n → isDevice a = false →
        let r := s.untilTerm u e.received
        r ≠ [] → 0 < n →
        ∃ t, exec (.peripheralTransferEnd c e) s = .next t ∧ t.host = s.host.setBytes a.toNat (r.take n) ∧
          (n ≤ r.length ∨ ccwFlag k.bytes 4 = true → CcwEnded s t c .ok .none (min n r.length)) ∧
          (r.length < n → ccwFlag k.bytes 4 = false → CcwEnded s t c .lengthError .none r.length)) ∧
      ∀ e : TransferEnd, e.lost = true → ∃ t m, exec (.peripheralTransferEnd c e) s = .next t ∧ CcwEnded s t c .unitLost .none m) ∧
    (∀ v, x.wait = .transfer u (some v) →
      (ccwRetryMax k.first ≤ x.retriesUsed → ∃ t, exec (.readTimeout c) s = .next t ∧ v ≤ t.now ∧ (t.chan c).detail = 6 ∧
        (Table.get ⟨0, 0, 0, 0⟩ t.lmp.sense u).code = 6 ∧ CcwEnded s t c .unitError .none 0) ∧
      (x.retriesUsed < ccwRetryMax k.first → ∃ t y, exec (.readTimeout c) s = .next t ∧ v ≤ t.now ∧
        t.chan c = { x with retriesUsed := x.retriesUsed + 1, wait := .retry u y })) ∧
    ∀ v, x.wait = .retry u v → (u < 8 → s.lmp.stuck.getLsbD u = false) → (u ∈ [0x10, 0x11] → s.lmp.busOff.getLsbD (u - 0x10) = false) →
      op ≠ 0x02 → exec (.ccwRetry c) s = .next (s.setChan c { x with wait := .transfer u none }))

/-- Lines and pins (R270, R271, R274, Table 15-13): a line that is stuck, or an I2C bus that stays faulty, is recorded in the log;
with no transfer on it a stuck UART waits for its next CCW, and a transfer on it meets the unit error. A CAN frame that passes a
filter is kept, with its time, for a READ. An edge on an input pin sets the event bit it is bound to. A core that has not
interpreted a CCW within 1 ms is reported. -/
def Obligations.LinesFramesAndEdgesAreTaken : Prop :=
  (∀ (u : Fin 8) (s : State), s.live = true → s.pwr.brownOut = false → ∃ t r, exec (.lineStuck u) s = .next t ∧
    t.nvs.log.head? = some r ∧ r.type = 6 ∧ r.payload = leBytes 2 u.val ++ [1, 0] ++ leBytes 4 0 ∧
    (s.transferOn u = none → t.lmp = { s.lmp with stuck := s.lmp.stuck ||| (1 <<< u.val) } ∧ OnlyIn [.channels, .nvs] s t) ∧
    ∀ c, s.transferOn u = some c → (Table.get ⟨0, 0, 0, 0⟩ t.lmp.sense u).code = 1) ∧
  (∀ (k : Fin 4) (levels : BitVec 2) (s : State), s.live = true → s.pwr.brownOut = false →
    let u := 0x0C + k.val
    ∃ t r, exec (.busFault k levels) s = .next t ∧ t.nvs.log.head? = some r ∧ r.type = 6 ∧
      r.payload = leBytes 2 u ++ [2, levels.zeroExtend 8] ++ leBytes 4 0 ∧
      (s.transferOn u = none → t.lmp = s.lmp ∧ OnlyIn [.nvs] s t) ∧
      ∀ c, s.transferOn u = some c → (Table.get ⟨0, 0, 0, 0⟩ t.lmp.sense u).code = 2 ∧
        (Table.get ⟨0, 0, 0, 0⟩ t.lmp.sense u).levels = levels.zeroExtend 16) ∧
  (∀ (k : Fin 2) (frame : List Byte) (s : State), s.live = true →
    let passes := ∃ i, i < 32 ∧ filterPasses (Table.get [] s.lmp.canFilters (k.val * 32 + i)) frame = true
    (frame.length = 80 → passes → s.lmp.busOff.getLsbD k.val = false → ∃ t, exec (.canFrameRx k frame) s = .next t ∧
      Table.get [] t.lmp.canRx k.val = Table.get [] s.lmp.canRx k.val ++
        [frame.take 8 ++ leBytes 8 s.time.dts.toNat ++ frame.drop 16] ∧ OnlyIn [.channels] s t) ∧
    (¬ passes → exec (.canFrameRx k frame) s = .next s)) ∧
  (∀ (pin : Fin 48) (rising : Bool) (s : State), s.live = true →
    (s.lmp.gpioDrive.getLsbD pin.val = true → exec (.gpioEdge pin rising) s = .next s) ∧
    (s.lmp.gpioDrive.getLsbD pin.val = false → ∃ t, exec (.gpioEdge pin rising) s = .next t ∧
      t.lmp.gpioIn.getLsbD pin.val = rising ∧ (∀ j, j ≠ pin.val → t.lmp.gpioIn.getLsbD j = s.lmp.gpioIn.getLsbD j) ∧
      (Table.get .none s.lmp.gpioEvents pin.val = none → OnlyIn [.channels] s t ∧ t.lmp.chans = s.lmp.chans) ∧
      ∀ e, Table.get .none s.lmp.gpioEvents pin.val = some e → e.edge = 3 ∨ e.edge = (if rising then 1 else 2) →
        (s.chan e.channel).st ≠ .free → (s.chan e.channel).wait = .none →
        t.chan e.channel = { s.chan e.channel with events := (s.chan e.channel).events ||| (1 <<< e.bit) })) ∧
  ∀ (k : Fin 4) (c : Fin 64) (s : State), s.chansRun = true → s.lmp.cores.getLsbD k.val = true → (s.chan c).st = .active →
    exec (.lamplighterStall k c) s = .next (s.fault (0x050 + k.val) 3 0)

/-- A CONTROL order that is carried out has its effect and ends its CCW with OK (R262, R270, R274, Tables 09-5 and 09-9): CONFIG is
kept for the next CCW; BREAK and BUS_CLEAR drive the line, and BREAK waits for its end, a BUS_CLEAR that leaves a line held being a
unit error of code 2; FILTER sets a filter and RECOVER leaves bus-off; DRIVE sets and clears pins, SET winning; DIRECTION sets
which are driven; PULSE inverts pins for its width; EVENT binds an edge to an event bit of a channel of the function. An order on
SELF sets the status ring. -/
def Obligations.ControlOrdersActOnTheirPeripheral : Prop :=
  (∀ (c : Fin 64) (w order : List Byte) (s : State),
    let b := ccwAhead s c w
    let t := ccwBegun s c w
    let u := ccwSubch b
    let blk := s.orderBlock b order
    let runs := OrderRuns s c w blk
    let n := fieldLe blk 4 4
    let pins (i : Nat) : BitVec 48 := BitVec.ofNat 48 (fieldLe blk i 8)
    let ends (i : Instr) (p : LmpState → Prop) : Prop :=
      ∃ e, exec i s = .next e ∧ CcwEnded t e c .ok .none (ccwCount b) ∧ p e.lmp
    let config (i : Instr) : Prop := ends i (fun x => Table.get [] x.config u = blk)
    (runs .uart 1 → config (.uartConfig c w order)) ∧ (runs .spi 1 → config (.spiConfig c w order)) ∧
    (runs .i2c 1 → config (.i2cConfig c w order)) ∧ (runs .can 1 → config (.canConfig c w order)) ∧
    (runs .i2s 1 → config (.i2sConfig c w order)) ∧
    (runs .uart 2 → s.lmp.stuck.getLsbD u = false → ∃ e, exec (.uartBreak c w order) s = .next e ∧
      .line u n ∈ e.out ∧ (e.chan c).wait = .transfer u none ∧ (e.chan c).cur = (t.chan c).cur ∧
      Table.get none e.lmp.busy u = some c.val) ∧
    (runs .i2c 2 → ∃ e, exec (.busClear c w order false) s = .next e ∧ .line u 9 ∈ e.out ∧
      CcwEnded t e c .ok .none (ccwCount b)) ∧
    (runs .i2c 2 → ∃ e, exec (.busClear c w order true) s = .next e ∧ .line u 9 ∈ e.out ∧
      (Table.get ⟨0, 0, 0, 0⟩ e.lmp.sense u).code = 2) ∧
    (runs .can 2 → ends (.canFilter c w order) (fun x => Table.get [] x.canFilters ((u - 0x10) * 32 + fieldLe blk 1 1) = blk ∧
      ∀ i, i ≠ (u - 0x10) * 32 + fieldLe blk 1 1 → Table.get [] x.canFilters i = Table.get [] s.lmp.canFilters i)) ∧
    (runs .can 3 → ends (.canRecover c w order) (fun x => x.busOff = s.lmp.busOff &&& ~~~((1 : BitVec 2) <<< (u - 0x10)))) ∧
    (runs .gpio 1 → ends (.gpioDrive c w order) (fun x => x.gpioOut = (s.lmp.gpioOut &&& ~~~(pins 16)) ||| pins 8 ∧
      x.gpioDrive = s.lmp.gpioDrive)) ∧
    (runs .gpio 2 → ends (.gpioDirection c w order) (fun x => x.gpioDrive = pins 8 ∧ x.gpioOut = s.lmp.gpioOut)) ∧
    (runs .gpio 3 → ends (.gpioPulse c w order) (fun x => x.gpioPulses =
      (pins 8, s.now + microsecond * n) :: s.lmp.gpioPulses.filter (fun e => decide (s.now < e.2)))) ∧
    (runs .gpio 4 → (s.chan (fieldLe blk 2 1)).st ≠ .free → (s.chan (fieldLe blk 2 1)).fn = (s.chan c).fn →
      ends (.gpioEvent c w order) (fun x => Table.get .none x.gpioEvents (fieldLe blk 1 1) = (if fieldLe blk 4 1 = 0 then none
        else some (⟨fieldLe blk 2 1, fieldLe blk 3 1, fieldLe blk 4 1⟩ : GpioEvent))))) ∧
  ∀ (c : Fin 64) (w order : List Byte) (s : State), CcwStarts s c w 0x03 →
    let b := ccwAhead s c w
    let t := ccwBegun s c w
    let blk := t.orderBlock b order
    let n := fieldLe blk 4 2
    let a : DWord := BitVec.ofNat 64 (fieldLe blk 8 8)
    ∀ l, ccwSubch b = 0x22 → t.ccwAreas b 32 [ccwAddr b] = .ok l → (t.readAreas l).2 = false →
      t.ringOrderOk (t.chan c).fn blk = true →
      (n ≠ 0 → isDevice a = true → inDevice (spaceOff a) (32 * n) = true ∧ inFirmware (spaceOff a) = false) →
      ∃ e, exec (.statusRing c w order) s = .next e ∧ CcwEnded t e c .ok .none (ccwCount b) ∧
        (e.chan c).ring.map (fun r => (r.address, r.slots, r.vector)) = (if n = 0 then none else some (a, n, fieldLe blk 6 2))

/-! ### Modes, power and the start (chapters 15 and 16) -/

/-- A mode is requested by SET_FEATURE or by a write of PWR_MODE_REQ (R112, R437, Table 15-1): the mode in force answers OK at
once, a change in progress BUSY, a mode that may not be requested NOT_PERMITTED; PILOT answers OK and follows 100 ms later, and
SERVICE from NIGHT is taken up at a tick. A change that waits for no tick takes effect when its time has passed and its
requester is answered (R436); entry to PILOT by an order writes the shutdown word of an order, and the queues and the device's
memory are lost (R458). -/
def Obligations.ModesAreRequestedAndEntered : Prop :=
  (∀ (n : Fin 4096) (s : State) (x : Slot), s.ready n.val 0x07 = some x → x.field 16 1 = 5 → Passes (s.featureChecks x) →
    let m := x.field 24 1 % 16
    let start := exec (.setModeRequest n) s
    s.rivals .mode m (.fn (Fin.ofNat 16 x.fn)) = [] →
    (modeOf m = some s.pwr.mode → ∃ t, start = .next t ∧ Finished t n.val .ok m 0 ∧ t.pwr = s.pwr ∧
      OnlyIn [.queues, .stage] s t) ∧
    (modeOf m ≠ some s.pwr.mode → s.changing = true → ∃ t, start = .next t ∧ Finished t n.val .busy 0 0 ∧ t.pwr = s.pwr) ∧
    (modeOf m ≠ some s.pwr.mode → s.changing = false → (∀ k, modeOf m = some k → s.mayRequest k true = false) →
      ∃ t, start = .next t ∧ Finished t n.val .notPermitted 0 0 ∧ t.pwr = s.pwr) ∧
    (m = 5 → s.pwr.mode = .service → s.changing = false → ∃ t c, start = .next t ∧ t.pwr.change = some c ∧ c.target = none ∧
      c.requester = some (.command n.val) ∧ c.asked = 5 ∧ c.dueAt = s.now ∧ c.atTick = true ∧ t.pwr.base = .night ∧
      t.pwr.mode = .service ∧ t.slot n.val = some { x with phase := .running }) ∧
    (m = 1 → s.pwr.mode ∈ [Mode.provision, .service, .night] → s.changing = false → ∃ t c, start = .next t ∧
      Finished t n.val .ok 1 0 ∧ t.pwr.change = some c ∧ c.target = some .pilot ∧ c.dueAt = s.now + 100 * millisecond ∧
      c.atTick = false)) ∧
  (∀ (m : Master) (v : Word) (s : State), s.access m 0x60004 = true →
    let n := bits v.toNat 3 0
    (modeOf n = some s.pwr.mode → ∃ t, exec (.pwrModeReq m v) s = .next t ∧
      t.pwr = { s.pwr with resCode := .ok, resMode := n } ∧ OnlyIn [.power, .queues, .stage] s t) ∧
    (modeOf n ≠ some s.pwr.mode → s.changing = true → ∃ t, exec (.pwrModeReq m v) s = .next t ∧
      t.pwr = { s.pwr with resCode := .busy, resMode := n } ∧ OnlyIn [.power, .queues] s t) ∧
    (modeOf n ≠ some s.pwr.mode → s.changing = false → (∀ k, modeOf n = some k → s.mayRequest k false = false) →
      ∃ t, exec (.pwrModeReq m v) s = .next t ∧ t.pwr = { s.pwr with resCode := .notPermitted, resMode := n } ∧
        OnlyIn [.power, .queues] s t) ∧
    (n = 4 → s.pwr.mode = .provision → s.changing = false → ∃ t c, exec (.pwrModeReq m v) s = .next t ∧
      t.pwr.change = some c ∧ c.target = none ∧ c.requester = some (.register m) ∧ c.atTick = true ∧ t.pwr.base = .service)) ∧
  ∀ (s : State) (c : ModeChange), s.pwr.change = some c → c.atTick = false → s.halted = false → s.pwr.inWarmReset = false →
    s.pwr.brownOut = false →
    (∀ m, c.target = some m → s.pwr.mode ∈ [Mode.provision, .service] → m ∈ [Mode.test, .standby] →
      ∃ t, exec .modeTransitionEnd s = .next t ∧ t.pwr.mode = m ∧ c.dueAt ≤ t.now ∧ t.pwr.change = none ∧
        t.icu.pend.getLsbD 280 = true ∧ ∀ w, c.requester = some (.register w) → t.pwr.resCode = .ok ∧ t.pwr.resMode = c.asked) ∧
    (c.target = some .pilot → s.pwr.mode ≠ .recovery → ∃ t, exec .modeTransitionEnd s = .next t ∧ t.pwr.mode = .pilot ∧
      c.dueAt ≤ t.now ∧ shutdownCause t.nvs.shutdown = 1 ∧ t.qm = QmState.reset ∧ t.dev = [] ∧ t.host = s.host)

/-- A sample of the sensors goes into their registers; a hot die begins the thermal cap, which takes SERVICE to LIMITED, and at
115 °C the device shuts down (R442 to R447). A cap that has met its release condition for 10 s ends and its gated cores return; a
further second of a cap gates one more core (R445). A rail fault is reported, and shuts down unless it is an under-voltage; a
brown-out leads to PILOT within 100 ms; VIN below 2.30 V leaves OFF; VIN good again leads from OFF to PILOT, and on to a start
where PORST_N is high (R436, R446, R457, R458, R472). -/
def Obligations.SensorsCapsAndTheSupply : Prop :=
  (∀ (r : SensorReading) (s : State), s.sensorsRun = true →
    let u := s.takeReading r
    (u.pwr.tj < 460 → ∃ t, exec (.sensorSample r) s = .next t ∧ t.pwr.vin = r.vin ∧ t.pwr.iin = r.iin ∧ t.pwr.pin = r.pin ∧
      t.pwr.pinPeak = max s.pwr.pinPeak r.pin ∧
      (∀ k y, k < 14 → r.temps[k]? = some (some y) → -200 ≤ y → y ≤ 600 → t.temp k = (y, false)) ∧
      (400 ≤ u.pwr.tj → u.dieSensors ≠ [] → s.capped = false → s.pwr.mode = .service → r.pin ≤ s.powerLimit →
        t.pwr.thermalCap = true ∧ t.pwr.mode = .limited ∧ t.icu.pend.getLsbD 276 = true)) ∧
    (460 ≤ u.pwr.tj → u.dieSensors ≠ [] → ∃ t, exec (.sensorSample r) s = .next t ∧ t.pwr.mode = .pilot ∧
      t.pwr.wakesFrom = 60 * second + s.now ∧ shutdownCause t.nvs.shutdown = 3)) ∧
  (∀ (s : State) (a : Nat), s.sensorsRun = true → s.capDue true = some a → s.pwr.powerCap = false →
    ∃ t, exec .capEnd s = .next t ∧ t.pwr.thermalCap = false ∧ t.pwr.gated = 0 ∧ a ≤ t.now ∧ t.icu.pend.getLsbD 276 = true) ∧
  (∀ (s : State) (c : Nat) (l : List Nat), s.sensorsRun = true → s.capped = true → s.pwr.mode.media = true →
    1 ≤ s.gatedCount → s.gatedCount < 7 → s.gateable = c :: l → ∃ t, exec .capGateMore s = .next t ∧
      t.pwr.gated = s.pwr.gated ||| ((1 : BitVec 8) <<< c) ∧ second + s.pwr.capStep ≤ t.now ∧ t.pwr.capStep = t.now) ∧
  (∀ (rail : Fin 10) (kind : Fin 3) (s : State), s.pwr.mode ≠ .off → s.pwr.mode ≠ .pilot →
    (kind = 0 → exec (.railFault rail kind) s = .next ((s.fault 0x002 1 rail.val).raise 278)) ∧
    (kind ≠ 0 → ∃ t, exec (.railFault rail kind) s = .next t ∧ t.pwr.mode = .pilot ∧ shutdownCause t.nvs.shutdown = 4)) ∧
  (∀ s : State, s.pwr.mode ≠ .off → s.pwr.mode ≠ .pilot →
    (s.pwr.brownOut = true → exec .brownOut s = .next { s with pwr := { s.pwr with vinBack := false } }) ∧
    (s.pwr.brownOut = false → ∃ t c, exec .brownOut s = .next t ∧ t.pwr.brownOut = true ∧ t.pwr.change = some c ∧
      c.target = some .pilot ∧ c.dueAt = 100 * millisecond + s.now ∧ c.atTick = false ∧ shutdownCause t.nvs.shutdown = 2)) ∧
  (∀ s : State, s.pwr.mode ≠ .off → ∃ t, exec .vinLoss s = .next t ∧ t.pwr.mode = .off ∧ t.nvs.writes = [] ∧
    (s.nvs.writes = [] → t.nvs = s.nvs) ∧ t.host = s.host ∧ t.qm = QmState.reset ∧ t.dev = [] ∧ t.pending = s.pending ∧
    (∀ w, s.nvs.writes = [w] → w.area = 3 → s.now < w.ends → ∀ r, r ∈ t.nvs.log ↔ r ∈ s.nvs.log ∧ r.seq ≠ w.seq)) ∧
  ∀ s : State,
    (s.pwr.mode = .off → s.pwr.porstN = false → ∃ t, exec .vinGood s = .next t ∧ t.pwr.mode = .pilot ∧
      t.pwr.pilotAt = t.now ∧ t.now = s.now + 5 * millisecond) ∧
    (s.pwr.mode = .off → s.pwr.porstN = true → ∃ t, exec .vinGood s = .next t ∧ t.pwr.mode = .boot ∧ t.pwr.bootStep = 1 ∧
      t.pwr.cold = true ∧ ∀ x, s.pwr.releaseHeld = some x → t.pwr.straps = x) ∧
    (s.pwr.mode ∉ [Mode.off, .pilot] → s.pwr.brownOut = true →
      exec .vinGood s = .next { s with pwr := { s.pwr with vinBack := true } })

/-- A start goes through the boot steps of Table 15-3 (R216, R440, R441, R458): CLK32K is noted; a bad ROM stops it, a good one
goes on with the cause of the last shutdown; the SRAM and the DRAM; the cores with the microcode of the active image; the wait
for a time reference, which ends with DTS running free; and the configuration blob and PROVISION. Stated for a start that finds
no bad row, no bad pseudo-channel and no pair in its blob. -/
def Obligations.BootStepsLeadToProvision : Prop :=
  (∀ (b : BootFacts) (s : State), s.pwr.mode = .boot → s.pwr.inWarmReset = false → s.halted = false → s.pwr.romBad = false →
    let p := s.pwr
    (p.bootStep = 1 → exec (.bootStepEnd b) s = .next { s with pwr := { p with clk32kLost := !b.ok, bootStep := 2 } }) ∧
    (p.bootStep = 2 → b.ok = false → ∃ t, exec (.bootStepEnd b) s = .next t ∧ t.pwr = { p with romBad := true } ∧
      t.snuf.flicker = false ∧ OnlyIn [.power, .snuffer] s t) ∧
    (p.bootStep = 2 → b.ok = true → ∃ t, exec (.bootStepEnd b) s = .next t ∧ t.pwr.lastOff = shutdownCause s.nvs.shutdown ∧
      t.nvs.shutdown = 0 ∧ t.pwr.mode = .boot ∧ t.pwr.bootStep = (if p.warm then 5 else 3)) ∧
    (p.bootStep = 3 → b.badRows = [] → ∃ t, exec (.bootStepEnd b) s = .next t ∧ t.pwr.bootStep = 4 ∧
      t.snuf = { s.snuf with flickerAt := s.now, lastAccept := s.now } ∧
      (∀ c, c < 8 → s.snuf.retiredCores.getLsbD c = true → (t.core c).st = .retired)) ∧
    (p.bootStep = 4 → b.badChannels = [] → b.ok = true →
      exec (.bootStepEnd b) s = .next { s with pwr := { p with bootStep := 5 } }) ∧
    (∀ mi mp, p.bootStep = 5 → p.warm = false → (∀ i, (s.image i).spare ≠ .pending) →
      bootPasses b 0 (s.image 0).active = true → bootImage b 0 (s.image 0).active = some mi →
      bootPasses b 1 (s.image 1).active = true → bootImage b 1 (s.image 1).active = some mp →
      mcBaseReq mp = mcVersionOf mi → p.gated = 0 → ∃ t, exec (.bootStepEnd b) s = .next t ∧ t.pwr.bootStep = 6 ∧
        t.codec.copyLoaded = true ∧ t.codec.copyBase = mcVersionOf mi ∧ t.codec.copyPatch = mcLevelOf mp ∧
        (∀ c, c < 8 → (t.core c).mcBase = mcVersionOf mi ∧ (t.core c).mcPatch = mcLevelOf mp ∧
          (t.core c).microStore = t.codec.copyMicro ∧ (t.core c).nanoStore = t.codec.copyNano ∧
          ((s.core c).st ≠ .retired → (t.core c).st = .inService) ∧ ((s.core c).st = .retired → (t.core c).st = .retired))) ∧
    (p.bootStep = 6 → p.timeWaitEnd = none → b.blobPairs = [] → s.anyQualified = false → ∃ t, exec (.bootStepEnd b) s = .next t ∧
      t.pwr.timeWaitEnd = some (s.now + s.timeWait) ∧ t.pwr.bootStep = 6) ∧
    (p.bootStep = 7 → b.blobPairs = [] → b.blobOk = true → s.pairsPass [] = true → p.warmRstN = true → ∃ t, exec (.bootStepEnd b) s = .next t ∧
      t.pwr.mode = .provision ∧ t.pwr.provisioned = true ∧ t.pwr.cold = false ∧ t.pwr.blobVersion = b.blobVersion ∧
      t.icu.pend.getLsbD 280 = true)) ∧
  ∀ (s : State) (d : Nat), s.pwr.mode = .boot → s.pwr.bootStep = 6 → s.pwr.timeWaitEnd = some d → s.halted = false →
    s.pwr.inWarmReset = false → ∃ t, exec .timeWaitExpiry s = .next t ∧ t.pwr.bootStep = 7 ∧ t.pwr.timeWaitEnd = none ∧
      d ≤ t.now ∧ t.pwr.mode = .boot

/-- Pins, clocks and wakes: a source that is selected wakes the device from PILOT into boot step 2, or waits for a lost REFCLK_SYS
(R410, R442, R471); PORST_N low leads to PILOT and its release to a cold start with the straps sampled (R472); a warm reset stops
and clears the units, keeps DTS and DRAM, and its release starts at step 2 (R473). The loss of REFCLK_SYS shuts the device down;
that of another reference is reported once, and it may return (R471). A stuck sideband is reported. A JTAG instruction is loaded
while the TAP works; EXTEST, CLAMP and HIGHZ order HALT, and an unknown code is BYPASS (R480). -/
def Obligations.PinsClocksAndWakes : Prop :=
  (∀ (i : Instr) (src : Nat) (s : State), s.pwr.mode = .pilot →
    (∃ r, i = .pilotWake r ∧ bit (s.regOr 0 0x600F0) 24 = r ∧ src = 272) ∨
    (i = .pilotTimer ∧ s.pilotTimer ≠ 0 ∧ s.pwr.pilotTiming = true ∧ src = 273) ∨ (i = .smbWake ∧ src = 274) ∨
    (i = .pciePerstNRelease ∧ s.pwr.perstN = false ∧ src = 275) →
    s.pwr.porstN = true → s.pwr.wakesFrom ≤ s.now → s.pwr.brownOut = false → s.pwr.wakeHeld = false →
    s.icu.pilotSel.contains src = true →
    (s.pwr.clocksLost.getLsbD 0 = false → ∃ t, exec i s = .next t ∧ t.pwr.mode = .boot ∧ t.pwr.bootStep = 2 ∧
      t.pwr.cold = true ∧ t.icu.pilotCause = some src) ∧
    (s.pwr.clocksLost.getLsbD 0 = true → ∃ t, exec i s = .next t ∧ t.pwr.mode = .pilot ∧ t.pwr.wakeHeld = true ∧
      t.icu.pilotCause = some src)) ∧
  (∀ s : State, s.pwr.mode ≠ .pilot → exec .smbWake s = .next (s.raise 274)) ∧
  (∀ (straps : BitVec 4) (s : State),
    (s.pwr.mode ∉ [Mode.off, .pilot] → ∃ t, exec .porstNAssert s = .next t ∧ t.pwr.mode = .pilot ∧ t.pwr.porstN = false ∧
      shutdownCause t.nvs.shutdown = 6 ∧ t.qm = QmState.reset) ∧
    (s.pwr.mode = .pilot → s.pwr.porstN = false → ∃ t, exec (.porstNRelease straps) s = .next t ∧ t.pwr.mode = .boot ∧
      t.pwr.bootStep = 1 ∧ t.pwr.straps = straps ∧ t.pwr.porstN = true ∧ t.pwr.cold = true) ∧
    (s.pwr.mode = .off → s.pwr.porstN = false → ∃ t, exec (.porstNRelease straps) s = .next t ∧ t.pwr.mode = .off ∧
      t.pwr.releaseHeld = some straps)) ∧
  (∀ s : State, s.live = true → s.snuf.halt = none →
    ∃ t, exec .warmRstNAssert s = .next t ∧ t.pwr.inWarmReset = true ∧ t.pwr.warmRstN = false ∧ t.qm.sqs = [] ∧
      t.icu.pend = 0 ∧ t.icu.mask = BitVec.allOnes 1024 ∧ t.dev = s.dev ∧ t.time.dts = s.time.dts ∧ t.snuf.halt = none ∧
      ∀ c, c < 8 → (t.core c).job = none) ∧
  (∀ s : State, s.pwr.inWarmReset = true → ∃ t, exec .warmRstNRelease s = .next t ∧ t.pwr.mode = .boot ∧ t.pwr.bootStep = 2 ∧
    t.pwr.warm = true ∧ t.pwr.inWarmReset = false ∧ OnlyIn [.power, .nvs] s t) ∧
  (∀ s : State, s.pwr.mode ∉ [Mode.off, .pilot] → ∃ t, exec .refclkSysLoss s = .next t ∧ t.pwr.mode = .pilot ∧
    t.pwr.clocksLost.getLsbD 0 = true ∧ shutdownCause t.nvs.shutdown = 5) ∧
  (∀ (r : RefClock) (s : State), r ≠ .sys →
    (s.pwr.clocksLost.getLsbD (clockBit r) = true → exec (.refclkLoss r) s = .next s) ∧
    (s.pwr.clocksLost.getLsbD (clockBit r) = false → ∃ t, exec (.refclkLoss r) s = .next t ∧
      t.pwr.clocksLost.getLsbD (clockBit r) = true ∧ (s.collectorRuns = true → s.snuf.queue.length < 256 →
        ⟨0x0C0, 4, BitVec.ofNat 48 (clockBit r + (if r = .pcie then 1 else 4)), s.time.dts, false, s.snuf.lostSince⟩ ∈
          t.snuf.queue)) ∧
    (s.pwr.clocksLost.getLsbD (clockBit r) = false → exec (.refclkReturn r) s = .next s) ∧
    (s.pwr.clocksLost.getLsbD (clockBit r) = true → ∃ t, exec (.refclkReturn r) s = .next t ∧
      t.pwr.clocksLost.getLsbD (clockBit r) = false)) ∧
  (∀ s : State, exec .smbStuck s = .next (s.fault 0x001 3 0)) ∧
  ∀ (code : BitVec 6) (s : State),
    (s.pcieUp = false → exec (.jtagInstructionLoad code) s = .next s) ∧
    (s.pcieUp = true → code ∈ [0x01#6, 0x02#6, 0x10#6] →
      exec (.jtagInstructionLoad code) s = .next { s with pwr := { s.pwr with tap := code } }) ∧
    (s.pcieUp = true → code ∉ [0x00#6, 0x01#6, 0x02#6, 0x03#6, 0x04#6, 0x10#6] →
      exec (.jtagInstructionLoad code) s = .next { s with pwr := { s.pwr with tap := 0x3F } }) ∧
    (s.pcieUp = true → code ∈ [0x00#6, 0x03#6, 0x04#6] → ∃ t, exec (.jtagInstructionLoad code) s = .next t ∧
      t.pwr.tap = code ∧ t.snuf.halt = some .jtag ∧ t.pwr.change = none)

/-! ### The Wick processor (chapter 10) -/

/-- The instructions that compute one register put their result into it, and nothing else, and end (R302, R303, Tables 10-6 and
10-7); a division by 0 raises DIV_ZERO. -/
def Obligations.WickComputesItsResults : Prop :=
  ∀ (c : Fin 13) (rd rs rt sh : Fin 32) (imm : BitVec 16) (s t : State), Executes s c false t →
    let k := t.wc c
    let a := k.reg rs
    let b := k.reg rt
    let n := b.toNat % 32
    let si := imm.signExtend 32
    let zi := imm.zeroExtend 32
    let puts (v : Word) : Host.Outcome State Fault Refusal := .next (ended s c (.go (t.setWc c (k.setReg rd v))))
    exec (.add c rd rs rt) s = puts (BitVec.ofNat 32 (a.toNat + b.toNat)) ∧
    exec (.sub c rd rs rt) s = puts (BitVec.ofInt 32 ((a.toNat : Int) - b.toNat)) ∧
    exec (.and c rd rs rt) s = puts (a &&& b) ∧
    exec (.or c rd rs rt) s = puts (a ||| b) ∧
    exec (.xor c rd rs rt) s = puts (a ^^^ b) ∧
    exec (.nor c rd rs rt) s = puts (~~~(a ||| b)) ∧
    exec (.slt c rd rs rt) s = puts (if a.toInt < b.toInt then 1 else 0) ∧
    exec (.sltu c rd rs rt) s = puts (if a.toNat < b.toNat then 1 else 0) ∧
    exec (.sll c rd rs rt) s = puts (BitVec.ofNat 32 (a.toNat * 2 ^ n)) ∧
    exec (.srl c rd rs rt) s = puts (BitVec.ofNat 32 (a.toNat / 2 ^ n)) ∧
    exec (.sra c rd rs rt) s = puts (BitVec.ofInt 32 (a.toInt / 2 ^ n)) ∧
    exec (.slli c rd rs sh) s = puts (BitVec.ofNat 32 (a.toNat * 2 ^ sh.val)) ∧
    exec (.srli c rd rs sh) s = puts (BitVec.ofNat 32 (a.toNat / 2 ^ sh.val)) ∧
    exec (.srai c rd rs sh) s = puts (BitVec.ofInt 32 (a.toInt / 2 ^ sh.val)) ∧
    exec (.mul c rd rs rt) s = puts (BitVec.ofNat 32 (a.toNat * b.toNat)) ∧
    exec (.mulh c rd rs rt) s = puts (BitVec.ofInt 32 (a.toInt * b.toInt / 2 ^ 32)) ∧
    exec (.mulhu c rd rs rt) s = puts (BitVec.ofNat 32 (a.toNat * b.toNat / 2 ^ 32)) ∧
    (b ≠ 0 → exec (.divu c rd rs rt) s = puts (BitVec.ofNat 32 (a.toNat / b.toNat)) ∧
      exec (.remu c rd rs rt) s = puts (BitVec.ofNat 32 (a.toNat % b.toNat))) ∧
    (b = 0 → exec (.divu c rd rs rt) s = .next (raised s t c ⟨8, 0, false, 0, k.pc⟩) ∧
      exec (.remu c rd rs rt) s = .next (raised s t c ⟨8, 0, false, 0, k.pc⟩)) ∧
    (∃ z, z ≤ 32 ∧ (∀ i, i < z → a.getLsbD (31 - i) = false) ∧ (z < 32 → a.getLsbD (31 - z) = true) ∧
      exec (.clz c rd rs) s = puts (BitVec.ofNat 32 z)) ∧
    exec (.bswap c rd rs) s = puts (BitVec.ofNat 32 (a.toNat % 2 ^ 8 * 2 ^ 24 + a.toNat / 2 ^ 8 % 2 ^ 8 * 2 ^ 16 +
      a.toNat / 2 ^ 16 % 2 ^ 8 * 2 ^ 8 + a.toNat / 2 ^ 24)) ∧
    exec (.addi c rd rs imm) s = puts (a + si) ∧
    exec (.andi c rd rs imm) s = puts (a &&& zi) ∧
    exec (.ori c rd rs imm) s = puts (a ||| zi) ∧
    exec (.xori c rd rs imm) s = puts (a ^^^ zi) ∧
    exec (.slti c rd rs imm) s = puts (if a.toInt < imm.toInt then 1 else 0) ∧
    exec (.sltiu c rd rs imm) s = puts (if a.toNat < si.toNat then 1 else 0) ∧
    exec (.lui c rd imm) s = puts (BitVec.ofNat 32 (imm.toNat * 2 ^ 16))

/-- What the end of an instruction does to its core (R306, R308, R310, Table 10-13): the load before it is committed after its own
result, its own load waits, an ATOM block counts down, and the PC moves on, to the target of a transfer, or to the start of the
innermost loop that ends there and has iterations left. Stated for a core that neither steps nor is to halt. -/
def Obligations.WickInstructionsEndAtTheNextAddress : Prop :=
  ∀ (c : Fin 13) (s : State) (d : WDone),
    let k := (s.wWake c).wc c
    let x := d.s.wc c
    let j := x.commit k.load
    let count := if k.ac = 0 then j.ac else j.ac - 1
    let ends (y : WickCore) : Prop := ended s c d = d.s.setWc c { y with load := d.load, ac := count }
    x.stepping = false → x.due = none → x.waiting = false →
    (∀ a, d.jump = some a → ¬ (x.u = true ∧ a = 0xFFFFFFF0) → ends { j with pc := a }) ∧
    (d.jump = none → x.ld = 0 → ends { j with pc := k.pc + 4 }) ∧
    ∀ i : Fin 4, d.jump = none → x.ld = i.val + 1 →
      (x.le[i] ≠ k.pc → ends { j with pc := k.pc + 4 }) ∧
      (x.le[i] = k.pc → 1 < x.lc[i].toNat → ends { j with pc := x.ls[i], lc := x.lc.set i (x.lc[i] - 1) }) ∧
      (x.le[i] = k.pc → x.lc[i].toNat ≤ 1 → i = 0 → ends { j with pc := k.pc + 4, ld := 0 })

/-- Loads and stores (R298, R303, R306, R309, Table 10-7): a load gives its extended value to the load slot; an access that is not
aligned, exceeds its segment or lacks the right raises ALIGN, SEG_LIMIT or SEG_RIGHTS before it reaches memory; a store to
uncached DRAM changes its own bytes and no other. LDX sets the reservation; STX stores only under it, says so in rd and clears it.
LSEG loads a good descriptor and refuses another with DESCRIPTOR (R297). -/
def Obligations.WickReachesMemoryThroughSegments : Prop :=
  ∀ (c : Fin 13) (rd rs : Fin 32) (seg : Fin 8) (imm : BitVec 13) (s t : State), Executes s c false t →
    let k := t.wc c
    let g := k.seg seg
    let o := k.reg rs + imm.signExtend 32
    let p := g.base.toNat + o.toNat
    let word (bs : List Byte) : Word := BitVec.ofNat 32 (leNat bs)
    (∀ (i : Instr) (n : Nat) (ext : List Byte → Word),
      (n = 1 ∧ i = .lb c rd rs seg imm ∧ ext = fun bs => (BitVec.ofNat 8 (leNat bs)).signExtend 32) ∨
      (n = 1 ∧ i = .lbu c rd rs seg imm ∧ ext = word) ∨
      (n = 2 ∧ i = .lh c rd rs seg imm ∧ ext = fun bs => (BitVec.ofNat 16 (leNat bs)).signExtend 32) ∨
      (n = 2 ∧ i = .lhu c rd rs seg imm ∧ ext = word) ∨ (n = 4 ∧ i = .lw c rd rs seg imm ∧ ext = word) →
      (∀ bs t1, t.wLoad c seg o n n = .ok (bs, t1) → exec i s = .next (ended s c ⟨t1, none, some (rd, ext bs)⟩)) ∧
      (o.toNat % n ≠ 0 → exec i s = .next (raised s t c ⟨6, seg.val, false, 0, o⟩)) ∧
      (o.toNat % n = 0 → g.limit.toNat < o.toNat + n → exec i s = .next (raised s t c ⟨4, seg.val, false, 0, o⟩)) ∧
      (o.toNat % n = 0 → o.toNat + n ≤ g.limit.toNat → g.r = false →
        exec i s = .next (raised s t c ⟨5, seg.val, false, 0, o⟩))) ∧
    (∀ bs t1, t.wLoad c seg o 4 4 = .ok (bs, t1) → exec (.ldx c rd rs seg imm) s = .next (ended s c
      ⟨if reservable (p / 64) then t1.setWc c { t1.wc c with reservation := some (p / 64) } else t1, none, some (rd, word bs)⟩)) ∧
    (∀ (i : Instr) (n : Nat), storeOf i = some (c, rd, rs, seg, imm, n) →
      let bs := leBytes n (k.reg rd).toNat
      (∀ t1, t.wStore c seg o bs n = .ok t1 → exec i s = .next (ended s c (.go t1))) ∧
      (o.toNat % n ≠ 0 → exec i s = .next (raised s t c ⟨6, seg.val, true, 0, o⟩)) ∧
      (o.toNat % n = 0 → g.limit.toNat < o.toNat + n → exec i s = .next (raised s t c ⟨4, seg.val, true, 0, o⟩)) ∧
      (o.toNat % n = 0 → o.toNat + n ≤ g.limit.toNat → g.w = false →
        exec i s = .next (raised s t c ⟨5, seg.val, true, 0, o⟩)) ∧
      (o.toNat % n = 0 → o.toNat + n ≤ g.limit.toNat → g.w = true → g.c = false → wRegion c (!k.u) p n = some .dram →
        k.watched seg o.toNat n true = false → ∃ t1, exec i s = .next (ended s c (.go t1)) ∧ t1.wick = t.wick ∧
          (∀ a, a < p ∨ p + n ≤ a → t1.dev.byte a = t.dev.byte a) ∧ t1.host = t.host ∧
          ∀ m, m < n → t1.dev.byte (p + m) = BitVec.ofNat 8 ((k.reg rd).toNat / 2 ^ (8 * m)))) ∧
    (o.toNat % 4 = 0 → o.toNat + 4 ≤ g.limit.toNat → g.w = true →
      (k.reservation = some (p / 64) → ∀ t1, t.wStore c seg o (leBytes 4 (k.reg rd).toNat) 4 = .ok t1 →
        exec (.stx c rd rs seg imm) s =
          .next (ended s c (.go (t1.setWc c { (t1.wc c).setReg rd 1 with reservation := none })))) ∧
      (k.reservation ≠ some (p / 64) → wRegion c (!k.u) p 4 ≠ none → exec (.stx c rd rs seg imm) s =
        .next (ended s c (.go (t.setWc c { k.setReg rd 0 with reservation := none }))))) ∧
    ∀ (user : Bool) (n : Fin 8), k.u = false →
      (∀ bs t1, t.wLoad c seg o 16 16 = .ok (bs, t1) →
        (descOk c user bs = true → exec (.lseg c user n rs seg imm) s =
          .next (ended s c (.go (t1.setWc c ((t1.wc c).setSeg user n (segOf bs)))))) ∧
        (descOk c user bs = false → exec (.lseg c user n rs seg imm) s = .next (raised s t1 c ⟨0x0D, seg.val, false, 0, o⟩))) ∧
      ∀ t1, t.wStore c seg o (segBytes (if user then k.usegs[n] else k.ksegs[n])) 16 = .ok t1 →
        exec (.sseg c user n rs seg imm) s = .next (ended s c (.go t1))

/-- Transfers of control, loops and the stacks (R299, R300, R307, R308, Tables 10-7 and 10-8): a branch goes to its target where
its condition holds; J and JR jump; CALL and CALLR push PC + 4 on the call stack and RET pops it, or raise STACK_FAULT; LOOP and
LOOPI set up a level, skip the body for a count of 0, or raise LOOP_DEPTH; LBRK discards a level; PUSH and POP use the data
stack. -/
def Obligations.WickTransfersControl : Prop :=
  ∀ (c : Fin 13) (ra rb : Fin 32) (off : BitVec 16) (far : BitVec 26) (s t : State), Executes s c false t →
    let k := t.wc c
    let a := k.reg ra
    let b := k.reg rb
    let go (target : Option Word) : Host.Outcome State Fault Refusal := .next (ended s c ⟨t, target, none⟩)
    let branch (p : Prop) [Decidable p] : Host.Outcome State Fault Refusal :=
      go (if p then some (k.pc + 4 + 4 * off.signExtend 32) else none)
    let g := k.seg 7
    let jump := k.pc + 4 + 4 * far.signExtend 32
    exec (.beq c ra rb off) s = branch (a = b) ∧
    exec (.bne c ra rb off) s = branch (a ≠ b) ∧
    exec (.blt c ra rb off) s = branch (a.toInt < b.toInt) ∧
    exec (.bge c ra rb off) s = branch (b.toInt ≤ a.toInt) ∧
    exec (.bltu c ra rb off) s = branch (a.toNat < b.toNat) ∧
    exec (.bgeu c ra rb off) s = branch (b.toNat ≤ a.toNat) ∧
    exec (.j c far) s = go (some jump) ∧
    exec (.jr c ra) s = go (some a) ∧
    (∀ (i : Instr) (target : Word), (i = .call c far ∧ target = jump) ∨ (i = .callr c ra ∧ target = a) →
      k.csp.toNat % 4 = 0 →
      (4 ≤ k.csp.toNat → k.csp.toNat ≤ g.limit.toNat → g.r = true → g.w = true →
        ∀ t1, t.wWrite c (!k.u) (g.base.toNat + (k.csp - 4).toNat) (leBytes 4 (k.pc + 4).toNat) g.c = .ok t1 →
          exec i s = .next (ended s c ⟨t1.setWc c ((t1.wc c).setCsp (k.csp - 4)), some target, none⟩)) ∧
      (k.csp.toNat < 4 ∨ g.limit.toNat < k.csp.toNat ∨ g.r = false ∨ g.w = false →
        exec i s = .next (raised s t c ⟨1, 7, true, 0, k.csp - 4⟩))) ∧
    (k.csp.toNat % 4 = 0 →
      (k.csp.toNat + 4 ≤ g.limit.toNat → g.r = true → g.w = true →
        ∀ bs t1, t.wRead c (!k.u) (g.base.toNat + k.csp.toNat) 4 g.c = .ok (bs, t1) → exec (.ret c) s =
          .next (ended s c ⟨t1.setWc c ((t1.wc c).setCsp (k.csp + 4)), some (BitVec.ofNat 32 (leNat bs)), none⟩)) ∧
      (g.limit.toNat < k.csp.toNat + 4 ∨ g.r = false ∨ g.w = false →
        exec (.ret c) s = .next (raised s t c ⟨1, 7, false, 0, k.csp⟩))) ∧
    (∀ (i : Instr) (n : Word) (count : BitVec 10),
      (i = .loop c ra off ∧ n = a) ∨ (i = .loopi c count off ∧ n = count.zeroExtend 32) →
      let e := k.pc + 4 + 4 * off.zeroExtend 32
      (n = 0 → exec i s = go (some (e + 4))) ∧
      (∀ l : Fin 4, n ≠ 0 → k.ld = l.val → exec i s = .next (ended s c (.go (t.setWc c { k with
        ls := k.ls.set l (k.pc + 4), le := k.le.set l e, lc := k.lc.set l n, ld := l.val + 1 })))) ∧
      (n ≠ 0 → k.ld = 4 → exec i s = .next (raised s t c ⟨7, 0, false, 0, k.pc⟩))) ∧
    exec (.lbrk c) s = .next (ended s c (.go (t.setWc c { k with ld := k.ld - 1 }))) ∧
    (∀ t1, t.wStore c 6 (k.dsp - 4) (leBytes 4 a.toNat) 4 = .ok t1 →
      exec (.push c ra) s = .next (ended s c (.go (t1.setWc c ((t1.wc c).setDsp (k.dsp - 4)))))) ∧
    (∀ e t1, t.wStore c 6 (k.dsp - 4) (leBytes 4 a.toNat) 4 = .error (e, t1) →
      exec (.push c ra) s = .next (raised s t1 c e)) ∧
    ∀ bs t1, t.wLoad c 6 k.dsp 4 4 = .ok (bs, t1) → exec (.pop c ra) s =
      .next (ended s c ⟨t1.setWc c ((t1.wc c).setDsp (k.dsp + 4)), none, some (ra, BitVec.ofNat 32 (leNat bs))⟩)

/-- The system group (R294, R305, R310, R311, R316, R317, Table 10-8): a kernel-only instruction in user mode raises PRIVILEGE;
ERET restores from the emergency stack or the kernel call stack; TRAP raises TRAP with its code; BRK halts or raises BREAK; WAIT
waits unless an interrupt is pending; ATOM counts 1 to 8 instructions and is ILLEGAL otherwise or inside a block; MFS and MTS
reach the special registers that the mode may; FENCE, CWB, CINV and IINV act on the caches. An interrupt is accepted between
instructions. Entry to an exception or event (R312, R314, R318): with frames on the emergency stack, or without a good kernel
call stack, the frame goes to local memory and the handler is that of STACK_FAULT; otherwise PC and STATUS go to the kernel call
stack and the handler is the vector's; STATUS is cleared, CAUSE and FADDR are set, and the reservation is lost. A fifth
emergency frame locks the core up. -/
def Obligations.WickSystemInstructionsAndExceptions : Prop :=
  (∀ (c : Fin 13) (s t : State), Executes s c false t →
    let k := t.wc c
    let does (x : State) : Host.Outcome State Fault Refusal := .next (ended s c (.go x))
    let raises (v code : Nat) : Host.Outcome State Fault Refusal := .next (raised s t c ⟨v, 0, false, code, k.pc⟩)
    (∀ i, kernelCore i = some c → k.u = true → k.ac = 0 → exec i s = raises 3 0) ∧
    (k.u = false →
      (∀ n, k.ed = n + 1 →
        let f := k.mem.bytes (16 * n) 16
        exec (.eret c) s = .next (ended s c ⟨t.setWc c { ({ k with kcsp := BitVec.ofNat 32 (fieldLe f 8 4), ed := n }
          : WickCore).setStatus (BitVec.ofNat 32 (fieldLe f 4 4)) with ac := 0, reservation := none },
          some (BitVec.ofNat 32 (fieldLe f 0 4)), none⟩)) ∧
      (k.ed = 0 → k.kcsp.toNat + 8 ≤ k.ksegs[7].limit.toNat → k.ksegs[7].r = true → k.ksegs[7].w = true →
        ∀ bs t1, t.wRead c true (k.ksegs[7].base.toNat + k.kcsp.toNat) 8 k.ksegs[7].c = .ok (bs, t1) →
          exec (.eret c) s = .next (ended s c ⟨t1.setWc c { ({ t1.wc c with kcsp := k.kcsp + 8 }
            : WickCore).setStatus (BitVec.ofNat 32 (fieldLe bs 4 4)) with ac := 0, reservation := none },
            some (BitVec.ofNat 32 (fieldLe bs 0 4)), none⟩)) ∧
      (k.ac = 0 → (t.wPending c = true → exec (.wait c) s = does t) ∧
        (t.wPending c = false → exec (.wait c) s = does (t.setWc c { k with waiting := true }))) ∧
      (∀ rs seg, exec (.cinv c rs seg) s = does (t.wInvalidate c (((k.seg seg).base.toNat + (k.reg rs).toNat) / 64))) ∧
      exec (.iinv c) s = does (t.setWc c { k with icache := [] })) ∧
    (k.ac ≠ 0 → exec (.wait c) s = raises 2 0) ∧
    (∀ code, exec (.trap c code) s = raises 0x0B code.toNat) ∧
    (k.brkHalt = true → exec (.brk c) s = does (t.setWc c { k with due := some 4 })) ∧
    (k.brkHalt = false → exec (.brk c) s = raises 0x0C 0) ∧
    (∀ n : Fin 16, (k.ac = 0 → 1 ≤ n.val → n.val ≤ 8 → exec (.atom c n) s = does (t.setWc c { k with ac := n.val })) ∧
      (k.ac ≠ 0 ∨ n.val = 0 ∨ 8 < n.val → exec (.atom c n) s = raises 2 0)) ∧
    (∀ r sr : Fin 32, (sr.val = 23 ∨ 28 ≤ sr.val → exec (.mfs c r sr) s = raises 2 0 ∧ exec (.mts c sr r) s = raises 2 0) ∧
      (sr.val ≠ 23 → sr.val < 28 →
        (k.u = true → sr.val ∈ [1, 2, 3, 7, 24, 25, 26, 27] → exec (.mfs c r sr) s = raises 3 0) ∧
        (k.u = true → sr.val ∉ [4, 8, 9, 10, 11, 12, 13, 14, 15, 16, 17, 18, 19] → exec (.mts c sr r) s = raises 3 0) ∧
        (k.u = false ∨ sr.val ∉ [1, 2, 3, 7, 24, 25, 26, 27] → sr.val ≠ 20 →
          exec (.mfs c r sr) s = does (t.setWc c (k.setReg r (t.special c sr.val)))) ∧
        (sr.val = 20 → exec (.mfs c r sr) s = does (t.setWc c ({ k with dtsh := (t.time.dts >>> 32).truncate 32 }.setReg r
          (t.time.dts.truncate 32)))) ∧
        (k.u = false ∨ sr.val ∈ [4, 8, 9, 10, 11, 12, 13, 14, 15, 16, 17, 18, 19] →
          exec (.mts c sr r) s = does (t.setWc c (k.setSpecial sr.val (k.reg r)))))) ∧
    exec (.fence c) s = does t ∧
    (∀ rs seg, exec (.cwb c rs seg) s = does (t.wWriteBack c (((k.seg seg).base.toNat + (k.reg rs).toNat) / 64))) ∧
    ∀ u : State,
      let u0 := u.wWake c
      let y := u0.wc c
      u.wickUp c = true → y.halted = false → y.locked = false → y.stepping = false → y.haltReq = false →
      (y.ie = true → y.ac = 0 → y.load = none → u0.wPending c = true →
        exec (.interruptEntry c) u = .next (u0.wRaise c ⟨0x0F, 0, false, 0, y.pc⟩ y.pc)) ∧
      (y.ie = false ∨ y.ac ≠ 0 ∨ y.load ≠ none ∨ u0.wPending c = false → exec (.interruptEntry c) u = .next u)) ∧
  (∀ (c : Fin 13) (e : WExc) (pc : Word) (s : State),
    let k := s.wc c
    let a := k.ksegs[7].base.toNat + (k.kcsp - 8).toNat
    let status := { k with ac := 0 }.status
    let entered (y : WickCore) (v : Nat) (emergency : Bool) : Prop := y.pc = k.vbr + BitVec.ofNat 32 (16 * v) ∧ y.u = false ∧
      y.ie = false ∧ y.ld = 0 ∧ y.ac = 0 ∧ y.reservation = none ∧ y.load = none ∧ y.faddr = e.addr ∧ y.halted = k.halted ∧
      y.cause = BitVec.ofNat 32 (v + 256 * e.seg + 2048 * (if e.store then 1 else 0) + 4096 * (if emergency then 1 else 0) +
        65536 * e.code)
    k.stepping = false → k.due = none → k.locked = false →
    (k.ed < 4 → (0 < k.ed ∨ k.kcsp.toNat < 8 ∨ k.ksegs[7].limit.toNat < k.kcsp.toNat ∨ k.ksegs[7].r = false ∨ k.ksegs[7].w = false) →
      let y := (s.wEnter c e pc).wc c
      entered y 1 true ∧ y.ed = k.ed + 1 ∧ y.kcsp = k.kcsp ∧ y.mem.bytes (16 * k.ed) 16 = leBytes 4 pc.toNat ++
        leBytes 4 status.toNat ++ leBytes 4 k.kcsp.toNat ++ leBytes 4 (causeWord e.vector e false).toNat) ∧
    (k.ed = 0 → 8 ≤ k.kcsp.toNat → k.kcsp.toNat ≤ k.ksegs[7].limit.toNat → k.ksegs[7].r = true → k.ksegs[7].w = true →
      k.ksegs[7].c = false → wRegion c true a 8 = some .local_ →
      let y := (s.wEnter c e pc).wc c
      entered y e.vector false ∧ y.ed = 0 ∧ y.kcsp = k.kcsp - 8 ∧
        y.mem.bytes (a - 0x3000000000) 8 = leBytes 4 pc.toNat ++ leBytes 4 status.toNat) ∧
    (k.ed = 4 → ((s.wEnter c e pc).wc c).locked = true ∧ ((s.wEnter c e pc).wc c).pc = k.pc ∧
      ((s.wEnter c e pc).wc c).regs = k.regs))

/-- The debug module (R323 to R327): while DBG is selected, an update starts an access and the capture gives the one before it;
without the unlock, or for no core, the access returns ERROR. A halt is requested and takes effect at a boundary outside an ATOM
block and a load slot; a halted core is resumed, or runs one step. Its registers are reached only while it is halted or locked up,
and memory through DMEM_ADDR. -/
def Obligations.DebugReachesHaltedCores : Prop :=
  (∀ (d : BitVec 46) (s : State),
    let n := d.toNat
    let u := s.emit (.debug (bits n 43 40) (s.wick.dbgData.toNat + 2 ^ 32 * s.wick.dbgStatus.toNat))
    (s.pwr.tap ≠ 0x10 → exec (.dbgAccess d) s = .next s) ∧
    (s.pwr.tap = 0x10 → (s.mail.unlocked = false ∨ bit n 45 = true ∨ 13 ≤ bits n 43 40 →
        exec (.dbgAccess d) s = .next { u with wick := { u.wick with dbgData := 0, dbgStatus := 2 } }) ∧
      (s.mail.unlocked = true → bit n 45 = false → ∀ c : Fin 13, bits n 43 40 = c.val →
        (∀ i : Fin 4, bits n 39 32 = 8 + i.val → bit n 44 = true → ∃ t, exec (.dbgAccess d) s = .next t ∧
          t.wc c = { s.wc c with bps := (s.wc c).bps.set i (BitVec.ofNat 32 n) } ∧ t.wick.dbgStatus = 0 ∧
          OnlyIn [.wick, .out] s t) ∧
        (bits n 39 32 = 1 → bit n 44 = false → ∃ t, exec (.dbgAccess d) s = .next t ∧ t.wick.cores = s.wick.cores ∧
          t.wick.dbgStatus = 0 ∧ t.wick.dbgData.getLsbD 0 = (s.wc c).halted ∧ t.wick.dbgData.getLsbD 5 = (s.wc c).locked ∧
          OnlyIn [.wick, .out] s t)))) ∧
  (∀ (c : Fin 13) (s : State), s.mail.unlocked = false →
    ∀ i ∈ [Instr.haltReq c, .debugResume c, .debugStep c], exec i s =
      .next { s with wick := { s.wick with dbgData := 0, dbgStatus := 2 } }) ∧
  (∀ (c : Fin 13) (s : State),
    let k := s.wc c
    (s.mail.unlocked = true → k.halted = false → exec (.haltReq c) s = .next (s.setWc c { k with haltReq := true })) ∧
    (s.mail.unlocked = true → k.halted = true → exec (.haltReq c) s = .next s) ∧
    (k.haltReq = true → k.halted = false → k.locked = false →
      (k.ac = 0 → k.load = none → exec (.debugHalt c) s = .next (s.setWc c { k with
        halted := true, reason := 0, haltReq := false, due := none, stepping := false, reservation := none, waiting := false })) ∧
      (k.ac ≠ 0 ∨ k.load ≠ none → exec (.debugHalt c) s = .next s)) ∧
    (s.mail.unlocked = true → k.halted = true → k.locked = false →
      exec (.debugResume c) s = .next (s.setWc c { k with halted := false }) ∧
      exec (.debugStep c) s = .next (s.setWc c { k with halted := false, stepping := true }))) ∧
  ∀ (c : Fin 13) (v : Word) (s : State), s.mail.unlocked = true →
    let k := s.wc c
    let n := bits k.dregSel.toNat 5 0
    let a := k.dmem
    let next : Nat := if k.autoinc then a + 4 else a
    (k.halted = false → k.locked = false → ∀ w, ∃ t, exec (.dregDataAccess c w v) s = .next t ∧ t.wick.dbgStatus = 2 ∧
      t.wick.cores = s.wick.cores ∧ OnlyIn [.wick] s t) ∧
    (k.halted = true → k.locked = false → bits k.dregSel.toNat 7 6 = 0 → n < 32 →
      (∃ t, exec (.dregDataAccess c false v) s = .next t ∧ t.wick.dbgStatus = 0 ∧ t.wick.dbgData = k.reg (Fin.ofNat 32 n) ∧
        t.wick.cores = s.wick.cores ∧ OnlyIn [.wick] s t) ∧
      ∃ t, exec (.dregDataAccess c true v) s = .next t ∧ t.wick.dbgStatus = 0 ∧
        t.wc c = k.setReg (Fin.ofNat 32 n) v ∧ (∀ j, j ≠ c → t.wc j = s.wc j) ∧ OnlyIn [.wick] s t) ∧
    (wRegion c true a 4 = none → ∀ w, ∃ t, exec (.dmemDataAccess c w v) s = .next t ∧ t.wick.dbgStatus = 2 ∧
      OnlyIn [.wick] s t) ∧
    (wRegion c true a 4 = some .dram → next < 2 ^ 48 →
      (s.poisonIn a 4 = [] → ∃ t, exec (.dmemDataAccess c false v) s = .next t ∧ t.wick.dbgStatus = 0 ∧
        t.wick.dbgData = BitVec.ofNat 32 (leNat (s.dev.bytes a 4)) ∧ (t.wc c).dmem = next ∧ OnlyIn [.wick] s t) ∧
      ∃ t, exec (.dmemDataAccess c true v) s = .next t ∧ t.wick.dbgStatus = 0 ∧ t.dev = s.dev.setBytes a (leBytes 4 v.toNat) ∧
        (t.wc c).dmem = next ∧ (k.reservation = some (a / 64) → (t.wc c).reservation = none))

/-- The directory of cluster memory (R320, R321, Table 10-11): READ shares a line, with the owner's data written to memory; OWN
takes it from every other cache; the owner's WB writes it and leaves it unowned, and any other WB is dropped; of requests in one
cycle the lower number is granted and the others are to retry. A fabric access that times out is recorded and reported, and the
host or the debug module, where it was the master, gets the error (R478). -/
def Obligations.TheDirectoryKeepsOneOwner : Prop :=
  (∀ (r : Fin 5) (line : Fin 32768) (s : State),
    let p := clusterLine line.val
    let held (t : State) (q : Fin 5) : Option CacheLine := (t.wc (requesterCore q)).cached p
    let mem := s.wick.cluster.bytes (64 * line.val) 64
    let one (q : Fin 5) : BitVec 5 := (1 : BitVec 5) <<< q.val
    (s.dir line.val = .unowned →
      (∃ t, exec (.dirRead r line []) s = .next t ∧ t.dir line.val = .shared (one r) ∧ held t r = some ⟨p, mem, false⟩ ∧
        t.wick.cluster = s.wick.cluster ∧ OnlyIn [.wick] s t) ∧
      ∃ t, exec (.dirOwn r line []) s = .next t ∧ t.dir line.val = .owned r ∧ held t r = some ⟨p, mem, true⟩ ∧
        t.wick.cluster = s.wick.cluster ∧ OnlyIn [.wick] s t) ∧
    (∀ who, s.dir line.val = .shared who →
      (∃ t, exec (.dirRead r line []) s = .next t ∧ t.dir line.val = .shared (who ||| one r) ∧
        held t r = some ⟨p, mem, false⟩ ∧ OnlyIn [.wick] s t) ∧
      ∃ t, exec (.dirOwn r line []) s = .next t ∧ t.dir line.val = .owned r ∧ held t r = some ⟨p, mem, true⟩ ∧
        (∀ q, q ≠ r → who.getLsbD q.val = true → held t q = none) ∧ OnlyIn [.wick] s t) ∧
    (∀ q l, s.dir line.val = .owned q → q ≠ r → held s q = some l →
      (∃ t, exec (.dirRead r line []) s = .next t ∧ t.dir line.val = .shared (one r ||| one q) ∧
        held t r = some ⟨p, l.bytes, false⟩ ∧ held t q = some ⟨p, l.bytes, false⟩ ∧
        t.wick.cluster = s.wick.cluster.setBytes (64 * line.val) l.bytes ∧ OnlyIn [.wick] s t) ∧
      ∃ t, exec (.dirOwn r line []) s = .next t ∧ t.dir line.val = .owned r ∧ held t r = some ⟨p, l.bytes, true⟩ ∧
        held t q = none ∧ t.wick.cluster = s.wick.cluster ∧ OnlyIn [.wick] s t) ∧
    (∀ l, s.dir line.val = .owned r → held s r = some l → ∃ t, exec (.dirWb r line []) s = .next t ∧
      t.dir line.val = .unowned ∧ held t r = none ∧
      t.wick.cluster = s.wick.cluster.setBytes (64 * line.val) l.bytes ∧ OnlyIn [.wick] s t) ∧
    (s.dir line.val ≠ .owned r → exec (.dirWb r line []) s = .next s) ∧
    ∀ q : Fin 5, r < q → s.dir line.val = .unowned → Table.get 0 s.wick.retries (line.val * 8 + r.val) < 2 →
      Table.get 0 s.wick.retries (line.val * 8 + q.val) < 2 → ∃ t, exec (.dirOwn q line [(r, .own)]) s = .next t ∧
        t.dir line.val = .owned r ∧
        Table.get 0 t.wick.retries (line.val * 8 + q.val) = Table.get 0 s.wick.retries (line.val * 8 + q.val) + 1) ∧
  ∀ (domain : Fin 9) (m : Fin 4) (index a : Nat) (s : State), s.powered = true → s.halted = false →
    ∃ t, exec (.fabricAccessTimeout domain m index a) s = .next t ∧ t.pwr.fabricDomain = domain.val ∧
      t.pwr.fabricMaster = m.val ∧ t.pwr.fabricAddr = a ∧ t.pwr.fabricCnt = incWord s.pwr.fabricCnt ∧
      (s.collectorRuns = true → s.snuf.queue.length < 256 →
        ⟨0x0C0, 1, BitVec.ofNat 48 a, s.time.dts, false, s.snuf.lostSince⟩ ∈ t.snuf.queue) ∧
      (m = 0 → t.rd = 0xFFFFFFFF ∧ .aer 0 ∈ t.out) ∧ (m = 3 → t.wick.dbgData = 0xFFFFFFFF ∧ t.wick.dbgStatus = 2)

/-! ### The switch core (chapter 11) -/

/-- The head of a frame is looked up (R333, R334, R336, R337, R342): fewer than 64 bytes count as a runt; a PAUSE is counted and
goes nowhere; an untagged frame whose destination the MAC table knows gets one copy, in the queue of its class at the port of the
entry, with its first cell, and its source is learned. -/
def Obligations.FrameHeadsAreLookedUp : Prop :=
  ∀ (p : Fin 17) (head : List Byte) (s : State), s.switches = true → s.portUp p = true → head ≠ [] → head.length ≤ 128 →
    (∀ f ∈ s.swc.frames, f.ingress = p.val → f.whole = true) →
    (head.length < 64 → exec (.frameHeadLookup p head) s =
      .next (((s.count p 4 1).count p 0 1).count p 1 head.length)) ∧
    (64 ≤ head.length → isPause head = true → (∀ g ∈ s.swc.frames, g.id ≠ s.swc.frameSeq) →
      ∃ t f, exec (.frameHeadLookup p head) s = .next t ∧ t.swc.frames = s.swc.frames ++ [f] ∧ f.copies = [] ∧
        f.id = s.swc.frameSeq ∧ f.ingress = p.val ∧ f.whole = false ∧ t.swc.mac = s.swc.mac ∧
        Table.get 0 t.swc.counters (32 * p.val + 9) = Table.get 0 s.swc.counters (32 * p.val + 9) + 1) ∧
    ∀ (q : Fin 17) (i : Nat) (e : MacEntry),
      let vid := bits (s.regOr 1 (0xA0404 + 32 * p.val)) 11 0
      let tc := bits (s.regOr 0xFAC688 (0xA040C + 32 * p.val)) 2 0
      64 ≤ head.length → isPause head = false → isReserved head = false →
      isPtp (bits (s.regOr 0xD00004 0x10024) 1 0) head = false → hasTag head = false →
      bits (s.regOr 1 (0xA0404 + 32 * p.val)) 13 12 = 0 → bit (s.vlanEntry vid) 28 = true → bit (s.vlanEntry vid) p = true →
      bit (s.vlanEntry vid) q = true → s.swc.classifier = [] → s.macFind vid (dstMac head) = some (i, e) → e.drop = false →
      e.isGroup = false → e.port = q.val → q ≠ p → s.portUp q = true → s.cellGranted (8 * q.val + tc) = true →
      (∀ g ∈ s.swc.frames, g.id ≠ s.swc.frameSeq) →
      ∃ t f k, exec (.frameHeadLookup p head) s = .next t ∧ t.swc.frames = s.swc.frames ++ [f] ∧ f.ingress = p.val ∧
        f.bytes = head ∧ f.whole = false ∧ f.vid = vid ∧ f.copies = [k] ∧ k.queue = 8 * q.val + tc ∧ k.cells = 1 ∧
        k.sending = false ∧ f.cells = 1 ∧ t.swc.allocated = s.swc.allocated + 1 ∧
        t.qUse (8 * q.val + tc) = s.qUse (8 * q.val + tc) + 1 ∧
        (∀ j, bit (s.vlanEntry vid) 29 = true → isMulticast (srcMac head) = false → s.macFind vid (srcMac head) = none →
          s.macFree vid (srcMac head) = some j →
          Table.get .none t.swc.mac j = some ⟨srcMac head, vid, p.val, false, false, false, false, 0, s.seconds⟩)

/-- A frame that is in whole stays for its copies, and a bad one drops those not yet being sent (R343, Table 11-10); a port that
sends nothing starts the first copy of its highest class; the end of a copy emits the frame with its check sequence, stomped where
the copy met poison, frees its cells, and with the last copy settles the sender (R342 to R347, R371). Learned entries that have not
been seen for AGE_TIME go (R337). A port that TEST_SW_BP stalls starts none (R430; which cycles of a period are stalled is the
model's choice, log entry 24). Stated for frames within one cell, without meter or binding, for internal ports' selection, and
for frames whose numbers differ. -/
def Obligations.FramesLeaveAndEntriesAge : Prop :=
  (∀ (p : Fin 17) (d : TailFacts) (s : State) (f : Frame), s.switches = true → s.receiving p = some f → f.meter = none →
    f.binding = none → f.sender = .received → d.offset = none → (∀ g ∈ s.swc.frames, g.id = f.id → g = f) →
    let all := if f.bytes.length < 128 then f.bytes else f.bytes ++ d.rest
    let bytes := all.take f.maxLen
    let bad := badCounter bytes (d.pcsError || d.fecUncorr) (decide (f.maxLen < all.length))
    0 < bytes.length → bytes.length ≤ 256 →
    (bad = none → f.copies ≠ [] → ∃ t, exec (.frameTail p d) s = .next t ∧
      t.swc.frames = s.swc.frames.map (fun g => if g.id = f.id then { f with bytes := bytes, whole := true } else g)) ∧
    (∀ c, bad = some c → (∀ k ∈ f.copies, k.sending = false) → ∃ t, exec (.frameTail p d) s = .next t ∧
      t.swc.frames = s.swc.frames.filter (fun g => g.id != f.id) ∧
      Table.get 0 t.swc.counters (32 * p.val + c) ≠ Table.get 0 s.swc.counters (32 * p.val + c))) ∧
  (∀ (p : Fin 28) (s : State) (c : Fin 8) (f : Frame) (k : Copy) (l : List (Frame × Copy)), 17 ≤ p.val → s.switches = true →
    s.portUp p = true → s.sendingOn p = none → s.egressStalled p = false → s.queued (8 * p.val + c.val) = (f, k) :: l → f.whole = true →
    f.stampWanted = false → (∀ j : Fin 8, c < j → s.queued (8 * p.val + j.val) = []) →
    ∃ t, exec (.egressSelect p) s = .next t ∧ t.swc.frames = s.swc.frames.map (fun g => if g.id = f.id then { f with
      copies := f.copies.map (fun y => if y = k then { y with sending := true } else y) } else g) ∧ OnlyIn [.switch] s t) ∧
  (∀ (p : Fin 28) (s : State), s.egressStalled p = true → exec (.egressSelect p) s = .next s) ∧
  (∀ (p : Fin 28) (media : Bool) (s : State) (f : Frame) (k : Copy), s.switches = true → s.sendingOn p = some (f, k) →
    f.whole = true →
    let body := copyBody f k
    (k.failed = false → f.bad = false → media = false → ∃ t, exec (.copyTransmitEnd p media) s = .next t ∧
      .frame p (body ++ fcsOf body) (f.stamp.getD s.time.dts) ∈ t.out ∧
      t.qUse k.queue = s.qUse k.queue - k.cells ∧
      (f.copies = [k] → (∀ g ∈ t.swc.frames, g.id ≠ f.id) ∧
        ∀ n y, f.sender = .slot n → f.dropped = 0 → f.media = 0 → s.slot n = some y → y.phase = .running →
          ∃ r0 r1, Finished t n .ok r0 r1)) ∧
    (media = true → p.val < 17 → ∃ t, exec (.copyTransmitEnd p media) s = .next t ∧
      .badFrame p (body ++ stompOf body) ∈ t.out ∧ t.qUse k.queue = s.qUse k.queue - k.cells)) ∧
  ∀ s : State, s.switches = true → ∃ t, exec .macAgingPass s = .next t ∧ second * (s.swc.lastAging + 1) ≤ t.now ∧
    (let age := bits (s.regOr 0x10012C 0xA0008) 19 0
    t.swc.mac = if age = 0 then s.swc.mac else s.swc.mac.filter (fun e => match e.2 with
      | some m => m.fixed || !decide (m.seen + age ≤ t.now / second)
      | none => false)) ∧ OnlyIn [.time, .switch] s t

/-- A training port locks and is UP with the latencies that firmware loads (R40, R331); every 100 ms without lock it trains again;
a port that loses its link goes DOWN and is reported, and trains again after 100 ms (R331, R350); a lane that fails is reported.
A table command writes, reads or invalidates the selected entry and ends with source 196; one beyond the table or out of range
changes no table and sets ERR (R336, R338, R339). Stated for the VLAN table. -/
def Obligations.PortsTrainAndTablesAreWritten : Prop :=
  (∀ (p : Fin 17) (s : State), s.switches = true → s.portSt p = .training →
    (s.carriesPorts p = true → s.laneClock p = true → ∃ t, exec (.portLock p) s = .next t ∧ t.portSt p = .up ∧
      (let w := Config.portLat p.val (bits (s.portCfg p.val) 3 1)
      t.portLat p = (bits w.toNat 15 0, bits w.toNat 31 16)) ∧
      t.icu.pend.getLsbD 192 = true ∧ ∀ q, q ≠ p.val → t.portSt q = s.portSt q) ∧
    ∃ t, exec (.trainingRetry p) s = .next t ∧ Table.get 0 s.swc.portDue p.val ≤ t.now ∧
      Table.get 0 t.swc.portDue p.val = 100 * millisecond + t.now ∧ t.portSt p = .training ∧ OnlyIn [.time, .switch] s t) ∧
  (∀ (p : Fin 17) (s : State), s.switches = true → s.portSt p = .up → ∃ t, exec (.linkDown p) s = .next t ∧
    t.portSt p = .down ∧ Table.get 0 t.swc.portDue p.val = 100 * millisecond + s.now ∧
    (p.val < 16 → s.snuf.queue.length < 256 → ⟨BitVec.ofNat 10 (0x020 + p.val), 4, 0, s.time.dts, false, s.snuf.lostSince⟩ ∈
      t.snuf.queue)) ∧
  (∀ (p : Fin 17) (s : State), s.switches = true → s.portSt p = .down → s.carriesPorts p = true → s.laneClock p = true →
    ∃ t, exec (.downRetrain p) s = .next t ∧ t.portSt p = .training ∧ Table.get 0 s.swc.portDue p.val ≤ t.now) ∧
  (∀ (n : Fin 16) (p : Nat) (s : State), s.lanePort n = some p → s.carriesPorts p = true → s.halted = false →
    s.pwr.clocksLost.getLsbD (1 + n.val / 8) = false → exec (.laneFault n) s = .next (s.fault (0x020 + p) 2 n.val)) ∧
  ∀ (m : Master) (v : Word) (s : State), masterDirect m = true → s.access m 0xA0024 = true → s.switches = true →
    let sel := s.regOr 0 0xA0020
    let i := bits sel 19 4
    let b := dataBytes s.swc.tblData 8
    bits sel 2 0 = 0 → bit sel 20 = false →
    (i < 4096 → v.getLsbD 0 = true → vlanCheck b = none → ∃ t, exec (.tblWrite m v) s = .next t ∧ t.vlanEntry i = leNat b ∧
      (∀ j, j ≠ i → t.vlanEntry j = s.vlanEntry j) ∧ t.swc.tblErr = false ∧ t.icu.pend.getLsbD 196 = true ∧
      t.swc.mac = s.swc.mac ∧ t.swc.group = s.swc.group ∧ OnlyIn [.switch, .icu, .out] s t) ∧
    (v.getLsbD 0 = true → 4096 ≤ i ∨ vlanCheck b ≠ none → ∃ t, exec (.tblWrite m v) s = .next t ∧
      t.swc = { s.swc with tblErr := true } ∧ t.icu.pend.getLsbD 196 = true ∧ OnlyIn [.switch, .icu, .out] s t) ∧
    (i < 4096 → v.getLsbD 1 = true → ∃ t, exec (.tblRead m v) s = .next t ∧
      t.swc = { s.swc with tblErr := false, tblData := t.swc.tblData } ∧
      Table.get 0 t.swc.tblData 0 = BitVec.ofNat 32 (s.vlanEntry i) ∧
      Table.get 0 t.swc.tblData 1 = BitVec.ofNat 32 (s.vlanEntry i / 2 ^ 32) ∧ t.icu.pend.getLsbD 196 = true) ∧
    (i < 4096 → v.getLsbD 2 = true → ∃ t, exec (.tblInvalidate m v) s = .next t ∧ t.vlanEntry i = 0 ∧
      (∀ j, j ≠ i → t.vlanEntry j = s.vlanEntry j) ∧ t.swc.tblErr = false ∧ OnlyIn [.switch, .icu, .out] s t)

/-! ### The traffic unit (chapter 12) -/

/-- The wheel serves its next slot and keeps only later entries (R365); the sweep brings every enabled bucket to its tokens at this
tick, no more than its burst (R360, R361); a gate list moves to the entry in force (R369); a sample adds every queue's depth to its
histogram and a snapshot copies one to the registers, clearing it where asked (R374, R375); a table command writes or reads the
selected entry and ends with source 211 (R376). Stated for a wheel without frames that wait, and for the port shapers' table. -/
def Obligations.TheTrafficUnitKeepsItsBuckets : Prop :=
  (∀ s : State, s.live = true → s.swc.sendQueues = [] → ∃ t, exec .wheelTick s = .next t ∧ t.trf.wheelPos = s.wheelNext ∧
    s.wheelNext * 128 ≤ t.now ∧ ∀ e ∈ t.trf.wheel, s.wheelNext < e.2) ∧
  (∀ s : State, s.live = true → ∃ t, exec .bucketSweep s = .next t ∧ t.trf.sweepLast = s.trfTick ∧ OnlyIn [.traffic] s t ∧
    ∀ k, (s.shaper k).en = true → (t.shaper k).bucket.tokens = min (((s.shaper k).burst * 1000000000 : Nat) : Int)
      ((s.shaper k).bucket.tokens + (((s.trfTick - (s.shaper k).last) * (s.shaper k).rateNow : Nat) : Int)) ∧
      (t.shaper k).last = s.trfTick ∧ (t.shaper k).rateNow = (s.shaper k).rate ∧ (t.shaper k).burst = (s.shaper k).burst) ∧
  (∀ (p : Fin 17) (s : State), s.live = true → s.pwr.mode ≠ .standby → (s.portGates p).pending = none →
    let l := (s.portGates p).force
    (l.governs = true → ∃ t, exec (.gateEntryChange p) s = .next t ∧ s.now ≤ t.now ∧
      t.portGates p = { s.portGates p with entry := (l.entryAt (gateTick t.fullTime)).1 } ∧ OnlyIn [.time, .traffic] s t) ∧
    (l.governs = false → exec (.gateEntryChange p) s = .next s)) ∧
  (∀ s : State, s.live = true → bit (s.regOr 0x30064 0xC0004) 10 = true → ∃ t, exec .histSample s = .next t ∧
    (∀ q, q < 224 → t.hist (2 * q) =
      (s.hist (2 * q)).add (bits (s.regOr 0x30064 0xC0004) 15 11) (s.qUse q) t.time.dts) ∧ OnlyIn [.time, .traffic] s t) ∧
  (∀ (m : Master) (v : Word) (s : State), masterDirect m = true → s.access m 0xC0400 = true → s.live = true →
    bits v.toNat 7 0 < 224 → v.getLsbD 10 = true →
    let k := 2 * bits v.toNat 7 0 + (if v.getLsbD 8 then 1 else 0)
    ∃ t, exec (.histSnap m v) s = .next t ∧ t.trf.snap = s.hist k ∧
      t.hist k = (if v.getLsbD 9 then Hist.empty else s.hist k) ∧ (∀ j, j ≠ k → t.hist j = s.hist j) ∧
      OnlyIn [.traffic, .regs] s t) ∧
  ∀ (m : Master) (v : Word) (s : State), masterDirect m = true → s.access m 0xC0014 = true → s.live = true →
    let sel := s.regOr 0 0xC0010
    let i := bits sel 19 4
    let b := dataBytes s.trf.tblData 32
    bits sel 2 0 = 2 → bit sel 20 = false →
    (i < 17 → v.getLsbD 0 = true → shaperCheck b false = none → ∃ t, exec (.trfTblWrite m v) s = .next t ∧
      (t.shaper (portShaper i)).rate = fieldLe b 0 8 ∧ (t.shaper (portShaper i)).burst = fieldLe b 8 4 ∧
      (t.shaper (portShaper i)).en = bit (fieldLe b 12 1) 0 ∧ (∀ k, k ≠ portShaper i → t.shaper k = s.shaper k) ∧
      t.trf.tblErr = false ∧ t.icu.pend.getLsbD 211 = true ∧ OnlyIn [.traffic, .icu, .out] s t) ∧
    (v.getLsbD 0 = true → 28 ≤ i ∨ shaperCheck b (decide (16 < i)) ≠ none → ∃ t, exec (.trfTblWrite m v) s = .next t ∧
      t.trf = { s.trf with tblErr := true } ∧ t.icu.pend.getLsbD 211 = true) ∧
    (i < 17 → v.getLsbD 1 = true → ∃ t, exec (.trfTblRead m v) s = .next t ∧
      t.trf = { s.trf with tblErr := false, tblData := t.trf.tblData } ∧
      Table.get 0 t.trf.tblData 2 = BitVec.ofNat 32 (s.shaper (portShaper i)).burst ∧ t.icu.pend.getLsbD 211 = true)

/-! ### Buffer pools, the DMA engine and the auditor (chapter 13) -/

/-- A request that its owner's claim or the shared space grants returns the lowest free buffer of the pool, with one reference and
the owner's tag; one that is refused goes on to the fallback pool, and with no pool left returns 0 and raises source 257. A take
adds a reference; a drop removes one, and the last frees the buffer, but one in a fenced row passes to firmware; a pointer that
names no allocated buffer, a count that would overflow and a count below zero change nothing and are reported (R382 to R387, R424,
Tables 13-8 and 14-9). -/
def Obligations.BuffersAreRequestedTakenAndDropped : Prop :=
  (∀ (p q : Fin 16) (o : Fin 32) (s : State), s.live = true → p.val ≠ 0 →
    (s.poolGrants p o = true → s.poolFirst p < s.poolCount p →
      let b := bufKey p (s.poolFirst p)
      ∃ t, exec (.bufferRequest p o) s = .next t ∧ t.rd = BitVec.ofNat 64 (s.bufAddr b) ∧
        Table.get .none t.pool.bufs b = some ⟨1, o.val⟩ ∧ t.ownUse p o = s.ownUse p o + 1 ∧
        (∀ k, k ≠ b → Table.get .none t.pool.bufs k = Table.get .none s.pool.bufs k) ∧ OnlyIn [.pools, .icu, .out, .rd] s t) ∧
    (s.poolGrants p o = false → s.poolFallback p = 0 →
      ∃ t, exec (.bufferRequest p o) s = .next t ∧ t.rd = 0 ∧ t.icu.pend.getLsbD 257 = true ∧ t.pool = { s.pool with
        refused := Table.upd 0 s.pool.refused p (fun w => BitVec.ofNat 32 (satInc 0xFFFFFFFF w.toNat)) } ∧
        OnlyIn [.pools, .icu, .out, .rd] s t) ∧
    (s.poolGrants p o = false → s.poolFallback p = q.val → q.val ≠ 0 → s.poolGrants q o = true →
      s.poolFirst q < s.poolCount q → ∃ t, exec (.bufferRequest p o) s = .next t ∧
        t.rd = BitVec.ofNat 64 (s.bufAddr (bufKey q (s.poolFirst q))) ∧
        Table.get 0 t.pool.fallbacks q = BitVec.ofNat 32 (satInc 0xFFFFFFFF (Table.get 0 s.pool.fallbacks q).toNat) ∧
        t.ownUse q o = s.ownUse q o + 1)) ∧
  ∀ (a : BitVec 48) (s : State), s.live = true →
    (s.bufAt a.toNat = none → exec (.bufferTake a) s = .next ((s.fault 0x040 1 a.toNat).raise 260) ∧
      exec (.bufferDrop a) s = .next ((s.fault 0x040 1 a.toNat).raise 260)) ∧
    ∀ b, s.bufAt a.toNat = some b →
      (Table.get .none s.pool.bufs b = none → exec (.bufferTake a) s = .next ((s.fault 0x040 1 (s.bufAddr b)).raise 260) ∧
        exec (.bufferDrop a) s = .next ((s.fault 0x040 1 (s.bufAddr b)).raise 260)) ∧
      ∀ u, Table.get .none s.pool.bufs b = some u →
        (u.count = 65535 → exec (.bufferTake a) s = .next ((s.fault 0x040 2 (s.bufAddr b)).raise 260)) ∧
        (u.count ≠ 65535 → ∃ t, exec (.bufferTake a) s = .next t ∧
          Table.get .none t.pool.bufs b = some { u with count := u.count + 1 } ∧ t.pool.use = s.pool.use ∧
          (∀ k, k ≠ b → Table.get .none t.pool.bufs k = Table.get .none s.pool.bufs k) ∧ OnlyIn [.pools] s t) ∧
        (u.count = 0 → exec (.bufferDrop a) s = .next ((s.fault 0x040 3 (s.bufAddr b)).raise 260)) ∧
        (1 < u.count → ∃ t, exec (.bufferDrop a) s = .next t ∧
          Table.get .none t.pool.bufs b = some { u with count := u.count - 1 } ∧ t.pool.use = s.pool.use ∧
          (∀ k, k ≠ b → Table.get .none t.pool.bufs k = Table.get .none s.pool.bufs k) ∧ OnlyIn [.pools] s t) ∧
        (u.count = 1 → s.fencedBuf b = false → ∃ t, exec (.bufferDrop a) s = .next t ∧
          Table.get .none t.pool.bufs b = none ∧ t.ownUse (bufPool b) u.tag = s.ownUse (bufPool b) u.tag - 1 ∧
          (∀ k, k ≠ b → Table.get .none t.pool.bufs k = Table.get .none s.pool.bufs k) ∧ OnlyIn [.pools] s t) ∧
        (u.count = 1 → s.fencedBuf b = true → ∃ t, exec (.bufferDrop a) s = .next t ∧
          Table.get .none t.pool.bufs b = some ⟨1, 16⟩ ∧ OnlyIn [.pools] s t)

/-- START runs the chain at DMA_CH_DESC on a channel that firmware may start, and sets REJECT otherwise; STOP ends a channel
between descriptors at once, and one within a descriptor that is not the last at its end; CLEAR returns a channel that has ended
to IDLE (R392). A descriptor is fetched and checked against Table 13-1; one out of form ends the channel in ERROR with
INVALID_FIELD and its message, and a failed access is retried after 1 µs, up to RETRY times, before the channel ends with
BUS_ERROR (R390, R391). A block of a descriptor is read and written: the destination takes the bytes that came, or the pattern
repeated from the descriptor's first byte; the residual falls by them, and the descriptor goes on. Where it was the last block
the channel goes to the next descriptor, or ends in STOPPED or DONE with source 128 + c (R390 to R392). A block that was
poisoned is written and ends the channel in ERROR with MEDIA_ERROR. Stated for source and destination in host memory. -/
def Obligations.DmaChannelsRunTheirDescriptors : Prop :=
  ((∀ (m : Master) (c : Fin 64) (v : Word) (s : State), s.access m (0x90000 + 64 * c.val) = true → s.live = true →
    let x := s.dmaCh c
    (v.getLsbD 0 = true → 8 ≤ c.val → s.dmaGranted c = false → x.isolated = false → x.st ≠ .running → x.st ≠ .stopping →
      ∃ t, exec (.dmaStart m c v) s = .next t ∧ t.dmaCh c = { DmaCh.idle with st := .running, cur := s.dmaDescReg c } ∧
        (∀ d, d ≠ c.val → t.dmaCh d = s.dmaCh d) ∧ t.dmaReject = s.dmaReject ∧ OnlyIn [.dma] s t) ∧
    (v.getLsbD 0 = true → c.val < 8 ∨ s.dmaGranted c = true ∨ x.isolated = true ∨ x.st = .running ∨ x.st = .stopping →
      exec (.dmaStart m c v) s = .next { s with dmaReject := true }) ∧
    (v.getLsbD 1 = true → 8 ≤ c.val → s.dmaGranted c = false → x.st = .running → x.desc = none →
      ∃ t, exec (.dmaStop m c v) s = .next t ∧ (t.dmaCh c).st = .stopped ∧ (t.dmaCh c).code = 0 ∧
        (t.dmaCh c).bytes = x.bytes ∧ t.icu.pend.getLsbD (128 + c) = true ∧ OnlyIn [.dma, .icu, .out] s t) ∧
    (∀ d, v.getLsbD 1 = true → 8 ≤ c.val → s.dmaGranted c = false → x.st = .running → x.desc = some d →
      exec (.dmaStop m c v) s = .next (if d.chain then s.setDma c { x with st := .stopping } else s)) ∧
    (v.getLsbD 2 = true → x.isolated = true → exec (.dmaClear m c v) s = .next { s with dmaReject := true }) ∧
    (v.getLsbD 2 = true → 8 ≤ c.val → s.dmaGranted c = false → x.isolated = false → x.st ∈ [DmaSt.done, .stopped, .error] →
      ∃ t, exec (.dmaClear m c v) s = .next t ∧ t.dmaCh c = { x with st := .idle } ∧ OnlyIn [.dma] s t)) ∧
  ∀ (c : Fin 64) (s : State), s.live = true →
    let x := s.dmaCh c
    (∀ bs, x.active = true → x.desc = none → s.dmaByCcw c = false → s.pwr.mode ≠ .standby → dmaReach c x.cur.toNat 32 = true →
      x.cur.toNat % 32 = 0 → (isDevice x.cur = true → s.poisonIn (spaceOff x.cur) 32 = []) →
      let b := if isDevice x.cur then s.dev.bytes (spaceOff x.cur) 32 else bs
      (dmaDescOk b = true → ∃ t, exec (.dmaDescriptorFetch c (.data bs)) s = .next t ∧
        (t.dmaCh c).desc = some (dmaDescOf b) ∧ (t.dmaCh c).resid = fieldLe b 16 4 ∧ (t.dmaCh c).st = x.st ∧
        (t.dmaCh c).cur = x.cur ∧ ∀ d, d ≠ c.val → t.dmaCh d = s.dmaCh d) ∧
      (dmaDescOk b = false → isDevice x.cur = false → s.snuf.queue.length < 256 →
        ∃ t, exec (.dmaDescriptorFetch c (.data bs)) s = .next t ∧ (t.dmaCh c).st = .error ∧ (t.dmaCh c).code = 0x11 ∧
        t.icu.pend.getLsbD (128 + c) = true ∧
        (⟨0x041, 3, BitVec.ofNat 48 c.val, s.time.dts, false, s.snuf.lostSince⟩ : FaultMsg) ∈ t.snuf.queue) ∧
      let used := if x.retrying then x.retries else 0
      (used < s.dmaRetryMax c → ∃ t, exec (.dmaDescriptorFetch c .failed) s = .next t ∧ (t.dmaCh c).st = x.st ∧
        (t.dmaCh c).retryAt = some (16000 + s.now) ∧ (t.dmaCh c).retries = used + 1 ∧ OnlyIn [.dma] s t) ∧
      (s.dmaRetryMax c ≤ used → ∃ t, exec (.dmaDescriptorFetch c .failed) s = .next t ∧ (t.dmaCh c).st = .error ∧
        (t.dmaCh c).code = 0x32 ∧ t.icu.pend.getLsbD (128 + c) = true)) ∧
    ∀ i, x.retryAt = some i → ∃ t, exec (.dmaRetry c) s = .next t ∧ i ≤ t.now ∧ t.dmaCh c = { x with retryAt := none } ∧
      OnlyIn [.time, .dma] s t) ∧
  (∀ (c : Fin 64) (bs : List Byte) (off : Nat) (s : State) (d : DmaDesc), s.live = true →
    let x := s.dmaCh c
    let done := d.count - x.resid
    let n := min x.resid (4096 - (d.dst + done) % 4096)
    x.desc = some d → x.active = true → d.dst + done < 2 ^ 63 → d.dst + done + n ≤ 2 ^ 63 →
    (d.fill = false → d.src + done < 2 ^ 63 ∧ d.src + done + n ≤ 2 ^ 63) →
    (∃ t, exec (.dmaBlockEnd c (.data bs) false) s = .next t ∧
      t.host = s.host.setBytes (d.dst + done) (if d.fill then fillBytes d.src done n else bs.take n) ∧
      (t.dmaCh c).bytes = x.bytes + BitVec.ofNat 64 n ∧ (t.dmaCh c).resid = x.resid - n ∧
      (∀ e, e ≠ c.val → t.dmaCh e = s.dmaCh e) ∧ OnlyIn [.dma, .host, .icu, .out] s t ∧
      (n < x.resid → (t.dmaCh c).st = x.st ∧ (t.dmaCh c).desc = some d ∧ (t.dmaCh c).cur = x.cur) ∧
      (x.resid ≤ n → (t.dmaCh c).desc = none ∧ (t.dmaCh c).descs = x.descs + 1 ∧
        (d.chain = true → (t.dmaCh c).cur = BitVec.ofNat 64 d.next) ∧
        (d.chain = true → x.st = .running → (t.dmaCh c).st = .running) ∧
        (d.chain = true → x.st = .stopping → (t.dmaCh c).st = .stopped ∧ t.icu.pend.getLsbD (128 + c) = true) ∧
        (d.chain = false → (t.dmaCh c).st = .done ∧ (t.dmaCh c).code = 0 ∧ t.icu.pend.getLsbD (128 + c) = true))) ∧
    (d.fill = false → s.snuf.queue.length < 256 → ∃ t, exec (.dmaBlockEnd c (.poisoned bs off) false) s = .next t ∧
      t.host = s.host.setBytes (d.dst + done) (bs.take n) ∧ (t.dmaCh c).st = .error ∧ (t.dmaCh c).code = 0x31 ∧
      (t.dmaCh c).resid = x.resid - n ∧ t.icu.pend.getLsbD (128 + c) = true ∧
      (⟨0x041, 2, BitVec.ofNat 48 c.val, s.time.dts, false, s.snuf.lostSince⟩ : FaultMsg) ∈ t.snuf.queue))

/-- An audit checks every law of the snapshot that is not LOST: where all hold it counts a pass; otherwise it sends the first
violation's message, freezes the snapshot if none is frozen, with that violation's law, unit and instance, and raises source
258. A ledger that an uncorrectable error struck, as the unit's message or the audit itself tells, is LOST from then on, with source
259 (R377, R393 to R396). A release drops the
frozen snapshot. -/
def Obligations.AuditsCheckTheLawsAndFreeze : Prop :=
  (∀ (s : State) (snap : Snapshot), s.audits = true → s.audit.pending = some snap → s.audit.struck = [] →
    let ok := fun (x : Ledger) => s.audit.lost.contains (x.law, x.index) || lawHolds x.law x.terms
    ((∀ x ∈ snap.ledgers, ok x = true) → ∃ t, exec (.auditEnd []) s = .next t ∧ t.audit.pending = none ∧
      t.audit.pass = BitVec.ofNat 32 (satInc 0xFFFFFFFF s.audit.pass.toNat) ∧ t.audit.frozen = s.audit.frozen ∧
      t.audit.failLaws = 0 ∧ t.audit.lastTick = snap.tick ∧ OnlyIn [.audit] s t) ∧
    (∀ a x b, snap.ledgers = a ++ x :: b → (∀ y ∈ a, ok y = true) → ok x = false → s.snuf.queue.length < 256 →
      ∃ t, exec (.auditEnd []) s = .next t ∧ t.audit.pending = none ∧ t.audit.pass = s.audit.pass ∧
        t.audit.lastPass = s.audit.lastPass ∧ t.icu.pend.getLsbD 258 = true ∧
        (⟨0x0D0, BitVec.ofNat 8 x.law, BitVec.ofNat 48 x.index, s.time.dts, false, s.snuf.lostSince⟩ : FaultMsg) ∈
          t.snuf.queue ∧
        (s.audit.frozen = none → t.audit.frozen.isSome = true ∧ t.audit.firstLaw = x.law ∧ t.audit.firstUnit = x.unit ∧
          t.audit.firstIndex = x.index) ∧
        (s.audit.frozen ≠ none → t.audit.frozen = s.audit.frozen) ∧ OnlyIn [.audit, .snuffer, .icu, .out] s t) ∧
    (∀ e : LedgerErr, e.struck = true → s.audit.lost.contains (e.law.val + 1, e.index) = false →
      ∃ t, exec (.auditEnd [e]) s = .next t ∧ t.audit.lost = (e.law.val + 1, e.index) :: s.audit.lost ∧
        t.icu.pend.getLsbD 259 = true)) ∧
  (∀ (s : State) (snap : Snapshot) (p : Nat × Nat), s.audits = true → s.audit.pending = some snap → s.audit.struck = [p] →
    s.audit.lost.contains p = false → ∃ t, exec (.auditEnd []) s = .next t ∧ t.audit.lost = p :: s.audit.lost ∧
      t.audit.struck = [] ∧ t.icu.pend.getLsbD 259 = true) ∧
  ∀ (m : Master) (v : Word) (s : State), s.access m 0x84000 = true → v.getLsbD 1 = true →
    ∃ t, exec (.auditRelease m v) s = .next t ∧ t.audit = { s.audit with
      frozen := none, firstLaw := 0, firstUnit := 0, firstIndex := 0 } ∧ t.regOr 1 0x84000 = v.toNat % 2 ∧
      OnlyIn [.audit, .regs] s t

/-! ### Faults, tests and interrupts (chapter 14) -/

/-- The Snuffer accepts the message at the head of its queue: it is counted in its source's window, which makes the source severe at
N; it is recorded, with NOTIFY it raises source 0, and what it implicates is tested (R411, R414 to R416, R421). Stated for messages
whose reaction is LOG or NOTIFY and that implicate no resource, or an SRAM row. A message that a unit sends joins the queue before
the next is accepted. One that tells of an error in a lookup table first removes a MAC entry, or makes a VLAN entry invalid
(Table 11-11); one that tells of an error in traffic state first sets a flow shaper's bucket to 0 with its totals restarted and its
ledger struck, or leaves every gate of a list open (R377): the table and index in the address are laid out as log entry 38 says.
One of a record of the event log that fails its CRC makes the record absent and raises source 282 (R454, Table 15-4).
A window that ends starts its source anew (R415). -/
def Obligations.FaultMessagesAreAcceptedAndCounted : Prop :=
  (∀ (s : State) (m : FaultMsg), s.collectorRuns = true → s.halted = false → s.pwr.inWarmReset = false →
    headMessage s.snuf.queue = some m →
    let q : State := { s with snuf.queue := s.snuf.queue.erase m }
    let src := m.source.toNat
    let kind := m.kind.toNat
    let code := (q.countFault m).reactionTo m 0
    let r := s.implicated src kind m.address.toNat
    code ≤ 1 → (r = none ∨ ∃ b row, r = some (.sramRow b row)) →
    ∃ t, exec (.faultMessage none) s = .next t ∧ t.snuf.queue = s.snuf.queue.erase m ∧ t.snuf.lastAccept = s.now ∧
      (t.win src).events = satInc 0xFFFF (s.win src).events ∧ t.snuf.seq = s.snuf.seq + 1 ∧
      (∃ h l, t.snuf.hist = h :: l ∧ h.dts = m.dts ∧ h.address = m.address ∧ h.source = m.source ∧ h.kind = m.kind ∧
        h.reaction = BitVec.ofNat 8 code ∧ h.seq = s.snuf.seq) ∧
      (code = 1 → t.icu.pend.getLsbD 0 = true) ∧
      (code = 1 → s.snuf.first = none → t.icu.pend.getLsbD 2 = true ∧ t.snuf.first ≠ none) ∧
      (∀ b, (s.win src).start = some b → (m.dts - b).toInt < (s.srcWindow src : Int) → kindExempt src kind = false →
        (t.win src).count = satInc 255 (s.win src).count ∧ (t.win src).start = some b ∧
        (s.srcN src ≤ satInc 255 (s.win src).count → (s.win src).severe = false → (t.win src).severe = true ∧
          t.icu.pend.getLsbD 1 = true)) ∧
      (∀ x, r = some x → s.tested x = false → s.outOfService x = false →
        (⟨x, some m, s.now, !s.testsRun⟩ : SelfTest) ∈ t.snuf.tests)) ∧
  (∀ (s : State) (x : FaultIn),
    let src := x.source.toNat
    let kind := x.kind.toNat
    let table := x.address.toNat % 8
    let i := x.address.toNat / 16 % 65536
    let after := fun u : State => exec (.faultMessage none) (u.fault src kind x.address.toNat)
    (¬ (0x10 ≤ src ∧ src < 0x18) → ¬ (src = 0x01F ∧ kind = 0x40) → ¬ (src = 0x030 ∧ kind = 1) →
      ¬ (0x050 ≤ src ∧ src < 0x054 ∧ kind = 1) → ¬ (src = 0x090 ∧ (kind = 1 ∨ kind = 2)) →
      exec (.faultMessage (some x)) s = after s) ∧
    (src = 0x090 → kind = 2 → s.collectorRuns = true → ∃ u, exec (.faultMessage (some x)) s = after u ∧
      u.icu.pend.getLsbD 282 = true ∧ OnlyIn [.nvs, .snuffer, .icu, .out] s u ∧
      ∀ p r, x.address.toNat = 0x01000000 + p → p < 0x01000000 → s.nvs.recordAt 3 p = some r →
        u.nvs.log = s.nvs.log.filter (fun e => e.seq != r.seq)) ∧
    (src = 0x01F → kind = 0x40 → ∃ u, exec (.faultMessage (some x)) s = after u ∧ OnlyIn [.switch] s u ∧
      (table = 0 → i < 4096 → u.vlanEntry i = s.vlanEntry i - (if bit (s.vlanEntry i) 28 then 2 ^ 28 else 0) ∧
        ∀ k, k ≠ i → u.vlanEntry k = s.vlanEntry k) ∧
      (table = 3 → Table.get none u.swc.mac i = none ∧
        ∀ k, k ≠ i → Table.get none u.swc.mac k = Table.get none s.swc.mac k)) ∧
    (src = 0x030 → kind = 1 → ∃ u, exec (.faultMessage (some x)) s = after u ∧ OnlyIn [.traffic, .audit] s u ∧
      (table = 0 → i < 16384 → u.shaper i = { s.shaper i with bucket := Bucket.start 0 } ∧
        u.audit = { s.audit with struck := s.audit.struck ++ [(4, i)] } ∧ ∀ k, k ≠ i → u.shaper k = s.shaper k) ∧
      (table = 5 → i < 17 → (u.portGates i).struck = true ∧ u.audit = s.audit))) ∧
  ∀ (src : Fin 256) (s : State), (s.win src).start ≠ none → ∃ t, exec (.severityWindowEnd src) s = .next t ∧
    t.win src = { s.win src with start := none, count := 0, severe := false } ∧ (∀ k, k ≠ src.val → t.win k = s.win k) ∧
    OnlyIn [.time, .snuffer] s t

/-- A test ends after its time, is recorded and raises source 3: a resource that passed stays; an SRAM row that failed takes a spare
of its bank. A retest counts the consecutive passes; at REINSTATE of them the resource returns to service, and a failure counts from
0 (R421 to R424). A write of SNUF_RETEST starts a retest of a resource out of service. A pseudo-channel whose copy has ended is
spared (Table 14-9). A unit reset ends with source 6, the Lantern core's lets FLICKER toggle again, and a Lamplighter core returns
unless isolated (R416, R428); a unit with a clock of its own reports the reset of its crossings with source 0x0C0 kind 3 (R477; the
instant, the units and the domain in its address are log entry 38). -/
def Obligations.TestsRetestsAndResetsEnd : Prop :=
  (∀ (r : Resource) (s : State) (x : SelfTest), s.collectorRuns = true → s.halted = false → s.pwr.inWarmReset = false →
    s.testsRun = true → s.testOf r = some x → (∀ c, r ≠ .core c) →
    (x.msg.isSome = true → ∃ t, exec (.selfTestEnd r true) s = .next t ∧ x.startedAt + testTime r ≤ t.now ∧
      t.snuf.tests = s.snuf.tests.filter (fun y => y.resource != r) ∧ t.icu.pend.getLsbD 3 = true ∧
      (∃ h l, t.snuf.hist = h :: l ∧ h.kind = 0xF0 ∧ h.flags.getLsbD 2 = true) ∧
      OnlyIn [.time, .snuffer, .icu, .out, .nvs] s t) ∧
    (∀ b row, x.msg.isSome = true → r = .sramRow b row → s.outOfService r = false → Table.get 0 s.snuf.spareRows b.val < 32 →
      ∃ t, exec (.selfTestEnd r false) s = .next t ∧ t.snuf.tests = s.snuf.tests.filter (fun y => y.resource != r) ∧
        Table.get 0 t.snuf.spareRows b.val = Table.get 0 s.snuf.spareRows b.val + 1 ∧
        t.snuf.sparedRows = (b.val, row) :: s.snuf.sparedRows ∧ t.icu.pend.getLsbD 3 = true ∧
        t.icu.pend.getLsbD 4 = true) ∧
    (x.msg = none → (∃ t, exec (.selfTestEnd r false) s = .next t ∧ t.passesOf r = 0 ∧ t.snuf.fences = s.snuf.fences ∧
        (s.snuf.retest = some r → t.snuf.retestResult = 3 ∧ t.snuf.retest = none)) ∧
      (let need := max 1 (bits (s.regOr 0x218 0x50008) 11 8)
      ∃ t, exec (.selfTestEnd r true) s = .next t ∧ (s.snuf.retest = some r → t.snuf.retestResult = 2) ∧
        (s.passesOf r + 1 < need → t.passesOf r = s.passesOf r + 1 ∧ t.snuf.fences = s.snuf.fences) ∧
        (need ≤ s.passesOf r + 1 → t.passesOf r = 0 ∧ r ∉ t.snuf.degrading ∧
          ∀ b row, r = .sramRow b row → (b.val, row) ∉ t.snuf.fences)))) ∧
  (∀ (m : Master) (v : Word) (s : State), s.access m 0x50090 = true → v.getLsbD 31 = true → s.snuf.retestResult ≠ 1 →
    s.halted = false →
    (s.retestOf (bits v.toNat 1 0) (bits v.toNat 15 2) = none → exec (.snufRetest m v) s =
      .next { s with snuf := { s.snuf with retestResult := 0, retest := none } }) ∧
    ∀ r, s.retestOf (bits v.toNat 1 0) (bits v.toNat 15 2) = some r → ∃ t, exec (.snufRetest m v) s = .next t ∧
      t.snuf.retest = some r ∧ t.snuf.retestResult = 1 ∧ (∃ x ∈ t.snuf.tests, x.resource = r) ∧ OnlyIn [.snuffer] s t) ∧
  (∀ (st : Fin 2) (pc : Fin 32) (s : State), (st.val, pc.val) ∈ s.snuf.copyingPcs → s.collectorRuns = true →
    s.halted = false → s.pwr.inWarmReset = false → ∃ t, exec (.pseudoChannelSpared st pc) s = .next t ∧
      t.snuf.sparedPcs = s.snuf.sparedPcs ++ [(st.val, pc.val)] ∧ (st.val, pc.val) ∉ t.snuf.copyingPcs ∧
      t.icu.pend.getLsbD 4 = true ∧ (∃ h l, t.snuf.hist = h :: l ∧ h.kind = 0xF4) ∧
      OnlyIn [.snuffer, .icu, .out, .nvs] s t) ∧
  ∀ (u : UnitId) (s : State), s.halted = false → s.pwr.inWarmReset = false → (∀ c, u ≠ .codec c) → u ∈ s.snuf.resets →
    s.collectorRuns = true → ∃ t, exec (.unitResetEnd u) s = .next t ∧
      t.snuf.resets = s.snuf.resets.filter (fun x => x != u) ∧ t.icu.pend.getLsbD 6 = true ∧
      (u = .lantern → t.snuf.flickerFrozen = false ∧ t.snuf.live = s.snuf.live ||| 8) ∧
      (∀ k : Fin 4, u = .lamplighter k → (0x050 + k.val, 0) ∉ s.snuf.isolated → t.lmp.cores.getLsbD k.val = true) ∧
      (∀ d, unitDomain u = some d → s.snuf.queue.length < 256 → t.snuf.queue = s.snuf.queue ++
        [⟨0x0C0, 3, BitVec.ofNat 48 d, s.time.dts, false, s.snuf.lostSince⟩]) ∧
      (unitDomain u = none → t.snuf.queue = s.snuf.queue) ∧ OnlyIn [.snuffer, .channels, .icu, .out] s t

/-- A RECOVERY that ends enters the mode that R439 names, at once or with the next tick of group A; one that lasts 1 s is a
HALT; SNUF_HALT orders HALT and is recorded (R427, R439). The Lantern watchdog freezes FLICKER and reports (R428); each 1 ms the
liveness checks are looked at, FLICKER toggles where all pass, and a check that begins to fail raises source 8. A write clears
the first-error record (R420). The scrubber corrects and reports as a read does (R425). In TEST the three keys in order unlock
the perturbation registers, with source 10; any other key locks them. A write of TEST_INJ_GO with GO sends the message that the
registers hold; without, none (R429, R430). -/
def Obligations.RecoveryHaltFlickerAndTest : Prop :=
  ((∀ s : State, s.pwr.mode = .recovery → s.halted = false → s.pwr.inWarmReset = false → s.pwr.change = none →
    (s.afterRecovery ∈ [Mode.service, .night, .provision] → ∃ t, exec .recoveryEnd s = .next t ∧
      t.pwr.change = some ⟨none, .reaction, none, none, 0, s.now, true⟩ ∧ OnlyIn [.power] s t) ∧
    (s.afterRecovery ∈ [Mode.limited, .continuity, .standby] → ∃ t, exec .recoveryEnd s = .next t ∧
      t.pwr.mode = s.afterRecovery ∧ t.snuf.recoveryAt = none ∧ t.snuf.recoveryEnded = some t.now)) ∧
  (∀ (s : State) (b : Nat), s.pwr.mode = .recovery → s.halted = false → s.pwr.inWarmReset = false →
    s.snuf.recoveryAt = some b → ∃ t, exec .recoveryTimeout s = .next t ∧ t.snuf.halt = some .ordered ∧
      1000 * millisecond + b ≤ t.now) ∧
  (∀ (m : Master) (v : Word) (s : State), s.access m 0x50004 = true → v.getLsbD 0 = true → s.halted = false →
    ∃ t, exec (.snufHalt m v) s = .next t ∧ t.snuf.halt = some .ordered ∧ t.snuf.live = s.snuf.live &&& 7 ∧
      ∃ h l, t.snuf.hist = h :: l ∧ h.source = 0 ∧ h.kind = 2 ∧ h.reaction = 7) ∧
  (∀ s : State, s.collectorRuns = true → s.halted = false → s.pwr.inWarmReset = false →
    ∃ t, exec .lanternWatchdog s = .next t ∧ t.snuf.live = s.snuf.live &&& 7 ∧ t.snuf.flickerFrozen = true ∧
      t.icu.pend.getLsbD 8 = true ∧ OnlyIn [.snuffer, .icu, .out] s t ∧
      (s.snuf.queue.length < 256 → t.snuf.queue = s.snuf.queue ++ [⟨0x001, 1, 0, s.time.dts, false, s.snuf.lostSince⟩])) ∧
  (∀ s : State, s.collectorRuns = true → s.pwr.inWarmReset = false → (s.pwr.mode = .boot → 4 ≤ s.pwr.bootStep) →
    let u := s.advanceTo (millisecond + s.snuf.flickerAt)
    ∃ t, exec .flickerToggle s = .next t ∧ t.snuf.live = u.liveChecks ∧ t.snuf.flickerAt = t.now ∧ t.time = u.time ∧
      t.snuf.flicker = (if u.liveChecks = 15 ∧ s.snuf.flickerFrozen = false then !s.snuf.flicker else s.snuf.flicker) ∧
      (∀ k, k < 3 → s.snuf.live.getLsbD k = true → u.liveChecks.getLsbD k = false → t.icu.pend.getLsbD 8 = true) ∧
      OnlyIn [.time, .snuffer, .icu, .out] s t) ∧
  (∀ (m : Master) (v : Word) (s : State), s.access m 0x50060 = true → v.getLsbD 0 = true →
    exec (.snufFirstClear m v) s = .next { s with snuf.first := none }) ∧
  ∀ (a : Nat) (s : State), s.live = true → ∃ t, exec (.patrolScrub none a) s = .next t ∧
    t.correctable = s.correctable.filter (fun w => w != a / 8) ∧ t.poison = s.poison ∧
    (a / 8 ∈ s.correctable → s.snuf.queue.length < 256 → (⟨BitVec.ofNat 10 (eccSource (8 * (a / 8))).1, 1,
      BitVec.ofNat 48 (eccSource (8 * (a / 8))).2, s.time.dts, false, s.snuf.lostSince⟩ : FaultMsg) ∈ t.snuf.queue) ∧
    OnlyIn [.ecc, .snuffer, .icu, .out] s t) ∧
  ((∀ (m : Master) (v : Word) (s : State), s.pwr.mode = .test → s.access m 0x400000 = true →
    (s.snuf.unlockPos < 2 → testKeys[s.snuf.unlockPos]? = some v → exec (.testUnlock m v) s =
      .next { s with snuf.unlockPos := s.snuf.unlockPos + 1 }) ∧
    (s.snuf.unlockPos = 2 → v = 0x00007F10 → ∃ t, exec (.testUnlock m v) s = .next t ∧ t.snuf.unlocked = true ∧
      t.snuf.unlockPos = 0 ∧ t.icu.pend.getLsbD 10 = true) ∧
    (testKeys[s.snuf.unlockPos]? ≠ some v → ∃ t, exec (.testUnlock m v) s = .next t ∧ t.snuf.unlocked = false ∧
      t.snuf.unlockPos = (if v = 0x00004C5A then 1 else 0) ∧ OnlyIn [.snuffer] s t)) ∧
  ∀ (m : Master) (v : Word) (s : State), s.pwr.mode = .test → s.access m 0x400070 = true → s.snuf.unlocked = true →
    ∃ t, exec (.testInjGo m v) s = .next t ∧ t.regOr 0 0x400070 = v.toNat % 2 ^ 18 ∧ t.snuf.unlockPos = 0 ∧
      (v.getLsbD 31 = true → s.snuf.queue.length < 256 → t.snuf.queue = s.snuf.queue ++
        [⟨BitVec.ofNat 10 (bits v.toNat 9 0), BitVec.ofNat 8 (bits v.toNat 17 10),
          BitVec.ofNat 48 (s.regOr 0 0x400074 + 2 ^ 32 * (s.regOr 0 0x400078 % 2 ^ 16)), s.time.dts, false,
          s.snuf.lostSince⟩]) ∧
      (v.getLsbD 31 = false → t.snuf = { s.snuf with unlockPos := 0 }) ∧ OnlyIn [.snuffer, .regs, .icu, .out] s t)

/-- A claim returns the source that the target's scheme has ready, clears its pending bit and pushes it; with none ready it returns
0x80000000 (R403). A completion of the top of the target's stack pops it, and the target that has none takes up the scheme called
for; any other is an order error with its message and source 9 (R404, R407, R408). Writes of the set and clear registers change
the pending and mask bits they name (R409). -/
def Obligations.InterruptsAreClaimedAndCompleted : Prop :=
  (∀ (k : Fin 14) (s : State), s.icuOpen = true →
    (s.readySource k = none → exec (.icuClaimRead k) s = .next { s with rd := 0x80000000 }) ∧
    ∀ n, s.readySource k = some n → ∃ t, exec (.icuClaimRead k) s = .next t ∧ t.rd = BitVec.ofNat 64 n ∧
      t.icu.pend.getLsbD n = false ∧ (∀ j, j ≠ n → t.icu.pend.getLsbD j = s.icu.pend.getLsbD j) ∧
      t.icu.claims[k] = n :: s.icu.claims[k] ∧ (∀ j : Fin 14, j ≠ k → t.icu.claims[j] = s.icu.claims[j]) ∧
      t.icu.mask = s.icu.mask ∧ OnlyIn [.icu, .out, .rd] s t) ∧
  (∀ (k : Fin 14) (v : Word) (s : State), s.icuOpen = true →
    (∀ l, s.icu.claims[k] = bits v.toNat 9 0 :: l → ∃ t, exec (.icuComplete k v) s = .next t ∧ t.icu.claims[k] = l ∧
      (∀ j : Fin 14, j ≠ k → t.icu.claims[j] = s.icu.claims[j]) ∧ (l = [] → t.icu.grouped[k] = s.icu.wanted) ∧
      (l ≠ [] → t.icu.grouped[k] = s.icu.grouped[k]) ∧ t.icu.pend = s.icu.pend ∧ OnlyIn [.icu, .out] s t) ∧
    (s.icu.claims[k].head? ≠ some (bits v.toNat 9 0) → ∃ t, exec (.icuComplete k v) s = .next t ∧
      t.icu.orderErr = true ∧ t.icu.claims = s.icu.claims ∧ t.icu.pend.getLsbD 9 = true ∧
      (s.snuf.queue.length < 256 → t.snuf.queue = s.snuf.queue ++
        [⟨0x0B0, 1, BitVec.ofNat 48 (bits v.toNat 9 0 + 65536 * k.val), s.time.dts, false, s.snuf.lostSince⟩]) ∧
      OnlyIn [.icu, .snuffer, .out] s t)) ∧
  ∀ (w : Fin 32) (v : Word) (s : State), s.icuOpen = true →
    let named := fun n => decide (n / 32 = w.val) && v.getLsbD (n % 32)
    (∃ t, exec (.icuPendSet w v) s = .next t ∧ t.icu.mask = s.icu.mask ∧ OnlyIn [.icu, .out] s t ∧
      ∀ n, n < 1024 → t.icu.pend.getLsbD n = (s.icu.pend.getLsbD n || named n)) ∧
    (∃ t, exec (.icuPendClr w v) s = .next t ∧ t.icu.mask = s.icu.mask ∧ OnlyIn [.icu, .out] s t ∧
      ∀ n, n < 1024 → t.icu.pend.getLsbD n = (s.icu.pend.getLsbD n && !named n)) ∧
    (∃ t, exec (.icuMaskSet w v) s = .next t ∧ t.icu.pend = s.icu.pend ∧ OnlyIn [.icu, .out] s t ∧
      ∀ n, n < 1024 → t.icu.mask.getLsbD n = (s.icu.mask.getLsbD n || named n)) ∧
    (∃ t, exec (.icuMaskClr w v) s = .next t ∧ t.icu.pend = s.icu.pend ∧ OnlyIn [.icu, .out] s t ∧
      ∀ n, n < 1024 → t.icu.mask.getLsbD n = (s.icu.mask.getLsbD n && !named n))

/-! ### The Lantern mailbox and out-of-band management (chapter 15) -/

/-- Each mailbox command that runs ends with its status, its reply in LMB_DATA and source 281: READ_SENSORS returns 37 words,
DEBUG_CHALLENGE a nonce for one attempt with the serial number, DEBUG_UNLOCK unlocks where the nonce stood and the answer was good,
and NVS_READ returns the bytes of an area that may be read (R461, R463, Tables 15-11 and 15-12). -/
def Obligations.MailboxCommandsEndWithTheirReply : Prop :=
  ∀ s : State, s.mail.busy = true → s.pwr.mode ≠ .off → s.pwr.mode ≠ .pilot → s.pwr.inWarmReset = false →
    s.collectorRuns = true →
    (s.mail.cmd = 1 → ∃ t, exec .readSensors s = .next t ∧ t.mail.busy = false ∧ t.mail.status = .ok ∧ t.mail.rlen = 148 ∧
      (∀ k, k < 14 → t.regOr 0 (mailData + 4 * k) = s.pwrField .pwrTemp k % 2 ^ 32) ∧
      t.regOr 0 (mailData + 4 * 14) = s.pwrField .pwrVin 0 % 2 ^ 32 ∧ t.icu.pend.getLsbD 281 = true ∧
      OnlyIn [.mailbox, .regs, .icu, .out] s t) ∧
    (∀ nonce : List Byte, s.mail.cmd = 2 →
      let n := zeroFill 32 (nonce.take 32)
      ∃ t, exec (.debugChallenge nonce) s = .next t ∧
      t.mail.nonce = some n ∧ t.mail.busy = false ∧ t.mail.status = .ok ∧
      t.mailBytes 40 = n ++ leBytes 8 Config.serial.toNat ∧ t.icu.pend.getLsbD 281 = true ∧
      OnlyIn [.mailbox, .regs, .icu, .out] s t) ∧
    (∀ good : Bool, s.mail.cmd = 3 →
      let yes := good && s.mail.nonce.isSome
      ∃ t, exec (.debugUnlock good) s = .next t ∧ t.mail.nonce = none ∧ t.mail.unlocked = (s.mail.unlocked || yes) ∧
        t.mail.busy = false ∧ t.mail.status = (if yes then .ok else .dataError) ∧ t.icu.pend.getLsbD 284 = true ∧
        t.icu.pend.getLsbD 281 = true ∧ OnlyIn [.mailbox, .regs, .icu, .out, .nvs, .free] s t) ∧
    (s.mail.cmd = 4 →
      let a := fieldLe (s.mailBytes 8) 0 4
      let n := fieldLe (s.mailBytes 8) 4 4
      (n = 0 ∨ 256 < n → ∃ t, exec .nvsRead s = .next t ∧ t.mail = { s.mail with
        busy := false, status := .invalidField, rlen := 0 } ∧ t.icu.pend.getLsbD 281 = true) ∧
      (0 < n → n ≤ 256 → s.nvsArea a n = none → ∃ t, exec .nvsRead s = .next t ∧ t.mail = { s.mail with
        busy := false, status := .notPermitted, rlen := 0 } ∧ t.icu.pend.getLsbD 281 = true) ∧
      (∀ l size, 0 < n → n ≤ 256 → s.nvsArea a n = some (l, size) → ∃ t, exec .nvsRead s = .next t ∧
        t.mail = { s.mail with busy := false, status := .ok, rlen := n } ∧
        t.mailBytes n = (List.range n).map (fun i => areaByte l ((a + i) % size)) ∧
        OnlyIn [.mailbox, .regs, .icu, .out] s t))

/-- The MCTP control and PLDM base commands answer with what the endpoint holds, and only setting an ID or a TID that is not
reserved changes it (R449, Table 15-6). The codes and layouts of the replies are those of the DMTF specifications that Table 15-6
names: the model's choice (assumption 15). -/
def Obligations.ManagementEndpointAnswers : Prop :=
  ∀ s : State, s.managed = true →
    let reply := fun (t : State) (b : List Byte) => t.emit (.mgmt b)
    (∀ (op : Fin 4) (e : Byte), (op.val ≤ 1 → e ≠ 0 → e ≠ 0xFF → exec (.setEndpointId op e) s =
      .next (reply { s with mgmt.eid := e } [0, 0, 1, 0, 0, e, 0])) ∧
      (1 < op.val ∨ e = 0 ∨ e = 0xFF → exec (.setEndpointId op e) s = .next (reply s [0, 0, 1, 2]))) ∧
    exec .getEndpointId s = .next (reply s [0, 0, 2, 0, s.mgmt.eid, 0, 0]) ∧
    exec .getEndpointUuid s = .next (reply s ([0, 0, 3, 0] ++ leBytes 16 Config.uuid.toNat)) ∧
    exec (.getMctpVersionSupport 0xFF) s = .next (reply s ([0, 0, 4, 0, 1] ++ leBytes 4 (Config.oobVersion 0).toNat)) ∧
    exec (.getMctpVersionSupport 0) s = .next (reply s ([0, 0, 4, 0, 1] ++ leBytes 4 (Config.oobVersion 1).toNat)) ∧
    exec (.getMctpVersionSupport 1) s = .next (reply s ([0, 0, 4, 0, 1] ++ leBytes 4 (Config.oobVersion 2).toNat)) ∧
    (∀ e : Byte, 1 < e.toNat → e ≠ 0xFF → exec (.getMctpVersionSupport e) s = .next (reply s [0, 0, 4, 0x80])) ∧
    exec .getMessageTypeSupport s = .next (reply s [0, 0, 5, 0, 1, 1]) ∧
    (∀ d : Byte, (d ≠ 0 → d ≠ 0xFF → exec (.setTid d) s = .next (reply { s with mgmt.tid := d } [0, 0, 1, 0])) ∧
      (d = 0 ∨ d = 0xFF → exec (.setTid d) s = .next (reply s [0, 0, 1, 2]))) ∧
    exec .getTid s = .next (reply s [0, 0, 2, 0, s.mgmt.tid]) ∧
    (∀ d : Byte, d ∈ [(0 : Byte), 2, 5] →
      let v := leBytes 4 (Config.oobVersion (16 + d.toNat)).toNat
      exec (.getPldmVersion d) s = .next (reply s ([0, 0, 3, 0, 0, 0, 0, 0, 5] ++ v ++ leBytes 4 (crc32 v)))) ∧
    (∀ d : Byte, d ∉ [(0 : Byte), 2, 5] → exec (.getPldmVersion d) s = .next (reply s [0, 0, 3, 0x83]) ∧
      exec (.getPldmCommands d) s = .next (reply s [0, 0, 5, 0x83])) ∧
    exec .getPldmTypes s = .next (reply s [0, 0, 4, 0, 0x25, 0, 0, 0, 0, 0, 0, 0]) ∧
    ∀ (d : Byte) (mask : Nat), pldmCommands d.toNat = some mask →
      exec (.getPldmCommands d) s = .next (reply s ([0, 0, 5, 0] ++ leBytes 32 mask))

/-- The PLDM monitoring commands answer with the PDRs, the sensors, the mode and the conditions; state effecter 200 requests a mode,
numeric effecter 201 sets PCAP and persists it (R437, R449, R451, Table 15-6). The layouts of the replies are the model's choice
(assumption 15). -/
def Obligations.ManagementMonitorsAndControls : Prop :=
  ∀ s : State, s.managed = true →
    let reply := fun (t : State) (b : List Byte) => t.emit (.mgmt ([0, 2] ++ b))
    (∃ t b, exec .getPdrRepositoryInfo s = .next t ∧ t.out = .mgmt b :: s.out ∧ b.take 4 = [0, 2, 0x50, 0] ∧
      (b.drop 31).take 4 = leBytes 4 41 ∧ OnlyIn [.out] s t) ∧
    (∀ h : Word, (41 < h.toNat → exec (.getPdr h) s = .next (reply s [0x51, 0x82])) ∧
      ∀ e, pdrList[h.toNat - 1]? = some e → ∃ t b, exec (.getPdr h) s = .next t ∧ t.out = .mgmt b :: s.out ∧
        b.take 8 = [0, 2, 0x51, 0] ++ leBytes 4 (if h.toNat - 1 < 40 then h.toNat - 1 + 2 else 0) ∧ OnlyIn [.out] s t) ∧
    (∀ id : BitVec 16, (s.numericSensor id.toNat = none → exec (.getSensorReading id) s = .next (reply s [0x11, 0x80])) ∧
      ∀ size st v, s.numericSensor id.toNat = some (size, st, v) →
        exec (.getSensorReading id) s = .next (reply s ([0x11, 0, size, st, 0, 1, 1, 1] ++ v))) ∧
    exec (.getStateSensorReadings 100) s =
      .next (reply s [0x21, 0, 1, 0, BitVec.ofNat 8 s.pwr.mode.code, 0, BitVec.ofNat 8 s.pwr.mode.code]) ∧
    exec (.getStateSensorReadings 101) s =
      .next (reply s [0x21, 0, 1, 0, BitVec.ofNat 8 s.conditions, 0, BitVec.ofNat 8 s.conditions]) ∧
    (∀ id : BitVec 16, id ≠ 100 → id ≠ 101 → exec (.getStateSensorReadings id) s = .next (reply s [0x21, 0x80])) ∧
    (∀ (id : BitVec 16) (x : Byte), id ≠ 200 → exec (.setStateEffecterStates id x) s = .next (reply s [0x39, 0x80])) ∧
    (∀ x : Byte, exec (.setStateEffecterStates 200 x) s =
      .next (reply (s.requestMode x.toNat .outOfBand) [0x39, 0])) ∧
    (∀ (id : BitVec 16) (v : Word),
      (id ≠ 201 → exec (.setNumericEffecterValue id v) s = .next (reply s [0x31, 0x80]) ∧
        exec (.getNumericEffecterValue id) s = .next (reply s [0x32, 0x80])) ∧
      (id = 201 → 127 < v.toNat → exec (.setNumericEffecterValue id v) s = .next (reply s [0x31, 2])) ∧
      (id = 201 → v.toNat ≤ 127 → ∃ t, exec (.setNumericEffecterValue id v) s = .next t ∧
        bits (t.regOr 1109 0x60010) 6 0 = v.toNat ∧
        bits (t.regOr 1109 0x60010) 31 7 = bits (s.regOr 1109 0x60010) 31 7 ∧
        (s.pwr.brownOut = false → Table.get .none t.nvs.persisted 0x60010 = Table.get .none t.regs 0x60010) ∧
        OnlyIn [.regs, .nvs, .out] s t)) ∧
    (let w := BitVec.ofNat 8 (bits (s.regOr 1109 0x60010) 6 0)
    exec (.getNumericEffecterValue 201) s = .next (reply s [0x32, 0, 0, 1, w, w])) ∧
    ∀ a : Byte, exec (.setEventReceiver 0 a) s = .next (reply { s with mgmt.receiver := none } [4, 0]) ∧
      exec (.setEventReceiver 1 a) s = .next (reply { s with mgmt.receiver := some a } [4, 0]) ∧
      ∀ e : Byte, 1 < e.toNat → exec (.setEventReceiver e a) s = .next (reply s [4, 0x82])

/-- The PLDM firmware update: a request leaves IDLE, a component's update invalidates its spare slot and downloads, verifies and
applies the image, whose slot becomes PENDING, and activation waits for the next start; a command in another phase is refused
and changes nothing, an image with an update running is refused with ALREADY_IN_UPDATE_MODE, and a bad signature or a cancel
ends the component's update (R450, R459, Table 15-6). The codes of the replies are the model's choice (assumption 15). -/
def Obligations.FirmwareUpdatesGoThroughTheirPhases : Prop :=
  ∀ s : State, s.managed = true →
    let reply := fun (t : State) (b : List Byte) => t.emit (.mgmt ([0, 5] ++ b))
    let wrong := fun (cmd : Byte) => reply s [cmd, if s.mgmt.phase = .idle then 0x80 else 0x84]
    let phase := fun (p : PldmPhase) => { s with mgmt.phase := p }
    exec .queryDeviceIdentifiers s = .next (reply s
      [1, 0, 12, 0, 0, 0, 2, 0, 0, 2, 0, 0x7B, 0x1F, 0, 1, 2, 0, 0x64, 0x89]) ∧
    (∃ t b, exec .getFirmwareParameters s = .next t ∧ t.out = .mgmt b :: s.out ∧
      b.take 10 = [0, 5, 2, 0, 0, 0, 0, 0, 3, 0] ∧ OnlyIn [.out] s t) ∧
    (s.mgmt.phase = .idle → exec .requestUpdate s = .next (reply (phase .learn) [0x10, 0, 0, 0, 0])) ∧
    (s.mgmt.phase ≠ .idle → exec .requestUpdate s = .next (reply s [0x10, 0x81])) ∧
    (∀ cls comp, s.mgmt.phase ∈ [PldmPhase.learn, .ready] → exec (.passComponentTable cls comp) s =
      .next (reply (phase .ready) ([0x13, 0] ++ (if (componentOf cls comp).isSome then [0, 0] else [1, 6])))) ∧
    (∀ cls comp, s.mgmt.phase ∉ [PldmPhase.learn, .ready] → exec (.passComponentTable cls comp) s = .next (wrong 0x13)) ∧
    (∀ (cls comp : BitVec 16) (size : Word),
      (s.mgmt.phase ≠ .ready → exec (.updateComponent cls comp size) s = .next (wrong 0x14)) ∧
      ∀ i, s.mgmt.phase = .ready → componentOf cls comp = some i →
        ((s.updateOf i).isSome = true → exec (.updateComponent cls comp size) s = .next (reply s [0x14, 0x81])) ∧
        (s.updateOf i = none → size.toNat ≤ slotSize i → ∃ t, exec (.updateComponent cls comp size) s = .next t ∧
          t.mgmt = { s.mgmt with phase := .download, component := some i, offset := 0 } ∧
          t.updateOf i = some ⟨true, none, 0, false, size.toNat, 0, none⟩ ∧ (t.image i).spare = .invalid ∧
          (∀ j, j ≠ i → t.image j = s.image j ∧ t.updateOf j = s.updateOf j) ∧
          OnlyIn [.management, .updates, .nvs, .out] s t) ∧
        (s.updateOf i = none → slotSize i < size.toNat → exec (.updateComponent cls comp size) s =
          .next (reply s [0x14, 0, 1, 6, 0, 0, 0, 0, 0, 0]))) ∧
    (∀ (cls comp : BitVec 16) (size : Word), s.mgmt.phase = .ready → componentOf cls comp = none →
      exec (.updateComponent cls comp size) s = .next (reply s [0x14, 0, 1, 6, 0, 0, 0, 0, 0, 0])) ∧
    (∀ data, s.mgmt.phase ≠ .download → exec (.requestFirmwareData data) s = .next s) ∧
    (∀ (data : List Byte) (i : Fin 3) (u : Update), s.mgmt.phase = .download → s.mgmt.component = some i →
      s.updateOf i = some u → ∃ t, exec (.requestFirmwareData data) s = .next t ∧
        t.updateOf i = some { u with received := min u.length (u.received + data.length) } ∧
        t.mgmt = { s.mgmt with offset := min u.length (u.received + data.length) } ∧ OnlyIn [.management, .updates] s t) ∧
    (∀ (i : Fin 3) (u : Update), s.mgmt.phase = .download → s.mgmt.component = some i → s.updateOf i = some u →
      u.length ≤ u.received → exec (.transferComplete true) s = .next (phase .verify)) ∧
    (∀ (i : Fin 3) (u : Update) (v : Word) (m : Option McImage), s.mgmt.phase = .verify → s.mgmt.component = some i →
      s.updateOf i = some u → imageInRange i m = true → ∃ t, exec (.verifyComplete (.verified v m)) s = .next t ∧ t.mgmt.phase = .apply ∧ (t.image i).spareVersion = v ∧
        OnlyIn [.management, .nvs] s t) ∧
    (s.mgmt.phase = .verify → ∃ t, exec (.verifyComplete .badSignature) s = .next t ∧ t.mgmt.phase = .ready ∧
      ∀ i, (t.image i).spare = (s.image i).spare) ∧
    (∀ (i : Fin 3) (u : Update), s.mgmt.phase = .apply → s.mgmt.component = some i → s.updateOf i = some u →
      ∃ t, exec (.applyComplete true) s = .next t ∧ t.mgmt.phase = .ready ∧ (t.image i).spare = .pending ∧
        (t.image i).spareVersion = (s.image i).spareVersion) ∧
    (s.mgmt.phase ≠ .ready → exec (.activateFirmware false) s = .next (wrong 0x1A)) ∧
    (s.mgmt.phase = .ready → exec (.activateFirmware false) s = .next (reply (phase .idle) [0x1A, 0, 0, 0]) ∧
      exec (.activateFirmware true) s = .next (reply s [0x1A, 0x8C])) ∧
    (∃ t b, exec .getStatus s = .next t ∧ t.out = .mgmt b :: s.out ∧
      b.take 5 = [0, 5, 0x1B, 0, BitVec.ofNat 8 s.mgmt.phase.code] ∧ OnlyIn [.out] s t) ∧
    (s.mgmt.phase.busy = false → exec .cancelUpdateComponent s = .next (wrong 0x1C)) ∧
    (s.mgmt.phase.busy = true → ∃ t, exec .cancelUpdateComponent s = .next t ∧ t.mgmt.phase = .ready) ∧
    (s.mgmt.phase = .idle → exec .cancelUpdate s = .next (wrong 0x1D)) ∧
    (s.mgmt.phase ≠ .idle → ∃ t, exec .cancelUpdate s = .next t ∧ t.mgmt.phase = .idle ∧
      (s.mgmt.phase.busy = false → t.updates = s.updates))
end

