-- ==== Sys2Proof/Laws/State.lean ====
section
/-! SUPPORT. What each operation that writes one part of the state leaves of every other part, and what it writes: one
lemma for each field, true by definition. -/

namespace Sys2Proof.Machine

section setReg
variable (s : State) (off : Nat) (v : Word)
@[simp] theorem State.setReg_pending : (s.setReg off v).pending = s.pending := rfl
@[simp] theorem State.setReg_time : (s.setReg off v).time = s.time := rfl
@[simp] theorem State.setReg_stage : (s.setReg off v).stage = s.stage := rfl
@[simp] theorem State.setReg_qm : (s.setReg off v).qm = s.qm := rfl
@[simp] theorem State.setReg_codec : (s.setReg off v).codec = s.codec := rfl
@[simp] theorem State.setReg_cmp : (s.setReg off v).cmp = s.cmp := rfl
@[simp] theorem State.setReg_lmp : (s.setReg off v).lmp = s.lmp := rfl
@[simp] theorem State.setReg_wick : (s.setReg off v).wick = s.wick := rfl
@[simp] theorem State.setReg_swc : (s.setReg off v).swc = s.swc := rfl
@[simp] theorem State.setReg_trf : (s.setReg off v).trf = s.trf := rfl
@[simp] theorem State.setReg_pool : (s.setReg off v).pool = s.pool := rfl
@[simp] theorem State.setReg_dma : (s.setReg off v).dma = s.dma := rfl
@[simp] theorem State.setReg_dmaReject : (s.setReg off v).dmaReject = s.dmaReject := rfl
@[simp] theorem State.setReg_audit : (s.setReg off v).audit = s.audit := rfl
@[simp] theorem State.setReg_icu : (s.setReg off v).icu = s.icu := rfl
@[simp] theorem State.setReg_snuf : (s.setReg off v).snuf = s.snuf := rfl
@[simp] theorem State.setReg_pwr : (s.setReg off v).pwr = s.pwr := rfl
@[simp] theorem State.setReg_nvs : (s.setReg off v).nvs = s.nvs := rfl
@[simp] theorem State.setReg_updates : (s.setReg off v).updates = s.updates := rfl
@[simp] theorem State.setReg_mgmt : (s.setReg off v).mgmt = s.mgmt := rfl
@[simp] theorem State.setReg_mail : (s.setReg off v).mail = s.mail := rfl
@[simp] theorem State.setReg_host : (s.setReg off v).host = s.host := rfl
@[simp] theorem State.setReg_dev : (s.setReg off v).dev = s.dev := rfl
@[simp] theorem State.setReg_poison : (s.setReg off v).poison = s.poison := rfl
@[simp] theorem State.setReg_correctable : (s.setReg off v).correctable = s.correctable := rfl
@[simp] theorem State.setReg_rd : (s.setReg off v).rd = s.rd := rfl
@[simp] theorem State.setReg_out : (s.setReg off v).out = s.out := rfl
@[simp] theorem State.setReg_free : (s.setReg off v).free = s.free := rfl
@[simp] theorem State.setReg_regs :
    (s.setReg off v).regs = Table.set .none s.regs off (some v) := rfl
end setReg

section setRd
variable (s : State) (n : Nat)
@[simp] theorem State.setRd_pending : (s.setRd n).pending = s.pending := rfl
@[simp] theorem State.setRd_time : (s.setRd n).time = s.time := rfl
@[simp] theorem State.setRd_stage : (s.setRd n).stage = s.stage := rfl
@[simp] theorem State.setRd_qm : (s.setRd n).qm = s.qm := rfl
@[simp] theorem State.setRd_codec : (s.setRd n).codec = s.codec := rfl
@[simp] theorem State.setRd_cmp : (s.setRd n).cmp = s.cmp := rfl
@[simp] theorem State.setRd_lmp : (s.setRd n).lmp = s.lmp := rfl
@[simp] theorem State.setRd_wick : (s.setRd n).wick = s.wick := rfl
@[simp] theorem State.setRd_swc : (s.setRd n).swc = s.swc := rfl
@[simp] theorem State.setRd_trf : (s.setRd n).trf = s.trf := rfl
@[simp] theorem State.setRd_pool : (s.setRd n).pool = s.pool := rfl
@[simp] theorem State.setRd_dma : (s.setRd n).dma = s.dma := rfl
@[simp] theorem State.setRd_dmaReject : (s.setRd n).dmaReject = s.dmaReject := rfl
@[simp] theorem State.setRd_audit : (s.setRd n).audit = s.audit := rfl
@[simp] theorem State.setRd_icu : (s.setRd n).icu = s.icu := rfl
@[simp] theorem State.setRd_snuf : (s.setRd n).snuf = s.snuf := rfl
@[simp] theorem State.setRd_pwr : (s.setRd n).pwr = s.pwr := rfl
@[simp] theorem State.setRd_nvs : (s.setRd n).nvs = s.nvs := rfl
@[simp] theorem State.setRd_updates : (s.setRd n).updates = s.updates := rfl
@[simp] theorem State.setRd_mgmt : (s.setRd n).mgmt = s.mgmt := rfl
@[simp] theorem State.setRd_mail : (s.setRd n).mail = s.mail := rfl
@[simp] theorem State.setRd_host : (s.setRd n).host = s.host := rfl
@[simp] theorem State.setRd_dev : (s.setRd n).dev = s.dev := rfl
@[simp] theorem State.setRd_poison : (s.setRd n).poison = s.poison := rfl
@[simp] theorem State.setRd_correctable : (s.setRd n).correctable = s.correctable := rfl
@[simp] theorem State.setRd_regs : (s.setRd n).regs = s.regs := rfl
@[simp] theorem State.setRd_out : (s.setRd n).out = s.out := rfl
@[simp] theorem State.setRd_free : (s.setRd n).free = s.free := rfl
@[simp] theorem State.setRd_rd :
    (s.setRd n).rd = BitVec.ofNat 64 n := rfl
end setRd

section emit
variable (s : State) (m : OutMsg)
@[simp] theorem State.emit_pending : (s.emit m).pending = s.pending := rfl
@[simp] theorem State.emit_time : (s.emit m).time = s.time := rfl
@[simp] theorem State.emit_stage : (s.emit m).stage = s.stage := rfl
@[simp] theorem State.emit_qm : (s.emit m).qm = s.qm := rfl
@[simp] theorem State.emit_codec : (s.emit m).codec = s.codec := rfl
@[simp] theorem State.emit_cmp : (s.emit m).cmp = s.cmp := rfl
@[simp] theorem State.emit_lmp : (s.emit m).lmp = s.lmp := rfl
@[simp] theorem State.emit_wick : (s.emit m).wick = s.wick := rfl
@[simp] theorem State.emit_swc : (s.emit m).swc = s.swc := rfl
@[simp] theorem State.emit_trf : (s.emit m).trf = s.trf := rfl
@[simp] theorem State.emit_pool : (s.emit m).pool = s.pool := rfl
@[simp] theorem State.emit_dma : (s.emit m).dma = s.dma := rfl
@[simp] theorem State.emit_dmaReject : (s.emit m).dmaReject = s.dmaReject := rfl
@[simp] theorem State.emit_audit : (s.emit m).audit = s.audit := rfl
@[simp] theorem State.emit_icu : (s.emit m).icu = s.icu := rfl
@[simp] theorem State.emit_snuf : (s.emit m).snuf = s.snuf := rfl
@[simp] theorem State.emit_pwr : (s.emit m).pwr = s.pwr := rfl
@[simp] theorem State.emit_nvs : (s.emit m).nvs = s.nvs := rfl
@[simp] theorem State.emit_updates : (s.emit m).updates = s.updates := rfl
@[simp] theorem State.emit_mgmt : (s.emit m).mgmt = s.mgmt := rfl
@[simp] theorem State.emit_mail : (s.emit m).mail = s.mail := rfl
@[simp] theorem State.emit_host : (s.emit m).host = s.host := rfl
@[simp] theorem State.emit_dev : (s.emit m).dev = s.dev := rfl
@[simp] theorem State.emit_poison : (s.emit m).poison = s.poison := rfl
@[simp] theorem State.emit_correctable : (s.emit m).correctable = s.correctable := rfl
@[simp] theorem State.emit_regs : (s.emit m).regs = s.regs := rfl
@[simp] theorem State.emit_rd : (s.emit m).rd = s.rd := rfl
@[simp] theorem State.emit_free : (s.emit m).free = s.free := rfl
@[simp] theorem State.emit_out :
    (s.emit m).out = m :: s.out := rfl
end emit

section hostWrite
variable (s : State) (a : Nat) (bs : List Byte)
@[simp] theorem State.hostWrite_pending : (s.hostWrite a bs).pending = s.pending := rfl
@[simp] theorem State.hostWrite_time : (s.hostWrite a bs).time = s.time := rfl
@[simp] theorem State.hostWrite_stage : (s.hostWrite a bs).stage = s.stage := rfl
@[simp] theorem State.hostWrite_qm : (s.hostWrite a bs).qm = s.qm := rfl
@[simp] theorem State.hostWrite_codec : (s.hostWrite a bs).codec = s.codec := rfl
@[simp] theorem State.hostWrite_cmp : (s.hostWrite a bs).cmp = s.cmp := rfl
@[simp] theorem State.hostWrite_lmp : (s.hostWrite a bs).lmp = s.lmp := rfl
@[simp] theorem State.hostWrite_wick : (s.hostWrite a bs).wick = s.wick := rfl
@[simp] theorem State.hostWrite_swc : (s.hostWrite a bs).swc = s.swc := rfl
@[simp] theorem State.hostWrite_trf : (s.hostWrite a bs).trf = s.trf := rfl
@[simp] theorem State.hostWrite_pool : (s.hostWrite a bs).pool = s.pool := rfl
@[simp] theorem State.hostWrite_dma : (s.hostWrite a bs).dma = s.dma := rfl
@[simp] theorem State.hostWrite_dmaReject : (s.hostWrite a bs).dmaReject = s.dmaReject := rfl
@[simp] theorem State.hostWrite_audit : (s.hostWrite a bs).audit = s.audit := rfl
@[simp] theorem State.hostWrite_icu : (s.hostWrite a bs).icu = s.icu := rfl
@[simp] theorem State.hostWrite_snuf : (s.hostWrite a bs).snuf = s.snuf := rfl
@[simp] theorem State.hostWrite_pwr : (s.hostWrite a bs).pwr = s.pwr := rfl
@[simp] theorem State.hostWrite_nvs : (s.hostWrite a bs).nvs = s.nvs := rfl
@[simp] theorem State.hostWrite_updates : (s.hostWrite a bs).updates = s.updates := rfl
@[simp] theorem State.hostWrite_mgmt : (s.hostWrite a bs).mgmt = s.mgmt := rfl
@[simp] theorem State.hostWrite_mail : (s.hostWrite a bs).mail = s.mail := rfl
@[simp] theorem State.hostWrite_dev : (s.hostWrite a bs).dev = s.dev := rfl
@[simp] theorem State.hostWrite_poison : (s.hostWrite a bs).poison = s.poison := rfl
@[simp] theorem State.hostWrite_correctable : (s.hostWrite a bs).correctable = s.correctable := rfl
@[simp] theorem State.hostWrite_regs : (s.hostWrite a bs).regs = s.regs := rfl
@[simp] theorem State.hostWrite_rd : (s.hostWrite a bs).rd = s.rd := rfl
@[simp] theorem State.hostWrite_out : (s.hostWrite a bs).out = s.out := rfl
@[simp] theorem State.hostWrite_free : (s.hostWrite a bs).free = s.free := rfl
@[simp] theorem State.hostWrite_host :
    (s.hostWrite a bs).host = s.host.setBytes a bs := rfl
end hostWrite

section setSq
variable (s : State) (k : Nat) (q : Sq)
@[simp] theorem State.setSq_pending : (s.setSq k q).pending = s.pending := rfl
@[simp] theorem State.setSq_time : (s.setSq k q).time = s.time := rfl
@[simp] theorem State.setSq_stage : (s.setSq k q).stage = s.stage := rfl
@[simp] theorem State.setSq_codec : (s.setSq k q).codec = s.codec := rfl
@[simp] theorem State.setSq_cmp : (s.setSq k q).cmp = s.cmp := rfl
@[simp] theorem State.setSq_lmp : (s.setSq k q).lmp = s.lmp := rfl
@[simp] theorem State.setSq_wick : (s.setSq k q).wick = s.wick := rfl
@[simp] theorem State.setSq_swc : (s.setSq k q).swc = s.swc := rfl
@[simp] theorem State.setSq_trf : (s.setSq k q).trf = s.trf := rfl
@[simp] theorem State.setSq_pool : (s.setSq k q).pool = s.pool := rfl
@[simp] theorem State.setSq_dma : (s.setSq k q).dma = s.dma := rfl
@[simp] theorem State.setSq_dmaReject : (s.setSq k q).dmaReject = s.dmaReject := rfl
@[simp] theorem State.setSq_audit : (s.setSq k q).audit = s.audit := rfl
@[simp] theorem State.setSq_icu : (s.setSq k q).icu = s.icu := rfl
@[simp] theorem State.setSq_snuf : (s.setSq k q).snuf = s.snuf := rfl
@[simp] theorem State.setSq_pwr : (s.setSq k q).pwr = s.pwr := rfl
@[simp] theorem State.setSq_nvs : (s.setSq k q).nvs = s.nvs := rfl
@[simp] theorem State.setSq_updates : (s.setSq k q).updates = s.updates := rfl
@[simp] theorem State.setSq_mgmt : (s.setSq k q).mgmt = s.mgmt := rfl
@[simp] theorem State.setSq_mail : (s.setSq k q).mail = s.mail := rfl
@[simp] theorem State.setSq_host : (s.setSq k q).host = s.host := rfl
@[simp] theorem State.setSq_dev : (s.setSq k q).dev = s.dev := rfl
@[simp] theorem State.setSq_poison : (s.setSq k q).poison = s.poison := rfl
@[simp] theorem State.setSq_correctable : (s.setSq k q).correctable = s.correctable := rfl
@[simp] theorem State.setSq_regs : (s.setSq k q).regs = s.regs := rfl
@[simp] theorem State.setSq_rd : (s.setSq k q).rd = s.rd := rfl
@[simp] theorem State.setSq_out : (s.setSq k q).out = s.out := rfl
@[simp] theorem State.setSq_free : (s.setSq k q).free = s.free := rfl
@[simp] theorem State.setSq_qm_sqs :
    (s.setSq k q).qm.sqs = Table.set Sq.absent s.qm.sqs k q := rfl
end setSq

section setCq
variable (s : State) (k : Nat) (c : Cq)
@[simp] theorem State.setCq_pending : (s.setCq k c).pending = s.pending := rfl
@[simp] theorem State.setCq_time : (s.setCq k c).time = s.time := rfl
@[simp] theorem State.setCq_stage : (s.setCq k c).stage = s.stage := rfl
@[simp] theorem State.setCq_codec : (s.setCq k c).codec = s.codec := rfl
@[simp] theorem State.setCq_cmp : (s.setCq k c).cmp = s.cmp := rfl
@[simp] theorem State.setCq_lmp : (s.setCq k c).lmp = s.lmp := rfl
@[simp] theorem State.setCq_wick : (s.setCq k c).wick = s.wick := rfl
@[simp] theorem State.setCq_swc : (s.setCq k c).swc = s.swc := rfl
@[simp] theorem State.setCq_trf : (s.setCq k c).trf = s.trf := rfl
@[simp] theorem State.setCq_pool : (s.setCq k c).pool = s.pool := rfl
@[simp] theorem State.setCq_dma : (s.setCq k c).dma = s.dma := rfl
@[simp] theorem State.setCq_dmaReject : (s.setCq k c).dmaReject = s.dmaReject := rfl
@[simp] theorem State.setCq_audit : (s.setCq k c).audit = s.audit := rfl
@[simp] theorem State.setCq_icu : (s.setCq k c).icu = s.icu := rfl
@[simp] theorem State.setCq_snuf : (s.setCq k c).snuf = s.snuf := rfl
@[simp] theorem State.setCq_pwr : (s.setCq k c).pwr = s.pwr := rfl
@[simp] theorem State.setCq_nvs : (s.setCq k c).nvs = s.nvs := rfl
@[simp] theorem State.setCq_updates : (s.setCq k c).updates = s.updates := rfl
@[simp] theorem State.setCq_mgmt : (s.setCq k c).mgmt = s.mgmt := rfl
@[simp] theorem State.setCq_mail : (s.setCq k c).mail = s.mail := rfl
@[simp] theorem State.setCq_host : (s.setCq k c).host = s.host := rfl
@[simp] theorem State.setCq_dev : (s.setCq k c).dev = s.dev := rfl
@[simp] theorem State.setCq_poison : (s.setCq k c).poison = s.poison := rfl
@[simp] theorem State.setCq_correctable : (s.setCq k c).correctable = s.correctable := rfl
@[simp] theorem State.setCq_regs : (s.setCq k c).regs = s.regs := rfl
@[simp] theorem State.setCq_rd : (s.setCq k c).rd = s.rd := rfl
@[simp] theorem State.setCq_out : (s.setCq k c).out = s.out := rfl
@[simp] theorem State.setCq_free : (s.setCq k c).free = s.free := rfl
@[simp] theorem State.setCq_qm_cqs :
    (s.setCq k c).qm.cqs = Table.set Cq.absent s.qm.cqs k c := rfl
end setCq

section setSlot
variable (s : State) (n : Nat) (x : Option Slot)
@[simp] theorem State.setSlot_pending : (s.setSlot n x).pending = s.pending := rfl
@[simp] theorem State.setSlot_time : (s.setSlot n x).time = s.time := rfl
@[simp] theorem State.setSlot_stage : (s.setSlot n x).stage = s.stage := rfl
@[simp] theorem State.setSlot_codec : (s.setSlot n x).codec = s.codec := rfl
@[simp] theorem State.setSlot_cmp : (s.setSlot n x).cmp = s.cmp := rfl
@[simp] theorem State.setSlot_lmp : (s.setSlot n x).lmp = s.lmp := rfl
@[simp] theorem State.setSlot_wick : (s.setSlot n x).wick = s.wick := rfl
@[simp] theorem State.setSlot_swc : (s.setSlot n x).swc = s.swc := rfl
@[simp] theorem State.setSlot_trf : (s.setSlot n x).trf = s.trf := rfl
@[simp] theorem State.setSlot_pool : (s.setSlot n x).pool = s.pool := rfl
@[simp] theorem State.setSlot_dma : (s.setSlot n x).dma = s.dma := rfl
@[simp] theorem State.setSlot_dmaReject : (s.setSlot n x).dmaReject = s.dmaReject := rfl
@[simp] theorem State.setSlot_audit : (s.setSlot n x).audit = s.audit := rfl
@[simp] theorem State.setSlot_icu : (s.setSlot n x).icu = s.icu := rfl
@[simp] theorem State.setSlot_snuf : (s.setSlot n x).snuf = s.snuf := rfl
@[simp] theorem State.setSlot_pwr : (s.setSlot n x).pwr = s.pwr := rfl
@[simp] theorem State.setSlot_nvs : (s.setSlot n x).nvs = s.nvs := rfl
@[simp] theorem State.setSlot_updates : (s.setSlot n x).updates = s.updates := rfl
@[simp] theorem State.setSlot_mgmt : (s.setSlot n x).mgmt = s.mgmt := rfl
@[simp] theorem State.setSlot_mail : (s.setSlot n x).mail = s.mail := rfl
@[simp] theorem State.setSlot_host : (s.setSlot n x).host = s.host := rfl
@[simp] theorem State.setSlot_dev : (s.setSlot n x).dev = s.dev := rfl
@[simp] theorem State.setSlot_poison : (s.setSlot n x).poison = s.poison := rfl
@[simp] theorem State.setSlot_correctable : (s.setSlot n x).correctable = s.correctable := rfl
@[simp] theorem State.setSlot_regs : (s.setSlot n x).regs = s.regs := rfl
@[simp] theorem State.setSlot_rd : (s.setSlot n x).rd = s.rd := rfl
@[simp] theorem State.setSlot_out : (s.setSlot n x).out = s.out := rfl
@[simp] theorem State.setSlot_free : (s.setSlot n x).free = s.free := rfl
@[simp] theorem State.setSlot_qm_slots :
    (s.setSlot n x).qm.slots = Table.set .none s.qm.slots n x := rfl
end setSlot

section setChan
variable (s : State) (c : Nat) (x : Channel)
@[simp] theorem State.setChan_pending : (s.setChan c x).pending = s.pending := rfl
@[simp] theorem State.setChan_time : (s.setChan c x).time = s.time := rfl
@[simp] theorem State.setChan_stage : (s.setChan c x).stage = s.stage := rfl
@[simp] theorem State.setChan_qm : (s.setChan c x).qm = s.qm := rfl
@[simp] theorem State.setChan_codec : (s.setChan c x).codec = s.codec := rfl
@[simp] theorem State.setChan_cmp : (s.setChan c x).cmp = s.cmp := rfl
@[simp] theorem State.setChan_wick : (s.setChan c x).wick = s.wick := rfl
@[simp] theorem State.setChan_swc : (s.setChan c x).swc = s.swc := rfl
@[simp] theorem State.setChan_trf : (s.setChan c x).trf = s.trf := rfl
@[simp] theorem State.setChan_pool : (s.setChan c x).pool = s.pool := rfl
@[simp] theorem State.setChan_dma : (s.setChan c x).dma = s.dma := rfl
@[simp] theorem State.setChan_dmaReject : (s.setChan c x).dmaReject = s.dmaReject := rfl
@[simp] theorem State.setChan_audit : (s.setChan c x).audit = s.audit := rfl
@[simp] theorem State.setChan_icu : (s.setChan c x).icu = s.icu := rfl
@[simp] theorem State.setChan_snuf : (s.setChan c x).snuf = s.snuf := rfl
@[simp] theorem State.setChan_pwr : (s.setChan c x).pwr = s.pwr := rfl
@[simp] theorem State.setChan_nvs : (s.setChan c x).nvs = s.nvs := rfl
@[simp] theorem State.setChan_updates : (s.setChan c x).updates = s.updates := rfl
@[simp] theorem State.setChan_mgmt : (s.setChan c x).mgmt = s.mgmt := rfl
@[simp] theorem State.setChan_mail : (s.setChan c x).mail = s.mail := rfl
@[simp] theorem State.setChan_host : (s.setChan c x).host = s.host := rfl
@[simp] theorem State.setChan_dev : (s.setChan c x).dev = s.dev := rfl
@[simp] theorem State.setChan_poison : (s.setChan c x).poison = s.poison := rfl
@[simp] theorem State.setChan_correctable : (s.setChan c x).correctable = s.correctable := rfl
@[simp] theorem State.setChan_regs : (s.setChan c x).regs = s.regs := rfl
@[simp] theorem State.setChan_rd : (s.setChan c x).rd = s.rd := rfl
@[simp] theorem State.setChan_out : (s.setChan c x).out = s.out := rfl
@[simp] theorem State.setChan_free : (s.setChan c x).free = s.free := rfl
@[simp] theorem State.setChan_lmp_chans :
    (s.setChan c x).lmp.chans = Table.set Channel.free s.lmp.chans c x := rfl
end setChan

section setShaper
variable (s : State) (k : Nat) (x : Shaper)
@[simp] theorem State.setShaper_pending : (s.setShaper k x).pending = s.pending := rfl
@[simp] theorem State.setShaper_time : (s.setShaper k x).time = s.time := rfl
@[simp] theorem State.setShaper_stage : (s.setShaper k x).stage = s.stage := rfl
@[simp] theorem State.setShaper_qm : (s.setShaper k x).qm = s.qm := rfl
@[simp] theorem State.setShaper_codec : (s.setShaper k x).codec = s.codec := rfl
@[simp] theorem State.setShaper_cmp : (s.setShaper k x).cmp = s.cmp := rfl
@[simp] theorem State.setShaper_lmp : (s.setShaper k x).lmp = s.lmp := rfl
@[simp] theorem State.setShaper_wick : (s.setShaper k x).wick = s.wick := rfl
@[simp] theorem State.setShaper_swc : (s.setShaper k x).swc = s.swc := rfl
@[simp] theorem State.setShaper_pool : (s.setShaper k x).pool = s.pool := rfl
@[simp] theorem State.setShaper_dma : (s.setShaper k x).dma = s.dma := rfl
@[simp] theorem State.setShaper_dmaReject : (s.setShaper k x).dmaReject = s.dmaReject := rfl
@[simp] theorem State.setShaper_audit : (s.setShaper k x).audit = s.audit := rfl
@[simp] theorem State.setShaper_icu : (s.setShaper k x).icu = s.icu := rfl
@[simp] theorem State.setShaper_snuf : (s.setShaper k x).snuf = s.snuf := rfl
@[simp] theorem State.setShaper_pwr : (s.setShaper k x).pwr = s.pwr := rfl
@[simp] theorem State.setShaper_nvs : (s.setShaper k x).nvs = s.nvs := rfl
@[simp] theorem State.setShaper_updates : (s.setShaper k x).updates = s.updates := rfl
@[simp] theorem State.setShaper_mgmt : (s.setShaper k x).mgmt = s.mgmt := rfl
@[simp] theorem State.setShaper_mail : (s.setShaper k x).mail = s.mail := rfl
@[simp] theorem State.setShaper_host : (s.setShaper k x).host = s.host := rfl
@[simp] theorem State.setShaper_dev : (s.setShaper k x).dev = s.dev := rfl
@[simp] theorem State.setShaper_poison : (s.setShaper k x).poison = s.poison := rfl
@[simp] theorem State.setShaper_correctable : (s.setShaper k x).correctable = s.correctable := rfl
@[simp] theorem State.setShaper_regs : (s.setShaper k x).regs = s.regs := rfl
@[simp] theorem State.setShaper_rd : (s.setShaper k x).rd = s.rd := rfl
@[simp] theorem State.setShaper_out : (s.setShaper k x).out = s.out := rfl
@[simp] theorem State.setShaper_free : (s.setShaper k x).free = s.free := rfl
@[simp] theorem State.setShaper_trf_shapers :
    (s.setShaper k x).trf.shapers = Table.set Shaper.reset s.trf.shapers k x := rfl
end setShaper

section setMeter
variable (s : State) (k : Nat) (x : Meter)
@[simp] theorem State.setMeter_pending : (s.setMeter k x).pending = s.pending := rfl
@[simp] theorem State.setMeter_time : (s.setMeter k x).time = s.time := rfl
@[simp] theorem State.setMeter_stage : (s.setMeter k x).stage = s.stage := rfl
@[simp] theorem State.setMeter_qm : (s.setMeter k x).qm = s.qm := rfl
@[simp] theorem State.setMeter_codec : (s.setMeter k x).codec = s.codec := rfl
@[simp] theorem State.setMeter_cmp : (s.setMeter k x).cmp = s.cmp := rfl
@[simp] theorem State.setMeter_lmp : (s.setMeter k x).lmp = s.lmp := rfl
@[simp] theorem State.setMeter_wick : (s.setMeter k x).wick = s.wick := rfl
@[simp] theorem State.setMeter_swc : (s.setMeter k x).swc = s.swc := rfl
@[simp] theorem State.setMeter_pool : (s.setMeter k x).pool = s.pool := rfl
@[simp] theorem State.setMeter_dma : (s.setMeter k x).dma = s.dma := rfl
@[simp] theorem State.setMeter_dmaReject : (s.setMeter k x).dmaReject = s.dmaReject := rfl
@[simp] theorem State.setMeter_audit : (s.setMeter k x).audit = s.audit := rfl
@[simp] theorem State.setMeter_icu : (s.setMeter k x).icu = s.icu := rfl
@[simp] theorem State.setMeter_snuf : (s.setMeter k x).snuf = s.snuf := rfl
@[simp] theorem State.setMeter_pwr : (s.setMeter k x).pwr = s.pwr := rfl
@[simp] theorem State.setMeter_nvs : (s.setMeter k x).nvs = s.nvs := rfl
@[simp] theorem State.setMeter_updates : (s.setMeter k x).updates = s.updates := rfl
@[simp] theorem State.setMeter_mgmt : (s.setMeter k x).mgmt = s.mgmt := rfl
@[simp] theorem State.setMeter_mail : (s.setMeter k x).mail = s.mail := rfl
@[simp] theorem State.setMeter_host : (s.setMeter k x).host = s.host := rfl
@[simp] theorem State.setMeter_dev : (s.setMeter k x).dev = s.dev := rfl
@[simp] theorem State.setMeter_poison : (s.setMeter k x).poison = s.poison := rfl
@[simp] theorem State.setMeter_correctable : (s.setMeter k x).correctable = s.correctable := rfl
@[simp] theorem State.setMeter_regs : (s.setMeter k x).regs = s.regs := rfl
@[simp] theorem State.setMeter_rd : (s.setMeter k x).rd = s.rd := rfl
@[simp] theorem State.setMeter_out : (s.setMeter k x).out = s.out := rfl
@[simp] theorem State.setMeter_free : (s.setMeter k x).free = s.free := rfl
@[simp] theorem State.setMeter_trf_meters :
    (s.setMeter k x).trf.meters = Table.set Meter.reset s.trf.meters k x := rfl
end setMeter

section count
variable (s : State) (p c n : Nat)
@[simp] theorem State.count_pending : (s.count p c n).pending = s.pending := rfl
@[simp] theorem State.count_time : (s.count p c n).time = s.time := rfl
@[simp] theorem State.count_stage : (s.count p c n).stage = s.stage := rfl
@[simp] theorem State.count_qm : (s.count p c n).qm = s.qm := rfl
@[simp] theorem State.count_codec : (s.count p c n).codec = s.codec := rfl
@[simp] theorem State.count_cmp : (s.count p c n).cmp = s.cmp := rfl
@[simp] theorem State.count_lmp : (s.count p c n).lmp = s.lmp := rfl
@[simp] theorem State.count_wick : (s.count p c n).wick = s.wick := rfl
@[simp] theorem State.count_trf : (s.count p c n).trf = s.trf := rfl
@[simp] theorem State.count_pool : (s.count p c n).pool = s.pool := rfl
@[simp] theorem State.count_dma : (s.count p c n).dma = s.dma := rfl
@[simp] theorem State.count_dmaReject : (s.count p c n).dmaReject = s.dmaReject := rfl
@[simp] theorem State.count_audit : (s.count p c n).audit = s.audit := rfl
@[simp] theorem State.count_icu : (s.count p c n).icu = s.icu := rfl
@[simp] theorem State.count_snuf : (s.count p c n).snuf = s.snuf := rfl
@[simp] theorem State.count_pwr : (s.count p c n).pwr = s.pwr := rfl
@[simp] theorem State.count_nvs : (s.count p c n).nvs = s.nvs := rfl
@[simp] theorem State.count_updates : (s.count p c n).updates = s.updates := rfl
@[simp] theorem State.count_mgmt : (s.count p c n).mgmt = s.mgmt := rfl
@[simp] theorem State.count_mail : (s.count p c n).mail = s.mail := rfl
@[simp] theorem State.count_host : (s.count p c n).host = s.host := rfl
@[simp] theorem State.count_dev : (s.count p c n).dev = s.dev := rfl
@[simp] theorem State.count_poison : (s.count p c n).poison = s.poison := rfl
@[simp] theorem State.count_correctable : (s.count p c n).correctable = s.correctable := rfl
@[simp] theorem State.count_regs : (s.count p c n).regs = s.regs := rfl
@[simp] theorem State.count_rd : (s.count p c n).rd = s.rd := rfl
@[simp] theorem State.count_out : (s.count p c n).out = s.out := rfl
@[simp] theorem State.count_free : (s.count p c n).free = s.free := rfl
@[simp] theorem State.count_swc_counters :
    (s.count p c n).swc.counters = Table.upd 0 s.swc.counters (32 * p + c) (· + BitVec.ofNat 64 n) := rfl
end count

section setMac
variable (s : State) (i : Nat) (e : Option MacEntry)
@[simp] theorem State.setMac_pending : (s.setMac i e).pending = s.pending := rfl
@[simp] theorem State.setMac_time : (s.setMac i e).time = s.time := rfl
@[simp] theorem State.setMac_stage : (s.setMac i e).stage = s.stage := rfl
@[simp] theorem State.setMac_qm : (s.setMac i e).qm = s.qm := rfl
@[simp] theorem State.setMac_codec : (s.setMac i e).codec = s.codec := rfl
@[simp] theorem State.setMac_cmp : (s.setMac i e).cmp = s.cmp := rfl
@[simp] theorem State.setMac_lmp : (s.setMac i e).lmp = s.lmp := rfl
@[simp] theorem State.setMac_wick : (s.setMac i e).wick = s.wick := rfl
@[simp] theorem State.setMac_trf : (s.setMac i e).trf = s.trf := rfl
@[simp] theorem State.setMac_pool : (s.setMac i e).pool = s.pool := rfl
@[simp] theorem State.setMac_dma : (s.setMac i e).dma = s.dma := rfl
@[simp] theorem State.setMac_dmaReject : (s.setMac i e).dmaReject = s.dmaReject := rfl
@[simp] theorem State.setMac_audit : (s.setMac i e).audit = s.audit := rfl
@[simp] theorem State.setMac_icu : (s.setMac i e).icu = s.icu := rfl
@[simp] theorem State.setMac_snuf : (s.setMac i e).snuf = s.snuf := rfl
@[simp] theorem State.setMac_pwr : (s.setMac i e).pwr = s.pwr := rfl
@[simp] theorem State.setMac_nvs : (s.setMac i e).nvs = s.nvs := rfl
@[simp] theorem State.setMac_updates : (s.setMac i e).updates = s.updates := rfl
@[simp] theorem State.setMac_mgmt : (s.setMac i e).mgmt = s.mgmt := rfl
@[simp] theorem State.setMac_mail : (s.setMac i e).mail = s.mail := rfl
@[simp] theorem State.setMac_host : (s.setMac i e).host = s.host := rfl
@[simp] theorem State.setMac_dev : (s.setMac i e).dev = s.dev := rfl
@[simp] theorem State.setMac_poison : (s.setMac i e).poison = s.poison := rfl
@[simp] theorem State.setMac_correctable : (s.setMac i e).correctable = s.correctable := rfl
@[simp] theorem State.setMac_regs : (s.setMac i e).regs = s.regs := rfl
@[simp] theorem State.setMac_rd : (s.setMac i e).rd = s.rd := rfl
@[simp] theorem State.setMac_out : (s.setMac i e).out = s.out := rfl
@[simp] theorem State.setMac_free : (s.setMac i e).free = s.free := rfl
@[simp] theorem State.setMac_swc_mac :
    (s.setMac i e).swc.mac = Table.set .none s.swc.mac i e := rfl
end setMac

section setSendQ
variable (s : State) (i : Nat) (q : Option SendQueue)
@[simp] theorem State.setSendQ_pending : (s.setSendQ i q).pending = s.pending := rfl
@[simp] theorem State.setSendQ_time : (s.setSendQ i q).time = s.time := rfl
@[simp] theorem State.setSendQ_stage : (s.setSendQ i q).stage = s.stage := rfl
@[simp] theorem State.setSendQ_qm : (s.setSendQ i q).qm = s.qm := rfl
@[simp] theorem State.setSendQ_codec : (s.setSendQ i q).codec = s.codec := rfl
@[simp] theorem State.setSendQ_cmp : (s.setSendQ i q).cmp = s.cmp := rfl
@[simp] theorem State.setSendQ_lmp : (s.setSendQ i q).lmp = s.lmp := rfl
@[simp] theorem State.setSendQ_wick : (s.setSendQ i q).wick = s.wick := rfl
@[simp] theorem State.setSendQ_trf : (s.setSendQ i q).trf = s.trf := rfl
@[simp] theorem State.setSendQ_pool : (s.setSendQ i q).pool = s.pool := rfl
@[simp] theorem State.setSendQ_dma : (s.setSendQ i q).dma = s.dma := rfl
@[simp] theorem State.setSendQ_dmaReject : (s.setSendQ i q).dmaReject = s.dmaReject := rfl
@[simp] theorem State.setSendQ_audit : (s.setSendQ i q).audit = s.audit := rfl
@[simp] theorem State.setSendQ_icu : (s.setSendQ i q).icu = s.icu := rfl
@[simp] theorem State.setSendQ_snuf : (s.setSendQ i q).snuf = s.snuf := rfl
@[simp] theorem State.setSendQ_pwr : (s.setSendQ i q).pwr = s.pwr := rfl
@[simp] theorem State.setSendQ_nvs : (s.setSendQ i q).nvs = s.nvs := rfl
@[simp] theorem State.setSendQ_updates : (s.setSendQ i q).updates = s.updates := rfl
@[simp] theorem State.setSendQ_mgmt : (s.setSendQ i q).mgmt = s.mgmt := rfl
@[simp] theorem State.setSendQ_mail : (s.setSendQ i q).mail = s.mail := rfl
@[simp] theorem State.setSendQ_host : (s.setSendQ i q).host = s.host := rfl
@[simp] theorem State.setSendQ_dev : (s.setSendQ i q).dev = s.dev := rfl
@[simp] theorem State.setSendQ_poison : (s.setSendQ i q).poison = s.poison := rfl
@[simp] theorem State.setSendQ_correctable : (s.setSendQ i q).correctable = s.correctable := rfl
@[simp] theorem State.setSendQ_regs : (s.setSendQ i q).regs = s.regs := rfl
@[simp] theorem State.setSendQ_rd : (s.setSendQ i q).rd = s.rd := rfl
@[simp] theorem State.setSendQ_out : (s.setSendQ i q).out = s.out := rfl
@[simp] theorem State.setSendQ_free : (s.setSendQ i q).free = s.free := rfl
@[simp] theorem State.setSendQ_swc_sendQueues :
    (s.setSendQ i q).swc.sendQueues = Table.set .none s.swc.sendQueues i q := rfl
end setSendQ

section setCore
variable (s : State) (c : Nat) (x : CodecCore)
@[simp] theorem State.setCore_pending : (s.setCore c x).pending = s.pending := rfl
@[simp] theorem State.setCore_time : (s.setCore c x).time = s.time := rfl
@[simp] theorem State.setCore_stage : (s.setCore c x).stage = s.stage := rfl
@[simp] theorem State.setCore_qm : (s.setCore c x).qm = s.qm := rfl
@[simp] theorem State.setCore_cmp : (s.setCore c x).cmp = s.cmp := rfl
@[simp] theorem State.setCore_lmp : (s.setCore c x).lmp = s.lmp := rfl
@[simp] theorem State.setCore_wick : (s.setCore c x).wick = s.wick := rfl
@[simp] theorem State.setCore_swc : (s.setCore c x).swc = s.swc := rfl
@[simp] theorem State.setCore_trf : (s.setCore c x).trf = s.trf := rfl
@[simp] theorem State.setCore_pool : (s.setCore c x).pool = s.pool := rfl
@[simp] theorem State.setCore_dma : (s.setCore c x).dma = s.dma := rfl
@[simp] theorem State.setCore_dmaReject : (s.setCore c x).dmaReject = s.dmaReject := rfl
@[simp] theorem State.setCore_audit : (s.setCore c x).audit = s.audit := rfl
@[simp] theorem State.setCore_icu : (s.setCore c x).icu = s.icu := rfl
@[simp] theorem State.setCore_snuf : (s.setCore c x).snuf = s.snuf := rfl
@[simp] theorem State.setCore_pwr : (s.setCore c x).pwr = s.pwr := rfl
@[simp] theorem State.setCore_nvs : (s.setCore c x).nvs = s.nvs := rfl
@[simp] theorem State.setCore_updates : (s.setCore c x).updates = s.updates := rfl
@[simp] theorem State.setCore_mgmt : (s.setCore c x).mgmt = s.mgmt := rfl
@[simp] theorem State.setCore_mail : (s.setCore c x).mail = s.mail := rfl
@[simp] theorem State.setCore_host : (s.setCore c x).host = s.host := rfl
@[simp] theorem State.setCore_dev : (s.setCore c x).dev = s.dev := rfl
@[simp] theorem State.setCore_poison : (s.setCore c x).poison = s.poison := rfl
@[simp] theorem State.setCore_correctable : (s.setCore c x).correctable = s.correctable := rfl
@[simp] theorem State.setCore_regs : (s.setCore c x).regs = s.regs := rfl
@[simp] theorem State.setCore_rd : (s.setCore c x).rd = s.rd := rfl
@[simp] theorem State.setCore_out : (s.setCore c x).out = s.out := rfl
@[simp] theorem State.setCore_free : (s.setCore c x).free = s.free := rfl
@[simp] theorem State.setCore_codec_cores :
    (s.setCore c x).codec.cores = s.codec.cores.setIfInBounds c x := rfl
end setCore

section setDec
variable (s : State) (i : Nat) (d : Option DecStream)
@[simp] theorem State.setDec_pending : (s.setDec i d).pending = s.pending := rfl
@[simp] theorem State.setDec_time : (s.setDec i d).time = s.time := rfl
@[simp] theorem State.setDec_stage : (s.setDec i d).stage = s.stage := rfl
@[simp] theorem State.setDec_qm : (s.setDec i d).qm = s.qm := rfl
@[simp] theorem State.setDec_cmp : (s.setDec i d).cmp = s.cmp := rfl
@[simp] theorem State.setDec_lmp : (s.setDec i d).lmp = s.lmp := rfl
@[simp] theorem State.setDec_wick : (s.setDec i d).wick = s.wick := rfl
@[simp] theorem State.setDec_swc : (s.setDec i d).swc = s.swc := rfl
@[simp] theorem State.setDec_trf : (s.setDec i d).trf = s.trf := rfl
@[simp] theorem State.setDec_pool : (s.setDec i d).pool = s.pool := rfl
@[simp] theorem State.setDec_dma : (s.setDec i d).dma = s.dma := rfl
@[simp] theorem State.setDec_dmaReject : (s.setDec i d).dmaReject = s.dmaReject := rfl
@[simp] theorem State.setDec_audit : (s.setDec i d).audit = s.audit := rfl
@[simp] theorem State.setDec_icu : (s.setDec i d).icu = s.icu := rfl
@[simp] theorem State.setDec_snuf : (s.setDec i d).snuf = s.snuf := rfl
@[simp] theorem State.setDec_pwr : (s.setDec i d).pwr = s.pwr := rfl
@[simp] theorem State.setDec_nvs : (s.setDec i d).nvs = s.nvs := rfl
@[simp] theorem State.setDec_updates : (s.setDec i d).updates = s.updates := rfl
@[simp] theorem State.setDec_mgmt : (s.setDec i d).mgmt = s.mgmt := rfl
@[simp] theorem State.setDec_mail : (s.setDec i d).mail = s.mail := rfl
@[simp] theorem State.setDec_host : (s.setDec i d).host = s.host := rfl
@[simp] theorem State.setDec_dev : (s.setDec i d).dev = s.dev := rfl
@[simp] theorem State.setDec_poison : (s.setDec i d).poison = s.poison := rfl
@[simp] theorem State.setDec_correctable : (s.setDec i d).correctable = s.correctable := rfl
@[simp] theorem State.setDec_regs : (s.setDec i d).regs = s.regs := rfl
@[simp] theorem State.setDec_rd : (s.setDec i d).rd = s.rd := rfl
@[simp] theorem State.setDec_out : (s.setDec i d).out = s.out := rfl
@[simp] theorem State.setDec_free : (s.setDec i d).free = s.free := rfl
@[simp] theorem State.setDec_codec_dec :
    (s.setDec i d).codec.dec = Table.set .none s.codec.dec i d := rfl
end setDec

section setEnc
variable (s : State) (i : Nat) (e : Option EncStream)
@[simp] theorem State.setEnc_pending : (s.setEnc i e).pending = s.pending := rfl
@[simp] theorem State.setEnc_time : (s.setEnc i e).time = s.time := rfl
@[simp] theorem State.setEnc_stage : (s.setEnc i e).stage = s.stage := rfl
@[simp] theorem State.setEnc_qm : (s.setEnc i e).qm = s.qm := rfl
@[simp] theorem State.setEnc_cmp : (s.setEnc i e).cmp = s.cmp := rfl
@[simp] theorem State.setEnc_lmp : (s.setEnc i e).lmp = s.lmp := rfl
@[simp] theorem State.setEnc_wick : (s.setEnc i e).wick = s.wick := rfl
@[simp] theorem State.setEnc_swc : (s.setEnc i e).swc = s.swc := rfl
@[simp] theorem State.setEnc_trf : (s.setEnc i e).trf = s.trf := rfl
@[simp] theorem State.setEnc_pool : (s.setEnc i e).pool = s.pool := rfl
@[simp] theorem State.setEnc_dma : (s.setEnc i e).dma = s.dma := rfl
@[simp] theorem State.setEnc_dmaReject : (s.setEnc i e).dmaReject = s.dmaReject := rfl
@[simp] theorem State.setEnc_audit : (s.setEnc i e).audit = s.audit := rfl
@[simp] theorem State.setEnc_icu : (s.setEnc i e).icu = s.icu := rfl
@[simp] theorem State.setEnc_snuf : (s.setEnc i e).snuf = s.snuf := rfl
@[simp] theorem State.setEnc_pwr : (s.setEnc i e).pwr = s.pwr := rfl
@[simp] theorem State.setEnc_nvs : (s.setEnc i e).nvs = s.nvs := rfl
@[simp] theorem State.setEnc_updates : (s.setEnc i e).updates = s.updates := rfl
@[simp] theorem State.setEnc_mgmt : (s.setEnc i e).mgmt = s.mgmt := rfl
@[simp] theorem State.setEnc_mail : (s.setEnc i e).mail = s.mail := rfl
@[simp] theorem State.setEnc_host : (s.setEnc i e).host = s.host := rfl
@[simp] theorem State.setEnc_dev : (s.setEnc i e).dev = s.dev := rfl
@[simp] theorem State.setEnc_poison : (s.setEnc i e).poison = s.poison := rfl
@[simp] theorem State.setEnc_correctable : (s.setEnc i e).correctable = s.correctable := rfl
@[simp] theorem State.setEnc_regs : (s.setEnc i e).regs = s.regs := rfl
@[simp] theorem State.setEnc_rd : (s.setEnc i e).rd = s.rd := rfl
@[simp] theorem State.setEnc_out : (s.setEnc i e).out = s.out := rfl
@[simp] theorem State.setEnc_free : (s.setEnc i e).free = s.free := rfl
@[simp] theorem State.setEnc_codec_enc :
    (s.setEnc i e).codec.enc = Table.set .none s.codec.enc i e := rfl
end setEnc

section setOut
variable (s : State) (o : Nat) (x : Option Output)
@[simp] theorem State.setOut_pending : (s.setOut o x).pending = s.pending := rfl
@[simp] theorem State.setOut_time : (s.setOut o x).time = s.time := rfl
@[simp] theorem State.setOut_stage : (s.setOut o x).stage = s.stage := rfl
@[simp] theorem State.setOut_qm : (s.setOut o x).qm = s.qm := rfl
@[simp] theorem State.setOut_codec : (s.setOut o x).codec = s.codec := rfl
@[simp] theorem State.setOut_lmp : (s.setOut o x).lmp = s.lmp := rfl
@[simp] theorem State.setOut_wick : (s.setOut o x).wick = s.wick := rfl
@[simp] theorem State.setOut_swc : (s.setOut o x).swc = s.swc := rfl
@[simp] theorem State.setOut_trf : (s.setOut o x).trf = s.trf := rfl
@[simp] theorem State.setOut_pool : (s.setOut o x).pool = s.pool := rfl
@[simp] theorem State.setOut_dma : (s.setOut o x).dma = s.dma := rfl
@[simp] theorem State.setOut_dmaReject : (s.setOut o x).dmaReject = s.dmaReject := rfl
@[simp] theorem State.setOut_audit : (s.setOut o x).audit = s.audit := rfl
@[simp] theorem State.setOut_icu : (s.setOut o x).icu = s.icu := rfl
@[simp] theorem State.setOut_snuf : (s.setOut o x).snuf = s.snuf := rfl
@[simp] theorem State.setOut_pwr : (s.setOut o x).pwr = s.pwr := rfl
@[simp] theorem State.setOut_nvs : (s.setOut o x).nvs = s.nvs := rfl
@[simp] theorem State.setOut_updates : (s.setOut o x).updates = s.updates := rfl
@[simp] theorem State.setOut_mgmt : (s.setOut o x).mgmt = s.mgmt := rfl
@[simp] theorem State.setOut_mail : (s.setOut o x).mail = s.mail := rfl
@[simp] theorem State.setOut_host : (s.setOut o x).host = s.host := rfl
@[simp] theorem State.setOut_dev : (s.setOut o x).dev = s.dev := rfl
@[simp] theorem State.setOut_poison : (s.setOut o x).poison = s.poison := rfl
@[simp] theorem State.setOut_correctable : (s.setOut o x).correctable = s.correctable := rfl
@[simp] theorem State.setOut_regs : (s.setOut o x).regs = s.regs := rfl
@[simp] theorem State.setOut_rd : (s.setOut o x).rd = s.rd := rfl
@[simp] theorem State.setOut_out : (s.setOut o x).out = s.out := rfl
@[simp] theorem State.setOut_free : (s.setOut o x).free = s.free := rfl
@[simp] theorem State.setOut_cmp_outputs :
    (s.setOut o x).cmp.outputs = Table.set .none s.cmp.outputs o x := rfl
end setOut

section setDma
variable (s : State) (c : Nat) (x : DmaCh)
@[simp] theorem State.setDma_pending : (s.setDma c x).pending = s.pending := rfl
@[simp] theorem State.setDma_time : (s.setDma c x).time = s.time := rfl
@[simp] theorem State.setDma_stage : (s.setDma c x).stage = s.stage := rfl
@[simp] theorem State.setDma_qm : (s.setDma c x).qm = s.qm := rfl
@[simp] theorem State.setDma_codec : (s.setDma c x).codec = s.codec := rfl
@[simp] theorem State.setDma_cmp : (s.setDma c x).cmp = s.cmp := rfl
@[simp] theorem State.setDma_lmp : (s.setDma c x).lmp = s.lmp := rfl
@[simp] theorem State.setDma_wick : (s.setDma c x).wick = s.wick := rfl
@[simp] theorem State.setDma_swc : (s.setDma c x).swc = s.swc := rfl
@[simp] theorem State.setDma_trf : (s.setDma c x).trf = s.trf := rfl
@[simp] theorem State.setDma_pool : (s.setDma c x).pool = s.pool := rfl
@[simp] theorem State.setDma_dmaReject : (s.setDma c x).dmaReject = s.dmaReject := rfl
@[simp] theorem State.setDma_audit : (s.setDma c x).audit = s.audit := rfl
@[simp] theorem State.setDma_icu : (s.setDma c x).icu = s.icu := rfl
@[simp] theorem State.setDma_snuf : (s.setDma c x).snuf = s.snuf := rfl
@[simp] theorem State.setDma_pwr : (s.setDma c x).pwr = s.pwr := rfl
@[simp] theorem State.setDma_nvs : (s.setDma c x).nvs = s.nvs := rfl
@[simp] theorem State.setDma_updates : (s.setDma c x).updates = s.updates := rfl
@[simp] theorem State.setDma_mgmt : (s.setDma c x).mgmt = s.mgmt := rfl
@[simp] theorem State.setDma_mail : (s.setDma c x).mail = s.mail := rfl
@[simp] theorem State.setDma_host : (s.setDma c x).host = s.host := rfl
@[simp] theorem State.setDma_dev : (s.setDma c x).dev = s.dev := rfl
@[simp] theorem State.setDma_poison : (s.setDma c x).poison = s.poison := rfl
@[simp] theorem State.setDma_correctable : (s.setDma c x).correctable = s.correctable := rfl
@[simp] theorem State.setDma_regs : (s.setDma c x).regs = s.regs := rfl
@[simp] theorem State.setDma_rd : (s.setDma c x).rd = s.rd := rfl
@[simp] theorem State.setDma_out : (s.setDma c x).out = s.out := rfl
@[simp] theorem State.setDma_free : (s.setDma c x).free = s.free := rfl
@[simp] theorem State.setDma_dma :
    (s.setDma c x).dma = Table.set DmaCh.idle s.dma c x := rfl
end setDma

section setWc
variable (s : State) (c : Fin 13) (k : WickCore)
@[simp] theorem State.setWc_pending : (s.setWc c k).pending = s.pending := rfl
@[simp] theorem State.setWc_time : (s.setWc c k).time = s.time := rfl
@[simp] theorem State.setWc_stage : (s.setWc c k).stage = s.stage := rfl
@[simp] theorem State.setWc_qm : (s.setWc c k).qm = s.qm := rfl
@[simp] theorem State.setWc_codec : (s.setWc c k).codec = s.codec := rfl
@[simp] theorem State.setWc_cmp : (s.setWc c k).cmp = s.cmp := rfl
@[simp] theorem State.setWc_lmp : (s.setWc c k).lmp = s.lmp := rfl
@[simp] theorem State.setWc_swc : (s.setWc c k).swc = s.swc := rfl
@[simp] theorem State.setWc_trf : (s.setWc c k).trf = s.trf := rfl
@[simp] theorem State.setWc_pool : (s.setWc c k).pool = s.pool := rfl
@[simp] theorem State.setWc_dma : (s.setWc c k).dma = s.dma := rfl
@[simp] theorem State.setWc_dmaReject : (s.setWc c k).dmaReject = s.dmaReject := rfl
@[simp] theorem State.setWc_audit : (s.setWc c k).audit = s.audit := rfl
@[simp] theorem State.setWc_icu : (s.setWc c k).icu = s.icu := rfl
@[simp] theorem State.setWc_snuf : (s.setWc c k).snuf = s.snuf := rfl
@[simp] theorem State.setWc_pwr : (s.setWc c k).pwr = s.pwr := rfl
@[simp] theorem State.setWc_nvs : (s.setWc c k).nvs = s.nvs := rfl
@[simp] theorem State.setWc_updates : (s.setWc c k).updates = s.updates := rfl
@[simp] theorem State.setWc_mgmt : (s.setWc c k).mgmt = s.mgmt := rfl
@[simp] theorem State.setWc_mail : (s.setWc c k).mail = s.mail := rfl
@[simp] theorem State.setWc_host : (s.setWc c k).host = s.host := rfl
@[simp] theorem State.setWc_dev : (s.setWc c k).dev = s.dev := rfl
@[simp] theorem State.setWc_poison : (s.setWc c k).poison = s.poison := rfl
@[simp] theorem State.setWc_correctable : (s.setWc c k).correctable = s.correctable := rfl
@[simp] theorem State.setWc_regs : (s.setWc c k).regs = s.regs := rfl
@[simp] theorem State.setWc_rd : (s.setWc c k).rd = s.rd := rfl
@[simp] theorem State.setWc_out : (s.setWc c k).out = s.out := rfl
@[simp] theorem State.setWc_free : (s.setWc c k).free = s.free := rfl
@[simp] theorem State.setWc_wick_cores :
    (s.setWc c k).wick.cores = s.wick.cores.set c k := rfl
end setWc

section setWin
variable (s : State) (src : Nat) (w : SrcWin)
@[simp] theorem State.setWin_pending : (s.setWin src w).pending = s.pending := rfl
@[simp] theorem State.setWin_time : (s.setWin src w).time = s.time := rfl
@[simp] theorem State.setWin_stage : (s.setWin src w).stage = s.stage := rfl
@[simp] theorem State.setWin_qm : (s.setWin src w).qm = s.qm := rfl
@[simp] theorem State.setWin_codec : (s.setWin src w).codec = s.codec := rfl
@[simp] theorem State.setWin_cmp : (s.setWin src w).cmp = s.cmp := rfl
@[simp] theorem State.setWin_lmp : (s.setWin src w).lmp = s.lmp := rfl
@[simp] theorem State.setWin_wick : (s.setWin src w).wick = s.wick := rfl
@[simp] theorem State.setWin_swc : (s.setWin src w).swc = s.swc := rfl
@[simp] theorem State.setWin_trf : (s.setWin src w).trf = s.trf := rfl
@[simp] theorem State.setWin_pool : (s.setWin src w).pool = s.pool := rfl
@[simp] theorem State.setWin_dma : (s.setWin src w).dma = s.dma := rfl
@[simp] theorem State.setWin_dmaReject : (s.setWin src w).dmaReject = s.dmaReject := rfl
@[simp] theorem State.setWin_audit : (s.setWin src w).audit = s.audit := rfl
@[simp] theorem State.setWin_icu : (s.setWin src w).icu = s.icu := rfl
@[simp] theorem State.setWin_pwr : (s.setWin src w).pwr = s.pwr := rfl
@[simp] theorem State.setWin_nvs : (s.setWin src w).nvs = s.nvs := rfl
@[simp] theorem State.setWin_updates : (s.setWin src w).updates = s.updates := rfl
@[simp] theorem State.setWin_mgmt : (s.setWin src w).mgmt = s.mgmt := rfl
@[simp] theorem State.setWin_mail : (s.setWin src w).mail = s.mail := rfl
@[simp] theorem State.setWin_host : (s.setWin src w).host = s.host := rfl
@[simp] theorem State.setWin_dev : (s.setWin src w).dev = s.dev := rfl
@[simp] theorem State.setWin_poison : (s.setWin src w).poison = s.poison := rfl
@[simp] theorem State.setWin_correctable : (s.setWin src w).correctable = s.correctable := rfl
@[simp] theorem State.setWin_regs : (s.setWin src w).regs = s.regs := rfl
@[simp] theorem State.setWin_rd : (s.setWin src w).rd = s.rd := rfl
@[simp] theorem State.setWin_out : (s.setWin src w).out = s.out := rfl
@[simp] theorem State.setWin_free : (s.setWin src w).free = s.free := rfl
@[simp] theorem State.setWin_snuf_wins :
    (s.setWin src w).snuf.wins = Table.set SrcWin.none s.snuf.wins src w := rfl
end setWin

section setImage
variable (s : State) (i : Fin 3) (x : ImageState)
@[simp] theorem State.setImage_pending : (s.setImage i x).pending = s.pending := rfl
@[simp] theorem State.setImage_time : (s.setImage i x).time = s.time := rfl
@[simp] theorem State.setImage_stage : (s.setImage i x).stage = s.stage := rfl
@[simp] theorem State.setImage_qm : (s.setImage i x).qm = s.qm := rfl
@[simp] theorem State.setImage_codec : (s.setImage i x).codec = s.codec := rfl
@[simp] theorem State.setImage_cmp : (s.setImage i x).cmp = s.cmp := rfl
@[simp] theorem State.setImage_lmp : (s.setImage i x).lmp = s.lmp := rfl
@[simp] theorem State.setImage_wick : (s.setImage i x).wick = s.wick := rfl
@[simp] theorem State.setImage_swc : (s.setImage i x).swc = s.swc := rfl
@[simp] theorem State.setImage_trf : (s.setImage i x).trf = s.trf := rfl
@[simp] theorem State.setImage_pool : (s.setImage i x).pool = s.pool := rfl
@[simp] theorem State.setImage_dma : (s.setImage i x).dma = s.dma := rfl
@[simp] theorem State.setImage_dmaReject : (s.setImage i x).dmaReject = s.dmaReject := rfl
@[simp] theorem State.setImage_audit : (s.setImage i x).audit = s.audit := rfl
@[simp] theorem State.setImage_icu : (s.setImage i x).icu = s.icu := rfl
@[simp] theorem State.setImage_snuf : (s.setImage i x).snuf = s.snuf := rfl
@[simp] theorem State.setImage_pwr : (s.setImage i x).pwr = s.pwr := rfl
@[simp] theorem State.setImage_updates : (s.setImage i x).updates = s.updates := rfl
@[simp] theorem State.setImage_mgmt : (s.setImage i x).mgmt = s.mgmt := rfl
@[simp] theorem State.setImage_mail : (s.setImage i x).mail = s.mail := rfl
@[simp] theorem State.setImage_host : (s.setImage i x).host = s.host := rfl
@[simp] theorem State.setImage_dev : (s.setImage i x).dev = s.dev := rfl
@[simp] theorem State.setImage_poison : (s.setImage i x).poison = s.poison := rfl
@[simp] theorem State.setImage_correctable : (s.setImage i x).correctable = s.correctable := rfl
@[simp] theorem State.setImage_regs : (s.setImage i x).regs = s.regs := rfl
@[simp] theorem State.setImage_rd : (s.setImage i x).rd = s.rd := rfl
@[simp] theorem State.setImage_out : (s.setImage i x).out = s.out := rfl
@[simp] theorem State.setImage_free : (s.setImage i x).free = s.free := rfl
@[simp] theorem State.setImage_nvs_images :
    (s.setImage i x).nvs.images = s.nvs.images.set i x := rfl
end setImage

@[simp] theorem State.drawFree_pending (s : State) : s.drawFree.2.pending = s.pending := rfl
@[simp] theorem State.drawFree_time (s : State) : s.drawFree.2.time = s.time := rfl
@[simp] theorem State.drawFree_stage (s : State) : s.drawFree.2.stage = s.stage := rfl
@[simp] theorem State.drawFree_qm (s : State) : s.drawFree.2.qm = s.qm := rfl
@[simp] theorem State.drawFree_codec (s : State) : s.drawFree.2.codec = s.codec := rfl
@[simp] theorem State.drawFree_cmp (s : State) : s.drawFree.2.cmp = s.cmp := rfl
@[simp] theorem State.drawFree_lmp (s : State) : s.drawFree.2.lmp = s.lmp := rfl
@[simp] theorem State.drawFree_wick (s : State) : s.drawFree.2.wick = s.wick := rfl
@[simp] theorem State.drawFree_swc (s : State) : s.drawFree.2.swc = s.swc := rfl
@[simp] theorem State.drawFree_trf (s : State) : s.drawFree.2.trf = s.trf := rfl
@[simp] theorem State.drawFree_pool (s : State) : s.drawFree.2.pool = s.pool := rfl
@[simp] theorem State.drawFree_dma (s : State) : s.drawFree.2.dma = s.dma := rfl
@[simp] theorem State.drawFree_dmaReject (s : State) : s.drawFree.2.dmaReject = s.dmaReject := rfl
@[simp] theorem State.drawFree_audit (s : State) : s.drawFree.2.audit = s.audit := rfl
@[simp] theorem State.drawFree_icu (s : State) : s.drawFree.2.icu = s.icu := rfl
@[simp] theorem State.drawFree_snuf (s : State) : s.drawFree.2.snuf = s.snuf := rfl
@[simp] theorem State.drawFree_pwr (s : State) : s.drawFree.2.pwr = s.pwr := rfl
@[simp] theorem State.drawFree_nvs (s : State) : s.drawFree.2.nvs = s.nvs := rfl
@[simp] theorem State.drawFree_updates (s : State) : s.drawFree.2.updates = s.updates := rfl
@[simp] theorem State.drawFree_mgmt (s : State) : s.drawFree.2.mgmt = s.mgmt := rfl
@[simp] theorem State.drawFree_mail (s : State) : s.drawFree.2.mail = s.mail := rfl
@[simp] theorem State.drawFree_host (s : State) : s.drawFree.2.host = s.host := rfl
@[simp] theorem State.drawFree_dev (s : State) : s.drawFree.2.dev = s.dev := rfl
@[simp] theorem State.drawFree_poison (s : State) : s.drawFree.2.poison = s.poison := rfl
@[simp] theorem State.drawFree_correctable (s : State) : s.drawFree.2.correctable = s.correctable := rfl
@[simp] theorem State.drawFree_regs (s : State) : s.drawFree.2.regs = s.regs := rfl
@[simp] theorem State.drawFree_rd (s : State) : s.drawFree.2.rd = s.rd := rfl
@[simp] theorem State.drawFree_out (s : State) : s.drawFree.2.out = s.out := rfl
@[simp] theorem State.drawFree_free (s : State) : s.drawFree.2.free = s.free + 1 := rfl

end Sys2Proof.Machine
end

