-- ==== Sys2Proof/Laws/Frames.lean ====
section
/-!
SUPPORT. What the shared operations leave unchanged: `OnlyIn l s t` composes, and each small operation has its lemma.
-/
namespace Sys2Proof.Machine

theorem OnlyIn.refl (l : List Part) (s : State) : OnlyIn l s s :=
  ⟨rfl, fun p _ => by cases p <;> first | rfl | exact ⟨rfl, rfl⟩⟩

theorem Part.same_trans {p : Part} {s t u : State} (h : p.same s t) (k : p.same t u) : p.same s u := by
  cases p <;> first | exact k.trans h | exact ⟨k.1.trans h.1, k.2.trans h.2⟩

theorem OnlyIn.trans {l : List Part} {s t u : State} (h : OnlyIn l s t) (k : OnlyIn l t u) : OnlyIn l s u :=
  ⟨k.1.trans h.1, fun p hp => Part.same_trans (h.2 p hp) (k.2 p hp)⟩

theorem OnlyIn.mono {l m : List Part} {s t : State} (h : OnlyIn l s t) (hl : ∀ p ∈ l, p ∈ m) : OnlyIn m s t :=
  ⟨h.1, fun p hp => h.2 p (fun x => hp (hl p x))⟩

theorem OnlyIn.ite {l : List Part} {s t u : State} {c : Prop} [Decidable c] (h : OnlyIn l s t) (k : OnlyIn l s u) :
    OnlyIn l s (if c then t else u) := by split <;> assumption

theorem forEach_onlyIn {α : Type} {l : List Part} {xs : List α} {s : State} {f : α → State → State}
    (hf : ∀ x t, OnlyIn l t (f x t)) : OnlyIn l s (forEach xs s f) := by
  unfold forEach
  induction xs generalizing s with
  | nil => exact OnlyIn.refl l s
  | cons a xs ih => exact (hf a s).trans ih

theorem emit_onlyIn (s : State) (m : OutMsg) : OnlyIn [.out] s (s.emit m) :=
  ⟨rfl, fun p hp => by cases p <;> first | exact rfl | exact ⟨rfl, rfl⟩ | exact (hp (by simp)).elim⟩

theorem setRd_onlyIn (s : State) (n : Nat) : OnlyIn [.rd] s (s.setRd n) :=
  ⟨rfl, fun p hp => by cases p <;> first | exact rfl | exact ⟨rfl, rfl⟩ | exact (hp (by simp)).elim⟩

theorem setReg_onlyIn (s : State) (off : Nat) (v : Word) : OnlyIn [.regs] s (s.setReg off v) :=
  ⟨rfl, fun p hp => by cases p <;> first | exact rfl | exact ⟨rfl, rfl⟩ | exact (hp (by simp)).elim⟩

theorem advance_onlyIn (s : State) (n : Nat) : OnlyIn [.time] s (s.advance n) := by
  unfold State.advance State.pass
  refine OnlyIn.ite ?_ ?_
  all_goals exact ⟨rfl, fun p hp => by cases p <;> first | exact rfl | exact ⟨rfl, rfl⟩ | exact (hp (by simp)).elim⟩

theorem advanceTo_onlyIn (s : State) (n : Nat) : OnlyIn [.time] s (s.advanceTo n) :=
  OnlyIn.ite (advance_onlyIn s _) (OnlyIn.refl _ s)

theorem hostCheck_onlyIn (s : State) : OnlyIn [.icu, .out] s s.hostCheck := by
  unfold State.hostCheck
  refine OnlyIn.trans (t := { s with icu := { s.icu with hostAsserted := (s.readySource 13).isSome } }) ?_
    (OnlyIn.ite ((emit_onlyIn _ _).mono (by simp)) (OnlyIn.refl _ _))
  exact ⟨rfl, fun p hp => by cases p <;> first | exact rfl | exact ⟨rfl, rfl⟩ | exact (hp (by simp)).elim⟩

theorem raise_onlyIn (s : State) (n : Nat) : OnlyIn [.icu, .out] s (s.raise n) := by
  unfold State.raise
  refine OnlyIn.ite (OnlyIn.trans (t := { s with icu := { s.icu with pend := s.icu.pend ||| (1 <<< n) } }) ?_
    (hostCheck_onlyIn _)) (OnlyIn.refl _ _)
  exact ⟨rfl, fun p hp => by cases p <;> first | exact rfl | exact ⟨rfl, rfl⟩ | exact (hp (by simp)).elim⟩

theorem faultPart_onlyIn (s : State) (part : Bool) (src kind addr : Nat) :
    OnlyIn [.snuffer, .icu, .out] s (s.faultPart part src kind addr) := by
  unfold State.faultPart
  refine OnlyIn.ite (OnlyIn.ite ?_ (OnlyIn.trans (t := { s with snuf := { s.snuf with overflow := true, lostSince := true } })
    ?_ ((raise_onlyIn _ 7).mono (by simp)))) (OnlyIn.refl _ _)
  · exact ⟨rfl, fun p hp => by cases p <;> first | exact rfl | exact ⟨rfl, rfl⟩ | exact (hp (by simp)).elim⟩
  · exact ⟨rfl, fun p hp => by cases p <;> first | exact rfl | exact ⟨rfl, rfl⟩ | exact (hp (by simp)).elim⟩

theorem fault_onlyIn (s : State) (src kind addr : Nat) : OnlyIn [.snuffer, .icu, .out] s (s.fault src kind addr) :=
  faultPart_onlyIn s false src kind addr

theorem setWc_onlyIn (s : State) (c : Fin 13) (k : WickCore) : OnlyIn [.wick] s (s.setWc c k) :=
  ⟨rfl, fun p hp => by cases p <;> first | exact rfl | exact ⟨rfl, rfl⟩ | exact (hp (by simp)).elim⟩

theorem devRead_onlyIn (s : State) (a n : Nat) : OnlyIn [.ecc, .snuffer, .icu, .out] s (s.devRead a n) := by
  have each : ∀ (b : Bool) (k : Nat) (ws : List Nat) (t : State),
      OnlyIn [.ecc, .snuffer, .icu, .out] t (t.eccFaults b k ws) := fun b k ws t =>
    forEach_onlyIn (fun w t => (faultPart_onlyIn t b _ k _).mono (by simp))
  unfold State.devRead
  refine OnlyIn.trans (t := { s with correctable := s.correctable.filter (fun w => !touchesWord a n w) }) ?_
    ((each false 1 _ _).trans (each false 2 _ _))
  exact ⟨rfl, fun p hp => by cases p <;> first | exact rfl | exact ⟨rfl, rfl⟩ | exact (hp (by simp)).elim⟩

end Sys2Proof.Machine
end

