-- ==== Sys2Proof/Laws/Tables.lean ====
section
/-! SUPPORT. The canonical form of tables and memories: every operation keeps it. -/

namespace Sys2Proof

theorem Table.wfFrom_mono {α : Type} [DecidableEq α] {d : α} {t : Table α} {a b : Nat} (h : a ≤ b)
    (w : Table.wfFrom d b t = true) : Table.wfFrom d a t = true := by
  cases t with
  | nil => rfl
  | cons e t =>
    simp only [Table.wfFrom, Bool.and_eq_true, decide_eq_true_eq] at w ⊢
    exact ⟨⟨by omega, w.1.2⟩, w.2⟩

theorem Table.wfFrom_del {α : Type} [DecidableEq α] {d : α} {i : Nat} {t : Table α} {a : Nat}
    (w : Table.wfFrom d a t = true) : Table.wfFrom d a (Table.del t i) = true := by
  induction t generalizing a with
  | nil => rfl
  | cons e t ih =>
    simp only [Table.wfFrom, Bool.and_eq_true, decide_eq_true_eq] at w
    simp only [Table.del]
    split
    · exact Table.wfFrom_mono (by omega) (ih w.2)
    · simp only [Table.wfFrom, Bool.and_eq_true, decide_eq_true_eq]; exact ⟨w.1, ih w.2⟩

theorem Table.wfFrom_put {α : Type} [DecidableEq α] {d x : α} (hx : x ≠ d) {i : Nat} {t : Table α} {a : Nat} (hi : a ≤ i)
    (w : Table.wfFrom d a t = true) : Table.wfFrom d a (Table.put t i x) = true := by
  induction t generalizing a with
  | nil => simp [Table.put, Table.wfFrom, hi, hx]
  | cons e t ih =>
    simp only [Table.wfFrom, Bool.and_eq_true, decide_eq_true_eq] at w
    simp only [Table.put]
    split
    · subst_vars; simp only [Table.wfFrom, Bool.and_eq_true, decide_eq_true_eq]; exact ⟨⟨hi, hx⟩, w.2⟩
    · split
      · simp only [Table.wfFrom, Bool.and_eq_true, decide_eq_true_eq]
        exact ⟨⟨hi, hx⟩, ⟨by omega, w.1.2⟩, w.2⟩
      · simp only [Table.wfFrom, Bool.and_eq_true, decide_eq_true_eq]; exact ⟨w.1, ih (by omega) w.2⟩

theorem Table.wf_set {α : Type} [DecidableEq α] {d : α} {t : Table α} {i : Nat} {x : α} (w : t.wf d = true) :
    (Table.set d t i x).wf d = true := by
  unfold Table.wf Table.set at *
  split
  · exact Table.wfFrom_del w
  · exact Table.wfFrom_put (by assumption) (by omega) w

theorem Table.wfFrom_append {α : Type} [DecidableEq α] {d : α} {l r : Table α} {a b : Nat} (hl : Table.wfFrom d a l = true)
    (hab : a ≤ b) (hb : ∀ e ∈ l, e.1 < b) (hr : Table.wfFrom d b r = true) : Table.wfFrom d a (l ++ r) = true := by
  induction l generalizing a with
  | nil => exact Table.wfFrom_mono hab hr
  | cons e l ih =>
    simp only [Table.wfFrom, Bool.and_eq_true, decide_eq_true_eq, List.cons_append] at hl ⊢
    refine ⟨hl.1, ih hl.2 ?_ (fun x hx => hb x (List.mem_cons_of_mem _ hx))⟩
    exact hb e List.mem_cons_self

theorem Table.wfFrom_filter {α : Type} [DecidableEq α] {d : α} {l : Table α} {a : Nat} (p : Nat × α → Bool)
    (h : Table.wfFrom d a l = true) : Table.wfFrom d a (l.filter p) = true := by
  induction l generalizing a with
  | nil => rfl
  | cons e l ih =>
    simp only [Table.wfFrom, Bool.and_eq_true, decide_eq_true_eq] at h
    simp only [List.filter]
    split
    · simp only [Table.wfFrom, Bool.and_eq_true, decide_eq_true_eq]; exact ⟨h.1, ih h.2⟩
    · exact Table.wfFrom_mono (by omega) (ih h.2)

theorem Table.wfFrom_filter_ge {α : Type} [DecidableEq α] {d : α} {l : Table α} {a : Nat} (b : Nat)
    (h : Table.wfFrom d a l = true) : Table.wfFrom d b (l.filter (fun e => decide (b ≤ e.1))) = true := by
  induction l generalizing a with
  | nil => rfl
  | cons e l ih =>
    simp only [Table.wfFrom, Bool.and_eq_true, decide_eq_true_eq] at h
    simp only [List.filter]
    split
    · rename_i hb
      simp only [decide_eq_true_eq] at hb
      simp only [Table.wfFrom, Bool.and_eq_true, decide_eq_true_eq]
      refine ⟨⟨hb, h.1.2⟩, ?_⟩
      exact Table.wfFrom_filter _ h.2
    · exact ih h.2

theorem Mem.wfFrom_cells (a : Nat) (bs : List Byte) : Table.wfFrom 0 a (Mem.cells a bs) = true := by
  induction bs generalizing a with
  | nil => rfl
  | cons b bs ih =>
    simp only [Mem.cells]
    split
    · exact Table.wfFrom_mono (by omega) (ih (a + 1))
    · simp only [Table.wfFrom, Bool.and_eq_true, decide_eq_true_eq]; exact ⟨⟨by omega, by assumption⟩, ih (a + 1)⟩

theorem Mem.cells_lt (a : Nat) (bs : List Byte) : ∀ e ∈ Mem.cells a bs, e.1 < a + bs.length := by
  induction bs generalizing a with
  | nil => intro e he; cases he
  | cons b bs ih =>
    intro e he
    simp only [Mem.cells] at he
    have hl : (b :: bs).length = bs.length + 1 := rfl
    split at he
    · have := ih (a + 1) e he; omega
    · cases he with
      | head => simp only [hl]; omega
      | tail _ he => have := ih (a + 1) e he; omega

theorem Mem.wf_setBytes {m : Mem} {a : Nat} {bs : List Byte} (w : m.wf = true) : (m.setBytes a bs).wf = true := by
  unfold Mem.wf Table.wf Mem.setBytes at *
  rw [List.append_assoc]
  refine Table.wfFrom_append (Table.wfFrom_filter _ w) (Nat.zero_le a) ?_ ?_
  · intro e he
    have := (List.mem_filter.mp he).2
    simpa using this
  · exact Table.wfFrom_append (Mem.wfFrom_cells a bs) (by omega) (Mem.cells_lt a bs) (Table.wfFrom_filter_ge _ w)

theorem Mem.wf_setByte {m : Mem} {a : Nat} {b : Byte} (w : m.wf = true) : (m.setByte a b).wf = true :=
  Table.wf_set w
theorem Table.get_put_same {α : Type} {d x : α} {t : Table α} {i : Nat} : Table.get d (Table.put t i x) i = x := by
  induction t with
  | nil => simp [Table.put, Table.get]
  | cons e t ih =>
    simp only [Table.put]
    split
    · simp [Table.get]
    · split
      · simp [Table.get]
      · rename_i h _; simp only [Table.get, h, if_false]; exact ih

theorem Table.get_put_ne {α : Type} {d x : α} {t : Table α} {i j : Nat} (hij : j ≠ i) :
    Table.get d (Table.put t i x) j = Table.get d t j := by
  induction t with
  | nil => simp [Table.put, Table.get, Ne.symm hij]
  | cons e t ih =>
    simp only [Table.put]
    split
    · rename_i h; simp only [Table.get, h, if_neg (Ne.symm hij)]
    · split
      · simp only [Table.get, if_neg (Ne.symm hij)]
      · simp only [Table.get, ih]

theorem Table.get_del_ne {α : Type} {d : α} {t : Table α} {i j : Nat} (hij : j ≠ i) :
    Table.get d (Table.del t i) j = Table.get d t j := by
  induction t with
  | nil => rfl
  | cons e t ih =>
    simp only [Table.del]
    split
    · rename_i h; simp only [Table.get, h, if_neg (Ne.symm hij)]; exact ih
    · simp only [Table.get, ih]

theorem Table.get_lt {α : Type} [DecidableEq α] {d : α} {t : Table α} {a i : Nat} (w : Table.wfFrom d a t = true) (h : i < a) :
    Table.get d t i = d := by
  induction t generalizing a with
  | nil => rfl
  | cons e t ih =>
    simp only [Table.wfFrom, Bool.and_eq_true, decide_eq_true_eq] at w
    rw [Table.get, if_neg (by omega)]
    exact ih w.2 (by omega)

theorem Table.get_del_same {α : Type} {d : α} {t : Table α} {i : Nat} : Table.get d (Table.del t i) i = d := by
  induction t with
  | nil => rfl
  | cons e t ih =>
    simp only [Table.del]
    split
    · exact ih
    · rename_i h; rw [Table.get, if_neg h]; exact ih

/-- A key reads as what was written to it. -/
theorem Table.get_set_same {α : Type} [DecidableEq α] {d x : α} {t : Table α} {i : Nat} :
    Table.get d (Table.set d t i x) i = x := by
  unfold Table.set
  split
  · rename_i h; rw [Table.get_del_same, h]
  · exact Table.get_put_same

/-- The same of a value other than the default, in any table. -/
theorem Table.get_set_some {α : Type} [DecidableEq α] {d x : α} {t : Table α} {i : Nat} (h : x ≠ d) :
    Table.get d (Table.set d t i x) i = x := by
  rw [Table.set, if_neg h]; exact Table.get_put_same

/-- Writing one key leaves every other key. -/
theorem Table.get_set_ne {α : Type} [DecidableEq α] {d x : α} {t : Table α} {i j : Nat} (h : j ≠ i) :
    Table.get d (Table.set d t i x) j = Table.get d t j := by
  unfold Table.set
  split
  · exact Table.get_del_ne h
  · exact Table.get_put_ne h

/-- Reading past a filter. -/
theorem Table.get_filter_key {α : Type} {d : α} {t : Table α} {p : Nat → Bool} {i : Nat} (h : p i = true) :
    Table.get d (t.filter (fun e => p e.1)) i = Table.get d t i := by
  induction t with
  | nil => rfl
  | cons e t ih =>
    simp only [List.filter]
    split
    · simp only [Table.get, ih]
    · rename_i h2
      have : e.1 ≠ i := fun hc => by rw [hc, h] at h2; cases h2
      rw [ih, Table.get, if_neg this]

theorem Table.get_filter_not {α : Type} {d : α} {t : Table α} {p : Nat → Bool} {i : Nat} (h : p i = false) :
    Table.get d (t.filter (fun e => p e.1)) i = d := by
  induction t with
  | nil => rfl
  | cons e t ih =>
    simp only [List.filter]
    split
    · rename_i h2
      have : e.1 ≠ i := fun hc => by rw [hc, h] at h2; cases h2
      rw [Table.get, if_neg this, ih]
    · exact ih

theorem Table.get_append_none {α : Type} {d : α} {l r : Table α} {i : Nat} (h : ∀ e ∈ l, e.1 ≠ i) :
    Table.get d (l ++ r) i = Table.get d r i := by
  induction l with
  | nil => rfl
  | cons e l ih =>
    rw [List.cons_append, Table.get, if_neg (h e List.mem_cons_self)]
    exact ih (fun x hx => h x (List.mem_cons_of_mem _ hx))

theorem Table.get_append_right {α : Type} {d : α} {l r : Table α} {i : Nat} (h : ∀ e ∈ r, e.1 ≠ i) :
    Table.get d (l ++ r) i = Table.get d l i := by
  induction l with
  | nil =>
    have := Table.get_append_none (d := d) (r := []) h
    simpa [Table.get] using this
  | cons e l ih => simp only [List.cons_append, Table.get, ih]

theorem Mem.cells_ge (a : Nat) (bs : List Byte) : ∀ e ∈ Mem.cells a bs, a ≤ e.1 := by
  induction bs generalizing a with
  | nil => intro e he; cases he
  | cons b bs ih =>
    intro e he
    simp only [Mem.cells] at he
    split at he
    · have := ih (a + 1) e he; omega
    · cases he with
      | head => exact Nat.le_refl a
      | tail _ he => have := ih (a + 1) e he; omega

theorem Mem.get_cells (a : Nat) (bs : List Byte) (i : Nat) (h : i < bs.length) :
    Table.get 0 (Mem.cells a bs) (a + i) = bs[i] := by
  induction bs generalizing a i with
  | nil => cases h
  | cons b bs ih =>
    simp only [Mem.cells]
    cases i with
    | zero =>
      split
      · rename_i hb
        rw [Nat.add_zero, Table.get_lt (Mem.wfFrom_cells (a + 1) bs) (by omega)]
        simp [hb]
      · simp [Table.get]
    | succ n =>
      have e : a + (n + 1) = a + 1 + n := by omega
      have hl : n < bs.length := by simpa using h
      split
      · rw [e, ih (a + 1) n hl]; rfl
      · rw [Table.get, if_neg (by omega), e, ih (a + 1) n hl]; rfl

/-- A byte outside the bytes written reads as before. -/
theorem Mem.byte_setBytes_out {m : Mem} {a : Nat} {bs : List Byte} {i : Nat} (h : i < a ∨ a + bs.length ≤ i) :
    (m.setBytes a bs).byte i = m.byte i := by
  unfold Mem.byte Mem.setBytes
  rcases h with h | h
  · rw [List.append_assoc, Table.get_append_right]
    · exact Table.get_filter_key (p := fun k => decide (k < a)) (by simpa using h)
    · intro e he
      rcases List.mem_append.mp he with he | he
      · have := Mem.cells_ge a bs e he; omega
      · have := (List.mem_filter.mp he).2; simp only [decide_eq_true_eq] at this; omega
  · rw [List.append_assoc, Table.get_append_none, Table.get_append_none]
    · exact Table.get_filter_key (p := fun k => decide (a + bs.length ≤ k)) (by simpa using h)
    · intro e he; have := Mem.cells_lt a bs e he; omega
    · intro e he; have := (List.mem_filter.mp he).2; simp only [decide_eq_true_eq] at this; omega

/-- A byte that was written reads as written. -/
theorem Mem.byte_setBytes_in {m : Mem} {a : Nat} {bs : List Byte} {i : Nat} (h : i < bs.length) :
    (m.setBytes a bs).byte (a + i) = bs[i] := by
  unfold Mem.byte Mem.setBytes
  rw [List.append_assoc, Table.get_append_none, Table.get_append_right]
  · exact Mem.get_cells a bs i h
  · intro e he; have := (List.mem_filter.mp he).2; simp only [decide_eq_true_eq] at this; omega
  · intro e he; have := (List.mem_filter.mp he).2; simp only [decide_eq_true_eq] at this; omega
end Sys2Proof
end

