-- ==== Sys2Proof/Laws/Keeps.lean ====
section
/-! SUPPORT. What an operation on the state keeps: both memories in canonical form, and the queue of waiting commands.
`State.Keeps p s` says that a state has it; the files `Keeps…` hold one lemma for each operation, named after it with the
ending `_keeps` (`_keepsP` for the state in a pair, `_keepsE` for the state in an answer that an equation gives). -/

namespace Sys2Proof.Machine
def State.Keeps (p : List Instr) (s : State) : Prop := s.host.wf = true ∧ s.dev.wf = true ∧ s.pending = p
theorem Keeps.congr {pq : List Instr} {r t : State} (h1 : r.host = t.host) (h2 : r.dev = t.dev) (h3 : r.pending = t.pending)
    (h : State.Keeps pq t) : State.Keeps pq r := by
  unfold State.Keeps at *; rw [h1, h2, h3]; exact h
theorem Keeps.upd {pq : List Instr} {t : State} {a0 : TimeState} {a1 : StageState} {a2 : QmState} {a3 : CodecState} {a4 : CmpState} {a5 : LmpState} {a6 : WickState} {a7 : SwcState} {a8 : TrfState} {a9 : PoolState} {a10 : Table DmaCh} {a11 : Bool} {a12 : AuditState} {a13 : IcuState} {a14 : SnufState} {a15 : PwrState} {a16 : NvsState} {a17 : Table (Option Update)} {a18 : MgmtState} {a19 : MailState} {a20 : List Nat} {a21 : List Nat} {a22 : Table (Option Word)} {a23 : DWord} {a24 : List OutMsg} {a25 : Nat} :
    State.Keeps pq (⟨t.pending, a0, a1, a2, a3, a4, a5, a6, a7, a8, a9, a10, a11, a12, a13, a14, a15, a16, a17, a18, a19, t.host, t.dev, a20, a21, a22, a23, a24, a25⟩ : State) = State.Keeps pq t := propext ⟨id, id⟩
theorem Keeps.ofSnd {α : Type} {pq : List Instr} {x : α × State} {a : α} {t : State} {G : Prop} (e : x = (a, t))
    (h : State.Keeps pq x.2) (k : State.Keeps pq t → G) : G := k (by rw [e] at h; exact h)
theorem Keeps.ofFst {α : Type} {pq : List Instr} {x : State × α} {a : α} {t : State} {G : Prop} (e : x = (t, a))
    (h : State.Keeps pq x.1) (k : State.Keeps pq t → G) : G := k (by rw [e] at h; exact h)
theorem Keeps.cut {pq : List Instr} (t : State) {G : Prop} (h : State.Keeps pq t) (k : State.Keeps pq t → G) : G := k h
theorem foldl_keeps {α : Type} {pq : List Instr} {l : List α} {s : State} {f : State → α → State}
    (h : State.Keeps pq s) (hf : ∀ t x, State.Keeps pq t → State.Keeps pq (f t x)) : State.Keeps pq (l.foldl f s) := by
  induction l generalizing s with
  | nil => exact h
  | cons a l ih => exact ih (hf s a h)
theorem forEach_keeps {α : Type} {pq : List Instr} {l : List α} {s : State} {f : α → State → State}
    (h : State.Keeps pq s) (hf : ∀ x t, State.Keeps pq t → State.Keeps pq (f x t)) : State.Keeps pq (forEach l s f) := by
  unfold forEach
  induction l generalizing s with
  | nil => exact h
  | cons a l ih => exact ih (hf a s h)
/-- An answer keeps what `State.Keeps` says, if the state in it does. -/
def KeepsO (pq : List Instr) (o : Host.Outcome State Fault Refusal) : Prop :=
  match o with
  | .next t => State.Keeps pq t
  | _ => True
theorem KeepsO.mk {pq : List Instr} {t : State} (h : State.Keeps pq t) : KeepsO pq (.next t) := h
end Sys2Proof.Machine
end

