-- ==== Sys2Proof/Laws/KeepsRings.lean ====
section
/-! SUPPORT. What each operation keeps (see `State.Keeps`): rings, channels, switch and buffer pools. -/

set_option maxRecDepth 4000

namespace Sys2Proof.Machine

theorem State.setFullTime_keeps {pq : List Instr} {s : State} {t : Int} (hs : State.Keeps pq s) :
    State.Keeps pq (State.setFullTime s t) := by
  unfold State.setFullTime
  repeat' first
    | with_reducible assumption
    | (extract_lets -underBinder +onlyGivenNames -merge x; with_reducible refine Keeps.cut (pq := pq) x ?_ (fun _ => ?_); rotate_left; clear_value x; rotate_left; subst x)
    | (extract_lets -underBinder +onlyGivenNames -merge x; subst x)
    | simp only [Keeps.upd]

theorem State.setReg_keeps {pq : List Instr} {s : State} {off : Nat} {v : Word} (hs : State.Keeps pq s) :
    State.Keeps pq (State.setReg s off v) := by
  unfold State.setReg
  repeat' first
    | with_reducible assumption
    | simp only [Keeps.upd]

theorem State.clearRegs_keeps {pq : List Instr} {s : State} {lo hi : Nat} (hs : State.Keeps pq s) :
    State.Keeps pq (State.clearRegs s lo hi) := by
  unfold State.clearRegs
  repeat' first
    | with_reducible assumption
    | intro _
    | simp only [Keeps.upd]

theorem State.pass_keeps {pq : List Instr} {s : State} {n : Nat} {k f : Int} (hs : State.Keeps pq s) :
    State.Keeps pq (State.pass s n k f) := by
  unfold State.pass
  repeat' first
    | with_reducible assumption
    | (rename_i e; with_reducible refine Keeps.ofSnd (pq := pq) e ?_ (fun _ => ?_) <;> clear e)
    | (rename_i e; with_reducible refine Keeps.ofFst (pq := pq) e ?_ (fun _ => ?_) <;> clear e)
    | (extract_lets -underBinder +onlyGivenNames -merge x; with_reducible refine Keeps.cut (pq := pq) x ?_ (fun _ => ?_); rotate_left; clear_value x; rotate_left; subst x)
    | (extract_lets -underBinder +onlyGivenNames -merge x; subst x)
    | with_reducible apply State.setFullTime_keeps
    | intro _
    | split
    | simp only [Keeps.upd]

theorem State.advance_keeps {pq : List Instr} {s : State} {n : Nat} (hs : State.Keeps pq s) :
    State.Keeps pq (State.advance s n) := by
  unfold State.advance
  repeat' first
    | with_reducible assumption
    | with_reducible apply State.pass_keeps
    | intro _
    | split
    | simp only [Keeps.upd]

theorem State.advanceTo_keeps {pq : List Instr} {s : State} {t : Nat} (hs : State.Keeps pq s) :
    State.Keeps pq (State.advanceTo s t) := by
  unfold State.advanceTo
  repeat' first
    | with_reducible assumption
    | with_reducible apply State.advance_keeps
    | intro _
    | split
    | simp only [Keeps.upd]

theorem State.advanceDts_keeps {pq : List Instr} {s : State} {d : Nat} (hs : State.Keeps pq s) :
    State.Keeps pq (State.advanceDts s d) := by
  unfold State.advanceDts
  repeat' first
    | with_reducible assumption
    | (rename_i e; with_reducible refine Keeps.ofSnd (pq := pq) e ?_ (fun _ => ?_) <;> clear e)
    | (rename_i e; with_reducible refine Keeps.ofFst (pq := pq) e ?_ (fun _ => ?_) <;> clear e)
    | (extract_lets -underBinder +onlyGivenNames -merge x; with_reducible refine Keeps.cut (pq := pq) x ?_ (fun _ => ?_); rotate_left; clear_value x; rotate_left; subst x)
    | (extract_lets -underBinder +onlyGivenNames -merge x; subst x)
    | with_reducible apply State.pass_keeps
    | intro _
    | split
    | simp only [Keeps.upd]

theorem State.advanceToDts_keeps {pq : List Instr} {s : State} {t : Int} (hs : State.Keeps pq s) :
    State.Keeps pq (State.advanceToDts s t) := by
  unfold State.advanceToDts
  repeat' first
    | with_reducible assumption
    | with_reducible apply State.advanceDts_keeps
    | split

theorem State.advanceToRun_keeps {pq : List Instr} {s : State} {t : Nat} (hs : State.Keeps pq s) :
    State.Keeps pq (State.advanceToRun s t) := by
  unfold State.advanceToRun
  repeat' first
    | with_reducible assumption
    | with_reducible apply State.advanceDts_keeps
    | split

theorem idle_keeps {pq : List Instr} {s : State} (hs : State.Keeps pq s) :
    State.Keeps pq (idle s) := by
  unfold idle
  repeat' first
    | with_reducible assumption
    | with_reducible apply State.advance_keeps

theorem State.emit_keeps {pq : List Instr} {s : State} {m : OutMsg} (hs : State.Keeps pq s) :
    State.Keeps pq (State.emit s m) := by
  unfold State.emit
  repeat' first
    | with_reducible assumption
    | simp only [Keeps.upd]

theorem State.drawFree_keepsP {pq : List Instr} {s : State} (hs : State.Keeps pq s) :
    State.Keeps pq (State.drawFree s).2 := by
  unfold State.drawFree
  repeat' first
    | with_reducible assumption
    | intro _
    | simp only [Keeps.upd]
theorem State.drawFree_keepsE {pq : List Instr} {s : State} {tv2 v1} (e : State.drawFree s = (v1, tv2)) (hs : State.Keeps pq s) :
    State.Keeps pq tv2 := by
  have h := State.drawFree_keepsP (s := s) hs 
  rw [e] at h; exact h

theorem State.setRd_keeps {pq : List Instr} {s : State} {n : Nat} (hs : State.Keeps pq s) :
    State.Keeps pq (State.setRd s n) := by
  unfold State.setRd
  repeat' first
    | with_reducible assumption
    | simp only [Keeps.upd]

theorem State.logRecord_keeps {pq : List Instr} {s : State} {type fn : Nat} {payload : List Byte} (hs : State.Keeps pq s) :
    State.Keeps pq (State.logRecord s type fn payload) := by
  unfold State.logRecord
  repeat' first
    | with_reducible assumption
    | (rename_i e; with_reducible refine Keeps.ofSnd (pq := pq) e ?_ (fun _ => ?_) <;> clear e)
    | (rename_i e; with_reducible refine Keeps.ofFst (pq := pq) e ?_ (fun _ => ?_) <;> clear e)
    | (extract_lets -underBinder +onlyGivenNames -merge x; with_reducible refine Keeps.cut (pq := pq) x ?_ (fun _ => ?_); rotate_left; clear_value x; rotate_left; subst x)
    | (extract_lets -underBinder +onlyGivenNames -merge x; subst x)
    | intro _
    | split
    | simp only [Keeps.upd]

theorem State.hostCheck_keeps {pq : List Instr} {s : State} (hs : State.Keeps pq s) :
    State.Keeps pq (State.hostCheck s) := by
  unfold State.hostCheck
  repeat' first
    | with_reducible assumption
    | (extract_lets -underBinder +onlyGivenNames -merge x; with_reducible refine Keeps.cut (pq := pq) x ?_ (fun _ => ?_); rotate_left; clear_value x; rotate_left; subst x)
    | (extract_lets -underBinder +onlyGivenNames -merge x; subst x)
    | with_reducible apply State.emit_keeps
    | split
    | simp only [Keeps.upd]

theorem State.raise_keeps {pq : List Instr} {s : State} {n : Nat} (hs : State.Keeps pq s) :
    State.Keeps pq (State.raise s n) := by
  unfold State.raise
  repeat' first
    | with_reducible assumption
    | (rename_i e; with_reducible refine Keeps.ofSnd (pq := pq) e ?_ (fun _ => ?_) <;> clear e)
    | (rename_i e; with_reducible refine Keeps.ofFst (pq := pq) e ?_ (fun _ => ?_) <;> clear e)
    | with_reducible apply State.hostCheck_keeps
    | split
    | simp only [Keeps.upd]

theorem State.faultPart_keeps {pq : List Instr} {s : State} {part : Bool} {source kind address : Nat} (hs : State.Keeps pq s) :
    State.Keeps pq (State.faultPart s part source kind address) := by
  unfold State.faultPart
  repeat' first
    | with_reducible assumption
    | (rename_i e; with_reducible refine Keeps.ofSnd (pq := pq) e ?_ (fun _ => ?_) <;> clear e)
    | (rename_i e; with_reducible refine Keeps.ofFst (pq := pq) e ?_ (fun _ => ?_) <;> clear e)
    | with_reducible apply State.raise_keeps
    | split
    | simp only [Keeps.upd]

theorem State.fault_keeps {pq : List Instr} {s : State} {source kind address : Nat} (hs : State.Keeps pq s) :
    State.Keeps pq (State.fault s source kind address) := by
  unfold State.fault
  repeat' first
    | with_reducible assumption
    | with_reducible apply State.faultPart_keeps

theorem State.eccFaults_keeps {pq : List Instr} {s : State} {part : Bool} {kind : Nat} {ws : List Nat} (hs : State.Keeps pq s) :
    State.Keeps pq (State.eccFaults s part kind ws) := by
  unfold State.eccFaults
  repeat' first
    | with_reducible assumption
    | with_reducible apply State.faultPart_keeps
    | (with_reducible refine forEach_keeps ?_ (fun _ _ _ => ?_))
    | intro _

theorem State.devWrite_keeps {pq : List Instr} {s : State} {a : Nat} {bs : List Byte} (hs : State.Keeps pq s) :
    State.Keeps pq (s.devWrite a bs) := by
  unfold State.devWrite
  dsimp only
  refine State.eccFaults_keeps (State.eccFaults_keeps ?_)
  exact ⟨hs.1, Mem.wf_setBytes hs.2.1, hs.2.2⟩

theorem State.devRead_keeps {pq : List Instr} {s : State} {a n : Nat} (hs : State.Keeps pq s) :
    State.Keeps pq (State.devRead s a n) := by
  unfold State.devRead
  repeat' first
    | with_reducible assumption
    | (extract_lets -underBinder +onlyGivenNames -merge x; with_reducible refine Keeps.cut (pq := pq) x ?_ (fun _ => ?_); rotate_left; clear_value x; rotate_left; subst x)
    | (extract_lets -underBinder +onlyGivenNames -merge x; subst x)
    | with_reducible apply State.eccFaults_keeps
    | intro _
    | simp only [Keeps.upd]

theorem State.poisonWords_keeps {pq : List Instr} {s : State} {ws : List Nat} (hs : State.Keeps pq s) :
    State.Keeps pq (State.poisonWords s ws) := by
  unfold State.poisonWords
  repeat' first
    | with_reducible assumption
    | (with_reducible refine foldl_keeps ?_ (fun _ _ _ => ?_))
    | simp only [Keeps.upd]

theorem State.hostWrite_keeps {pq : List Instr} {s : State} {a : Nat} {bs : List Byte} (hs : State.Keeps pq s) :
    State.Keeps pq (s.hostWrite a bs) := ⟨Mem.wf_setBytes hs.1, hs.2.1, hs.2.2⟩

theorem State.spaceWrite_keeps {pq : List Instr} {s : State} {a : DWord} {bs : List Byte} (hs : State.Keeps pq s) :
    State.Keeps pq (State.spaceWrite s a bs) := by
  unfold State.spaceWrite
  repeat' first
    | with_reducible assumption
    | with_reducible apply State.hostWrite_keeps
    | with_reducible apply State.devWrite_keeps
    | split

theorem State.setSq_keeps {pq : List Instr} {s : State} {k : Nat} {q : Sq} (hs : State.Keeps pq s) :
    State.Keeps pq (State.setSq s k q) := by
  unfold State.setSq
  repeat' first
    | with_reducible assumption
    | simp only [Keeps.upd]

theorem State.setCq_keeps {pq : List Instr} {s : State} {k : Nat} {c : Cq} (hs : State.Keeps pq s) :
    State.Keeps pq (State.setCq s k c) := by
  unfold State.setCq
  repeat' first
    | with_reducible assumption
    | simp only [Keeps.upd]

theorem State.setSlot_keeps {pq : List Instr} {s : State} {n : Nat} {x : Option Slot} (hs : State.Keeps pq s) :
    State.Keeps pq (State.setSlot s n x) := by
  unfold State.setSlot
  repeat' first
    | with_reducible assumption
    | simp only [Keeps.upd]

theorem State.slotsCheck_keeps {pq : List Instr} {s : State} (hs : State.Keeps pq s) :
    State.Keeps pq (State.slotsCheck s) := by
  unfold State.slotsCheck
  repeat' first
    | with_reducible assumption
    | (extract_lets -underBinder +onlyGivenNames -merge x; with_reducible refine Keeps.cut (pq := pq) x ?_ (fun _ => ?_); rotate_left; clear_value x; rotate_left; subst x)
    | (extract_lets -underBinder +onlyGivenNames -merge x; subst x)
    | with_reducible apply State.raise_keeps
    | split
    | simp only [Keeps.upd]

theorem State.finish_keeps {pq : List Instr} {s : State} {n : Nat} {st : Status} {r0 r1 : Nat} {detail : Option Nat} (hs : State.Keeps pq s) :
    State.Keeps pq (State.finish s n st r0 r1 detail) := by
  unfold State.finish
  repeat' first
    | with_reducible assumption
    | (rename_i e; with_reducible refine Keeps.ofSnd (pq := pq) e ?_ (fun _ => ?_) <;> clear e)
    | (rename_i e; with_reducible refine Keeps.ofFst (pq := pq) e ?_ (fun _ => ?_) <;> clear e)
    | with_reducible apply State.setSlot_keeps
    | split
    | simp only [Keeps.upd]

theorem State.start_keeps {pq : List Instr} {s : State} {n : Nat} (hs : State.Keeps pq s) :
    State.Keeps pq (State.start s n) := by
  unfold State.start
  repeat' first
    | with_reducible assumption
    | with_reducible apply State.setSlot_keeps
    | split
    | simp only [Keeps.upd]

theorem State.settleQueue_keeps {pq : List Instr} {s : State} {k : Nat} (hs : State.Keeps pq s) :
    State.Keeps pq (State.settleQueue s k) := by
  unfold State.settleQueue
  repeat' first
    | with_reducible assumption
    | with_reducible apply State.setSq_keeps
    | intro _
    | split
    | simp only [Keeps.upd]

theorem State.releaseBarriers_keeps {pq : List Instr} {s : State} {n : Nat} {aborted : Bool} (hs : State.Keeps pq s) :
    State.Keeps pq (State.releaseBarriers s n aborted) := by
  unfold State.releaseBarriers
  repeat' first
    | with_reducible assumption
    | (extract_lets -underBinder +onlyGivenNames -merge x; with_reducible refine Keeps.cut (pq := pq) x ?_ (fun _ => ?_); rotate_left; clear_value x; rotate_left; subst x)
    | (extract_lets -underBinder +onlyGivenNames -merge x; subst x)
    | with_reducible apply State.finish_keeps
    | (with_reducible refine forEach_keeps ?_ (fun _ _ _ => ?_))
    | intro _
    | split
    | simp only [Keeps.upd]

theorem State.waitFor_keeps {pq : List Instr} {s : State} {b : Barrier} (hs : State.Keeps pq s) :
    State.Keeps pq (State.waitFor s b) := by
  unfold State.waitFor
  repeat' first
    | with_reducible assumption
    | with_reducible apply State.start_keeps
    | with_reducible apply State.finish_keeps
    | split
    | simp only [Keeps.upd]

theorem State.wrote_keeps {pq : List Instr} {s : State} {k n : Nat} {x : Slot} (hs : State.Keeps pq s) :
    State.Keeps pq (State.wrote s k n x) := by
  unfold State.wrote
  repeat' first
    | with_reducible assumption
    | (rename_i e; with_reducible refine Keeps.ofSnd (pq := pq) e ?_ (fun _ => ?_) <;> clear e)
    | (rename_i e; with_reducible refine Keeps.ofFst (pq := pq) e ?_ (fun _ => ?_) <;> clear e)
    | (extract_lets -underBinder +onlyGivenNames -merge x; with_reducible refine Keeps.cut (pq := pq) x ?_ (fun _ => ?_); rotate_left; clear_value x; rotate_left; subst x)
    | (extract_lets -underBinder +onlyGivenNames -merge x; subst x)
    | with_reducible apply State.releaseBarriers_keeps
    | with_reducible apply State.settleQueue_keeps
    | with_reducible apply State.setSlot_keeps
    | with_reducible apply State.setCq_keeps
    | with_reducible apply State.emit_keeps
    | intro _
    | split
    | simp only [Keeps.upd]

theorem State.post_keeps {pq : List Instr} {s : State} {f c : Nat} {ok : Bool} (hs : State.Keeps pq s) :
    State.Keeps pq (State.post s f c ok) := by
  unfold State.post
  repeat' first
    | with_reducible assumption
    | (rename_i e; with_reducible refine Keeps.ofSnd (pq := pq) e ?_ (fun _ => ?_) <;> clear e)
    | (rename_i e; with_reducible refine Keeps.ofFst (pq := pq) e ?_ (fun _ => ?_) <;> clear e)
    | (extract_lets -underBinder +onlyGivenNames -merge x; with_reducible refine Keeps.cut (pq := pq) x ?_ (fun _ => ?_); rotate_left; clear_value x; rotate_left; subst x)
    | (extract_lets -underBinder +onlyGivenNames -merge x; subst x)
    | with_reducible apply State.wrote_keeps
    | with_reducible apply State.setSlot_keeps
    | with_reducible apply State.setCq_keeps
    | with_reducible apply State.hostWrite_keeps
    | with_reducible apply State.raise_keeps
    | with_reducible apply State.emit_keeps
    | intro _
    | split
    | simp only [Keeps.upd]

theorem State.repost_keeps {pq : List Instr} {s : State} {f c : Nat} {ok : Bool} (hs : State.Keeps pq s) :
    State.Keeps pq (State.repost s f c ok) := by
  unfold State.repost
  repeat' first
    | with_reducible assumption
    | (rename_i e; with_reducible refine Keeps.ofSnd (pq := pq) e ?_ (fun _ => ?_) <;> clear e)
    | (rename_i e; with_reducible refine Keeps.ofFst (pq := pq) e ?_ (fun _ => ?_) <;> clear e)
    | (extract_lets -underBinder +onlyGivenNames -merge x; with_reducible refine Keeps.cut (pq := pq) x ?_ (fun _ => ?_); rotate_left; clear_value x; rotate_left; subst x)
    | (extract_lets -underBinder +onlyGivenNames -merge x; subst x)
    | with_reducible apply State.wrote_keeps
    | with_reducible apply State.setCq_keeps
    | with_reducible apply State.hostWrite_keeps
    | with_reducible apply State.raise_keeps
    | with_reducible apply State.emit_keeps
    | with_reducible apply State.advanceTo_keeps
    | intro _
    | split
    | simp only [Keeps.upd]

theorem State.aggExpire_keeps {pq : List Instr} {s : State} {f c : Nat} (hs : State.Keeps pq s) :
    State.Keeps pq (State.aggExpire s f c) := by
  unfold State.aggExpire
  repeat' first
    | with_reducible assumption
    | (extract_lets -underBinder +onlyGivenNames -merge x; with_reducible refine Keeps.cut (pq := pq) x ?_ (fun _ => ?_); rotate_left; clear_value x; rotate_left; subst x)
    | (extract_lets -underBinder +onlyGivenNames -merge x; subst x)
    | with_reducible apply State.setCq_keeps
    | with_reducible apply State.emit_keeps
    | with_reducible apply State.advanceTo_keeps
    | split
    | simp only [Keeps.upd]

theorem State.dbError_keeps {pq : List Instr} {s : State} {f q : Nat} {cq : Bool} (hs : State.Keeps pq s) :
    State.Keeps pq (State.dbError s f q cq) := by
  unfold State.dbError
  repeat' first
    | with_reducible assumption
    | with_reducible apply State.raise_keeps
    | simp only [Keeps.upd]

theorem State.bellArrives_keeps {pq : List Instr} {s : State} {f : Nat} (hs : State.Keeps pq s) :
    State.Keeps pq (State.bellArrives s f) := by
  unfold State.bellArrives
  repeat' first
    | with_reducible assumption
    | (extract_lets -underBinder +onlyGivenNames -merge x; subst x)
    | with_reducible apply State.advance_keeps
    | split
    | simp only [Keeps.upd]

theorem State.sqDoorbell_keeps {pq : List Instr} {s : State} {f q : Nat} {v : Word} (hs : State.Keeps pq s) :
    State.Keeps pq (State.sqDoorbell s f q v) := by
  unfold State.sqDoorbell
  repeat' first
    | with_reducible assumption
    | with_reducible apply State.bellArrives_keeps
    | (rename_i e; with_reducible refine Keeps.ofSnd (pq := pq) e ?_ (fun _ => ?_) <;> clear e)
    | (rename_i e; with_reducible refine Keeps.ofFst (pq := pq) e ?_ (fun _ => ?_) <;> clear e)
    | (extract_lets -underBinder +onlyGivenNames -merge x; with_reducible refine Keeps.cut (pq := pq) x ?_ (fun _ => ?_); rotate_left; clear_value x; rotate_left; subst x)
    | (extract_lets -underBinder +onlyGivenNames -merge x; subst x)
    | with_reducible apply State.dbError_keeps
    | with_reducible apply State.setSq_keeps
    | with_reducible apply State.drawFree_keepsP
    | (with_reducible refine State.drawFree_keepsE (by with_reducible assumption) ?_)
    | split
    | simp only [Keeps.upd]

theorem State.cqDoorbell_keeps {pq : List Instr} {s : State} {f c : Nat} {v : Word} (hs : State.Keeps pq s) :
    State.Keeps pq (State.cqDoorbell s f c v) := by
  unfold State.cqDoorbell
  repeat' first
    | with_reducible assumption
    | with_reducible apply State.bellArrives_keeps
    | (extract_lets -underBinder +onlyGivenNames -merge x; with_reducible refine Keeps.cut (pq := pq) x ?_ (fun _ => ?_); rotate_left; clear_value x; rotate_left; subst x)
    | (extract_lets -underBinder +onlyGivenNames -merge x; subst x)
    | with_reducible apply State.dbError_keeps
    | with_reducible apply State.repost_keeps
    | with_reducible apply State.slotsCheck_keeps
    | with_reducible apply State.setSlot_keeps
    | with_reducible apply State.setCq_keeps
    | with_reducible apply idle_keeps
    | with_reducible apply State.drawFree_keepsP
    | (with_reducible refine State.drawFree_keepsE (by with_reducible assumption) ?_)
    | (with_reducible refine forEach_keeps ?_ (fun _ _ _ => ?_))
    | intro _
    | split
    | simp only [Keeps.upd]

theorem State.fetchFailed_keeps {pq : List Instr} {s : State} {k cls : Nat} (hs : State.Keeps pq s) :
    State.Keeps pq (State.fetchFailed s k cls) := by
  unfold State.fetchFailed
  repeat' first
    | with_reducible assumption
    | with_reducible apply State.setSq_keeps
    | with_reducible apply State.raise_keeps
    | with_reducible apply State.emit_keeps
    | intro _
    | split
    | simp only [Keeps.upd]

theorem State.fetched_keeps {pq : List Instr} {s : State} {f q : Nat} {r : FetchResult} (hs : State.Keeps pq s) :
    State.Keeps pq (State.fetched s f q r) := by
  unfold State.fetched
  repeat' first
    | with_reducible assumption
    | (rename_i e; with_reducible refine Keeps.ofSnd (pq := pq) e ?_ (fun _ => ?_) <;> clear e)
    | (rename_i e; with_reducible refine Keeps.ofFst (pq := pq) e ?_ (fun _ => ?_) <;> clear e)
    | (extract_lets -underBinder +onlyGivenNames -merge x; with_reducible refine Keeps.cut (pq := pq) x ?_ (fun _ => ?_); rotate_left; clear_value x; rotate_left; subst x)
    | (extract_lets -underBinder +onlyGivenNames -merge x; subst x)
    | with_reducible apply State.fetchFailed_keeps
    | with_reducible apply State.setSq_keeps
    | with_reducible apply State.emit_keeps
    | intro _
    | split
    | simp only [Keeps.upd]

theorem State.fetchTimeout_keeps {pq : List Instr} {s : State} {f q : Nat} (hs : State.Keeps pq s) :
    State.Keeps pq (State.fetchTimeout s f q) := by
  unfold State.fetchTimeout
  repeat' first
    | with_reducible assumption
    | (rename_i e; with_reducible refine Keeps.ofSnd (pq := pq) e ?_ (fun _ => ?_) <;> clear e)
    | (rename_i e; with_reducible refine Keeps.ofFst (pq := pq) e ?_ (fun _ => ?_) <;> clear e)
    | (extract_lets -underBinder +onlyGivenNames -merge x; with_reducible refine Keeps.cut (pq := pq) x ?_ (fun _ => ?_); rotate_left; clear_value x; rotate_left; subst x)
    | (extract_lets -underBinder +onlyGivenNames -merge x; subst x)
    | with_reducible apply State.fetchFailed_keeps
    | with_reducible apply State.setSq_keeps
    | with_reducible apply State.emit_keeps
    | intro _
    | split
    | simp only [Keeps.upd]

theorem State.orphan_keeps {pq : List Instr} {s : State} {n : Nat} (hs : State.Keeps pq s) :
    State.Keeps pq (State.orphan s n) := by
  unfold State.orphan
  repeat' first
    | with_reducible assumption
    | (rename_i e; with_reducible refine Keeps.ofSnd (pq := pq) e ?_ (fun _ => ?_) <;> clear e)
    | (rename_i e; with_reducible refine Keeps.ofFst (pq := pq) e ?_ (fun _ => ?_) <;> clear e)
    | (extract_lets -underBinder +onlyGivenNames -merge x; with_reducible refine Keeps.cut (pq := pq) x ?_ (fun _ => ?_); rotate_left; clear_value x; rotate_left; subst x)
    | (extract_lets -underBinder +onlyGivenNames -merge x; subst x)
    | with_reducible apply State.releaseBarriers_keeps
    | with_reducible apply State.settleQueue_keeps
    | with_reducible apply State.slotsCheck_keeps
    | with_reducible apply State.setSlot_keeps
    | with_reducible apply State.logRecord_keeps
    | intro _
    | split
    | simp only [Keeps.upd]

theorem State.freezeQueues_keeps {pq : List Instr} {s : State} {f : Nat → Bool} (hs : State.Keeps pq s) :
    State.Keeps pq (State.freezeQueues s f) := by
  unfold State.freezeQueues
  repeat' first
    | with_reducible assumption
    | intro _
    | split
    | simp only [Keeps.upd]

theorem State.resumeQueues_keeps {pq : List Instr} {s : State} {f : Nat → Bool} (hs : State.Keeps pq s) :
    State.Keeps pq (State.resumeQueues s f) := by
  unfold State.resumeQueues
  repeat' first
    | with_reducible assumption
    | (extract_lets -underBinder +onlyGivenNames -merge x; with_reducible refine Keeps.cut (pq := pq) x ?_ (fun _ => ?_); rotate_left; clear_value x; rotate_left; subst x)
    | (extract_lets -underBinder +onlyGivenNames -merge x; subst x)
    | with_reducible apply State.repost_keeps
    | intro _
    | split
    | simp only [Keeps.upd]

theorem execSubmissionDoorbell_keeps {pq : List Instr} {f : Fin 16} {q : Fin 4096} {v : Word} {s : State} (hs : State.Keeps pq s) :
    KeepsO pq (execSubmissionDoorbell f q v s) := by
  unfold execSubmissionDoorbell
  repeat' first
    | with_reducible assumption
    | with_reducible apply KeepsO.mk
    | with_reducible apply State.sqDoorbell_keeps
    | split

theorem execCompletionDoorbell_keeps {pq : List Instr} {f : Fin 16} {c : Fin 4096} {v : Word} {s : State} (hs : State.Keeps pq s) :
    KeepsO pq (execCompletionDoorbell f c v s) := by
  unfold execCompletionDoorbell
  repeat' first
    | with_reducible assumption
    | with_reducible apply KeepsO.mk
    | with_reducible apply State.cqDoorbell_keeps
    | split

theorem execEntryFetched_keeps {pq : List Instr} {f : Fin 16} {q : Fin 4096} {r : FetchResult} {s : State} (hs : State.Keeps pq s) :
    KeepsO pq (execEntryFetched f q r s) := by
  unfold execEntryFetched
  repeat' first
    | with_reducible assumption
    | with_reducible apply KeepsO.mk
    | with_reducible apply State.fetched_keeps

theorem execFetchCompletionTimeout_keeps {pq : List Instr} {f : Fin 16} {q : Fin 4096} {s : State} (hs : State.Keeps pq s) :
    KeepsO pq (execFetchCompletionTimeout f q s) := by
  unfold execFetchCompletionTimeout
  repeat' first
    | with_reducible assumption
    | with_reducible apply KeepsO.mk
    | with_reducible apply State.fetchTimeout_keeps

theorem execCompletionRepost_keeps {pq : List Instr} {f : Fin 16} {c : Fin 4096} {ok : Bool} {s : State} (hs : State.Keeps pq s) :
    KeepsO pq (execCompletionRepost f c ok s) := by
  unfold execCompletionRepost
  repeat' first
    | with_reducible assumption
    | with_reducible apply KeepsO.mk
    | with_reducible apply State.repost_keeps
    | split

theorem execAggTimeExpiry_keeps {pq : List Instr} {f : Fin 16} {c : Fin 4096} {s : State} (hs : State.Keeps pq s) :
    KeepsO pq (execAggTimeExpiry f c s) := by
  unfold execAggTimeExpiry
  repeat' first
    | with_reducible assumption
    | with_reducible apply KeepsO.mk
    | with_reducible apply State.aggExpire_keeps
    | split

theorem execQmgrDbErrRead_keeps {pq : List Instr} {s : State} (hs : State.Keeps pq s) :
    KeepsO pq (execQmgrDbErrRead s) := by
  unfold execQmgrDbErrRead
  repeat' first
    | with_reducible assumption
    | with_reducible apply KeepsO.mk
    | with_reducible apply State.setRd_keeps
    | split
    | simp only [Keeps.upd]

theorem State.setChan_keeps {pq : List Instr} {s : State} {c : Nat} {x : Channel} (hs : State.Keeps pq s) :
    State.Keeps pq (State.setChan s c x) := by
  unfold State.setChan
  repeat' first
    | with_reducible assumption
    | simp only [Keeps.upd]

theorem State.ringCsw_keeps {pq : List Instr} {s : State} {c : Nat} {csw : List Byte} (hs : State.Keeps pq s) :
    State.Keeps pq (State.ringCsw s c csw) := by
  unfold State.ringCsw
  repeat' first
    | with_reducible assumption
    | (extract_lets -underBinder +onlyGivenNames -merge x; with_reducible refine Keeps.cut (pq := pq) x ?_ (fun _ => ?_); rotate_left; clear_value x; rotate_left; subst x)
    | (extract_lets -underBinder +onlyGivenNames -merge x; subst x)
    | with_reducible apply State.setChan_keeps
    | with_reducible apply State.spaceWrite_keeps
    | with_reducible apply State.emit_keeps
    | split
    | simp only [Keeps.upd]

theorem State.postCsw_keeps {pq : List Instr} {s : State} {c kind : Nat} {detail : Byte} (hs : State.Keeps pq s) :
    State.Keeps pq (State.postCsw s c kind detail) := by
  unfold State.postCsw
  repeat' first
    | with_reducible assumption
    | (extract_lets -underBinder +onlyGivenNames -merge x; with_reducible refine Keeps.cut (pq := pq) x ?_ (fun _ => ?_); rotate_left; clear_value x; rotate_left; subst x)
    | (extract_lets -underBinder +onlyGivenNames -merge x; subst x)
    | with_reducible apply State.ringCsw_keeps
    | with_reducible apply State.setChan_keeps
    | with_reducible apply State.raise_keeps
    | simp only [Keeps.upd]

theorem State.finishAll_keeps {pq : List Instr} {s : State} {l : List Nat} {st : Status} (hs : State.Keeps pq s) :
    State.Keeps pq (State.finishAll s l st) := by
  unfold State.finishAll
  repeat' first
    | with_reducible assumption
    | with_reducible apply State.finish_keeps
    | (with_reducible refine forEach_keeps ?_ (fun _ _ _ => ?_))
    | intro _

theorem State.freeSubch_keeps {pq : List Instr} {s : State} {u : Nat} (hs : State.Keeps pq s) :
    State.Keeps pq (State.freeSubch s u) := by
  unfold State.freeSubch
  repeat' first
    | with_reducible assumption
    | (extract_lets -underBinder +onlyGivenNames -merge x; with_reducible refine Keeps.cut (pq := pq) x ?_ (fun _ => ?_); rotate_left; clear_value x; rotate_left; subst x)
    | (extract_lets -underBinder +onlyGivenNames -merge x; subst x)
    | with_reducible apply State.setChan_keeps
    | split
    | simp only [Keeps.upd]

theorem State.freeSubchsOf_keeps {pq : List Instr} {s : State} {c : Nat} (hs : State.Keeps pq s) :
    State.Keeps pq (State.freeSubchsOf s c) := by
  unfold State.freeSubchsOf
  repeat' first
    | with_reducible assumption
    | (extract_lets -underBinder +onlyGivenNames -merge x; with_reducible refine Keeps.cut (pq := pq) x ?_ (fun _ => ?_); rotate_left; clear_value x; rotate_left; subst x)
    | (extract_lets -underBinder +onlyGivenNames -merge x; subst x)
    | with_reducible apply State.freeSubch_keeps
    | (with_reducible refine forEach_keeps ?_ (fun _ _ _ => ?_))
    | intro _
    | split
    | simp only [Keeps.upd]

theorem State.endProgram_keeps {pq : List Instr} {s : State} {c : Nat} {r : CcwResult} {code : CcwCode} {detail : Byte} (hs : State.Keeps pq s) :
    State.Keeps pq (State.endProgram s c r code detail) := by
  unfold State.endProgram
  repeat' first
    | with_reducible assumption
    | (extract_lets -underBinder +onlyGivenNames -merge x; with_reducible refine Keeps.cut (pq := pq) x ?_ (fun _ => ?_); rotate_left; clear_value x; rotate_left; subst x)
    | (extract_lets -underBinder +onlyGivenNames -merge x; subst x)
    | with_reducible apply State.freeSubchsOf_keeps
    | with_reducible apply State.finishAll_keeps
    | with_reducible apply State.postCsw_keeps
    | with_reducible apply State.setChan_keeps
    | with_reducible apply State.finish_keeps
    | with_reducible apply idle_keeps
    | split
    | simp only [Keeps.upd]

theorem State.suspendNow_keeps {pq : List Instr} {s : State} {c : Nat} {k : SuspendKind} (hs : State.Keeps pq s) :
    State.Keeps pq (State.suspendNow s c k) := by
  unfold State.suspendNow
  repeat' first
    | with_reducible assumption
    | (extract_lets -underBinder +onlyGivenNames -merge x; with_reducible refine Keeps.cut (pq := pq) x ?_ (fun _ => ?_); rotate_left; clear_value x; rotate_left; subst x)
    | (extract_lets -underBinder +onlyGivenNames -merge x; subst x)
    | with_reducible apply State.finishAll_keeps
    | with_reducible apply State.postCsw_keeps
    | with_reducible apply State.setChan_keeps
    | split
    | simp only [Keeps.upd]

theorem State.endCcw_keeps {pq : List Instr} {s : State} {c : Nat} {r : CcwResult} {code : CcwCode} {detail : Byte} {moved : Nat} (hs : State.Keeps pq s) :
    State.Keeps pq (State.endCcw s c r code detail moved) := by
  unfold State.endCcw
  repeat' first
    | with_reducible assumption
    | (extract_lets -underBinder +onlyGivenNames -merge x; with_reducible refine Keeps.cut (pq := pq) x ?_ (fun _ => ?_); rotate_left; clear_value x; rotate_left; subst x)
    | (extract_lets -underBinder +onlyGivenNames -merge x; subst x)
    | with_reducible apply State.suspendNow_keeps
    | with_reducible apply State.endProgram_keeps
    | with_reducible apply State.freeSubchsOf_keeps
    | with_reducible apply State.setChan_keeps
    | split
    | simp only [Keeps.upd]

theorem State.failCcw_keeps {pq : List Instr} {s : State} {c : Nat} {r : CcwResult} {code : CcwCode} {detail : Nat} (hs : State.Keeps pq s) :
    State.Keeps pq (State.failCcw s c r code detail) := by
  unfold State.failCcw
  repeat' first
    | with_reducible assumption
    | with_reducible apply State.endCcw_keeps

theorem State.setEvents_keeps {pq : List Instr} {s : State} {c : Nat} {m : Word} (hs : State.Keeps pq s) :
    State.Keeps pq (State.setEvents s c m) := by
  unfold State.setEvents
  repeat' first
    | with_reducible assumption
    | (extract_lets -underBinder +onlyGivenNames -merge x; with_reducible refine Keeps.cut (pq := pq) x ?_ (fun _ => ?_); rotate_left; clear_value x; rotate_left; subst x)
    | (extract_lets -underBinder +onlyGivenNames -merge x; subst x)
    | with_reducible apply State.endCcw_keeps
    | with_reducible apply State.setChan_keeps
    | split
    | simp only [Keeps.upd]

theorem State.chanJobDone_keeps {pq : List Instr} {s : State} {c : Nat} {async : Bool} {st : Status} (hs : State.Keeps pq s) :
    State.Keeps pq (State.chanJobDone s c async st) := by
  unfold State.chanJobDone
  repeat' first
    | with_reducible assumption
    | (extract_lets -underBinder +onlyGivenNames -merge x; with_reducible refine Keeps.cut (pq := pq) x ?_ (fun _ => ?_); rotate_left; clear_value x; rotate_left; subst x)
    | (extract_lets -underBinder +onlyGivenNames -merge x; subst x)
    | with_reducible apply State.setEvents_keeps
    | with_reducible apply State.failCcw_keeps
    | with_reducible apply State.endCcw_keeps
    | with_reducible apply State.postCsw_keeps
    | with_reducible apply State.setChan_keeps
    | intro _
    | split
    | simp only [Keeps.upd]

theorem State.jobDone_keeps {pq : List Instr} {s : State} {o : JobOrigin} {st : Status} {r0 r1 : Nat} {detail : Option Nat} (hs : State.Keeps pq s) :
    State.Keeps pq (State.jobDone s o st r0 r1 detail) := by
  unfold State.jobDone
  repeat' first
    | with_reducible assumption
    | with_reducible apply State.chanJobDone_keeps
    | with_reducible apply State.finish_keeps
    | split
    | simp only [Keeps.upd]

theorem State.enterCcw_keeps {pq : List Instr} {s : State} {c : Nat} {b : List Byte} (hs : State.Keeps pq s) :
    State.Keeps pq (State.enterCcw s c b) := by
  unfold State.enterCcw
  repeat' first
    | with_reducible assumption
    | (rename_i e; with_reducible refine Keeps.ofSnd (pq := pq) e ?_ (fun _ => ?_) <;> clear e)
    | (rename_i e; with_reducible refine Keeps.ofFst (pq := pq) e ?_ (fun _ => ?_) <;> clear e)
    | (extract_lets -underBinder +onlyGivenNames -merge x; with_reducible refine Keeps.cut (pq := pq) x ?_ (fun _ => ?_); rotate_left; clear_value x; rotate_left; subst x)
    | (extract_lets -underBinder +onlyGivenNames -merge x; subst x)
    | with_reducible apply State.setChan_keeps
    | simp only [Keeps.upd]

theorem State.beginCcw_keepsE {pq : List Instr} {s : State} {c : Nat} {w : List Byte} {mine : Nat → Bool} {tv1} (e : State.beginCcw s c w mine = (Except.error tv1)) (hs : State.Keeps pq s) :
    State.Keeps pq tv1 := by
  unfold State.beginCcw at e
  (try dsimp only at e)
  repeat' (split at e)
  all_goals first
    | (cases e <;> (
       repeat' first
         | with_reducible assumption
         | (rename_i e; with_reducible refine Keeps.ofSnd (pq := pq) e ?_ (fun _ => ?_) <;> clear e)
         | (rename_i e; with_reducible refine Keeps.ofFst (pq := pq) e ?_ (fun _ => ?_) <;> clear e)
         | (extract_lets -underBinder +onlyGivenNames -merge x; with_reducible refine Keeps.cut (pq := pq) x ?_ (fun _ => ?_); rotate_left; clear_value x; rotate_left; subst x)
         | (extract_lets -underBinder +onlyGivenNames -merge x; subst x)
         | with_reducible apply State.enterCcw_keeps
         | with_reducible apply State.failCcw_keeps
         | with_reducible apply State.suspendNow_keeps
         | with_reducible apply State.postCsw_keeps
         | with_reducible apply State.setChan_keeps
         | intro _
         | split
         | simp only [Keeps.upd]
       done))
    | (
       repeat' first
         | with_reducible assumption
         | (rename_i e; with_reducible refine Keeps.ofSnd (pq := pq) e ?_ (fun _ => ?_) <;> clear e)
         | (rename_i e; with_reducible refine Keeps.ofFst (pq := pq) e ?_ (fun _ => ?_) <;> clear e)
         | (extract_lets -underBinder +onlyGivenNames -merge x; with_reducible refine Keeps.cut (pq := pq) x ?_ (fun _ => ?_); rotate_left; clear_value x; rotate_left; subst x)
         | (extract_lets -underBinder +onlyGivenNames -merge x; subst x)
         | with_reducible apply State.enterCcw_keeps
         | with_reducible apply State.failCcw_keeps
         | with_reducible apply State.suspendNow_keeps
         | with_reducible apply State.postCsw_keeps
         | with_reducible apply State.setChan_keeps
         | intro _
         | split
         | simp only [Keeps.upd]
       done)
theorem State.beginCcw_keepsE1 {pq : List Instr} {s : State} {c : Nat} {w : List Byte} {mine : Nat → Bool} {tv2 v3} (e : State.beginCcw s c w mine = (Except.ok (tv2, v3))) (hs : State.Keeps pq s) :
    State.Keeps pq tv2 := by
  unfold State.beginCcw at e
  (try dsimp only at e)
  repeat' (split at e)
  all_goals first
    | (cases e <;> (
       repeat' first
         | with_reducible assumption
         | (rename_i e; with_reducible refine Keeps.ofSnd (pq := pq) e ?_ (fun _ => ?_) <;> clear e)
         | (rename_i e; with_reducible refine Keeps.ofFst (pq := pq) e ?_ (fun _ => ?_) <;> clear e)
         | (extract_lets -underBinder +onlyGivenNames -merge x; with_reducible refine Keeps.cut (pq := pq) x ?_ (fun _ => ?_); rotate_left; clear_value x; rotate_left; subst x)
         | (extract_lets -underBinder +onlyGivenNames -merge x; subst x)
         | with_reducible apply State.enterCcw_keeps
         | with_reducible apply State.failCcw_keeps
         | with_reducible apply State.suspendNow_keeps
         | with_reducible apply State.postCsw_keeps
         | with_reducible apply State.setChan_keeps
         | intro _
         | split
         | simp only [Keeps.upd]
       done))
    | (
       repeat' first
         | with_reducible assumption
         | (rename_i e; with_reducible refine Keeps.ofSnd (pq := pq) e ?_ (fun _ => ?_) <;> clear e)
         | (rename_i e; with_reducible refine Keeps.ofFst (pq := pq) e ?_ (fun _ => ?_) <;> clear e)
         | (extract_lets -underBinder +onlyGivenNames -merge x; with_reducible refine Keeps.cut (pq := pq) x ?_ (fun _ => ?_); rotate_left; clear_value x; rotate_left; subst x)
         | (extract_lets -underBinder +onlyGivenNames -merge x; subst x)
         | with_reducible apply State.enterCcw_keeps
         | with_reducible apply State.failCcw_keeps
         | with_reducible apply State.suspendNow_keeps
         | with_reducible apply State.postCsw_keeps
         | with_reducible apply State.setChan_keeps
         | intro _
         | split
         | simp only [Keeps.upd]
       done)

theorem State.runCcw_keeps {pq : List Instr} {s : State} {c : Nat} {w : List Byte} {mine : Nat → Bool} {f : State → List Byte → State} (hs : State.Keeps pq s) (hf : ∀ (x0 : State) (x1 : List Byte), State.Keeps pq x0 → State.Keeps pq (f x0 x1)) :
    State.Keeps pq (State.runCcw s c w mine f) := by
  unfold State.runCcw
  repeat' first
    | with_reducible assumption
    | (rename_i e; with_reducible refine Keeps.ofSnd (pq := pq) e ?_ (fun _ => ?_) <;> clear e)
    | (rename_i e; with_reducible refine Keeps.ofFst (pq := pq) e ?_ (fun _ => ?_) <;> clear e)
    | with_reducible apply hf
    | with_reducible apply State.beginCcw_keepsP
    | (with_reducible refine State.beginCcw_keepsE (by with_reducible assumption) ?_)
    | (with_reducible refine State.beginCcw_keepsE1 (by with_reducible assumption) ?_)
    | split
    | simp only [Keeps.upd]

theorem State.ccwNop_keeps {pq : List Instr} {s : State} {c : Nat} {w : List Byte} (hs : State.Keeps pq s) :
    State.Keeps pq (State.ccwNop s c w) := by
  unfold State.ccwNop
  repeat' first
    | with_reducible assumption
    | with_reducible apply State.runCcw_keeps
    | with_reducible apply State.endCcw_keeps
    | intro _

theorem State.ccwTic_keeps {pq : List Instr} {s : State} {c : Nat} {w : List Byte} (hs : State.Keeps pq s) :
    State.Keeps pq (State.ccwTic s c w) := by
  unfold State.ccwTic
  repeat' first
    | with_reducible assumption
    | (extract_lets -underBinder +onlyGivenNames -merge x; with_reducible refine Keeps.cut (pq := pq) x ?_ (fun _ => ?_); rotate_left; clear_value x; rotate_left; subst x)
    | (extract_lets -underBinder +onlyGivenNames -merge x; subst x)
    | with_reducible apply State.runCcw_keeps
    | with_reducible apply State.failCcw_keeps
    | with_reducible apply State.suspendNow_keeps
    | with_reducible apply State.setChan_keeps
    | intro _
    | split
    | simp only [Keeps.upd]

theorem State.ccwWaitTick_keeps {pq : List Instr} {s : State} {c : Nat} {w : List Byte} (hs : State.Keeps pq s) :
    State.Keeps pq (State.ccwWaitTick s c w) := by
  unfold State.ccwWaitTick
  repeat' first
    | with_reducible assumption
    | (extract_lets -underBinder +onlyGivenNames -merge x; with_reducible refine Keeps.cut (pq := pq) x ?_ (fun _ => ?_); rotate_left; clear_value x; rotate_left; subst x)
    | (extract_lets -underBinder +onlyGivenNames -merge x; subst x)
    | with_reducible apply State.runCcw_keeps
    | with_reducible apply State.failCcw_keeps
    | with_reducible apply State.setChan_keeps
    | intro _
    | split
    | simp only [Keeps.upd]

theorem State.releaseTick_keeps {pq : List Instr} {s : State} {g : Fin 4} (hs : State.Keeps pq s) :
    State.Keeps pq (State.releaseTick s g) := by
  unfold State.releaseTick
  repeat' first
    | with_reducible assumption
    | with_reducible apply State.endCcw_keeps
    | with_reducible apply State.setChan_keeps
    | (with_reducible refine forEach_keeps ?_ (fun _ _ _ => ?_))
    | intro _
    | split
    | simp only [Keeps.upd]

theorem State.ccwWaitEvent_keeps {pq : List Instr} {s : State} {c : Nat} {w : List Byte} (hs : State.Keeps pq s) :
    State.Keeps pq (State.ccwWaitEvent s c w) := by
  unfold State.ccwWaitEvent
  repeat' first
    | with_reducible assumption
    | (extract_lets -underBinder +onlyGivenNames -merge x; with_reducible refine Keeps.cut (pq := pq) x ?_ (fun _ => ?_); rotate_left; clear_value x; rotate_left; subst x)
    | (extract_lets -underBinder +onlyGivenNames -merge x; subst x)
    | with_reducible apply State.runCcw_keeps
    | with_reducible apply State.failCcw_keeps
    | with_reducible apply State.endCcw_keeps
    | with_reducible apply State.setChan_keeps
    | intro _
    | split
    | simp only [Keeps.upd]

theorem State.waitEventTimeout_keeps {pq : List Instr} {s : State} {c : Nat} (hs : State.Keeps pq s) :
    State.Keeps pq (State.waitEventTimeout s c) := by
  unfold State.waitEventTimeout
  repeat' first
    | with_reducible assumption
    | with_reducible apply State.endCcw_keeps
    | with_reducible apply State.advanceToRun_keeps
    | split
    | simp only [Keeps.upd]

theorem State.ccwSetTimer_keeps {pq : List Instr} {s : State} {c : Nat} {w : List Byte} (hs : State.Keeps pq s) :
    State.Keeps pq (State.ccwSetTimer s c w) := by
  unfold State.ccwSetTimer
  repeat' first
    | with_reducible assumption
    | (extract_lets -underBinder +onlyGivenNames -merge x; with_reducible refine Keeps.cut (pq := pq) x ?_ (fun _ => ?_); rotate_left; clear_value x; rotate_left; subst x)
    | (extract_lets -underBinder +onlyGivenNames -merge x; subst x)
    | with_reducible apply State.runCcw_keeps
    | with_reducible apply State.failCcw_keeps
    | with_reducible apply State.endCcw_keeps
    | with_reducible apply State.setChan_keeps
    | intro _
    | split
    | simp only [Keeps.upd]

theorem State.timerExpire_keeps {pq : List Instr} {s : State} {c : Nat} (hs : State.Keeps pq s) :
    State.Keeps pq (State.timerExpire s c) := by
  unfold State.timerExpire
  repeat' first
    | with_reducible assumption
    | (extract_lets -underBinder +onlyGivenNames -merge x; with_reducible refine Keeps.cut (pq := pq) x ?_ (fun _ => ?_); rotate_left; clear_value x; rotate_left; subst x)
    | (extract_lets -underBinder +onlyGivenNames -merge x; subst x)
    | with_reducible apply State.setEvents_keeps
    | with_reducible apply State.setChan_keeps
    | with_reducible apply State.advanceToRun_keeps
    | split
    | simp only [Keeps.upd]

theorem State.ccwPost_keeps {pq : List Instr} {s : State} {c : Nat} {w : List Byte} (hs : State.Keeps pq s) :
    State.Keeps pq (State.ccwPost s c w) := by
  unfold State.ccwPost
  repeat' first
    | with_reducible assumption
    | (extract_lets -underBinder +onlyGivenNames -merge x; with_reducible refine Keeps.cut (pq := pq) x ?_ (fun _ => ?_); rotate_left; clear_value x; rotate_left; subst x)
    | (extract_lets -underBinder +onlyGivenNames -merge x; subst x)
    | with_reducible apply State.runCcw_keeps
    | with_reducible apply State.setEvents_keeps
    | with_reducible apply State.failCcw_keeps
    | with_reducible apply State.endCcw_keeps
    | intro _
    | split

theorem execCcwNop_keeps {pq : List Instr} {c : Fin 64} {w : List Byte} {s : State} (hs : State.Keeps pq s) :
    KeepsO pq (execCcwNop c w s) := by
  unfold execCcwNop
  repeat' first
    | with_reducible assumption
    | with_reducible apply KeepsO.mk
    | with_reducible apply State.ccwNop_keeps

theorem execCcwTic_keeps {pq : List Instr} {c : Fin 64} {w : List Byte} {s : State} (hs : State.Keeps pq s) :
    KeepsO pq (execCcwTic c w s) := by
  unfold execCcwTic
  repeat' first
    | with_reducible assumption
    | with_reducible apply KeepsO.mk
    | with_reducible apply State.ccwTic_keeps

theorem execCcwWaitTick_keeps {pq : List Instr} {c : Fin 64} {w : List Byte} {s : State} (hs : State.Keeps pq s) :
    KeepsO pq (execCcwWaitTick c w s) := by
  unfold execCcwWaitTick
  repeat' first
    | with_reducible assumption
    | with_reducible apply KeepsO.mk
    | with_reducible apply State.ccwWaitTick_keeps

theorem execCcwWaitEvent_keeps {pq : List Instr} {c : Fin 64} {w : List Byte} {s : State} (hs : State.Keeps pq s) :
    KeepsO pq (execCcwWaitEvent c w s) := by
  unfold execCcwWaitEvent
  repeat' first
    | with_reducible assumption
    | with_reducible apply KeepsO.mk
    | with_reducible apply State.ccwWaitEvent_keeps

theorem execWaitEventTimeout_keeps {pq : List Instr} {c : Fin 64} {s : State} (hs : State.Keeps pq s) :
    KeepsO pq (execWaitEventTimeout c s) := by
  unfold execWaitEventTimeout
  repeat' first
    | with_reducible assumption
    | with_reducible apply KeepsO.mk
    | with_reducible apply State.waitEventTimeout_keeps
    | split

theorem execCcwSetTimer_keeps {pq : List Instr} {c : Fin 64} {w : List Byte} {s : State} (hs : State.Keeps pq s) :
    KeepsO pq (execCcwSetTimer c w s) := by
  unfold execCcwSetTimer
  repeat' first
    | with_reducible assumption
    | with_reducible apply KeepsO.mk
    | with_reducible apply State.ccwSetTimer_keeps

theorem execChannelTimerExpiry_keeps {pq : List Instr} {c : Fin 64} {s : State} (hs : State.Keeps pq s) :
    KeepsO pq (execChannelTimerExpiry c s) := by
  unfold execChannelTimerExpiry
  repeat' first
    | with_reducible assumption
    | with_reducible apply KeepsO.mk
    | with_reducible apply State.timerExpire_keeps
    | split

theorem execCcwPost_keeps {pq : List Instr} {c : Fin 64} {w : List Byte} {s : State} (hs : State.Keeps pq s) :
    KeepsO pq (execCcwPost c w s) := by
  unfold execCcwPost
  repeat' first
    | with_reducible assumption
    | with_reducible apply KeepsO.mk
    | with_reducible apply State.ccwPost_keeps

theorem State.setShaper_keeps {pq : List Instr} {s : State} {k : Nat} {x : Shaper} (hs : State.Keeps pq s) :
    State.Keeps pq (State.setShaper s k x) := by
  unfold State.setShaper
  repeat' first
    | with_reducible assumption
    | simp only [Keeps.upd]

theorem State.refillShaper_keeps {pq : List Instr} {s : State} {k : Nat} (hs : State.Keeps pq s) :
    State.Keeps pq (State.refillShaper s k) := by
  unfold State.refillShaper
  repeat' first
    | with_reducible assumption
    | with_reducible apply State.setShaper_keeps
    | split

theorem State.enterWheel_keeps {pq : List Instr} {s : State} {k : Nat} (hs : State.Keeps pq s) :
    State.Keeps pq (State.enterWheel s k) := by
  unfold State.enterWheel
  repeat' first
    | with_reducible assumption
    | (extract_lets -underBinder +onlyGivenNames -merge x; with_reducible refine Keeps.cut (pq := pq) x ?_ (fun _ => ?_); rotate_left; clear_value x; rotate_left; subst x)
    | (extract_lets -underBinder +onlyGivenNames -merge x; subst x)
    | split
    | simp only [Keeps.upd]

theorem State.debitShaper_keeps {pq : List Instr} {s : State} {k bytes : Nat} (hs : State.Keeps pq s) :
    State.Keeps pq (State.debitShaper s k bytes) := by
  unfold State.debitShaper
  repeat' first
    | with_reducible assumption
    | (extract_lets -underBinder +onlyGivenNames -merge x; with_reducible refine Keeps.cut (pq := pq) x ?_ (fun _ => ?_); rotate_left; clear_value x; rotate_left; subst x)
    | (extract_lets -underBinder +onlyGivenNames -merge x; subst x)
    | with_reducible apply State.enterWheel_keeps
    | with_reducible apply State.setShaper_keeps
    | split
    | simp only [Keeps.upd]

theorem State.wheelServe_keeps {pq : List Instr} {s : State} {t : Nat} (hs : State.Keeps pq s) :
    State.Keeps pq (State.wheelServe s t) := by
  unfold State.wheelServe
  repeat' first
    | with_reducible assumption
    | (extract_lets -underBinder +onlyGivenNames -merge x; with_reducible refine Keeps.cut (pq := pq) x ?_ (fun _ => ?_); rotate_left; clear_value x; rotate_left; subst x)
    | (extract_lets -underBinder +onlyGivenNames -merge x; subst x)
    | with_reducible apply State.enterWheel_keeps
    | with_reducible apply State.refillShaper_keeps
    | with_reducible apply State.fault_keeps
    | (with_reducible refine forEach_keeps ?_ (fun _ _ _ => ?_))
    | intro _
    | split
    | simp only [Keeps.upd]

theorem State.setMeter_keeps {pq : List Instr} {s : State} {k : Nat} {x : Meter} (hs : State.Keeps pq s) :
    State.Keeps pq (State.setMeter s k x) := by
  unfold State.setMeter
  repeat' first
    | with_reducible assumption
    | simp only [Keeps.upd]

theorem State.meterFrame_keepsP {pq : List Instr} {s : State} {k : Nat} {c : Colour} {bytes : Nat} (hs : State.Keeps pq s) :
    State.Keeps pq (State.meterFrame s k c bytes).2 := by
  unfold State.meterFrame
  repeat' first
    | with_reducible assumption
    | (rename_i e; with_reducible refine Keeps.ofSnd (pq := pq) e ?_ (fun _ => ?_) <;> clear e)
    | (rename_i e; with_reducible refine Keeps.ofFst (pq := pq) e ?_ (fun _ => ?_) <;> clear e)
    | (extract_lets -underBinder +onlyGivenNames -merge x; with_reducible refine Keeps.cut (pq := pq) x ?_ (fun _ => ?_); rotate_left; clear_value x; rotate_left; subst x)
    | (extract_lets -underBinder +onlyGivenNames -merge x; subst x)
    | with_reducible apply State.setMeter_keeps
    | with_reducible apply State.raise_keeps
    | intro _
    | split
    | simp only [Keeps.upd]
theorem State.meterFrame_keepsE {pq : List Instr} {s : State} {k : Nat} {c : Colour} {bytes : Nat} {tv2 v1} (e : State.meterFrame s k c bytes = (v1, tv2)) (hs : State.Keeps pq s) :
    State.Keeps pq tv2 := by
  have h := State.meterFrame_keepsP (s := s) (k := k) (c := c) (bytes := bytes) hs 
  rw [e] at h; exact h

theorem State.flowMeter_keepsP {pq : List Instr} {s : State} {k bytes : Nat} (hs : State.Keeps pq s) :
    State.Keeps pq (State.flowMeter s k bytes).2 := by
  unfold State.flowMeter
  repeat' first
    | with_reducible assumption
    | (rename_i e; with_reducible refine Keeps.ofSnd (pq := pq) e ?_ (fun _ => ?_) <;> clear e)
    | (rename_i e; with_reducible refine Keeps.ofFst (pq := pq) e ?_ (fun _ => ?_) <;> clear e)
    | (extract_lets -underBinder +onlyGivenNames -merge x; with_reducible refine Keeps.cut (pq := pq) x ?_ (fun _ => ?_); rotate_left; clear_value x; rotate_left; subst x)
    | (extract_lets -underBinder +onlyGivenNames -merge x; subst x)
    | with_reducible apply State.meterFrame_keepsP
    | (with_reducible refine State.meterFrame_keepsE (by with_reducible assumption) ?_)
    | intro _
    | split
    | simp only [Keeps.upd]
theorem State.flowMeter_keepsE {pq : List Instr} {s : State} {k bytes : Nat} {tv2 v1} (e : State.flowMeter s k bytes = (v1, tv2)) (hs : State.Keeps pq s) :
    State.Keeps pq tv2 := by
  have h := State.flowMeter_keepsP (s := s) (k := k) (bytes := bytes) hs 
  rw [e] at h; exact h

theorem State.tenantMeter_keepsP {pq : List Instr} {s : State} {fn bytes : Nat} (hs : State.Keeps pq s) :
    State.Keeps pq (State.tenantMeter s fn bytes).2 := by
  unfold State.tenantMeter
  repeat' first
    | with_reducible assumption
    | (extract_lets -underBinder +onlyGivenNames -merge x; with_reducible refine Keeps.cut (pq := pq) x ?_ (fun _ => ?_); rotate_left; clear_value x; rotate_left; subst x)
    | (extract_lets -underBinder +onlyGivenNames -merge x; subst x)
    | with_reducible apply State.meterFrame_keepsP
    | (with_reducible refine State.meterFrame_keepsE (by with_reducible assumption) ?_)
    | intro _
    | split
theorem State.tenantMeter_keepsE {pq : List Instr} {s : State} {fn bytes : Nat} {tv2 v1} (e : State.tenantMeter s fn bytes = (v1, tv2)) (hs : State.Keeps pq s) :
    State.Keeps pq tv2 := by
  have h := State.tenantMeter_keepsP (s := s) (fn := fn) (bytes := bytes) hs 
  rw [e] at h; exact h

theorem State.sweep_keeps {pq : List Instr} {s : State} (hs : State.Keeps pq s) :
    State.Keeps pq (State.sweep s) := by
  unfold State.sweep
  repeat' first
    | with_reducible assumption
    | (extract_lets -underBinder +onlyGivenNames -merge x; with_reducible refine Keeps.cut (pq := pq) x ?_ (fun _ => ?_); rotate_left; clear_value x; rotate_left; subst x)
    | (extract_lets -underBinder +onlyGivenNames -merge x; subst x)
    | intro _
    | split
    | simp only [Keeps.upd]

theorem State.setGates_keeps {pq : List Instr} {s : State} {p : Nat} {x : PortGates} (hs : State.Keeps pq s) :
    State.Keeps pq (State.setGates s p x) := by
  unfold State.setGates
  repeat' first
    | with_reducible assumption
    | simp only [Keeps.upd]

theorem State.armGates_keeps {pq : List Instr} {s : State} {p : Nat} {l : GateList} (hs : State.Keeps pq s) :
    State.Keeps pq (State.armGates s p l) := by
  unfold State.armGates
  repeat' first
    | with_reducible assumption
    | (extract_lets -underBinder +onlyGivenNames -merge x; with_reducible refine Keeps.cut (pq := pq) x ?_ (fun _ => ?_); rotate_left; clear_value x; rotate_left; subst x)
    | (extract_lets -underBinder +onlyGivenNames -merge x; subst x)
    | with_reducible apply State.setGates_keeps
    | with_reducible apply State.raise_keeps
    | split
    | simp only [Keeps.upd]

theorem State.settleGates_keeps {pq : List Instr} {s : State} {p : Nat} (hs : State.Keeps pq s) :
    State.Keeps pq (State.settleGates s p) := by
  unfold State.settleGates
  repeat' first
    | with_reducible assumption
    | (rename_i e; with_reducible refine Keeps.ofSnd (pq := pq) e ?_ (fun _ => ?_) <;> clear e)
    | (rename_i e; with_reducible refine Keeps.ofFst (pq := pq) e ?_ (fun _ => ?_) <;> clear e)
    | (extract_lets -underBinder +onlyGivenNames -merge x; with_reducible refine Keeps.cut (pq := pq) x ?_ (fun _ => ?_); rotate_left; clear_value x; rotate_left; subst x)
    | (extract_lets -underBinder +onlyGivenNames -merge x; subst x)
    | with_reducible apply State.setGates_keeps
    | with_reducible apply State.raise_keeps
    | split
    | simp only [Keeps.upd]

theorem State.gateChange_keeps {pq : List Instr} {s : State} {p : Nat} (hs : State.Keeps pq s) :
    State.Keeps pq (State.gateChange s p) := by
  unfold State.gateChange
  repeat' first
    | with_reducible assumption
    | (rename_i e; with_reducible refine Keeps.ofSnd (pq := pq) e ?_ (fun _ => ?_) <;> clear e)
    | (rename_i e; with_reducible refine Keeps.ofFst (pq := pq) e ?_ (fun _ => ?_) <;> clear e)
    | (extract_lets -underBinder +onlyGivenNames -merge x; with_reducible refine Keeps.cut (pq := pq) x ?_ (fun _ => ?_); rotate_left; clear_value x; rotate_left; subst x)
    | (extract_lets -underBinder +onlyGivenNames -merge x; subst x)
    | with_reducible apply State.settleGates_keeps
    | with_reducible apply State.advanceToDts_keeps
    | split
    | simp only [Keeps.upd]

theorem State.gatesStepped_keeps {pq : List Instr} {s : State} (hs : State.Keeps pq s) :
    State.Keeps pq (State.gatesStepped s) := by
  unfold State.gatesStepped
  repeat' first
    | with_reducible assumption
    | (rename_i e; with_reducible refine Keeps.ofSnd (pq := pq) e ?_ (fun _ => ?_) <;> clear e)
    | (rename_i e; with_reducible refine Keeps.ofFst (pq := pq) e ?_ (fun _ => ?_) <;> clear e)
    | intro _
    | split
    | simp only [Keeps.upd]

theorem State.putShaper_keeps {pq : List Instr} {s : State} {k : Nat} {b : List Byte} (hs : State.Keeps pq s) :
    State.Keeps pq (State.putShaper s k b) := by
  unfold State.putShaper
  repeat' first
    | with_reducible assumption
    | (extract_lets -underBinder +onlyGivenNames -merge x; with_reducible refine Keeps.cut (pq := pq) x ?_ (fun _ => ?_); rotate_left; clear_value x; rotate_left; subst x)
    | (extract_lets -underBinder +onlyGivenNames -merge x; subst x)
    | with_reducible apply State.setShaper_keeps
    | split
    | simp only [Keeps.upd]

theorem State.putMeter_keeps {pq : List Instr} {s : State} {k : Nat} {b : List Byte} (hs : State.Keeps pq s) :
    State.Keeps pq (State.putMeter s k b) := by
  unfold State.putMeter
  repeat' first
    | with_reducible assumption
    | (extract_lets -underBinder +onlyGivenNames -merge x; with_reducible refine Keeps.cut (pq := pq) x ?_ (fun _ => ?_); rotate_left; clear_value x; rotate_left; subst x)
    | (extract_lets -underBinder +onlyGivenNames -merge x; subst x)
    | with_reducible apply State.setMeter_keeps
    | split
    | simp only [Keeps.upd]

theorem State.putGates_keeps {pq : List Instr} {s : State} {p : Nat} {l : GateList} (hs : State.Keeps pq s) :
    State.Keeps pq (State.putGates s p l) := by
  unfold State.putGates
  repeat' first
    | with_reducible assumption
    | with_reducible apply State.setGates_keeps
    | simp only [Keeps.upd]

theorem State.putTrf_keeps {pq : List Instr} {s : State} {table index : Nat} {b : List Byte} (hs : State.Keeps pq s) :
    State.Keeps pq (State.putTrf s table index b) := by
  unfold State.putTrf
  repeat' first
    | with_reducible assumption
    | with_reducible apply State.putGates_keeps
    | with_reducible apply State.putMeter_keeps
    | with_reducible apply State.putShaper_keeps
    | split
    | simp only [Keeps.upd]

theorem State.trfUnitReset_keeps {pq : List Instr} {s : State} (hs : State.Keeps pq s) :
    State.Keeps pq (State.trfUnitReset s) := by
  unfold State.trfUnitReset
  repeat' first
    | with_reducible assumption
    | (extract_lets -underBinder +onlyGivenNames -merge x; with_reducible refine Keeps.cut (pq := pq) x ?_ (fun _ => ?_); rotate_left; clear_value x; rotate_left; subst x)
    | (extract_lets -underBinder +onlyGivenNames -merge x; subst x)
    | with_reducible apply State.start_keeps
    | intro _
    | simp only [Keeps.upd]

theorem State.strikeLedgers_keeps {pq : List Instr} {s : State} {l : List (Nat × Nat)} (hs : State.Keeps pq s) :
    State.Keeps pq (State.strikeLedgers s l) := by
  unfold State.strikeLedgers
  simp only [Keeps.upd]
  with_reducible assumption

theorem State.trfStruck_keeps {pq : List Instr} {s : State} {table index : Nat} (hs : State.Keeps pq s) :
    State.Keeps pq (State.trfStruck s table index) := by
  unfold State.trfStruck
  repeat' first
    | with_reducible assumption
    | with_reducible apply State.strikeLedgers_keeps
    | (extract_lets -underBinder +onlyGivenNames -merge x; with_reducible refine Keeps.cut (pq := pq) x ?_ (fun _ => ?_); rotate_left; clear_value x; rotate_left; subst x)
    | (extract_lets -underBinder +onlyGivenNames -merge x; subst x)
    | with_reducible apply State.setGates_keeps
    | with_reducible apply State.setMeter_keeps
    | with_reducible apply State.setShaper_keeps
    | with_reducible apply State.start_keeps
    | split
    | simp only [Keeps.upd]

theorem execBucketSweep_keeps {pq : List Instr} {s : State} (hs : State.Keeps pq s) :
    KeepsO pq (execBucketSweep s) := by
  unfold execBucketSweep
  repeat' first
    | with_reducible assumption
    | with_reducible apply KeepsO.mk
    | with_reducible apply State.sweep_keeps
    | split

theorem execGateEntryChange_keeps {pq : List Instr} {p : Fin 17} {s : State} (hs : State.Keeps pq s) :
    KeepsO pq (execGateEntryChange p s) := by
  unfold execGateEntryChange
  repeat' first
    | with_reducible assumption
    | with_reducible apply KeepsO.mk
    | with_reducible apply State.gateChange_keeps
    | split

theorem execTrfGateDropRead_keeps {pq : List Instr} {p : Fin 17} {s : State} (hs : State.Keeps pq s) :
    KeepsO pq (execTrfGateDropRead p s) := by
  unfold execTrfGateDropRead
  repeat' first
    | with_reducible assumption
    | with_reducible apply KeepsO.mk
    | with_reducible apply State.setRd_keeps
    | split
    | simp only [Keeps.upd]

theorem execTrfRedDropRead_keeps {pq : List Instr} {s : State} (hs : State.Keeps pq s) :
    KeepsO pq (execTrfRedDropRead s) := by
  unfold execTrfRedDropRead
  repeat' first
    | with_reducible assumption
    | with_reducible apply KeepsO.mk
    | with_reducible apply State.setRd_keeps
    | split
    | simp only [Keeps.upd]

theorem State.setNext_keeps {pq : List Instr} {s : State} {g : Fin 4} {k : Int} (hs : State.Keeps pq s) :
    State.Keeps pq (State.setNext s g k) := by
  unfold State.setNext
  repeat' first
    | with_reducible assumption
    | simp only [Keeps.upd]

theorem State.overrun_keeps {pq : List Instr} {s : State} {fn : Nat} (hs : State.Keeps pq s) :
    State.Keeps pq (State.overrun s fn) := by
  unfold State.overrun
  repeat' first
    | with_reducible assumption
    | with_reducible apply State.raise_keeps
    | simp only [Keeps.upd]

theorem State.startGroup_keeps {pq : List Instr} {s : State} {g : Fin 4} (hs : State.Keeps pq s) :
    State.Keeps pq (State.startGroup s g) := by
  unfold State.startGroup
  repeat' first
    | with_reducible assumption
    | (rename_i e; with_reducible refine Keeps.ofSnd (pq := pq) e ?_ (fun _ => ?_) <;> clear e)
    | (rename_i e; with_reducible refine Keeps.ofFst (pq := pq) e ?_ (fun _ => ?_) <;> clear e)
    | (extract_lets -underBinder +onlyGivenNames -merge x; with_reducible refine Keeps.cut (pq := pq) x ?_ (fun _ => ?_); rotate_left; clear_value x; rotate_left; subst x)
    | (extract_lets -underBinder +onlyGivenNames -merge x; subst x)
    | simp only [Keeps.upd]

theorem State.lowMark_keeps {pq : List Instr} {s before : State} {p : Nat} (hs : State.Keeps pq s) (hbefore : State.Keeps pq before) :
    State.Keeps pq (State.lowMark s before p) := by
  unfold State.lowMark
  repeat' first
    | with_reducible assumption
    | (extract_lets -underBinder +onlyGivenNames -merge x; with_reducible refine Keeps.cut (pq := pq) x ?_ (fun _ => ?_); rotate_left; clear_value x; rotate_left; subst x)
    | (extract_lets -underBinder +onlyGivenNames -merge x; subst x)
    | with_reducible apply State.raise_keeps
    | split

theorem State.grant_keeps {pq : List Instr} {s : State} {b o : Nat} (hs : State.Keeps pq s) :
    State.Keeps pq (State.grant s b o) := by
  unfold State.grant
  repeat' first
    | with_reducible assumption
    | (rename_i e; with_reducible refine Keeps.ofSnd (pq := pq) e ?_ (fun _ => ?_) <;> clear e)
    | (rename_i e; with_reducible refine Keeps.ofFst (pq := pq) e ?_ (fun _ => ?_) <;> clear e)
    | (extract_lets -underBinder +onlyGivenNames -merge x; with_reducible refine Keeps.cut (pq := pq) x ?_ (fun _ => ?_); rotate_left; clear_value x; rotate_left; subst x)
    | (extract_lets -underBinder +onlyGivenNames -merge x; subst x)
    | with_reducible apply State.lowMark_keeps
    | simp only [Keeps.upd]

theorem State.requestFrom_keepsP {pq : List Instr} {s : State} {o first : Nat} {a0 : Nat} {a1 : Nat} (hs : State.Keeps pq s) :
    State.Keeps pq (State.requestFrom s o first a0 a1).2 := by
  induction a0 generalizing s o first a1 with
  | zero =>
    unfold State.requestFrom
    repeat' first
      | with_reducible assumption
      | (extract_lets -underBinder +onlyGivenNames -merge x; with_reducible refine Keeps.cut (pq := pq) x ?_ (fun _ => ?_); rotate_left; clear_value x; rotate_left; subst x)
      | (extract_lets -underBinder +onlyGivenNames -merge x; subst x)
      | with_reducible apply State.grant_keeps
      | intro _
      | split
      | simp only [Keeps.upd]

  | succ n ih =>
    unfold State.requestFrom
    repeat' first
      | with_reducible assumption
      | (extract_lets -underBinder +onlyGivenNames -merge x; with_reducible refine Keeps.cut (pq := pq) x ?_ (fun _ => ?_); rotate_left; clear_value x; rotate_left; subst x)
      | (extract_lets -underBinder +onlyGivenNames -merge x; subst x)
      | with_reducible apply ih
      | (rename_i h; injection h with h1 h2; subst h1 h2)
      | with_reducible apply State.grant_keeps
      | intro _
      | split
      | simp only [Keeps.upd]
theorem State.requestFrom_keepsE {pq : List Instr} {s : State} {o first : Nat} {a0 : Nat} {a1 : Nat} {tv2 v1} (e : State.requestFrom s o first a0 a1 = (v1, tv2)) (hs : State.Keeps pq s) :
    State.Keeps pq tv2 := by
  have h := State.requestFrom_keepsP (s := s) (o := o) (first := first) (a0 := a0) (a1 := a1) hs 
  rw [e] at h; exact h

theorem State.request_keepsP {pq : List Instr} {s : State} {p o : Nat} (hs : State.Keeps pq s) :
    State.Keeps pq (State.request s p o).2 := by
  unfold State.request
  repeat' first
    | with_reducible assumption
    | (rename_i e; with_reducible refine Keeps.ofSnd (pq := pq) e ?_ (fun _ => ?_) <;> clear e)
    | (rename_i e; with_reducible refine Keeps.ofFst (pq := pq) e ?_ (fun _ => ?_) <;> clear e)
    | with_reducible apply State.raise_keeps
    | with_reducible apply State.requestFrom_keepsP
    | (with_reducible refine State.requestFrom_keepsE (by with_reducible assumption) ?_)
    | intro _
    | split
    | simp only [Keeps.upd]
theorem State.request_keepsE {pq : List Instr} {s : State} {p o : Nat} {tv2 v1} (e : State.request s p o = (v1, tv2)) (hs : State.Keeps pq s) :
    State.Keeps pq tv2 := by
  have h := State.request_keepsP (s := s) (p := p) (o := o) hs 
  rw [e] at h; exact h

theorem State.takeBuf_keeps {pq : List Instr} {s : State} {b : Nat} (hs : State.Keeps pq s) :
    State.Keeps pq (State.takeBuf s b) := by
  unfold State.takeBuf
  repeat' first
    | with_reducible assumption
    | with_reducible apply State.count_keeps
    | with_reducible apply State.fault_keeps
    | with_reducible apply State.raise_keeps
    | split
    | simp only [Keeps.upd]

theorem State.dropBuf_keeps {pq : List Instr} {s : State} {b : Nat} (hs : State.Keeps pq s) :
    State.Keeps pq (State.dropBuf s b) := by
  unfold State.dropBuf
  repeat' first
    | with_reducible assumption
    | (rename_i e; with_reducible refine Keeps.ofSnd (pq := pq) e ?_ (fun _ => ?_) <;> clear e)
    | (rename_i e; with_reducible refine Keeps.ofFst (pq := pq) e ?_ (fun _ => ?_) <;> clear e)
    | (extract_lets -underBinder +onlyGivenNames -merge x; with_reducible refine Keeps.cut (pq := pq) x ?_ (fun _ => ?_); rotate_left; clear_value x; rotate_left; subst x)
    | (extract_lets -underBinder +onlyGivenNames -merge x; subst x)
    | with_reducible apply State.count_keeps
    | with_reducible apply State.fault_keeps
    | with_reducible apply State.raise_keeps
    | split
    | simp only [Keeps.upd]

theorem State.dropOpt_keeps {pq : List Instr} {s : State} {a0 : Option Nat} (hs : State.Keeps pq s) :
    State.Keeps pq (State.dropOpt s a0) := by
  unfold State.dropOpt
  repeat' first
    | with_reducible assumption
    | with_reducible apply State.dropBuf_keeps
    | split

theorem State.earmark_keepsE {pq : List Instr} {s : State} {p o n : Nat} {tv1} (e : State.earmark s p o n = (some tv1)) (hs : State.Keeps pq s) :
    State.Keeps pq tv1 := by
  unfold State.earmark at e
  (try dsimp only at e)
  repeat' (split at e)
  all_goals first
    | (cases e <;> (
       repeat' first
         | with_reducible assumption
         | (extract_lets -underBinder +onlyGivenNames -merge x; with_reducible refine Keeps.cut (pq := pq) x ?_ (fun _ => ?_); rotate_left; clear_value x; rotate_left; subst x)
         | (extract_lets -underBinder +onlyGivenNames -merge x; subst x)
         | intro _
         | split
         | simp only [Keeps.upd]
       done))
    | (
       repeat' first
         | with_reducible assumption
         | (extract_lets -underBinder +onlyGivenNames -merge x; with_reducible refine Keeps.cut (pq := pq) x ?_ (fun _ => ?_); rotate_left; clear_value x; rotate_left; subst x)
         | (extract_lets -underBinder +onlyGivenNames -merge x; subst x)
         | intro _
         | split
         | simp only [Keeps.upd]
       done)

theorem State.unearmark_keeps {pq : List Instr} {s : State} {p o n : Nat} (hs : State.Keeps pq s) :
    State.Keeps pq (State.unearmark s p o n) := by
  unfold State.unearmark
  repeat' first
    | with_reducible assumption
    | simp only [Keeps.upd]

theorem State.poolFresh_keeps {pq : List Instr} {s : State} {p : Nat} (hs : State.Keeps pq s) :
    State.Keeps pq (State.poolFresh s p) := by
  unfold State.poolFresh
  repeat' first
    | with_reducible assumption
    | intro _
    | simp only [Keeps.upd]

theorem execBufferRequest_keeps {pq : List Instr} {pool : Fin 16} {owner : Fin 32} {s : State} (hs : State.Keeps pq s) :
    KeepsO pq (execBufferRequest pool owner s) := by
  unfold execBufferRequest
  repeat' first
    | with_reducible assumption
    | (rename_i e; with_reducible refine Keeps.ofSnd (pq := pq) e ?_ (fun _ => ?_) <;> clear e)
    | (rename_i e; with_reducible refine Keeps.ofFst (pq := pq) e ?_ (fun _ => ?_) <;> clear e)
    | with_reducible apply KeepsO.mk
    | with_reducible apply State.setRd_keeps
    | with_reducible apply State.request_keepsP
    | (with_reducible refine State.request_keepsE (by with_reducible assumption) ?_)
    | split
    | simp only [Keeps.upd]

theorem execBpmPoolRefusedRead_keeps {pq : List Instr} {n : Fin 16} {s : State} (hs : State.Keeps pq s) :
    KeepsO pq (execBpmPoolRefusedRead n s) := by
  unfold execBpmPoolRefusedRead
  repeat' first
    | with_reducible assumption
    | with_reducible apply KeepsO.mk
    | with_reducible apply State.setRd_keeps
    | split
    | simp only [Keeps.upd]

theorem execBpmPoolFallbacksRead_keeps {pq : List Instr} {n : Fin 16} {s : State} (hs : State.Keeps pq s) :
    KeepsO pq (execBpmPoolFallbacksRead n s) := by
  unfold execBpmPoolFallbacksRead
  repeat' first
    | with_reducible assumption
    | with_reducible apply KeepsO.mk
    | with_reducible apply State.setRd_keeps
    | split
    | simp only [Keeps.upd]

theorem State.setPort_keeps {pq : List Instr} {s : State} {p : Nat} {x : PortSt} (hs : State.Keeps pq s) :
    State.Keeps pq (State.setPort s p x) := by
  unfold State.setPort
  repeat' first
    | with_reducible assumption
    | with_reducible apply State.raise_keeps
    | split
    | simp only [Keeps.upd]

theorem State.count_keeps {pq : List Instr} {s : State} {p c n : Nat} (hs : State.Keeps pq s) :
    State.Keeps pq (State.count s p c n) := by
  unfold State.count
  repeat' first
    | with_reducible assumption
    | simp only [Keeps.upd]

theorem State.cellsCheck_keeps {pq : List Instr} {s : State} (hs : State.Keeps pq s) :
    State.Keeps pq (State.cellsCheck s) := by
  unfold State.cellsCheck
  repeat' first
    | with_reducible assumption
    | (extract_lets -underBinder +onlyGivenNames -merge x; with_reducible refine Keeps.cut (pq := pq) x ?_ (fun _ => ?_); rotate_left; clear_value x; rotate_left; subst x)
    | (extract_lets -underBinder +onlyGivenNames -merge x; subst x)
    | with_reducible apply State.raise_keeps
    | split
    | simp only [Keeps.upd]

theorem State.releaseCells_keeps {pq : List Instr} {s : State} {c : Copy} (hs : State.Keeps pq s) :
    State.Keeps pq (State.releaseCells s c) := by
  unfold State.releaseCells
  repeat' first
    | with_reducible assumption
    | simp only [Keeps.upd]

theorem State.frameDone_keeps {pq : List Instr} {s : State} {f : Frame} (hs : State.Keeps pq s) :
    State.Keeps pq (State.frameDone s f) := by
  unfold State.frameDone
  repeat' first
    | with_reducible assumption
    | (rename_i e; with_reducible refine Keeps.ofSnd (pq := pq) e ?_ (fun _ => ?_) <;> clear e)
    | (rename_i e; with_reducible refine Keeps.ofFst (pq := pq) e ?_ (fun _ => ?_) <;> clear e)
    | (extract_lets -underBinder +onlyGivenNames -merge x; with_reducible refine Keeps.cut (pq := pq) x ?_ (fun _ => ?_); rotate_left; clear_value x; rotate_left; subst x)
    | (extract_lets -underBinder +onlyGivenNames -merge x; subst x)
    | with_reducible apply State.jobDone_keeps
    | intro _
    | split
    | simp only [Keeps.upd]

theorem State.putFrame_keeps {pq : List Instr} {s : State} {f : Frame} (hs : State.Keeps pq s) :
    State.Keeps pq (State.putFrame s f) := by
  unfold State.putFrame
  repeat' first
    | with_reducible assumption
    | (extract_lets -underBinder +onlyGivenNames -merge x; with_reducible refine Keeps.cut (pq := pq) x ?_ (fun _ => ?_); rotate_left; clear_value x; rotate_left; subst x)
    | (extract_lets -underBinder +onlyGivenNames -merge x; subst x)
    | with_reducible apply State.frameDone_keeps
    | intro _
    | split
    | simp only [Keeps.upd]

theorem State.dropCopies_keepsP {pq : List Instr} {s : State} {f : Frame} {sel : Copy → Bool} {c : Nat} (hs : State.Keeps pq s) :
    State.Keeps pq (State.dropCopies s f sel c).1 := by
  unfold State.dropCopies
  repeat' first
    | with_reducible assumption
    | (extract_lets -underBinder +onlyGivenNames -merge x; with_reducible refine Keeps.cut (pq := pq) x ?_ (fun _ => ?_); rotate_left; clear_value x; rotate_left; subst x)
    | (extract_lets -underBinder +onlyGivenNames -merge x; subst x)
    | with_reducible apply State.releaseCells_keeps
    | with_reducible apply State.count_keeps
    | (with_reducible refine forEach_keeps ?_ (fun _ _ _ => ?_))
    | intro _
    | simp only [Keeps.upd]
theorem State.dropCopies_keepsE {pq : List Instr} {s : State} {f : Frame} {sel : Copy → Bool} {c : Nat} {tv1 v2} (e : State.dropCopies s f sel c = (tv1, v2)) (hs : State.Keeps pq s) :
    State.Keeps pq tv1 := by
  have h := State.dropCopies_keepsP (s := s) (f := f) (sel := sel) (c := c) hs 
  rw [e] at h; exact h

theorem State.nextCell_keepsP {pq : List Instr} {s : State} {f : Frame} (hs : State.Keeps pq s) :
    State.Keeps pq (State.nextCell s f).1 := by
  unfold State.nextCell
  repeat' first
    | with_reducible assumption
    | (rename_i e; with_reducible refine Keeps.ofSnd (pq := pq) e ?_ (fun _ => ?_) <;> clear e)
    | (rename_i e; with_reducible refine Keeps.ofFst (pq := pq) e ?_ (fun _ => ?_) <;> clear e)
    | (extract_lets -underBinder +onlyGivenNames -merge x; with_reducible refine Keeps.cut (pq := pq) x ?_ (fun _ => ?_); rotate_left; clear_value x; rotate_left; subst x)
    | (extract_lets -underBinder +onlyGivenNames -merge x; subst x)
    | with_reducible apply State.cellsCheck_keeps
    | with_reducible apply State.dropCopies_keepsP
    | (with_reducible refine State.dropCopies_keepsE (by with_reducible assumption) ?_)
    | (with_reducible refine foldl_keeps ?_ (fun _ _ _ => ?_))
    | intro _
    | split
    | simp only [Keeps.upd]
theorem State.nextCell_keepsE {pq : List Instr} {s : State} {f : Frame} {tv1 v2} (e : State.nextCell s f = (tv1, v2)) (hs : State.Keeps pq s) :
    State.Keeps pq tv1 := by
  have h := State.nextCell_keepsP (s := s) (f := f) hs 
  rw [e] at h; exact h

theorem State.takeCells_keepsP {pq : List Instr} {s : State} {f : Frame} {a0 : Nat} (hs : State.Keeps pq s) :
    State.Keeps pq (State.takeCells s f a0).1 := by
  induction a0 generalizing s f with
  | zero =>
    unfold State.takeCells
    repeat' first
      | with_reducible assumption
      | (rename_i e; with_reducible refine Keeps.ofSnd (pq := pq) e ?_ (fun _ => ?_) <;> clear e)
      | (rename_i e; with_reducible refine Keeps.ofFst (pq := pq) e ?_ (fun _ => ?_) <;> clear e)
      | (extract_lets -underBinder +onlyGivenNames -merge x; with_reducible refine Keeps.cut (pq := pq) x ?_ (fun _ => ?_); rotate_left; clear_value x; rotate_left; subst x)
      | (extract_lets -underBinder +onlyGivenNames -merge x; subst x)
      | with_reducible apply State.nextCell_keepsP
      | (with_reducible refine State.nextCell_keepsE (by with_reducible assumption) ?_)
      | intro _
      | split

  | succ n ih =>
    unfold State.takeCells
    repeat' first
      | with_reducible assumption
      | (rename_i e; with_reducible refine Keeps.ofSnd (pq := pq) e ?_ (fun _ => ?_) <;> clear e)
      | (rename_i e; with_reducible refine Keeps.ofFst (pq := pq) e ?_ (fun _ => ?_) <;> clear e)
      | (extract_lets -underBinder +onlyGivenNames -merge x; with_reducible refine Keeps.cut (pq := pq) x ?_ (fun _ => ?_); rotate_left; clear_value x; rotate_left; subst x)
      | (extract_lets -underBinder +onlyGivenNames -merge x; subst x)
      | with_reducible apply ih
      | (rename_i h; injection h with h1 h2; subst h1 h2)
      | with_reducible apply State.nextCell_keepsP
      | (with_reducible refine State.nextCell_keepsE (by with_reducible assumption) ?_)
      | intro _
      | split
theorem State.takeCells_keepsE {pq : List Instr} {s : State} {f : Frame} {a0 : Nat} {tv1 v2} (e : State.takeCells s f a0 = (tv1, v2)) (hs : State.Keeps pq s) :
    State.Keeps pq tv1 := by
  have h := State.takeCells_keepsP (s := s) (f := f) (a0 := a0) hs 
  rw [e] at h; exact h

theorem State.admitFrame_keepsP {pq : List Instr} {s : State} {f : Frame} {n : Nat} (hs : State.Keeps pq s) :
    State.Keeps pq (State.admitFrame s f n).1 := by
  unfold State.admitFrame
  repeat' first
    | with_reducible assumption
    | (rename_i e; with_reducible refine Keeps.ofSnd (pq := pq) e ?_ (fun _ => ?_) <;> clear e)
    | (rename_i e; with_reducible refine Keeps.ofFst (pq := pq) e ?_ (fun _ => ?_) <;> clear e)
    | (extract_lets -underBinder +onlyGivenNames -merge x; with_reducible refine Keeps.cut (pq := pq) x ?_ (fun _ => ?_); rotate_left; clear_value x; rotate_left; subst x)
    | (extract_lets -underBinder +onlyGivenNames -merge x; subst x)
    | with_reducible apply State.takeCells_keepsP
    | (with_reducible refine State.takeCells_keepsE (by with_reducible assumption) ?_)
    | with_reducible apply State.dropCopies_keepsP
    | (with_reducible refine State.dropCopies_keepsE (by with_reducible assumption) ?_)
    | intro _
theorem State.admitFrame_keepsE {pq : List Instr} {s : State} {f : Frame} {n : Nat} {tv1 v2} (e : State.admitFrame s f n = (tv1, v2)) (hs : State.Keeps pq s) :
    State.Keeps pq tv1 := by
  have h := State.admitFrame_keepsP (s := s) (f := f) (n := n) hs 
  rw [e] at h; exact h

theorem State.setMac_keeps {pq : List Instr} {s : State} {i : Nat} {e : Option MacEntry} (hs : State.Keeps pq s) :
    State.Keeps pq (State.setMac s i e) := by
  unfold State.setMac
  repeat' first
    | with_reducible assumption
    | simp only [Keeps.upd]

theorem State.learn_keeps {pq : List Instr} {s : State} {p vid mac : Nat} (hs : State.Keeps pq s) :
    State.Keeps pq (State.learn s p vid mac) := by
  unfold State.learn
  repeat' first
    | with_reducible assumption
    | (rename_i e; with_reducible refine Keeps.ofSnd (pq := pq) e ?_ (fun _ => ?_) <;> clear e)
    | (rename_i e; with_reducible refine Keeps.ofFst (pq := pq) e ?_ (fun _ => ?_) <;> clear e)
    | with_reducible apply State.setMac_keeps
    | with_reducible apply State.count_keeps
    | with_reducible apply State.raise_keeps
    | split
    | simp only [Keeps.upd]

theorem State.store_keeps {pq : List Instr} {s : State} {f : Frame} {n : Nat} (hs : State.Keeps pq s) :
    State.Keeps pq (State.store s f n) := by
  unfold State.store
  repeat' first
    | with_reducible assumption
    | (rename_i e; with_reducible refine Keeps.ofSnd (pq := pq) e ?_ (fun _ => ?_) <;> clear e)
    | (rename_i e; with_reducible refine Keeps.ofFst (pq := pq) e ?_ (fun _ => ?_) <;> clear e)
    | (extract_lets -underBinder +onlyGivenNames -merge x; with_reducible refine Keeps.cut (pq := pq) x ?_ (fun _ => ?_); rotate_left; clear_value x; rotate_left; subst x)
    | (extract_lets -underBinder +onlyGivenNames -merge x; subst x)
    | with_reducible apply State.putFrame_keeps
    | with_reducible apply State.admitFrame_keepsP
    | (with_reducible refine State.admitFrame_keepsE (by with_reducible assumption) ?_)
    | simp only [Keeps.upd]

theorem State.frameHead_keeps {pq : List Instr} {s : State} {p : Nat} {head0 : List Byte} (hs : State.Keeps pq s) :
    State.Keeps pq (State.frameHead s p head0) := by
  unfold State.frameHead
  repeat' first
    | with_reducible assumption
    | (extract_lets -underBinder +onlyGivenNames -merge x; with_reducible refine Keeps.cut (pq := pq) x ?_ (fun _ => ?_); rotate_left; clear_value x; rotate_left; subst x)
    | (extract_lets -underBinder +onlyGivenNames -merge x; subst x)
    | with_reducible apply State.store_keeps
    | with_reducible apply State.learn_keeps
    | with_reducible apply State.setMac_keeps
    | with_reducible apply State.count_keeps
    | with_reducible apply State.raise_keeps
    | intro _
    | split
    | simp only [Keeps.upd]

theorem State.setBind_keeps {pq : List Instr} {s : State} {b : Nat} {r : BindRun} (hs : State.Keeps pq s) :
    State.Keeps pq (State.setBind s b r) := by
  unfold State.setBind
  repeat' first
    | with_reducible assumption
    | simp only [Keeps.upd]

theorem State.endUnit_keeps {pq : List Instr} {s : State} {b : Nat} {noMarker busFail : Bool} (hs : State.Keeps pq s) :
    State.Keeps pq (State.endUnit s b noMarker busFail) := by
  unfold State.endUnit
  repeat' first
    | with_reducible assumption
    | (extract_lets -underBinder +onlyGivenNames -merge x; with_reducible refine Keeps.cut (pq := pq) x ?_ (fun _ => ?_); rotate_left; clear_value x; rotate_left; subst x)
    | (extract_lets -underBinder +onlyGivenNames -merge x; subst x)
    | with_reducible apply State.setBind_keeps
    | with_reducible apply State.setEvents_keeps
    | with_reducible apply State.spaceWrite_keeps
    | with_reducible apply State.fault_keeps
    | with_reducible apply State.raise_keeps
    | with_reducible apply idle_keeps
    | split
    | simp only [Keeps.upd]

theorem State.beginUnit_keeps {pq : List Instr} {s : State} {b : Nat} {k : Rtp} {gap : Bool} {head : Nat} (hs : State.Keeps pq s) :
    State.Keeps pq (State.beginUnit s b k gap head) := by
  unfold State.beginUnit
  repeat' first
    | with_reducible assumption
    | (extract_lets -underBinder +onlyGivenNames -merge x; with_reducible refine Keeps.cut (pq := pq) x ?_ (fun _ => ?_); rotate_left; clear_value x; rotate_left; subst x)
    | (extract_lets -underBinder +onlyGivenNames -merge x; subst x)
    | with_reducible apply State.setBind_keeps
    | with_reducible apply State.raise_keeps
    | split
    | simp only [Keeps.upd]

theorem State.addPacket_keeps {pq : List Instr} {s : State} {b : Nat} {k : Rtp} {gap media : Bool} {stamp : DWord} (hs : State.Keeps pq s) :
    State.Keeps pq (State.addPacket s b k gap media stamp) := by
  unfold State.addPacket
  repeat' first
    | with_reducible assumption
    | (rename_i e; with_reducible refine Keeps.ofSnd (pq := pq) e ?_ (fun _ => ?_) <;> clear e)
    | (rename_i e; with_reducible refine Keeps.ofFst (pq := pq) e ?_ (fun _ => ?_) <;> clear e)
    | (extract_lets -underBinder +onlyGivenNames -merge x; with_reducible refine Keeps.cut (pq := pq) x ?_ (fun _ => ?_); rotate_left; clear_value x; rotate_left; subst x)
    | (extract_lets -underBinder +onlyGivenNames -merge x; subst x)
    | with_reducible apply State.setBind_keeps
    | split
    | simp only [Keeps.upd]

theorem State.takePacket_keeps {pq : List Instr} {s : State} {b : Nat} {body : List Byte} {stamp : DWord} {media busFail : Bool} {hostHead : Nat} (hs : State.Keeps pq s) :
    State.Keeps pq (State.takePacket s b body stamp media busFail hostHead) := by
  unfold State.takePacket
  repeat' first
    | with_reducible assumption
    | (extract_lets -underBinder +onlyGivenNames -merge x; with_reducible refine Keeps.cut (pq := pq) x ?_ (fun _ => ?_); rotate_left; clear_value x; rotate_left; subst x)
    | (extract_lets -underBinder +onlyGivenNames -merge x; subst x)
    | with_reducible apply State.addPacket_keeps
    | with_reducible apply State.beginUnit_keeps
    | with_reducible apply State.endUnit_keeps
    | with_reducible apply State.setBind_keeps
    | with_reducible apply State.devRead_keeps
    | split
    | simp only [Keeps.upd]

theorem State.reclass_keepsP {pq : List Instr} {s : State} {f : Frame} {tc : Nat} (hs : State.Keeps pq s) :
    State.Keeps pq (State.reclass s f tc).1 := by
  unfold State.reclass
  repeat' first
    | with_reducible assumption
    | (extract_lets -underBinder +onlyGivenNames -merge x; with_reducible refine Keeps.cut (pq := pq) x ?_ (fun _ => ?_); rotate_left; clear_value x; rotate_left; subst x)
    | (extract_lets -underBinder +onlyGivenNames -merge x; subst x)
    | with_reducible apply State.releaseCells_keeps
    | (with_reducible refine forEach_keeps ?_ (fun _ _ _ => ?_))
    | intro _
    | simp only [Keeps.upd]
theorem State.reclass_keepsE {pq : List Instr} {s : State} {f : Frame} {tc : Nat} {tv1 v2} (e : State.reclass s f tc = (tv1, v2)) (hs : State.Keeps pq s) :
    State.Keeps pq tv1 := by
  have h := State.reclass_keepsP (s := s) (f := f) (tc := tc) hs 
  rw [e] at h; exact h

theorem State.frameWhole_keeps {pq : List Instr} {s : State} {f : Frame} {bad : Bool} {t : TailFacts} (hs : State.Keeps pq s) :
    State.Keeps pq (State.frameWhole s f bad t) := by
  unfold State.frameWhole
  repeat' first
    | with_reducible assumption
    | (rename_i e; with_reducible refine Keeps.ofSnd (pq := pq) e ?_ (fun _ => ?_) <;> clear e)
    | (rename_i e; with_reducible refine Keeps.ofFst (pq := pq) e ?_ (fun _ => ?_) <;> clear e)
    | (extract_lets -underBinder +onlyGivenNames -merge x; with_reducible refine Keeps.cut (pq := pq) x ?_ (fun _ => ?_); rotate_left; clear_value x; rotate_left; subst x)
    | (extract_lets -underBinder +onlyGivenNames -merge x; subst x)
    | with_reducible apply State.takePacket_keeps
    | with_reducible apply State.putFrame_keeps
    | with_reducible apply State.releaseCells_keeps
    | with_reducible apply State.count_keeps
    | with_reducible apply State.raise_keeps
    | with_reducible apply State.reclass_keepsP
    | (with_reducible refine State.reclass_keepsE (by with_reducible assumption) ?_)
    | with_reducible apply State.dropCopies_keepsP
    | (with_reducible refine State.dropCopies_keepsE (by with_reducible assumption) ?_)
    | with_reducible apply State.flowMeter_keepsP
    | (with_reducible refine State.flowMeter_keepsE (by with_reducible assumption) ?_)
    | (with_reducible refine forEach_keeps ?_ (fun _ _ _ => ?_))
    | intro _
    | split
    | simp only [Keeps.upd]

theorem State.frameTail_keeps {pq : List Instr} {s : State} {p : Nat} {t : TailFacts} (hs : State.Keeps pq s) :
    State.Keeps pq (State.frameTail s p t) := by
  unfold State.frameTail
  repeat' first
    | with_reducible assumption
    | (rename_i e; with_reducible refine Keeps.ofSnd (pq := pq) e ?_ (fun _ => ?_) <;> clear e)
    | (rename_i e; with_reducible refine Keeps.ofFst (pq := pq) e ?_ (fun _ => ?_) <;> clear e)
    | (extract_lets -underBinder +onlyGivenNames -merge x; with_reducible refine Keeps.cut (pq := pq) x ?_ (fun _ => ?_); rotate_left; clear_value x; rotate_left; subst x)
    | (extract_lets -underBinder +onlyGivenNames -merge x; subst x)
    | with_reducible apply State.frameWhole_keeps
    | with_reducible apply State.count_keeps
    | with_reducible apply State.fault_keeps
    | with_reducible apply State.takeCells_keepsP
    | (with_reducible refine State.takeCells_keepsE (by with_reducible assumption) ?_)
    | split
    | simp only [Keeps.upd]

theorem State.cutReception_keeps {pq : List Instr} {s : State} {p : Nat} (hs : State.Keeps pq s) :
    State.Keeps pq (State.cutReception s p) := by
  unfold State.cutReception
  repeat' first
    | with_reducible assumption
    | (rename_i e; with_reducible refine Keeps.ofSnd (pq := pq) e ?_ (fun _ => ?_) <;> clear e)
    | (rename_i e; with_reducible refine Keeps.ofFst (pq := pq) e ?_ (fun _ => ?_) <;> clear e)
    | with_reducible apply State.frameWhole_keeps
    | with_reducible apply State.count_keeps
    | split
    | simp only [Keeps.upd]

theorem State.dropUnfit_keeps {pq : List Instr} {s : State} {p : Nat} {a0 : Nat} (hs : State.Keeps pq s) :
    State.Keeps pq (State.dropUnfit s p a0) := by
  induction a0 generalizing s p with
  | zero =>
    unfold State.dropUnfit
    repeat' first
      | with_reducible assumption
      | (rename_i e; with_reducible refine Keeps.ofSnd (pq := pq) e ?_ (fun _ => ?_) <;> clear e)
      | (rename_i e; with_reducible refine Keeps.ofFst (pq := pq) e ?_ (fun _ => ?_) <;> clear e)
      | (extract_lets -underBinder +onlyGivenNames -merge x; with_reducible refine Keeps.cut (pq := pq) x ?_ (fun _ => ?_); rotate_left; clear_value x; rotate_left; subst x)
      | (extract_lets -underBinder +onlyGivenNames -merge x; subst x)
      | with_reducible apply State.putFrame_keeps
      | with_reducible apply State.raise_keeps
      | with_reducible apply State.dropCopies_keepsP
      | (with_reducible refine State.dropCopies_keepsE (by with_reducible assumption) ?_)
      | intro _
      | split
      | simp only [Keeps.upd]

  | succ n ih =>
    unfold State.dropUnfit
    repeat' first
      | with_reducible assumption
      | (rename_i e; with_reducible refine Keeps.ofSnd (pq := pq) e ?_ (fun _ => ?_) <;> clear e)
      | (rename_i e; with_reducible refine Keeps.ofFst (pq := pq) e ?_ (fun _ => ?_) <;> clear e)
      | (extract_lets -underBinder +onlyGivenNames -merge x; with_reducible refine Keeps.cut (pq := pq) x ?_ (fun _ => ?_); rotate_left; clear_value x; rotate_left; subst x)
      | (extract_lets -underBinder +onlyGivenNames -merge x; subst x)
      | with_reducible apply ih
      | (rename_i h; injection h with h1 h2; subst h1 h2)
      | with_reducible apply State.putFrame_keeps
      | with_reducible apply State.raise_keeps
      | with_reducible apply State.dropCopies_keepsP
      | (with_reducible refine State.dropCopies_keepsE (by with_reducible assumption) ?_)
      | intro _
      | split
      | simp only [Keeps.upd]

theorem State.startCopy_keeps {pq : List Instr} {s : State} {f : Frame} {k : Copy} (hs : State.Keeps pq s) :
    State.Keeps pq (State.startCopy s f k) := by
  unfold State.startCopy
  repeat' first
    | with_reducible assumption
    | (rename_i e; with_reducible refine Keeps.ofSnd (pq := pq) e ?_ (fun _ => ?_) <;> clear e)
    | (rename_i e; with_reducible refine Keeps.ofFst (pq := pq) e ?_ (fun _ => ?_) <;> clear e)
    | (extract_lets -underBinder +onlyGivenNames -merge x; with_reducible refine Keeps.cut (pq := pq) x ?_ (fun _ => ?_); rotate_left; clear_value x; rotate_left; subst x)
    | (extract_lets -underBinder +onlyGivenNames -merge x; subst x)
    | with_reducible apply State.putFrame_keeps
    | with_reducible apply State.count_keeps
    | intro _
    | split
    | simp only [Keeps.upd]

theorem State.egressReady_keeps {pq : List Instr} {s : State} {p : Nat} (hs : State.Keeps pq s) :
    State.Keeps pq (State.egressReady s p) := by
  unfold State.egressReady
  repeat' first
    | with_reducible assumption
    | with_reducible apply State.dropUnfit_keeps
    | with_reducible apply State.refillShaper_keeps
    | (with_reducible refine forEach_keeps ?_ (fun _ _ _ => ?_))
    | intro _
    | split

theorem State.egressSelect_keeps {pq : List Instr} {s : State} {p : Nat} (hs : State.Keeps pq s) :
    State.Keeps pq (State.egressSelect s p) := by
  unfold State.egressSelect
  repeat' first
    | with_reducible assumption
    | (rename_i e; with_reducible refine Keeps.ofSnd (pq := pq) e ?_ (fun _ => ?_) <;> clear e)
    | (rename_i e; with_reducible refine Keeps.ofFst (pq := pq) e ?_ (fun _ => ?_) <;> clear e)
    | (extract_lets -underBinder +onlyGivenNames -merge x; with_reducible refine Keeps.cut (pq := pq) x ?_ (fun _ => ?_); rotate_left; clear_value x; rotate_left; subst x)
    | (extract_lets -underBinder +onlyGivenNames -merge x; subst x)
    | with_reducible apply State.egressReady_keeps
    | with_reducible apply State.startCopy_keeps
    | split
    | simp only [Keeps.upd]

theorem State.copyEnd_keeps {pq : List Instr} {s : State} {p : Nat} {media : Bool} (hs : State.Keeps pq s) :
    State.Keeps pq (State.copyEnd s p media) := by
  unfold State.copyEnd
  repeat' first
    | with_reducible assumption
    | (rename_i e; with_reducible refine Keeps.ofSnd (pq := pq) e ?_ (fun _ => ?_) <;> clear e)
    | (rename_i e; with_reducible refine Keeps.ofFst (pq := pq) e ?_ (fun _ => ?_) <;> clear e)
    | (extract_lets -underBinder +onlyGivenNames -merge x; with_reducible refine Keeps.cut (pq := pq) x ?_ (fun _ => ?_); rotate_left; clear_value x; rotate_left; subst x)
    | (extract_lets -underBinder +onlyGivenNames -merge x; subst x)
    | with_reducible apply State.putFrame_keeps
    | with_reducible apply State.releaseCells_keeps
    | with_reducible apply State.count_keeps
    | with_reducible apply State.debitShaper_keeps
    | with_reducible apply State.raise_keeps
    | with_reducible apply State.emit_keeps
    | intro _
    | split
    | simp only [Keeps.upd]

theorem State.setSendQ_keeps {pq : List Instr} {s : State} {i : Nat} {q : Option SendQueue} (hs : State.Keeps pq s) :
    State.Keeps pq (State.setSendQ s i q) := by
  unfold State.setSendQ
  repeat' first
    | with_reducible assumption
    | simp only [Keeps.upd]

theorem State.sendFails_keeps {pq : List Instr} {s : State} {x : Sender} {st : Status} {detail : Option Nat} (hs : State.Keeps pq s) :
    State.Keeps pq (State.sendFails s x st detail) := by
  unfold State.sendFails
  repeat' first
    | with_reducible assumption
    | (rename_i e; with_reducible refine Keeps.ofSnd (pq := pq) e ?_ (fun _ => ?_) <;> clear e)
    | (rename_i e; with_reducible refine Keeps.ofFst (pq := pq) e ?_ (fun _ => ?_) <;> clear e)
    | with_reducible apply State.jobDone_keeps
    | intro _
    | split
    | simp only [Keeps.upd]

theorem State.sendGone_keeps {pq : List Instr} {s : State} {x : SendFrame} {st : Status} (hs : State.Keeps pq s) :
    State.Keeps pq (State.sendGone s x st) := by
  unfold State.sendGone
  repeat' first
    | with_reducible assumption
    | with_reducible apply State.sendFails_keeps
    | with_reducible apply State.dropOpt_keeps
    | intro _
    | split
    | simp only [Keeps.upd]

theorem State.enterSwitch_keeps {pq : List Instr} {s : State} {q : SendQueue} {x : SendFrame} (hs : State.Keeps pq s) :
    State.Keeps pq (State.enterSwitch s q x) := by
  unfold State.enterSwitch
  repeat' first
    | with_reducible assumption
    | (rename_i e; with_reducible refine Keeps.ofSnd (pq := pq) e ?_ (fun _ => ?_) <;> clear e)
    | (rename_i e; with_reducible refine Keeps.ofFst (pq := pq) e ?_ (fun _ => ?_) <;> clear e)
    | (extract_lets -underBinder +onlyGivenNames -merge x; with_reducible refine Keeps.cut (pq := pq) x ?_ (fun _ => ?_); rotate_left; clear_value x; rotate_left; subst x)
    | (extract_lets -underBinder +onlyGivenNames -merge x; subst x)
    | with_reducible apply State.sendFails_keeps
    | with_reducible apply State.store_keeps
    | with_reducible apply State.count_keeps
    | with_reducible apply State.tenantMeter_keepsP
    | (with_reducible refine State.tenantMeter_keepsE (by with_reducible assumption) ?_)
    | with_reducible apply State.drawFree_keepsP
    | (with_reducible refine State.drawFree_keepsE (by with_reducible assumption) ?_)
    | intro _
    | split
    | simp only [Keeps.upd]

theorem State.settleSendQ_keeps {pq : List Instr} {s : State} {i : Nat} (hs : State.Keeps pq s) :
    State.Keeps pq (State.settleSendQ s i) := by
  unfold State.settleSendQ
  repeat' first
    | with_reducible assumption
    | with_reducible apply State.setSendQ_keeps
    | split
    | simp only [Keeps.upd]

theorem State.releaseSends_keeps {pq : List Instr} {s : State} {i : Nat} {a0 : Nat} (hs : State.Keeps pq s) :
    State.Keeps pq (State.releaseSends s i a0) := by
  induction a0 generalizing s i with
  | zero =>
    unfold State.releaseSends
    repeat' first
      | with_reducible assumption
      | (extract_lets -underBinder +onlyGivenNames -merge x; with_reducible refine Keeps.cut (pq := pq) x ?_ (fun _ => ?_); rotate_left; clear_value x; rotate_left; subst x)
      | (extract_lets -underBinder +onlyGivenNames -merge x; subst x)
      | with_reducible apply State.settleSendQ_keeps
      | with_reducible apply State.dropOpt_keeps
      | with_reducible apply State.enterSwitch_keeps
      | with_reducible apply State.setSendQ_keeps
      | with_reducible apply State.debitShaper_keeps
      | with_reducible apply State.refillShaper_keeps
      | intro _
      | split
      | simp only [Keeps.upd]

  | succ n ih =>
    unfold State.releaseSends
    repeat' first
      | with_reducible assumption
      | (extract_lets -underBinder +onlyGivenNames -merge x; with_reducible refine Keeps.cut (pq := pq) x ?_ (fun _ => ?_); rotate_left; clear_value x; rotate_left; subst x)
      | (extract_lets -underBinder +onlyGivenNames -merge x; subst x)
      | with_reducible apply ih
      | (rename_i h; injection h with h1 h2; subst h1 h2)
      | with_reducible apply State.settleSendQ_keeps
      | with_reducible apply State.dropOpt_keeps
      | with_reducible apply State.enterSwitch_keeps
      | with_reducible apply State.setSendQ_keeps
      | with_reducible apply State.debitShaper_keeps
      | with_reducible apply State.refillShaper_keeps
      | intro _
      | split
      | simp only [Keeps.upd]

theorem State.runSendQ_keeps {pq : List Instr} {s : State} {i : Nat} (hs : State.Keeps pq s) :
    State.Keeps pq (State.runSendQ s i) := by
  unfold State.runSendQ
  repeat' first
    | with_reducible assumption
    | with_reducible apply State.releaseSends_keeps
    | split
    | simp only [Keeps.upd]

theorem State.runSendQs_keeps {pq : List Instr} {s : State} (hs : State.Keeps pq s) :
    State.Keeps pq (State.runSendQs s) := by
  unfold State.runSendQs
  repeat' first
    | with_reducible assumption
    | with_reducible apply State.runSendQ_keeps
    | (with_reducible refine forEach_keeps ?_ (fun _ _ _ => ?_))
    | intro _

theorem State.countSendMiss_keeps {pq : List Instr} {s : State} {i fn : Nat} (hs : State.Keeps pq s) :
    State.Keeps pq (State.countSendMiss s i fn) := by
  unfold State.countSendMiss
  repeat' first
    | with_reducible assumption
    | (rename_i e; with_reducible refine Keeps.ofSnd (pq := pq) e ?_ (fun _ => ?_) <;> clear e)
    | (rename_i e; with_reducible refine Keeps.ofFst (pq := pq) e ?_ (fun _ => ?_) <;> clear e)
    | with_reducible apply State.setSendQ_keeps
    | with_reducible apply State.overrun_keeps
    | intro _
    | split
    | simp only [Keeps.upd]

theorem State.missSends_keeps {pq : List Instr} {s : State} {i : Nat} {k : Int} (hs : State.Keeps pq s) :
    State.Keeps pq (State.missSends s i k) := by
  unfold State.missSends
  repeat' first
    | with_reducible assumption
    | (rename_i e; with_reducible refine Keeps.ofSnd (pq := pq) e ?_ (fun _ => ?_) <;> clear e)
    | (rename_i e; with_reducible refine Keeps.ofFst (pq := pq) e ?_ (fun _ => ?_) <;> clear e)
    | (extract_lets -underBinder +onlyGivenNames -merge x; with_reducible refine Keeps.cut (pq := pq) x ?_ (fun _ => ?_); rotate_left; clear_value x; rotate_left; subst x)
    | (extract_lets -underBinder +onlyGivenNames -merge x; subst x)
    | with_reducible apply State.countSendMiss_keeps
    | with_reducible apply State.settleSendQ_keeps
    | with_reducible apply State.sendGone_keeps
    | with_reducible apply State.setSendQ_keeps
    | (with_reducible refine forEach_keeps ?_ (fun _ _ _ => ?_))
    | intro _
    | split
    | simp only [Keeps.upd]

theorem State.placeFrame_keeps {pq : List Instr} {s : State} {i : Nat} {x : SendFrame} (hs : State.Keeps pq s) :
    State.Keeps pq (State.placeFrame s i x) := by
  unfold State.placeFrame
  repeat' first
    | with_reducible assumption
    | with_reducible apply State.runSendQ_keeps
    | with_reducible apply State.setSendQ_keeps
    | split
    | simp only [Keeps.upd]

theorem State.dropLearned_keeps {pq : List Instr} {s : State} {sel : MacEntry → Bool} (hs : State.Keeps pq s) :
    State.Keeps pq (State.dropLearned s sel) := by
  unfold State.dropLearned
  repeat' first
    | with_reducible assumption
    | intro _
    | split
    | simp only [Keeps.upd]

theorem State.dropPort_keeps {pq : List Instr} {s : State} {p : Nat} (hs : State.Keeps pq s) :
    State.Keeps pq (State.dropPort s p) := by
  unfold State.dropPort
  repeat' first
    | with_reducible assumption
    | (rename_i e; with_reducible refine Keeps.ofSnd (pq := pq) e ?_ (fun _ => ?_) <;> clear e)
    | (rename_i e; with_reducible refine Keeps.ofFst (pq := pq) e ?_ (fun _ => ?_) <;> clear e)
    | (extract_lets -underBinder +onlyGivenNames -merge x; with_reducible refine Keeps.cut (pq := pq) x ?_ (fun _ => ?_); rotate_left; clear_value x; rotate_left; subst x)
    | (extract_lets -underBinder +onlyGivenNames -merge x; subst x)
    | with_reducible apply State.putFrame_keeps
    | with_reducible apply State.dropCopies_keepsP
    | (with_reducible refine State.dropCopies_keepsE (by with_reducible assumption) ?_)
    | (with_reducible refine forEach_keeps ?_ (fun _ _ _ => ?_))
    | intro _
    | split
    | simp only [Keeps.upd]

theorem State.leaveUp_keeps {pq : List Instr} {s : State} {p : Nat} {x : PortSt} (hs : State.Keeps pq s) :
    State.Keeps pq (State.leaveUp s p x) := by
  unfold State.leaveUp
  repeat' first
    | with_reducible assumption
    | (extract_lets -underBinder +onlyGivenNames -merge x; with_reducible refine Keeps.cut (pq := pq) x ?_ (fun _ => ?_); rotate_left; clear_value x; rotate_left; subst x)
    | (extract_lets -underBinder +onlyGivenNames -merge x; subst x)
    | with_reducible apply State.dropPort_keeps
    | with_reducible apply State.dropLearned_keeps
    | with_reducible apply State.cutReception_keeps
    | with_reducible apply State.setPort_keeps
    | with_reducible apply State.fault_keeps
    | intro _
    | split
    | simp only [Keeps.upd]

theorem State.portStart_keeps {pq : List Instr} {s : State} {p : Nat} (hs : State.Keeps pq s) :
    State.Keeps pq (State.portStart s p) := by
  unfold State.portStart
  repeat' first
    | with_reducible assumption
    | (extract_lets -underBinder +onlyGivenNames -merge x; with_reducible refine Keeps.cut (pq := pq) x ?_ (fun _ => ?_); rotate_left; clear_value x; rotate_left; subst x)
    | (extract_lets -underBinder +onlyGivenNames -merge x; subst x)
    | with_reducible apply State.leaveUp_keeps
    | split
    | simp only [Keeps.upd]

theorem State.portReconfigured_keeps {pq : List Instr} {s : State} {p oldCfg : Nat} (hs : State.Keeps pq s) :
    State.Keeps pq (State.portReconfigured s p oldCfg) := by
  unfold State.portReconfigured
  repeat' first
    | with_reducible assumption
    | (extract_lets -underBinder +onlyGivenNames -merge x; with_reducible refine Keeps.cut (pq := pq) x ?_ (fun _ => ?_); rotate_left; clear_value x; rotate_left; subst x)
    | (extract_lets -underBinder +onlyGivenNames -merge x; subst x)
    | with_reducible apply State.portStart_keeps
    | with_reducible apply State.leaveUp_keeps
    | split

theorem State.laneRetired_keeps {pq : List Instr} {s : State} {n : Nat} (hs : State.Keeps pq s) :
    State.Keeps pq (State.laneRetired s n) := by
  unfold State.laneRetired
  repeat' first
    | with_reducible assumption
    | (extract_lets -underBinder +onlyGivenNames -merge x; with_reducible refine Keeps.cut (pq := pq) x ?_ (fun _ => ?_); rotate_left; clear_value x; rotate_left; subst x)
    | (extract_lets -underBinder +onlyGivenNames -merge x; subst x)
    | with_reducible apply State.leaveUp_keeps
    | with_reducible apply State.raise_keeps
    | (with_reducible refine forEach_keeps ?_ (fun _ _ _ => ?_))
    | intro _
    | split

theorem State.laneReturned_keeps {pq : List Instr} {s : State} {n : Nat} (hs : State.Keeps pq s) :
    State.Keeps pq (State.laneReturned s n) := by
  unfold State.laneReturned
  repeat' first
    | with_reducible assumption
    | with_reducible apply State.leaveUp_keeps
    | (with_reducible refine forEach_keeps ?_ (fun _ _ _ => ?_))
    | intro _
    | split

theorem State.portsDown_keeps {pq : List Instr} {s : State} {l : List Nat} (hs : State.Keeps pq s) :
    State.Keeps pq (State.portsDown s l) := by
  unfold State.portsDown
  repeat' first
    | with_reducible assumption
    | with_reducible apply State.leaveUp_keeps
    | (with_reducible refine forEach_keeps ?_ (fun _ _ _ => ?_))
    | intro _
    | split
    | simp only [Keeps.upd]

theorem State.swcUnitReset_keeps {pq : List Instr} {s : State} (hs : State.Keeps pq s) :
    State.Keeps pq (State.swcUnitReset s) := by
  unfold State.swcUnitReset
  repeat' first
    | with_reducible assumption
    | (extract_lets -underBinder +onlyGivenNames -merge x; with_reducible refine Keeps.cut (pq := pq) x ?_ (fun _ => ?_); rotate_left; clear_value x; rotate_left; subst x)
    | (extract_lets -underBinder +onlyGivenNames -merge x; subst x)
    | with_reducible apply State.dropPort_keeps
    | with_reducible apply State.dropLearned_keeps
    | with_reducible apply State.cutReception_keeps
    | (with_reducible refine forEach_keeps ?_ (fun _ _ _ => ?_))
    | intro _

theorem State.portLock_keeps {pq : List Instr} {s : State} {p : Nat} (hs : State.Keeps pq s) :
    State.Keeps pq (State.portLock s p) := by
  unfold State.portLock
  repeat' first
    | with_reducible assumption
    | with_reducible apply State.setPort_keeps
    | with_reducible apply State.setReg_keeps
    | intro _
    | split
    | simp only [Keeps.upd]

theorem State.trainingRetry_keeps {pq : List Instr} {s : State} {p : Nat} (hs : State.Keeps pq s) :
    State.Keeps pq (State.trainingRetry s p) := by
  unfold State.trainingRetry
  repeat' first
    | with_reducible assumption
    | (extract_lets -underBinder +onlyGivenNames -merge x; with_reducible refine Keeps.cut (pq := pq) x ?_ (fun _ => ?_); rotate_left; clear_value x; rotate_left; subst x)
    | (extract_lets -underBinder +onlyGivenNames -merge x; subst x)
    | with_reducible apply State.advanceTo_keeps
    | split
    | simp only [Keeps.upd]

theorem State.downRetrain_keeps {pq : List Instr} {s : State} {p : Nat} (hs : State.Keeps pq s) :
    State.Keeps pq (State.downRetrain s p) := by
  unfold State.downRetrain
  repeat' first
    | with_reducible assumption
    | with_reducible apply State.leaveUp_keeps
    | with_reducible apply State.advanceTo_keeps
    | split

theorem State.agingPass_keeps {pq : List Instr} {s : State} (hs : State.Keeps pq s) :
    State.Keeps pq (State.agingPass s) := by
  unfold State.agingPass
  repeat' first
    | with_reducible assumption
    | (extract_lets -underBinder +onlyGivenNames -merge x; with_reducible refine Keeps.cut (pq := pq) x ?_ (fun _ => ?_); rotate_left; clear_value x; rotate_left; subst x)
    | (extract_lets -underBinder +onlyGivenNames -merge x; subst x)
    | with_reducible apply State.dropLearned_keeps
    | with_reducible apply State.advanceTo_keeps
    | intro _
    | split
    | simp only [Keeps.upd]

theorem State.putMac_keepsP {pq : List Instr} {s : State} {b : List Byte} (hs : State.Keeps pq s) :
    State.Keeps pq (State.putMac s b).1 := by
  unfold State.putMac
  repeat' first
    | with_reducible assumption
    | (rename_i e; with_reducible refine Keeps.ofSnd (pq := pq) e ?_ (fun _ => ?_) <;> clear e)
    | (rename_i e; with_reducible refine Keeps.ofFst (pq := pq) e ?_ (fun _ => ?_) <;> clear e)
    | (extract_lets -underBinder +onlyGivenNames -merge x; with_reducible refine Keeps.cut (pq := pq) x ?_ (fun _ => ?_); rotate_left; clear_value x; rotate_left; subst x)
    | (extract_lets -underBinder +onlyGivenNames -merge x; subst x)
    | with_reducible apply State.setMac_keeps
    | intro _
    | split
    | simp only [Keeps.upd]
theorem State.putMac_keepsE {pq : List Instr} {s : State} {b : List Byte} {tv1 v2} (e : State.putMac s b = (tv1, v2)) (hs : State.Keeps pq s) :
    State.Keeps pq tv1 := by
  have h := State.putMac_keepsP (s := s) (b := b) hs 
  rw [e] at h; exact h

theorem State.putBinding_keeps {pq : List Instr} {s : State} {i : Nat} {b : List Byte} (hs : State.Keeps pq s) :
    State.Keeps pq (State.putBinding s i b) := by
  unfold State.putBinding
  repeat' first
    | with_reducible assumption
    | (extract_lets -underBinder +onlyGivenNames -merge x; with_reducible refine Keeps.cut (pq := pq) x ?_ (fun _ => ?_); rotate_left; clear_value x; rotate_left; subst x)
    | (extract_lets -underBinder +onlyGivenNames -merge x; subst x)
    | with_reducible apply State.setBind_keeps
    | split
    | simp only [Keeps.upd]

theorem State.putSwc_keepsP {pq : List Instr} {s : State} {table index : Nat} {b : List Byte} (hs : State.Keeps pq s) :
    State.Keeps pq (State.putSwc s table index b).1 := by
  unfold State.putSwc
  repeat' first
    | with_reducible assumption
    | with_reducible apply State.putBinding_keeps
    | with_reducible apply State.putMac_keepsP
    | (with_reducible refine State.putMac_keepsE (by with_reducible assumption) ?_)
    | intro _
    | split
    | simp only [Keeps.upd]
theorem State.putSwc_keepsE {pq : List Instr} {s : State} {table index : Nat} {b : List Byte} {tv1 v2} (e : State.putSwc s table index b = (tv1, v2)) (hs : State.Keeps pq s) :
    State.Keeps pq tv1 := by
  have h := State.putSwc_keepsP (s := s) (table := table) (index := index) (b := b) hs 
  rw [e] at h; exact h

theorem State.swcStruck_keeps {pq : List Instr} {s : State} {table index : Nat} (hs : State.Keeps pq s) :
    State.Keeps pq (State.swcStruck s table index) := by
  unfold State.swcStruck
  repeat' first
    | with_reducible assumption
    | with_reducible apply State.setMac_keeps
    | intro _
    | split
    | simp only [Keeps.upd]

theorem execFrameHeadLookup_keeps {pq : List Instr} {p : Fin 17} {head : List Byte} {s : State} (hs : State.Keeps pq s) :
    KeepsO pq (execFrameHeadLookup p head s) := by
  unfold execFrameHeadLookup
  repeat' first
    | with_reducible assumption
    | with_reducible apply KeepsO.mk
    | with_reducible apply State.frameHead_keeps

theorem execEgressSelect_keeps {pq : List Instr} {p : Fin 28} {s : State} (hs : State.Keeps pq s) :
    KeepsO pq (execEgressSelect p s) := by
  unfold execEgressSelect
  repeat' first
    | with_reducible assumption
    | with_reducible apply KeepsO.mk
    | with_reducible apply State.egressSelect_keeps

theorem execMacAgingPass_keeps {pq : List Instr} {s : State} (hs : State.Keeps pq s) :
    KeepsO pq (execMacAgingPass s) := by
  unfold execMacAgingPass
  repeat' first
    | with_reducible assumption
    | with_reducible apply KeepsO.mk
    | with_reducible apply State.agingPass_keeps

theorem execPortLock_keeps {pq : List Instr} {p : Fin 17} {s : State} (hs : State.Keeps pq s) :
    KeepsO pq (execPortLock p s) := by
  unfold execPortLock
  repeat' first
    | with_reducible assumption
    | with_reducible apply KeepsO.mk
    | with_reducible apply State.portLock_keeps

theorem execTrainingRetry_keeps {pq : List Instr} {p : Fin 17} {s : State} (hs : State.Keeps pq s) :
    KeepsO pq (execTrainingRetry p s) := by
  unfold execTrainingRetry
  repeat' first
    | with_reducible assumption
    | with_reducible apply KeepsO.mk
    | with_reducible apply State.trainingRetry_keeps

theorem execLinkDown_keeps {pq : List Instr} {p : Fin 17} {s : State} (hs : State.Keeps pq s) :
    KeepsO pq (execLinkDown p s) := by
  unfold execLinkDown
  repeat' first
    | with_reducible assumption
    | (extract_lets -underBinder +onlyGivenNames -merge x; with_reducible refine Keeps.cut (pq := pq) x ?_ (fun _ => ?_); rotate_left; clear_value x; rotate_left; subst x)
    | (extract_lets -underBinder +onlyGivenNames -merge x; subst x)
    | with_reducible apply KeepsO.mk
    | with_reducible apply State.leaveUp_keeps
    | with_reducible apply State.fault_keeps
    | split

theorem execDownRetrain_keeps {pq : List Instr} {p : Fin 17} {s : State} (hs : State.Keeps pq s) :
    KeepsO pq (execDownRetrain p s) := by
  unfold execDownRetrain
  repeat' first
    | with_reducible assumption
    | with_reducible apply KeepsO.mk
    | with_reducible apply State.downRetrain_keeps

theorem execSwcCntLowRead_keeps {pq : List Instr} {p : Fin 28} {c : Fin 32} {s : State} (hs : State.Keeps pq s) :
    KeepsO pq (execSwcCntLowRead p c s) := by
  unfold execSwcCntLowRead
  repeat' first
    | with_reducible assumption
    | (extract_lets -underBinder +onlyGivenNames -merge x; with_reducible refine Keeps.cut (pq := pq) x ?_ (fun _ => ?_); rotate_left; clear_value x; rotate_left; subst x)
    | (extract_lets -underBinder +onlyGivenNames -merge x; subst x)
    | with_reducible apply KeepsO.mk
    | with_reducible apply State.setRd_keeps
    | split
    | simp only [Keeps.upd]

theorem execSwcBufPeakRead_keeps {pq : List Instr} {s : State} (hs : State.Keeps pq s) :
    KeepsO pq (execSwcBufPeakRead s) := by
  unfold execSwcBufPeakRead
  repeat' first
    | with_reducible assumption
    | with_reducible apply KeepsO.mk
    | with_reducible apply State.setRd_keeps
    | split
    | simp only [Keeps.upd]

theorem execSwcRbDropRead_keeps {pq : List Instr} {b : Fin 256} {s : State} (hs : State.Keeps pq s) :
    KeepsO pq (execSwcRbDropRead b s) := by
  unfold execSwcRbDropRead
  repeat' first
    | with_reducible assumption
    | (extract_lets -underBinder +onlyGivenNames -merge x; with_reducible refine Keeps.cut (pq := pq) x ?_ (fun _ => ?_); rotate_left; clear_value x; rotate_left; subst x)
    | (extract_lets -underBinder +onlyGivenNames -merge x; subst x)
    | with_reducible apply KeepsO.mk
    | with_reducible apply State.setBind_keeps
    | with_reducible apply State.setRd_keeps
    | split
    | simp only [Keeps.upd]

theorem execWheelTick_keeps {pq : List Instr} {s : State} (hs : State.Keeps pq s) :
    KeepsO pq (execWheelTick s) := by
  unfold execWheelTick
  repeat' first
    | with_reducible assumption
    | (extract_lets -underBinder +onlyGivenNames -merge x; with_reducible refine Keeps.cut (pq := pq) x ?_ (fun _ => ?_); rotate_left; clear_value x; rotate_left; subst x)
    | (extract_lets -underBinder +onlyGivenNames -merge x; subst x)
    | with_reducible apply KeepsO.mk
    | with_reducible apply State.runSendQs_keeps
    | with_reducible apply State.wheelServe_keeps
    | with_reducible apply State.advanceTo_keeps
    | split

theorem execHistSample_keeps {pq : List Instr} {s : State} (hs : State.Keeps pq s) :
    KeepsO pq (execHistSample s) := by
  unfold execHistSample
  repeat' first
    | with_reducible assumption
    | (rename_i e; with_reducible refine Keeps.ofSnd (pq := pq) e ?_ (fun _ => ?_) <;> clear e)
    | (rename_i e; with_reducible refine Keeps.ofFst (pq := pq) e ?_ (fun _ => ?_) <;> clear e)
    | (extract_lets -underBinder +onlyGivenNames -merge x; with_reducible refine Keeps.cut (pq := pq) x ?_ (fun _ => ?_); rotate_left; clear_value x; rotate_left; subst x)
    | (extract_lets -underBinder +onlyGivenNames -merge x; subst x)
    | with_reducible apply KeepsO.mk
    | with_reducible apply State.advanceToDts_keeps
    | (with_reducible refine forEach_keeps ?_ (fun _ _ _ => ?_))
    | intro _
    | split
    | simp only [Keeps.upd]

end Sys2Proof.Machine
end

