-- ==== Sys2Proof/Laws/KeepsMedia.lean ====
section
/-! SUPPORT. What each operation keeps (see `State.Keeps`): codec cores and compositor. -/

set_option maxRecDepth 4000

namespace Sys2Proof.Machine

theorem State.scanReads_keeps {pq : List Instr} {s : State} {j : CodecJob} {a : Scan} (hs : State.Keeps pq s) :
    State.Keeps pq (State.scanReads s j a) := by
  unfold State.scanReads
  repeat' first
    | with_reducible assumption
    | (rename_i e; with_reducible refine Keeps.ofSnd (pq := pq) e ?_ (fun _ => ?_) <;> clear e)
    | (rename_i e; with_reducible refine Keeps.ofFst (pq := pq) e ?_ (fun _ => ?_) <;> clear e)
    | (extract_lets -underBinder +onlyGivenNames -merge x; with_reducible refine Keeps.cut (pq := pq) x ?_ (fun _ => ?_); rotate_left; clear_value x; rotate_left; subst x)
    | (extract_lets -underBinder +onlyGivenNames -merge x; subst x)
    | with_reducible apply State.devRead_keeps
    | (with_reducible refine forEach_keeps ?_ (fun _ _ _ => ?_))
    | intro _
    | split
    | simp only [Keeps.upd]

theorem State.pictureWrites_keeps {pq : List Instr} {s : State} {wins : List (Nat × Nat)} {l : List (Nat × Nat × List Byte)} (hs : State.Keeps pq s) :
    State.Keeps pq (State.pictureWrites s wins l) := by
  unfold State.pictureWrites
  repeat' first
    | with_reducible assumption
    | with_reducible apply State.devWrite_keeps
    | (with_reducible refine forEach_keeps ?_ (fun _ _ _ => ?_))
    | intro _
    | split
    | simp only [Keeps.upd]

theorem State.fillBlock_keeps {pq : List Instr} {s : State} {base : Nat} {p : PicFacts} {k : Nat} {f : State → Nat → Nat → Nat → Nat} (hs : State.Keeps pq s) :
    State.Keeps pq (State.fillBlock s base p k f) := by
  unfold State.fillBlock
  repeat' first
    | with_reducible assumption
    | (rename_i e; with_reducible refine Keeps.ofSnd (pq := pq) e ?_ (fun _ => ?_) <;> clear e)
    | (rename_i e; with_reducible refine Keeps.ofFst (pq := pq) e ?_ (fun _ => ?_) <;> clear e)
    | (extract_lets -underBinder +onlyGivenNames -merge x; with_reducible refine Keeps.cut (pq := pq) x ?_ (fun _ => ?_); rotate_left; clear_value x; rotate_left; subst x)
    | (extract_lets -underBinder +onlyGivenNames -merge x; subst x)
    | with_reducible apply State.devWrite_keeps
    | (with_reducible refine forEach_keeps ?_ (fun _ _ _ => ?_))
    | intro _
    | split
    | simp only [Keeps.upd]

theorem State.greyBlock_keeps {pq : List Instr} {s : State} {base : Nat} {p : PicFacts} {k : Nat} (hs : State.Keeps pq s) :
    State.Keeps pq (State.greyBlock s base p k) := by
  unfold State.greyBlock
  repeat' first
    | with_reducible assumption
    | with_reducible apply State.fillBlock_keeps
    | intro _
    | split
    | simp only [Keeps.upd]

theorem State.copyBlock_keeps {pq : List Instr} {s : State} {base : Nat} {p : PicFacts} {k : Nat} {e : PicEntry} (hs : State.Keeps pq s) :
    State.Keeps pq (State.copyBlock s base p k e) := by
  unfold State.copyBlock
  repeat' first
    | with_reducible assumption
    | (rename_i e; with_reducible refine Keeps.ofSnd (pq := pq) e ?_ (fun _ => ?_) <;> clear e)
    | (rename_i e; with_reducible refine Keeps.ofFst (pq := pq) e ?_ (fun _ => ?_) <;> clear e)
    | (extract_lets -underBinder +onlyGivenNames -merge x; with_reducible refine Keeps.cut (pq := pq) x ?_ (fun _ => ?_); rotate_left; clear_value x; rotate_left; subst x)
    | (extract_lets -underBinder +onlyGivenNames -merge x; subst x)
    | with_reducible apply State.fillBlock_keeps
    | intro _
    | split
    | simp only [Keeps.upd]

theorem State.concealBlocks_keeps {pq : List Instr} {s : State} {base : Nat} {p : PicFacts} {near : Option PicEntry} {l : List (Nat × Conceal)} (hs : State.Keeps pq s) :
    State.Keeps pq (State.concealBlocks s base p near l) := by
  unfold State.concealBlocks
  repeat' first
    | with_reducible assumption
    | (rename_i e; with_reducible refine Keeps.ofSnd (pq := pq) e ?_ (fun _ => ?_) <;> clear e)
    | (rename_i e; with_reducible refine Keeps.ofFst (pq := pq) e ?_ (fun _ => ?_) <;> clear e)
    | with_reducible apply State.copyBlock_keeps
    | with_reducible apply State.greyBlock_keeps
    | with_reducible apply State.devWrite_keeps
    | (with_reducible refine forEach_keeps ?_ (fun _ _ _ => ?_))
    | intro _
    | split
    | simp only [Keeps.upd]

theorem State.writeRecon_keeps {pq : List Instr} {s : State} {r : RungState} {ten : Bool} {at_ : Nat} {c : Coding} {runs : List SampleRun} (hs : State.Keeps pq s) :
    State.Keeps pq (State.writeRecon s r ten at_ c runs) := by
  unfold State.writeRecon
  repeat' first
    | with_reducible assumption
    | (rename_i e; with_reducible refine Keeps.ofSnd (pq := pq) e ?_ (fun _ => ?_) <;> clear e)
    | (rename_i e; with_reducible refine Keeps.ofFst (pq := pq) e ?_ (fun _ => ?_) <;> clear e)
    | (extract_lets -underBinder +onlyGivenNames -merge x; with_reducible refine Keeps.cut (pq := pq) x ?_ (fun _ => ?_); rotate_left; clear_value x; rotate_left; subst x)
    | (extract_lets -underBinder +onlyGivenNames -merge x; subst x)
    | with_reducible apply State.devWrite_keeps
    | (with_reducible refine forEach_keeps ?_ (fun _ _ _ => ?_))
    | intro _
    | split
    | simp only [Keeps.upd]

theorem State.setCore_keeps {pq : List Instr} {s : State} {c : Nat} {x : CodecCore} (hs : State.Keeps pq s) :
    State.Keeps pq (State.setCore s c x) := by
  unfold State.setCore
  repeat' first
    | with_reducible assumption
    | simp only [Keeps.upd]

theorem State.setCoreSt_keeps {pq : List Instr} {s : State} {c : Nat} {st : CoreSt} (hs : State.Keeps pq s) :
    State.Keeps pq (State.setCoreSt s c st) := by
  unfold State.setCoreSt
  repeat' first
    | with_reducible assumption
    | with_reducible apply State.setCore_keeps
    | with_reducible apply State.raise_keeps
    | split
    | simp only [Keeps.upd]

theorem State.coreFault_keeps {pq : List Instr} {s : State} {c kind addr : Nat} (hs : State.Keeps pq s) :
    State.Keeps pq (State.coreFault s c kind addr) := by
  unfold State.coreFault
  repeat' first
    | with_reducible assumption
    | with_reducible apply State.setCore_keeps
    | with_reducible apply State.fault_keeps
    | simp only [Keeps.upd]

theorem State.setDec_keeps {pq : List Instr} {s : State} {i : Nat} {d : Option DecStream} (hs : State.Keeps pq s) :
    State.Keeps pq (State.setDec s i d) := by
  unfold State.setDec
  repeat' first
    | with_reducible assumption
    | simp only [Keeps.upd]

theorem State.setEnc_keeps {pq : List Instr} {s : State} {i : Nat} {e : Option EncStream} (hs : State.Keeps pq s) :
    State.Keeps pq (State.setEnc s i e) := by
  unfold State.setEnc
  repeat' first
    | with_reducible assumption
    | simp only [Keeps.upd]

theorem State.charge_keeps {pq : List Instr} {s : State} {f used admitted : Nat} (hs : State.Keeps pq s) :
    State.Keeps pq (State.charge s f used admitted) := by
  unfold State.charge
  repeat' first
    | with_reducible assumption
    | (extract_lets -underBinder +onlyGivenNames -merge x; with_reducible refine Keeps.cut (pq := pq) x ?_ (fun _ => ?_); rotate_left; clear_value x; rotate_left; subst x)
    | (extract_lets -underBinder +onlyGivenNames -merge x; subst x)
    | with_reducible apply State.raise_keeps
    | split
    | simp only [Keeps.upd]

theorem State.updEntry_keeps {pq : List Instr} {s : State} {i n : Nat} {f : PicEntry → PicEntry} (hs : State.Keeps pq s) :
    State.Keeps pq (State.updEntry s i n f) := by
  unfold State.updEntry
  repeat' first
    | with_reducible assumption
    | (extract_lets -underBinder +onlyGivenNames -merge x; with_reducible refine Keeps.cut (pq := pq) x ?_ (fun _ => ?_); rotate_left; clear_value x; rotate_left; subst x)
    | (extract_lets -underBinder +onlyGivenNames -merge x; subst x)
    | with_reducible apply State.setDec_keeps
    | with_reducible apply State.dropOpt_keeps
    | split
    | simp only [Keeps.upd]

theorem State.updEntries_keeps {pq : List Instr} {s : State} {i : Nat} {f : Nat → PicEntry → PicEntry} (hs : State.Keeps pq s) :
    State.Keeps pq (State.updEntries s i f) := by
  unfold State.updEntries
  repeat' first
    | with_reducible assumption
    | with_reducible apply State.updEntry_keeps
    | (with_reducible refine forEach_keeps ?_ (fun _ _ _ => ?_))
    | intro _

theorem State.holdEntry_keeps {pq : List Instr} {s : State} {i n : Nat} (hs : State.Keeps pq s) :
    State.Keeps pq (State.holdEntry s i n) := by
  unfold State.holdEntry
  repeat' first
    | with_reducible assumption
    | with_reducible apply State.updEntry_keeps
    | with_reducible apply State.takeBuf_keeps
    | intro _
    | split
    | simp only [Keeps.upd]

theorem State.holderTakes_keeps {pq : List Instr} {s : State} {b : Nat} (hs : State.Keeps pq s) :
    State.Keeps pq (State.holderTakes s b) := by
  unfold State.holderTakes
  repeat' first
    | with_reducible assumption
    | (rename_i e; with_reducible refine Keeps.ofSnd (pq := pq) e ?_ (fun _ => ?_) <;> clear e)
    | (rename_i e; with_reducible refine Keeps.ofFst (pq := pq) e ?_ (fun _ => ?_) <;> clear e)
    | with_reducible apply State.holdEntry_keeps
    | with_reducible apply State.takeBuf_keeps
    | intro _
    | split
    | simp only [Keeps.upd]

theorem State.holderDrops_keeps {pq : List Instr} {s : State} {b : Nat} (hs : State.Keeps pq s) :
    State.Keeps pq (State.holderDrops s b) := by
  unfold State.holderDrops
  repeat' first
    | with_reducible assumption
    | (rename_i e; with_reducible refine Keeps.ofSnd (pq := pq) e ?_ (fun _ => ?_) <;> clear e)
    | (rename_i e; with_reducible refine Keeps.ofFst (pq := pq) e ?_ (fun _ => ?_) <;> clear e)
    | with_reducible apply State.updEntry_keeps
    | with_reducible apply State.dropBuf_keeps
    | intro _
    | split
    | simp only [Keeps.upd]

theorem State.dropHeld_keeps {pq : List Instr} {s : State} {h : HeldPicture} (hs : State.Keeps pq s) :
    State.Keeps pq (State.dropHeld s h) := by
  unfold State.dropHeld
  repeat' first
    | with_reducible assumption
    | (extract_lets -underBinder +onlyGivenNames -merge x; with_reducible refine Keeps.cut (pq := pq) x ?_ (fun _ => ?_); rotate_left; clear_value x; rotate_left; subst x)
    | (extract_lets -underBinder +onlyGivenNames -merge x; subst x)
    | with_reducible apply State.updEntry_keeps
    | with_reducible apply State.dropBuf_keeps
    | intro _
    | split
    | simp only [Keeps.upd]

theorem State.releaseRefs_keeps {pq : List Instr} {s : State} {i : Nat} (hs : State.Keeps pq s) :
    State.Keeps pq (State.releaseRefs s i) := by
  unfold State.releaseRefs
  repeat' first
    | with_reducible assumption
    | with_reducible apply State.updEntries_keeps
    | intro _
    | simp only [Keeps.upd]

theorem State.updJob_keeps {pq : List Instr} {s : State} {id : Nat} {f : CodecJob → CodecJob} (hs : State.Keeps pq s) :
    State.Keeps pq (State.updJob s id f) := by
  unfold State.updJob
  repeat' first
    | with_reducible assumption
    | intro _
    | split
    | simp only [Keeps.upd]

theorem State.dropJob_keeps {pq : List Instr} {s : State} {id : Nat} (hs : State.Keeps pq s) :
    State.Keeps pq (State.dropJob s id) := by
  unfold State.dropJob
  repeat' first
    | with_reducible assumption
    | intro _
    | simp only [Keeps.upd]

theorem State.freeCoresOf_keeps {pq : List Instr} {s : State} {id : Nat} (hs : State.Keeps pq s) :
    State.Keeps pq (State.freeCoresOf s id) := by
  unfold State.freeCoresOf
  repeat' first
    | with_reducible assumption
    | intro _
    | split
    | simp only [Keeps.upd]

theorem State.countStopped_keeps {pq : List Instr} {s : State} {j : CodecJob} {ended : Bool} (hs : State.Keeps pq s) :
    State.Keeps pq (State.countStopped s j ended) := by
  unfold State.countStopped
  repeat' first
    | with_reducible assumption
    | (rename_i e; with_reducible refine Keeps.ofSnd (pq := pq) e ?_ (fun _ => ?_) <;> clear e)
    | (rename_i e; with_reducible refine Keeps.ofFst (pq := pq) e ?_ (fun _ => ?_) <;> clear e)
    | (extract_lets -underBinder +onlyGivenNames -merge x; with_reducible refine Keeps.cut (pq := pq) x ?_ (fun _ => ?_); rotate_left; clear_value x; rotate_left; subst x)
    | (extract_lets -underBinder +onlyGivenNames -merge x; subst x)
    | with_reducible apply State.setCore_keeps
    | (with_reducible refine forEach_keeps ?_ (fun _ _ _ => ?_))
    | intro _
    | split
    | simp only [Keeps.upd]

theorem State.muteWrite_keeps {pq : List Instr} {s : State} {mute : Bool} {a : DWord} {bs : List Byte} (hs : State.Keeps pq s) :
    State.Keeps pq (State.muteWrite s mute a bs) := by
  unfold State.muteWrite
  repeat' first
    | with_reducible assumption
    | with_reducible apply State.spaceWrite_keeps
    | intro _
    | split
    | simp only [Keeps.upd]

theorem State.jobWrite_keeps {pq : List Instr} {s : State} {j : CodecJob} {a : DWord} {bs : List Byte} (hs : State.Keeps pq s) :
    State.Keeps pq (State.jobWrite s j a bs) := by
  unfold State.jobWrite
  repeat' first
    | with_reducible assumption
    | with_reducible apply State.muteWrite_keeps
    | intro _
    | split
    | simp only [Keeps.upd]

theorem State.closeDone_keeps {pq : List Instr} {s : State} {n : Nat} {handle : Nat} (hs : State.Keeps pq s) :
    State.Keeps pq (State.closeDone s n handle) := by
  unfold State.closeDone
  repeat' first
    | with_reducible assumption
    | (rename_i e; with_reducible refine Keeps.ofSnd (pq := pq) e ?_ (fun _ => ?_) <;> clear e)
    | (rename_i e; with_reducible refine Keeps.ofFst (pq := pq) e ?_ (fun _ => ?_) <;> clear e)
    | (extract_lets -underBinder +onlyGivenNames -merge x; with_reducible refine Keeps.cut (pq := pq) x ?_ (fun _ => ?_); rotate_left; clear_value x; rotate_left; subst x)
    | (extract_lets -underBinder +onlyGivenNames -merge x; subst x)
    | with_reducible apply State.waitFor_keeps
    | intro _
    | simp only [Keeps.upd]

theorem State.releaseEncRefs_keeps {pq : List Instr} {s : State} {i : Nat} (hs : State.Keeps pq s) :
    State.Keeps pq (State.releaseEncRefs s i) := by
  unfold State.releaseEncRefs
  repeat' first
    | with_reducible assumption
    | (rename_i e; with_reducible refine Keeps.ofSnd (pq := pq) e ?_ (fun _ => ?_) <;> clear e)
    | (rename_i e; with_reducible refine Keeps.ofFst (pq := pq) e ?_ (fun _ => ?_) <;> clear e)
    | (extract_lets -underBinder +onlyGivenNames -merge x; with_reducible refine Keeps.cut (pq := pq) x ?_ (fun _ => ?_); rotate_left; clear_value x; rotate_left; subst x)
    | (extract_lets -underBinder +onlyGivenNames -merge x; subst x)
    | with_reducible apply State.setEnc_keeps
    | with_reducible apply State.dropBuf_keeps
    | (with_reducible refine forEach_keeps ?_ (fun _ _ _ => ?_))
    | intro _
    | split
    | simp only [Keeps.upd]

theorem State.clearStream_keeps {pq : List Instr} {s : State} {i : Nat} {keep : Nat → Bool} (hs : State.Keeps pq s) :
    State.Keeps pq (State.clearStream s i keep) := by
  unfold State.clearStream
  repeat' first
    | with_reducible assumption
    | with_reducible apply State.updEntries_keeps
    | intro _
    | split
    | simp only [Keeps.upd]

theorem State.decodeDone_keeps {pq : List Instr} {s : State} {j : CodecJob} {e : JobEnd} {tick : Option Int} (hs : State.Keeps pq s) :
    State.Keeps pq (State.decodeDone s j e tick) := by
  unfold State.decodeDone
  repeat' first
    | with_reducible assumption
    | (rename_i e; with_reducible refine Keeps.ofSnd (pq := pq) e ?_ (fun _ => ?_) <;> clear e)
    | (rename_i e; with_reducible refine Keeps.ofFst (pq := pq) e ?_ (fun _ => ?_) <;> clear e)
    | (extract_lets -underBinder +onlyGivenNames -merge x; with_reducible refine Keeps.cut (pq := pq) x ?_ (fun _ => ?_); rotate_left; clear_value x; rotate_left; subst x)
    | (extract_lets -underBinder +onlyGivenNames -merge x; subst x)
    | with_reducible apply State.jobWrite_keeps
    | with_reducible apply State.dropJob_keeps
    | with_reducible apply State.jobDone_keeps
    | intro _
    | split
    | simp only [Keeps.upd]

theorem State.endWaiting_keeps {pq : List Instr} {s : State} {i : Nat} (hs : State.Keeps pq s) :
    State.Keeps pq (State.endWaiting s i) := by
  unfold State.endWaiting
  repeat' first
    | with_reducible assumption
    | (rename_i e; with_reducible refine Keeps.ofSnd (pq := pq) e ?_ (fun _ => ?_) <;> clear e)
    | (rename_i e; with_reducible refine Keeps.ofFst (pq := pq) e ?_ (fun _ => ?_) <;> clear e)
    | with_reducible apply State.decodeDone_keeps
    | with_reducible apply State.dropJob_keeps
    | (with_reducible refine forEach_keeps ?_ (fun _ _ _ => ?_))
    | intro _
    | split
    | simp only [Keeps.upd]

theorem State.settleDec_keeps {pq : List Instr} {s : State} {i : Nat} (hs : State.Keeps pq s) :
    State.Keeps pq (State.settleDec s i) := by
  unfold State.settleDec
  repeat' first
    | with_reducible assumption
    | (rename_i e; with_reducible refine Keeps.ofSnd (pq := pq) e ?_ (fun _ => ?_) <;> clear e)
    | (rename_i e; with_reducible refine Keeps.ofFst (pq := pq) e ?_ (fun _ => ?_) <;> clear e)
    | (extract_lets -underBinder +onlyGivenNames -merge x; with_reducible refine Keeps.cut (pq := pq) x ?_ (fun _ => ?_); rotate_left; clear_value x; rotate_left; subst x)
    | (extract_lets -underBinder +onlyGivenNames -merge x; subst x)
    | with_reducible apply State.endWaiting_keeps
    | with_reducible apply State.clearStream_keeps
    | with_reducible apply State.closeDone_keeps
    | with_reducible apply State.setDec_keeps
    | with_reducible apply State.unearmark_keeps
    | intro _
    | split
    | simp only [Keeps.upd]

theorem State.recordSlot_keeps {pq : List Instr} {s : State} {i : Nat} {mute lost : Bool} {b : List Byte} (hs : State.Keeps pq s) :
    State.Keeps pq (State.recordSlot s i mute lost b) := by
  unfold State.recordSlot
  repeat' first
    | with_reducible assumption
    | (rename_i e; with_reducible refine Keeps.ofSnd (pq := pq) e ?_ (fun _ => ?_) <;> clear e)
    | (rename_i e; with_reducible refine Keeps.ofFst (pq := pq) e ?_ (fun _ => ?_) <;> clear e)
    | (extract_lets -underBinder +onlyGivenNames -merge x; with_reducible refine Keeps.cut (pq := pq) x ?_ (fun _ => ?_); rotate_left; clear_value x; rotate_left; subst x)
    | (extract_lets -underBinder +onlyGivenNames -merge x; subst x)
    | with_reducible apply State.muteWrite_keeps
    | with_reducible apply State.setEnc_keeps
    | intro _
    | split
    | simp only [Keeps.upd]

theorem State.putRecords_keeps {pq : List Instr} {s : State} {i : Nat} {j : CodecJob} {lost : Bool} {l : List (List Byte)} (hs : State.Keeps pq s) :
    State.Keeps pq (State.putRecords s i j lost l) := by
  unfold State.putRecords
  repeat' first
    | with_reducible assumption
    | (rename_i e; with_reducible refine Keeps.ofSnd (pq := pq) e ?_ (fun _ => ?_) <;> clear e)
    | (rename_i e; with_reducible refine Keeps.ofFst (pq := pq) e ?_ (fun _ => ?_) <;> clear e)
    | with_reducible apply State.recordSlot_keeps
    | with_reducible apply State.setEnc_keeps
    | (with_reducible refine forEach_keeps ?_ (fun _ _ _ => ?_))
    | intro _
    | split
    | simp only [Keeps.upd]

theorem State.flushOwed_keeps {pq : List Instr} {s : State} {i : Nat} (hs : State.Keeps pq s) :
    State.Keeps pq (State.flushOwed s i) := by
  unfold State.flushOwed
  repeat' first
    | with_reducible assumption
    | (rename_i e; with_reducible refine Keeps.ofSnd (pq := pq) e ?_ (fun _ => ?_) <;> clear e)
    | (rename_i e; with_reducible refine Keeps.ofFst (pq := pq) e ?_ (fun _ => ?_) <;> clear e)
    | (extract_lets -underBinder +onlyGivenNames -merge x; with_reducible refine Keeps.cut (pq := pq) x ?_ (fun _ => ?_); rotate_left; clear_value x; rotate_left; subst x)
    | (extract_lets -underBinder +onlyGivenNames -merge x; subst x)
    | with_reducible apply State.recordSlot_keeps
    | with_reducible apply State.setEnc_keeps
    | (with_reducible refine forEach_keeps ?_ (fun _ _ _ => ?_))
    | intro _
    | split
    | simp only [Keeps.upd]

theorem State.blankRecords_keeps {pq : List Instr} {s : State} {i : Nat} {j : CodecJob} {st : Status} {flags : Nat} {lost : Bool} (hs : State.Keeps pq s) :
    State.Keeps pq (State.blankRecords s i j st flags lost) := by
  unfold State.blankRecords
  repeat' first
    | with_reducible assumption
    | (rename_i e; with_reducible refine Keeps.ofSnd (pq := pq) e ?_ (fun _ => ?_) <;> clear e)
    | (rename_i e; with_reducible refine Keeps.ofFst (pq := pq) e ?_ (fun _ => ?_) <;> clear e)
    | with_reducible apply State.putRecords_keeps
    | intro _
    | split
    | simp only [Keeps.upd]

theorem State.emptyRecords_keeps {pq : List Instr} {s : State} {i : Nat} {j : CodecJob} {st : Status} {flags : Nat} (hs : State.Keeps pq s) :
    State.Keeps pq (State.emptyRecords s i j st flags) := by
  unfold State.emptyRecords
  repeat' first
    | with_reducible assumption
    | with_reducible apply State.blankRecords_keeps
    | intro _
    | split
    | simp only [Keeps.upd]

theorem State.lostFault_keeps {pq : List Instr} {s : State} {j : CodecJob} {detail : Option Nat} (hs : State.Keeps pq s) :
    State.Keeps pq (State.lostFault s j detail) := by
  unfold State.lostFault
  repeat' first
    | with_reducible assumption
    | (rename_i e; with_reducible refine Keeps.ofSnd (pq := pq) e ?_ (fun _ => ?_) <;> clear e)
    | (rename_i e; with_reducible refine Keeps.ofFst (pq := pq) e ?_ (fun _ => ?_) <;> clear e)
    | with_reducible apply State.coreFault_keeps
    | with_reducible apply State.drawFree_keepsP
    | (with_reducible refine State.drawFree_keepsE (by with_reducible assumption) ?_)
    | intro _
    | split
    | simp only [Keeps.upd]

theorem State.settleEnc_keeps {pq : List Instr} {s0 : State} {i : Nat} (hs_s0 : State.Keeps pq s0) :
    State.Keeps pq (State.settleEnc s0 i) := by
  unfold State.settleEnc
  repeat' first
    | with_reducible assumption
    | (rename_i e; with_reducible refine Keeps.ofSnd (pq := pq) e ?_ (fun _ => ?_) <;> clear e)
    | (rename_i e; with_reducible refine Keeps.ofFst (pq := pq) e ?_ (fun _ => ?_) <;> clear e)
    | (extract_lets -underBinder +onlyGivenNames -merge x; with_reducible refine Keeps.cut (pq := pq) x ?_ (fun _ => ?_); rotate_left; clear_value x; rotate_left; subst x)
    | (extract_lets -underBinder +onlyGivenNames -merge x; subst x)
    | with_reducible apply State.flushOwed_keeps
    | with_reducible apply State.releaseEncRefs_keeps
    | with_reducible apply State.closeDone_keeps
    | with_reducible apply State.setEnc_keeps
    | with_reducible apply State.unearmark_keeps
    | (with_reducible refine forEach_keeps ?_ (fun _ _ _ => ?_))
    | intro _
    | split
    | simp only [Keeps.upd]

theorem State.settleStream_keeps {pq : List Instr} {s : State} {encode : Bool} {i : Nat} (hs : State.Keeps pq s) :
    State.Keeps pq (State.settleStream s encode i) := by
  unfold State.settleStream
  repeat' first
    | with_reducible assumption
    | with_reducible apply State.settleEnc_keeps
    | with_reducible apply State.settleDec_keeps
    | intro _
    | split
    | simp only [Keeps.upd]

theorem State.endIdle_keeps {pq : List Instr} {s : State} {j : CodecJob} {st : Status} (hs : State.Keeps pq s) :
    State.Keeps pq (State.endIdle s j st) := by
  unfold State.endIdle
  repeat' first
    | with_reducible assumption
    | (rename_i e; with_reducible refine Keeps.ofSnd (pq := pq) e ?_ (fun _ => ?_) <;> clear e)
    | (rename_i e; with_reducible refine Keeps.ofFst (pq := pq) e ?_ (fun _ => ?_) <;> clear e)
    | (extract_lets -underBinder +onlyGivenNames -merge x; with_reducible refine Keeps.cut (pq := pq) x ?_ (fun _ => ?_); rotate_left; clear_value x; rotate_left; subst x)
    | (extract_lets -underBinder +onlyGivenNames -merge x; subst x)
    | with_reducible apply State.settleStream_keeps
    | with_reducible apply State.lostFault_keeps
    | with_reducible apply State.decodeDone_keeps
    | with_reducible apply State.countStopped_keeps
    | with_reducible apply State.freeCoresOf_keeps
    | with_reducible apply State.dropJob_keeps
    | with_reducible apply State.updEntry_keeps
    | with_reducible apply State.charge_keeps
    | with_reducible apply State.dropOpt_keeps
    | with_reducible apply State.dropBuf_keeps
    | with_reducible apply State.jobDone_keeps
    | (with_reducible refine forEach_keeps ?_ (fun _ _ _ => ?_))
    | intro _
    | split
    | simp only [Keeps.upd]

theorem State.restoreEnc_keeps {pq : List Instr} {s : State} {j : CodecJob} {key : Bool} (hs : State.Keeps pq s) :
    State.Keeps pq (State.restoreEnc s j key) := by
  unfold State.restoreEnc
  repeat' first
    | with_reducible assumption
    | (rename_i e; with_reducible refine Keeps.ofSnd (pq := pq) e ?_ (fun _ => ?_) <;> clear e)
    | (rename_i e; with_reducible refine Keeps.ofFst (pq := pq) e ?_ (fun _ => ?_) <;> clear e)
    | (extract_lets -underBinder +onlyGivenNames -merge x; with_reducible refine Keeps.cut (pq := pq) x ?_ (fun _ => ?_); rotate_left; clear_value x; rotate_left; subst x)
    | (extract_lets -underBinder +onlyGivenNames -merge x; subst x)
    | with_reducible apply State.setEnc_keeps
    | intro _
    | split
    | simp only [Keeps.upd]

theorem State.takeRecon_keepsP {pq : List Instr} {s : State} {o : Nat} {a0 : List Nat} (hs : State.Keeps pq s) :
    State.Keeps pq (State.takeRecon s o a0).2 := by
  induction a0 generalizing s o with
  | nil =>
    unfold State.takeRecon
    repeat' first
      | with_reducible assumption
      | (rename_i e; with_reducible refine Keeps.ofSnd (pq := pq) e ?_ (fun _ => ?_) <;> clear e)
      | (rename_i e; with_reducible refine Keeps.ofFst (pq := pq) e ?_ (fun _ => ?_) <;> clear e)
      | (extract_lets -underBinder +onlyGivenNames -merge x; with_reducible refine Keeps.cut (pq := pq) x ?_ (fun _ => ?_); rotate_left; clear_value x; rotate_left; subst x)
      | (extract_lets -underBinder +onlyGivenNames -merge x; subst x)
      | with_reducible apply State.request_keepsP
      | (with_reducible refine State.request_keepsE (by with_reducible assumption) ?_)
      | intro _
      | split
      | simp only [Keeps.upd]

  | cons e l ih =>
    unfold State.takeRecon
    repeat' first
      | with_reducible assumption
      | (rename_i e; with_reducible refine Keeps.ofSnd (pq := pq) e ?_ (fun _ => ?_) <;> clear e)
      | (rename_i e; with_reducible refine Keeps.ofFst (pq := pq) e ?_ (fun _ => ?_) <;> clear e)
      | (extract_lets -underBinder +onlyGivenNames -merge x; with_reducible refine Keeps.cut (pq := pq) x ?_ (fun _ => ?_); rotate_left; clear_value x; rotate_left; subst x)
      | (extract_lets -underBinder +onlyGivenNames -merge x; subst x)
      | with_reducible apply ih
      | (rename_i h; injection h with h1 h2; subst h1 h2)
      | with_reducible apply State.request_keepsP
      | (with_reducible refine State.request_keepsE (by with_reducible assumption) ?_)
      | intro _
      | split
      | simp only [Keeps.upd]
theorem State.takeRecon_keepsE {pq : List Instr} {s : State} {o : Nat} {a0 : List Nat} {tv2 v1} (e : State.takeRecon s o a0 = (v1, tv2)) (hs : State.Keeps pq s) :
    State.Keeps pq tv2 := by
  have h := State.takeRecon_keepsP (s := s) (o := o) (a0 := a0) hs 
  rw [e] at h; exact h

theorem State.takeBuffers_keeps {pq : List Instr} {s : State} {j : CodecJob} (hs : State.Keeps pq s) :
    State.Keeps pq (State.takeBuffers s j) := by
  unfold State.takeBuffers
  repeat' first
    | with_reducible assumption
    | (rename_i e; with_reducible refine Keeps.ofSnd (pq := pq) e ?_ (fun _ => ?_) <;> clear e)
    | (rename_i e; with_reducible refine Keeps.ofFst (pq := pq) e ?_ (fun _ => ?_) <;> clear e)
    | (extract_lets -underBinder +onlyGivenNames -merge x; with_reducible refine Keeps.cut (pq := pq) x ?_ (fun _ => ?_); rotate_left; clear_value x; rotate_left; subst x)
    | (extract_lets -underBinder +onlyGivenNames -merge x; subst x)
    | with_reducible apply State.updJob_keeps
    | with_reducible apply State.releaseRefs_keeps
    | with_reducible apply State.setDec_keeps
    | with_reducible apply State.takeRecon_keepsP
    | (with_reducible refine State.takeRecon_keepsE (by with_reducible assumption) ?_)
    | with_reducible apply State.request_keepsP
    | (with_reducible refine State.request_keepsE (by with_reducible assumption) ?_)
    | intro _
    | split
    | simp only [Keeps.upd]

theorem State.keepCores_keeps {pq : List Instr} {s : State} {j : CodecJob} {cs : List Nat} (hs : State.Keeps pq s) :
    State.Keeps pq (State.keepCores s j cs) := by
  unfold State.keepCores
  repeat' first
    | with_reducible assumption
    | (rename_i e; with_reducible refine Keeps.ofSnd (pq := pq) e ?_ (fun _ => ?_) <;> clear e)
    | (rename_i e; with_reducible refine Keeps.ofFst (pq := pq) e ?_ (fun _ => ?_) <;> clear e)
    | with_reducible apply State.setEnc_keeps
    | with_reducible apply State.setDec_keeps
    | intro _
    | split
    | simp only [Keeps.upd]

theorem State.runOn_keeps {pq : List Instr} {s : State} {j : CodecJob} {x : Tiling} {cs : List Nat} (hs : State.Keeps pq s) :
    State.Keeps pq (State.runOn s j x cs) := by
  unfold State.runOn
  repeat' first
    | with_reducible assumption
    | (rename_i e; with_reducible refine Keeps.ofSnd (pq := pq) e ?_ (fun _ => ?_) <;> clear e)
    | (rename_i e; with_reducible refine Keeps.ofFst (pq := pq) e ?_ (fun _ => ?_) <;> clear e)
    | (extract_lets -underBinder +onlyGivenNames -merge x; with_reducible refine Keeps.cut (pq := pq) x ?_ (fun _ => ?_); rotate_left; clear_value x; rotate_left; subst x)
    | (extract_lets -underBinder +onlyGivenNames -merge x; subst x)
    | with_reducible apply State.keepCores_keeps
    | with_reducible apply State.takeBuffers_keeps
    | with_reducible apply State.freeCoresOf_keeps
    | with_reducible apply State.updJob_keeps
    | with_reducible apply State.setCore_keeps
    | (with_reducible refine forEach_keeps ?_ (fun _ _ _ => ?_))
    | (with_reducible refine foldl_keeps ?_ (fun _ _ _ => ?_))
    | intro _
    | split
    | simp only [Keeps.upd]

theorem State.startJob_keeps {pq : List Instr} {s : State} {j : CodecJob} {x : Tiling} {n : Nat} (hs : State.Keeps pq s) :
    State.Keeps pq (State.startJob s j x n) := by
  unfold State.startJob
  repeat' first
    | with_reducible assumption
    | (rename_i e; with_reducible refine Keeps.ofSnd (pq := pq) e ?_ (fun _ => ?_) <;> clear e)
    | (rename_i e; with_reducible refine Keeps.ofFst (pq := pq) e ?_ (fun _ => ?_) <;> clear e)
    | (extract_lets -underBinder +onlyGivenNames -merge x; with_reducible refine Keeps.cut (pq := pq) x ?_ (fun _ => ?_); rotate_left; clear_value x; rotate_left; subst x)
    | (extract_lets -underBinder +onlyGivenNames -merge x; subst x)
    | with_reducible apply State.runOn_keeps
    | with_reducible apply State.updJob_keeps
    | with_reducible apply State.setCore_keeps
    | with_reducible apply idle_keeps
    | (with_reducible refine forEach_keeps ?_ (fun _ _ _ => ?_))
    | intro _
    | split
    | simp only [Keeps.upd]

theorem State.setCredit_keeps {pq : List Instr} {s : State} {j : CodecJob} {n : Nat} (hs : State.Keeps pq s) :
    State.Keeps pq (State.setCredit s j n) := by
  unfold State.setCredit
  repeat' first
    | with_reducible assumption
    | with_reducible apply State.setEnc_keeps
    | with_reducible apply State.setDec_keeps
    | split
    | simp only [Keeps.upd]

theorem State.selectIn_keepsE {pq : List Instr} {s : State} {cls : Nat} {l : List CodecJob} {tv2 v1} (e : State.selectIn s cls l = (some (v1, tv2))) (hs : State.Keeps pq s) :
    State.Keeps pq tv2 := by
  unfold State.selectIn at e
  (try dsimp only at e)
  repeat' (split at e)
  all_goals first
    | (cases e <;> (
       repeat' first
         | with_reducible assumption
         | (extract_lets -underBinder +onlyGivenNames -merge x; with_reducible refine Keeps.cut (pq := pq) x ?_ (fun _ => ?_); rotate_left; clear_value x; rotate_left; subst x)
         | (extract_lets -underBinder +onlyGivenNames -merge x; subst x)
         | with_reducible apply State.setCredit_keeps
         | (with_reducible refine forEach_keeps ?_ (fun _ _ _ => ?_))
         | intro _
         | split
         | simp only [Keeps.upd]
       done))
    | (
       repeat' first
         | with_reducible assumption
         | (extract_lets -underBinder +onlyGivenNames -merge x; with_reducible refine Keeps.cut (pq := pq) x ?_ (fun _ => ?_); rotate_left; clear_value x; rotate_left; subst x)
         | (extract_lets -underBinder +onlyGivenNames -merge x; subst x)
         | with_reducible apply State.setCredit_keeps
         | (with_reducible refine forEach_keeps ?_ (fun _ _ _ => ?_))
         | intro _
         | split
         | simp only [Keeps.upd]
       done)

theorem State.select_keepsE {pq : List Instr} {s : State} {tv2 v1} (e : State.select s = some (v1, tv2))
    (hs : State.Keeps pq s) : State.Keeps pq tv2 := by
  unfold State.select at e
  obtain ⟨c, _, hc⟩ := List.exists_of_findSome?_eq_some e
  exact State.selectIn_keepsE hc hs

theorem State.codecStart_keeps {pq : List Instr} {s : State} {x : Tiling} {w h : Nat} (hs : State.Keeps pq s) :
    State.Keeps pq (State.codecStart s x w h) := by
  unfold State.codecStart
  repeat' first
    | with_reducible assumption
    | (rename_i e; with_reducible refine Keeps.ofSnd (pq := pq) e ?_ (fun _ => ?_) <;> clear e)
    | (rename_i e; with_reducible refine Keeps.ofFst (pq := pq) e ?_ (fun _ => ?_) <;> clear e)
    | (with_reducible refine State.select_keepsE (by with_reducible assumption) ?_)
    | with_reducible apply State.startJob_keeps
    | intro _
    | split
    | simp only [Keeps.upd]

theorem State.evictDec_keeps {pq : List Instr} {s : State} {i : Nat} (hs : State.Keeps pq s) :
    State.Keeps pq (State.evictDec s i) := by
  unfold State.evictDec
  repeat' first
    | with_reducible assumption
    | (rename_i e; with_reducible refine Keeps.ofSnd (pq := pq) e ?_ (fun _ => ?_) <;> clear e)
    | (rename_i e; with_reducible refine Keeps.ofFst (pq := pq) e ?_ (fun _ => ?_) <;> clear e)
    | (extract_lets -underBinder +onlyGivenNames -merge x; with_reducible refine Keeps.cut (pq := pq) x ?_ (fun _ => ?_); rotate_left; clear_value x; rotate_left; subst x)
    | (extract_lets -underBinder +onlyGivenNames -merge x; subst x)
    | with_reducible apply State.endIdle_keeps
    | with_reducible apply State.endWaiting_keeps
    | with_reducible apply State.updEntries_keeps
    | with_reducible apply State.setDec_keeps
    | (with_reducible refine forEach_keeps ?_ (fun _ _ _ => ?_))
    | intro _
    | split
    | simp only [Keeps.upd]

theorem State.evictEnc_keeps {pq : List Instr} {s : State} {i : Nat} (hs : State.Keeps pq s) :
    State.Keeps pq (State.evictEnc s i) := by
  unfold State.evictEnc
  repeat' first
    | with_reducible assumption
    | (rename_i e; with_reducible refine Keeps.ofSnd (pq := pq) e ?_ (fun _ => ?_) <;> clear e)
    | (rename_i e; with_reducible refine Keeps.ofFst (pq := pq) e ?_ (fun _ => ?_) <;> clear e)
    | (extract_lets -underBinder +onlyGivenNames -merge x; with_reducible refine Keeps.cut (pq := pq) x ?_ (fun _ => ?_); rotate_left; clear_value x; rotate_left; subst x)
    | (extract_lets -underBinder +onlyGivenNames -merge x; subst x)
    | with_reducible apply State.endIdle_keeps
    | with_reducible apply State.emptyRecords_keeps
    | with_reducible apply State.releaseEncRefs_keeps
    | with_reducible apply State.setEnc_keeps
    | (with_reducible refine forEach_keeps ?_ (fun _ _ _ => ?_))
    | intro _
    | split
    | simp only [Keeps.upd]

theorem State.evictLoop_keeps {pq : List Instr} {s : State} {a0 : Nat} (hs : State.Keeps pq s) :
    State.Keeps pq (State.evictLoop s a0) := by
  induction a0 generalizing s with
  | zero =>
    unfold State.evictLoop
    repeat' first
      | with_reducible assumption
      | (rename_i e; with_reducible refine Keeps.ofSnd (pq := pq) e ?_ (fun _ => ?_) <;> clear e)
      | (rename_i e; with_reducible refine Keeps.ofFst (pq := pq) e ?_ (fun _ => ?_) <;> clear e)
      | (extract_lets -underBinder +onlyGivenNames -merge x; with_reducible refine Keeps.cut (pq := pq) x ?_ (fun _ => ?_); rotate_left; clear_value x; rotate_left; subst x)
      | (extract_lets -underBinder +onlyGivenNames -merge x; subst x)
      | with_reducible apply State.evictEnc_keeps
      | with_reducible apply State.evictDec_keeps
      | with_reducible apply State.raise_keeps
      | (with_reducible refine foldl_keeps ?_ (fun _ _ _ => ?_))
      | split
      | simp only [Keeps.upd]

  | succ n ih =>
    unfold State.evictLoop
    repeat' first
      | with_reducible assumption
      | (rename_i e; with_reducible refine Keeps.ofSnd (pq := pq) e ?_ (fun _ => ?_) <;> clear e)
      | (rename_i e; with_reducible refine Keeps.ofFst (pq := pq) e ?_ (fun _ => ?_) <;> clear e)
      | (extract_lets -underBinder +onlyGivenNames -merge x; with_reducible refine Keeps.cut (pq := pq) x ?_ (fun _ => ?_); rotate_left; clear_value x; rotate_left; subst x)
      | (extract_lets -underBinder +onlyGivenNames -merge x; subst x)
      | with_reducible apply ih
      | (rename_i h; injection h with h1 h2; subst h1 h2)
      | with_reducible apply State.evictEnc_keeps
      | with_reducible apply State.evictDec_keeps
      | with_reducible apply State.raise_keeps
      | (with_reducible refine foldl_keeps ?_ (fun _ _ _ => ?_))
      | split
      | simp only [Keeps.upd]

theorem State.evict_keeps {pq : List Instr} {s : State} (hs : State.Keeps pq s) :
    State.Keeps pq (State.evict s) := by
  unfold State.evict
  repeat' first
    | with_reducible assumption
    | with_reducible apply State.evictLoop_keeps

theorem State.unreserve_keeps {pq : List Instr} {s : State} {c : Nat} (hs : State.Keeps pq s) :
    State.Keeps pq (State.unreserve s c) := by
  unfold State.unreserve
  repeat' first
    | with_reducible assumption
    | intro _
    | split
    | simp only [Keeps.upd]

theorem State.settleGate_keeps {pq : List Instr} {s : State} {c : Nat} (hs : State.Keeps pq s) :
    State.Keeps pq (State.settleGate s c) := by
  unfold State.settleGate
  repeat' first
    | with_reducible assumption
    | (rename_i e; with_reducible refine Keeps.ofSnd (pq := pq) e ?_ (fun _ => ?_) <;> clear e)
    | (rename_i e; with_reducible refine Keeps.ofFst (pq := pq) e ?_ (fun _ => ?_) <;> clear e)
    | (extract_lets -underBinder +onlyGivenNames -merge x; with_reducible refine Keeps.cut (pq := pq) x ?_ (fun _ => ?_); rotate_left; clear_value x; rotate_left; subst x)
    | (extract_lets -underBinder +onlyGivenNames -merge x; subst x)
    | with_reducible apply State.unreserve_keeps
    | with_reducible apply State.evict_keeps
    | with_reducible apply State.setCoreSt_keeps
    | with_reducible apply State.setCore_keeps
    | intro _
    | split
    | simp only [Keeps.upd]

theorem State.endRun_keeps {pq : List Instr} {s : State} {j : CodecJob} {st : Status} (hs : State.Keeps pq s) :
    State.Keeps pq (State.endRun s j st) := by
  unfold State.endRun
  repeat' first
    | with_reducible assumption
    | with_reducible apply State.settleGate_keeps
    | with_reducible apply State.endIdle_keeps
    | (with_reducible refine forEach_keeps ?_ (fun _ _ _ => ?_))
    | intro _
    | split
    | simp only [Keeps.upd]

theorem State.jobLost_keeps {pq : List Instr} {s : State} {j : CodecJob} (hs : State.Keeps pq s) :
    State.Keeps pq (State.jobLost s j) := by
  unfold State.jobLost
  repeat' first
    | with_reducible assumption
    | (rename_i e; with_reducible refine Keeps.ofSnd (pq := pq) e ?_ (fun _ => ?_) <;> clear e)
    | (rename_i e; with_reducible refine Keeps.ofFst (pq := pq) e ?_ (fun _ => ?_) <;> clear e)
    | (extract_lets -underBinder +onlyGivenNames -merge x; with_reducible refine Keeps.cut (pq := pq) x ?_ (fun _ => ?_); rotate_left; clear_value x; rotate_left; subst x)
    | (extract_lets -underBinder +onlyGivenNames -merge x; subst x)
    | with_reducible apply State.countStopped_keeps
    | with_reducible apply State.freeCoresOf_keeps
    | with_reducible apply State.updJob_keeps
    | with_reducible apply State.dropBuf_keeps
    | (with_reducible refine forEach_keeps ?_ (fun _ _ _ => ?_))
    | intro _
    | split
    | simp only [Keeps.upd]

theorem State.coreLeaves_keeps {pq : List Instr} {s : State} {c : Nat} {st : CoreSt} (hs : State.Keeps pq s) :
    State.Keeps pq (State.coreLeaves s c st) := by
  unfold State.coreLeaves
  repeat' first
    | with_reducible assumption
    | (rename_i e; with_reducible refine Keeps.ofSnd (pq := pq) e ?_ (fun _ => ?_) <;> clear e)
    | (rename_i e; with_reducible refine Keeps.ofFst (pq := pq) e ?_ (fun _ => ?_) <;> clear e)
    | (extract_lets -underBinder +onlyGivenNames -merge x; with_reducible refine Keeps.cut (pq := pq) x ?_ (fun _ => ?_); rotate_left; clear_value x; rotate_left; subst x)
    | (extract_lets -underBinder +onlyGivenNames -merge x; subst x)
    | with_reducible apply State.jobLost_keeps
    | with_reducible apply State.settleGate_keeps
    | with_reducible apply State.unreserve_keeps
    | with_reducible apply State.evict_keeps
    | with_reducible apply State.setCoreSt_keeps
    | with_reducible apply State.setCore_keeps
    | (with_reducible refine forEach_keeps ?_ (fun _ _ _ => ?_))
    | (with_reducible refine foldl_keeps ?_ (fun _ _ _ => ?_))
    | intro _
    | split
    | simp only [Keeps.upd]

theorem State.stopEnc_keeps {pq : List Instr} {s : State} {j : CodecJob} (hs : State.Keeps pq s) :
    State.Keeps pq (State.stopEnc s j) := by
  unfold State.stopEnc
  repeat' first
    | with_reducible assumption
    | (rename_i e; with_reducible refine Keeps.ofSnd (pq := pq) e ?_ (fun _ => ?_) <;> clear e)
    | (rename_i e; with_reducible refine Keeps.ofFst (pq := pq) e ?_ (fun _ => ?_) <;> clear e)
    | (extract_lets -underBinder +onlyGivenNames -merge x; with_reducible refine Keeps.cut (pq := pq) x ?_ (fun _ => ?_); rotate_left; clear_value x; rotate_left; subst x)
    | (extract_lets -underBinder +onlyGivenNames -merge x; subst x)
    | with_reducible apply State.endRun_keeps
    | with_reducible apply State.restoreEnc_keeps
    | with_reducible apply State.emptyRecords_keeps
    | intro _
    | split
    | simp only [Keeps.upd]

theorem State.countMiss_keeps {pq : List Instr} {s : State} {j : CodecJob} (hs : State.Keeps pq s) :
    State.Keeps pq (State.countMiss s j) := by
  unfold State.countMiss
  repeat' first
    | with_reducible assumption
    | (extract_lets -underBinder +onlyGivenNames -merge x; with_reducible refine Keeps.cut (pq := pq) x ?_ (fun _ => ?_); rotate_left; clear_value x; rotate_left; subst x)
    | (extract_lets -underBinder +onlyGivenNames -merge x; subst x)
    | with_reducible apply State.setEnc_keeps
    | with_reducible apply State.setDec_keeps
    | with_reducible apply State.overrun_keeps
    | split
    | simp only [Keeps.upd]

theorem State.missJob_keeps {pq : List Instr} {s : State} {j : CodecJob} (hs : State.Keeps pq s) :
    State.Keeps pq (State.missJob s j) := by
  unfold State.missJob
  repeat' first
    | with_reducible assumption
    | (rename_i e; with_reducible refine Keeps.ofSnd (pq := pq) e ?_ (fun _ => ?_) <;> clear e)
    | (rename_i e; with_reducible refine Keeps.ofFst (pq := pq) e ?_ (fun _ => ?_) <;> clear e)
    | (extract_lets -underBinder +onlyGivenNames -merge x; with_reducible refine Keeps.cut (pq := pq) x ?_ (fun _ => ?_); rotate_left; clear_value x; rotate_left; subst x)
    | (extract_lets -underBinder +onlyGivenNames -merge x; subst x)
    | with_reducible apply State.countMiss_keeps
    | with_reducible apply State.stopEnc_keeps
    | with_reducible apply State.updJob_keeps
    | intro _
    | split
    | simp only [Keeps.upd]

theorem State.graceOrMiss_keeps {pq : List Instr} {s : State} {j : CodecJob} {next : Int} (hs : State.Keeps pq s) :
    State.Keeps pq (State.graceOrMiss s j next) := by
  unfold State.graceOrMiss
  repeat' first
    | with_reducible assumption
    | with_reducible apply State.missJob_keeps
    | with_reducible apply State.updJob_keeps
    | intro _
    | split
    | simp only [Keeps.upd]

theorem State.missCodec_keeps {pq : List Instr} {s : State} {g : Fin 4} {k : Int} {flips : Bool} (hs : State.Keeps pq s) :
    State.Keeps pq (State.missCodec s g k flips) := by
  unfold State.missCodec
  repeat' first
    | with_reducible assumption
    | with_reducible apply State.graceOrMiss_keeps
    | (with_reducible refine forEach_keeps ?_ (fun _ _ _ => ?_))
    | intro _
    | split
    | simp only [Keeps.upd]

theorem State.missPassed_keeps {pq : List Instr} {s : State} (hs : State.Keeps pq s) :
    State.Keeps pq (State.missPassed s) := by
  unfold State.missPassed
  repeat' first
    | with_reducible assumption
    | with_reducible apply State.graceOrMiss_keeps
    | (with_reducible refine forEach_keeps ?_ (fun _ _ _ => ?_))
    | intro _
    | split
    | simp only [Keeps.upd]

theorem State.coresReturn_keeps {pq : List Instr} {s : State} (hs : State.Keeps pq s) :
    State.Keeps pq (State.coresReturn s) := by
  unfold State.coresReturn
  repeat' first
    | with_reducible assumption
    | (extract_lets -underBinder +onlyGivenNames -merge x; with_reducible refine Keeps.cut (pq := pq) x ?_ (fun _ => ?_); rotate_left; clear_value x; rotate_left; subst x)
    | (extract_lets -underBinder +onlyGivenNames -merge x; subst x)
    | with_reducible apply State.settleGate_keeps
    | with_reducible apply State.setCoreSt_keeps
    | (with_reducible refine forEach_keeps ?_ (fun _ _ _ => ?_))
    | intro _
    | split
    | simp only [Keeps.upd]

theorem State.coreReturns_keeps {pq : List Instr} {s : State} {c : Nat} (hs : State.Keeps pq s) :
    State.Keeps pq (State.coreReturns s c) := by
  unfold State.coreReturns
  repeat' first
    | with_reducible assumption
    | (rename_i e; with_reducible refine Keeps.ofSnd (pq := pq) e ?_ (fun _ => ?_) <;> clear e)
    | (rename_i e; with_reducible refine Keeps.ofFst (pq := pq) e ?_ (fun _ => ?_) <;> clear e)
    | simp only [Keeps.upd]

theorem State.loadCore_keeps {pq : List Instr} {s : State} {c : Nat} (hs : State.Keeps pq s) :
    State.Keeps pq (State.loadCore s c) := by
  unfold State.loadCore
  repeat' first
    | with_reducible assumption
    | (extract_lets -underBinder +onlyGivenNames -merge x; with_reducible refine Keeps.cut (pq := pq) x ?_ (fun _ => ?_); rotate_left; clear_value x; rotate_left; subst x)
    | (extract_lets -underBinder +onlyGivenNames -merge x; subst x)
    | with_reducible apply State.setCore_keeps
    | simp only [Keeps.upd]

theorem State.completeDecode_keeps {pq : List Instr} {s : State} {j : CodecJob} {tick : Option Int} (hs : State.Keeps pq s) :
    State.Keeps pq (State.completeDecode s j tick) := by
  unfold State.completeDecode
  repeat' first
    | with_reducible assumption
    | (rename_i e; with_reducible refine Keeps.ofSnd (pq := pq) e ?_ (fun _ => ?_) <;> clear e)
    | (rename_i e; with_reducible refine Keeps.ofFst (pq := pq) e ?_ (fun _ => ?_) <;> clear e)
    | with_reducible apply State.settleDec_keeps
    | with_reducible apply State.decodeDone_keeps
    | intro _
    | split
    | simp only [Keeps.upd]

theorem State.skipPicture_keeps {pq : List Instr} {s : State} {i n : Nat} (hs : State.Keeps pq s) :
    State.Keeps pq (State.skipPicture s i n) := by
  unfold State.skipPicture
  repeat' first
    | with_reducible assumption
    | (extract_lets -underBinder +onlyGivenNames -merge x; with_reducible refine Keeps.cut (pq := pq) x ?_ (fun _ => ?_); rotate_left; clear_value x; rotate_left; subst x)
    | (extract_lets -underBinder +onlyGivenNames -merge x; subst x)
    | with_reducible apply State.completeDecode_keeps
    | with_reducible apply State.updEntry_keeps
    | with_reducible apply State.setDec_keeps
    | intro _
    | split
    | simp only [Keeps.upd]

theorem State.present_keeps {pq : List Instr} {s : State} {i n : Nat} {k : Int} (hs : State.Keeps pq s) :
    State.Keeps pq (State.present s i n k) := by
  unfold State.present
  repeat' first
    | with_reducible assumption
    | (extract_lets -underBinder +onlyGivenNames -merge x; with_reducible refine Keeps.cut (pq := pq) x ?_ (fun _ => ?_); rotate_left; clear_value x; rotate_left; subst x)
    | (extract_lets -underBinder +onlyGivenNames -merge x; subst x)
    | with_reducible apply State.skipPicture_keeps
    | with_reducible apply State.completeDecode_keeps
    | with_reducible apply State.updEntry_keeps
    | (with_reducible refine forEach_keeps ?_ (fun _ _ _ => ?_))
    | intro _
    | split
    | simp only [Keeps.upd]

theorem State.presentTick_keeps {pq : List Instr} {s : State} {g : Fin 4} {k : Int} (hs : State.Keeps pq s) :
    State.Keeps pq (State.presentTick s g k) := by
  unfold State.presentTick
  repeat' first
    | with_reducible assumption
    | (extract_lets -underBinder +onlyGivenNames -merge x; with_reducible refine Keeps.cut (pq := pq) x ?_ (fun _ => ?_); rotate_left; clear_value x; rotate_left; subst x)
    | (extract_lets -underBinder +onlyGivenNames -merge x; subst x)
    | with_reducible apply State.updEntry_keeps
    | with_reducible apply State.setDec_keeps
    | (with_reducible refine forEach_keeps ?_ (fun _ _ _ => ?_))
    | (with_reducible refine foldl_keeps ?_ (fun _ _ _ => ?_))
    | intro _
    | split
    | simp only [Keeps.upd]

theorem State.presentFrom_keeps {pq : List Instr} {s : State} {i : Nat} {a0 : List Nat} {a1 : Int} (hs : State.Keeps pq s) :
    State.Keeps pq (State.presentFrom s i a0 a1) := by
  induction a0 generalizing s i a1 with
  | nil =>
    unfold State.presentFrom
    repeat' first
      | with_reducible assumption
      | with_reducible apply State.present_keeps
      | split

  | cons e l ih =>
    unfold State.presentFrom
    repeat' first
      | with_reducible assumption
      | with_reducible apply ih
      | (rename_i h; injection h with h1 h2; subst h1 h2)
      | with_reducible apply State.present_keeps
      | split

theorem State.presentLast_keeps {pq : List Instr} {s : State} {i : Nat} {a0 : List Nat} {a1 : Int} (hs : State.Keeps pq s) :
    State.Keeps pq (State.presentLast s i a0 a1) := by
  induction a0 generalizing s i a1 with
  | nil =>
    unfold State.presentLast
    repeat' first
      | with_reducible assumption
      | with_reducible apply State.present_keeps
      | with_reducible apply State.skipPicture_keeps
      | split

  | cons e l ih =>
    unfold State.presentLast
    repeat' first
      | with_reducible assumption
      | with_reducible apply ih
      | (rename_i h; injection h with h1 h2; subst h1 h2)
      | with_reducible apply State.present_keeps
      | with_reducible apply State.skipPicture_keeps
      | split

theorem State.countJob_keeps {pq : List Instr} {s : State} {j : CodecJob} {cycles : Nat} (hs : State.Keeps pq s) :
    State.Keeps pq (State.countJob s j cycles) := by
  unfold State.countJob
  repeat' first
    | with_reducible assumption
    | (rename_i e; with_reducible refine Keeps.ofSnd (pq := pq) e ?_ (fun _ => ?_) <;> clear e)
    | (rename_i e; with_reducible refine Keeps.ofFst (pq := pq) e ?_ (fun _ => ?_) <;> clear e)
    | (extract_lets -underBinder +onlyGivenNames -merge x; with_reducible refine Keeps.cut (pq := pq) x ?_ (fun _ => ?_); rotate_left; clear_value x; rotate_left; subst x)
    | (extract_lets -underBinder +onlyGivenNames -merge x; subst x)
    | with_reducible apply State.settleGate_keeps
    | with_reducible apply State.freeCoresOf_keeps
    | with_reducible apply State.setCore_keeps
    | (with_reducible refine forEach_keeps ?_ (fun _ _ _ => ?_))
    | intro _
    | split
    | simp only [Keeps.upd]

theorem State.grainCopy_keepsE {pq : List Instr} {s : State} {i : Nat} {tv2 v1} (e : State.grainCopy s i = (some (v1, tv2))) (hs : State.Keeps pq s) :
    State.Keeps pq tv2 := by
  unfold State.grainCopy at e
  (try dsimp only at e)
  repeat' (split at e)
  all_goals first
    | (cases e <;> (
       repeat' first
         | with_reducible assumption
         | (rename_i e; with_reducible refine Keeps.ofSnd (pq := pq) e ?_ (fun _ => ?_) <;> clear e)
         | (rename_i e; with_reducible refine Keeps.ofFst (pq := pq) e ?_ (fun _ => ?_) <;> clear e)
         | with_reducible apply State.setDec_keeps
         | with_reducible apply State.request_keepsP
         | (with_reducible refine State.request_keepsE (by with_reducible assumption) ?_)
         | intro _
         | split
         | simp only [Keeps.upd]
       done))
    | (
       repeat' first
         | with_reducible assumption
         | (rename_i e; with_reducible refine Keeps.ofSnd (pq := pq) e ?_ (fun _ => ?_) <;> clear e)
         | (rename_i e; with_reducible refine Keeps.ofFst (pq := pq) e ?_ (fun _ => ?_) <;> clear e)
         | with_reducible apply State.setDec_keeps
         | with_reducible apply State.request_keepsP
         | (with_reducible refine State.request_keepsE (by with_reducible assumption) ?_)
         | intro _
         | split
         | simp only [Keeps.upd]
       done)

theorem State.decodeRan_keeps {pq : List Instr} {s : State} {x : Ending} {p : PicFacts} {picture : Bool} {status : Status} {v : Shown} {methods flags used budget : Nat} (hs : State.Keeps pq s) :
    State.Keeps pq (State.decodeRan s x p picture status v methods flags used budget) := by
  unfold State.decodeRan
  repeat' first
    | with_reducible assumption
    | (rename_i e; with_reducible refine Keeps.ofSnd (pq := pq) e ?_ (fun _ => ?_) <;> clear e)
    | (rename_i e; with_reducible refine Keeps.ofFst (pq := pq) e ?_ (fun _ => ?_) <;> clear e)
    | (extract_lets -underBinder +onlyGivenNames -merge x; with_reducible refine Keeps.cut (pq := pq) x ?_ (fun _ => ?_); rotate_left; clear_value x; rotate_left; subst x)
    | (extract_lets -underBinder +onlyGivenNames -merge x; subst x)
    | with_reducible apply State.countJob_keeps
    | with_reducible apply State.updJob_keeps
    | with_reducible apply State.charge_keeps
    | with_reducible apply State.setDec_keeps
    | with_reducible apply State.count_keeps
    | intro _
    | split
    | simp only [Keeps.upd]

theorem State.bumpAll_keeps {pq : List Instr} {s : State} {x : Ending} {last : List Nat} (hs : State.Keeps pq s) :
    State.Keeps pq (State.bumpAll s x last) := by
  unfold State.bumpAll
  repeat' first
    | with_reducible assumption
    | with_reducible apply State.presentFrom_keeps
    | with_reducible apply State.releaseRefs_keeps
    | intro _
    | split
    | simp only [Keeps.upd]

theorem State.endUnshown_keeps {pq : List Instr} {s : State} {j : CodecJob} (hs : State.Keeps pq s) :
    State.Keeps pq (State.endUnshown s j) := by
  unfold State.endUnshown
  repeat' first
    | with_reducible assumption
    | (rename_i e; with_reducible refine Keeps.ofSnd (pq := pq) e ?_ (fun _ => ?_) <;> clear e)
    | (rename_i e; with_reducible refine Keeps.ofFst (pq := pq) e ?_ (fun _ => ?_) <;> clear e)
    | with_reducible apply State.completeDecode_keeps
    | intro _
    | split
    | simp only [Keeps.upd]

theorem State.endNoPicture_keeps {pq : List Instr} {s : State} {x : Ending} {p : PicFacts} {refused : Option Nat} (hs : State.Keeps pq s) :
    State.Keeps pq (State.endNoPicture s x p refused) := by
  unfold State.endNoPicture
  repeat' first
    | with_reducible assumption
    | (rename_i e; with_reducible refine Keeps.ofSnd (pq := pq) e ?_ (fun _ => ?_) <;> clear e)
    | (rename_i e; with_reducible refine Keeps.ofFst (pq := pq) e ?_ (fun _ => ?_) <;> clear e)
    | (extract_lets -underBinder +onlyGivenNames -merge x; with_reducible refine Keeps.cut (pq := pq) x ?_ (fun _ => ?_); rotate_left; clear_value x; rotate_left; subst x)
    | (extract_lets -underBinder +onlyGivenNames -merge x; subst x)
    | with_reducible apply State.endUnshown_keeps
    | with_reducible apply State.bumpAll_keeps
    | with_reducible apply State.decodeRan_keeps
    | with_reducible apply State.updEntry_keeps
    | with_reducible apply State.concealBlocks_keeps
    | with_reducible apply State.count_keeps
    | intro _
    | split
    | simp only [Keeps.upd]

theorem State.endExisting_keeps {pq : List Instr} {s : State} {x : Ending} {p : PicFacts} {e : Nat} (hs : State.Keeps pq s) :
    State.Keeps pq (State.endExisting s x p e) := by
  unfold State.endExisting
  repeat' first
    | with_reducible assumption
    | (rename_i e; with_reducible refine Keeps.ofSnd (pq := pq) e ?_ (fun _ => ?_) <;> clear e)
    | (rename_i e; with_reducible refine Keeps.ofFst (pq := pq) e ?_ (fun _ => ?_) <;> clear e)
    | (extract_lets -underBinder +onlyGivenNames -merge x; with_reducible refine Keeps.cut (pq := pq) x ?_ (fun _ => ?_); rotate_left; clear_value x; rotate_left; subst x)
    | (extract_lets -underBinder +onlyGivenNames -merge x; subst x)
    | with_reducible apply State.endUnshown_keeps
    | with_reducible apply State.bumpAll_keeps
    | with_reducible apply State.decodeRan_keeps
    | with_reducible apply State.presentLast_keeps
    | with_reducible apply State.updEntry_keeps
    | with_reducible apply State.pictureWrites_keeps
    | intro _
    | split
    | simp only [Keeps.upd]

theorem State.endPicture_keeps {pq : List Instr} {s : State} {x : Ending} {p : PicFacts} (hs : State.Keeps pq s) :
    State.Keeps pq (State.endPicture s x p) := by
  unfold State.endPicture
  repeat' first
    | with_reducible assumption
    | (rename_i e; with_reducible refine Keeps.ofSnd (pq := pq) e ?_ (fun _ => ?_) <;> clear e)
    | (rename_i e; with_reducible refine Keeps.ofFst (pq := pq) e ?_ (fun _ => ?_) <;> clear e)
    | (extract_lets -underBinder +onlyGivenNames -merge x; with_reducible refine Keeps.cut (pq := pq) x ?_ (fun _ => ?_); rotate_left; clear_value x; rotate_left; subst x)
    | (extract_lets -underBinder +onlyGivenNames -merge x; subst x)
    | with_reducible apply State.endUnshown_keeps
    | with_reducible apply State.bumpAll_keeps
    | with_reducible apply State.decodeRan_keeps
    | with_reducible apply State.presentLast_keeps
    | with_reducible apply State.updEntries_keeps
    | with_reducible apply State.updEntry_keeps
    | with_reducible apply State.coreFault_keeps
    | with_reducible apply State.concealBlocks_keeps
    | with_reducible apply State.pictureWrites_keeps
    | with_reducible apply State.scanReads_keeps
    | with_reducible apply State.count_keeps
    | (with_reducible refine forEach_keeps ?_ (fun _ _ _ => ?_))
    | intro _
    | split
    | simp only [Keeps.upd]

theorem State.decodeEnd_keeps {pq : List Instr} {s : State} {j : CodecJob} {d : DecStream} {p : PicFacts} {n : Nat} {m : Option Nat} (hs : State.Keeps pq s) :
    State.Keeps pq (State.decodeEnd s j d p n m) := by
  unfold State.decodeEnd
  repeat' first
    | with_reducible assumption
    | (rename_i e; with_reducible refine Keeps.ofSnd (pq := pq) e ?_ (fun _ => ?_) <;> clear e)
    | (rename_i e; with_reducible refine Keeps.ofFst (pq := pq) e ?_ (fun _ => ?_) <;> clear e)
    | (extract_lets -underBinder +onlyGivenNames -merge x; with_reducible refine Keeps.cut (pq := pq) x ?_ (fun _ => ?_); rotate_left; clear_value x; rotate_left; subst x)
    | (extract_lets -underBinder +onlyGivenNames -merge x; subst x)
    | with_reducible apply State.endPicture_keeps
    | with_reducible apply State.endExisting_keeps
    | with_reducible apply State.endNoPicture_keeps
    | with_reducible apply State.setDec_keeps
    | intro _
    | split
    | simp only [Keeps.upd]

theorem State.pictureEnd_keeps {pq : List Instr} {s : State} {c : Nat} {p : PicFacts} (hs : State.Keeps pq s) :
    State.Keeps pq (State.pictureEnd s c p) := by
  unfold State.pictureEnd
  repeat' first
    | with_reducible assumption
    | (rename_i e; with_reducible refine Keeps.ofSnd (pq := pq) e ?_ (fun _ => ?_) <;> clear e)
    | (rename_i e; with_reducible refine Keeps.ofFst (pq := pq) e ?_ (fun _ => ?_) <;> clear e)
    | with_reducible apply State.decodeEnd_keeps
    | (with_reducible refine State.grainCopy_keepsE (by with_reducible assumption) ?_)
    | intro _
    | split
    | simp only [Keeps.upd]

theorem State.budgetAbort_keeps {pq : List Instr} {s : State} {c : Nat} (hs : State.Keeps pq s) :
    State.Keeps pq (State.budgetAbort s c) := by
  unfold State.budgetAbort
  repeat' first
    | with_reducible assumption
    | (rename_i e; with_reducible refine Keeps.ofSnd (pq := pq) e ?_ (fun _ => ?_) <;> clear e)
    | (rename_i e; with_reducible refine Keeps.ofFst (pq := pq) e ?_ (fun _ => ?_) <;> clear e)
    | with_reducible apply State.updJob_keeps
    | with_reducible apply State.setCore_keeps
    | (with_reducible refine forEach_keeps ?_ (fun _ _ _ => ?_))
    | intro _
    | split
    | simp only [Keeps.upd]

theorem State.handPacket_keeps {pq : List Instr} {s : State} {p : Packet} (hs : State.Keeps pq s) :
    State.Keeps pq (State.handPacket s p) := by
  unfold State.handPacket
  repeat' first
    | with_reducible assumption
    | (rename_i e; with_reducible refine Keeps.ofSnd (pq := pq) e ?_ (fun _ => ?_) <;> clear e)
    | (rename_i e; with_reducible refine Keeps.ofFst (pq := pq) e ?_ (fun _ => ?_) <;> clear e)
    | with_reducible apply State.placeFrame_keeps
    | with_reducible apply State.dropOpt_keeps
    | intro _
    | split
    | simp only [Keeps.upd]

theorem State.sendPackets_keeps {pq : List Instr} {s : State} {j : CodecJob} {e : EncStream} {queue : Nat} {l : List (List Byte)} (hs : State.Keeps pq s) :
    State.Keeps pq (State.sendPackets s j e queue l) := by
  unfold State.sendPackets
  repeat' first
    | with_reducible assumption
    | (rename_i e; with_reducible refine Keeps.ofSnd (pq := pq) e ?_ (fun _ => ?_) <;> clear e)
    | (rename_i e; with_reducible refine Keeps.ofFst (pq := pq) e ?_ (fun _ => ?_) <;> clear e)
    | (extract_lets -underBinder +onlyGivenNames -merge x; with_reducible refine Keeps.cut (pq := pq) x ?_ (fun _ => ?_); rotate_left; clear_value x; rotate_left; subst x)
    | (extract_lets -underBinder +onlyGivenNames -merge x; subst x)
    | with_reducible apply State.handPacket_keeps
    | with_reducible apply State.dropOpt_keeps
    | with_reducible apply State.takeBuf_keeps
    | with_reducible apply State.request_keepsP
    | (with_reducible refine State.request_keepsE (by with_reducible assumption) ?_)
    | (with_reducible refine forEach_keeps ?_ (fun _ _ _ => ?_))
    | (with_reducible refine foldl_keeps ?_ (fun _ _ _ => ?_))
    | intro _
    | split
    | simp only [Keeps.upd]

theorem State.encRan_keeps {pq : List Instr} {s : State} {j : CodecJob} {e : EncStream} {cycles : Nat} (hs : State.Keeps pq s) :
    State.Keeps pq (State.encRan s j e cycles) := by
  unfold State.encRan
  repeat' first
    | with_reducible assumption
    | with_reducible apply State.countJob_keeps
    | with_reducible apply State.charge_keeps

theorem State.encDone_keeps {pq : List Instr} {s : State} {j : CodecJob} {st : Status} {r0 r1 : Nat} {detail : Option Nat} (hs : State.Keeps pq s) :
    State.Keeps pq (State.encDone s j st r0 r1 detail) := by
  unfold State.encDone
  repeat' first
    | with_reducible assumption
    | with_reducible apply State.settleEnc_keeps
    | with_reducible apply State.dropJob_keeps
    | with_reducible apply State.dropOpt_keeps
    | with_reducible apply State.jobDone_keeps

theorem State.frameRecords_keeps {pq : List Instr} {s : State} {j : CodecJob} {e : EncStream} {outs : List RungEnd} {st : Status} {lost : Bool} (hs : State.Keeps pq s) :
    State.Keeps pq (State.frameRecords s j e outs st lost) := by
  unfold State.frameRecords
  repeat' first
    | with_reducible assumption
    | (rename_i e; with_reducible refine Keeps.ofSnd (pq := pq) e ?_ (fun _ => ?_) <;> clear e)
    | (rename_i e; with_reducible refine Keeps.ofFst (pq := pq) e ?_ (fun _ => ?_) <;> clear e)
    | (extract_lets -underBinder +onlyGivenNames -merge x; with_reducible refine Keeps.cut (pq := pq) x ?_ (fun _ => ?_); rotate_left; clear_value x; rotate_left; subst x)
    | (extract_lets -underBinder +onlyGivenNames -merge x; subst x)
    | with_reducible apply State.putRecords_keeps
    | intro _
    | split
    | simp only [Keeps.upd]

theorem State.encodeWasted_keeps {pq : List Instr} {s : State} {j : CodecJob} {e : EncStream} {x : EncFacts} (hs : State.Keeps pq s) :
    State.Keeps pq (State.encodeWasted s j e x) := by
  unfold State.encodeWasted
  repeat' first
    | with_reducible assumption
    | (rename_i e; with_reducible refine Keeps.ofSnd (pq := pq) e ?_ (fun _ => ?_) <;> clear e)
    | (rename_i e; with_reducible refine Keeps.ofFst (pq := pq) e ?_ (fun _ => ?_) <;> clear e)
    | (extract_lets -underBinder +onlyGivenNames -merge x; with_reducible refine Keeps.cut (pq := pq) x ?_ (fun _ => ?_); rotate_left; clear_value x; rotate_left; subst x)
    | (extract_lets -underBinder +onlyGivenNames -merge x; subst x)
    | with_reducible apply State.encDone_keeps
    | with_reducible apply State.encRan_keeps
    | with_reducible apply State.restoreEnc_keeps
    | with_reducible apply State.lostFault_keeps
    | with_reducible apply State.blankRecords_keeps
    | with_reducible apply State.dropBuf_keeps
    | (with_reducible refine forEach_keeps ?_ (fun _ _ _ => ?_))
    | intro _
    | split
    | simp only [Keeps.upd]

theorem State.readFrame_keeps {pq : List Instr} {s : State} {j : CodecJob} {e : EncStream} (hs : State.Keeps pq s) :
    State.Keeps pq (State.readFrame s j e) := by
  unfold State.readFrame
  repeat' first
    | with_reducible assumption
    | (rename_i e; with_reducible refine Keeps.ofSnd (pq := pq) e ?_ (fun _ => ?_) <;> clear e)
    | (rename_i e; with_reducible refine Keeps.ofFst (pq := pq) e ?_ (fun _ => ?_) <;> clear e)
    | with_reducible apply State.devRead_keeps
    | intro _
    | split
    | simp only [Keeps.upd]

theorem State.writeRecons_keeps {pq : List Instr} {s : State} {j : CodecJob} {e : EncStream} {outs : List RungEnd} (hs : State.Keeps pq s) :
    State.Keeps pq (State.writeRecons s j e outs) := by
  unfold State.writeRecons
  repeat' first
    | with_reducible assumption
    | (rename_i e; with_reducible refine Keeps.ofSnd (pq := pq) e ?_ (fun _ => ?_) <;> clear e)
    | (rename_i e; with_reducible refine Keeps.ofFst (pq := pq) e ?_ (fun _ => ?_) <;> clear e)
    | with_reducible apply State.writeRecon_keeps
    | (with_reducible refine forEach_keeps ?_ (fun _ _ _ => ?_))
    | intro _
    | split
    | simp only [Keeps.upd]

theorem State.encodeCoded_keeps {pq : List Instr} {s : State} {j : CodecJob} {e : EncStream} {x : EncFacts} (hs : State.Keeps pq s) :
    State.Keeps pq (State.encodeCoded s j e x) := by
  unfold State.encodeCoded
  repeat' first
    | with_reducible assumption
    | (rename_i e; with_reducible refine Keeps.ofSnd (pq := pq) e ?_ (fun _ => ?_) <;> clear e)
    | (rename_i e; with_reducible refine Keeps.ofFst (pq := pq) e ?_ (fun _ => ?_) <;> clear e)
    | (extract_lets -underBinder +onlyGivenNames -merge x; with_reducible refine Keeps.cut (pq := pq) x ?_ (fun _ => ?_); rotate_left; clear_value x; rotate_left; subst x)
    | (extract_lets -underBinder +onlyGivenNames -merge x; subst x)
    | with_reducible apply State.writeRecons_keeps
    | with_reducible apply State.readFrame_keeps
    | with_reducible apply State.frameRecords_keeps
    | with_reducible apply State.encDone_keeps
    | with_reducible apply State.encRan_keeps
    | with_reducible apply State.sendPackets_keeps
    | with_reducible apply State.lostFault_keeps
    | with_reducible apply State.releaseEncRefs_keeps
    | with_reducible apply State.jobWrite_keeps
    | with_reducible apply State.setEnc_keeps
    | with_reducible apply State.dropBuf_keeps
    | (with_reducible refine forEach_keeps ?_ (fun _ _ _ => ?_))
    | intro _
    | split
    | simp only [Keeps.upd]

theorem State.encodeEnd_keeps {pq : List Instr} {s : State} {c : Nat} {x : EncFacts} (hs : State.Keeps pq s) :
    State.Keeps pq (State.encodeEnd s c x) := by
  unfold State.encodeEnd
  repeat' first
    | with_reducible assumption
    | (rename_i e; with_reducible refine Keeps.ofSnd (pq := pq) e ?_ (fun _ => ?_) <;> clear e)
    | (rename_i e; with_reducible refine Keeps.ofFst (pq := pq) e ?_ (fun _ => ?_) <;> clear e)
    | with_reducible apply State.encodeCoded_keeps
    | with_reducible apply State.encodeWasted_keeps
    | intro _
    | split
    | simp only [Keeps.upd]

theorem State.packetRelease_keeps {pq : List Instr} {s : State} {i : Nat} (hs : State.Keeps pq s) :
    State.Keeps pq (State.packetRelease s i) := by
  unfold State.packetRelease
  repeat' first
    | with_reducible assumption
    | (rename_i e; with_reducible refine Keeps.ofSnd (pq := pq) e ?_ (fun _ => ?_) <;> clear e)
    | (rename_i e; with_reducible refine Keeps.ofFst (pq := pq) e ?_ (fun _ => ?_) <;> clear e)
    | with_reducible apply State.handPacket_keeps
    | with_reducible apply State.advanceTo_keeps
    | intro _
    | split
    | simp only [Keeps.upd]

theorem State.sourceFrame_keeps {pq : List Instr} {s : State} {i : Nat} {n : Int} {buffer : Option Nat} {mask : Nat} {colour : List Byte} (hs : State.Keeps pq s) :
    State.Keeps pq (State.sourceFrame s i n buffer mask colour) := by
  unfold State.sourceFrame
  repeat' first
    | with_reducible assumption
    | (rename_i e; with_reducible refine Keeps.ofSnd (pq := pq) e ?_ (fun _ => ?_) <;> clear e)
    | (rename_i e; with_reducible refine Keeps.ofFst (pq := pq) e ?_ (fun _ => ?_) <;> clear e)
    | (extract_lets -underBinder +onlyGivenNames -merge x; with_reducible refine Keeps.cut (pq := pq) x ?_ (fun _ => ?_); rotate_left; clear_value x; rotate_left; subst x)
    | (extract_lets -underBinder +onlyGivenNames -merge x; subst x)
    | with_reducible apply State.budgetAbort_keeps
    | with_reducible apply State.lostFault_keeps
    | with_reducible apply State.emptyRecords_keeps
    | with_reducible apply State.freeCoresOf_keeps
    | with_reducible apply State.dropJob_keeps
    | with_reducible apply State.charge_keeps
    | with_reducible apply State.setEnc_keeps
    | with_reducible apply State.dropOpt_keeps
    | with_reducible apply State.takeBuf_keeps
    | intro _
    | split
    | simp only [Keeps.upd]

theorem State.addJob_keeps {pq : List Instr} {s : State} {j : CodecJob} (hs : State.Keeps pq s) :
    State.Keeps pq (State.addJob s j) := by
  unfold State.addJob
  repeat' first
    | with_reducible assumption
    | (extract_lets -underBinder +onlyGivenNames -merge x; with_reducible refine Keeps.cut (pq := pq) x ?_ (fun _ => ?_); rotate_left; clear_value x; rotate_left; subst x)
    | (extract_lets -underBinder +onlyGivenNames -merge x; subst x)
    | with_reducible apply State.missJob_keeps
    | split
    | simp only [Keeps.upd]

theorem State.submitDecode_keeps {pq : List Instr} {s : State} {i : Nat} {o : JobOrigin} {fn : Nat} {addr : DWord} {len : Nat} {flags : Byte} {ref : Nat} {status : DWord} (hs : State.Keeps pq s) :
    State.Keeps pq (State.submitDecode s i o fn addr len flags ref status) := by
  unfold State.submitDecode
  repeat' first
    | with_reducible assumption
    | (rename_i e; with_reducible refine Keeps.ofSnd (pq := pq) e ?_ (fun _ => ?_) <;> clear e)
    | (rename_i e; with_reducible refine Keeps.ofFst (pq := pq) e ?_ (fun _ => ?_) <;> clear e)
    | (extract_lets -underBinder +onlyGivenNames -merge x; with_reducible refine Keeps.cut (pq := pq) x ?_ (fun _ => ?_); rotate_left; clear_value x; rotate_left; subst x)
    | (extract_lets -underBinder +onlyGivenNames -merge x; subst x)
    | with_reducible apply State.addJob_keeps
    | with_reducible apply State.decodeDone_keeps
    | with_reducible apply State.charge_keeps
    | with_reducible apply State.setDec_keeps
    | intro _
    | split
    | simp only [Keeps.upd]

theorem State.submitEncode_keeps {pq : List Instr} {s : State} {i : Nat} {o : JobOrigin} {fn : Nat} {addr out : DWord} {size : Nat} {flags : Byte} {ref : Nat} (hs : State.Keeps pq s) :
    State.Keeps pq (State.submitEncode s i o fn addr out size flags ref) := by
  unfold State.submitEncode
  repeat' first
    | with_reducible assumption
    | (rename_i e; with_reducible refine Keeps.ofSnd (pq := pq) e ?_ (fun _ => ?_) <;> clear e)
    | (rename_i e; with_reducible refine Keeps.ofFst (pq := pq) e ?_ (fun _ => ?_) <;> clear e)
    | (extract_lets -underBinder +onlyGivenNames -merge x; with_reducible refine Keeps.cut (pq := pq) x ?_ (fun _ => ?_); rotate_left; clear_value x; rotate_left; subst x)
    | (extract_lets -underBinder +onlyGivenNames -merge x; subst x)
    | with_reducible apply State.addJob_keeps
    | with_reducible apply State.emptyRecords_keeps
    | with_reducible apply State.charge_keeps
    | with_reducible apply State.setEnc_keeps
    | with_reducible apply State.jobDone_keeps
    | (with_reducible refine foldl_keeps ?_ (fun _ _ _ => ?_))
    | intro _
    | split
    | simp only [Keeps.upd]

theorem State.microword_keeps {pq : List Instr} {s : State} {c : Nat} {i : SeqInput} (hs : State.Keeps pq s) :
    State.Keeps pq (State.microword s c i) := by
  unfold State.microword
  repeat' first
    | with_reducible assumption
    | (rename_i e; with_reducible refine Keeps.ofSnd (pq := pq) e ?_ (fun _ => ?_) <;> clear e)
    | (rename_i e; with_reducible refine Keeps.ofFst (pq := pq) e ?_ (fun _ => ?_) <;> clear e)
    | (extract_lets -underBinder +onlyGivenNames -merge x; with_reducible refine Keeps.cut (pq := pq) x ?_ (fun _ => ?_); rotate_left; clear_value x; rotate_left; subst x)
    | (extract_lets -underBinder +onlyGivenNames -merge x; subst x)
    | with_reducible apply State.coreFault_keeps
    | with_reducible apply State.setCore_keeps
    | intro _
    | split
    | simp only [Keeps.upd]

theorem State.codecRecovery_keeps {pq : List Instr} {s : State} (hs : State.Keeps pq s) :
    State.Keeps pq (State.codecRecovery s) := by
  unfold State.codecRecovery
  repeat' first
    | with_reducible assumption
    | (extract_lets -underBinder +onlyGivenNames -merge x; with_reducible refine Keeps.cut (pq := pq) x ?_ (fun _ => ?_); rotate_left; clear_value x; rotate_left; subst x)
    | (extract_lets -underBinder +onlyGivenNames -merge x; subst x)
    | with_reducible apply State.releaseEncRefs_keeps
    | with_reducible apply State.releaseRefs_keeps
    | with_reducible apply State.setEnc_keeps
    | (with_reducible refine forEach_keeps ?_ (fun _ _ _ => ?_))
    | intro _
    | split
    | simp only [Keeps.upd]

theorem State.keyNextAll_keeps {pq : List Instr} {s : State} (hs : State.Keeps pq s) :
    State.Keeps pq (State.keyNextAll s) := by
  unfold State.keyNextAll
  repeat' first
    | with_reducible assumption
    | intro _
    | split
    | simp only [Keeps.upd]

theorem State.endJobs_keeps {pq : List Instr} {s : State} {st : Status} {sel : CodecJob → Bool} (hs : State.Keeps pq s) :
    State.Keeps pq (State.endJobs s st sel) := by
  unfold State.endJobs
  repeat' first
    | with_reducible assumption
    | (rename_i e; with_reducible refine Keeps.ofSnd (pq := pq) e ?_ (fun _ => ?_) <;> clear e)
    | (rename_i e; with_reducible refine Keeps.ofFst (pq := pq) e ?_ (fun _ => ?_) <;> clear e)
    | (extract_lets -underBinder +onlyGivenNames -merge x; with_reducible refine Keeps.cut (pq := pq) x ?_ (fun _ => ?_); rotate_left; clear_value x; rotate_left; subst x)
    | (extract_lets -underBinder +onlyGivenNames -merge x; subst x)
    | with_reducible apply State.completeDecode_keeps
    | with_reducible apply State.endRun_keeps
    | with_reducible apply State.restoreEnc_keeps
    | with_reducible apply State.emptyRecords_keeps
    | (with_reducible refine forEach_keeps ?_ (fun _ _ _ => ?_))
    | intro _
    | split
    | simp only [Keeps.upd]

theorem execCodecJobStart_keeps {pq : List Instr} {x : Tiling} {w h : Nat} {s : State} (hs : State.Keeps pq s) :
    KeepsO pq (execCodecJobStart x w h s) := by
  unfold execCodecJobStart
  repeat' first
    | with_reducible assumption
    | with_reducible apply KeepsO.mk
    | (rename_i e; with_reducible refine Keeps.ofSnd (pq := pq) e ?_ (fun _ => ?_) <;> clear e)
    | (rename_i e; with_reducible refine Keeps.ofFst (pq := pq) e ?_ (fun _ => ?_) <;> clear e)
    | with_reducible apply State.codecStart_keeps
    | intro _
    | split
    | simp only [Keeps.upd]

theorem execPictureEnd_keeps {pq : List Instr} {c : Fin 8} {p : PicFacts} {s : State} (hs : State.Keeps pq s) :
    KeepsO pq (execPictureEnd c p s) := by
  unfold execPictureEnd
  repeat' first
    | with_reducible assumption
    | with_reducible apply KeepsO.mk
    | with_reducible apply State.pictureEnd_keeps

theorem execBudgetAbort_keeps {pq : List Instr} {c : Fin 8} {s : State} (hs : State.Keeps pq s) :
    KeepsO pq (execBudgetAbort c s) := by
  unfold execBudgetAbort
  repeat' first
    | with_reducible assumption
    | with_reducible apply KeepsO.mk
    | with_reducible apply State.budgetAbort_keeps

theorem execEncodeFrameEnd_keeps {pq : List Instr} {c : Fin 8} {e : EncFacts} {s : State} (hs : State.Keeps pq s) :
    KeepsO pq (execEncodeFrameEnd c e s) := by
  unfold execEncodeFrameEnd
  repeat' first
    | with_reducible assumption
    | with_reducible apply KeepsO.mk
    | with_reducible apply State.encodeEnd_keeps

theorem execEncodePacketRelease_keeps {pq : List Instr} {i : Fin 256} {s : State} (hs : State.Keeps pq s) :
    KeepsO pq (execEncodePacketRelease i s) := by
  unfold execEncodePacketRelease
  repeat' first
    | with_reducible assumption
    | with_reducible apply KeepsO.mk
    | with_reducible apply State.packetRelease_keeps

theorem execMicroword_keeps {pq : List Instr} {c : Fin 8} {x : SeqInput} {s : State} (hs : State.Keeps pq s) :
    KeepsO pq (execMicroword c x s) := by
  unfold execMicroword
  repeat' first
    | with_reducible assumption
    | with_reducible apply KeepsO.mk
    | with_reducible apply State.microword_keeps
    | intro _
    | split
    | simp only [Keeps.upd]

theorem execSequencerWatchdog_keeps {pq : List Instr} {c : Fin 8} {s : State} (hs : State.Keeps pq s) :
    KeepsO pq (execSequencerWatchdog c s) := by
  unfold execSequencerWatchdog
  repeat' first
    | with_reducible assumption
    | with_reducible apply KeepsO.mk
    | with_reducible apply State.coreFault_keeps
    | with_reducible apply State.setCore_keeps
    | split
    | simp only [Keeps.upd]

theorem execBufferTake_keeps {pq : List Instr} {a : BitVec 48} {s : State} (hs : State.Keeps pq s) :
    KeepsO pq (execBufferTake a s) := by
  unfold execBufferTake
  repeat' first
    | with_reducible assumption
    | with_reducible apply KeepsO.mk
    | (rename_i e; with_reducible refine Keeps.ofSnd (pq := pq) e ?_ (fun _ => ?_) <;> clear e)
    | (rename_i e; with_reducible refine Keeps.ofFst (pq := pq) e ?_ (fun _ => ?_) <;> clear e)
    | with_reducible apply State.holderTakes_keeps
    | with_reducible apply State.fault_keeps
    | with_reducible apply State.raise_keeps
    | intro _
    | split
    | simp only [Keeps.upd]

theorem execBufferDrop_keeps {pq : List Instr} {a : BitVec 48} {s : State} (hs : State.Keeps pq s) :
    KeepsO pq (execBufferDrop a s) := by
  unfold execBufferDrop
  repeat' first
    | with_reducible assumption
    | with_reducible apply KeepsO.mk
    | (rename_i e; with_reducible refine Keeps.ofSnd (pq := pq) e ?_ (fun _ => ?_) <;> clear e)
    | (rename_i e; with_reducible refine Keeps.ofFst (pq := pq) e ?_ (fun _ => ?_) <;> clear e)
    | with_reducible apply State.holderDrops_keeps
    | with_reducible apply State.fault_keeps
    | with_reducible apply State.raise_keeps
    | intro _
    | split
    | simp only [Keeps.upd]

theorem execCdcPoolEvictRead_keeps {pq : List Instr} {s : State} (hs : State.Keeps pq s) :
    KeepsO pq (execCdcPoolEvictRead s) := by
  unfold execCdcPoolEvictRead
  repeat' first
    | with_reducible assumption
    | with_reducible apply KeepsO.mk
    | with_reducible apply State.setRd_keeps
    | split
    | simp only [Keeps.upd]

theorem State.setOut_keeps {pq : List Instr} {s : State} {o : Nat} {x : Option Output} (hs : State.Keeps pq s) :
    State.Keeps pq (State.setOut s o x) := by
  unfold State.setOut
  repeat' first
    | with_reducible assumption
    | simp only [Keeps.upd]

theorem State.updOut_keeps {pq : List Instr} {s : State} {o : Nat} {f : Output → Output} (hs : State.Keeps pq s) :
    State.Keeps pq (State.updOut s o f) := by
  unfold State.updOut
  repeat' first
    | with_reducible assumption
    | with_reducible apply State.setOut_keeps
    | split
    | simp only [Keeps.upd]

theorem State.updCounts_keeps {pq : List Instr} {s : State} {o : Nat} {f : OutCounts → OutCounts} (hs : State.Keeps pq s) :
    State.Keeps pq (State.updCounts s o f) := by
  unfold State.updCounts
  repeat' first
    | with_reducible assumption
    | simp only [Keeps.upd]

theorem State.useAtlas_keeps {pq : List Instr} {s : State} {a : DWord} {kib glyphs : Nat} (hs : State.Keeps pq s) :
    State.Keeps pq (State.useAtlas s a kib glyphs) := by
  unfold State.useAtlas
  repeat' first
    | with_reducible assumption
    | (rename_i e; with_reducible refine Keeps.ofSnd (pq := pq) e ?_ (fun _ => ?_) <;> clear e)
    | (rename_i e; with_reducible refine Keeps.ofFst (pq := pq) e ?_ (fun _ => ?_) <;> clear e)
    | (extract_lets -underBinder +onlyGivenNames -merge x; with_reducible refine Keeps.cut (pq := pq) x ?_ (fun _ => ?_); rotate_left; clear_value x; rotate_left; subst x)
    | (extract_lets -underBinder +onlyGivenNames -merge x; subst x)
    | intro _
    | split
    | simp only [Keeps.upd]

theorem State.leaveAtlas_keeps {pq : List Instr} {s : State} {a : DWord} (hs : State.Keeps pq s) :
    State.Keeps pq (State.leaveAtlas s a) := by
  unfold State.leaveAtlas
  repeat' first
    | with_reducible assumption
    | intro _
    | split
    | simp only [Keeps.upd]

theorem State.dropContent_keeps {pq : List Instr} {s : State} {p : Plane} (hs : State.Keeps pq s) :
    State.Keeps pq (State.dropContent s p) := by
  unfold State.dropContent
  repeat' first
    | with_reducible assumption
    | (extract_lets -underBinder +onlyGivenNames -merge x; with_reducible refine Keeps.cut (pq := pq) x ?_ (fun _ => ?_); rotate_left; clear_value x; rotate_left; subst x)
    | (extract_lets -underBinder +onlyGivenNames -merge x; subst x)
    | with_reducible apply State.leaveAtlas_keeps
    | with_reducible apply State.dropOpt_keeps
    | split
    | simp only [Keeps.upd]

theorem State.applyUpdate_keeps {pq : List Instr} {s : State} {o : Nat} {u : PlaneUpdate} (hs : State.Keeps pq s) :
    State.Keeps pq (State.applyUpdate s o u) := by
  unfold State.applyUpdate
  repeat' first
    | with_reducible assumption
    | (rename_i e; with_reducible refine Keeps.ofSnd (pq := pq) e ?_ (fun _ => ?_) <;> clear e)
    | (rename_i e; with_reducible refine Keeps.ofFst (pq := pq) e ?_ (fun _ => ?_) <;> clear e)
    | (extract_lets -underBinder +onlyGivenNames -merge x; with_reducible refine Keeps.cut (pq := pq) x ?_ (fun _ => ?_); rotate_left; clear_value x; rotate_left; subst x)
    | (extract_lets -underBinder +onlyGivenNames -merge x; subst x)
    | with_reducible apply State.setOut_keeps
    | intro _
    | split
    | simp only [Keeps.upd]

theorem State.takePictures_keeps {pq : List Instr} {s : State} {o : Nat} {l : List (Nat × HeldPicture)} (hs : State.Keeps pq s) :
    State.Keeps pq (State.takePictures s o l) := by
  unfold State.takePictures
  repeat' first
    | with_reducible assumption
    | with_reducible apply State.updOut_keeps
    | with_reducible apply State.holdEntry_keeps
    | (with_reducible refine forEach_keeps ?_ (fun _ _ _ => ?_))
    | intro _
    | split
    | simp only [Keeps.upd]

theorem State.dropPictures_keeps {pq : List Instr} {s : State} {o : Nat} {sel : Nat × HeldPicture → Bool} (hs : State.Keeps pq s) :
    State.Keeps pq (State.dropPictures s o sel) := by
  unfold State.dropPictures
  repeat' first
    | with_reducible assumption
    | with_reducible apply State.setOut_keeps
    | with_reducible apply State.dropHeld_keeps
    | (with_reducible refine forEach_keeps ?_ (fun _ _ _ => ?_))
    | intro _
    | split
    | simp only [Keeps.upd]

theorem State.endUpdate_keeps {pq : List Instr} {s : State} {o : Nat} {u : PlaneUpdate} {st : Status} {k : Option Target} (hs : State.Keeps pq s) :
    State.Keeps pq (State.endUpdate s o u st k) := by
  unfold State.endUpdate
  repeat' first
    | with_reducible assumption
    | (rename_i e; with_reducible refine Keeps.ofSnd (pq := pq) e ?_ (fun _ => ?_) <;> clear e)
    | (rename_i e; with_reducible refine Keeps.ofFst (pq := pq) e ?_ (fun _ => ?_) <;> clear e)
    | (extract_lets -underBinder +onlyGivenNames -merge x; with_reducible refine Keeps.cut (pq := pq) x ?_ (fun _ => ?_); rotate_left; clear_value x; rotate_left; subst x)
    | (extract_lets -underBinder +onlyGivenNames -merge x; subst x)
    | with_reducible apply State.dropContent_keeps
    | with_reducible apply State.updOut_keeps
    | with_reducible apply State.jobDone_keeps
    | intro _
    | split
    | simp only [Keeps.upd]

theorem State.endSuperseded_keeps {pq : List Instr} {s : State} {o id : Nat} (hs : State.Keeps pq s) :
    State.Keeps pq (State.endSuperseded s o id) := by
  unfold State.endSuperseded
  repeat' first
    | with_reducible assumption
    | (rename_i e; with_reducible refine Keeps.ofSnd (pq := pq) e ?_ (fun _ => ?_) <;> clear e)
    | (rename_i e; with_reducible refine Keeps.ofFst (pq := pq) e ?_ (fun _ => ?_) <;> clear e)
    | with_reducible apply State.endUpdate_keeps
    | with_reducible apply State.dropContent_keeps
    | (with_reducible refine forEach_keeps ?_ (fun _ _ _ => ?_))
    | intro _
    | split
    | simp only [Keeps.upd]

theorem State.endReplaced_keeps {pq : List Instr} {s : State} {o : Nat} {take : List PlaneUpdate} (hs : State.Keeps pq s) :
    State.Keeps pq (State.endReplaced s o take) := by
  unfold State.endReplaced
  repeat' first
    | with_reducible assumption
    | (extract_lets -underBinder +onlyGivenNames -merge x; with_reducible refine Keeps.cut (pq := pq) x ?_ (fun _ => ?_); rotate_left; clear_value x; rotate_left; subst x)
    | (extract_lets -underBinder +onlyGivenNames -merge x; subst x)
    | with_reducible apply State.endSuperseded_keeps
    | with_reducible apply State.endUpdate_keeps
    | (with_reducible refine forEach_keeps ?_ (fun _ _ _ => ?_))
    | intro _
    | split
    | simp only [Keeps.upd]

theorem State.beginFrame_keeps {pq : List Instr} {s : State} {o : Nat} {k : Int} (hs : State.Keeps pq s) :
    State.Keeps pq (State.beginFrame s o k) := by
  unfold State.beginFrame
  repeat' first
    | with_reducible assumption
    | (rename_i e; with_reducible refine Keeps.ofSnd (pq := pq) e ?_ (fun _ => ?_) <;> clear e)
    | (rename_i e; with_reducible refine Keeps.ofFst (pq := pq) e ?_ (fun _ => ?_) <;> clear e)
    | (extract_lets -underBinder +onlyGivenNames -merge x; with_reducible refine Keeps.cut (pq := pq) x ?_ (fun _ => ?_); rotate_left; clear_value x; rotate_left; subst x)
    | (extract_lets -underBinder +onlyGivenNames -merge x; subst x)
    | with_reducible apply State.endReplaced_keeps
    | with_reducible apply State.takePictures_keeps
    | with_reducible apply State.applyUpdate_keeps
    | with_reducible apply State.setOut_keeps
    | with_reducible apply State.request_keepsP
    | (with_reducible refine State.request_keepsE (by with_reducible assumption) ?_)
    | (with_reducible refine forEach_keeps ?_ (fun _ _ _ => ?_))
    | (with_reducible refine foldl_keeps ?_ (fun _ _ _ => ?_))
    | intro _
    | split
    | simp only [Keeps.upd]

theorem State.setDues_keeps {pq : List Instr} {s : State} {a0 : List Nat} {a1 : Nat} (hs : State.Keeps pq s) :
    State.Keeps pq (State.setDues s a0 a1) := by
  induction a0 generalizing s a1 with
  | nil =>
    unfold State.setDues
    repeat' first
      | with_reducible assumption
      | (extract_lets -underBinder +onlyGivenNames -merge x; with_reducible refine Keeps.cut (pq := pq) x ?_ (fun _ => ?_); rotate_left; clear_value x; rotate_left; subst x)
      | (extract_lets -underBinder +onlyGivenNames -merge x; subst x)
      | with_reducible apply State.setOut_keeps
      | split
      | simp only [Keeps.upd]

  | cons e l ih =>
    unfold State.setDues
    repeat' first
      | with_reducible assumption
      | (extract_lets -underBinder +onlyGivenNames -merge x; with_reducible refine Keeps.cut (pq := pq) x ?_ (fun _ => ?_); rotate_left; clear_value x; rotate_left; subst x)
      | (extract_lets -underBinder +onlyGivenNames -merge x; subst x)
      | with_reducible apply ih
      | (rename_i h; injection h with h1 h2; subst h1 h2)
      | with_reducible apply State.setOut_keeps
      | split
      | simp only [Keeps.upd]

theorem State.beginGroup_keeps {pq : List Instr} {s : State} {g : Fin 4} (hs : State.Keeps pq s) :
    State.Keeps pq (State.beginGroup s g) := by
  unfold State.beginGroup
  repeat' first
    | with_reducible assumption
    | (extract_lets -underBinder +onlyGivenNames -merge x; with_reducible refine Keeps.cut (pq := pq) x ?_ (fun _ => ?_); rotate_left; clear_value x; rotate_left; subst x)
    | (extract_lets -underBinder +onlyGivenNames -merge x; subst x)
    | with_reducible apply State.setDues_keeps
    | with_reducible apply State.beginFrame_keeps
    | (with_reducible refine forEach_keeps ?_ (fun _ _ _ => ?_))
    | intro _
    | split
    | simp only [Keeps.upd]

theorem State.frameBegin_keeps {pq : List Instr} {s : State} {g : Fin 4} (hs : State.Keeps pq s) :
    State.Keeps pq (State.frameBegin s g) := by
  unfold State.frameBegin
  repeat' first
    | with_reducible assumption
    | (extract_lets -underBinder +onlyGivenNames -merge x; with_reducible refine Keeps.cut (pq := pq) x ?_ (fun _ => ?_); rotate_left; clear_value x; rotate_left; subst x)
    | (extract_lets -underBinder +onlyGivenNames -merge x; subst x)
    | with_reducible apply State.beginGroup_keeps
    | with_reducible apply State.advanceToDts_keeps
    | split
    | simp only [Keeps.upd]

theorem State.settleGroup_keeps {pq : List Instr} {s : State} (hs : State.Keeps pq s) :
    State.Keeps pq (State.settleGroup s) := by
  unfold State.settleGroup
  repeat' first
    | with_reducible assumption
    | with_reducible apply State.beginGroup_keeps
    | split
    | simp only [Keeps.upd]

theorem State.composeEnd_keeps {pq : List Instr} {s : State} {o equal poisoned : Nat} (hs : State.Keeps pq s) :
    State.Keeps pq (State.composeEnd s o equal poisoned) := by
  unfold State.composeEnd
  repeat' first
    | with_reducible assumption
    | (rename_i e; with_reducible refine Keeps.ofSnd (pq := pq) e ?_ (fun _ => ?_) <;> clear e)
    | (rename_i e; with_reducible refine Keeps.ofFst (pq := pq) e ?_ (fun _ => ?_) <;> clear e)
    | (extract_lets -underBinder +onlyGivenNames -merge x; with_reducible refine Keeps.cut (pq := pq) x ?_ (fun _ => ?_); rotate_left; clear_value x; rotate_left; subst x)
    | (extract_lets -underBinder +onlyGivenNames -merge x; subst x)
    | with_reducible apply State.settleGroup_keeps
    | with_reducible apply State.updOut_keeps
    | with_reducible apply State.devRead_keeps
    | with_reducible apply State.devWrite_keeps
    | with_reducible apply State.fault_keeps
    | with_reducible apply State.drawFree_keepsP
    | (with_reducible refine State.drawFree_keepsE (by with_reducible assumption) ?_)
    | with_reducible apply State.advanceTo_keeps
    | (with_reducible refine forEach_keeps ?_ (fun _ _ _ => ?_))
    | (with_reducible refine foldl_keeps ?_ (fun _ _ _ => ?_))
    | intro _
    | split
    | simp only [Keeps.upd]

theorem State.endTaken_keeps {pq : List Instr} {s : State} {o : Nat} {st : PlaneUpdate → Status} {k : Option Target} (hs : State.Keeps pq s) :
    State.Keeps pq (State.endTaken s o st k) := by
  unfold State.endTaken
  repeat' first
    | with_reducible assumption
    | (extract_lets -underBinder +onlyGivenNames -merge x; with_reducible refine Keeps.cut (pq := pq) x ?_ (fun _ => ?_); rotate_left; clear_value x; rotate_left; subst x)
    | (extract_lets -underBinder +onlyGivenNames -merge x; subst x)
    | with_reducible apply State.endSuperseded_keeps
    | with_reducible apply State.endUpdate_keeps
    | (with_reducible refine forEach_keeps ?_ (fun _ _ _ => ?_))
    | intro _
    | split
    | simp only [Keeps.upd]

theorem State.stopFrame_keeps {pq : List Instr} {s : State} {o : Nat} (hs : State.Keeps pq s) :
    State.Keeps pq (State.stopFrame s o) := by
  unfold State.stopFrame
  repeat' first
    | with_reducible assumption
    | with_reducible apply State.setOut_keeps
    | with_reducible apply State.dropBuf_keeps
    | split
    | simp only [Keeps.upd]

theorem State.startStream_keeps {pq : List Instr} {s : State} {o : Nat} (hs : State.Keeps pq s) :
    State.Keeps pq (State.startStream s o) := by
  unfold State.startStream
  repeat' first
    | with_reducible assumption
    | with_reducible apply State.updOut_keeps
    | with_reducible apply State.start_keeps
    | intro _
    | split
    | simp only [Keeps.upd]

theorem State.streamFrame_keeps {pq : List Instr} {s : State} {o : Nat} {k : Int} {b : Nat} (hs : State.Keeps pq s) :
    State.Keeps pq (State.streamFrame s o k b) := by
  unfold State.streamFrame
  repeat' first
    | with_reducible assumption
    | (rename_i e; with_reducible refine Keeps.ofSnd (pq := pq) e ?_ (fun _ => ?_) <;> clear e)
    | (rename_i e; with_reducible refine Keeps.ofFst (pq := pq) e ?_ (fun _ => ?_) <;> clear e)
    | (extract_lets -underBinder +onlyGivenNames -merge x; with_reducible refine Keeps.cut (pq := pq) x ?_ (fun _ => ?_); rotate_left; clear_value x; rotate_left; subst x)
    | (extract_lets -underBinder +onlyGivenNames -merge x; subst x)
    | with_reducible apply State.startStream_keeps
    | with_reducible apply State.updCounts_keeps
    | with_reducible apply State.setOut_keeps
    | with_reducible apply State.dropBuf_keeps
    | with_reducible apply State.takeBuf_keeps
    | with_reducible apply State.raise_keeps
    | intro _
    | split
    | simp only [Keeps.upd]

theorem State.st2110Send_keeps {pq : List Instr} {s : State} {o : Nat} {payload : List Byte} (hs : State.Keeps pq s) :
    State.Keeps pq (State.st2110Send s o payload) := by
  unfold State.st2110Send
  repeat' first
    | with_reducible assumption
    | (rename_i e; with_reducible refine Keeps.ofSnd (pq := pq) e ?_ (fun _ => ?_) <;> clear e)
    | (rename_i e; with_reducible refine Keeps.ofFst (pq := pq) e ?_ (fun _ => ?_) <;> clear e)
    | (extract_lets -underBinder +onlyGivenNames -merge x; with_reducible refine Keeps.cut (pq := pq) x ?_ (fun _ => ?_); rotate_left; clear_value x; rotate_left; subst x)
    | (extract_lets -underBinder +onlyGivenNames -merge x; subst x)
    | with_reducible apply State.startStream_keeps
    | with_reducible apply State.setOut_keeps
    | with_reducible apply State.placeFrame_keeps
    | with_reducible apply State.count_keeps
    | with_reducible apply State.dropBuf_keeps
    | with_reducible apply State.start_keeps
    | with_reducible apply State.advanceToDts_keeps
    | intro _
    | split
    | simp only [Keeps.upd]

theorem State.writeBitmap_keeps {pq : List Instr} {s : State} {o : Nat} {k : Int} {all held ver : Bool} {mask : Nat} (hs : State.Keeps pq s) :
    State.Keeps pq (State.writeBitmap s o k all held ver mask) := by
  unfold State.writeBitmap
  repeat' first
    | with_reducible assumption
    | (rename_i e; with_reducible refine Keeps.ofSnd (pq := pq) e ?_ (fun _ => ?_) <;> clear e)
    | (rename_i e; with_reducible refine Keeps.ofFst (pq := pq) e ?_ (fun _ => ?_) <;> clear e)
    | with_reducible apply State.updOut_keeps
    | intro _
    | split
    | simp only [Keeps.upd]

theorem State.flip_keeps {pq : List Instr} {s : State} {o : Nat} {k : Int} (hs : State.Keeps pq s) :
    State.Keeps pq (State.flip s o k) := by
  unfold State.flip
  repeat' first
    | with_reducible assumption
    | (rename_i e; with_reducible refine Keeps.ofSnd (pq := pq) e ?_ (fun _ => ?_) <;> clear e)
    | (rename_i e; with_reducible refine Keeps.ofFst (pq := pq) e ?_ (fun _ => ?_) <;> clear e)
    | (extract_lets -underBinder +onlyGivenNames -merge x; with_reducible refine Keeps.cut (pq := pq) x ?_ (fun _ => ?_); rotate_left; clear_value x; rotate_left; subst x)
    | (extract_lets -underBinder +onlyGivenNames -merge x; subst x)
    | with_reducible apply State.writeBitmap_keeps
    | with_reducible apply State.streamFrame_keeps
    | with_reducible apply State.endTaken_keeps
    | with_reducible apply State.dropPictures_keeps
    | with_reducible apply State.updCounts_keeps
    | with_reducible apply State.setOut_keeps
    | with_reducible apply State.dropOpt_keeps
    | intro _
    | split
    | simp only [Keeps.upd]

theorem State.countOutMiss_keeps {pq : List Instr} {s : State} {o : Nat} (hs : State.Keeps pq s) :
    State.Keeps pq (State.countOutMiss s o) := by
  unfold State.countOutMiss
  repeat' first
    | with_reducible assumption
    | (extract_lets -underBinder +onlyGivenNames -merge x; with_reducible refine Keeps.cut (pq := pq) x ?_ (fun _ => ?_); rotate_left; clear_value x; rotate_left; subst x)
    | (extract_lets -underBinder +onlyGivenNames -merge x; subst x)
    | with_reducible apply State.updCounts_keeps
    | with_reducible apply State.setOut_keeps
    | with_reducible apply State.overrun_keeps
    | with_reducible apply State.raise_keeps
    | intro _
    | split
    | simp only [Keeps.upd]

theorem State.discardFrame_keeps {pq : List Instr} {s : State} {o : Nat} {k : Int} (hs : State.Keeps pq s) :
    State.Keeps pq (State.discardFrame s o k) := by
  unfold State.discardFrame
  repeat' first
    | with_reducible assumption
    | (extract_lets -underBinder +onlyGivenNames -merge x; with_reducible refine Keeps.cut (pq := pq) x ?_ (fun _ => ?_); rotate_left; clear_value x; rotate_left; subst x)
    | (extract_lets -underBinder +onlyGivenNames -merge x; subst x)
    | with_reducible apply State.stopFrame_keeps
    | with_reducible apply State.endTaken_keeps
    | with_reducible apply State.applyUpdate_keeps
    | (with_reducible refine forEach_keeps ?_ (fun _ _ _ => ?_))
    | intro _
    | split
    | simp only [Keeps.upd]

theorem State.hold_keeps {pq : List Instr} {s : State} {o : Nat} {k : Int} (hs : State.Keeps pq s) :
    State.Keeps pq (State.hold s o k) := by
  unfold State.hold
  repeat' first
    | with_reducible assumption
    | (rename_i e; with_reducible refine Keeps.ofSnd (pq := pq) e ?_ (fun _ => ?_) <;> clear e)
    | (rename_i e; with_reducible refine Keeps.ofFst (pq := pq) e ?_ (fun _ => ?_) <;> clear e)
    | (extract_lets -underBinder +onlyGivenNames -merge x; with_reducible refine Keeps.cut (pq := pq) x ?_ (fun _ => ?_); rotate_left; clear_value x; rotate_left; subst x)
    | (extract_lets -underBinder +onlyGivenNames -merge x; subst x)
    | with_reducible apply State.discardFrame_keeps
    | with_reducible apply State.countOutMiss_keeps
    | with_reducible apply State.writeBitmap_keeps
    | intro _
    | split
    | simp only [Keeps.upd]

theorem State.flipOrHold_keeps {pq : List Instr} {s : State} {o : Nat} {k : Int} (hs : State.Keeps pq s) :
    State.Keeps pq (State.flipOrHold s o k) := by
  unfold State.flipOrHold
  repeat' first
    | with_reducible assumption
    | (extract_lets -underBinder +onlyGivenNames -merge x; with_reducible refine Keeps.cut (pq := pq) x ?_ (fun _ => ?_); rotate_left; clear_value x; rotate_left; subst x)
    | (extract_lets -underBinder +onlyGivenNames -merge x; subst x)
    | with_reducible apply State.hold_keeps
    | with_reducible apply State.flip_keeps
    | split
    | simp only [Keeps.upd]

theorem State.settleOut_keeps {pq : List Instr} {s : State} {o : Nat} (hs : State.Keeps pq s) :
    State.Keeps pq (State.settleOut s o) := by
  unfold State.settleOut
  repeat' first
    | with_reducible assumption
    | (extract_lets -underBinder +onlyGivenNames -merge x; with_reducible refine Keeps.cut (pq := pq) x ?_ (fun _ => ?_); rotate_left; clear_value x; rotate_left; subst x)
    | (extract_lets -underBinder +onlyGivenNames -merge x; subst x)
    | with_reducible apply State.stopFrame_keeps
    | with_reducible apply State.settleGroup_keeps
    | with_reducible apply State.dropPictures_keeps
    | with_reducible apply State.dropContent_keeps
    | with_reducible apply State.setOut_keeps
    | with_reducible apply State.closeDone_keeps
    | with_reducible apply State.unearmark_keeps
    | with_reducible apply State.dropOpt_keeps
    | with_reducible apply State.dropBuf_keeps
    | (with_reducible refine forEach_keeps ?_ (fun _ _ _ => ?_))
    | intro _
    | split
    | simp only [Keeps.upd]

theorem State.applyOff_keeps {pq : List Instr} {s : State} {g : Fin 4} {k : Int} (hs : State.Keeps pq s) :
    State.Keeps pq (State.applyOff s g k) := by
  unfold State.applyOff
  repeat' first
    | with_reducible assumption
    | (rename_i e; with_reducible refine Keeps.ofSnd (pq := pq) e ?_ (fun _ => ?_) <;> clear e)
    | (rename_i e; with_reducible refine Keeps.ofFst (pq := pq) e ?_ (fun _ => ?_) <;> clear e)
    | with_reducible apply State.endReplaced_keeps
    | with_reducible apply State.applyUpdate_keeps
    | (with_reducible refine forEach_keeps ?_ (fun _ _ _ => ?_))
    | intro _
    | split
    | simp only [Keeps.upd]

theorem State.flipGroup_keeps {pq : List Instr} {s : State} {g : Fin 4} {k : Int} (hs : State.Keeps pq s) :
    State.Keeps pq (State.flipGroup s g k) := by
  unfold State.flipGroup
  repeat' first
    | with_reducible assumption
    | (rename_i e; with_reducible refine Keeps.ofSnd (pq := pq) e ?_ (fun _ => ?_) <;> clear e)
    | (rename_i e; with_reducible refine Keeps.ofFst (pq := pq) e ?_ (fun _ => ?_) <;> clear e)
    | (extract_lets -underBinder +onlyGivenNames -merge x; with_reducible refine Keeps.cut (pq := pq) x ?_ (fun _ => ?_); rotate_left; clear_value x; rotate_left; subst x)
    | (extract_lets -underBinder +onlyGivenNames -merge x; subst x)
    | with_reducible apply State.applyOff_keeps
    | with_reducible apply State.settleOut_keeps
    | with_reducible apply State.flipOrHold_keeps
    | with_reducible apply State.settleGroup_keeps
    | with_reducible apply State.sourceFrame_keeps
    | with_reducible apply State.raise_keeps
    | (with_reducible refine forEach_keeps ?_ (fun _ _ _ => ?_))
    | intro _
    | split
    | simp only [Keeps.upd]

theorem State.submitCompose_keeps {pq : List Instr} {s : State} {o : Nat} {m : Master} {fn : Nat} {origin : JobOrigin} {n : Nat} {content : Plane} {target : Target} (hs : State.Keeps pq s) :
    State.Keeps pq (State.submitCompose s o m fn origin n content target) := by
  unfold State.submitCompose
  repeat' first
    | with_reducible assumption
    | (rename_i e; with_reducible refine Keeps.ofSnd (pq := pq) e ?_ (fun _ => ?_) <;> clear e)
    | (rename_i e; with_reducible refine Keeps.ofFst (pq := pq) e ?_ (fun _ => ?_) <;> clear e)
    | (extract_lets -underBinder +onlyGivenNames -merge x; with_reducible refine Keeps.cut (pq := pq) x ?_ (fun _ => ?_); rotate_left; clear_value x; rotate_left; subst x)
    | (extract_lets -underBinder +onlyGivenNames -merge x; subst x)
    | with_reducible apply State.endSuperseded_keeps
    | with_reducible apply State.endUpdate_keeps
    | with_reducible apply State.applyUpdate_keeps
    | with_reducible apply State.updOut_keeps
    | with_reducible apply State.setOut_keeps
    | with_reducible apply State.overrun_keeps
    | intro _
    | split
    | simp only [Keeps.upd]

theorem State.keyNextOf_keeps {pq : List Instr} {s : State} {o : Nat} (hs : State.Keeps pq s) :
    State.Keeps pq (State.keyNextOf s o) := by
  unfold State.keyNextOf
  repeat' first
    | with_reducible assumption
    | with_reducible apply State.setEnc_keeps
    | (with_reducible refine forEach_keeps ?_ (fun _ _ _ => ?_))
    | intro _
    | simp only [Keeps.upd]

theorem State.outOff_keeps {pq : List Instr} {s : State} {o : Nat} (hs : State.Keeps pq s) :
    State.Keeps pq (State.outOff s o) := by
  unfold State.outOff
  repeat' first
    | with_reducible assumption
    | (rename_i e; with_reducible refine Keeps.ofSnd (pq := pq) e ?_ (fun _ => ?_) <;> clear e)
    | (rename_i e; with_reducible refine Keeps.ofFst (pq := pq) e ?_ (fun _ => ?_) <;> clear e)
    | (extract_lets -underBinder +onlyGivenNames -merge x; with_reducible refine Keeps.cut (pq := pq) x ?_ (fun _ => ?_); rotate_left; clear_value x; rotate_left; subst x)
    | (extract_lets -underBinder +onlyGivenNames -merge x; subst x)
    | with_reducible apply State.stopFrame_keeps
    | with_reducible apply State.settleGroup_keeps
    | with_reducible apply State.updOut_keeps
    | with_reducible apply State.dropBuf_keeps
    | (with_reducible refine forEach_keeps ?_ (fun _ _ _ => ?_))
    | intro _
    | split
    | simp only [Keeps.upd]

theorem State.settleNight_keeps {pq : List Instr} {s : State} (hs : State.Keeps pq s) :
    State.Keeps pq (State.settleNight s) := by
  unfold State.settleNight
  repeat' first
    | with_reducible assumption
    | (rename_i e; with_reducible refine Keeps.ofSnd (pq := pq) e ?_ (fun _ => ?_) <;> clear e)
    | (rename_i e; with_reducible refine Keeps.ofFst (pq := pq) e ?_ (fun _ => ?_) <;> clear e)
    | (extract_lets -underBinder +onlyGivenNames -merge x; with_reducible refine Keeps.cut (pq := pq) x ?_ (fun _ => ?_); rotate_left; clear_value x; rotate_left; subst x)
    | (extract_lets -underBinder +onlyGivenNames -merge x; subst x)
    | with_reducible apply State.outOff_keeps
    | with_reducible apply State.keyNextOf_keeps
    | with_reducible apply State.updOut_keeps
    | (with_reducible refine forEach_keeps ?_ (fun _ _ _ => ?_))
    | intro _
    | split
    | simp only [Keeps.upd]

theorem State.damageAll_keeps {pq : List Instr} {s : State} (hs : State.Keeps pq s) :
    State.Keeps pq (State.damageAll s) := by
  unfold State.damageAll
  repeat' first
    | with_reducible assumption
    | intro _
    | simp only [Keeps.upd]

theorem State.cmpReset_keeps {pq : List Instr} {s : State} (hs : State.Keeps pq s) :
    State.Keeps pq (State.cmpReset s) := by
  unfold State.cmpReset
  repeat' first
    | with_reducible assumption
    | (extract_lets -underBinder +onlyGivenNames -merge x; with_reducible refine Keeps.cut (pq := pq) x ?_ (fun _ => ?_); rotate_left; clear_value x; rotate_left; subst x)
    | (extract_lets -underBinder +onlyGivenNames -merge x; subst x)
    | with_reducible apply State.stopFrame_keeps
    | with_reducible apply State.endTaken_keeps
    | (with_reducible refine forEach_keeps ?_ (fun _ _ _ => ?_))
    | intro _
    | split
    | simp only [Keeps.upd]

theorem State.endUpdates_keeps {pq : List Instr} {s : State} {st : Status} {sel : Nat → Output → PlaneUpdate → Bool} (hs : State.Keeps pq s) :
    State.Keeps pq (State.endUpdates s st sel) := by
  unfold State.endUpdates
  repeat' first
    | with_reducible assumption
    | with_reducible apply State.endUpdate_keeps
    | with_reducible apply State.dropContent_keeps
    | (with_reducible refine forEach_keeps ?_ (fun _ _ _ => ?_))
    | intro _
    | split

theorem State.closeOut_keeps {pq : List Instr} {s : State} {o : Nat} {closer : Option Nat} {drain : Bool} (hs : State.Keeps pq s) :
    State.Keeps pq (State.closeOut s o closer drain) := by
  unfold State.closeOut
  repeat' first
    | with_reducible assumption
    | (extract_lets -underBinder +onlyGivenNames -merge x; with_reducible refine Keeps.cut (pq := pq) x ?_ (fun _ => ?_); rotate_left; clear_value x; rotate_left; subst x)
    | (extract_lets -underBinder +onlyGivenNames -merge x; subst x)
    | with_reducible apply State.endUpdates_keeps
    | with_reducible apply State.settleOut_keeps
    | with_reducible apply State.endTaken_keeps
    | with_reducible apply State.dropPictures_keeps
    | with_reducible apply State.updOut_keeps
    | intro _
    | split
    | simp only [Keeps.upd]

theorem execFrameBegin_keeps {pq : List Instr} {g : Fin 4} {s : State} (hs : State.Keeps pq s) :
    KeepsO pq (execFrameBegin g s) := by
  unfold execFrameBegin
  repeat' first
    | with_reducible assumption
    | with_reducible apply KeepsO.mk
    | with_reducible apply State.frameBegin_keeps

theorem execComposeFrameEnd_keeps {pq : List Instr} {o : Fin 128} {equal poisoned : Nat} {s : State} (hs : State.Keeps pq s) :
    KeepsO pq (execComposeFrameEnd o equal poisoned s) := by
  unfold execComposeFrameEnd
  repeat' first
    | with_reducible assumption
    | with_reducible apply KeepsO.mk
    | with_reducible apply State.composeEnd_keeps

theorem execSt2110PacketSend_keeps {pq : List Instr} {o : Fin 128} {payload : List Byte} {s : State} (hs : State.Keeps pq s) :
    KeepsO pq (execSt2110PacketSend o payload s) := by
  unfold execSt2110PacketSend
  repeat' first
    | with_reducible assumption
    | with_reducible apply KeepsO.mk
    | with_reducible apply State.st2110Send_keeps

theorem execCmpLateCntRead_keeps {pq : List Instr} {s : State} (hs : State.Keeps pq s) :
    KeepsO pq (execCmpLateCntRead s) := by
  unfold execCmpLateCntRead
  repeat' first
    | with_reducible assumption
    | with_reducible apply KeepsO.mk
    | with_reducible apply State.setRd_keeps
    | split
    | simp only [Keeps.upd]

theorem execCmpOutMissedRead_keeps {pq : List Instr} {o : Fin 128} {s : State} (hs : State.Keeps pq s) :
    KeepsO pq (execCmpOutMissedRead o s) := by
  unfold execCmpOutMissedRead
  repeat' first
    | with_reducible assumption
    | with_reducible apply KeepsO.mk
    | with_reducible apply State.updCounts_keeps
    | with_reducible apply State.setRd_keeps
    | intro _
    | split
    | simp only [Keeps.upd]

theorem execCmpOutStSkipRead_keeps {pq : List Instr} {o : Fin 128} {s : State} (hs : State.Keeps pq s) :
    KeepsO pq (execCmpOutStSkipRead o s) := by
  unfold execCmpOutStSkipRead
  repeat' first
    | with_reducible assumption
    | with_reducible apply KeepsO.mk
    | with_reducible apply State.updCounts_keeps
    | with_reducible apply State.setRd_keeps
    | intro _
    | split
    | simp only [Keeps.upd]

theorem State.moveTargets_keeps {pq : List Instr} {s : State} {g : Fin 4} {f : Int → Int} (hs : State.Keeps pq s) :
    State.Keeps pq (State.moveTargets s g f) := by
  unfold State.moveTargets
  repeat' first
    | with_reducible assumption
    | intro _
    | simp only [Keeps.upd]

theorem State.regroup_keeps {pq : List Instr} {s old : State} {g : Fin 4} (hs : State.Keeps pq s) (hold : State.Keeps pq old) :
    State.Keeps pq (State.regroup s old g) := by
  unfold State.regroup
  repeat' first
    | with_reducible assumption
    | (rename_i e; with_reducible refine Keeps.ofSnd (pq := pq) e ?_ (fun _ => ?_) <;> clear e)
    | (rename_i e; with_reducible refine Keeps.ofFst (pq := pq) e ?_ (fun _ => ?_) <;> clear e)
    | (extract_lets -underBinder +onlyGivenNames -merge x; with_reducible refine Keeps.cut (pq := pq) x ?_ (fun _ => ?_); rotate_left; clear_value x; rotate_left; subst x)
    | (extract_lets -underBinder +onlyGivenNames -merge x; subst x)
    | with_reducible apply State.moveTargets_keeps
    | intro _
    | split
    | simp only [Keeps.upd]

end Sys2Proof.Machine
end

