-- ==== Sys2Proof/Laws/KeepsTime.lean ====
section
/-! SUPPORT. What each operation keeps (see `State.Keeps`): staging, the time base, the copy engine, the audit and the memories of the Wick cores. -/

set_option maxRecDepth 4000

namespace Sys2Proof.Machine

theorem State.conflict_keeps {pq : List Instr} {s : State} {winner loser : Master} {winnerDts loserDts : DWord} {kind op : Nat} (hs : State.Keeps pq s) :
    State.Keeps pq (State.conflict s winner loser winnerDts loserDts kind op) := by
  unfold State.conflict
  repeat' first
    | with_reducible assumption
    | (extract_lets -underBinder +onlyGivenNames -merge x; with_reducible refine Keeps.cut (pq := pq) x ?_ (fun _ => ?_); rotate_left; clear_value x; rotate_left; subst x)
    | (extract_lets -underBinder +onlyGivenNames -merge x; subst x)
    | with_reducible apply State.raise_keeps
    | with_reducible apply State.logRecord_keeps
    | simp only [Keeps.upd]

theorem State.waiterEnd_keeps {pq : List Instr} {s : State} {w : Option Waiter} {st : Status} {r0 r1 : Nat} {detail : Option Nat} (hs : State.Keeps pq s) :
    State.Keeps pq (State.waiterEnd s w st r0 r1 detail) := by
  unfold State.waiterEnd
  repeat' first
    | with_reducible assumption
    | (rename_i e; with_reducible refine Keeps.ofSnd (pq := pq) e ?_ (fun _ => ?_) <;> clear e)
    | (rename_i e; with_reducible refine Keeps.ofFst (pq := pq) e ?_ (fun _ => ?_) <;> clear e)
    | with_reducible apply State.chanJobDone_keeps
    | with_reducible apply State.finish_keeps
    | split
    | simp only [Keeps.upd]

theorem State.stageTo_keeps {pq : List Instr} {s : State} {st : StageSt} (hs : State.Keeps pq s) :
    State.Keeps pq (State.stageTo s st) := by
  unfold State.stageTo
  repeat' first
    | with_reducible assumption
    | with_reducible apply State.raise_keeps
    | simp only [Keeps.upd]

theorem State.stageEnd_keeps {pq : List Instr} {s : State} {target : StageSt} {code : StageCode} {st : Status} {r0 r1 : Nat} (hs : State.Keeps pq s) :
    State.Keeps pq (State.stageEnd s target code st r0 r1) := by
  unfold State.stageEnd
  repeat' first
    | with_reducible assumption
    | (extract_lets -underBinder +onlyGivenNames -merge x; with_reducible refine Keeps.cut (pq := pq) x ?_ (fun _ => ?_); rotate_left; clear_value x; rotate_left; subst x)
    | (extract_lets -underBinder +onlyGivenNames -merge x; subst x)
    | with_reducible apply State.stageTo_keeps
    | with_reducible apply State.waiterEnd_keeps
    | simp only [Keeps.upd]

theorem State.stageCancel_keeps {pq : List Instr} {s : State} (hs : State.Keeps pq s) :
    State.Keeps pq (State.stageCancel s) := by
  unfold State.stageCancel
  repeat' first
    | with_reducible assumption
    | with_reducible apply State.stageEnd_keeps

theorem State.unitAbort_keeps {pq : List Instr} {s : State} (hs : State.Keeps pq s) :
    State.Keeps pq (State.unitAbort s) := by
  unfold State.unitAbort
  repeat' first
    | with_reducible assumption
    | with_reducible apply State.stageEnd_keeps
    | split

theorem State.unitResetAborts_keeps {pq : List Instr} {s : State} {u : UnitId} (hs : State.Keeps pq s) :
    State.Keeps pq (State.unitResetAborts s u) := by
  unfold State.unitResetAborts
  repeat' first
    | with_reducible assumption
    | (extract_lets -underBinder +onlyGivenNames -merge x; with_reducible refine Keeps.cut (pq := pq) x ?_ (fun _ => ?_); rotate_left; clear_value x; rotate_left; subst x)
    | (extract_lets -underBinder +onlyGivenNames -merge x; subst x)
    | with_reducible apply State.unitAbort_keeps
    | split
    | simp only [Keeps.upd]

theorem State.stageReset_keeps {pq : List Instr} {s : State} (hs : State.Keeps pq s) :
    State.Keeps pq (State.stageReset s) := by
  unfold State.stageReset
  repeat' first
    | with_reducible assumption
    | simp only [Keeps.upd]

theorem State.claim_keepsP {pq : List Instr} {s : State} {m : Master} {r : Route} (hs : State.Keeps pq s) :
    State.Keeps pq (State.claim s m r).2 := by
  unfold State.claim
  repeat' first
    | with_reducible assumption
    | (rename_i e; with_reducible refine Keeps.ofSnd (pq := pq) e ?_ (fun _ => ?_) <;> clear e)
    | (rename_i e; with_reducible refine Keeps.ofFst (pq := pq) e ?_ (fun _ => ?_) <;> clear e)
    | (extract_lets -underBinder +onlyGivenNames -merge x; with_reducible refine Keeps.cut (pq := pq) x ?_ (fun _ => ?_); rotate_left; clear_value x; rotate_left; subst x)
    | (extract_lets -underBinder +onlyGivenNames -merge x; subst x)
    | with_reducible apply State.stageEnd_keeps
    | with_reducible apply State.conflict_keeps
    | with_reducible apply State.pass_keeps
    | intro _
    | split
    | simp only [Keeps.upd]
theorem State.claim_keepsE {pq : List Instr} {s : State} {m : Master} {r : Route} {tv2 v1} (e : State.claim s m r = (v1, tv2)) (hs : State.Keeps pq s) :
    State.Keeps pq tv2 := by
  have h := State.claim_keepsP (s := s) (m := m) (r := r) hs 
  rw [e] at h; exact h

theorem State.reopen_keeps {pq : List Instr} {s : State} (hs : State.Keeps pq s) :
    State.Keeps pq (State.reopen s) := by
  unfold State.reopen
  repeat' first
    | with_reducible assumption
    | with_reducible apply State.waiterEnd_keeps
    | split
    | simp only [Keeps.upd]

theorem State.stagingWrite_keepsP {pq : List Instr} {s : State} {m : Master} {r : Route} {f : State → State} (hs : State.Keeps pq s) (hf : ∀ (x0 : State), State.Keeps pq x0 → State.Keeps pq (f x0)) :
    State.Keeps pq (State.stagingWrite s m r f).2 := by
  unfold State.stagingWrite
  repeat' first
    | with_reducible assumption
    | (rename_i e; with_reducible refine Keeps.ofSnd (pq := pq) e ?_ (fun _ => ?_) <;> clear e)
    | (rename_i e; with_reducible refine Keeps.ofFst (pq := pq) e ?_ (fun _ => ?_) <;> clear e)
    | with_reducible apply hf
    | with_reducible apply State.reopen_keeps
    | with_reducible apply State.conflict_keeps
    | with_reducible apply State.claim_keepsP
    | (with_reducible refine State.claim_keepsE (by with_reducible assumption) ?_)
    | intro _
    | split
    | simp only [Keeps.upd]
theorem State.stagingWrite_keepsE {pq : List Instr} {s : State} {m : Master} {r : Route} {f : State → State} {tv2 v1} (e : State.stagingWrite s m r f = (v1, tv2)) (hs : State.Keeps pq s) (hf : ∀ (x0 : State), State.Keeps pq x0 → State.Keeps pq (f x0)) :
    State.Keeps pq tv2 := by
  have h := State.stagingWrite_keepsP (s := s) (m := m) (r := r) (f := f) hs hf
  rw [e] at h; exact h

theorem State.putStaged_keeps {pq : List Instr} {s : State} {r : RegAt} {v : Nat} (hs : State.Keeps pq s) :
    State.Keeps pq (State.putStaged s r v) := by
  unfold State.putStaged
  repeat' first
    | with_reducible assumption
    | simp only [Keeps.upd]

theorem State.stageReg_keeps {pq : List Instr} {s : State} {m : Master} {route : Route} {off v : Nat} (hs : State.Keeps pq s) :
    State.Keeps pq (State.stageReg s m route off v) := by
  unfold State.stageReg
  repeat' first
    | with_reducible assumption
    | with_reducible apply State.putStaged_keeps
    | with_reducible apply State.stagingWrite_keepsP
    | (with_reducible refine State.stagingWrite_keepsE (by with_reducible assumption) ?_)
    | intro _
    | split
    | simp only [Keeps.upd]

theorem State.putEntry_keeps {pq : List Instr} {s : State} {k : EntryKey} {b : List Byte} (hs : State.Keeps pq s) :
    State.Keeps pq (State.putEntry s k b) := by
  unfold State.putEntry
  repeat' first
    | with_reducible assumption
    | (extract_lets -underBinder +onlyGivenNames -merge x; with_reducible refine Keeps.cut (pq := pq) x ?_ (fun _ => ?_); rotate_left; clear_value x; rotate_left; subst x)
    | (extract_lets -underBinder +onlyGivenNames -merge x; subst x)
    | intro _
    | split
    | simp only [Keeps.upd]

theorem State.overEntry_keeps {pq : List Instr} {t : State} {e : EntryKey × List Byte} (ht : State.Keeps pq t) :
    State.Keeps pq (State.overEntry t e) := by
  unfold State.overEntry
  repeat' first
    | with_reducible assumption
    | with_reducible apply State.putTrf_keeps
    | with_reducible apply State.putSwc_keepsP
    | (with_reducible refine State.putSwc_keepsE (by with_reducible assumption) ?_)
    | split

theorem State.overRegs_keeps {pq : List Instr} {s : State} (hs : State.Keeps pq s) :
    State.Keeps pq (State.overRegs s) := by
  unfold State.overRegs
  repeat' first
    | with_reducible assumption
    | (with_reducible refine foldl_keeps ?_ (fun _ _ _ => ?_))
    | intro _
    | simp only [Keeps.upd]

theorem State.view_keeps {pq : List Instr} {s : State} (hs : State.Keeps pq s) :
    State.Keeps pq (State.view s) := by
  unfold State.view
  repeat' first
    | with_reducible assumption
    | with_reducible apply State.overRegs_keeps
    | with_reducible apply State.overEntry_keeps
    | (with_reducible refine foldl_keeps ?_ (fun _ _ _ => ?_))

theorem State.checkBegin_keeps {pq : List Instr} {s : State} {w : Option Waiter} (hs : State.Keeps pq s) :
    State.Keeps pq (State.checkBegin s w) := by
  unfold State.checkBegin
  repeat' first
    | with_reducible assumption
    | intro _
    | split
    | simp only [Keeps.upd]

theorem State.checkEnd_keeps {pq : List Instr} {s : State} (hs : State.Keeps pq s) :
    State.Keeps pq (State.checkEnd s) := by
  unfold State.checkEnd
  repeat' first
    | with_reducible assumption
    | (extract_lets -underBinder +onlyGivenNames -merge x; with_reducible refine Keeps.cut (pq := pq) x ?_ (fun _ => ?_); rotate_left; clear_value x; rotate_left; subst x)
    | (extract_lets -underBinder +onlyGivenNames -merge x; subst x)
    | with_reducible apply State.stageTo_keeps
    | with_reducible apply State.waiterEnd_keeps
    | with_reducible apply State.pass_keeps
    | split
    | simp only [Keeps.upd]

theorem State.contest_keepsP {pq : List Instr} {s : State} {x : Setting} {value : Nat} {m : Master} {op : Nat} {done : Order → Bool} {drop : Order → State → State} (hs : State.Keeps pq s) (hdrop : ∀ (x0 : Order) (x1 : State), State.Keeps pq x1 → State.Keeps pq (drop x0 x1)) :
    State.Keeps pq (State.contest s x value m op done drop).2 := by
  unfold State.contest
  repeat' first
    | with_reducible assumption
    | (extract_lets -underBinder +onlyGivenNames -merge x; with_reducible refine Keeps.cut (pq := pq) x ?_ (fun _ => ?_); rotate_left; clear_value x; rotate_left; subst x)
    | (extract_lets -underBinder +onlyGivenNames -merge x; subst x)
    | with_reducible apply hdrop
    | with_reducible apply State.conflict_keeps
    | (with_reducible refine forEach_keeps ?_ (fun _ _ _ => ?_))
    | intro _
    | split
    | simp only [Keeps.upd]
theorem State.contest_keepsE {pq : List Instr} {s : State} {x : Setting} {value : Nat} {m : Master} {op : Nat} {done : Order → Bool} {drop : Order → State → State} {tv2 v1} (e : State.contest s x value m op done drop = (v1, tv2)) (hs : State.Keeps pq s) (hdrop : ∀ (x0 : Order) (x1 : State), State.Keeps pq x1 → State.Keeps pq (drop x0 x1)) :
    State.Keeps pq tv2 := by
  have h := State.contest_keepsP (s := s) (x := x) (value := value) (m := m) (op := op) (done := done) (drop := drop) hs hdrop
  rw [e] at h; exact h

theorem State.keepOrder_keeps {pq : List Instr} {s : State} {x : Setting} {value : Nat} {m : Master} {op id : Nat} (hs : State.Keeps pq s) :
    State.Keeps pq (State.keepOrder s x value m op id) := by
  unfold State.keepOrder
  repeat' first
    | with_reducible assumption
    | (rename_i e; with_reducible refine Keeps.ofSnd (pq := pq) e ?_ (fun _ => ?_) <;> clear e)
    | (rename_i e; with_reducible refine Keeps.ofFst (pq := pq) e ?_ (fun _ => ?_) <;> clear e)
    | simp only [Keeps.upd]

theorem State.setAt_keeps {pq : List Instr} {s : State} {t : Int} (hs : State.Keeps pq s) :
    State.Keeps pq (State.setAt s t) := by
  unfold State.setAt
  repeat' first
    | with_reducible assumption
    | (extract_lets -underBinder +onlyGivenNames -merge x; with_reducible refine Keeps.cut (pq := pq) x ?_ (fun _ => ?_); rotate_left; clear_value x; rotate_left; subst x)
    | (extract_lets -underBinder +onlyGivenNames -merge x; subst x)
    | with_reducible apply State.setReg_keeps

theorem State.arm_keeps {pq : List Instr} {s : State} {a : Armed} {t : Int} {w : Option Waiter} (hs : State.Keeps pq s) :
    State.Keeps pq (State.arm s a t w) := by
  unfold State.arm
  repeat' first
    | with_reducible assumption
    | with_reducible apply State.setAt_keeps
    | with_reducible apply State.pass_keeps
    | simp only [Keeps.upd]

theorem State.stageCode_keeps {pq : List Instr} {s : State} {c : StageCode} (hs : State.Keeps pq s) :
    State.Keeps pq (State.stageCode s c) := by
  unfold State.stageCode
  repeat' first
    | with_reducible assumption
    | simp only [Keeps.upd]

theorem State.applyOrder_keepsP {pq : List Instr} {s : State} {atDts : Bool} {g : Fin 4} {d : DWord} {w : Option Waiter} (hs : State.Keeps pq s) :
    State.Keeps pq (State.applyOrder s atDts g d w).2 := by
  unfold State.applyOrder
  repeat' first
    | with_reducible assumption
    | (extract_lets -underBinder +onlyGivenNames -merge x; with_reducible refine Keeps.cut (pq := pq) x ?_ (fun _ => ?_); rotate_left; clear_value x; rotate_left; subst x)
    | (extract_lets -underBinder +onlyGivenNames -merge x; subst x)
    | with_reducible apply State.stageCode_keeps
    | with_reducible apply State.arm_keeps
    | intro _
    | split
theorem State.applyOrder_keepsE {pq : List Instr} {s : State} {atDts : Bool} {g : Fin 4} {d : DWord} {w : Option Waiter} {tv2 v1} (e : State.applyOrder s atDts g d w = (v1, tv2)) (hs : State.Keeps pq s) :
    State.Keeps pq tv2 := by
  have h := State.applyOrder_keepsP (s := s) (atDts := atDts) (g := g) (d := d) (w := w) hs 
  rw [e] at h; exact h

theorem State.applyEntries_keeps {pq : List Instr} {s : State} {l : List (EntryKey × List Byte)} (hs : State.Keeps pq s) :
    State.Keeps pq (State.applyEntries s l) := by
  unfold State.applyEntries
  repeat' first
    | with_reducible assumption
    | (extract_lets -underBinder +onlyGivenNames -merge x; with_reducible refine Keeps.cut (pq := pq) x ?_ (fun _ => ?_); rotate_left; clear_value x; rotate_left; subst x)
    | (extract_lets -underBinder +onlyGivenNames -merge x; subst x)
    | with_reducible apply State.overEntry_keeps
    | with_reducible apply State.armGates_keeps
    | (with_reducible refine forEach_keeps ?_ (fun _ _ _ => ?_))
    | (with_reducible refine foldl_keeps ?_ (fun _ _ _ => ?_))
    | intro _

theorem State.applyPools_keeps {pq : List Instr} {s old : State} (hs : State.Keeps pq s) (hold : State.Keeps pq old) :
    State.Keeps pq (State.applyPools s old) := by
  unfold State.applyPools
  repeat' first
    | with_reducible assumption
    | (rename_i e; with_reducible refine Keeps.ofSnd (pq := pq) e ?_ (fun _ => ?_) <;> clear e)
    | (rename_i e; with_reducible refine Keeps.ofFst (pq := pq) e ?_ (fun _ => ?_) <;> clear e)
    | (extract_lets -underBinder +onlyGivenNames -merge x; with_reducible refine Keeps.cut (pq := pq) x ?_ (fun _ => ?_); rotate_left; clear_value x; rotate_left; subst x)
    | (extract_lets -underBinder +onlyGivenNames -merge x; subst x)
    | with_reducible apply State.poolFresh_keeps
    | (with_reducible refine forEach_keeps ?_ (fun _ _ _ => ?_))
    | intro _
    | split

theorem State.applyGroups_keeps {pq : List Instr} {s old : State} (hs : State.Keeps pq s) (hold : State.Keeps pq old) :
    State.Keeps pq (State.applyGroups s old) := by
  unfold State.applyGroups
  repeat' first
    | with_reducible assumption
    | with_reducible apply State.regroup_keeps
    | (with_reducible refine forEach_keeps ?_ (fun _ _ _ => ?_))
    | intro _
    | split

theorem State.applyOutputs_keeps {pq : List Instr} {s old : State} (hs : State.Keeps pq s) (hold : State.Keeps pq old) :
    State.Keeps pq (State.applyOutputs s old) := by
  unfold State.applyOutputs
  repeat' first
    | with_reducible assumption
    | (extract_lets -underBinder +onlyGivenNames -merge x; with_reducible refine Keeps.cut (pq := pq) x ?_ (fun _ => ?_); rotate_left; clear_value x; rotate_left; subst x)
    | (extract_lets -underBinder +onlyGivenNames -merge x; subst x)
    | with_reducible apply State.settleNight_keeps
    | with_reducible apply State.updOut_keeps
    | (with_reducible refine forEach_keeps ?_ (fun _ _ _ => ?_))
    | intro _
    | split
    | simp only [Keeps.upd]

theorem State.applyEffects_keeps {pq : List Instr} {s old : State} (hs : State.Keeps pq s) (hold : State.Keeps pq old) :
    State.Keeps pq (State.applyEffects s old) := by
  unfold State.applyEffects
  repeat' first
    | with_reducible assumption
    | (extract_lets -underBinder +onlyGivenNames -merge x; with_reducible refine Keeps.cut (pq := pq) x ?_ (fun _ => ?_); rotate_left; clear_value x; rotate_left; subst x)
    | (extract_lets -underBinder +onlyGivenNames -merge x; subst x)
    | with_reducible apply State.applyOutputs_keeps
    | with_reducible apply State.applyGroups_keeps
    | with_reducible apply State.applyPools_keeps
    | with_reducible apply State.portReconfigured_keeps
    | with_reducible apply State.cellsCheck_keeps
    | with_reducible apply State.slotsCheck_keeps
    | (with_reducible refine forEach_keeps ?_ (fun _ _ _ => ?_))
    | intro _
    | split
    | simp only [Keeps.upd]

theorem State.stageApply_keeps {pq : List Instr} {s : State} (hs : State.Keeps pq s) :
    State.Keeps pq (State.stageApply s) := by
  unfold State.stageApply
  repeat' first
    | with_reducible assumption
    | (rename_i e; with_reducible refine Keeps.ofSnd (pq := pq) e ?_ (fun _ => ?_) <;> clear e)
    | (rename_i e; with_reducible refine Keeps.ofFst (pq := pq) e ?_ (fun _ => ?_) <;> clear e)
    | (extract_lets -underBinder +onlyGivenNames -merge x; with_reducible refine Keeps.cut (pq := pq) x ?_ (fun _ => ?_); rotate_left; clear_value x; rotate_left; subst x)
    | (extract_lets -underBinder +onlyGivenNames -merge x; subst x)
    | with_reducible apply State.applyEffects_keeps
    | with_reducible apply State.applyEntries_keeps
    | with_reducible apply State.overRegs_keeps
    | with_reducible apply State.stageEnd_keeps
    | with_reducible apply State.pass_keeps
    | intro _
    | split
    | simp only [Keeps.upd]

theorem State.swapLate_keeps {pq : List Instr} {s : State} (hs : State.Keeps pq s) :
    State.Keeps pq (State.swapLate s) := by
  unfold State.swapLate
  repeat' first
    | with_reducible assumption
    | (rename_i e; with_reducible refine Keeps.ofSnd (pq := pq) e ?_ (fun _ => ?_) <;> clear e)
    | (rename_i e; with_reducible refine Keeps.ofFst (pq := pq) e ?_ (fun _ => ?_) <;> clear e)
    | (extract_lets -underBinder +onlyGivenNames -merge x; with_reducible refine Keeps.cut (pq := pq) x ?_ (fun _ => ?_); rotate_left; clear_value x; rotate_left; subst x)
    | (extract_lets -underBinder +onlyGivenNames -merge x; subst x)
    | with_reducible apply State.applyEffects_keeps
    | intro _
    | split
    | simp only [Keeps.upd]

theorem State.stageTick_keeps {pq : List Instr} {s : State} {g : Fin 4} {k : Int} (hs : State.Keeps pq s) :
    State.Keeps pq (State.stageTick s g k) := by
  unfold State.stageTick
  repeat' first
    | with_reducible assumption
    | (rename_i e; with_reducible refine Keeps.ofSnd (pq := pq) e ?_ (fun _ => ?_) <;> clear e)
    | (rename_i e; with_reducible refine Keeps.ofFst (pq := pq) e ?_ (fun _ => ?_) <;> clear e)
    | with_reducible apply State.stageApply_keeps
    | split
    | simp only [Keeps.upd]

theorem State.stageAtDts_keeps {pq : List Instr} {s : State} (hs : State.Keeps pq s) :
    State.Keeps pq (State.stageAtDts s) := by
  unfold State.stageAtDts
  repeat' first
    | with_reducible assumption
    | (rename_i e; with_reducible refine Keeps.ofSnd (pq := pq) e ?_ (fun _ => ?_) <;> clear e)
    | (rename_i e; with_reducible refine Keeps.ofFst (pq := pq) e ?_ (fun _ => ?_) <;> clear e)
    | with_reducible apply State.stageApply_keeps
    | with_reducible apply State.advanceToDts_keeps
    | split
    | simp only [Keeps.upd]

theorem State.stageStepped_keeps {pq : List Instr} {s : State} {disp : Fin 4 → Int} (hs : State.Keeps pq s) :
    State.Keeps pq (State.stageStepped s disp) := by
  unfold State.stageStepped
  repeat' first
    | with_reducible assumption
    | (rename_i e; with_reducible refine Keeps.ofSnd (pq := pq) e ?_ (fun _ => ?_) <;> clear e)
    | (rename_i e; with_reducible refine Keeps.ofFst (pq := pq) e ?_ (fun _ => ?_) <;> clear e)
    | with_reducible apply State.stageApply_keeps
    | with_reducible apply State.setAt_keeps
    | split
    | simp only [Keeps.upd]

theorem execStagedChangeApplyAtDts_keeps {pq : List Instr} {s : State} (hs : State.Keeps pq s) :
    KeepsO pq (execStagedChangeApplyAtDts s) := by
  unfold execStagedChangeApplyAtDts
  repeat' first
    | with_reducible assumption
    | with_reducible apply KeepsO.mk
    | with_reducible apply State.stageAtDts_keeps
    | split

theorem execStageCheckEnd_keeps {pq : List Instr} {s : State} (hs : State.Keeps pq s) :
    KeepsO pq (execStageCheckEnd s) := by
  unfold execStageCheckEnd
  repeat' first
    | with_reducible assumption
    | with_reducible apply KeepsO.mk
    | with_reducible apply State.checkEnd_keeps
    | split

theorem State.sysClaim_keeps {pq : List Instr} {s : State} {m : Master} {v : Word} (hs : State.Keeps pq s) :
    State.Keeps pq (State.sysClaim s m v) := by
  unfold State.sysClaim
  repeat' first
    | with_reducible assumption
    | with_reducible apply State.claim_keepsP
    | (with_reducible refine State.claim_keepsE (by with_reducible assumption) ?_)
    | split

theorem State.sysCheck_keeps {pq : List Instr} {s : State} {m : Master} {v : Word} (hs : State.Keeps pq s) :
    State.Keeps pq (State.sysCheck s m v) := by
  unfold State.sysCheck
  repeat' first
    | with_reducible assumption
    | with_reducible apply State.checkBegin_keeps
    | split
    | simp only [Keeps.upd]

theorem State.sysApply_keeps {pq : List Instr} {s : State} {m : Master} {v : Word} (hs : State.Keeps pq s) :
    State.Keeps pq (State.sysApply s m v) := by
  unfold State.sysApply
  repeat' first
    | with_reducible assumption
    | with_reducible apply State.applyOrder_keepsP
    | (with_reducible refine State.applyOrder_keepsE (by with_reducible assumption) ?_)
    | intro _
    | split
    | simp only [Keeps.upd]

theorem State.sysCancel_keeps {pq : List Instr} {s : State} {m : Master} {v : Word} (hs : State.Keeps pq s) :
    State.Keeps pq (State.sysCancel s m v) := by
  unfold State.sysCancel
  repeat' first
    | with_reducible assumption
    | with_reducible apply State.stageCancel_keeps
    | split

theorem State.stagingView_keeps {pq : List Instr} {s : State} {m : Master} {off : Nat} {v : Word} (hs : State.Keeps pq s) :
    State.Keeps pq (State.stagingView s m off v) := by
  unfold State.stagingView
  repeat' first
    | with_reducible assumption
    | with_reducible apply State.stageReg_keeps
    | split

theorem execSysStageClaim_keeps {pq : List Instr} {m : Master} {v : Word} {s : State} (hs : State.Keeps pq s) :
    KeepsO pq (execSysStageClaim m v s) := by
  unfold execSysStageClaim
  repeat' first
    | with_reducible assumption
    | with_reducible apply KeepsO.mk
    | with_reducible apply State.sysClaim_keeps

theorem execSysStageCheck_keeps {pq : List Instr} {m : Master} {v : Word} {s : State} (hs : State.Keeps pq s) :
    KeepsO pq (execSysStageCheck m v s) := by
  unfold execSysStageCheck
  repeat' first
    | with_reducible assumption
    | with_reducible apply KeepsO.mk
    | with_reducible apply State.sysCheck_keeps

theorem execSysStageApply_keeps {pq : List Instr} {m : Master} {v : Word} {s : State} (hs : State.Keeps pq s) :
    KeepsO pq (execSysStageApply m v s) := by
  unfold execSysStageApply
  repeat' first
    | with_reducible assumption
    | with_reducible apply KeepsO.mk
    | with_reducible apply State.sysApply_keeps

theorem execSysStageCancel_keeps {pq : List Instr} {m : Master} {v : Word} {s : State} (hs : State.Keeps pq s) :
    KeepsO pq (execSysStageCancel m v s) := by
  unfold execSysStageCancel
  repeat' first
    | with_reducible assumption
    | with_reducible apply KeepsO.mk
    | with_reducible apply State.sysCancel_keeps

theorem execStagingWrite_keeps {pq : List Instr} {m : Master} {off : Nat} {v : Word} {s : State} (hs : State.Keeps pq s) :
    KeepsO pq (execStagingWrite m off v s) := by
  unfold execStagingWrite
  repeat' first
    | with_reducible assumption
    | with_reducible apply KeepsO.mk
    | with_reducible apply State.stagingView_keeps

theorem State.setRef_keeps {pq : List Instr} {s : State} {r : TimeRef} {x : RefState} (hs : State.Keeps pq s) :
    State.Keeps pq (State.setRef s r x) := by
  unfold State.setRef
  repeat' first
    | with_reducible assumption
    | split
    | simp only [Keeps.upd]

theorem State.reselect_keeps {pq : List Instr} {s : State} (hs : State.Keeps pq s) :
    State.Keeps pq (State.reselect s) := by
  unfold State.reselect
  repeat' first
    | with_reducible assumption
    | (extract_lets -underBinder +onlyGivenNames -merge x; with_reducible refine Keeps.cut (pq := pq) x ?_ (fun _ => ?_); rotate_left; clear_value x; rotate_left; subst x)
    | (extract_lets -underBinder +onlyGivenNames -merge x; subst x)
    | with_reducible apply State.raise_keeps
    | split
    | simp only [Keeps.upd]

theorem State.stopSlew_keeps {pq : List Instr} {s : State} (hs : State.Keeps pq s) :
    State.Keeps pq (State.stopSlew s) := by
  unfold State.stopSlew
  repeat' first
    | with_reducible assumption
    | simp only [Keeps.upd]

theorem State.unqualify_keeps {pq : List Instr} {s : State} {r : TimeRef} {x : RefState} (hs : State.Keeps pq s) :
    State.Keeps pq (State.unqualify s r x) := by
  unfold State.unqualify
  repeat' first
    | with_reducible assumption
    | (extract_lets -underBinder +onlyGivenNames -merge x; with_reducible refine Keeps.cut (pq := pq) x ?_ (fun _ => ?_); rotate_left; clear_value x; rotate_left; subst x)
    | (extract_lets -underBinder +onlyGivenNames -merge x; subst x)
    | with_reducible apply State.stopSlew_keeps
    | with_reducible apply State.reselect_keeps
    | with_reducible apply State.setRef_keeps
    | split
    | simp only [Keeps.upd]

theorem State.leaveParent_keeps {pq : List Instr} {s : State} (hs : State.Keeps pq s) :
    State.Keeps pq (State.leaveParent s) := by
  unfold State.leaveParent
  repeat' first
    | with_reducible assumption
    | intro _
    | split
    | simp only [Keeps.upd]

theorem State.loseRef_keeps {pq : List Instr} {s : State} {r : TimeRef} (hs : State.Keeps pq s) :
    State.Keeps pq (State.loseRef s r) := by
  unfold State.loseRef
  repeat' first
    | with_reducible assumption
    | (extract_lets -underBinder +onlyGivenNames -merge x; with_reducible refine Keeps.cut (pq := pq) x ?_ (fun _ => ?_); rotate_left; clear_value x; rotate_left; subst x)
    | (extract_lets -underBinder +onlyGivenNames -merge x; subst x)
    | with_reducible apply State.leaveParent_keeps
    | with_reducible apply State.unqualify_keeps
    | with_reducible apply State.raise_keeps
    | split
    | simp only [Keeps.upd]

theorem State.refEvent_keeps {pq : List Instr} {s : State} {r : TimeRef} {fresh : Bool} (hs : State.Keeps pq s) :
    State.Keeps pq (State.refEvent s r fresh) := by
  unfold State.refEvent
  repeat' first
    | with_reducible assumption
    | (rename_i e; with_reducible refine Keeps.ofSnd (pq := pq) e ?_ (fun _ => ?_) <;> clear e)
    | (rename_i e; with_reducible refine Keeps.ofFst (pq := pq) e ?_ (fun _ => ?_) <;> clear e)
    | (extract_lets -underBinder +onlyGivenNames -merge x; with_reducible refine Keeps.cut (pq := pq) x ?_ (fun _ => ?_); rotate_left; clear_value x; rotate_left; subst x)
    | (extract_lets -underBinder +onlyGivenNames -merge x; subst x)
    | with_reducible apply State.loseRef_keeps
    | with_reducible apply State.setRef_keeps
    | intro _
    | split
    | simp only [Keeps.upd]

theorem State.clearHoldover_keeps {pq : List Instr} {s : State} (hs : State.Keeps pq s) :
    State.Keeps pq (State.clearHoldover s) := by
  unfold State.clearHoldover
  repeat' first
    | with_reducible assumption
    | simp only [Keeps.upd]

theorem State.enterHoldover_keeps {pq : List Instr} {s : State} (hs : State.Keeps pq s) :
    State.Keeps pq (State.enterHoldover s) := by
  unfold State.enterHoldover
  repeat' first
    | with_reducible assumption
    | with_reducible apply State.raise_keeps
    | simp only [Keeps.upd]

theorem State.holdoverSet_keeps {pq : List Instr} {s : State} (hs : State.Keeps pq s) :
    State.Keeps pq (State.holdoverSet s) := by
  unfold State.holdoverSet
  repeat' first
    | with_reducible assumption
    | with_reducible apply State.enterHoldover_keeps
    | with_reducible apply State.advanceTo_keeps
    | split
    | simp only [Keeps.upd]

theorem State.hoSpecExpired_keeps {pq : List Instr} {s : State} (hs : State.Keeps pq s) :
    State.Keeps pq (State.hoSpecExpired s) := by
  unfold State.hoSpecExpired
  repeat' first
    | with_reducible assumption
    | (extract_lets -underBinder +onlyGivenNames -merge x; with_reducible refine Keeps.cut (pq := pq) x ?_ (fun _ => ?_); rotate_left; clear_value x; rotate_left; subst x)
    | (extract_lets -underBinder +onlyGivenNames -merge x; subst x)
    | with_reducible apply State.advanceTo_keeps
    | split
    | simp only [Keeps.upd]

theorem State.uncount_keeps {pq : List Instr} {s : State} {g : Fin 4} (hs : State.Keeps pq s) :
    State.Keeps pq (State.uncount s g) := by
  unfold State.uncount
  repeat' first
    | with_reducible assumption
    | (rename_i e; with_reducible refine Keeps.ofSnd (pq := pq) e ?_ (fun _ => ?_) <;> clear e)
    | (rename_i e; with_reducible refine Keeps.ofFst (pq := pq) e ?_ (fun _ => ?_) <;> clear e)
    | (extract_lets -underBinder +onlyGivenNames -merge x; with_reducible refine Keeps.cut (pq := pq) x ?_ (fun _ => ?_); rotate_left; clear_value x; rotate_left; subst x)
    | (extract_lets -underBinder +onlyGivenNames -merge x; subst x)
    | intro _
    | split
    | simp only [Keeps.upd]

theorem State.doStep_keeps {pq : List Instr} {s : State} {delta : Int} {cause : Nat} {after : Option (Fin 4)} (hs : State.Keeps pq s) :
    State.Keeps pq (State.doStep s delta cause after) := by
  unfold State.doStep
  repeat' first
    | with_reducible assumption
    | (extract_lets -underBinder +onlyGivenNames -merge x; with_reducible refine Keeps.cut (pq := pq) x ?_ (fun _ => ?_); rotate_left; clear_value x; rotate_left; subst x)
    | (extract_lets -underBinder +onlyGivenNames -merge x; subst x)
    | with_reducible apply State.uncount_keeps
    | with_reducible apply State.clearHoldover_keeps
    | with_reducible apply State.stageStepped_keeps
    | with_reducible apply State.moveTargets_keeps
    | with_reducible apply State.setNext_keeps
    | with_reducible apply State.gatesStepped_keeps
    | with_reducible apply State.raise_keeps
    | with_reducible apply State.logRecord_keeps
    | with_reducible apply State.setFullTime_keeps
    | (with_reducible refine forEach_keeps ?_ (fun _ _ _ => ?_))
    | intro _
    | split
    | simp only [Keeps.upd]

theorem State.beginStep_keeps {pq : List Instr} {s : State} {delta : Int} {cause : Nat} (hs : State.Keeps pq s) :
    State.Keeps pq (State.beginStep s delta cause) := by
  unfold State.beginStep
  repeat' first
    | with_reducible assumption
    | (rename_i e; with_reducible refine Keeps.ofSnd (pq := pq) e ?_ (fun _ => ?_) <;> clear e)
    | (rename_i e; with_reducible refine Keeps.ofFst (pq := pq) e ?_ (fun _ => ?_) <;> clear e)
    | (extract_lets -underBinder +onlyGivenNames -merge x; with_reducible refine Keeps.cut (pq := pq) x ?_ (fun _ => ?_); rotate_left; clear_value x; rotate_left; subst x)
    | (extract_lets -underBinder +onlyGivenNames -merge x; subst x)
    | with_reducible apply State.doStep_keeps
    | with_reducible apply State.stopSlew_keeps
    | with_reducible apply State.raise_keeps
    | split
    | simp only [Keeps.upd]

theorem State.stepAtTick_keeps {pq : List Instr} {s : State} {g : Fin 4} (hs : State.Keeps pq s) :
    State.Keeps pq (State.stepAtTick s g) := by
  unfold State.stepAtTick
  repeat' first
    | with_reducible assumption
    | with_reducible apply State.doStep_keeps
    | split
    | simp only [Keeps.upd]

theorem State.stepNight_keeps {pq : List Instr} {s : State} (hs : State.Keeps pq s) :
    State.Keeps pq (State.stepNight s) := by
  unfold State.stepNight
  repeat' first
    | with_reducible assumption
    | intro _
    | split
    | simp only [Keeps.upd]

theorem State.slewEnds_keeps {pq : List Instr} {s : State} {was : Bool} (hs : State.Keeps pq s) :
    State.Keeps pq (State.slewEnds s was) := by
  unfold State.slewEnds
  repeat' first
    | with_reducible assumption
    | with_reducible apply State.raise_keeps
    | intro _
    | split
    | simp only [Keeps.upd]

theorem State.measure_keeps {pq : List Instr} {s : State} {delta : Int} (hs : State.Keeps pq s) :
    State.Keeps pq (State.measure s delta) := by
  unfold State.measure
  repeat' first
    | with_reducible assumption
    | (rename_i e; with_reducible refine Keeps.ofSnd (pq := pq) e ?_ (fun _ => ?_) <;> clear e)
    | (rename_i e; with_reducible refine Keeps.ofFst (pq := pq) e ?_ (fun _ => ?_) <;> clear e)
    | (extract_lets -underBinder +onlyGivenNames -merge x; with_reducible refine Keeps.cut (pq := pq) x ?_ (fun _ => ?_); rotate_left; clear_value x; rotate_left; subst x)
    | (extract_lets -underBinder +onlyGivenNames -merge x; subst x)
    | with_reducible apply State.slewEnds_keeps
    | with_reducible apply State.beginStep_keeps
    | with_reducible apply State.clearHoldover_keeps
    | intro _
    | split
    | simp only [Keeps.upd]

theorem State.slewDone_keeps {pq : List Instr} {s : State} (hs : State.Keeps pq s) :
    State.Keeps pq (State.slewDone s) := by
  unfold State.slewDone
  repeat' first
    | with_reducible assumption
    | (extract_lets -underBinder +onlyGivenNames -merge x; with_reducible refine Keeps.cut (pq := pq) x ?_ (fun _ => ?_); rotate_left; clear_value x; rotate_left; subst x)
    | (extract_lets -underBinder +onlyGivenNames -merge x; subst x)
    | with_reducible apply State.clearHoldover_keeps
    | with_reducible apply State.raise_keeps
    | with_reducible apply State.advance_keeps
    | split
    | simp only [Keeps.upd]

theorem State.endAcquisition_keeps {pq : List Instr} {s : State} (hs : State.Keeps pq s) :
    State.Keeps pq (State.endAcquisition s) := by
  unfold State.endAcquisition
  repeat' first
    | with_reducible assumption
    | intro _
    | split
    | simp only [Keeps.upd]

theorem State.refQualified_keeps {pq : List Instr} {s : State} {r : TimeRef} {delta : Int} {adj : Word} (hs : State.Keeps pq s) :
    State.Keeps pq (State.refQualified s r delta adj) := by
  unfold State.refQualified
  repeat' first
    | with_reducible assumption
    | (rename_i e; with_reducible refine Keeps.ofSnd (pq := pq) e ?_ (fun _ => ?_) <;> clear e)
    | (rename_i e; with_reducible refine Keeps.ofFst (pq := pq) e ?_ (fun _ => ?_) <;> clear e)
    | (extract_lets -underBinder +onlyGivenNames -merge x; with_reducible refine Keeps.cut (pq := pq) x ?_ (fun _ => ?_); rotate_left; clear_value x; rotate_left; subst x)
    | (extract_lets -underBinder +onlyGivenNames -merge x; subst x)
    | with_reducible apply State.endAcquisition_keeps
    | with_reducible apply State.measure_keeps
    | with_reducible apply State.clearHoldover_keeps
    | with_reducible apply State.reselect_keeps
    | with_reducible apply State.setRef_keeps
    | with_reducible apply State.start_keeps
    | with_reducible apply State.advanceTo_keeps
    | intro _
    | split
    | simp only [Keeps.upd]

theorem State.refLost_keeps {pq : List Instr} {s : State} {r : TimeRef} (hs : State.Keeps pq s) :
    State.Keeps pq (State.refLost s r) := by
  unfold State.refLost
  repeat' first
    | with_reducible assumption
    | (rename_i e; with_reducible refine Keeps.ofSnd (pq := pq) e ?_ (fun _ => ?_) <;> clear e)
    | (rename_i e; with_reducible refine Keeps.ofFst (pq := pq) e ?_ (fun _ => ?_) <;> clear e)
    | with_reducible apply State.loseRef_keeps
    | with_reducible apply State.advanceTo_keeps
    | intro _
    | split
    | simp only [Keeps.upd]

theorem State.announce_keeps {pq : List Instr} {s : State} {p : Nat} {a : Announce} (hs : State.Keeps pq s) :
    State.Keeps pq (State.announce s p a) := by
  unfold State.announce
  repeat' first
    | with_reducible assumption
    | (extract_lets -underBinder +onlyGivenNames -merge x; with_reducible refine Keeps.cut (pq := pq) x ?_ (fun _ => ?_); rotate_left; clear_value x; rotate_left; subst x)
    | (extract_lets -underBinder +onlyGivenNames -merge x; subst x)
    | with_reducible apply State.refEvent_keeps
    | intro _
    | split
    | simp only [Keeps.upd]

theorem State.ppsEdge_keeps {pq : List Instr} {s : State} {rising : Bool} (hs : State.Keeps pq s) :
    State.Keeps pq (State.ppsEdge s rising) := by
  unfold State.ppsEdge
  extract_lets pol apart s2
  split
  · clear_value apart
    have h2 : State.Keeps pq s2 := by
      unfold s2
      split
      · exact State.refEvent_keeps hs
      · exact hs
    clear_value s2
    split
    · exact State.measure_keeps h2
    · exact h2
  · exact hs

theorem State.clkEdge_keeps {pq : List Instr} {s : State} (hs : State.Keeps pq s) :
    State.Keeps pq (State.clkEdge s) := by
  unfold State.clkEdge
  repeat' first
    | with_reducible assumption
    | with_reducible apply State.refEvent_keeps
    | intro _
    | split
    | simp only [Keeps.upd]

theorem State.refsChanged_keeps {pq : List Instr} {s : State} {l : List TimeRef} {old : Nat} (hs : State.Keeps pq s) :
    State.Keeps pq (State.refsChanged s l old) := by
  unfold State.refsChanged
  repeat' first
    | with_reducible assumption
    | (rename_i e; with_reducible refine Keeps.ofSnd (pq := pq) e ?_ (fun _ => ?_) <;> clear e)
    | (rename_i e; with_reducible refine Keeps.ofFst (pq := pq) e ?_ (fun _ => ?_) <;> clear e)
    | (extract_lets -underBinder +onlyGivenNames -merge x; with_reducible refine Keeps.cut (pq := pq) x ?_ (fun _ => ?_); rotate_left; clear_value x; rotate_left; subst x)
    | (extract_lets -underBinder +onlyGivenNames -merge x; subst x)
    | with_reducible apply State.leaveParent_keeps
    | with_reducible apply State.unqualify_keeps
    | with_reducible apply State.setRef_keeps
    | (with_reducible refine forEach_keeps ?_ (fun _ _ _ => ?_))
    | intro _
    | split
    | simp only [Keeps.upd]

theorem State.refsReconfigured_keeps {pq : List Instr} {s : State} {old : Nat} (hs : State.Keeps pq s) :
    State.Keeps pq (State.refsReconfigured s old) := by
  unfold State.refsReconfigured
  repeat' first
    | with_reducible assumption
    | with_reducible apply State.refsChanged_keeps
    | intro _
    | split
    | simp only [Keeps.upd]

theorem State.ptpSend_keeps {pq : List Instr} {s : State} {p : Nat} {m : PtpMsg} (hs : State.Keeps pq s) :
    State.Keeps pq (State.ptpSend s p m) := by
  unfold State.ptpSend
  repeat' first
    | with_reducible assumption
    | (rename_i e; with_reducible refine Keeps.ofSnd (pq := pq) e ?_ (fun _ => ?_) <;> clear e)
    | (rename_i e; with_reducible refine Keeps.ofFst (pq := pq) e ?_ (fun _ => ?_) <;> clear e)
    | (extract_lets -underBinder +onlyGivenNames -merge x; with_reducible refine Keeps.cut (pq := pq) x ?_ (fun _ => ?_); rotate_left; clear_value x; rotate_left; subst x)
    | (extract_lets -underBinder +onlyGivenNames -merge x; subst x)
    | with_reducible apply State.emit_keeps
    | intro _
    | split
    | simp only [Keeps.upd]

theorem State.ptpSeqNext_keeps {pq : List Instr} {s : State} {p type : Nat} (hs : State.Keeps pq s) :
    State.Keeps pq (State.ptpSeqNext s p type) := by
  unfold State.ptpSeqNext
  repeat' first
    | with_reducible assumption
    | intro _
    | split
    | simp only [Keeps.upd]

theorem State.sendSync_keeps {pq : List Instr} {s : State} {p : Nat} (hs : State.Keeps pq s) :
    State.Keeps pq (State.sendSync s p) := by
  unfold State.sendSync
  repeat' first
    | with_reducible assumption
    | (rename_i e; with_reducible refine Keeps.ofSnd (pq := pq) e ?_ (fun _ => ?_) <;> clear e)
    | (rename_i e; with_reducible refine Keeps.ofFst (pq := pq) e ?_ (fun _ => ?_) <;> clear e)
    | (extract_lets -underBinder +onlyGivenNames -merge x; with_reducible refine Keeps.cut (pq := pq) x ?_ (fun _ => ?_); rotate_left; clear_value x; rotate_left; subst x)
    | (extract_lets -underBinder +onlyGivenNames -merge x; subst x)
    | with_reducible apply State.ptpSeqNext_keeps
    | with_reducible apply State.ptpSend_keeps
    | intro _
    | split
    | simp only [Keeps.upd]

theorem State.sendRequest_keeps {pq : List Instr} {s : State} {p : Nat} (hs : State.Keeps pq s) :
    State.Keeps pq (State.sendRequest s p) := by
  unfold State.sendRequest
  repeat' first
    | with_reducible assumption
    | (rename_i e; with_reducible refine Keeps.ofSnd (pq := pq) e ?_ (fun _ => ?_) <;> clear e)
    | (rename_i e; with_reducible refine Keeps.ofFst (pq := pq) e ?_ (fun _ => ?_) <;> clear e)
    | (extract_lets -underBinder +onlyGivenNames -merge x; with_reducible refine Keeps.cut (pq := pq) x ?_ (fun _ => ?_); rotate_left; clear_value x; rotate_left; subst x)
    | (extract_lets -underBinder +onlyGivenNames -merge x; subst x)
    | with_reducible apply State.ptpSeqNext_keeps
    | with_reducible apply State.ptpSend_keeps
    | intro _
    | split
    | simp only [Keeps.upd]

theorem State.sendAnnounce_keeps {pq : List Instr} {s : State} {p cls acc src open_ : Nat} (hs : State.Keeps pq s) :
    State.Keeps pq (State.sendAnnounce s p cls acc src open_) := by
  unfold State.sendAnnounce
  repeat' first
    | with_reducible assumption
    | (rename_i e; with_reducible refine Keeps.ofSnd (pq := pq) e ?_ (fun _ => ?_) <;> clear e)
    | (rename_i e; with_reducible refine Keeps.ofFst (pq := pq) e ?_ (fun _ => ?_) <;> clear e)
    | (extract_lets -underBinder +onlyGivenNames -merge x; with_reducible refine Keeps.cut (pq := pq) x ?_ (fun _ => ?_); rotate_left; clear_value x; rotate_left; subst x)
    | (extract_lets -underBinder +onlyGivenNames -merge x; subst x)
    | with_reducible apply State.ptpSeqNext_keeps
    | with_reducible apply State.ptpSend_keeps
    | intro _
    | split
    | simp only [Keeps.upd]

theorem State.ptpAnswer_keeps {pq : List Instr} {s : State} {p : Nat} {body : List Byte} {arrival : DWord} (hs : State.Keeps pq s) :
    State.Keeps pq (State.ptpAnswer s p body arrival) := by
  unfold State.ptpAnswer
  repeat' first
    | with_reducible assumption
    | (rename_i e; with_reducible refine Keeps.ofSnd (pq := pq) e ?_ (fun _ => ?_) <;> clear e)
    | (rename_i e; with_reducible refine Keeps.ofFst (pq := pq) e ?_ (fun _ => ?_) <;> clear e)
    | (extract_lets -underBinder +onlyGivenNames -merge x; with_reducible refine Keeps.cut (pq := pq) x ?_ (fun _ => ?_); rotate_left; clear_value x; rotate_left; subst x)
    | (extract_lets -underBinder +onlyGivenNames -merge x; subst x)
    | with_reducible apply State.ptpSend_keeps
    | intro _
    | split
    | simp only [Keeps.upd]

theorem State.ptpInterval_keeps {pq : List Instr} {s : State} {p : Nat} {kind : Nat} (hs : State.Keeps pq s) :
    State.Keeps pq (State.ptpInterval s p kind) := by
  unfold State.ptpInterval
  repeat' first
    | with_reducible assumption
    | (rename_i e; with_reducible refine Keeps.ofSnd (pq := pq) e ?_ (fun _ => ?_) <;> clear e)
    | (rename_i e; with_reducible refine Keeps.ofFst (pq := pq) e ?_ (fun _ => ?_) <;> clear e)
    | (extract_lets -underBinder +onlyGivenNames -merge x; with_reducible refine Keeps.cut (pq := pq) x ?_ (fun _ => ?_); rotate_left; clear_value x; rotate_left; subst x)
    | (extract_lets -underBinder +onlyGivenNames -merge x; subst x)
    | with_reducible apply State.sendAnnounce_keeps
    | with_reducible apply State.sendRequest_keeps
    | with_reducible apply State.sendSync_keeps
    | with_reducible apply State.drawFree_keepsP
    | (with_reducible refine State.drawFree_keepsE (by with_reducible assumption) ?_)
    | with_reducible apply State.emit_keeps
    | intro _
    | split
    | simp only [Keeps.upd]

theorem State.slaveOffset_keeps {pq : List Instr} {s : State} {p : Nat} {offset : Option Int} (hs : State.Keeps pq s) :
    State.Keeps pq (State.slaveOffset s p offset) := by
  unfold State.slaveOffset
  repeat' first
    | with_reducible assumption
    | (rename_i e; with_reducible refine Keeps.ofSnd (pq := pq) e ?_ (fun _ => ?_) <;> clear e)
    | (rename_i e; with_reducible refine Keeps.ofFst (pq := pq) e ?_ (fun _ => ?_) <;> clear e)
    | (extract_lets -underBinder +onlyGivenNames -merge x; with_reducible refine Keeps.cut (pq := pq) x ?_ (fun _ => ?_); rotate_left; clear_value x; rotate_left; subst x)
    | (extract_lets -underBinder +onlyGivenNames -merge x; subst x)
    | with_reducible apply State.measure_keeps
    | intro _
    | split
    | simp only [Keeps.upd]

theorem State.timeUnitReset_keeps {pq : List Instr} {s : State} (hs : State.Keeps pq s) :
    State.Keeps pq (State.timeUnitReset s) := by
  unfold State.timeUnitReset
  repeat' first
    | with_reducible assumption
    | (rename_i e; with_reducible refine Keeps.ofSnd (pq := pq) e ?_ (fun _ => ?_) <;> clear e)
    | (rename_i e; with_reducible refine Keeps.ofFst (pq := pq) e ?_ (fun _ => ?_) <;> clear e)
    | (extract_lets -underBinder +onlyGivenNames -merge x; with_reducible refine Keeps.cut (pq := pq) x ?_ (fun _ => ?_); rotate_left; clear_value x; rotate_left; subst x)
    | (extract_lets -underBinder +onlyGivenNames -merge x; subst x)
    | with_reducible apply State.startGroup_keeps
    | (with_reducible refine forEach_keeps ?_ (fun _ _ _ => ?_))
    | intro _
    | split
    | simp only [Keeps.upd]

theorem State.ppsOut_keeps {pq : List Instr} {s : State} (hs : State.Keeps pq s) :
    State.Keeps pq (State.ppsOut s) := by
  unfold State.ppsOut
  repeat' first
    | with_reducible assumption
    | (extract_lets -underBinder +onlyGivenNames -merge x; with_reducible refine Keeps.cut (pq := pq) x ?_ (fun _ => ?_); rotate_left; clear_value x; rotate_left; subst x)
    | (extract_lets -underBinder +onlyGivenNames -merge x; subst x)
    | with_reducible apply State.emit_keeps
    | with_reducible apply State.advanceToDts_keeps
    | split
    | simp only [Keeps.upd]

theorem State.timeSet_keeps {pq : List Instr} {s : State} {m : Master} {v : Word} (hs : State.Keeps pq s) :
    State.Keeps pq (State.timeSet s m v) := by
  unfold State.timeSet
  repeat' first
    | with_reducible assumption
    | with_reducible apply State.beginStep_keeps
    | split
    | simp only [Keeps.upd]

theorem execTimeDtsLoRead_keeps {pq : List Instr} {s : State} (hs : State.Keeps pq s) :
    KeepsO pq (execTimeDtsLoRead s) := by
  unfold execTimeDtsLoRead
  repeat' first
    | with_reducible assumption
    | with_reducible apply KeepsO.mk
    | with_reducible apply State.setRd_keeps
    | split
    | simp only [Keeps.upd]

theorem execTimeSetGo_keeps {pq : List Instr} {m : Master} {v : Word} {s : State} (hs : State.Keeps pq s) :
    KeepsO pq (execTimeSetGo m v s) := by
  unfold execTimeSetGo
  repeat' first
    | with_reducible assumption
    | with_reducible apply KeepsO.mk
    | with_reducible apply State.timeSet_keeps

theorem execAnnounceReceived_keeps {pq : List Instr} {p : Fin 17} {a : Announce} {s : State} (hs : State.Keeps pq s) :
    KeepsO pq (execAnnounceReceived p a s) := by
  unfold execAnnounceReceived
  repeat' first
    | with_reducible assumption
    | with_reducible apply KeepsO.mk
    | with_reducible apply State.announce_keeps

theorem execPpsInEdge_keeps {pq : List Instr} {rising : Bool} {s : State} (hs : State.Keeps pq s) :
    KeepsO pq (execPpsInEdge rising s) := by
  unfold execPpsInEdge
  repeat' first
    | with_reducible assumption
    | with_reducible apply KeepsO.mk
    | with_reducible apply State.ppsEdge_keeps

theorem execClk10mInEdge_keeps {pq : List Instr} {s : State} (hs : State.Keeps pq s) :
    KeepsO pq (execClk10mInEdge s) := by
  unfold execClk10mInEdge
  repeat' first
    | with_reducible assumption
    | with_reducible apply KeepsO.mk
    | with_reducible apply State.clkEdge_keeps

theorem execReferenceLost_keeps {pq : List Instr} {r : TimeRef} {s : State} (hs : State.Keeps pq s) :
    KeepsO pq (execReferenceLost r s) := by
  unfold execReferenceLost
  repeat' first
    | with_reducible assumption
    | with_reducible apply KeepsO.mk
    | with_reducible apply State.refLost_keeps

theorem execReferenceQualified_keeps {pq : List Instr} {r : TimeRef} {delta : Int} {adj : Word} {s : State} (hs : State.Keeps pq s) :
    KeepsO pq (execReferenceQualified r delta adj s) := by
  unfold execReferenceQualified
  repeat' first
    | with_reducible assumption
    | with_reducible apply KeepsO.mk
    | with_reducible apply State.refQualified_keeps

theorem execHoldoverSet_keeps {pq : List Instr} {s : State} (hs : State.Keeps pq s) :
    KeepsO pq (execHoldoverSet s) := by
  unfold execHoldoverSet
  repeat' first
    | with_reducible assumption
    | with_reducible apply KeepsO.mk
    | with_reducible apply State.holdoverSet_keeps

theorem execHoSpecExpired_keeps {pq : List Instr} {s : State} (hs : State.Keeps pq s) :
    KeepsO pq (execHoSpecExpired s) := by
  unfold execHoSpecExpired
  repeat' first
    | with_reducible assumption
    | with_reducible apply KeepsO.mk
    | with_reducible apply State.hoSpecExpired_keeps
    | split

theorem execSlewDone_keeps {pq : List Instr} {s : State} (hs : State.Keeps pq s) :
    KeepsO pq (execSlewDone s) := by
  unfold execSlewDone
  repeat' first
    | with_reducible assumption
    | with_reducible apply KeepsO.mk
    | with_reducible apply State.slewDone_keeps

theorem execPpsOutPulse_keeps {pq : List Instr} {s : State} (hs : State.Keeps pq s) :
    KeepsO pq (execPpsOutPulse s) := by
  unfold execPpsOutPulse
  repeat' first
    | with_reducible assumption
    | with_reducible apply KeepsO.mk
    | with_reducible apply State.ppsOut_keeps

theorem execPtpIntervalExpiry_keeps {pq : List Instr} {p : Fin 17} {kind : Fin 3} {s : State} (hs : State.Keeps pq s) :
    KeepsO pq (execPtpIntervalExpiry p kind s) := by
  unfold execPtpIntervalExpiry
  repeat' first
    | with_reducible assumption
    | with_reducible apply KeepsO.mk
    | with_reducible apply State.ptpInterval_keeps

theorem execCopyTransmitEnd_keeps {pq : List Instr} {p : Fin 28} {media : Bool} {s : State} (hs : State.Keeps pq s) :
    KeepsO pq (execCopyTransmitEnd p media s) := by
  unfold execCopyTransmitEnd
  repeat' first
    | with_reducible assumption
    | with_reducible apply KeepsO.mk
    | (rename_i e; with_reducible refine Keeps.ofSnd (pq := pq) e ?_ (fun _ => ?_) <;> clear e)
    | (rename_i e; with_reducible refine Keeps.ofFst (pq := pq) e ?_ (fun _ => ?_) <;> clear e)
    | (extract_lets -underBinder +onlyGivenNames -merge x; with_reducible refine Keeps.cut (pq := pq) x ?_ (fun _ => ?_); rotate_left; clear_value x; rotate_left; subst x)
    | (extract_lets -underBinder +onlyGivenNames -merge x; subst x)
    | with_reducible apply State.ptpAnswer_keeps
    | with_reducible apply State.copyEnd_keeps
    | intro _
    | split
    | simp only [Keeps.upd]

theorem execFrameTail_keeps {pq : List Instr} {p : Fin 17} {t : TailFacts} {s : State} (hs : State.Keeps pq s) :
    KeepsO pq (execFrameTail p t s) := by
  unfold execFrameTail
  repeat' first
    | with_reducible assumption
    | with_reducible apply KeepsO.mk
    | with_reducible apply State.slaveOffset_keeps
    | with_reducible apply State.frameTail_keeps

theorem State.setDma_keeps {pq : List Instr} {s : State} {c : Nat} {x : DmaCh} (hs : State.Keeps pq s) :
    State.Keeps pq (State.setDma s c x) := by
  unfold State.setDma
  repeat' first
    | with_reducible assumption
    | with_reducible apply idle_keeps
    | simp only [Keeps.upd]

theorem State.dmaEnd_keeps {pq : List Instr} {s : State} {c : Nat} {x : DmaCh} {st : DmaSt} {code : Status} (hs : State.Keeps pq s) :
    State.Keeps pq (State.dmaEnd s c x st code) := by
  unfold State.dmaEnd
  repeat' first
    | with_reducible assumption
    | with_reducible apply State.setDma_keeps
    | with_reducible apply State.raise_keeps
    | simp only [Keeps.upd]

theorem State.dmaHalt_keeps {pq : List Instr} {s : State} {c : Nat} {x : DmaCh} {code : Status} {kind : Nat} (hs : State.Keeps pq s) :
    State.Keeps pq (State.dmaHalt s c x code kind) := by
  unfold State.dmaHalt
  repeat' first
    | with_reducible assumption
    | with_reducible apply State.dmaEnd_keeps
    | with_reducible apply State.fault_keeps

theorem State.dmaFail_keeps {pq : List Instr} {s : State} {c : Nat} {x : DmaCh} (hs : State.Keeps pq s) :
    State.Keeps pq (State.dmaFail s c x) := by
  unfold State.dmaFail
  repeat' first
    | with_reducible assumption
    | (extract_lets -underBinder +onlyGivenNames -merge x; with_reducible refine Keeps.cut (pq := pq) x ?_ (fun _ => ?_); rotate_left; clear_value x; rotate_left; subst x)
    | (extract_lets -underBinder +onlyGivenNames -merge x; subst x)
    | with_reducible apply State.dmaHalt_keeps
    | with_reducible apply State.setDma_keeps
    | split
    | simp only [Keeps.upd]

theorem State.dmaStart_keeps {pq : List Instr} {s : State} {c : Nat} (hs : State.Keeps pq s) :
    State.Keeps pq (State.dmaStart s c) := by
  unfold State.dmaStart
  repeat' first
    | with_reducible assumption
    | (extract_lets -underBinder +onlyGivenNames -merge x; with_reducible refine Keeps.cut (pq := pq) x ?_ (fun _ => ?_); rotate_left; clear_value x; rotate_left; subst x)
    | (extract_lets -underBinder +onlyGivenNames -merge x; subst x)
    | with_reducible apply State.setDma_keeps
    | with_reducible apply idle_keeps
    | split
    | simp only [Keeps.upd]

theorem State.dmaStop_keeps {pq : List Instr} {s : State} {c : Nat} (hs : State.Keeps pq s) :
    State.Keeps pq (State.dmaStop s c) := by
  unfold State.dmaStop
  repeat' first
    | with_reducible assumption
    | (extract_lets -underBinder +onlyGivenNames -merge x; with_reducible refine Keeps.cut (pq := pq) x ?_ (fun _ => ?_); rotate_left; clear_value x; rotate_left; subst x)
    | (extract_lets -underBinder +onlyGivenNames -merge x; subst x)
    | with_reducible apply State.dmaEnd_keeps
    | with_reducible apply State.setDma_keeps
    | split
    | simp only [Keeps.upd]

theorem State.dmaClear_keeps {pq : List Instr} {s : State} {c : Nat} (hs : State.Keeps pq s) :
    State.Keeps pq (State.dmaClear s c) := by
  unfold State.dmaClear
  repeat' first
    | with_reducible assumption
    | (extract_lets -underBinder +onlyGivenNames -merge x; with_reducible refine Keeps.cut (pq := pq) x ?_ (fun _ => ?_); rotate_left; clear_value x; rotate_left; subst x)
    | (extract_lets -underBinder +onlyGivenNames -merge x; subst x)
    | with_reducible apply State.setDma_keeps
    | with_reducible apply idle_keeps
    | split
    | simp only [Keeps.upd]

theorem State.dmaIsolate_keeps {pq : List Instr} {s : State} {c : Nat} (hs : State.Keeps pq s) :
    State.Keeps pq (State.dmaIsolate s c) := by
  unfold State.dmaIsolate
  repeat' first
    | with_reducible assumption
    | with_reducible apply State.dmaEnd_keeps
    | simp only [Keeps.upd]

theorem State.dmaReinstate_keeps {pq : List Instr} {s : State} {c : Nat} (hs : State.Keeps pq s) :
    State.Keeps pq (State.dmaReinstate s c) := by
  unfold State.dmaReinstate
  repeat' first
    | with_reducible assumption
    | with_reducible apply State.setDma_keeps
    | with_reducible apply idle_keeps

theorem State.dmaReset_keeps {pq : List Instr} {s : State} (hs : State.Keeps pq s) :
    State.Keeps pq (State.dmaReset s) := by
  unfold State.dmaReset
  repeat' first
    | with_reducible assumption
    | with_reducible apply State.dmaEnd_keeps
    | (with_reducible refine forEach_keeps ?_ (fun _ _ _ => ?_))
    | intro _
    | split
    | simp only [Keeps.upd]

theorem State.dmaFetch_keeps {pq : List Instr} {s : State} {c : Nat} {r : DmaRead} (hs : State.Keeps pq s) :
    State.Keeps pq (State.dmaFetch s c r) := by
  unfold State.dmaFetch
  repeat' first
    | with_reducible assumption
    | (extract_lets -underBinder +onlyGivenNames -merge x; with_reducible refine Keeps.cut (pq := pq) x ?_ (fun _ => ?_); rotate_left; clear_value x; rotate_left; subst x)
    | (extract_lets -underBinder +onlyGivenNames -merge x; subst x)
    | with_reducible apply State.dmaFail_keeps
    | with_reducible apply State.dmaHalt_keeps
    | with_reducible apply State.setDma_keeps
    | with_reducible apply State.count_keeps
    | with_reducible apply State.devRead_keeps
    | split
    | simp only [Keeps.upd]

theorem State.dmaBlockDone_keeps {pq : List Instr} {s : State} {c : Nat} {x : DmaCh} {d : DmaDesc} {n : Nat} (hs : State.Keeps pq s) :
    State.Keeps pq (State.dmaBlockDone s c x d n) := by
  unfold State.dmaBlockDone
  repeat' first
    | with_reducible assumption
    | (extract_lets -underBinder +onlyGivenNames -merge x; with_reducible refine Keeps.cut (pq := pq) x ?_ (fun _ => ?_); rotate_left; clear_value x; rotate_left; subst x)
    | (extract_lets -underBinder +onlyGivenNames -merge x; subst x)
    | with_reducible apply State.dmaEnd_keeps
    | with_reducible apply State.setDma_keeps
    | with_reducible apply State.count_keeps
    | split
    | simp only [Keeps.upd]

theorem State.dmaPoisonEnd_keeps {pq : List Instr} {s : State} {c : Nat} {x : DmaCh} {d : DmaDesc} {dst : DWord} {b : List Byte} {n : Nat} {words : List Nat} (hs : State.Keeps pq s) :
    State.Keeps pq (State.dmaPoisonEnd s c x d dst b n words) := by
  unfold State.dmaPoisonEnd
  repeat' first
    | with_reducible assumption
    | (extract_lets -underBinder +onlyGivenNames -merge x; with_reducible refine Keeps.cut (pq := pq) x ?_ (fun _ => ?_); rotate_left; clear_value x; rotate_left; subst x)
    | (extract_lets -underBinder +onlyGivenNames -merge x; subst x)
    | with_reducible apply State.dmaHalt_keeps
    | with_reducible apply State.emit_keeps
    | with_reducible apply State.spaceWrite_keeps
    | with_reducible apply State.poisonWords_keeps
    | split
    | simp only [Keeps.upd]

theorem State.dmaBlock_keeps {pq : List Instr} {s : State} {c : Nat} {r : DmaRead} {writeFailed : Bool} (hs : State.Keeps pq s) :
    State.Keeps pq (State.dmaBlock s c r writeFailed) := by
  unfold State.dmaBlock
  repeat' first
    | with_reducible assumption
    | (rename_i e; with_reducible refine Keeps.ofSnd (pq := pq) e ?_ (fun _ => ?_) <;> clear e)
    | (rename_i e; with_reducible refine Keeps.ofFst (pq := pq) e ?_ (fun _ => ?_) <;> clear e)
    | (extract_lets -underBinder +onlyGivenNames -merge x; with_reducible refine Keeps.cut (pq := pq) x ?_ (fun _ => ?_); rotate_left; clear_value x; rotate_left; subst x)
    | (extract_lets -underBinder +onlyGivenNames -merge x; subst x)
    | with_reducible apply State.dmaPoisonEnd_keeps
    | with_reducible apply State.dmaBlockDone_keeps
    | with_reducible apply State.dmaFail_keeps
    | with_reducible apply State.dmaHalt_keeps
    | with_reducible apply State.count_keeps
    | with_reducible apply State.spaceWrite_keeps
    | with_reducible apply State.devRead_keeps
    | split
    | simp only [Keeps.upd]

theorem State.dmaRetry_keeps {pq : List Instr} {s : State} {c : Nat} (hs : State.Keeps pq s) :
    State.Keeps pq (State.dmaRetry s c) := by
  unfold State.dmaRetry
  repeat' first
    | with_reducible assumption
    | (extract_lets -underBinder +onlyGivenNames -merge x; with_reducible refine Keeps.cut (pq := pq) x ?_ (fun _ => ?_); rotate_left; clear_value x; rotate_left; subst x)
    | (extract_lets -underBinder +onlyGivenNames -merge x; subst x)
    | with_reducible apply State.setDma_keeps
    | with_reducible apply State.advanceTo_keeps
    | split
    | simp only [Keeps.upd]

theorem execDmaStart_keeps {pq : List Instr} {m : Master} {c : Fin 64} {v : Word} {s : State} (hs : State.Keeps pq s) :
    KeepsO pq (execDmaStart m c v s) := by
  unfold execDmaStart
  repeat' first
    | with_reducible assumption
    | with_reducible apply KeepsO.mk
    | with_reducible apply State.dmaStart_keeps
    | split

theorem execDmaStop_keeps {pq : List Instr} {m : Master} {c : Fin 64} {v : Word} {s : State} (hs : State.Keeps pq s) :
    KeepsO pq (execDmaStop m c v s) := by
  unfold execDmaStop
  repeat' first
    | with_reducible assumption
    | with_reducible apply KeepsO.mk
    | with_reducible apply State.dmaStop_keeps
    | split

theorem execDmaClear_keeps {pq : List Instr} {m : Master} {c : Fin 64} {v : Word} {s : State} (hs : State.Keeps pq s) :
    KeepsO pq (execDmaClear m c v s) := by
  unfold execDmaClear
  repeat' first
    | with_reducible assumption
    | with_reducible apply KeepsO.mk
    | with_reducible apply State.dmaClear_keeps
    | split

theorem execDmaDescriptorFetch_keeps {pq : List Instr} {c : Fin 64} {r : DmaRead} {s : State} (hs : State.Keeps pq s) :
    KeepsO pq (execDmaDescriptorFetch c r s) := by
  unfold execDmaDescriptorFetch
  repeat' first
    | with_reducible assumption
    | with_reducible apply KeepsO.mk
    | with_reducible apply State.dmaFetch_keeps
    | split

theorem execDmaBlockEnd_keeps {pq : List Instr} {c : Fin 64} {r : DmaRead} {writeFailed : Bool} {s : State} (hs : State.Keeps pq s) :
    KeepsO pq (execDmaBlockEnd c r writeFailed s) := by
  unfold execDmaBlockEnd
  repeat' first
    | with_reducible assumption
    | with_reducible apply KeepsO.mk
    | with_reducible apply State.dmaBlock_keeps
    | split

theorem execDmaRetry_keeps {pq : List Instr} {c : Fin 64} {s : State} (hs : State.Keeps pq s) :
    KeepsO pq (execDmaRetry c s) := by
  unfold execDmaRetry
  repeat' first
    | with_reducible assumption
    | with_reducible apply KeepsO.mk
    | with_reducible apply State.dmaRetry_keeps
    | split

theorem State.auditSnapshot_keeps {pq : List Instr} {s : State} {tick : Int} (hs : State.Keeps pq s) :
    State.Keeps pq (State.auditSnapshot s tick) := by
  unfold State.auditSnapshot
  repeat' first
    | with_reducible assumption
    | (rename_i e; with_reducible refine Keeps.ofSnd (pq := pq) e ?_ (fun _ => ?_) <;> clear e)
    | (rename_i e; with_reducible refine Keeps.ofFst (pq := pq) e ?_ (fun _ => ?_) <;> clear e)
    | split
    | simp only [Keeps.upd]

theorem State.latched_keepsP {pq : List Instr} {s : State} {a0 : List LedgerErr} {a1 : List Ledger} (hs : State.Keeps pq s) :
    State.Keeps pq (State.latched s a0 a1).2 := by
  induction a0 generalizing s a1 with
  | nil =>
    unfold State.latched
    repeat' first
      | with_reducible assumption
      | (rename_i e; with_reducible refine Keeps.ofSnd (pq := pq) e ?_ (fun _ => ?_) <;> clear e)
      | (rename_i e; with_reducible refine Keeps.ofFst (pq := pq) e ?_ (fun _ => ?_) <;> clear e)
      | (extract_lets -underBinder +onlyGivenNames -merge x; with_reducible refine Keeps.cut (pq := pq) x ?_ (fun _ => ?_); rotate_left; clear_value x; rotate_left; subst x)
      | (extract_lets -underBinder +onlyGivenNames -merge x; subst x)
      | with_reducible apply State.drawFree_keepsP
      | (with_reducible refine State.drawFree_keepsE (by with_reducible assumption) ?_)
      | intro _
      | split

  | cons e l ih =>
    unfold State.latched
    repeat' first
      | with_reducible assumption
      | (rename_i e; with_reducible refine Keeps.ofSnd (pq := pq) e ?_ (fun _ => ?_) <;> clear e)
      | (rename_i e; with_reducible refine Keeps.ofFst (pq := pq) e ?_ (fun _ => ?_) <;> clear e)
      | (extract_lets -underBinder +onlyGivenNames -merge x; with_reducible refine Keeps.cut (pq := pq) x ?_ (fun _ => ?_); rotate_left; clear_value x; rotate_left; subst x)
      | (extract_lets -underBinder +onlyGivenNames -merge x; subst x)
      | with_reducible apply ih
      | (rename_i h; injection h with h1 h2; subst h1 h2)
      | with_reducible apply State.drawFree_keepsP
      | (with_reducible refine State.drawFree_keepsE (by with_reducible assumption) ?_)
      | intro _
      | split
theorem State.latched_keepsE {pq : List Instr} {s : State} {a0 : List LedgerErr} {a1 : List Ledger} {tv2 v1} (e : State.latched s a0 a1 = (v1, tv2)) (hs : State.Keeps pq s) :
    State.Keeps pq tv2 := by
  have h := State.latched_keepsP (s := s) (a0 := a0) (a1 := a1) hs 
  rw [e] at h; exact h

theorem State.ledgerLost_keeps {pq : List Instr} {s : State} {law index : Nat} (hs : State.Keeps pq s) :
    State.Keeps pq (State.ledgerLost s law index) := by
  unfold State.ledgerLost
  repeat' first
    | with_reducible assumption
    | with_reducible apply State.fault_keeps
    | with_reducible apply State.raise_keeps
    | split
    | simp only [Keeps.upd]

theorem State.auditEnd_keeps {pq : List Instr} {s : State} {errs : List LedgerErr} (hs : State.Keeps pq s) :
    State.Keeps pq (State.auditEnd s errs) := by
  unfold State.auditEnd
  repeat' first
    | with_reducible assumption
    | (rename_i e; with_reducible refine Keeps.ofSnd (pq := pq) e ?_ (fun _ => ?_) <;> clear e)
    | (rename_i e; with_reducible refine Keeps.ofFst (pq := pq) e ?_ (fun _ => ?_) <;> clear e)
    | (extract_lets -underBinder +onlyGivenNames -merge x; with_reducible refine Keeps.cut (pq := pq) x ?_ (fun _ => ?_); rotate_left; clear_value x; rotate_left; subst x)
    | (extract_lets -underBinder +onlyGivenNames -merge x; subst x)
    | with_reducible apply State.ledgerLost_keeps
    | with_reducible apply State.fault_keeps
    | with_reducible apply State.raise_keeps
    | with_reducible apply State.pass_keeps
    | with_reducible apply State.latched_keepsP
    | (with_reducible refine State.latched_keepsE (by with_reducible assumption) ?_)
    | (with_reducible refine forEach_keeps ?_ (fun _ _ _ => ?_))
    | intro _
    | split
    | simp only [Keeps.upd]

theorem State.auditRelease_keeps {pq : List Instr} {s : State} {v : Word} (hs : State.Keeps pq s) :
    State.Keeps pq (State.auditRelease s v) := by
  unfold State.auditRelease
  repeat' first
    | with_reducible assumption
    | (extract_lets -underBinder +onlyGivenNames -merge x; with_reducible refine Keeps.cut (pq := pq) x ?_ (fun _ => ?_); rotate_left; clear_value x; rotate_left; subst x)
    | (extract_lets -underBinder +onlyGivenNames -merge x; subst x)
    | with_reducible apply State.setReg_keeps
    | split
    | simp only [Keeps.upd]

theorem State.auditRestart_keeps {pq : List Instr} {s : State} (hs : State.Keeps pq s) :
    State.Keeps pq (State.auditRestart s) := by
  unfold State.auditRestart
  repeat' first
    | with_reducible assumption
    | simp only [Keeps.upd]

theorem execAuditEnd_keeps {pq : List Instr} {errs : List LedgerErr} {s : State} (hs : State.Keeps pq s) :
    KeepsO pq (execAuditEnd errs s) := by
  unfold execAuditEnd
  repeat' first
    | with_reducible assumption
    | with_reducible apply KeepsO.mk
    | with_reducible apply State.auditEnd_keeps

theorem execAuditRelease_keeps {pq : List Instr} {m : Master} {v : Word} {s : State} (hs : State.Keeps pq s) :
    KeepsO pq (execAuditRelease m v s) := by
  unfold execAuditRelease
  repeat' first
    | with_reducible assumption
    | with_reducible apply KeepsO.mk
    | with_reducible apply State.auditRelease_keeps
    | split

theorem execBpmAudViolRead_keeps {pq : List Instr} {s : State} (hs : State.Keeps pq s) :
    KeepsO pq (execBpmAudViolRead s) := by
  unfold execBpmAudViolRead
  repeat' first
    | with_reducible assumption
    | with_reducible apply KeepsO.mk
    | with_reducible apply State.setRd_keeps
    | split
    | simp only [Keeps.upd]

theorem State.setWc_keeps {pq : List Instr} {s : State} {c : Fin 13} {k : WickCore} (hs : State.Keeps pq s) :
    State.Keeps pq (State.setWc s c k) := by
  unfold State.setWc
  repeat' first
    | with_reducible assumption
    | simp only [Keeps.upd]

theorem State.wPut_keeps {pq : List Instr} {s : State} {c : Fin 13} {a : Nat} {bs : List Byte} (hs : State.Keeps pq s) :
    State.Keeps pq (State.wPut s c a bs) := by
  unfold State.wPut
  split
  · exact ⟨hs.1, Mem.wf_setBytes hs.2.1, hs.2.2⟩
  · split
    · exact hs
    · split
      · exact hs
      · split
        · exact State.setWc_keeps hs
        · exact hs

theorem State.setDir_keeps {pq : List Instr} {s : State} {line : Nat} {d : DirSt} (hs : State.Keeps pq s) :
    State.Keeps pq (State.setDir s line d) := by
  unfold State.setDir
  repeat' first
    | with_reducible assumption
    | simp only [Keeps.upd]

theorem State.forRequesters_keeps {pq : List Instr} {s : State} {f : Fin 5 → WickCore → WickCore} (hs : State.Keeps pq s) :
    State.Keeps pq (State.forRequesters s f) := by
  unfold State.forRequesters
  repeat' first
    | with_reducible assumption
    | with_reducible apply State.setWc_keeps
    | (with_reducible refine forEach_keeps ?_ (fun _ _ _ => ?_))
    | intro _

theorem State.dirWb_keeps {pq : List Instr} {s : State} {r : Fin 5} {line : Nat} (hs : State.Keeps pq s) :
    State.Keeps pq (State.dirWb s r line) := by
  unfold State.dirWb
  repeat' first
    | with_reducible assumption
    | (extract_lets -underBinder +onlyGivenNames -merge x; with_reducible refine Keeps.cut (pq := pq) x ?_ (fun _ => ?_); rotate_left; clear_value x; rotate_left; subst x)
    | (extract_lets -underBinder +onlyGivenNames -merge x; subst x)
    | with_reducible apply State.setDir_keeps
    | with_reducible apply State.wPut_keeps
    | with_reducible apply State.setWc_keeps
    | split
    | simp only [Keeps.upd]

theorem State.dirGrant_keeps {pq : List Instr} {s : State} {r : Fin 5} {line : Nat} {own : Bool} (hs : State.Keeps pq s) :
    State.Keeps pq (State.dirGrant s r line own) := by
  unfold State.dirGrant
  repeat' first
    | with_reducible assumption
    | (rename_i e; with_reducible refine Keeps.ofSnd (pq := pq) e ?_ (fun _ => ?_) <;> clear e)
    | (rename_i e; with_reducible refine Keeps.ofFst (pq := pq) e ?_ (fun _ => ?_) <;> clear e)
    | (extract_lets -underBinder +onlyGivenNames -merge x; with_reducible refine Keeps.cut (pq := pq) x ?_ (fun _ => ?_); rotate_left; clear_value x; rotate_left; subst x)
    | (extract_lets -underBinder +onlyGivenNames -merge x; subst x)
    | with_reducible apply State.forRequesters_keeps
    | with_reducible apply State.setDir_keeps
    | with_reducible apply State.wPut_keeps
    | with_reducible apply State.setWc_keeps
    | with_reducible apply State.hold_keeps
    | intro _
    | split
    | simp only [Keeps.upd]

theorem State.wWriteBack_keeps {pq : List Instr} {s : State} {c : Fin 13} {line : Nat} (hs : State.Keeps pq s) :
    State.Keeps pq (State.wWriteBack s c line) := by
  unfold State.wWriteBack
  repeat' first
    | with_reducible assumption
    | (extract_lets -underBinder +onlyGivenNames -merge x; with_reducible refine Keeps.cut (pq := pq) x ?_ (fun _ => ?_); rotate_left; clear_value x; rotate_left; subst x)
    | (extract_lets -underBinder +onlyGivenNames -merge x; subst x)
    | with_reducible apply State.setDir_keeps
    | with_reducible apply State.wPut_keeps
    | with_reducible apply State.setWc_keeps
    | with_reducible apply State.hold_keeps
    | split
    | simp only [Keeps.upd]

theorem State.wRoom_keeps {pq : List Instr} {s : State} {c : Fin 13} (hs : State.Keeps pq s) :
    State.Keeps pq (State.wRoom s c) := by
  unfold State.wRoom
  repeat' first
    | with_reducible assumption
    | (extract_lets -underBinder +onlyGivenNames -merge x; with_reducible refine Keeps.cut (pq := pq) x ?_ (fun _ => ?_); rotate_left; clear_value x; rotate_left; subst x)
    | (extract_lets -underBinder +onlyGivenNames -merge x; subst x)
    | with_reducible apply State.wWriteBack_keeps
    | with_reducible apply State.dirWb_keeps
    | with_reducible apply State.setWc_keeps
    | with_reducible apply State.drawFree_keepsP
    | (with_reducible refine State.drawFree_keepsE (by with_reducible assumption) ?_)
    | intro _
    | split
    | simp only [Keeps.upd]

theorem State.wHave_keeps {pq : List Instr} {s : State} {c : Fin 13} {store : Bool} {line : Nat} (hs : State.Keeps pq s) :
    State.Keeps pq (State.wHave s c store line) := by
  unfold State.wHave
  repeat' first
    | with_reducible assumption
    | (extract_lets -underBinder +onlyGivenNames -merge x; with_reducible refine Keeps.cut (pq := pq) x ?_ (fun _ => ?_); rotate_left; clear_value x; rotate_left; subst x)
    | (extract_lets -underBinder +onlyGivenNames -merge x; subst x)
    | with_reducible apply State.wRoom_keeps
    | with_reducible apply State.dirGrant_keeps
    | with_reducible apply State.setWc_keeps
    | with_reducible apply State.hold_keeps
    | with_reducible apply State.store_keeps
    | with_reducible apply State.devRead_keeps
    | intro _
    | split
    | simp only [Keeps.upd]

theorem State.dirTake_keeps {pq : List Instr} {s : State} {line : Nat} {l : List (Fin 5 × DirReq)} (hs : State.Keeps pq s) :
    State.Keeps pq (State.dirTake s line l) := by
  unfold State.dirTake
  repeat' first
    | with_reducible assumption
    | (extract_lets -underBinder +onlyGivenNames -merge x; with_reducible refine Keeps.cut (pq := pq) x ?_ (fun _ => ?_); rotate_left; clear_value x; rotate_left; subst x)
    | (extract_lets -underBinder +onlyGivenNames -merge x; subst x)
    | with_reducible apply State.dirGrant_keeps
    | with_reducible apply State.dirWb_keeps
    | (with_reducible refine forEach_keeps ?_ (fun _ _ _ => ?_))
    | intro _
    | split
    | simp only [Keeps.upd]

theorem State.wickReset_keeps {pq : List Instr} {s : State} {c : Fin 13} (hs : State.Keeps pq s) :
    State.Keeps pq (State.wickReset s c) := by
  unfold State.wickReset
  repeat' first
    | with_reducible assumption
    | (extract_lets -underBinder +onlyGivenNames -merge x; with_reducible refine Keeps.cut (pq := pq) x ?_ (fun _ => ?_); rotate_left; clear_value x; rotate_left; subst x)
    | (extract_lets -underBinder +onlyGivenNames -merge x; subst x)
    | with_reducible apply State.setWc_keeps
    | intro _
    | split
    | simp only [Keeps.upd]

theorem State.wickLock_keeps {pq : List Instr} {s : State} {c : Fin 13} (hs : State.Keeps pq s) :
    State.Keeps pq (State.wickLock s c) := by
  unfold State.wickLock
  repeat' first
    | with_reducible assumption
    | (extract_lets -underBinder +onlyGivenNames -merge x; with_reducible refine Keeps.cut (pq := pq) x ?_ (fun _ => ?_); rotate_left; clear_value x; rotate_left; subst x)
    | (extract_lets -underBinder +onlyGivenNames -merge x; subst x)
    | with_reducible apply State.setWc_keeps
    | with_reducible apply State.fault_keeps
    | split
    | simp only [Keeps.upd]

theorem State.wFlushSeg_keeps {pq : List Instr} {s : State} {c : Fin 13} {g : WSeg} (hs : State.Keeps pq s) :
    State.Keeps pq (State.wFlushSeg s c g) := by
  unfold State.wFlushSeg
  repeat' first
    | with_reducible assumption
    | (extract_lets -underBinder +onlyGivenNames -merge x; with_reducible refine Keeps.cut (pq := pq) x ?_ (fun _ => ?_); rotate_left; clear_value x; rotate_left; subst x)
    | (extract_lets -underBinder +onlyGivenNames -merge x; subst x)
    | with_reducible apply State.wWriteBack_keeps
    | with_reducible apply State.dirWb_keeps
    | with_reducible apply State.setWc_keeps
    | (with_reducible refine forEach_keeps ?_ (fun _ _ _ => ?_))
    | intro _
    | split
    | simp only [Keeps.upd]

theorem State.callLeave_keeps {pq : List Instr} {s : State} {c : Fin 13} (hs : State.Keeps pq s) :
    State.Keeps pq (State.callLeave s c) := by
  unfold State.callLeave
  repeat' first
    | with_reducible assumption
    | (extract_lets -underBinder +onlyGivenNames -merge x; with_reducible refine Keeps.cut (pq := pq) x ?_ (fun _ => ?_); rotate_left; clear_value x; rotate_left; subst x)
    | (extract_lets -underBinder +onlyGivenNames -merge x; subst x)
    | with_reducible apply State.wFlushSeg_keeps
    | with_reducible apply State.setWc_keeps
    | split
    | simp only [Keeps.upd]

theorem State.callReturn_keeps {pq : List Instr} {s : State} {c : Fin 13} (hs : State.Keeps pq s) :
    State.Keeps pq (State.callReturn s c) := by
  unfold State.callReturn
  repeat' first
    | with_reducible assumption
    | (extract_lets -underBinder +onlyGivenNames -merge x; with_reducible refine Keeps.cut (pq := pq) x ?_ (fun _ => ?_); rotate_left; clear_value x; rotate_left; subst x)
    | (extract_lets -underBinder +onlyGivenNames -merge x; subst x)
    | with_reducible apply State.callLeave_keeps
    | with_reducible apply State.failCcw_keeps
    | with_reducible apply State.endCcw_keeps
    | split
    | simp only [Keeps.upd]

theorem State.callFault_keeps {pq : List Instr} {s : State} {c : Fin 13} {vector : Nat} (hs : State.Keeps pq s) :
    State.Keeps pq (State.callFault s c vector) := by
  unfold State.callFault
  repeat' first
    | with_reducible assumption
    | with_reducible apply State.callLeave_keeps
    | with_reducible apply State.failCcw_keeps
    | split
    | simp only [Keeps.upd]

theorem State.callStop_keeps {pq : List Instr} {s : State} {ch : Nat} (hs : State.Keeps pq s) :
    State.Keeps pq (State.callStop s ch) := by
  unfold State.callStop
  repeat' first
    | with_reducible assumption
    | with_reducible apply State.callLeave_keeps
    | intro _
    | split
    | simp only [Keeps.upd]

theorem State.clusterStruck_keeps {pq : List Instr} {s : State} {off : Nat} (hs : State.Keeps pq s) :
    State.Keeps pq (State.clusterStruck s off) := by
  unfold State.clusterStruck
  repeat' first
    | with_reducible assumption
    | (extract_lets -underBinder +onlyGivenNames -merge x; subst x)
    | with_reducible apply State.endCcw_keeps
    | with_reducible apply State.callStop_keeps
    | split
    | simp only [Keeps.upd]

theorem State.callEnter_keeps {pq : List Instr} {s : State} {c : Fin 13} {ch : Nat} {t : Routine} {window count arg : Nat} {readOnly : Bool} (hs : State.Keeps pq s) :
    State.Keeps pq (State.callEnter s c ch t window count arg readOnly) := by
  unfold State.callEnter
  repeat' first
    | with_reducible assumption
    | (rename_i e; with_reducible refine Keeps.ofSnd (pq := pq) e ?_ (fun _ => ?_) <;> clear e)
    | (rename_i e; with_reducible refine Keeps.ofFst (pq := pq) e ?_ (fun _ => ?_) <;> clear e)
    | (extract_lets -underBinder +onlyGivenNames -merge x; with_reducible refine Keeps.cut (pq := pq) x ?_ (fun _ => ?_); rotate_left; clear_value x; rotate_left; subst x)
    | (extract_lets -underBinder +onlyGivenNames -merge x; subst x)
    | with_reducible apply State.wHave_keeps
    | with_reducible apply State.setWc_keeps
    | with_reducible apply State.count_keeps
    | with_reducible apply State.setReg_keeps
    | simp only [Keeps.upd]

theorem State.ccwCall_keeps {pq : List Instr} {s : State} {c : Nat} {w : List Byte} (hs : State.Keeps pq s) :
    State.Keeps pq (State.ccwCall s c w) := by
  unfold State.ccwCall
  repeat' first
    | with_reducible assumption
    | (extract_lets -underBinder +onlyGivenNames -merge x; with_reducible refine Keeps.cut (pq := pq) x ?_ (fun _ => ?_); rotate_left; clear_value x; rotate_left; subst x)
    | (extract_lets -underBinder +onlyGivenNames -merge x; subst x)
    | with_reducible apply State.callEnter_keeps
    | with_reducible apply State.runCcw_keeps
    | with_reducible apply State.failCcw_keeps
    | with_reducible apply State.setChan_keeps
    | intro _
    | split
    | simp only [Keeps.upd]

theorem State.routineTimeout_keeps {pq : List Instr} {s : State} {c : Nat} (hs : State.Keeps pq s) :
    State.Keeps pq (State.routineTimeout s c) := by
  unfold State.routineTimeout
  repeat' first
    | with_reducible assumption
    | with_reducible apply State.callStop_keeps
    | with_reducible apply State.failCcw_keeps
    | with_reducible apply State.advanceToRun_keeps
    | split
    | simp only [Keeps.upd]

theorem execCcwCall_keeps {pq : List Instr} {c : Fin 64} {w : List Byte} {s : State} (hs : State.Keeps pq s) :
    KeepsO pq (execCcwCall c w s) := by
  unfold execCcwCall
  repeat' first
    | with_reducible assumption
    | with_reducible apply KeepsO.mk
    | with_reducible apply State.ccwCall_keeps

theorem execRoutineTimeout_keeps {pq : List Instr} {c : Fin 64} {s : State} (hs : State.Keeps pq s) :
    KeepsO pq (execRoutineTimeout c s) := by
  unfold execRoutineTimeout
  repeat' first
    | with_reducible assumption
    | with_reducible apply KeepsO.mk
    | with_reducible apply State.routineTimeout_keeps
    | split

theorem execDirRead_keeps {pq : List Instr} {r : Fin 5} {line : Fin 32768} {same : List (Fin 5 × DirReq)} {s : State} (hs : State.Keeps pq s) :
    KeepsO pq (execDirRead r line same s) := by
  unfold execDirRead
  repeat' first
    | with_reducible assumption
    | with_reducible apply KeepsO.mk
    | with_reducible apply State.dirTake_keeps
    | intro _

theorem execDirOwn_keeps {pq : List Instr} {r : Fin 5} {line : Fin 32768} {same : List (Fin 5 × DirReq)} {s : State} (hs : State.Keeps pq s) :
    KeepsO pq (execDirOwn r line same s) := by
  unfold execDirOwn
  repeat' first
    | with_reducible assumption
    | with_reducible apply KeepsO.mk
    | with_reducible apply State.dirTake_keeps
    | intro _

theorem execDirWb_keeps {pq : List Instr} {r : Fin 5} {line : Fin 32768} {same : List (Fin 5 × DirReq)} {s : State} (hs : State.Keeps pq s) :
    KeepsO pq (execDirWb r line same s) := by
  unfold execDirWb
  repeat' first
    | with_reducible assumption
    | with_reducible apply KeepsO.mk
    | with_reducible apply State.dirTake_keeps
    | intro _

end Sys2Proof.Machine
end

