-- ==== Sys2Proof/Laws/KeepsModes.lean ====
section
/-! SUPPORT. What each operation keeps (see `State.Keeps`): resources, storage, objects, modes, fault handling, the host link and power. -/

set_option maxRecDepth 4000

namespace Sys2Proof.Machine

theorem State.setWin_keeps {pq : List Instr} {s : State} {src : Nat} {w : SrcWin} (hs : State.Keeps pq s) :
    State.Keeps pq (State.setWin s src w) := by
  unfold State.setWin
  repeat' first
    | with_reducible assumption
    | simp only [Keeps.upd]

theorem State.keepRecord_keeps {pq : List Instr} {s : State} {r0 : FaultRec} (hs : State.Keeps pq s) :
    State.Keeps pq (State.keepRecord s r0) := by
  unfold State.keepRecord
  repeat' first
    | with_reducible assumption
    | (extract_lets -underBinder +onlyGivenNames -merge x; with_reducible refine Keeps.cut (pq := pq) x ?_ (fun _ => ?_); rotate_left; clear_value x; rotate_left; subst x)
    | (extract_lets -underBinder +onlyGivenNames -merge x; subst x)
    | with_reducible apply State.raise_keeps
    | with_reducible apply State.logRecord_keeps
    | split
    | simp only [Keeps.upd]

theorem State.nvsRecord_keeps {pq : List Instr} {s : State} {area : Fin 3} {type : Nat} {payload : List Byte} (hs : State.Keeps pq s) :
    State.Keeps pq (State.nvsRecord s area type payload) := by
  unfold State.nvsRecord
  repeat' first
    | with_reducible assumption
    | (rename_i e; with_reducible refine Keeps.ofSnd (pq := pq) e ?_ (fun _ => ?_) <;> clear e)
    | (rename_i e; with_reducible refine Keeps.ofFst (pq := pq) e ?_ (fun _ => ?_) <;> clear e)
    | (extract_lets -underBinder +onlyGivenNames -merge x; with_reducible refine Keeps.cut (pq := pq) x ?_ (fun _ => ?_); rotate_left; clear_value x; rotate_left; subst x)
    | (extract_lets -underBinder +onlyGivenNames -merge x; subst x)
    | intro _
    | split
    | simp only [Keeps.upd]

theorem State.outcome_keeps {pq : List Instr} {s : State} {r : Resource} {kind flags : Nat} (hs : State.Keeps pq s) :
    State.Keeps pq (State.outcome s r kind flags) := by
  unfold State.outcome
  repeat' first
    | with_reducible assumption
    | (rename_i e; with_reducible refine Keeps.ofSnd (pq := pq) e ?_ (fun _ => ?_) <;> clear e)
    | (rename_i e; with_reducible refine Keeps.ofFst (pq := pq) e ?_ (fun _ => ?_) <;> clear e)
    | (extract_lets -underBinder +onlyGivenNames -merge x; with_reducible refine Keeps.cut (pq := pq) x ?_ (fun _ => ?_); rotate_left; clear_value x; rotate_left; subst x)
    | (extract_lets -underBinder +onlyGivenNames -merge x; subst x)
    | with_reducible apply State.keepRecord_keeps
    | with_reducible apply State.count_keeps
    | simp only [Keeps.upd]

theorem State.retirementRecord_keeps {pq : List Instr} {s : State} {action : Nat} {r : Resource} (hs : State.Keeps pq s) :
    State.Keeps pq (State.retirementRecord s action r) := by
  unfold State.retirementRecord
  repeat' first
    | with_reducible assumption
    | (extract_lets -underBinder +onlyGivenNames -merge x; with_reducible refine Keeps.cut (pq := pq) x ?_ (fun _ => ?_); rotate_left; clear_value x; rotate_left; subst x)
    | (extract_lets -underBinder +onlyGivenNames -merge x; subst x)
    | with_reducible apply State.nvsRecord_keeps
    | split
    | simp only [Keeps.upd]

theorem State.setDegrading_keeps {pq : List Instr} {s : State} {l : List Resource} (hs : State.Keeps pq s) :
    State.Keeps pq (State.setDegrading s l) := by
  unfold State.setDegrading
  repeat' first
    | with_reducible assumption
    | (extract_lets -underBinder +onlyGivenNames -merge x; with_reducible refine Keeps.cut (pq := pq) x ?_ (fun _ => ?_); rotate_left; clear_value x; rotate_left; subst x)
    | (extract_lets -underBinder +onlyGivenNames -merge x; subst x)
    | with_reducible apply State.raise_keeps
    | split
    | simp only [Keeps.upd]

theorem State.addDegrading_keeps {pq : List Instr} {s : State} {r : Resource} (hs : State.Keeps pq s) :
    State.Keeps pq (State.addDegrading s r) := by
  unfold State.addDegrading
  repeat' first
    | with_reducible assumption
    | with_reducible apply State.setDegrading_keeps
    | split

theorem State.retireCore_keeps {pq : List Instr} {s : State} {c : Fin 8} (hs : State.Keeps pq s) :
    State.Keeps pq (State.retireCore s c) := by
  unfold State.retireCore
  repeat' first
    | with_reducible assumption
    | (rename_i e; with_reducible refine Keeps.ofSnd (pq := pq) e ?_ (fun _ => ?_) <;> clear e)
    | (rename_i e; with_reducible refine Keeps.ofFst (pq := pq) e ?_ (fun _ => ?_) <;> clear e)
    | (extract_lets -underBinder +onlyGivenNames -merge x; with_reducible refine Keeps.cut (pq := pq) x ?_ (fun _ => ?_); rotate_left; clear_value x; rotate_left; subst x)
    | (extract_lets -underBinder +onlyGivenNames -merge x; subst x)
    | with_reducible apply State.addDegrading_keeps
    | with_reducible apply State.retirementRecord_keeps
    | with_reducible apply State.outcome_keeps
    | with_reducible apply State.coreLeaves_keeps
    | with_reducible apply State.raise_keeps
    | simp only [Keeps.upd]

theorem State.retireLane_keeps {pq : List Instr} {s : State} {n : Fin 16} (hs : State.Keeps pq s) :
    State.Keeps pq (State.retireLane s n) := by
  unfold State.retireLane
  repeat' first
    | with_reducible assumption
    | (rename_i e; with_reducible refine Keeps.ofSnd (pq := pq) e ?_ (fun _ => ?_) <;> clear e)
    | (rename_i e; with_reducible refine Keeps.ofFst (pq := pq) e ?_ (fun _ => ?_) <;> clear e)
    | (extract_lets -underBinder +onlyGivenNames -merge x; with_reducible refine Keeps.cut (pq := pq) x ?_ (fun _ => ?_); rotate_left; clear_value x; rotate_left; subst x)
    | (extract_lets -underBinder +onlyGivenNames -merge x; subst x)
    | with_reducible apply State.addDegrading_keeps
    | with_reducible apply State.retirementRecord_keeps
    | with_reducible apply State.outcome_keeps
    | with_reducible apply State.laneRetired_keeps
    | with_reducible apply State.raise_keeps
    | simp only [Keeps.upd]

theorem State.holdRow_keeps {pq : List Instr} {s : State} {row : Nat} (hs : State.Keeps pq s) :
    State.Keeps pq (State.holdRow s row) := by
  unfold State.holdRow
  repeat' first
    | with_reducible assumption
    | (rename_i e; with_reducible refine Keeps.ofSnd (pq := pq) e ?_ (fun _ => ?_) <;> clear e)
    | (rename_i e; with_reducible refine Keeps.ofFst (pq := pq) e ?_ (fun _ => ?_) <;> clear e)
    | (extract_lets -underBinder +onlyGivenNames -merge x; with_reducible refine Keeps.cut (pq := pq) x ?_ (fun _ => ?_); rotate_left; clear_value x; rotate_left; subst x)
    | (extract_lets -underBinder +onlyGivenNames -merge x; subst x)
    | (with_reducible refine forEach_keeps ?_ (fun _ _ _ => ?_))
    | intro _
    | split
    | simp only [Keeps.upd]

theorem State.freeRow_keeps {pq : List Instr} {s : State} {row : Nat} (hs : State.Keeps pq s) :
    State.Keeps pq (State.freeRow s row) := by
  unfold State.freeRow
  repeat' first
    | with_reducible assumption
    | (extract_lets -underBinder +onlyGivenNames -merge x; with_reducible refine Keeps.cut (pq := pq) x ?_ (fun _ => ?_); rotate_left; clear_value x; rotate_left; subst x)
    | (extract_lets -underBinder +onlyGivenNames -merge x; subst x)
    | with_reducible apply State.dropBuf_keeps
    | with_reducible apply State.count_keeps
    | (with_reducible refine forEach_keeps ?_ (fun _ _ _ => ?_))
    | intro _
    | split
    | simp only [Keeps.upd]

theorem State.fenceRow_keeps {pq : List Instr} {s : State} {b : Fin 16} {row : Nat} {isolate : Bool} (hs : State.Keeps pq s) :
    State.Keeps pq (State.fenceRow s b row isolate) := by
  unfold State.fenceRow
  repeat' first
    | with_reducible assumption
    | (extract_lets -underBinder +onlyGivenNames -merge x; with_reducible refine Keeps.cut (pq := pq) x ?_ (fun _ => ?_); rotate_left; clear_value x; rotate_left; subst x)
    | (extract_lets -underBinder +onlyGivenNames -merge x; subst x)
    | with_reducible apply State.holdRow_keeps
    | with_reducible apply State.addDegrading_keeps
    | with_reducible apply State.retirementRecord_keeps
    | with_reducible apply State.outcome_keeps
    | with_reducible apply State.cellsCheck_keeps
    | with_reducible apply State.raise_keeps
    | split
    | simp only [Keeps.upd]

theorem State.spareChannel_keeps {pq : List Instr} {s : State} {st : Fin 2} {pc : Fin 32} (hs : State.Keeps pq s) :
    State.Keeps pq (State.spareChannel s st pc) := by
  unfold State.spareChannel
  repeat' first
    | with_reducible assumption
    | (extract_lets -underBinder +onlyGivenNames -merge x; with_reducible refine Keeps.cut (pq := pq) x ?_ (fun _ => ?_); rotate_left; clear_value x; rotate_left; subst x)
    | (extract_lets -underBinder +onlyGivenNames -merge x; subst x)
    | with_reducible apply State.addDegrading_keeps
    | with_reducible apply State.retirementRecord_keeps
    | with_reducible apply State.outcome_keeps
    | with_reducible apply State.fault_keeps
    | with_reducible apply State.raise_keeps
    | split
    | simp only [Keeps.upd]

theorem State.repairRow_keeps {pq : List Instr} {s : State} {a : Nat} (hs : State.Keeps pq s) :
    State.Keeps pq (State.repairRow s a) := by
  unfold State.repairRow
  repeat' first
    | with_reducible assumption
    | (rename_i e; with_reducible refine Keeps.ofSnd (pq := pq) e ?_ (fun _ => ?_) <;> clear e)
    | (rename_i e; with_reducible refine Keeps.ofFst (pq := pq) e ?_ (fun _ => ?_) <;> clear e)
    | (extract_lets -underBinder +onlyGivenNames -merge x; with_reducible refine Keeps.cut (pq := pq) x ?_ (fun _ => ?_); rotate_left; clear_value x; rotate_left; subst x)
    | (extract_lets -underBinder +onlyGivenNames -merge x; subst x)
    | with_reducible apply State.spareChannel_keeps
    | with_reducible apply State.retirementRecord_keeps
    | with_reducible apply State.outcome_keeps
    | with_reducible apply State.fault_keeps
    | with_reducible apply State.raise_keeps
    | intro _
    | split
    | simp only [Keeps.upd]

theorem State.copyRow_keeps {pq : List Instr} {s : State} {b row : Nat} (hs : State.Keeps pq s) :
    State.Keeps pq (State.copyRow s b row) := by
  unfold State.copyRow
  repeat' first
    | with_reducible assumption
    | intro _
    | split
    | simp only [Keeps.upd]

theorem State.spareRow_keeps {pq : List Instr} {s : State} {b : Fin 16} {row : Nat} (hs : State.Keeps pq s) :
    State.Keeps pq (State.spareRow s b row) := by
  unfold State.spareRow
  repeat' first
    | with_reducible assumption
    | (rename_i e; with_reducible refine Keeps.ofSnd (pq := pq) e ?_ (fun _ => ?_) <;> clear e)
    | (rename_i e; with_reducible refine Keeps.ofFst (pq := pq) e ?_ (fun _ => ?_) <;> clear e)
    | (extract_lets -underBinder +onlyGivenNames -merge x; with_reducible refine Keeps.cut (pq := pq) x ?_ (fun _ => ?_); rotate_left; clear_value x; rotate_left; subst x)
    | (extract_lets -underBinder +onlyGivenNames -merge x; subst x)
    | with_reducible apply State.copyRow_keeps
    | with_reducible apply State.fenceRow_keeps
    | with_reducible apply State.retireCore_keeps
    | with_reducible apply State.retirementRecord_keeps
    | with_reducible apply State.outcome_keeps
    | with_reducible apply State.fault_keeps
    | with_reducible apply State.raise_keeps
    | intro _
    | split
    | simp only [Keeps.upd]

theorem State.lasting_keeps {pq : List Instr} {s : State} {a0 : Resource} (hs : State.Keeps pq s) :
    State.Keeps pq (State.lasting s a0) := by
  unfold State.lasting
  repeat' first
    | with_reducible assumption
    | with_reducible apply State.spareRow_keeps
    | with_reducible apply State.repairRow_keeps
    | with_reducible apply State.spareChannel_keeps
    | with_reducible apply State.retireLane_keeps
    | with_reducible apply State.retireCore_keeps
    | split

theorem State.testTakes_keeps {pq : List Instr} {s : State} {a0 : Resource} (hs : State.Keeps pq s) :
    State.Keeps pq (State.testTakes s a0) := by
  unfold State.testTakes
  repeat' first
    | with_reducible assumption
    | with_reducible apply State.coreLeaves_keeps
    | with_reducible apply State.leaveUp_keeps
    | split
    | simp only [Keeps.upd]

theorem State.startTest_keeps {pq : List Instr} {s : State} {r : Resource} {msg : Option FaultMsg} (hs : State.Keeps pq s) :
    State.Keeps pq (State.startTest s r msg) := by
  unfold State.startTest
  repeat' first
    | with_reducible assumption
    | (rename_i e; with_reducible refine Keeps.ofSnd (pq := pq) e ?_ (fun _ => ?_) <;> clear e)
    | (rename_i e; with_reducible refine Keeps.ofFst (pq := pq) e ?_ (fun _ => ?_) <;> clear e)
    | (extract_lets -underBinder +onlyGivenNames -merge x; with_reducible refine Keeps.cut (pq := pq) x ?_ (fun _ => ?_); rotate_left; clear_value x; rotate_left; subst x)
    | (extract_lets -underBinder +onlyGivenNames -merge x; subst x)
    | with_reducible apply State.testTakes_keeps
    | split
    | simp only [Keeps.upd]

theorem State.abandonTests_keeps {pq : List Instr} {s : State} (hs : State.Keeps pq s) :
    State.Keeps pq (State.abandonTests s) := by
  unfold State.abandonTests
  repeat' first
    | with_reducible assumption
    | intro _
    | simp only [Keeps.upd]

theorem State.resumeTests_keeps {pq : List Instr} {s : State} (hs : State.Keeps pq s) :
    State.Keeps pq (State.resumeTests s) := by
  unfold State.resumeTests
  repeat' first
    | with_reducible assumption
    | intro _
    | split
    | simp only [Keeps.upd]

theorem State.startRetest_keeps {pq : List Instr} {s : State} {r : Resource} (hs : State.Keeps pq s) :
    State.Keeps pq (State.startRetest s r) := by
  unfold State.startRetest
  repeat' first
    | with_reducible assumption
    | with_reducible apply State.startTest_keeps
    | intro _
    | split

theorem State.retestAll_keeps {pq : List Instr} {s : State} (hs : State.Keeps pq s) :
    State.Keeps pq (State.retestAll s) := by
  unfold State.retestAll
  repeat' first
    | with_reducible assumption
    | with_reducible apply State.startRetest_keeps
    | (with_reducible refine forEach_keeps ?_ (fun _ _ _ => ?_))
    | intro _

theorem State.setPasses_keeps {pq : List Instr} {s : State} {r : Resource} {n : Nat} (hs : State.Keeps pq s) :
    State.Keeps pq (State.setPasses s r n) := by
  unfold State.setPasses
  repeat' first
    | with_reducible assumption
    | (extract_lets -underBinder +onlyGivenNames -merge x; with_reducible refine Keeps.cut (pq := pq) x ?_ (fun _ => ?_); rotate_left; clear_value x; rotate_left; subst x)
    | (extract_lets -underBinder +onlyGivenNames -merge x; subst x)
    | intro _
    | split
    | simp only [Keeps.upd]

theorem State.setLamp_keeps {pq : List Instr} {s : State} {k : Nat} {on : Bool} (hs : State.Keeps pq s) :
    State.Keeps pq (State.setLamp s k on) := by
  unfold State.setLamp
  repeat' first
    | with_reducible assumption
    | (rename_i e; with_reducible refine Keeps.ofSnd (pq := pq) e ?_ (fun _ => ?_) <;> clear e)
    | (rename_i e; with_reducible refine Keeps.ofFst (pq := pq) e ?_ (fun _ => ?_) <;> clear e)
    | split
    | simp only [Keeps.upd]

theorem State.reinstate_keeps {pq : List Instr} {s : State} {r : Resource} (hs : State.Keeps pq s) :
    State.Keeps pq (State.reinstate s r) := by
  unfold State.reinstate
  repeat' first
    | with_reducible assumption
    | (extract_lets -underBinder +onlyGivenNames -merge x; with_reducible refine Keeps.cut (pq := pq) x ?_ (fun _ => ?_); rotate_left; clear_value x; rotate_left; subst x)
    | (extract_lets -underBinder +onlyGivenNames -merge x; subst x)
    | with_reducible apply State.setLamp_keeps
    | with_reducible apply State.setPasses_keeps
    | with_reducible apply State.freeRow_keeps
    | with_reducible apply State.setDegrading_keeps
    | with_reducible apply State.retirementRecord_keeps
    | with_reducible apply State.outcome_keeps
    | with_reducible apply State.dmaReinstate_keeps
    | with_reducible apply State.coreReturns_keeps
    | with_reducible apply State.laneReturned_keeps
    | with_reducible apply State.cellsCheck_keeps
    | split
    | simp only [Keeps.upd]

theorem State.testOutcome_keeps {pq : List Instr} {s : State} {r : Resource} {pass : Bool} (hs : State.Keeps pq s) :
    State.Keeps pq (State.testOutcome s r pass) := by
  unfold State.testOutcome
  repeat' first
    | with_reducible assumption
    | (extract_lets -underBinder +onlyGivenNames -merge x; with_reducible refine Keeps.cut (pq := pq) x ?_ (fun _ => ?_); rotate_left; clear_value x; rotate_left; subst x)
    | (extract_lets -underBinder +onlyGivenNames -merge x; subst x)
    | with_reducible apply State.outcome_keeps
    | with_reducible apply State.raise_keeps
    | with_reducible apply State.pass_keeps
    | intro _
    | split
    | simp only [Keeps.upd]

theorem State.retestEnd_keeps {pq : List Instr} {s : State} {r : Resource} {pass : Bool} (hs : State.Keeps pq s) :
    State.Keeps pq (State.retestEnd s r pass) := by
  unfold State.retestEnd
  repeat' first
    | with_reducible assumption
    | (extract_lets -underBinder +onlyGivenNames -merge x; with_reducible refine Keeps.cut (pq := pq) x ?_ (fun _ => ?_); rotate_left; clear_value x; rotate_left; subst x)
    | (extract_lets -underBinder +onlyGivenNames -merge x; subst x)
    | with_reducible apply State.testOutcome_keeps
    | with_reducible apply State.reinstate_keeps
    | with_reducible apply State.setPasses_keeps
    | with_reducible apply State.pass_keeps
    | split
    | simp only [Keeps.upd]

theorem State.selfTestEnd_keeps {pq : List Instr} {s : State} {r : Resource} {pass : Bool} (hs : State.Keeps pq s) :
    State.Keeps pq (State.selfTestEnd s r pass) := by
  unfold State.selfTestEnd
  repeat' first
    | with_reducible assumption
    | (extract_lets -underBinder +onlyGivenNames -merge x; with_reducible refine Keeps.cut (pq := pq) x ?_ (fun _ => ?_); rotate_left; clear_value x; rotate_left; subst x)
    | (extract_lets -underBinder +onlyGivenNames -merge x; subst x)
    | with_reducible apply State.testOutcome_keeps
    | with_reducible apply State.lasting_keeps
    | with_reducible apply State.coreReturns_keeps
    | with_reducible apply State.pass_keeps
    | split
    | simp only [Keeps.upd]

theorem State.reinterpret_keeps {pq : List Instr} {s : State} {ch : Nat} (hs : State.Keeps pq s) :
    State.Keeps pq (State.reinterpret s ch) := by
  unfold State.reinterpret
  repeat' first
    | with_reducible assumption
    | (extract_lets -underBinder +onlyGivenNames -merge x; with_reducible refine Keeps.cut (pq := pq) x ?_ (fun _ => ?_); rotate_left; clear_value x; rotate_left; subst x)
    | (extract_lets -underBinder +onlyGivenNames -merge x; subst x)
    | with_reducible apply State.callStop_keeps
    | with_reducible apply State.setChan_keeps
    | split
    | simp only [Keeps.upd]

theorem State.lampLeaves_keeps {pq : List Instr} {s : State} {k : Nat} (hs : State.Keeps pq s) :
    State.Keeps pq (State.lampLeaves s k) := by
  unfold State.lampLeaves
  repeat' first
    | with_reducible assumption
    | (extract_lets -underBinder +onlyGivenNames -merge x; with_reducible refine Keeps.cut (pq := pq) x ?_ (fun _ => ?_); rotate_left; clear_value x; rotate_left; subst x)
    | (extract_lets -underBinder +onlyGivenNames -merge x; subst x)
    | with_reducible apply State.reinterpret_keeps
    | with_reducible apply State.setLamp_keeps
    | (with_reducible refine forEach_keeps ?_ (fun _ _ _ => ?_))
    | intro _
    | split
    | simp only [Keeps.upd]

theorem State.resetUnit_keeps {pq : List Instr} {s : State} {u : UnitId} (hs : State.Keeps pq s) :
    State.Keeps pq (State.resetUnit s u) := by
  unfold State.resetUnit
  repeat' first
    | with_reducible assumption
    | (rename_i e; with_reducible refine Keeps.ofSnd (pq := pq) e ?_ (fun _ => ?_) <;> clear e)
    | (rename_i e; with_reducible refine Keeps.ofFst (pq := pq) e ?_ (fun _ => ?_) <;> clear e)
    | (extract_lets -underBinder +onlyGivenNames -merge x; with_reducible refine Keeps.cut (pq := pq) x ?_ (fun _ => ?_); rotate_left; clear_value x; rotate_left; subst x)
    | (extract_lets -underBinder +onlyGivenNames -merge x; subst x)
    | with_reducible apply State.lampLeaves_keeps
    | with_reducible apply State.wickReset_keeps
    | with_reducible apply State.dmaReset_keeps
    | with_reducible apply State.unitResetAborts_keeps
    | with_reducible apply State.cmpReset_keeps
    | with_reducible apply State.coreLeaves_keeps
    | with_reducible apply State.swcUnitReset_keeps
    | with_reducible apply State.trfUnitReset_keeps
    | with_reducible apply idle_keeps
    | split
    | simp only [Keeps.upd]

theorem State.domainReset_keeps {pq : List Instr} {s : State} {u : UnitId} (hs : State.Keeps pq s) :
    State.Keeps pq (State.domainReset s u) := by
  unfold State.domainReset
  repeat' first
    | with_reducible assumption
    | with_reducible apply State.fault_keeps
    | split
    | simp only [Keeps.upd]

theorem State.unitResetEnd_keeps {pq : List Instr} {s : State} {u : UnitId} (hs : State.Keeps pq s) :
    State.Keeps pq (State.unitResetEnd s u) := by
  unfold State.unitResetEnd
  repeat' first
    | with_reducible assumption
    | with_reducible apply State.domainReset_keeps
    | (extract_lets -underBinder +onlyGivenNames -merge x; with_reducible refine Keeps.cut (pq := pq) x ?_ (fun _ => ?_); rotate_left; clear_value x; rotate_left; subst x)
    | (extract_lets -underBinder +onlyGivenNames -merge x; subst x)
    | with_reducible apply State.setLamp_keeps
    | with_reducible apply State.raise_keeps
    | split
    | simp only [Keeps.upd]

theorem State.coreResetEnd_keeps {pq : List Instr} {s : State} {c : Fin 8} {pass : Bool} (hs : State.Keeps pq s) :
    State.Keeps pq (State.coreResetEnd s c pass) := by
  unfold State.coreResetEnd
  repeat' first
    | with_reducible assumption
    | (extract_lets -underBinder +onlyGivenNames -merge x; with_reducible refine Keeps.cut (pq := pq) x ?_ (fun _ => ?_); rotate_left; clear_value x; rotate_left; subst x)
    | (extract_lets -underBinder +onlyGivenNames -merge x; subst x)
    | with_reducible apply State.unitResetEnd_keeps
    | with_reducible apply State.testOutcome_keeps
    | with_reducible apply State.retireCore_keeps
    | with_reducible apply State.loadCore_keeps
    | with_reducible apply State.coreReturns_keeps
    | with_reducible apply State.pass_keeps
    | split

theorem State.coreRetry_keeps {pq : List Instr} {s : State} {c : Nat} (hs : State.Keeps pq s) :
    State.Keeps pq (State.coreRetry s c) := by
  unfold State.coreRetry
  repeat' first
    | with_reducible assumption
    | (extract_lets -underBinder +onlyGivenNames -merge x; with_reducible refine Keeps.cut (pq := pq) x ?_ (fun _ => ?_); rotate_left; clear_value x; rotate_left; subst x)
    | (extract_lets -underBinder +onlyGivenNames -merge x; subst x)
    | with_reducible apply State.coreLeaves_keeps
    | with_reducible apply State.setCore_keeps
    | split
    | simp only [Keeps.upd]

theorem State.isolate_keeps {pq : List Instr} {s : State} {src : Nat} {addr : Nat} (hs : State.Keeps pq s) :
    State.Keeps pq (State.isolate s src addr) := by
  unfold State.isolate
  repeat' first
    | with_reducible assumption
    | (extract_lets -underBinder +onlyGivenNames -merge x; with_reducible refine Keeps.cut (pq := pq) x ?_ (fun _ => ?_); rotate_left; clear_value x; rotate_left; subst x)
    | (extract_lets -underBinder +onlyGivenNames -merge x; subst x)
    | with_reducible apply State.lampLeaves_keeps
    | with_reducible apply State.fenceRow_keeps
    | with_reducible apply State.dmaIsolate_keeps
    | split
    | simp only [Keeps.upd]

theorem State.setImage_keeps {pq : List Instr} {s : State} {i : Fin 3} {x : ImageState} (hs : State.Keeps pq s) :
    State.Keeps pq (State.setImage s i x) := by
  unfold State.setImage
  repeat' first
    | with_reducible assumption
    | simp only [Keeps.upd]

theorem State.bootControl_keeps {pq : List Instr} {s : State} (hs : State.Keeps pq s) :
    State.Keeps pq (State.bootControl s) := by
  unfold State.bootControl
  repeat' first
    | with_reducible assumption
    | (extract_lets -underBinder +onlyGivenNames -merge x; with_reducible refine Keeps.cut (pq := pq) x ?_ (fun _ => ?_); rotate_left; clear_value x; rotate_left; subst x)
    | (extract_lets -underBinder +onlyGivenNames -merge x; subst x)
    | with_reducible apply State.nvsRecord_keeps
    | intro _

theorem State.persist_keeps {pq : List Instr} {s : State} {off : Nat} {v : Word} (hs : State.Keeps pq s) :
    State.Keeps pq (State.persist s off v) := by
  unfold State.persist
  repeat' first
    | with_reducible assumption
    | (extract_lets -underBinder +onlyGivenNames -merge x; with_reducible refine Keeps.cut (pq := pq) x ?_ (fun _ => ?_); rotate_left; clear_value x; rotate_left; subst x)
    | (extract_lets -underBinder +onlyGivenNames -merge x; subst x)
    | with_reducible apply State.nvsRecord_keeps
    | split
    | simp only [Keeps.upd]

theorem State.shutdownWord_keeps {pq : List Instr} {s : State} {cause : Nat} (hs : State.Keeps pq s) :
    State.Keeps pq (State.shutdownWord s cause) := by
  unfold State.shutdownWord
  repeat' first
    | with_reducible assumption
    | simp only [Keeps.upd]

theorem State.unretire_keeps {pq : List Instr} {s : State} {r : LogRec} (hs : State.Keeps pq s) :
    State.Keeps pq (State.unretire s r) := by
  unfold State.unretire
  repeat' first
    | with_reducible assumption
    | (rename_i e; with_reducible refine Keeps.ofSnd (pq := pq) e ?_ (fun _ => ?_) <;> clear e)
    | (rename_i e; with_reducible refine Keeps.ofFst (pq := pq) e ?_ (fun _ => ?_) <;> clear e)
    | (extract_lets -underBinder +onlyGivenNames -merge x; with_reducible refine Keeps.cut (pq := pq) x ?_ (fun _ => ?_); rotate_left; clear_value x; rotate_left; subst x)
    | (extract_lets -underBinder +onlyGivenNames -merge x; subst x)
    | intro _
    | split
    | simp only [Keeps.upd]

theorem State.loseRecord_keeps {pq : List Instr} {s : State} {w : NvsWrite} (hs : State.Keeps pq s) :
    State.Keeps pq (State.loseRecord s w) := by
  unfold State.loseRecord
  repeat' first
    | with_reducible assumption
    | (rename_i e; with_reducible refine Keeps.ofSnd (pq := pq) e ?_ (fun _ => ?_) <;> clear e)
    | (rename_i e; with_reducible refine Keeps.ofFst (pq := pq) e ?_ (fun _ => ?_) <;> clear e)
    | (extract_lets -underBinder +onlyGivenNames -merge x; with_reducible refine Keeps.cut (pq := pq) x ?_ (fun _ => ?_); rotate_left; clear_value x; rotate_left; subst x)
    | (extract_lets -underBinder +onlyGivenNames -merge x; subst x)
    | with_reducible apply State.unretire_keeps
    | (with_reducible refine forEach_keeps ?_ (fun _ _ _ => ?_))
    | intro _
    | split
    | simp only [Keeps.upd]

theorem State.collapse_keeps {pq : List Instr} {s : State} (hs : State.Keeps pq s) :
    State.Keeps pq (State.collapse s) := by
  unfold State.collapse
  repeat' first
    | with_reducible assumption
    | (rename_i e; with_reducible refine Keeps.ofSnd (pq := pq) e ?_ (fun _ => ?_) <;> clear e)
    | (rename_i e; with_reducible refine Keeps.ofFst (pq := pq) e ?_ (fun _ => ?_) <;> clear e)
    | (extract_lets -underBinder +onlyGivenNames -merge x; with_reducible refine Keeps.cut (pq := pq) x ?_ (fun _ => ?_); rotate_left; clear_value x; rotate_left; subst x)
    | (extract_lets -underBinder +onlyGivenNames -merge x; subst x)
    | with_reducible apply State.loseRecord_keeps
    | (with_reducible refine forEach_keeps ?_ (fun _ _ _ => ?_))
    | intro _
    | split
    | simp only [Keeps.upd]

theorem State.finishWrites_keeps {pq : List Instr} {s : State} (hs : State.Keeps pq s) :
    State.Keeps pq (State.finishWrites s) := by
  unfold State.finishWrites
  repeat' first
    | with_reducible assumption
    | (rename_i e; with_reducible refine Keeps.ofSnd (pq := pq) e ?_ (fun _ => ?_) <;> clear e)
    | (rename_i e; with_reducible refine Keeps.ofFst (pq := pq) e ?_ (fun _ => ?_) <;> clear e)
    | (extract_lets -underBinder +onlyGivenNames -merge x; with_reducible refine Keeps.cut (pq := pq) x ?_ (fun _ => ?_); rotate_left; clear_value x; rotate_left; subst x)
    | (extract_lets -underBinder +onlyGivenNames -merge x; subst x)
    | with_reducible apply State.loseRecord_keeps
    | (with_reducible refine forEach_keeps ?_ (fun _ _ _ => ?_))
    | intro _
    | split
    | simp only [Keeps.upd]

theorem State.setUpdate_keeps {pq : List Instr} {s : State} {i : Fin 3} {u : Option Update} (hs : State.Keeps pq s) :
    State.Keeps pq (State.setUpdate s i u) := by
  unfold State.setUpdate
  repeat' first
    | with_reducible assumption
    | simp only [Keeps.upd]

theorem State.updateBegin_keeps {pq : List Instr} {s : State} {i : Fin 3} {u : Update} (hs : State.Keeps pq s) :
    State.Keeps pq (State.updateBegin s i u) := by
  unfold State.updateBegin
  repeat' first
    | with_reducible assumption
    | with_reducible apply State.setUpdate_keeps
    | with_reducible apply State.bootControl_keeps
    | with_reducible apply State.setImage_keeps

theorem State.updateComplete_keeps {pq : List Instr} {s : State} {i : Fin 3} (hs : State.Keeps pq s) :
    State.Keeps pq (State.updateComplete s i) := by
  unfold State.updateComplete
  repeat' first
    | with_reducible assumption
    | (rename_i e; with_reducible refine Keeps.ofSnd (pq := pq) e ?_ (fun _ => ?_) <;> clear e)
    | (rename_i e; with_reducible refine Keeps.ofFst (pq := pq) e ?_ (fun _ => ?_) <;> clear e)
    | (extract_lets -underBinder +onlyGivenNames -merge x; with_reducible refine Keeps.cut (pq := pq) x ?_ (fun _ => ?_); rotate_left; clear_value x; rotate_left; subst x)
    | (extract_lets -underBinder +onlyGivenNames -merge x; subst x)
    | with_reducible apply State.setUpdate_keeps
    | with_reducible apply State.outcome_keeps
    | with_reducible apply State.finish_keeps
    | split
    | simp only [Keeps.upd]

theorem State.updateEnd_keeps {pq : List Instr} {s : State} {i : Fin 3} {st : Status} {version : Word} {now : Bool} (hs : State.Keeps pq s) :
    State.Keeps pq (State.updateEnd s i st version now) := by
  unfold State.updateEnd
  repeat' first
    | with_reducible assumption
    | (extract_lets -underBinder +onlyGivenNames -merge x; with_reducible refine Keeps.cut (pq := pq) x ?_ (fun _ => ?_); rotate_left; clear_value x; rotate_left; subst x)
    | (extract_lets -underBinder +onlyGivenNames -merge x; subst x)
    | with_reducible apply State.updateComplete_keeps
    | with_reducible apply State.setUpdate_keeps
    | with_reducible apply State.outcome_keeps
    | with_reducible apply State.raise_keeps
    | with_reducible apply State.logRecord_keeps
    | split
    | simp only [Keeps.upd]

theorem State.updateAbort_keeps {pq : List Instr} {s : State} {i : Fin 3} (hs : State.Keeps pq s) :
    State.Keeps pq (State.updateAbort s i) := by
  unfold State.updateAbort
  repeat' first
    | with_reducible assumption
    | with_reducible apply State.updateEnd_keeps

theorem State.abortUpdates_keeps {pq : List Instr} {s : State} {pldm : Bool} (hs : State.Keeps pq s) :
    State.Keeps pq (State.abortUpdates s pldm) := by
  unfold State.abortUpdates
  repeat' first
    | with_reducible assumption
    | with_reducible apply State.updateAbort_keeps
    | (with_reducible refine forEach_keeps ?_ (fun _ _ _ => ?_))
    | intro _
    | split
    | simp only [Keeps.upd]

theorem State.genNext_keeps {pq : List Instr} {s : State} {type index : Nat} (hs : State.Keeps pq s) :
    State.Keeps pq (State.genNext s type index) := by
  unfold State.genNext
  repeat' first
    | with_reducible assumption
    | intro _
    | simp only [Keeps.upd]

theorem State.withdrawSends_keeps {pq : List Instr} {s : State} {sel : Nat → SendFrame → Bool} {st : Status} (hs : State.Keeps pq s) :
    State.Keeps pq (State.withdrawSends s sel st) := by
  unfold State.withdrawSends
  repeat' first
    | with_reducible assumption
    | (rename_i e; with_reducible refine Keeps.ofSnd (pq := pq) e ?_ (fun _ => ?_) <;> clear e)
    | (rename_i e; with_reducible refine Keeps.ofFst (pq := pq) e ?_ (fun _ => ?_) <;> clear e)
    | (extract_lets -underBinder +onlyGivenNames -merge x; with_reducible refine Keeps.cut (pq := pq) x ?_ (fun _ => ?_); rotate_left; clear_value x; rotate_left; subst x)
    | (extract_lets -underBinder +onlyGivenNames -merge x; subst x)
    | with_reducible apply State.settleSendQ_keeps
    | with_reducible apply State.sendGone_keeps
    | with_reducible apply State.setSendQ_keeps
    | (with_reducible refine forEach_keeps ?_ (fun _ _ _ => ?_))
    | intro _
    | split
    | simp only [Keeps.upd]

theorem State.withdrawJobs_keeps {pq : List Instr} {s : State} {sel : CodecJob → Bool} {records : Bool} {st : Status} (hs : State.Keeps pq s) :
    State.Keeps pq (State.withdrawJobs s sel records st) := by
  unfold State.withdrawJobs
  repeat' first
    | with_reducible assumption
    | (extract_lets -underBinder +onlyGivenNames -merge x; with_reducible refine Keeps.cut (pq := pq) x ?_ (fun _ => ?_); rotate_left; clear_value x; rotate_left; subst x)
    | (extract_lets -underBinder +onlyGivenNames -merge x; subst x)
    | with_reducible apply State.endIdle_keeps
    | with_reducible apply State.emptyRecords_keeps
    | (with_reducible refine forEach_keeps ?_ (fun _ _ _ => ?_))
    | intro _
    | split

theorem State.withdraw_keeps {pq : List Instr} {s : State} {o : JobOrigin → Bool} {records : Bool} {st : Status} (hs : State.Keeps pq s) :
    State.Keeps pq (State.withdraw s o records st) := by
  unfold State.withdraw
  repeat' first
    | with_reducible assumption
    | (extract_lets -underBinder +onlyGivenNames -merge x; with_reducible refine Keeps.cut (pq := pq) x ?_ (fun _ => ?_); rotate_left; clear_value x; rotate_left; subst x)
    | (extract_lets -underBinder +onlyGivenNames -merge x; subst x)
    | with_reducible apply State.withdrawJobs_keeps
    | with_reducible apply State.withdrawSends_keeps
    | with_reducible apply State.endUpdates_keeps
    | intro _
    | split
    | simp only [Keeps.upd]

theorem State.withdrawStage_keeps {pq : List Instr} {s : State} {w : Waiter → Bool} (hs : State.Keeps pq s) :
    State.Keeps pq (State.withdrawStage s w) := by
  unfold State.withdrawStage
  repeat' first
    | with_reducible assumption
    | (extract_lets -underBinder +onlyGivenNames -merge x; with_reducible refine Keeps.cut (pq := pq) x ?_ (fun _ => ?_); rotate_left; clear_value x; rotate_left; subst x)
    | (extract_lets -underBinder +onlyGivenNames -merge x; subst x)
    | with_reducible apply State.reopen_keeps
    | with_reducible apply State.stageCancel_keeps
    | intro _
    | split
    | simp only [Keeps.upd]

theorem State.dropChannelSession_keeps {pq : List Instr} {s : State} {c : Fin 64} (hs : State.Keeps pq s) :
    State.Keeps pq (State.dropChannelSession s c) := by
  unfold State.dropChannelSession
  repeat' first
    | with_reducible assumption
    | (rename_i e; with_reducible refine Keeps.ofSnd (pq := pq) e ?_ (fun _ => ?_) <;> clear e)
    | (rename_i e; with_reducible refine Keeps.ofFst (pq := pq) e ?_ (fun _ => ?_) <;> clear e)
    | with_reducible apply State.stageCancel_keeps
    | split
    | simp only [Keeps.upd]

theorem State.haltChannel_keeps {pq : List Instr} {s0 : State} {c : Fin 64} (hs0 : State.Keeps pq s0) :
    State.Keeps pq (State.haltChannel s0 c) := by
  unfold State.haltChannel
  repeat' first
    | with_reducible assumption
    | (extract_lets -underBinder +onlyGivenNames -merge x; with_reducible refine Keeps.cut (pq := pq) x ?_ (fun _ => ?_); rotate_left; clear_value x; rotate_left; subst x)
    | (extract_lets -underBinder +onlyGivenNames -merge x; subst x)
    | with_reducible apply State.dropChannelSession_keeps
    | with_reducible apply State.withdrawStage_keeps
    | with_reducible apply State.withdraw_keeps
    | with_reducible apply State.callStop_keeps
    | with_reducible apply State.endProgram_keeps
    | with_reducible apply State.setChan_keeps
    | intro _
    | split
    | simp only [Keeps.upd]

theorem State.forgetChannel_keeps {pq : List Instr} {s : State} {c : Nat} (hs : State.Keeps pq s) :
    State.Keeps pq (State.forgetChannel s c) := by
  unfold State.forgetChannel
  repeat' first
    | with_reducible assumption
    | (extract_lets -underBinder +onlyGivenNames -merge x; with_reducible refine Keeps.cut (pq := pq) x ?_ (fun _ => ?_); rotate_left; clear_value x; rotate_left; subst x)
    | (extract_lets -underBinder +onlyGivenNames -merge x; subst x)
    | with_reducible apply State.flip_keeps
    | intro _
    | split
    | simp only [Keeps.upd]

theorem State.freeChannel_keeps {pq : List Instr} {s : State} {c : Fin 64} (hs : State.Keeps pq s) :
    State.Keeps pq (State.freeChannel s c) := by
  unfold State.freeChannel
  repeat' first
    | with_reducible assumption
    | (extract_lets -underBinder +onlyGivenNames -merge x; with_reducible refine Keeps.cut (pq := pq) x ?_ (fun _ => ?_); rotate_left; clear_value x; rotate_left; subst x)
    | (extract_lets -underBinder +onlyGivenNames -merge x; subst x)
    | with_reducible apply State.forgetChannel_keeps
    | with_reducible apply State.dropChannelSession_keeps
    | with_reducible apply State.genNext_keeps
    | with_reducible apply State.callStop_keeps
    | with_reducible apply State.freeSubchsOf_keeps
    | with_reducible apply State.setChan_keeps
    | intro _
    | split
    | simp only [Keeps.upd]

theorem State.wipeChannel_keeps {pq : List Instr} {s : State} {c : Fin 64} (hs : State.Keeps pq s) :
    State.Keeps pq (State.wipeChannel s c) := by
  unfold State.wipeChannel
  repeat' first
    | with_reducible assumption
    | (extract_lets -underBinder +onlyGivenNames -merge x; with_reducible refine Keeps.cut (pq := pq) x ?_ (fun _ => ?_); rotate_left; clear_value x; rotate_left; subst x)
    | (extract_lets -underBinder +onlyGivenNames -merge x; subst x)
    | with_reducible apply State.freeChannel_keeps
    | with_reducible apply State.withdrawStage_keeps
    | with_reducible apply State.withdraw_keeps
    | with_reducible apply State.callStop_keeps
    | with_reducible apply State.endProgram_keeps
    | with_reducible apply State.setChan_keeps
    | with_reducible apply idle_keeps
    | intro _
    | split
    | simp only [Keeps.upd]

theorem State.stopEntry_keeps {pq : List Instr} {s : State} {records : Bool} {n : Nat} (hs : State.Keeps pq s) :
    State.Keeps pq (State.stopEntry s records n) := by
  unfold State.stopEntry
  repeat' first
    | with_reducible assumption
    | (extract_lets -underBinder +onlyGivenNames -merge x; with_reducible refine Keeps.cut (pq := pq) x ?_ (fun _ => ?_); rotate_left; clear_value x; rotate_left; subst x)
    | (extract_lets -underBinder +onlyGivenNames -merge x; subst x)
    | with_reducible apply State.haltChannel_keeps
    | with_reducible apply State.withdrawStage_keeps
    | with_reducible apply State.withdraw_keeps
    | with_reducible apply State.updateEnd_keeps
    | with_reducible apply State.setChan_keeps
    | with_reducible apply State.finish_keeps
    | intro _
    | split
    | simp only [Keeps.upd]

theorem State.muteJobs_keeps {pq : List Instr} {s : State} {encode : Bool} {i : Nat} (hs : State.Keeps pq s) :
    State.Keeps pq (State.muteJobs s encode i) := by
  unfold State.muteJobs
  repeat' first
    | with_reducible assumption
    | intro _
    | split
    | simp only [Keeps.upd]

theorem State.closeDec_keeps {pq : List Instr} {s : State} {i : Nat} {closer : Option Nat} {drain records : Bool} (hs : State.Keeps pq s) :
    State.Keeps pq (State.closeDec s i closer drain records) := by
  unfold State.closeDec
  repeat' first
    | with_reducible assumption
    | (rename_i e; with_reducible refine Keeps.ofSnd (pq := pq) e ?_ (fun _ => ?_) <;> clear e)
    | (rename_i e; with_reducible refine Keeps.ofFst (pq := pq) e ?_ (fun _ => ?_) <;> clear e)
    | (extract_lets -underBinder +onlyGivenNames -merge x; with_reducible refine Keeps.cut (pq := pq) x ?_ (fun _ => ?_); rotate_left; clear_value x; rotate_left; subst x)
    | (extract_lets -underBinder +onlyGivenNames -merge x; subst x)
    | with_reducible apply State.muteJobs_keeps
    | with_reducible apply State.withdrawJobs_keeps
    | with_reducible apply State.genNext_keeps
    | with_reducible apply State.settleDec_keeps
    | with_reducible apply State.setDec_keeps
    | intro _
    | split
    | simp only [Keeps.upd]

theorem State.closeEnc_keeps {pq : List Instr} {s : State} {i : Nat} {closer : Option Nat} {drain records : Bool} (hs : State.Keeps pq s) :
    State.Keeps pq (State.closeEnc s i closer drain records) := by
  unfold State.closeEnc
  repeat' first
    | with_reducible assumption
    | (rename_i e; with_reducible refine Keeps.ofSnd (pq := pq) e ?_ (fun _ => ?_) <;> clear e)
    | (rename_i e; with_reducible refine Keeps.ofFst (pq := pq) e ?_ (fun _ => ?_) <;> clear e)
    | (extract_lets -underBinder +onlyGivenNames -merge x; with_reducible refine Keeps.cut (pq := pq) x ?_ (fun _ => ?_); rotate_left; clear_value x; rotate_left; subst x)
    | (extract_lets -underBinder +onlyGivenNames -merge x; subst x)
    | with_reducible apply State.muteJobs_keeps
    | with_reducible apply State.withdrawJobs_keeps
    | with_reducible apply State.genNext_keeps
    | with_reducible apply State.settleEnc_keeps
    | with_reducible apply State.setEnc_keeps
    | intro _
    | split
    | simp only [Keeps.upd]

theorem State.closeSendQ_keeps {pq : List Instr} {s : State} {i : Nat} {drain : Bool} (hs : State.Keeps pq s) :
    State.Keeps pq (State.closeSendQ s i drain) := by
  unfold State.closeSendQ
  repeat' first
    | with_reducible assumption
    | (extract_lets -underBinder +onlyGivenNames -merge x; with_reducible refine Keeps.cut (pq := pq) x ?_ (fun _ => ?_); rotate_left; clear_value x; rotate_left; subst x)
    | (extract_lets -underBinder +onlyGivenNames -merge x; subst x)
    | with_reducible apply State.withdrawSends_keeps
    | with_reducible apply State.genNext_keeps
    | with_reducible apply State.settleSendQ_keeps
    | with_reducible apply State.setSendQ_keeps
    | intro _
    | split
    | simp only [Keeps.upd]

theorem State.dropPaced_keeps {pq : List Instr} {s : State} {f : Nat} (hs : State.Keeps pq s) :
    State.Keeps pq (State.dropPaced s f) := by
  unfold State.dropPaced
  repeat' first
    | with_reducible assumption
    | with_reducible apply State.dropOpt_keeps
    | (with_reducible refine forEach_keeps ?_ (fun _ _ _ => ?_))
    | intro _
    | split
    | simp only [Keeps.upd]

theorem State.dropObjects_keeps {pq : List Instr} {s : State} {f : Nat} (hs : State.Keeps pq s) :
    State.Keeps pq (State.dropObjects s f) := by
  unfold State.dropObjects
  repeat' first
    | with_reducible assumption
    | (rename_i e; with_reducible refine Keeps.ofSnd (pq := pq) e ?_ (fun _ => ?_) <;> clear e)
    | (rename_i e; with_reducible refine Keeps.ofFst (pq := pq) e ?_ (fun _ => ?_) <;> clear e)
    | (extract_lets -underBinder +onlyGivenNames -merge x; with_reducible refine Keeps.cut (pq := pq) x ?_ (fun _ => ?_); rotate_left; clear_value x; rotate_left; subst x)
    | (extract_lets -underBinder +onlyGivenNames -merge x; subst x)
    | with_reducible apply State.dropPaced_keeps
    | with_reducible apply State.closeSendQ_keeps
    | with_reducible apply State.closeEnc_keeps
    | with_reducible apply State.closeDec_keeps
    | with_reducible apply State.wipeChannel_keeps
    | with_reducible apply State.genNext_keeps
    | with_reducible apply State.closeOut_keeps
    | (with_reducible refine forEach_keeps ?_ (fun _ _ _ => ?_))
    | intro _
    | split
    | simp only [Keeps.upd]

theorem State.settleReset_keeps {pq : List Instr} {s : State} {f : Nat} (hs : State.Keeps pq s) :
    State.Keeps pq (State.settleReset s f) := by
  unfold State.settleReset
  repeat' first
    | with_reducible assumption
    | (extract_lets -underBinder +onlyGivenNames -merge x; with_reducible refine Keeps.cut (pq := pq) x ?_ (fun _ => ?_); rotate_left; clear_value x; rotate_left; subst x)
    | (extract_lets -underBinder +onlyGivenNames -merge x; subst x)
    | intro _
    | split
    | simp only [Keeps.upd]

theorem State.orphanAll_keeps {pq : List Instr} {s : State} {f : Nat} (hs : State.Keeps pq s) :
    State.Keeps pq (State.orphanAll s f) := by
  unfold State.orphanAll
  repeat' first
    | with_reducible assumption
    | with_reducible apply State.orphan_keeps
    | (with_reducible refine forEach_keeps ?_ (fun _ _ _ => ?_))
    | intro _

theorem State.resetFunction_keeps {pq : List Instr} {s : State} {f : Nat} (hs : State.Keeps pq s) :
    State.Keeps pq (State.resetFunction s f) := by
  unfold State.resetFunction
  repeat' first
    | with_reducible assumption
    | (rename_i e; with_reducible refine Keeps.ofSnd (pq := pq) e ?_ (fun _ => ?_) <;> clear e)
    | (rename_i e; with_reducible refine Keeps.ofFst (pq := pq) e ?_ (fun _ => ?_) <;> clear e)
    | (extract_lets -underBinder +onlyGivenNames -merge x; with_reducible refine Keeps.cut (pq := pq) x ?_ (fun _ => ?_); rotate_left; clear_value x; rotate_left; subst x)
    | (extract_lets -underBinder +onlyGivenNames -merge x; subst x)
    | with_reducible apply State.orphanAll_keeps
    | with_reducible apply State.settleReset_keeps
    | with_reducible apply State.dropObjects_keeps
    | with_reducible apply State.stopEntry_keeps
    | with_reducible apply State.repost_keeps
    | with_reducible apply State.settleQueue_keeps
    | with_reducible apply State.slotsCheck_keeps
    | (with_reducible refine forEach_keeps ?_ (fun _ _ _ => ?_))
    | intro _
    | split
    | simp only [Keeps.upd]

theorem State.orphanFinished_keeps {pq : List Instr} {s : State} {f : Nat} (hs : State.Keeps pq s) :
    State.Keeps pq (State.orphanFinished s f) := by
  unfold State.orphanFinished
  repeat' first
    | with_reducible assumption
    | with_reducible apply State.orphanAll_keeps
    | with_reducible apply State.settleReset_keeps

theorem State.orphanDraining_keeps {pq : List Instr} {s : State} {f c : Nat} (hs : State.Keeps pq s) :
    State.Keeps pq (State.orphanDraining s f c) := by
  unfold State.orphanDraining
  repeat' first
    | with_reducible assumption
    | with_reducible apply State.orphan_keeps
    | (with_reducible refine forEach_keeps ?_ (fun _ _ _ => ?_))
    | intro _
    | split
    | simp only [Keeps.upd]

theorem execCompletionPost_keeps {pq : List Instr} {f : Fin 16} {c : Fin 4096} {ok : Bool} {s : State} (hs : State.Keeps pq s) :
    KeepsO pq (execCompletionPost f c ok s) := by
  unfold execCompletionPost
  repeat' first
    | with_reducible assumption
    | with_reducible apply KeepsO.mk
    | with_reducible apply State.orphanDraining_keeps
    | with_reducible apply State.orphanFinished_keeps
    | with_reducible apply State.post_keeps
    | split

theorem State.settleSchemes_keeps {pq : List Instr} {s : State} (hs : State.Keeps pq s) :
    State.Keeps pq (State.settleSchemes s) := by
  unfold State.settleSchemes
  repeat' first
    | with_reducible assumption
    | with_reducible apply State.hostCheck_keeps
    | intro _
    | split
    | simp only [Keeps.upd]

theorem State.logMode_keeps {pq : List Instr} {s : State} {m : Mode} {cause : ModeCause} {w : Option Master} (hs : State.Keeps pq s) :
    State.Keeps pq (State.logMode s m cause w) := by
  unfold State.logMode
  repeat' first
    | with_reducible assumption
    | (rename_i e; with_reducible refine Keeps.ofSnd (pq := pq) e ?_ (fun _ => ?_) <;> clear e)
    | (rename_i e; with_reducible refine Keeps.ofFst (pq := pq) e ?_ (fun _ => ?_) <;> clear e)
    | (extract_lets -underBinder +onlyGivenNames -merge x; with_reducible refine Keeps.cut (pq := pq) x ?_ (fun _ => ?_); rotate_left; clear_value x; rotate_left; subst x)
    | (extract_lets -underBinder +onlyGivenNames -merge x; subst x)
    | with_reducible apply State.logRecord_keeps
    | split
    | simp only [Keeps.upd]

theorem State.platformEvent_keeps {pq : List Instr} {s : State} {sensor now before : Nat} (hs : State.Keeps pq s) :
    State.Keeps pq (State.platformEvent s sensor now before) := by
  unfold State.platformEvent
  repeat' first
    | with_reducible assumption
    | with_reducible apply State.emit_keeps
    | split
    | simp only [Keeps.upd]

theorem State.answerMode_keeps {pq : List Instr} {s : State} {r : Option Requester} {asked : Nat} {st : Status} {entered : Nat} {detail : Option Nat} (hs : State.Keeps pq s) :
    State.Keeps pq (State.answerMode s r asked st entered detail) := by
  unfold State.answerMode
  repeat' first
    | with_reducible assumption
    | (rename_i e; with_reducible refine Keeps.ofSnd (pq := pq) e ?_ (fun _ => ?_) <;> clear e)
    | (rename_i e; with_reducible refine Keeps.ofFst (pq := pq) e ?_ (fun _ => ?_) <;> clear e)
    | (extract_lets -underBinder +onlyGivenNames -merge x; with_reducible refine Keeps.cut (pq := pq) x ?_ (fun _ => ?_); rotate_left; clear_value x; rotate_left; subst x)
    | (extract_lets -underBinder +onlyGivenNames -merge x; subst x)
    | with_reducible apply State.finish_keeps
    | split
    | simp only [Keeps.upd]

theorem State.abortChange_keeps {pq : List Instr} {s : State} {lost : Bool} (hs : State.Keeps pq s) :
    State.Keeps pq (State.abortChange s lost) := by
  unfold State.abortChange
  repeat' first
    | with_reducible assumption
    | (rename_i e; with_reducible refine Keeps.ofSnd (pq := pq) e ?_ (fun _ => ?_) <;> clear e)
    | (rename_i e; with_reducible refine Keeps.ofFst (pq := pq) e ?_ (fun _ => ?_) <;> clear e)
    | (extract_lets -underBinder +onlyGivenNames -merge x; with_reducible refine Keeps.cut (pq := pq) x ?_ (fun _ => ?_); rotate_left; clear_value x; rotate_left; subst x)
    | (extract_lets -underBinder +onlyGivenNames -merge x; subst x)
    | with_reducible apply State.answerMode_keeps
    | with_reducible apply State.orphan_keeps
    | split
    | simp only [Keeps.upd]

theorem State.gateCores_keeps {pq : List Instr} {s : State} {n : Nat} (hs : State.Keeps pq s) :
    State.Keeps pq (State.gateCores s n) := by
  unfold State.gateCores
  repeat' first
    | with_reducible assumption
    | (rename_i e; with_reducible refine Keeps.ofSnd (pq := pq) e ?_ (fun _ => ?_) <;> clear e)
    | (rename_i e; with_reducible refine Keeps.ofFst (pq := pq) e ?_ (fun _ => ?_) <;> clear e)
    | with_reducible apply State.settleGate_keeps
    | (with_reducible refine forEach_keeps ?_ (fun _ _ _ => ?_))
    | intro _
    | simp only [Keeps.upd]

theorem State.gateForCap_keeps {pq : List Instr} {s : State} (hs : State.Keeps pq s) :
    State.Keeps pq (State.gateForCap s) := by
  unfold State.gateForCap
  repeat' first
    | with_reducible assumption
    | with_reducible apply State.gateCores_keeps
    | split
    | simp only [Keeps.upd]

theorem State.ungate_keeps {pq : List Instr} {s : State} (hs : State.Keeps pq s) :
    State.Keeps pq (State.ungate s) := by
  unfold State.ungate
  repeat' first
    | with_reducible assumption
    | (extract_lets -underBinder +onlyGivenNames -merge x; with_reducible refine Keeps.cut (pq := pq) x ?_ (fun _ => ?_); rotate_left; clear_value x; rotate_left; subst x)
    | (extract_lets -underBinder +onlyGivenNames -merge x; subst x)
    | with_reducible apply State.coreReturns_keeps
    | (with_reducible refine forEach_keeps ?_ (fun _ _ _ => ?_))
    | intro _
    | split
    | simp only [Keeps.upd]

theorem State.askSuspend_keeps {pq : List Instr} {s : State} {k : SuspendKind} {c : Fin 64} (hs : State.Keeps pq s) :
    State.Keeps pq (State.askSuspend s k c) := by
  unfold State.askSuspend
  repeat' first
    | with_reducible assumption
    | (extract_lets -underBinder +onlyGivenNames -merge x; with_reducible refine Keeps.cut (pq := pq) x ?_ (fun _ => ?_); rotate_left; clear_value x; rotate_left; subst x)
    | (extract_lets -underBinder +onlyGivenNames -merge x; subst x)
    | with_reducible apply State.suspendNow_keeps
    | with_reducible apply State.setChan_keeps
    | split
    | simp only [Keeps.upd]

theorem State.stopTimers_keeps {pq : List Instr} {s : State} (hs : State.Keeps pq s) :
    State.Keeps pq (State.stopTimers s) := by
  unfold State.stopTimers
  repeat' first
    | with_reducible assumption
    | intro _
    | split
    | simp only [Keeps.upd]

theorem State.startTimers_keeps {pq : List Instr} {s : State} (hs : State.Keeps pq s) :
    State.Keeps pq (State.startTimers s) := by
  unfold State.startTimers
  repeat' first
    | with_reducible assumption
    | intro _
    | split
    | simp only [Keeps.upd]

theorem State.resumeChannels_keeps {pq : List Instr} {s : State} (hs : State.Keeps pq s) :
    State.Keeps pq (State.resumeChannels s) := by
  unfold State.resumeChannels
  repeat' first
    | with_reducible assumption
    | (extract_lets -underBinder +onlyGivenNames -merge x; with_reducible refine Keeps.cut (pq := pq) x ?_ (fun _ => ?_); rotate_left; clear_value x; rotate_left; subst x)
    | (extract_lets -underBinder +onlyGivenNames -merge x; subst x)
    | intro _
    | split
    | simp only [Keeps.upd]

theorem State.channelsContinuity_keeps {pq : List Instr} {s : State} (hs : State.Keeps pq s) :
    State.Keeps pq (State.channelsContinuity s) := by
  unfold State.channelsContinuity
  repeat' first
    | with_reducible assumption
    | with_reducible apply State.askSuspend_keeps
    | with_reducible apply State.setEvents_keeps
    | (with_reducible refine forEach_keeps ?_ (fun _ _ _ => ?_))
    | intro _
    | split

theorem State.updatesReturn_keeps {pq : List Instr} {s : State} (hs : State.Keeps pq s) :
    State.Keeps pq (State.updatesReturn s) := by
  unfold State.updatesReturn
  repeat' first
    | with_reducible assumption
    | with_reducible apply State.updateComplete_keeps
    | (with_reducible refine forEach_keeps ?_ (fun _ _ _ => ?_))
    | intro _

theorem State.relock_keeps {pq : List Instr} {s : State} (hs : State.Keeps pq s) :
    State.Keeps pq (State.relock s) := by
  unfold State.relock
  repeat' first
    | with_reducible assumption
    | with_reducible apply State.clearRegs_keeps
    | simp only [Keeps.upd]

theorem State.leftMode_keeps {pq : List Instr} {s : State} {old : Mode} (hs : State.Keeps pq s) :
    State.Keeps pq (State.leftMode s old) := by
  unfold State.leftMode
  repeat' first
    | with_reducible assumption
    | (rename_i e; with_reducible refine Keeps.ofSnd (pq := pq) e ?_ (fun _ => ?_) <;> clear e)
    | (rename_i e; with_reducible refine Keeps.ofFst (pq := pq) e ?_ (fun _ => ?_) <;> clear e)
    | (extract_lets -underBinder +onlyGivenNames -merge x; with_reducible refine Keeps.cut (pq := pq) x ?_ (fun _ => ?_); rotate_left; clear_value x; rotate_left; subst x)
    | (extract_lets -underBinder +onlyGivenNames -merge x; subst x)
    | with_reducible apply State.relock_keeps
    | with_reducible apply State.updatesReturn_keeps
    | with_reducible apply State.resumeTests_keeps
    | with_reducible apply State.swapLate_keeps
    | with_reducible apply State.damageAll_keeps
    | with_reducible apply State.settleNight_keeps
    | with_reducible apply State.missPassed_keeps
    | intro _
    | split
    | simp only [Keeps.upd]

theorem State.enteredMode_keeps {pq : List Instr} {s : State} (hs : State.Keeps pq s) :
    State.Keeps pq (State.enteredMode s) := by
  unfold State.enteredMode
  repeat' first
    | with_reducible assumption
    | (extract_lets -underBinder +onlyGivenNames -merge x; with_reducible refine Keeps.cut (pq := pq) x ?_ (fun _ => ?_); rotate_left; clear_value x; rotate_left; subst x)
    | (extract_lets -underBinder +onlyGivenNames -merge x; subst x)
    | with_reducible apply State.channelsContinuity_keeps
    | with_reducible apply State.resumeChannels_keeps
    | with_reducible apply State.startTimers_keeps
    | with_reducible apply State.stopTimers_keeps
    | with_reducible apply State.askSuspend_keeps
    | with_reducible apply State.gateForCap_keeps
    | with_reducible apply State.retestAll_keeps
    | with_reducible apply State.abandonTests_keeps
    | with_reducible apply State.stepNight_keeps
    | with_reducible apply State.settleNight_keeps
    | with_reducible apply State.keyNextAll_keeps
    | with_reducible apply State.portsDown_keeps
    | with_reducible apply State.freezeQueues_keeps
    | (with_reducible refine forEach_keeps ?_ (fun _ _ _ => ?_))
    | intro _
    | split
    | simp only [Keeps.upd]

theorem State.enterMode_keeps {pq : List Instr} {s : State} {m : Mode} {cause : ModeCause} {w : Option Master} (hs : State.Keeps pq s) :
    State.Keeps pq (State.enterMode s m cause w) := by
  unfold State.enterMode
  repeat' first
    | with_reducible assumption
    | (extract_lets -underBinder +onlyGivenNames -merge x; with_reducible refine Keeps.cut (pq := pq) x ?_ (fun _ => ?_); rotate_left; clear_value x; rotate_left; subst x)
    | (extract_lets -underBinder +onlyGivenNames -merge x; subst x)
    | with_reducible apply State.enteredMode_keeps
    | with_reducible apply State.leftMode_keeps
    | with_reducible apply State.platformEvent_keeps
    | with_reducible apply State.logMode_keeps
    | with_reducible apply State.settleSchemes_keeps
    | with_reducible apply State.raise_keeps
    | simp only [Keeps.upd]

theorem State.powerDown_keeps {pq : List Instr} {s : State} {m : Mode} (hs : State.Keeps pq s) :
    State.Keeps pq (State.powerDown s m) := ⟨hs.1, rfl, hs.2.2⟩

theorem State.toPilot_keeps {pq : List Instr} {s : State} {word : Nat} {cause : ModeCause} {w : Option Master} (hs : State.Keeps pq s) :
    State.Keeps pq (State.toPilot s word cause w) := by
  unfold State.toPilot
  repeat' first
    | with_reducible assumption
    | (extract_lets -underBinder +onlyGivenNames -merge x; with_reducible refine Keeps.cut (pq := pq) x ?_ (fun _ => ?_); rotate_left; clear_value x; rotate_left; subst x)
    | (extract_lets -underBinder +onlyGivenNames -merge x; subst x)
    | with_reducible apply State.powerDown_keeps
    | with_reducible apply State.abortChange_keeps
    | with_reducible apply State.logMode_keeps
    | with_reducible apply State.abortUpdates_keeps
    | with_reducible apply State.shutdownWord_keeps

theorem State.orderHalt_keeps {pq : List Instr} {s : State} {origin : HaltOrigin} (hs : State.Keeps pq s) :
    State.Keeps pq (State.orderHalt s origin) := by
  unfold State.orderHalt
  repeat' first
    | with_reducible assumption
    | (extract_lets -underBinder +onlyGivenNames -merge x; with_reducible refine Keeps.cut (pq := pq) x ?_ (fun _ => ?_); rotate_left; clear_value x; rotate_left; subst x)
    | (extract_lets -underBinder +onlyGivenNames -merge x; subst x)
    | with_reducible apply State.abortChange_keeps
    | split
    | simp only [Keeps.upd]

theorem State.forgetClosers_keeps {pq : List Instr} {s : State} (hs : State.Keeps pq s) :
    State.Keeps pq (State.forgetClosers s) := by
  unfold State.forgetClosers
  repeat' first
    | with_reducible assumption
    | intro _
    | split
    | simp only [Keeps.upd]

theorem State.abortEntries_keeps {pq : List Instr} {s : State} {u : Option UnitId} (hs : State.Keeps pq s) :
    State.Keeps pq (State.abortEntries s u) := by
  unfold State.abortEntries
  repeat' first
    | with_reducible assumption
    | (extract_lets -underBinder +onlyGivenNames -merge x; with_reducible refine Keeps.cut (pq := pq) x ?_ (fun _ => ?_); rotate_left; clear_value x; rotate_left; subst x)
    | (extract_lets -underBinder +onlyGivenNames -merge x; subst x)
    | with_reducible apply State.finish_keeps
    | with_reducible apply State.fault_keeps
    | (with_reducible refine forEach_keeps ?_ (fun _ _ _ => ?_))
    | intro _
    | split
    | simp only [Keeps.upd]

theorem State.recoverUnits_keeps {pq : List Instr} {s : State} {u : Option UnitId} (hs : State.Keeps pq s) :
    State.Keeps pq (State.recoverUnits s u) := by
  unfold State.recoverUnits
  repeat' first
    | with_reducible assumption
    | (rename_i e; with_reducible refine Keeps.ofSnd (pq := pq) e ?_ (fun _ => ?_) <;> clear e)
    | (rename_i e; with_reducible refine Keeps.ofFst (pq := pq) e ?_ (fun _ => ?_) <;> clear e)
    | (extract_lets -underBinder +onlyGivenNames -merge x; with_reducible refine Keeps.cut (pq := pq) x ?_ (fun _ => ?_); rotate_left; clear_value x; rotate_left; subst x)
    | (extract_lets -underBinder +onlyGivenNames -merge x; subst x)
    | with_reducible apply State.abortEntries_keeps
    | with_reducible apply State.forgetClosers_keeps
    | with_reducible apply State.withdrawSends_keeps
    | with_reducible apply State.resetUnit_keeps
    | with_reducible apply State.auditRestart_keeps
    | with_reducible apply State.endUpdates_keeps
    | with_reducible apply State.cmpReset_keeps
    | with_reducible apply State.endJobs_keeps
    | with_reducible apply State.codecRecovery_keeps
    | intro _
    | split
    | simp only [Keeps.upd]

theorem State.recoverUpdates_keeps {pq : List Instr} {s : State} (hs : State.Keeps pq s) :
    State.Keeps pq (State.recoverUpdates s) := by
  unfold State.recoverUpdates
  repeat' first
    | with_reducible assumption
    | with_reducible apply State.updatesReturn_keeps
    | with_reducible apply State.abortUpdates_keeps

theorem State.orderRecovery_keeps {pq : List Instr} {s : State} {src : Nat} (hs : State.Keeps pq s) :
    State.Keeps pq (State.orderRecovery s src) := by
  unfold State.orderRecovery
  repeat' first
    | with_reducible assumption
    | (rename_i e; with_reducible refine Keeps.ofSnd (pq := pq) e ?_ (fun _ => ?_) <;> clear e)
    | (rename_i e; with_reducible refine Keeps.ofFst (pq := pq) e ?_ (fun _ => ?_) <;> clear e)
    | (extract_lets -underBinder +onlyGivenNames -merge x; with_reducible refine Keeps.cut (pq := pq) x ?_ (fun _ => ?_); rotate_left; clear_value x; rotate_left; subst x)
    | (extract_lets -underBinder +onlyGivenNames -merge x; subst x)
    | with_reducible apply State.recoverUpdates_keeps
    | with_reducible apply State.recoverUnits_keeps
    | with_reducible apply State.orderHalt_keeps
    | with_reducible apply State.enterMode_keeps
    | with_reducible apply State.abortChange_keeps
    | with_reducible apply State.abandonTests_keeps
    | with_reducible apply State.timeUnitReset_keeps
    | with_reducible apply State.unitAbort_keeps
    | intro _
    | split
    | simp only [Keeps.upd]

theorem State.leaveRecovery_keeps {pq : List Instr} {s : State} (hs : State.Keeps pq s) :
    State.Keeps pq (State.leaveRecovery s) := by
  unfold State.leaveRecovery
  repeat' first
    | with_reducible assumption
    | (extract_lets -underBinder +onlyGivenNames -merge x; with_reducible refine Keeps.cut (pq := pq) x ?_ (fun _ => ?_); rotate_left; clear_value x; rotate_left; subst x)
    | (extract_lets -underBinder +onlyGivenNames -merge x; subst x)
    | with_reducible apply State.enterMode_keeps
    | with_reducible apply State.freezeQueues_keeps
    | intro _
    | split
    | simp only [Keeps.upd]

theorem State.takeChange_keeps {pq : List Instr} {s : State} {c : ModeChange} (hs : State.Keeps pq s) :
    State.Keeps pq (State.takeChange s c) := by
  unfold State.takeChange
  repeat' first
    | with_reducible assumption
    | (extract_lets -underBinder +onlyGivenNames -merge x; with_reducible refine Keeps.cut (pq := pq) x ?_ (fun _ => ?_); rotate_left; clear_value x; rotate_left; subst x)
    | (extract_lets -underBinder +onlyGivenNames -merge x; subst x)
    | with_reducible apply State.leaveRecovery_keeps
    | with_reducible apply State.toPilot_keeps
    | with_reducible apply State.enterMode_keeps
    | with_reducible apply State.answerMode_keeps
    | split
    | simp only [Keeps.upd]

theorem State.planChange_keeps {pq : List Instr} {s : State} {target : Option Mode} {cause : ModeCause} {r : Option Requester} {asked ms : Nat} {tick late : Bool} (hs : State.Keeps pq s) :
    State.Keeps pq (State.planChange s target cause r asked ms tick late) := by
  unfold State.planChange
  repeat' first
    | with_reducible assumption
    | (rename_i e; with_reducible refine Keeps.ofSnd (pq := pq) e ?_ (fun _ => ?_) <;> clear e)
    | (rename_i e; with_reducible refine Keeps.ofFst (pq := pq) e ?_ (fun _ => ?_) <;> clear e)
    | (extract_lets -underBinder +onlyGivenNames -merge x; with_reducible refine Keeps.cut (pq := pq) x ?_ (fun _ => ?_); rotate_left; clear_value x; rotate_left; subst x)
    | (extract_lets -underBinder +onlyGivenNames -merge x; subst x)
    | simp only [Keeps.upd]

theorem State.planRequest_keeps {pq : List Instr} {s : State} {m : Mode} {r : Requester} {n : Nat} (hs : State.Keeps pq s) :
    State.Keeps pq (State.planRequest s m r n) := by
  unfold State.planRequest
  repeat' first
    | with_reducible assumption
    | (extract_lets -underBinder +onlyGivenNames -merge x; with_reducible refine Keeps.cut (pq := pq) x ?_ (fun _ => ?_); rotate_left; clear_value x; rotate_left; subst x)
    | (extract_lets -underBinder +onlyGivenNames -merge x; subst x)
    | with_reducible apply State.planChange_keeps
    | with_reducible apply State.answerMode_keeps
    | with_reducible apply State.request_keepsP
    | (with_reducible refine State.request_keepsE (by with_reducible assumption) ?_)
    | intro _
    | split
    | simp only [Keeps.upd]

theorem State.modeLoses_keeps {pq : List Instr} {s : State} {u0 : Order} (hs : State.Keeps pq s) :
    State.Keeps pq (State.modeLoses s u0) := by
  unfold State.modeLoses
  repeat' first
    | with_reducible assumption
    | with_reducible apply State.answerMode_keeps
    | with_reducible apply State.conflict_keeps
    | split
    | simp only [Keeps.upd]

theorem State.requestMode_keeps {pq : List Instr} {s0 : State} {n : Nat} {r : Requester} (hs0 : State.Keeps pq s0) :
    State.Keeps pq (State.requestMode s0 n r) := by
  unfold State.requestMode
  repeat' first
    | with_reducible assumption
    | (rename_i e; with_reducible refine Keeps.ofSnd (pq := pq) e ?_ (fun _ => ?_) <;> clear e)
    | (rename_i e; with_reducible refine Keeps.ofFst (pq := pq) e ?_ (fun _ => ?_) <;> clear e)
    | (extract_lets -underBinder +onlyGivenNames -merge x; with_reducible refine Keeps.cut (pq := pq) x ?_ (fun _ => ?_); rotate_left; clear_value x; rotate_left; subst x)
    | (extract_lets -underBinder +onlyGivenNames -merge x; subst x)
    | with_reducible apply State.modeLoses_keeps
    | with_reducible apply State.planRequest_keeps
    | with_reducible apply State.answerMode_keeps
    | with_reducible apply State.keepOrder_keeps
    | with_reducible apply State.conflict_keeps
    | with_reducible apply State.contest_keepsP
    | (with_reducible refine State.contest_keepsE (by with_reducible assumption) ?_)
    | intro _
    | split
    | simp only [Keeps.upd]

theorem State.wakeStandby_keeps {pq : List Instr} {s : State} (hs : State.Keeps pq s) :
    State.Keeps pq (State.wakeStandby s) := by
  unfold State.wakeStandby
  repeat' first
    | with_reducible assumption
    | with_reducible apply State.planChange_keeps
    | split

theorem State.transitionEnd_keeps {pq : List Instr} {s : State} (hs : State.Keeps pq s) :
    State.Keeps pq (State.transitionEnd s) := by
  unfold State.transitionEnd
  repeat' first
    | with_reducible assumption
    | with_reducible apply State.takeChange_keeps
    | with_reducible apply State.advanceTo_keeps
    | split
    | simp only [Keeps.upd]

theorem State.modeTick_keeps {pq : List Instr} {s : State} (hs : State.Keeps pq s) :
    State.Keeps pq (State.modeTick s) := by
  unfold State.modeTick
  repeat' first
    | with_reducible assumption
    | (extract_lets -underBinder +onlyGivenNames -merge x; with_reducible refine Keeps.cut (pq := pq) x ?_ (fun _ => ?_); rotate_left; clear_value x; rotate_left; subst x)
    | (extract_lets -underBinder +onlyGivenNames -merge x; subst x)
    | with_reducible apply State.takeChange_keeps
    | with_reducible apply State.enterMode_keeps
    | intro _
    | split
    | simp only [Keeps.upd]

theorem State.declareHostLoss_keeps {pq : List Instr} {s : State} (hs : State.Keeps pq s) :
    State.Keeps pq (State.declareHostLoss s) := by
  unfold State.declareHostLoss
  repeat' first
    | with_reducible assumption
    | (extract_lets -underBinder +onlyGivenNames -merge x; with_reducible refine Keeps.cut (pq := pq) x ?_ (fun _ => ?_); rotate_left; clear_value x; rotate_left; subst x)
    | (extract_lets -underBinder +onlyGivenNames -merge x; subst x)
    | with_reducible apply State.enterMode_keeps
    | with_reducible apply State.freezeQueues_keeps
    | with_reducible apply State.raise_keeps
    | intro _
    | split
    | simp only [Keeps.upd]

theorem State.takeHandover_keeps {pq : List Instr} {s : State} (hs : State.Keeps pq s) :
    State.Keeps pq (State.takeHandover s) := by
  unfold State.takeHandover
  repeat' first
    | with_reducible assumption
    | (extract_lets -underBinder +onlyGivenNames -merge x; with_reducible refine Keeps.cut (pq := pq) x ?_ (fun _ => ?_); rotate_left; clear_value x; rotate_left; subst x)
    | (extract_lets -underBinder +onlyGivenNames -merge x; subst x)
    | with_reducible apply State.resetFunction_keeps
    | with_reducible apply State.wipeChannel_keeps
    | with_reducible apply State.setEvents_keeps
    | with_reducible apply State.resumeQueues_keeps
    | (with_reducible refine forEach_keeps ?_ (fun _ _ _ => ?_))
    | intro _
    | split
    | simp only [Keeps.upd]

theorem State.closeWindow_keeps {pq : List Instr} {s : State} {src : Nat} {t : DWord} (hs : State.Keeps pq s) :
    State.Keeps pq (State.closeWindow s src t) := by
  unfold State.closeWindow
  repeat' first
    | with_reducible assumption
    | (extract_lets -underBinder +onlyGivenNames -merge x; with_reducible refine Keeps.cut (pq := pq) x ?_ (fun _ => ?_); rotate_left; clear_value x; rotate_left; subst x)
    | (extract_lets -underBinder +onlyGivenNames -merge x; subst x)
    | with_reducible apply State.setWin_keeps
    | with_reducible apply State.count_keeps
    | with_reducible apply State.start_keeps
    | split
    | simp only [Keeps.upd]

theorem State.countFault_keeps {pq : List Instr} {s : State} {m : FaultMsg} (hs : State.Keeps pq s) :
    State.Keeps pq (State.countFault s m) := by
  unfold State.countFault
  repeat' first
    | with_reducible assumption
    | (extract_lets -underBinder +onlyGivenNames -merge x; with_reducible refine Keeps.cut (pq := pq) x ?_ (fun _ => ?_); rotate_left; clear_value x; rotate_left; subst x)
    | (extract_lets -underBinder +onlyGivenNames -merge x; subst x)
    | with_reducible apply State.closeWindow_keeps
    | with_reducible apply State.setWin_keeps
    | with_reducible apply State.count_keeps
    | with_reducible apply State.start_keeps
    | with_reducible apply State.raise_keeps
    | split
    | simp only [Keeps.upd]

theorem State.react_keeps {pq : List Instr} {s : State} {m : FaultMsg} {code : Nat} (hs : State.Keeps pq s) :
    State.Keeps pq (State.react s m code) := by
  unfold State.react
  repeat' first
    | with_reducible assumption
    | (extract_lets -underBinder +onlyGivenNames -merge x; with_reducible refine Keeps.cut (pq := pq) x ?_ (fun _ => ?_); rotate_left; clear_value x; rotate_left; subst x)
    | (extract_lets -underBinder +onlyGivenNames -merge x; subst x)
    | with_reducible apply State.orderRecovery_keeps
    | with_reducible apply State.orderHalt_keeps
    | with_reducible apply State.isolate_keeps
    | with_reducible apply State.coreRetry_keeps
    | with_reducible apply State.resetUnit_keeps
    | with_reducible apply State.lasting_keeps
    | split
    | simp only [Keeps.upd]

theorem State.accept_keeps {pq : List Instr} {s : State} {m : FaultMsg} {least : Nat} (hs : State.Keeps pq s) :
    State.Keeps pq (State.accept s m least) := by
  unfold State.accept
  repeat' first
    | with_reducible assumption
    | (rename_i e; with_reducible refine Keeps.ofSnd (pq := pq) e ?_ (fun _ => ?_) <;> clear e)
    | (rename_i e; with_reducible refine Keeps.ofFst (pq := pq) e ?_ (fun _ => ?_) <;> clear e)
    | (extract_lets -underBinder +onlyGivenNames -merge x; with_reducible refine Keeps.cut (pq := pq) x ?_ (fun _ => ?_); rotate_left; clear_value x; rotate_left; subst x)
    | (extract_lets -underBinder +onlyGivenNames -merge x; subst x)
    | with_reducible apply State.react_keeps
    | with_reducible apply State.countFault_keeps
    | with_reducible apply State.startTest_keeps
    | with_reducible apply State.keepRecord_keeps
    | with_reducible apply State.count_keeps
    | with_reducible apply State.raise_keeps
    | split
    | simp only [Keeps.upd]

theorem State.acceptNext_keeps {pq : List Instr} {s : State} (hs : State.Keeps pq s) :
    State.Keeps pq (State.acceptNext s) := by
  unfold State.acceptNext
  repeat' first
    | with_reducible assumption
    | with_reducible apply State.accept_keeps
    | split
    | simp only [Keeps.upd]

theorem State.windowEnd_keeps {pq : List Instr} {s : State} {src : Nat} (hs : State.Keeps pq s) :
    State.Keeps pq (State.windowEnd s src) := by
  unfold State.windowEnd
  repeat' first
    | with_reducible assumption
    | (extract_lets -underBinder +onlyGivenNames -merge x; with_reducible refine Keeps.cut (pq := pq) x ?_ (fun _ => ?_); rotate_left; clear_value x; rotate_left; subst x)
    | (extract_lets -underBinder +onlyGivenNames -merge x; subst x)
    | with_reducible apply State.closeWindow_keeps
    | with_reducible apply State.start_keeps
    | with_reducible apply State.advanceDts_keeps
    | split
    | simp only [Keeps.upd]

theorem State.snufHalt_keeps {pq : List Instr} {s : State} {m : Master} {v : Word} (hs : State.Keeps pq s) :
    State.Keeps pq (State.snufHalt s m v) := by
  unfold State.snufHalt
  repeat' first
    | with_reducible assumption
    | (rename_i e; with_reducible refine Keeps.ofSnd (pq := pq) e ?_ (fun _ => ?_) <;> clear e)
    | (rename_i e; with_reducible refine Keeps.ofFst (pq := pq) e ?_ (fun _ => ?_) <;> clear e)
    | with_reducible apply State.accept_keeps
    | split
    | simp only [Keeps.upd]

theorem State.flickerToggle_keeps {pq : List Instr} {s0 : State} (hs0 : State.Keeps pq s0) :
    State.Keeps pq (State.flickerToggle s0) := by
  unfold State.flickerToggle
  repeat' first
    | with_reducible assumption
    | (rename_i e; with_reducible refine Keeps.ofSnd (pq := pq) e ?_ (fun _ => ?_) <;> clear e)
    | (rename_i e; with_reducible refine Keeps.ofFst (pq := pq) e ?_ (fun _ => ?_) <;> clear e)
    | (extract_lets -underBinder +onlyGivenNames -merge x; with_reducible refine Keeps.cut (pq := pq) x ?_ (fun _ => ?_); rotate_left; clear_value x; rotate_left; subst x)
    | (extract_lets -underBinder +onlyGivenNames -merge x; subst x)
    | with_reducible apply State.raise_keeps
    | with_reducible apply State.advanceTo_keeps
    | (with_reducible refine forEach_keeps ?_ (fun _ _ _ => ?_))
    | intro _
    | split
    | simp only [Keeps.upd]

theorem State.lanternWatchdog_keeps {pq : List Instr} {s : State} (hs : State.Keeps pq s) :
    State.Keeps pq (State.lanternWatchdog s) := by
  unfold State.lanternWatchdog
  repeat' first
    | with_reducible assumption
    | with_reducible apply State.fault_keeps
    | with_reducible apply State.raise_keeps
    | split
    | simp only [Keeps.upd]

theorem State.snufRetest_keeps {pq : List Instr} {s : State} {m : Master} {v : Word} (hs : State.Keeps pq s) :
    State.Keeps pq (State.snufRetest s m v) := by
  unfold State.snufRetest
  repeat' first
    | with_reducible assumption
    | with_reducible apply State.startRetest_keeps
    | split
    | simp only [Keeps.upd]

theorem State.testEnds_keeps {pq : List Instr} {s : State} {r : Resource} {pass : Bool} (hs : State.Keeps pq s) :
    State.Keeps pq (State.testEnds s r pass) := by
  unfold State.testEnds
  repeat' first
    | with_reducible assumption
    | (extract_lets -underBinder +onlyGivenNames -merge x; with_reducible refine Keeps.cut (pq := pq) x ?_ (fun _ => ?_); rotate_left; clear_value x; rotate_left; subst x)
    | (extract_lets -underBinder +onlyGivenNames -merge x; subst x)
    | with_reducible apply State.selfTestEnd_keeps
    | with_reducible apply State.retestEnd_keeps
    | with_reducible apply State.advanceTo_keeps
    | with_reducible apply State.pass_keeps
    | split
    | simp only [Keeps.upd]

theorem State.channelSpared_keeps {pq : List Instr} {s : State} {st : Fin 2} {pc : Fin 32} (hs : State.Keeps pq s) :
    State.Keeps pq (State.channelSpared s st pc) := by
  unfold State.channelSpared
  repeat' first
    | with_reducible assumption
    | (extract_lets -underBinder +onlyGivenNames -merge x; with_reducible refine Keeps.cut (pq := pq) x ?_ (fun _ => ?_); rotate_left; clear_value x; rotate_left; subst x)
    | (extract_lets -underBinder +onlyGivenNames -merge x; subst x)
    | with_reducible apply State.retirementRecord_keeps
    | with_reducible apply State.outcome_keeps
    | with_reducible apply State.fault_keeps
    | with_reducible apply State.raise_keeps
    | split
    | simp only [Keeps.upd]

theorem State.testUnlock_keeps {pq : List Instr} {s : State} {m : Master} {v : Word} (hs : State.Keeps pq s) :
    State.Keeps pq (State.testUnlock s m v) := by
  unfold State.testUnlock
  repeat' first
    | with_reducible assumption
    | (extract_lets -underBinder +onlyGivenNames -merge x; with_reducible refine Keeps.cut (pq := pq) x ?_ (fun _ => ?_); rotate_left; clear_value x; rotate_left; subst x)
    | (extract_lets -underBinder +onlyGivenNames -merge x; subst x)
    | with_reducible apply State.raise_keeps
    | split
    | simp only [Keeps.upd]

theorem State.testTouched_keeps {pq : List Instr} {s : State} (hs : State.Keeps pq s) :
    State.Keeps pq (State.testTouched s) := by
  unfold State.testTouched
  repeat' first
    | with_reducible assumption
    | simp only [Keeps.upd]

theorem State.testInject_keeps {pq : List Instr} {s : State} {m : Master} {v : Word} (hs : State.Keeps pq s) :
    State.Keeps pq (State.testInject s m v) := by
  unfold State.testInject
  repeat' first
    | with_reducible assumption
    | (extract_lets -underBinder +onlyGivenNames -merge x; with_reducible refine Keeps.cut (pq := pq) x ?_ (fun _ => ?_); rotate_left; clear_value x; rotate_left; subst x)
    | (extract_lets -underBinder +onlyGivenNames -merge x; subst x)
    | with_reducible apply State.testTouched_keeps
    | with_reducible apply State.fault_keeps
    | with_reducible apply State.setReg_keeps
    | split

theorem State.icuClaim_keeps {pq : List Instr} {s : State} {t : Fin 14} (hs : State.Keeps pq s) :
    State.Keeps pq (State.icuClaim s t) := by
  unfold State.icuClaim
  repeat' first
    | with_reducible assumption
    | (extract_lets -underBinder +onlyGivenNames -merge x; with_reducible refine Keeps.cut (pq := pq) x ?_ (fun _ => ?_); rotate_left; clear_value x; rotate_left; subst x)
    | (extract_lets -underBinder +onlyGivenNames -merge x; subst x)
    | with_reducible apply State.hostCheck_keeps
    | with_reducible apply State.setRd_keeps
    | split
    | simp only [Keeps.upd]

theorem State.icuCompleteWrite_keeps {pq : List Instr} {s : State} {t : Fin 14} {v : Word} (hs : State.Keeps pq s) :
    State.Keeps pq (State.icuCompleteWrite s t v) := by
  unfold State.icuCompleteWrite
  repeat' first
    | with_reducible assumption
    | (extract_lets -underBinder +onlyGivenNames -merge x; with_reducible refine Keeps.cut (pq := pq) x ?_ (fun _ => ?_); rotate_left; clear_value x; rotate_left; subst x)
    | (extract_lets -underBinder +onlyGivenNames -merge x; subst x)
    | with_reducible apply State.settleSchemes_keeps
    | with_reducible apply State.fault_keeps
    | with_reducible apply State.raise_keeps
    | split
    | simp only [Keeps.upd]

theorem State.icuBits_keeps {pq : List Instr} {s : State} {pend mask : BitVec 1024 → BitVec 1024} (hs : State.Keeps pq s) :
    State.Keeps pq (State.icuBits s pend mask) := by
  unfold State.icuBits
  repeat' first
    | with_reducible assumption
    | with_reducible apply State.hostCheck_keeps
    | simp only [Keeps.upd]

theorem State.recordFails_keeps {pq : List Instr} {s : State} {a : Nat} (hs : State.Keeps pq s) :
    State.Keeps pq (State.recordFails s a) := by
  unfold State.recordFails
  repeat' first
    | with_reducible assumption
    | (extract_lets -underBinder +onlyGivenNames -merge x; with_reducible refine Keeps.cut (pq := pq) x ?_ (fun _ => ?_); rotate_left; clear_value x; rotate_left; subst x)
    | (extract_lets -underBinder +onlyGivenNames -merge x; subst x)
    | with_reducible apply State.raise_keeps
    | with_reducible apply State.loseRecord_keeps
    | split
    | simp only [Keeps.upd]

theorem State.faultArrives_keeps {pq : List Instr} {s : State} {src kind addr : Nat} (hs : State.Keeps pq s) :
    State.Keeps pq (State.faultArrives s src kind addr) := by
  unfold State.faultArrives
  repeat' first
    | with_reducible assumption
    | with_reducible apply State.swcStruck_keeps
    | with_reducible apply State.trfStruck_keeps
    | with_reducible apply State.clusterStruck_keeps
    | with_reducible apply State.recordFails_keeps
    | (rename_i e; with_reducible refine Keeps.ofSnd (pq := pq) e ?_ (fun _ => ?_) <;> clear e)
    | (rename_i e; with_reducible refine Keeps.ofFst (pq := pq) e ?_ (fun _ => ?_) <;> clear e)
    | (extract_lets -underBinder +onlyGivenNames -merge x; with_reducible refine Keeps.cut (pq := pq) x ?_ (fun _ => ?_); rotate_left; clear_value x; rotate_left; subst x)
    | (extract_lets -underBinder +onlyGivenNames -merge x; subst x)
    | with_reducible apply State.coreFault_keeps
    | with_reducible apply State.setCore_keeps
    | with_reducible apply State.fault_keeps
    | intro _
    | split
    | simp only [Keeps.upd]

theorem execFaultMessage_keeps {pq : List Instr} {m : Option FaultIn} {s : State} (hs : State.Keeps pq s) :
    KeepsO pq (execFaultMessage m s) := by
  unfold execFaultMessage
  repeat' first
    | with_reducible assumption
    | (extract_lets -underBinder +onlyGivenNames -merge x; with_reducible refine Keeps.cut (pq := pq) x ?_ (fun _ => ?_); rotate_left; clear_value x; rotate_left; subst x)
    | (extract_lets -underBinder +onlyGivenNames -merge x; subst x)
    | with_reducible apply KeepsO.mk
    | with_reducible apply State.faultArrives_keeps
    | with_reducible apply State.acceptNext_keeps
    | split
    | simp only [Keeps.upd]

theorem execSeverityWindowEnd_keeps {pq : List Instr} {src : Fin 256} {s : State} (hs : State.Keeps pq s) :
    KeepsO pq (execSeverityWindowEnd src s) := by
  unfold execSeverityWindowEnd
  repeat' first
    | with_reducible assumption
    | with_reducible apply KeepsO.mk
    | with_reducible apply State.windowEnd_keeps

theorem execSelfTestEnd_keeps {pq : List Instr} {r : Resource} {pass : Bool} {s : State} (hs : State.Keeps pq s) :
    KeepsO pq (execSelfTestEnd r pass s) := by
  unfold execSelfTestEnd
  repeat' first
    | with_reducible assumption
    | with_reducible apply KeepsO.mk
    | with_reducible apply State.testEnds_keeps
    | with_reducible apply State.pass_keeps

theorem execUnitResetEnd_keeps {pq : List Instr} {u : UnitId} {s : State} (hs : State.Keeps pq s) :
    KeepsO pq (execUnitResetEnd u s) := by
  unfold execUnitResetEnd
  repeat' first
    | with_reducible assumption
    | with_reducible apply KeepsO.mk
    | with_reducible apply State.unitResetEnd_keeps
    | split
    | simp only [Keeps.upd]

theorem execCoreResetEnd_keeps {pq : List Instr} {c : Fin 8} {pass : Bool} {s : State} (hs : State.Keeps pq s) :
    KeepsO pq (execCoreResetEnd c pass s) := by
  unfold execCoreResetEnd
  repeat' first
    | with_reducible assumption
    | with_reducible apply KeepsO.mk
    | with_reducible apply State.coreResetEnd_keeps
    | with_reducible apply State.pass_keeps
    | split

theorem execCoreLeavesService_keeps {pq : List Instr} {c : Fin 8} {retired : Bool} {s : State} (hs : State.Keeps pq s) :
    KeepsO pq (execCoreLeavesService c retired s) := by
  unfold execCoreLeavesService
  repeat' first
    | with_reducible assumption
    | with_reducible apply KeepsO.mk
    | with_reducible apply State.resetUnit_keeps
    | with_reducible apply State.lasting_keeps
    | split
    | simp only [Keeps.upd]

theorem execLamplighterStall_keeps {pq : List Instr} {k : Fin 4} {c : Fin 64} {s : State} (hs : State.Keeps pq s) :
    KeepsO pq (execLamplighterStall k c s) := by
  unfold execLamplighterStall
  repeat' first
    | with_reducible assumption
    | with_reducible apply KeepsO.mk
    | with_reducible apply State.fault_keeps
    | split

theorem execLaneFault_keeps {pq : List Instr} {n : Fin 16} {s : State} (hs : State.Keeps pq s) :
    KeepsO pq (execLaneFault n s) := by
  unfold execLaneFault
  repeat' first
    | with_reducible assumption
    | with_reducible apply KeepsO.mk
    | with_reducible apply State.fault_keeps
    | split
    | simp only [Keeps.upd]

theorem execRecoveryEnd_keeps {pq : List Instr} {s : State} (hs : State.Keeps pq s) :
    KeepsO pq (execRecoveryEnd s) := by
  unfold execRecoveryEnd
  repeat' first
    | with_reducible assumption
    | with_reducible apply KeepsO.mk
    | with_reducible apply State.planChange_keeps
    | with_reducible apply State.leaveRecovery_keeps
    | split
    | simp only [Keeps.upd]

theorem execRecoveryTimeout_keeps {pq : List Instr} {s : State} (hs : State.Keeps pq s) :
    KeepsO pq (execRecoveryTimeout s) := by
  unfold execRecoveryTimeout
  repeat' first
    | with_reducible assumption
    | (rename_i e; with_reducible refine Keeps.ofSnd (pq := pq) e ?_ (fun _ => ?_) <;> clear e)
    | (rename_i e; with_reducible refine Keeps.ofFst (pq := pq) e ?_ (fun _ => ?_) <;> clear e)
    | (extract_lets -underBinder +onlyGivenNames -merge x; with_reducible refine Keeps.cut (pq := pq) x ?_ (fun _ => ?_); rotate_left; clear_value x; rotate_left; subst x)
    | (extract_lets -underBinder +onlyGivenNames -merge x; subst x)
    | with_reducible apply KeepsO.mk
    | with_reducible apply State.orderHalt_keeps
    | with_reducible apply State.keepRecord_keeps
    | with_reducible apply State.advanceTo_keeps
    | split
    | simp only [Keeps.upd]

theorem execSnufHalt_keeps {pq : List Instr} {m : Master} {v : Word} {s : State} (hs : State.Keeps pq s) :
    KeepsO pq (execSnufHalt m v s) := by
  unfold execSnufHalt
  repeat' first
    | with_reducible assumption
    | with_reducible apply KeepsO.mk
    | with_reducible apply State.snufHalt_keeps

theorem execSnufFirstClear_keeps {pq : List Instr} {m : Master} {v : Word} {s : State} (hs : State.Keeps pq s) :
    KeepsO pq (execSnufFirstClear m v s) := by
  unfold execSnufFirstClear
  repeat' first
    | with_reducible assumption
    | with_reducible apply KeepsO.mk
    | split
    | simp only [Keeps.upd]

theorem execSnufRetest_keeps {pq : List Instr} {m : Master} {v : Word} {s : State} (hs : State.Keeps pq s) :
    KeepsO pq (execSnufRetest m v s) := by
  unfold execSnufRetest
  repeat' first
    | with_reducible assumption
    | with_reducible apply KeepsO.mk
    | with_reducible apply State.snufRetest_keeps

theorem execSnufCorrectedRead_keeps {pq : List Instr} {s : State} (hs : State.Keeps pq s) :
    KeepsO pq (execSnufCorrectedRead s) := by
  unfold execSnufCorrectedRead
  repeat' first
    | with_reducible assumption
    | with_reducible apply KeepsO.mk
    | with_reducible apply State.setRd_keeps
    | split
    | simp only [Keeps.upd]

theorem State.scrubBank_keeps {pq : List Instr} {s : State} {b w : Nat} (hs : State.Keeps pq s) :
    State.Keeps pq (State.scrubBank s b w) := by
  unfold State.scrubBank
  repeat' first
    | with_reducible assumption
    | (rename_i e; with_reducible refine Keeps.ofSnd (pq := pq) e ?_ (fun _ => ?_) <;> clear e)
    | (rename_i e; with_reducible refine Keeps.ofFst (pq := pq) e ?_ (fun _ => ?_) <;> clear e)
    | (extract_lets -underBinder +onlyGivenNames -merge x; with_reducible refine Keeps.cut (pq := pq) x ?_ (fun _ => ?_); rotate_left; clear_value x; rotate_left; subst x)
    | (extract_lets -underBinder +onlyGivenNames -merge x; subst x)
    | with_reducible apply State.fault_keeps
    | intro _
    | split
    | simp only [Keeps.upd]

theorem execPatrolScrub_keeps {pq : List Instr} {bank : Option (Fin 16)} {a : Nat} {s : State} (hs : State.Keeps pq s) :
    KeepsO pq (execPatrolScrub bank a s) := by
  unfold execPatrolScrub
  repeat' first
    | with_reducible assumption
    | with_reducible apply KeepsO.mk
    | (rename_i e; with_reducible refine Keeps.ofSnd (pq := pq) e ?_ (fun _ => ?_) <;> clear e)
    | (rename_i e; with_reducible refine Keeps.ofFst (pq := pq) e ?_ (fun _ => ?_) <;> clear e)
    | with_reducible apply State.scrubBank_keeps
    | with_reducible apply State.devRead_keeps
    | intro _
    | split
    | simp only [Keeps.upd]

theorem execFlickerToggle_keeps {pq : List Instr} {s : State} (hs : State.Keeps pq s) :
    KeepsO pq (execFlickerToggle s) := by
  unfold execFlickerToggle
  repeat' first
    | with_reducible assumption
    | with_reducible apply KeepsO.mk
    | with_reducible apply State.flickerToggle_keeps

theorem execLanternWatchdog_keeps {pq : List Instr} {s : State} (hs : State.Keeps pq s) :
    KeepsO pq (execLanternWatchdog s) := by
  unfold execLanternWatchdog
  repeat' first
    | with_reducible assumption
    | with_reducible apply KeepsO.mk
    | with_reducible apply State.lanternWatchdog_keeps

theorem execPseudoChannelSpared_keeps {pq : List Instr} {st : Fin 2} {pc : Fin 32} {s : State} (hs : State.Keeps pq s) :
    KeepsO pq (execPseudoChannelSpared st pc s) := by
  unfold execPseudoChannelSpared
  repeat' first
    | with_reducible assumption
    | with_reducible apply KeepsO.mk
    | with_reducible apply State.channelSpared_keeps

theorem execTestUnlock_keeps {pq : List Instr} {m : Master} {v : Word} {s : State} (hs : State.Keeps pq s) :
    KeepsO pq (execTestUnlock m v s) := by
  unfold execTestUnlock
  repeat' first
    | with_reducible assumption
    | with_reducible apply KeepsO.mk
    | with_reducible apply State.testUnlock_keeps

theorem execTestInjGo_keeps {pq : List Instr} {m : Master} {v : Word} {s : State} (hs : State.Keeps pq s) :
    KeepsO pq (execTestInjGo m v s) := by
  unfold execTestInjGo
  repeat' first
    | with_reducible assumption
    | with_reducible apply KeepsO.mk
    | with_reducible apply State.testInject_keeps

theorem execIcuClaimRead_keeps {pq : List Instr} {t : Fin 14} {s : State} (hs : State.Keeps pq s) :
    KeepsO pq (execIcuClaimRead t s) := by
  unfold execIcuClaimRead
  repeat' first
    | with_reducible assumption
    | with_reducible apply KeepsO.mk
    | with_reducible apply State.icuClaim_keeps
    | with_reducible apply State.setRd_keeps
    | split

theorem execIcuComplete_keeps {pq : List Instr} {t : Fin 14} {v : Word} {s : State} (hs : State.Keeps pq s) :
    KeepsO pq (execIcuComplete t v s) := by
  unfold execIcuComplete
  repeat' first
    | with_reducible assumption
    | with_reducible apply KeepsO.mk
    | with_reducible apply State.icuCompleteWrite_keeps
    | split

theorem execIcuPendSet_keeps {pq : List Instr} {w : Fin 32} {v : Word} {s : State} (hs : State.Keeps pq s) :
    KeepsO pq (execIcuPendSet w v s) := by
  unfold execIcuPendSet
  repeat' first
    | with_reducible assumption
    | with_reducible apply KeepsO.mk
    | with_reducible apply State.icuBits_keeps
    | split

theorem execIcuPendClr_keeps {pq : List Instr} {w : Fin 32} {v : Word} {s : State} (hs : State.Keeps pq s) :
    KeepsO pq (execIcuPendClr w v s) := by
  unfold execIcuPendClr
  repeat' first
    | with_reducible assumption
    | with_reducible apply KeepsO.mk
    | with_reducible apply State.icuBits_keeps
    | split

theorem execIcuMaskSet_keeps {pq : List Instr} {w : Fin 32} {v : Word} {s : State} (hs : State.Keeps pq s) :
    KeepsO pq (execIcuMaskSet w v s) := by
  unfold execIcuMaskSet
  repeat' first
    | with_reducible assumption
    | with_reducible apply KeepsO.mk
    | with_reducible apply State.icuBits_keeps
    | split

theorem execIcuMaskClr_keeps {pq : List Instr} {w : Fin 32} {v : Word} {s : State} (hs : State.Keeps pq s) :
    KeepsO pq (execIcuMaskClr w v s) := by
  unfold execIcuMaskClr
  repeat' first
    | with_reducible assumption
    | with_reducible apply KeepsO.mk
    | with_reducible apply State.icuBits_keeps
    | split

theorem State.linkDown_keeps {pq : List Instr} {s : State} (hs : State.Keeps pq s) :
    State.Keeps pq (State.linkDown s) := by
  unfold State.linkDown
  repeat' first
    | with_reducible assumption
    | with_reducible apply State.declareHostLoss_keeps
    | with_reducible apply State.fault_keeps
    | split
    | simp only [Keeps.upd]

theorem State.linkTrains_keeps {pq : List Instr} {s : State} {width speed : Nat} (hs : State.Keeps pq s) :
    State.Keeps pq (State.linkTrains s width speed) := by
  unfold State.linkTrains
  repeat' first
    | with_reducible assumption
    | split
    | simp only [Keeps.upd]

theorem State.beat_keeps {pq : List Instr} {s : State} {f : Nat} (hs : State.Keeps pq s) :
    State.Keeps pq (State.beat s f) := by
  unfold State.beat
  repeat' first
    | with_reducible assumption
    | simp only [Keeps.upd]

theorem State.hostTimeout_keeps {pq : List Instr} {s : State} (hs : State.Keeps pq s) :
    State.Keeps pq (State.hostTimeout s) := by
  unfold State.hostTimeout
  repeat' first
    | with_reducible assumption
    | with_reducible apply State.declareHostLoss_keeps
    | with_reducible apply State.advanceTo_keeps
    | split

theorem State.vfBeat_keeps {pq : List Instr} {s : State} {f : Nat} (hs : State.Keeps pq s) :
    State.Keeps pq (State.vfBeat s f) := by
  unfold State.vfBeat
  repeat' first
    | with_reducible assumption
    | (extract_lets -underBinder +onlyGivenNames -merge x; with_reducible refine Keeps.cut (pq := pq) x ?_ (fun _ => ?_); rotate_left; clear_value x; rotate_left; subst x)
    | (extract_lets -underBinder +onlyGivenNames -merge x; subst x)
    | with_reducible apply State.beat_keeps
    | with_reducible apply State.resumeQueues_keeps
    | intro _
    | split
    | simp only [Keeps.upd]

theorem State.vfTimeout_keeps {pq : List Instr} {s : State} {f : Nat} (hs : State.Keeps pq s) :
    State.Keeps pq (State.vfTimeout s f) := by
  unfold State.vfTimeout
  repeat' first
    | with_reducible assumption
    | (rename_i e; with_reducible refine Keeps.ofSnd (pq := pq) e ?_ (fun _ => ?_) <;> clear e)
    | (rename_i e; with_reducible refine Keeps.ofFst (pq := pq) e ?_ (fun _ => ?_) <;> clear e)
    | (extract_lets -underBinder +onlyGivenNames -merge x; with_reducible refine Keeps.cut (pq := pq) x ?_ (fun _ => ?_); rotate_left; clear_value x; rotate_left; subst x)
    | (extract_lets -underBinder +onlyGivenNames -merge x; subst x)
    | with_reducible apply State.freezeQueues_keeps
    | with_reducible apply State.raise_keeps
    | with_reducible apply State.advanceTo_keeps
    | intro _
    | split
    | simp only [Keeps.upd]

theorem State.createAdmin_keeps {pq : List Instr} {s : State} {f : Nat} (hs : State.Keeps pq s) :
    State.Keeps pq (State.createAdmin s f) := by
  unfold State.createAdmin
  repeat' first
    | with_reducible assumption
    | (rename_i e; with_reducible refine Keeps.ofSnd (pq := pq) e ?_ (fun _ => ?_) <;> clear e)
    | (rename_i e; with_reducible refine Keeps.ofFst (pq := pq) e ?_ (fun _ => ?_) <;> clear e)
    | with_reducible apply State.setCq_keeps
    | with_reducible apply State.setSq_keeps
    | split
    | simp only [Keeps.upd]

theorem State.adminEnable_keeps {pq : List Instr} {s : State} {f : Nat} (hs : State.Keeps pq s) :
    State.Keeps pq (State.adminEnable s f) := by
  unfold State.adminEnable
  repeat' first
    | with_reducible assumption
    | (rename_i e; with_reducible refine Keeps.ofSnd (pq := pq) e ?_ (fun _ => ?_) <;> clear e)
    | (rename_i e; with_reducible refine Keeps.ofFst (pq := pq) e ?_ (fun _ => ?_) <;> clear e)
    | (extract_lets -underBinder +onlyGivenNames -merge x; with_reducible refine Keeps.cut (pq := pq) x ?_ (fun _ => ?_); rotate_left; clear_value x; rotate_left; subst x)
    | (extract_lets -underBinder +onlyGivenNames -merge x; subst x)
    | with_reducible apply State.createAdmin_keeps
    | with_reducible apply State.setReg_keeps
    | split
    | simp only [Keeps.upd]

theorem State.adminReady_keeps {pq : List Instr} {s : State} {f : Nat} (hs : State.Keeps pq s) :
    State.Keeps pq (State.adminReady s f) := by
  unfold State.adminReady
  repeat' first
    | with_reducible assumption
    | (rename_i e; with_reducible refine Keeps.ofSnd (pq := pq) e ?_ (fun _ => ?_) <;> clear e)
    | (rename_i e; with_reducible refine Keeps.ofFst (pq := pq) e ?_ (fun _ => ?_) <;> clear e)
    | (extract_lets -underBinder +onlyGivenNames -merge x; with_reducible refine Keeps.cut (pq := pq) x ?_ (fun _ => ?_); rotate_left; clear_value x; rotate_left; subst x)
    | (extract_lets -underBinder +onlyGivenNames -merge x; subst x)
    | with_reducible apply State.createAdmin_keeps
    | split
    | simp only [Keeps.upd]

theorem State.adminReset_keeps {pq : List Instr} {s : State} {f : Nat} (hs : State.Keeps pq s) :
    State.Keeps pq (State.adminReset s f) := by
  unfold State.adminReset
  repeat' first
    | with_reducible assumption
    | with_reducible apply State.resetFunction_keeps
    | simp only [Keeps.upd]

theorem State.adminDisable_keeps {pq : List Instr} {s : State} {f : Nat} (hs : State.Keeps pq s) :
    State.Keeps pq (State.adminDisable s f) := by
  unfold State.adminDisable
  repeat' first
    | with_reducible assumption
    | with_reducible apply State.adminReset_keeps
    | with_reducible apply State.setReg_keeps
    | split

theorem State.flr_keeps {pq : List Instr} {s : State} {f : Nat} (hs : State.Keeps pq s) :
    State.Keeps pq (State.flr s f) := by
  unfold State.flr
  repeat' first
    | with_reducible assumption
    | (extract_lets -underBinder +onlyGivenNames -merge x; with_reducible refine Keeps.cut (pq := pq) x ?_ (fun _ => ?_); rotate_left; clear_value x; rotate_left; subst x)
    | (extract_lets -underBinder +onlyGivenNames -merge x; subst x)
    | with_reducible apply State.adminReset_keeps
    | with_reducible apply State.clearRegs_keeps
    | split
    | simp only [Keeps.upd]

theorem execPcieLinkDown_keeps {pq : List Instr} {s : State} (hs : State.Keeps pq s) :
    KeepsO pq (execPcieLinkDown s) := by
  unfold execPcieLinkDown
  repeat' first
    | with_reducible assumption
    | with_reducible apply KeepsO.mk
    | with_reducible apply State.linkDown_keeps

theorem execPcieLinkUp_keeps {pq : List Instr} {width : Fin 17} {speed : Fin 6} {s : State} (hs : State.Keeps pq s) :
    KeepsO pq (execPcieLinkUp width speed s) := by
  unfold execPcieLinkUp
  repeat' first
    | with_reducible assumption
    | with_reducible apply KeepsO.mk
    | with_reducible apply State.linkTrains_keeps

theorem execPciePerstNAssert_keeps {pq : List Instr} {s : State} (hs : State.Keeps pq s) :
    KeepsO pq (execPciePerstNAssert s) := by
  unfold execPciePerstNAssert
  repeat' first
    | with_reducible assumption
    | with_reducible apply KeepsO.mk
    | with_reducible apply State.linkDown_keeps
    | with_reducible apply State.declareHostLoss_keeps
    | simp only [Keeps.upd]

theorem execQmgrHeartbeat_keeps {pq : List Instr} {m : Master} {_v : Word} {s : State} (hs : State.Keeps pq s) :
    KeepsO pq (execQmgrHeartbeat m _v s) := by
  unfold execQmgrHeartbeat
  repeat' first
    | with_reducible assumption
    | with_reducible apply KeepsO.mk
    | with_reducible apply State.beat_keeps
    | split

theorem execHeartbeatTimeout_keeps {pq : List Instr} {s : State} (hs : State.Keeps pq s) :
    KeepsO pq (execHeartbeatTimeout s) := by
  unfold execHeartbeatTimeout
  repeat' first
    | with_reducible assumption
    | with_reducible apply KeepsO.mk
    | with_reducible apply State.hostTimeout_keeps

theorem execVfHeartbeat_keeps {pq : List Instr} {f : Fin 16} {_v : Word} {s : State} (hs : State.Keeps pq s) :
    KeepsO pq (execVfHeartbeat f _v s) := by
  unfold execVfHeartbeat
  repeat' first
    | with_reducible assumption
    | with_reducible apply KeepsO.mk
    | with_reducible apply State.vfBeat_keeps
    | split

theorem execVfHeartbeatTimeout_keeps {pq : List Instr} {f : Fin 16} {s : State} (hs : State.Keeps pq s) :
    KeepsO pq (execVfHeartbeatTimeout f s) := by
  unfold execVfHeartbeatTimeout
  repeat' first
    | with_reducible assumption
    | with_reducible apply KeepsO.mk
    | with_reducible apply State.vfTimeout_keeps

theorem execFunctionLevelReset_keeps {pq : List Instr} {f : Fin 16} {s : State} (hs : State.Keeps pq s) :
    KeepsO pq (execFunctionLevelReset f s) := by
  unfold execFunctionLevelReset
  repeat' first
    | with_reducible assumption
    | with_reducible apply KeepsO.mk
    | with_reducible apply State.flr_keeps

theorem execAdminQueueEnable_keeps {pq : List Instr} {f : Fin 16} {s : State} (hs : State.Keeps pq s) :
    KeepsO pq (execAdminQueueEnable f s) := by
  unfold execAdminQueueEnable
  repeat' first
    | with_reducible assumption
    | with_reducible apply KeepsO.mk
    | with_reducible apply State.adminEnable_keeps

theorem execAdminQueueDisable_keeps {pq : List Instr} {f : Fin 16} {s : State} (hs : State.Keeps pq s) :
    KeepsO pq (execAdminQueueDisable f s) := by
  unfold execAdminQueueDisable
  repeat' first
    | with_reducible assumption
    | with_reducible apply KeepsO.mk
    | with_reducible apply State.adminDisable_keeps

theorem execAdminQueueReady_keeps {pq : List Instr} {f : Fin 16} {s : State} (hs : State.Keeps pq s) :
    KeepsO pq (execAdminQueueReady f s) := by
  unfold execAdminQueueReady
  repeat' first
    | with_reducible assumption
    | with_reducible apply KeepsO.mk
    | with_reducible apply State.adminReady_keeps

theorem State.handover_keeps {pq : List Instr} {s : State} {m : Master} {v : Word} {action : Nat} (hs : State.Keeps pq s) :
    State.Keeps pq (State.handover s m v action) := by
  unfold State.handover
  repeat' first
    | with_reducible assumption
    | split
    | simp only [Keeps.upd]

theorem execHandoverResume_keeps {pq : List Instr} {m : Master} {v : Word} {s : State} (hs : State.Keeps pq s) :
    KeepsO pq (execHandoverResume m v s) := by
  unfold execHandoverResume
  repeat' first
    | with_reducible assumption
    | with_reducible apply KeepsO.mk
    | with_reducible apply State.handover_keeps

theorem execHandoverReset_keeps {pq : List Instr} {m : Master} {v : Word} {s : State} (hs : State.Keeps pq s) :
    KeepsO pq (execHandoverReset m v s) := by
  unfold execHandoverReset
  repeat' first
    | with_reducible assumption
    | with_reducible apply KeepsO.mk
    | with_reducible apply State.handover_keeps

theorem State.startBoot_keeps {pq : List Instr} {s : State} {step : Nat} {cause : ModeCause} (hs : State.Keeps pq s) :
    State.Keeps pq (State.startBoot s step cause) := by
  unfold State.startBoot
  repeat' first
    | with_reducible assumption
    | (extract_lets -underBinder +onlyGivenNames -merge x; with_reducible refine Keeps.cut (pq := pq) x ?_ (fun _ => ?_); rotate_left; clear_value x; rotate_left; subst x)
    | (extract_lets -underBinder +onlyGivenNames -merge x; subst x)
    | with_reducible apply State.logMode_keeps
    | split
    | simp only [Keeps.upd]

theorem State.releaseStart_keeps {pq : List Instr} {s : State} {straps : BitVec 4} (hs : State.Keeps pq s) :
    State.Keeps pq (State.releaseStart s straps) := by
  unfold State.releaseStart
  repeat' first
    | with_reducible assumption
    | with_reducible apply State.startBoot_keeps
    | intro _
    | simp only [Keeps.upd]

theorem State.wakeBy_keeps {pq : List Instr} {s : State} {src : Nat} (hs : State.Keeps pq s) :
    State.Keeps pq (State.wakeBy s src) := by
  unfold State.wakeBy
  repeat' first
    | with_reducible assumption
    | (extract_lets -underBinder +onlyGivenNames -merge x; with_reducible refine Keeps.cut (pq := pq) x ?_ (fun _ => ?_); rotate_left; clear_value x; rotate_left; subst x)
    | (extract_lets -underBinder +onlyGivenNames -merge x; subst x)
    | with_reducible apply State.startBoot_keeps
    | split
    | simp only [Keeps.upd]

theorem State.pilotSource_keeps {pq : List Instr} {s : State} {src : Nat} (hs : State.Keeps pq s) :
    State.Keeps pq (State.pilotSource s src) := by
  unfold State.pilotSource
  repeat' first
    | with_reducible assumption
    | with_reducible apply State.wakeBy_keeps
    | with_reducible apply State.raise_keeps
    | split

theorem State.takeTemp_keeps {pq : List Instr} {s : State} {k : Nat} {t : Option Int} (hs : State.Keeps pq s) :
    State.Keeps pq (State.takeTemp s k t) := by
  unfold State.takeTemp
  repeat' first
    | with_reducible assumption
    | (extract_lets -underBinder +onlyGivenNames -merge x; with_reducible refine Keeps.cut (pq := pq) x ?_ (fun _ => ?_); rotate_left; clear_value x; rotate_left; subst x)
    | (extract_lets -underBinder +onlyGivenNames -merge x; subst x)
    | with_reducible apply State.fault_keeps
    | with_reducible apply State.raise_keeps
    | split
    | simp only [Keeps.upd]

theorem State.takeReading_keeps {pq : List Instr} {s : State} {r : SensorReading} (hs : State.Keeps pq s) :
    State.Keeps pq (State.takeReading s r) := by
  unfold State.takeReading
  repeat' first
    | with_reducible assumption
    | (extract_lets -underBinder +onlyGivenNames -merge x; with_reducible refine Keeps.cut (pq := pq) x ?_ (fun _ => ?_); rotate_left; clear_value x; rotate_left; subst x)
    | (extract_lets -underBinder +onlyGivenNames -merge x; subst x)
    | with_reducible apply State.takeTemp_keeps
    | (with_reducible refine forEach_keeps ?_ (fun _ _ _ => ?_))
    | intro _
    | split
    | simp only [Keeps.upd]

theorem State.capBegins_keeps {pq : List Instr} {s : State} {thermal : Bool} {address : Nat} (hs : State.Keeps pq s) :
    State.Keeps pq (State.capBegins s thermal address) := by
  unfold State.capBegins
  repeat' first
    | with_reducible assumption
    | (extract_lets -underBinder +onlyGivenNames -merge x; with_reducible refine Keeps.cut (pq := pq) x ?_ (fun _ => ?_); rotate_left; clear_value x; rotate_left; subst x)
    | (extract_lets -underBinder +onlyGivenNames -merge x; subst x)
    | with_reducible apply State.enterMode_keeps
    | with_reducible apply State.gateForCap_keeps
    | with_reducible apply State.platformEvent_keeps
    | with_reducible apply State.fault_keeps
    | with_reducible apply State.raise_keeps
    | split
    | simp only [Keeps.upd]

theorem State.checkCaps_keeps {pq : List Instr} {s : State} (hs : State.Keeps pq s) :
    State.Keeps pq (State.checkCaps s) := by
  unfold State.checkCaps
  repeat' first
    | with_reducible assumption
    | (extract_lets -underBinder +onlyGivenNames -merge x; with_reducible refine Keeps.cut (pq := pq) x ?_ (fun _ => ?_); rotate_left; clear_value x; rotate_left; subst x)
    | (extract_lets -underBinder +onlyGivenNames -merge x; subst x)
    | with_reducible apply State.capBegins_keeps
    | split
    | simp only [Keeps.upd]

theorem State.trackCaps_keeps {pq : List Instr} {s : State} (hs : State.Keeps pq s) :
    State.Keeps pq (State.trackCaps s) := by
  unfold State.trackCaps
  repeat' first
    | with_reducible assumption
    | (extract_lets -underBinder +onlyGivenNames -merge x; with_reducible refine Keeps.cut (pq := pq) x ?_ (fun _ => ?_); rotate_left; clear_value x; rotate_left; subst x)
    | (extract_lets -underBinder +onlyGivenNames -merge x; subst x)
    | split
    | simp only [Keeps.upd]

theorem State.checkTherm_keeps {pq : List Instr} {s : State} (hs : State.Keeps pq s) :
    State.Keeps pq (State.checkTherm s) := by
  unfold State.checkTherm
  repeat' first
    | with_reducible assumption
    | (extract_lets -underBinder +onlyGivenNames -merge x; with_reducible refine Keeps.cut (pq := pq) x ?_ (fun _ => ?_); rotate_left; clear_value x; rotate_left; subst x)
    | (extract_lets -underBinder +onlyGivenNames -merge x; subst x)
    | with_reducible apply State.platformEvent_keeps
    | with_reducible apply State.fault_keeps
    | with_reducible apply State.raise_keeps
    | split
    | simp only [Keeps.upd]

theorem State.sample_keeps {pq : List Instr} {s : State} {r : SensorReading} (hs : State.Keeps pq s) :
    State.Keeps pq (State.sample s r) := by
  unfold State.sample
  repeat' first
    | with_reducible assumption
    | (extract_lets -underBinder +onlyGivenNames -merge x; with_reducible refine Keeps.cut (pq := pq) x ?_ (fun _ => ?_); rotate_left; clear_value x; rotate_left; subst x)
    | (extract_lets -underBinder +onlyGivenNames -merge x; subst x)
    | with_reducible apply State.checkTherm_keeps
    | with_reducible apply State.trackCaps_keeps
    | with_reducible apply State.checkCaps_keeps
    | with_reducible apply State.takeReading_keeps
    | with_reducible apply State.toPilot_keeps
    | split
    | simp only [Keeps.upd]

theorem State.endCap_keeps {pq : List Instr} {s : State} {thermal : Bool} (hs : State.Keeps pq s) :
    State.Keeps pq (State.endCap s thermal) := by
  unfold State.endCap
  repeat' first
    | with_reducible assumption
    | (extract_lets -underBinder +onlyGivenNames -merge x; with_reducible refine Keeps.cut (pq := pq) x ?_ (fun _ => ?_); rotate_left; clear_value x; rotate_left; subst x)
    | (extract_lets -underBinder +onlyGivenNames -merge x; subst x)
    | with_reducible apply State.ungate_keeps
    | with_reducible apply State.platformEvent_keeps
    | with_reducible apply State.raise_keeps
    | split
    | simp only [Keeps.upd]

theorem State.capEnd_keeps {pq : List Instr} {s : State} (hs : State.Keeps pq s) :
    State.Keeps pq (State.capEnd s) := by
  unfold State.capEnd
  repeat' first
    | with_reducible assumption
    | with_reducible apply State.endCap_keeps
    | with_reducible apply State.advanceTo_keeps
    | split
    | simp only [Keeps.upd]

theorem State.capGateMore_keeps {pq : List Instr} {s : State} (hs : State.Keeps pq s) :
    State.Keeps pq (State.capGateMore s) := by
  unfold State.capGateMore
  repeat' first
    | with_reducible assumption
    | (extract_lets -underBinder +onlyGivenNames -merge x; with_reducible refine Keeps.cut (pq := pq) x ?_ (fun _ => ?_); rotate_left; clear_value x; rotate_left; subst x)
    | (extract_lets -underBinder +onlyGivenNames -merge x; subst x)
    | with_reducible apply State.gateCores_keeps
    | with_reducible apply State.advanceTo_keeps
    | split
    | simp only [Keeps.upd]

theorem State.railFault_keeps {pq : List Instr} {s : State} {rail kind : Nat} (hs : State.Keeps pq s) :
    State.Keeps pq (State.railFault s rail kind) := by
  unfold State.railFault
  repeat' first
    | with_reducible assumption
    | (extract_lets -underBinder +onlyGivenNames -merge x; with_reducible refine Keeps.cut (pq := pq) x ?_ (fun _ => ?_); rotate_left; clear_value x; rotate_left; subst x)
    | (extract_lets -underBinder +onlyGivenNames -merge x; subst x)
    | with_reducible apply State.toPilot_keeps
    | with_reducible apply State.fault_keeps
    | with_reducible apply State.raise_keeps
    | split
    | simp only [Keeps.upd]

theorem State.brownOut_keeps {pq : List Instr} {s : State} (hs : State.Keeps pq s) :
    State.Keeps pq (State.brownOut s) := by
  unfold State.brownOut
  repeat' first
    | with_reducible assumption
    | (rename_i e; with_reducible refine Keeps.ofSnd (pq := pq) e ?_ (fun _ => ?_) <;> clear e)
    | (rename_i e; with_reducible refine Keeps.ofFst (pq := pq) e ?_ (fun _ => ?_) <;> clear e)
    | (extract_lets -underBinder +onlyGivenNames -merge x; with_reducible refine Keeps.cut (pq := pq) x ?_ (fun _ => ?_); rotate_left; clear_value x; rotate_left; subst x)
    | (extract_lets -underBinder +onlyGivenNames -merge x; subst x)
    | with_reducible apply State.abortChange_keeps
    | with_reducible apply State.finishWrites_keeps
    | with_reducible apply State.shutdownWord_keeps
    | with_reducible apply State.portsDown_keeps
    | intro _
    | split
    | simp only [Keeps.upd]

theorem State.afterBrownOut_keeps {pq : List Instr} {s : State} (hs : State.Keeps pq s) :
    State.Keeps pq (State.afterBrownOut s) := by
  unfold State.afterBrownOut
  repeat' first
    | with_reducible assumption
    | with_reducible apply State.brownOut_keeps
    | with_reducible apply State.startBoot_keeps
    | split

theorem State.vinGood_keeps {pq : List Instr} {s : State} (hs : State.Keeps pq s) :
    State.Keeps pq (State.vinGood s) := by
  unfold State.vinGood
  repeat' first
    | with_reducible assumption
    | (extract_lets -underBinder +onlyGivenNames -merge x; with_reducible refine Keeps.cut (pq := pq) x ?_ (fun _ => ?_); rotate_left; clear_value x; rotate_left; subst x)
    | (extract_lets -underBinder +onlyGivenNames -merge x; subst x)
    | with_reducible apply State.afterBrownOut_keeps
    | with_reducible apply State.brownOut_keeps
    | with_reducible apply State.releaseStart_keeps
    | with_reducible apply State.logMode_keeps
    | with_reducible apply State.advance_keeps
    | with_reducible apply State.drawFree_keepsP
    | (with_reducible refine State.drawFree_keepsE (by with_reducible assumption) ?_)
    | split
    | simp only [Keeps.upd]

theorem State.porstAssert_keeps {pq : List Instr} {s : State} (hs : State.Keeps pq s) :
    State.Keeps pq (State.porstAssert s) := by
  unfold State.porstAssert
  repeat' first
    | with_reducible assumption
    | (extract_lets -underBinder +onlyGivenNames -merge x; with_reducible refine Keeps.cut (pq := pq) x ?_ (fun _ => ?_); rotate_left; clear_value x; rotate_left; subst x)
    | (extract_lets -underBinder +onlyGivenNames -merge x; subst x)
    | with_reducible apply State.powerDown_keeps
    | with_reducible apply State.abortChange_keeps
    | with_reducible apply State.abortUpdates_keeps
    | with_reducible apply State.shutdownWord_keeps
    | split
    | simp only [Keeps.upd]

theorem State.porstRelease_keeps {pq : List Instr} {s : State} {straps : BitVec 4} (hs : State.Keeps pq s) :
    State.Keeps pq (State.porstRelease s straps) := by
  unfold State.porstRelease
  repeat' first
    | with_reducible assumption
    | (extract_lets -underBinder +onlyGivenNames -merge x; with_reducible refine Keeps.cut (pq := pq) x ?_ (fun _ => ?_); rotate_left; clear_value x; rotate_left; subst x)
    | (extract_lets -underBinder +onlyGivenNames -merge x; subst x)
    | with_reducible apply State.releaseStart_keeps
    | split
    | simp only [Keeps.upd]

theorem State.setClock_keeps {pq : List Instr} {s : State} {r : RefClock} {lost : Bool} (hs : State.Keeps pq s) :
    State.Keeps pq (State.setClock s r lost) := by
  unfold State.setClock
  repeat' first
    | with_reducible assumption
    | (extract_lets -underBinder +onlyGivenNames -merge x; with_reducible refine Keeps.cut (pq := pq) x ?_ (fun _ => ?_); rotate_left; clear_value x; rotate_left; subst x)
    | (extract_lets -underBinder +onlyGivenNames -merge x; subst x)
    | split
    | simp only [Keeps.upd]

theorem State.sysClockLost_keeps {pq : List Instr} {s : State} (hs : State.Keeps pq s) :
    State.Keeps pq (State.sysClockLost s) := by
  unfold State.sysClockLost
  repeat' first
    | with_reducible assumption
    | (extract_lets -underBinder +onlyGivenNames -merge x; with_reducible refine Keeps.cut (pq := pq) x ?_ (fun _ => ?_); rotate_left; clear_value x; rotate_left; subst x)
    | (extract_lets -underBinder +onlyGivenNames -merge x; subst x)
    | with_reducible apply State.setClock_keeps
    | with_reducible apply State.toPilot_keeps
    | split
    | simp only [Keeps.upd]

theorem State.clockLost_keeps {pq : List Instr} {s : State} {r : RefClock} (hs : State.Keeps pq s) :
    State.Keeps pq (State.clockLost s r) := by
  unfold State.clockLost
  repeat' first
    | with_reducible assumption
    | (extract_lets -underBinder +onlyGivenNames -merge x; with_reducible refine Keeps.cut (pq := pq) x ?_ (fun _ => ?_); rotate_left; clear_value x; rotate_left; subst x)
    | (extract_lets -underBinder +onlyGivenNames -merge x; subst x)
    | with_reducible apply State.setClock_keeps
    | with_reducible apply State.linkDown_keeps
    | with_reducible apply State.portsDown_keeps
    | with_reducible apply State.fault_keeps
    | split
    | simp only [Keeps.upd]

theorem State.clockBack_keeps {pq : List Instr} {s : State} {r : RefClock} (hs : State.Keeps pq s) :
    State.Keeps pq (State.clockBack s r) := by
  unfold State.clockBack
  repeat' first
    | with_reducible assumption
    | (extract_lets -underBinder +onlyGivenNames -merge x; with_reducible refine Keeps.cut (pq := pq) x ?_ (fun _ => ?_); rotate_left; clear_value x; rotate_left; subst x)
    | (extract_lets -underBinder +onlyGivenNames -merge x; subst x)
    | with_reducible apply State.setClock_keeps
    | with_reducible apply State.startBoot_keeps
    | with_reducible apply State.leaveUp_keeps
    | with_reducible apply State.advance_keeps
    | (with_reducible refine forEach_keeps ?_ (fun _ _ _ => ?_))
    | intro _
    | split
    | simp only [Keeps.upd]

theorem State.wakeEdge_keeps {pq : List Instr} {s : State} {rising : Bool} (hs : State.Keeps pq s) :
    State.Keeps pq (State.wakeEdge s rising) := by
  unfold State.wakeEdge
  repeat' first
    | with_reducible assumption
    | with_reducible apply State.pilotSource_keeps
    | with_reducible apply State.wakeStandby_keeps
    | split

theorem State.timerWake_keeps {pq : List Instr} {s : State} (hs : State.Keeps pq s) :
    State.Keeps pq (State.timerWake s) := by
  unfold State.timerWake
  repeat' first
    | with_reducible assumption
    | with_reducible apply State.wakeBy_keeps
    | with_reducible apply State.advanceTo_keeps
    | split
    | simp only [Keeps.upd]

theorem execSensorSample_keeps {pq : List Instr} {r : SensorReading} {s : State} (hs : State.Keeps pq s) :
    KeepsO pq (execSensorSample r s) := by
  unfold execSensorSample
  repeat' first
    | with_reducible assumption
    | with_reducible apply KeepsO.mk
    | with_reducible apply State.sample_keeps

theorem execCapEnd_keeps {pq : List Instr} {s : State} (hs : State.Keeps pq s) :
    KeepsO pq (execCapEnd s) := by
  unfold execCapEnd
  repeat' first
    | with_reducible assumption
    | with_reducible apply KeepsO.mk
    | with_reducible apply State.capEnd_keeps

theorem execCapGateMore_keeps {pq : List Instr} {s : State} (hs : State.Keeps pq s) :
    KeepsO pq (execCapGateMore s) := by
  unfold execCapGateMore
  repeat' first
    | with_reducible assumption
    | with_reducible apply KeepsO.mk
    | with_reducible apply State.capGateMore_keeps

theorem execRailFault_keeps {pq : List Instr} {rail : Fin 10} {kind : Fin 3} {s : State} (hs : State.Keeps pq s) :
    KeepsO pq (execRailFault rail kind s) := by
  unfold execRailFault
  repeat' first
    | with_reducible assumption
    | with_reducible apply KeepsO.mk
    | with_reducible apply State.railFault_keeps

theorem execBrownOut_keeps {pq : List Instr} {s : State} (hs : State.Keeps pq s) :
    KeepsO pq (execBrownOut s) := by
  unfold execBrownOut
  repeat' first
    | with_reducible assumption
    | with_reducible apply KeepsO.mk
    | with_reducible apply State.brownOut_keeps

theorem execVinLoss_keeps {pq : List Instr} {s : State} (hs : State.Keeps pq s) :
    KeepsO pq (execVinLoss s) := by
  unfold execVinLoss
  repeat' first
    | with_reducible assumption
    | with_reducible apply KeepsO.mk
    | with_reducible apply State.powerDown_keeps
    | with_reducible apply State.collapse_keeps
    | intro _
    | split
    | simp only [Keeps.upd]

theorem execVinGood_keeps {pq : List Instr} {s : State} (hs : State.Keeps pq s) :
    KeepsO pq (execVinGood s) := by
  unfold execVinGood
  repeat' first
    | with_reducible assumption
    | with_reducible apply KeepsO.mk
    | with_reducible apply State.vinGood_keeps

theorem execPorstNAssert_keeps {pq : List Instr} {s : State} (hs : State.Keeps pq s) :
    KeepsO pq (execPorstNAssert s) := by
  unfold execPorstNAssert
  repeat' first
    | with_reducible assumption
    | with_reducible apply KeepsO.mk
    | with_reducible apply State.porstAssert_keeps

theorem execPorstNRelease_keeps {pq : List Instr} {straps : BitVec 4} {s : State} (hs : State.Keeps pq s) :
    KeepsO pq (execPorstNRelease straps s) := by
  unfold execPorstNRelease
  repeat' first
    | with_reducible assumption
    | with_reducible apply KeepsO.mk
    | with_reducible apply State.porstRelease_keeps

theorem execPciePerstNRelease_keeps {pq : List Instr} {s : State} (hs : State.Keeps pq s) :
    KeepsO pq (execPciePerstNRelease s) := by
  unfold execPciePerstNRelease
  repeat' first
    | with_reducible assumption
    | with_reducible apply KeepsO.mk
    | with_reducible apply State.pilotSource_keeps
    | split
    | simp only [Keeps.upd]

theorem execRefclkSysLoss_keeps {pq : List Instr} {s : State} (hs : State.Keeps pq s) :
    KeepsO pq (execRefclkSysLoss s) := by
  unfold execRefclkSysLoss
  repeat' first
    | with_reducible assumption
    | with_reducible apply KeepsO.mk
    | with_reducible apply State.sysClockLost_keeps

theorem execRefclkLoss_keeps {pq : List Instr} {r : RefClock} {s : State} (hs : State.Keeps pq s) :
    KeepsO pq (execRefclkLoss r s) := by
  unfold execRefclkLoss
  repeat' first
    | with_reducible assumption
    | with_reducible apply KeepsO.mk
    | with_reducible apply State.clockLost_keeps

theorem execRefclkReturn_keeps {pq : List Instr} {r : RefClock} {s : State} (hs : State.Keeps pq s) :
    KeepsO pq (execRefclkReturn r s) := by
  unfold execRefclkReturn
  repeat' first
    | with_reducible assumption
    | with_reducible apply KeepsO.mk
    | with_reducible apply State.clockBack_keeps

theorem execPilotWake_keeps {pq : List Instr} {rising : Bool} {s : State} (hs : State.Keeps pq s) :
    KeepsO pq (execPilotWake rising s) := by
  unfold execPilotWake
  repeat' first
    | with_reducible assumption
    | with_reducible apply KeepsO.mk
    | with_reducible apply State.wakeEdge_keeps

theorem execPilotTimer_keeps {pq : List Instr} {s : State} (hs : State.Keeps pq s) :
    KeepsO pq (execPilotTimer s) := by
  unfold execPilotTimer
  repeat' first
    | with_reducible assumption
    | with_reducible apply KeepsO.mk
    | with_reducible apply State.timerWake_keeps

theorem execSmbWake_keeps {pq : List Instr} {s : State} (hs : State.Keeps pq s) :
    KeepsO pq (execSmbWake s) := by
  unfold execSmbWake
  repeat' first
    | with_reducible assumption
    | with_reducible apply KeepsO.mk
    | with_reducible apply State.pilotSource_keeps

theorem execSmbStuck_keeps {pq : List Instr} {s : State} (hs : State.Keeps pq s) :
    KeepsO pq (execSmbStuck s) := by
  unfold execSmbStuck
  repeat' first
    | with_reducible assumption
    | with_reducible apply KeepsO.mk
    | with_reducible apply State.fault_keeps

theorem execModeTransitionEnd_keeps {pq : List Instr} {s : State} (hs : State.Keeps pq s) :
    KeepsO pq (execModeTransitionEnd s) := by
  unfold execModeTransitionEnd
  repeat' first
    | with_reducible assumption
    | with_reducible apply KeepsO.mk
    | with_reducible apply State.afterBrownOut_keeps
    | with_reducible apply State.transitionEnd_keeps

theorem execPwrModeReq_keeps {pq : List Instr} {m : Master} {v : Word} {s : State} (hs : State.Keeps pq s) :
    KeepsO pq (execPwrModeReq m v s) := by
  unfold execPwrModeReq
  repeat' first
    | with_reducible assumption
    | with_reducible apply KeepsO.mk
    | with_reducible apply State.requestMode_keeps
    | split

theorem execNightCoreClockGate_keeps {pq : List Instr} {c : Fin 8} {s : State} (hs : State.Keeps pq s) :
    KeepsO pq (execNightCoreClockGate c s) := by
  unfold execNightCoreClockGate
  repeat' first
    | with_reducible assumption
    | (rename_i e; with_reducible refine Keeps.ofSnd (pq := pq) e ?_ (fun _ => ?_) <;> clear e)
    | (rename_i e; with_reducible refine Keeps.ofFst (pq := pq) e ?_ (fun _ => ?_) <;> clear e)
    | with_reducible apply KeepsO.mk
    | split
    | simp only [Keeps.upd]

theorem execPwrPinPeakRead_keeps {pq : List Instr} {s : State} (hs : State.Keeps pq s) :
    KeepsO pq (execPwrPinPeakRead s) := by
  unfold execPwrPinPeakRead
  repeat' first
    | with_reducible assumption
    | with_reducible apply KeepsO.mk
    | with_reducible apply State.setRd_keeps
    | split
    | simp only [Keeps.upd]

theorem State.loadTap_keeps {pq : List Instr} {s : State} {code : BitVec 6} (hs : State.Keeps pq s) :
    State.Keeps pq (State.loadTap s code) := by
  unfold State.loadTap
  repeat' first
    | with_reducible assumption
    | (rename_i e; with_reducible refine Keeps.ofSnd (pq := pq) e ?_ (fun _ => ?_) <;> clear e)
    | (rename_i e; with_reducible refine Keeps.ofFst (pq := pq) e ?_ (fun _ => ?_) <;> clear e)
    | (extract_lets -underBinder +onlyGivenNames -merge x; with_reducible refine Keeps.cut (pq := pq) x ?_ (fun _ => ?_); rotate_left; clear_value x; rotate_left; subst x)
    | (extract_lets -underBinder +onlyGivenNames -merge x; subst x)
    | with_reducible apply State.orderHalt_keeps
    | with_reducible apply State.keepRecord_keeps
    | split
    | simp only [Keeps.upd]

theorem execJtagInstructionLoad_keeps {pq : List Instr} {code : BitVec 6} {s : State} (hs : State.Keeps pq s) :
    KeepsO pq (execJtagInstructionLoad code s) := by
  unfold execJtagInstructionLoad
  repeat' first
    | with_reducible assumption
    | with_reducible apply KeepsO.mk
    | with_reducible apply State.loadTap_keeps

end Sys2Proof.Machine
end

