-- ==== Sys2Proof/Laws/KeepsHost.lean ====
section
/-! SUPPORT. What each operation keeps (see `State.Keeps`): table commands, peripherals, register reads, the arbiter, the command set and the mailbox. -/

set_option maxRecDepth 4000

namespace Sys2Proof.Machine

theorem State.swcDone_keeps {pq : List Instr} {s : State} {failed : Bool} (hs : State.Keeps pq s) :
    State.Keeps pq (State.swcDone s failed) := by
  unfold State.swcDone
  repeat' first
    | with_reducible assumption
    | with_reducible apply State.raise_keeps
    | simp only [Keeps.upd]

theorem State.swcWrite_keeps {pq : List Instr} {s : State} {m : Master} {table index : Nat} {staged : Bool} {b : List Byte} (hs : State.Keeps pq s) :
    State.Keeps pq (State.swcWrite s m table index staged b) := by
  unfold State.swcWrite
  repeat' first
    | with_reducible assumption
    | (rename_i e; with_reducible refine Keeps.ofSnd (pq := pq) e ?_ (fun _ => ?_) <;> clear e)
    | (rename_i e; with_reducible refine Keeps.ofFst (pq := pq) e ?_ (fun _ => ?_) <;> clear e)
    | (extract_lets -underBinder +onlyGivenNames -merge x; with_reducible refine Keeps.cut (pq := pq) x ?_ (fun _ => ?_); rotate_left; clear_value x; rotate_left; subst x)
    | (extract_lets -underBinder +onlyGivenNames -merge x; subst x)
    | with_reducible apply State.swcDone_keeps
    | with_reducible apply State.putEntry_keeps
    | with_reducible apply State.stagingWrite_keepsP
    | (with_reducible refine State.stagingWrite_keepsE (by with_reducible assumption) ?_)
    | with_reducible apply State.putSwc_keepsP
    | (with_reducible refine State.putSwc_keepsE (by with_reducible assumption) ?_)
    | intro _
    | split

theorem State.tblWrite_keeps {pq : List Instr} {s : State} {m : Master} {v : Word} (hs : State.Keeps pq s) :
    State.Keeps pq (State.tblWrite s m v) := by
  unfold State.tblWrite
  repeat' first
    | with_reducible assumption
    | (rename_i e; with_reducible refine Keeps.ofSnd (pq := pq) e ?_ (fun _ => ?_) <;> clear e)
    | (rename_i e; with_reducible refine Keeps.ofFst (pq := pq) e ?_ (fun _ => ?_) <;> clear e)
    | (extract_lets -underBinder +onlyGivenNames -merge x; with_reducible refine Keeps.cut (pq := pq) x ?_ (fun _ => ?_); rotate_left; clear_value x; rotate_left; subst x)
    | (extract_lets -underBinder +onlyGivenNames -merge x; subst x)
    | with_reducible apply State.swcWrite_keeps
    | split

theorem State.tblRead_keeps {pq : List Instr} {s : State} {m : Master} {v : Word} (hs : State.Keeps pq s) :
    State.Keeps pq (State.tblRead s m v) := by
  unfold State.tblRead
  repeat' first
    | with_reducible assumption
    | (rename_i e; with_reducible refine Keeps.ofSnd (pq := pq) e ?_ (fun _ => ?_) <;> clear e)
    | (rename_i e; with_reducible refine Keeps.ofFst (pq := pq) e ?_ (fun _ => ?_) <;> clear e)
    | (extract_lets -underBinder +onlyGivenNames -merge x; with_reducible refine Keeps.cut (pq := pq) x ?_ (fun _ => ?_); rotate_left; clear_value x; rotate_left; subst x)
    | (extract_lets -underBinder +onlyGivenNames -merge x; subst x)
    | with_reducible apply State.swcDone_keeps
    | split
    | simp only [Keeps.upd]

theorem State.tblInvalidate_keeps {pq : List Instr} {s : State} {m : Master} {v : Word} (hs : State.Keeps pq s) :
    State.Keeps pq (State.tblInvalidate s m v) := by
  unfold State.tblInvalidate
  repeat' first
    | with_reducible assumption
    | (rename_i e; with_reducible refine Keeps.ofSnd (pq := pq) e ?_ (fun _ => ?_) <;> clear e)
    | (rename_i e; with_reducible refine Keeps.ofFst (pq := pq) e ?_ (fun _ => ?_) <;> clear e)
    | (extract_lets -underBinder +onlyGivenNames -merge x; with_reducible refine Keeps.cut (pq := pq) x ?_ (fun _ => ?_); rotate_left; clear_value x; rotate_left; subst x)
    | (extract_lets -underBinder +onlyGivenNames -merge x; subst x)
    | with_reducible apply State.swcWrite_keeps
    | split

theorem State.trfDone_keeps {pq : List Instr} {s : State} {failed : Bool} (hs : State.Keeps pq s) :
    State.Keeps pq (State.trfDone s failed) := by
  unfold State.trfDone
  repeat' first
    | with_reducible assumption
    | with_reducible apply State.raise_keeps
    | simp only [Keeps.upd]

theorem State.trfTblWrite_keeps {pq : List Instr} {s : State} {m : Master} {v : Word} (hs : State.Keeps pq s) :
    State.Keeps pq (State.trfTblWrite s m v) := by
  unfold State.trfTblWrite
  repeat' first
    | with_reducible assumption
    | (rename_i e; with_reducible refine Keeps.ofSnd (pq := pq) e ?_ (fun _ => ?_) <;> clear e)
    | (rename_i e; with_reducible refine Keeps.ofFst (pq := pq) e ?_ (fun _ => ?_) <;> clear e)
    | (extract_lets -underBinder +onlyGivenNames -merge x; with_reducible refine Keeps.cut (pq := pq) x ?_ (fun _ => ?_); rotate_left; clear_value x; rotate_left; subst x)
    | (extract_lets -underBinder +onlyGivenNames -merge x; subst x)
    | with_reducible apply State.trfDone_keeps
    | with_reducible apply State.putEntry_keeps
    | with_reducible apply State.putTrf_keeps
    | with_reducible apply State.stagingWrite_keepsP
    | (with_reducible refine State.stagingWrite_keepsE (by with_reducible assumption) ?_)
    | intro _
    | split

theorem State.trfTblRead_keeps {pq : List Instr} {s : State} {m : Master} {v : Word} (hs : State.Keeps pq s) :
    State.Keeps pq (State.trfTblRead s m v) := by
  unfold State.trfTblRead
  repeat' first
    | with_reducible assumption
    | (rename_i e; with_reducible refine Keeps.ofSnd (pq := pq) e ?_ (fun _ => ?_) <;> clear e)
    | (rename_i e; with_reducible refine Keeps.ofFst (pq := pq) e ?_ (fun _ => ?_) <;> clear e)
    | (extract_lets -underBinder +onlyGivenNames -merge x; with_reducible refine Keeps.cut (pq := pq) x ?_ (fun _ => ?_); rotate_left; clear_value x; rotate_left; subst x)
    | (extract_lets -underBinder +onlyGivenNames -merge x; subst x)
    | with_reducible apply State.trfDone_keeps
    | split
    | simp only [Keeps.upd]

theorem State.histSnap_keeps {pq : List Instr} {s : State} {m : Master} {v : Word} (hs : State.Keeps pq s) :
    State.Keeps pq (State.histSnap s m v) := by
  unfold State.histSnap
  repeat' first
    | with_reducible assumption
    | (extract_lets -underBinder +onlyGivenNames -merge x; with_reducible refine Keeps.cut (pq := pq) x ?_ (fun _ => ?_); rotate_left; clear_value x; rotate_left; subst x)
    | (extract_lets -underBinder +onlyGivenNames -merge x; subst x)
    | with_reducible apply State.setReg_keeps
    | split
    | simp only [Keeps.upd]

theorem execTblWrite_keeps {pq : List Instr} {m : Master} {v : Word} {s : State} (hs : State.Keeps pq s) :
    KeepsO pq (execTblWrite m v s) := by
  unfold execTblWrite
  repeat' first
    | with_reducible assumption
    | with_reducible apply KeepsO.mk
    | with_reducible apply State.tblWrite_keeps

theorem execTblRead_keeps {pq : List Instr} {m : Master} {v : Word} {s : State} (hs : State.Keeps pq s) :
    KeepsO pq (execTblRead m v s) := by
  unfold execTblRead
  repeat' first
    | with_reducible assumption
    | with_reducible apply KeepsO.mk
    | with_reducible apply State.tblRead_keeps

theorem execTblInvalidate_keeps {pq : List Instr} {m : Master} {v : Word} {s : State} (hs : State.Keeps pq s) :
    KeepsO pq (execTblInvalidate m v s) := by
  unfold execTblInvalidate
  repeat' first
    | with_reducible assumption
    | with_reducible apply KeepsO.mk
    | with_reducible apply State.tblInvalidate_keeps

theorem execTrfTblWrite_keeps {pq : List Instr} {m : Master} {v : Word} {s : State} (hs : State.Keeps pq s) :
    KeepsO pq (execTrfTblWrite m v s) := by
  unfold execTrfTblWrite
  repeat' first
    | with_reducible assumption
    | with_reducible apply KeepsO.mk
    | with_reducible apply State.trfTblWrite_keeps

theorem execTrfTblRead_keeps {pq : List Instr} {m : Master} {v : Word} {s : State} (hs : State.Keeps pq s) :
    KeepsO pq (execTrfTblRead m v s) := by
  unfold execTrfTblRead
  repeat' first
    | with_reducible assumption
    | with_reducible apply KeepsO.mk
    | with_reducible apply State.trfTblRead_keeps

theorem execHistSnap_keeps {pq : List Instr} {m : Master} {v : Word} {s : State} (hs : State.Keeps pq s) :
    KeepsO pq (execHistSnap m v s) := by
  unfold execHistSnap
  repeat' first
    | with_reducible assumption
    | with_reducible apply KeepsO.mk
    | with_reducible apply State.histSnap_keeps

theorem State.scatter_keeps {pq : List Instr} {s : State} {a0 : List (Option DWord × Nat)} {a1 : List Byte} (hs : State.Keeps pq s) :
    State.Keeps pq (State.scatter s a0 a1) := by
  induction a0 generalizing s a1 with
  | nil =>
    unfold State.scatter
    repeat' first
      | with_reducible assumption
      | (rename_i e; with_reducible refine Keeps.ofSnd (pq := pq) e ?_ (fun _ => ?_) <;> clear e)
      | (rename_i e; with_reducible refine Keeps.ofFst (pq := pq) e ?_ (fun _ => ?_) <;> clear e)
      | (extract_lets -underBinder +onlyGivenNames -merge x; with_reducible refine Keeps.cut (pq := pq) x ?_ (fun _ => ?_); rotate_left; clear_value x; rotate_left; subst x)
      | (extract_lets -underBinder +onlyGivenNames -merge x; subst x)
      | with_reducible apply State.spaceWrite_keeps
      | split
      | simp only [Keeps.upd]

  | cons e l ih =>
    unfold State.scatter
    repeat' first
      | with_reducible assumption
      | (rename_i e; with_reducible refine Keeps.ofSnd (pq := pq) e ?_ (fun _ => ?_) <;> clear e)
      | (rename_i e; with_reducible refine Keeps.ofFst (pq := pq) e ?_ (fun _ => ?_) <;> clear e)
      | (extract_lets -underBinder +onlyGivenNames -merge x; with_reducible refine Keeps.cut (pq := pq) x ?_ (fun _ => ?_); rotate_left; clear_value x; rotate_left; subst x)
      | (extract_lets -underBinder +onlyGivenNames -merge x; subst x)
      | with_reducible apply ih
      | (rename_i h; injection h with h1 h2; subst h1 h2)
      | with_reducible apply State.spaceWrite_keeps
      | split
      | simp only [Keeps.upd]

theorem State.readAreas_keepsP {pq : List Instr} {s : State} {l : List (DWord × Nat)} (hs : State.Keeps pq s) :
    State.Keeps pq (State.readAreas s l).1 := by
  unfold State.readAreas
  repeat' first
    | with_reducible assumption
    | (extract_lets -underBinder +onlyGivenNames -merge x; with_reducible refine Keeps.cut (pq := pq) x ?_ (fun _ => ?_); rotate_left; clear_value x; rotate_left; subst x)
    | (extract_lets -underBinder +onlyGivenNames -merge x; subst x)
    | with_reducible apply State.devRead_keeps
    | (with_reducible refine forEach_keeps ?_ (fun _ _ _ => ?_))
    | intro _
theorem State.readAreas_keepsE {pq : List Instr} {s : State} {l : List (DWord × Nat)} {tv1 v2} (e : State.readAreas s l = (tv1, v2)) (hs : State.Keeps pq s) :
    State.Keeps pq tv1 := by
  have h := State.readAreas_keepsP (s := s) (l := l) hs 
  rw [e] at h; exact h

theorem State.senseErr_keeps {pq : List Instr} {s : State} {c u code : Nat} {levels : BitVec 16} (hs : State.Keeps pq s) :
    State.Keeps pq (State.senseErr s c u code levels) := by
  unfold State.senseErr
  repeat' first
    | with_reducible assumption
    | (rename_i e; with_reducible refine Keeps.ofSnd (pq := pq) e ?_ (fun _ => ?_) <;> clear e)
    | (rename_i e; with_reducible refine Keeps.ofFst (pq := pq) e ?_ (fun _ => ?_) <;> clear e)
    | (extract_lets -underBinder +onlyGivenNames -merge x; with_reducible refine Keeps.cut (pq := pq) x ?_ (fun _ => ?_); rotate_left; clear_value x; rotate_left; subst x)
    | (extract_lets -underBinder +onlyGivenNames -merge x; subst x)
    | simp only [Keeps.upd]

theorem State.unitErr_keeps {pq : List Instr} {s : State} {c u code : Nat} {levels : BitVec 16} {moved : Nat} (hs : State.Keeps pq s) :
    State.Keeps pq (State.unitErr s c u code levels moved) := by
  unfold State.unitErr
  repeat' first
    | with_reducible assumption
    | (extract_lets -underBinder +onlyGivenNames -merge x; with_reducible refine Keeps.cut (pq := pq) x ?_ (fun _ => ?_); rotate_left; clear_value x; rotate_left; subst x)
    | (extract_lets -underBinder +onlyGivenNames -merge x; subst x)
    | with_reducible apply State.senseErr_keeps
    | with_reducible apply State.endCcw_keeps
    | with_reducible apply State.setChan_keeps
    | split
    | simp only [Keeps.upd]

theorem State.lineFault_keeps {pq : List Instr} {s : State} {u code : Nat} {levels : Byte} (hs : State.Keeps pq s) :
    State.Keeps pq (State.lineFault s u code levels) := by
  unfold State.lineFault
  repeat' first
    | with_reducible assumption
    | (extract_lets -underBinder +onlyGivenNames -merge x; with_reducible refine Keeps.cut (pq := pq) x ?_ (fun _ => ?_); rotate_left; clear_value x; rotate_left; subst x)
    | (extract_lets -underBinder +onlyGivenNames -merge x; subst x)
    | with_reducible apply State.logRecord_keeps
    | split

theorem State.beginTransfer_keeps {pq : List Instr} {s : State} {c u : Nat} (hs : State.Keeps pq s) :
    State.Keeps pq (State.beginTransfer s c u) := by
  unfold State.beginTransfer
  repeat' first
    | with_reducible assumption
    | (extract_lets -underBinder +onlyGivenNames -merge x; with_reducible refine Keeps.cut (pq := pq) x ?_ (fun _ => ?_); rotate_left; clear_value x; rotate_left; subst x)
    | (extract_lets -underBinder +onlyGivenNames -merge x; subst x)
    | with_reducible apply State.unitErr_keeps
    | with_reducible apply State.setDma_keeps
    | with_reducible apply State.setChan_keeps
    | split
    | simp only [Keeps.upd]

theorem State.takeSubch_keepsP {pq : List Instr} {s : State} {c u : Nat} (hs : State.Keeps pq s) :
    State.Keeps pq (State.takeSubch s c u).1 := by
  unfold State.takeSubch
  repeat' first
    | with_reducible assumption
    | (extract_lets -underBinder +onlyGivenNames -merge x; with_reducible refine Keeps.cut (pq := pq) x ?_ (fun _ => ?_); rotate_left; clear_value x; rotate_left; subst x)
    | (extract_lets -underBinder +onlyGivenNames -merge x; subst x)
    | with_reducible apply State.setChan_keeps
    | intro _
    | split
    | simp only [Keeps.upd]
theorem State.takeSubch_keepsE {pq : List Instr} {s : State} {c u : Nat} {tv1 v2} (e : State.takeSubch s c u = (tv1, v2)) (hs : State.Keeps pq s) :
    State.Keeps pq tv1 := by
  have h := State.takeSubch_keepsP (s := s) (c := c) (u := u) hs 
  rw [e] at h; exact h

theorem State.addAreas_keeps {pq : List Instr} {s : State} {c u : Nat} {b : List Byte} {pages : List DWord} {data : List Byte} (hs : State.Keeps pq s) :
    State.Keeps pq (State.addAreas s c u b pages data) := by
  unfold State.addAreas
  repeat' first
    | with_reducible assumption
    | (extract_lets -underBinder +onlyGivenNames -merge x; with_reducible refine Keeps.cut (pq := pq) x ?_ (fun _ => ?_); rotate_left; clear_value x; rotate_left; subst x)
    | (extract_lets -underBinder +onlyGivenNames -merge x; subst x)
    | with_reducible apply State.beginTransfer_keeps
    | with_reducible apply State.failCcw_keeps
    | with_reducible apply State.setChan_keeps
    | with_reducible apply State.readAreas_keepsP
    | (with_reducible refine State.readAreas_keepsE (by with_reducible assumption) ?_)
    | intro _
    | split
    | simp only [Keeps.upd]

theorem State.continueSpan_keeps {pq : List Instr} {s : State} {c : Nat} {w : List Byte} {pages : List DWord} {data : List Byte} (hs : State.Keeps pq s) :
    State.Keeps pq (State.continueSpan s c w pages data) := by
  unfold State.continueSpan
  repeat' first
    | with_reducible assumption
    | (rename_i e; with_reducible refine Keeps.ofSnd (pq := pq) e ?_ (fun _ => ?_) <;> clear e)
    | (rename_i e; with_reducible refine Keeps.ofFst (pq := pq) e ?_ (fun _ => ?_) <;> clear e)
    | (extract_lets -underBinder +onlyGivenNames -merge x; with_reducible refine Keeps.cut (pq := pq) x ?_ (fun _ => ?_); rotate_left; clear_value x; rotate_left; subst x)
    | (extract_lets -underBinder +onlyGivenNames -merge x; subst x)
    | with_reducible apply State.addAreas_keeps
    | with_reducible apply State.failCcw_keeps
    | with_reducible apply State.postCsw_keeps
    | with_reducible apply State.setChan_keeps
    | split
    | simp only [Keeps.upd]

theorem State.ccwMove_keeps {pq : List Instr} {s : State} {c op : Nat} {w : List Byte} {pages : List DWord} {data : List Byte} (hs : State.Keeps pq s) :
    State.Keeps pq (State.ccwMove s c op w pages data) := by
  unfold State.ccwMove
  repeat' first
    | with_reducible assumption
    | (rename_i e; with_reducible refine Keeps.ofSnd (pq := pq) e ?_ (fun _ => ?_) <;> clear e)
    | (rename_i e; with_reducible refine Keeps.ofFst (pq := pq) e ?_ (fun _ => ?_) <;> clear e)
    | (extract_lets -underBinder +onlyGivenNames -merge x; with_reducible refine Keeps.cut (pq := pq) x ?_ (fun _ => ?_); rotate_left; clear_value x; rotate_left; subst x)
    | (extract_lets -underBinder +onlyGivenNames -merge x; subst x)
    | with_reducible apply State.continueSpan_keeps
    | with_reducible apply State.addAreas_keeps
    | with_reducible apply State.runCcw_keeps
    | with_reducible apply State.failCcw_keeps
    | with_reducible apply State.takeSubch_keepsP
    | (with_reducible refine State.takeSubch_keepsE (by with_reducible assumption) ?_)
    | intro _
    | split
    | simp only [Keeps.upd]

theorem State.canTake_keepsP {pq : List Instr} {s : State} {u n : Nat} (hs : State.Keeps pq s) :
    State.Keeps pq (State.canTake s u n).2 := by
  unfold State.canTake
  repeat' first
    | with_reducible assumption
    | (extract_lets -underBinder +onlyGivenNames -merge x; with_reducible refine Keeps.cut (pq := pq) x ?_ (fun _ => ?_); rotate_left; clear_value x; rotate_left; subst x)
    | (extract_lets -underBinder +onlyGivenNames -merge x; subst x)
    | intro _
    | simp only [Keeps.upd]
theorem State.canTake_keepsE {pq : List Instr} {s : State} {u n : Nat} {tv2 v1} (e : State.canTake s u n = (v1, tv2)) (hs : State.Keeps pq s) :
    State.Keeps pq tv2 := by
  have h := State.canTake_keepsP (s := s) (u := u) (n := n) hs 
  rw [e] at h; exact h

theorem State.dmaMove_keepsP {pq : List Instr} {s : State} {d : Nat} {k : CurCcw} (hs : State.Keeps pq s) :
    State.Keeps pq (State.dmaMove s d k).1 := by
  unfold State.dmaMove
  repeat' first
    | with_reducible assumption
    | (extract_lets -underBinder +onlyGivenNames -merge x; with_reducible refine Keeps.cut (pq := pq) x ?_ (fun _ => ?_); rotate_left; clear_value x; rotate_left; subst x)
    | (extract_lets -underBinder +onlyGivenNames -merge x; subst x)
    | with_reducible apply State.dmaHalt_keeps
    | with_reducible apply State.dmaEnd_keeps
    | with_reducible apply State.spaceWrite_keeps
    | with_reducible apply State.poisonWords_keeps
    | intro _
    | split
    | simp only [Keeps.upd]
theorem State.dmaMove_keepsE {pq : List Instr} {s : State} {d : Nat} {k : CurCcw} {tv1 v2} (e : State.dmaMove s d k = (tv1, v2)) (hs : State.Keeps pq s) :
    State.Keeps pq tv1 := by
  have h := State.dmaMove_keepsP (s := s) (d := d) (k := k) hs 
  rw [e] at h; exact h

theorem State.dmaCut_keeps {pq : List Instr} {s : State} {u : Nat} {st : DmaSt} {code : Status} (hs : State.Keeps pq s) :
    State.Keeps pq (State.dmaCut s u st code) := by
  unfold State.dmaCut
  repeat' first
    | with_reducible assumption
    | with_reducible apply State.dmaEnd_keeps
    | split

theorem State.sendBytes_keeps {pq : List Instr} {s : State} {k : CurCcw} {u moved : Nat} (hs : State.Keeps pq s) :
    State.Keeps pq (State.sendBytes s k u moved) := by
  unfold State.sendBytes
  extract_lets b bs
  split
  · exact hs
  · split
    · exact State.emit_keeps (State.emit_keeps hs)
    · exact State.emit_keeps hs

theorem State.transferEnd_keeps {pq : List Instr} {s : State} {c : Nat} {e : TransferEnd} (hs : State.Keeps pq s) :
    State.Keeps pq (State.transferEnd s c e) := by
  unfold State.transferEnd
  extract_lets +onlyGivenNames x
  clear_value x
  split
  · extract_lets op total last can rx clean dma moved s1 y t1 l1 s2 lastMoved l2 s3
    have hrx : State.Keeps pq rx.2 := by
      unfold rx; split
      · exact State.canTake_keepsP hs
      · exact hs
    clear_value rx
    have hdma : State.Keeps pq dma.1 := by
      unfold dma; split
      · exact State.dmaMove_keepsP hs
      · exact hrx
    clear_value dma moved
    have h1 : State.Keeps pq s1 := by
      unfold s1; split
      · exact hdma
      · split
        · exact State.sendBytes_keeps (State.scatter_keeps hrx)
        · split
          · exact State.sendBytes_keeps hs
          · exact hs
    clear_value s1
    have h2 : State.Keeps pq s2 := by
      unfold s2 t1 l1; simp only [Keeps.upd]; exact State.setChan_keeps h1
    have h3 : State.Keeps pq s3 := by
      unfold s3; split
      · simp only [Keeps.upd]; exact h2
      · exact h2
    clear_value s3 lastMoved l2 s2
    repeat' first
      | with_reducible exact h2
      | with_reducible apply State.endCcw_keeps
      | with_reducible apply State.dmaCut_keeps
      | with_reducible apply State.unitErr_keeps
      | with_reducible assumption
      | split
      | simp only [Keeps.upd]
  · exact hs

theorem State.readTimeout_keeps {pq : List Instr} {s : State} {c : Nat} (hs : State.Keeps pq s) :
    State.Keeps pq (State.readTimeout s c) := by
  unfold State.readTimeout
  repeat' first
    | with_reducible assumption
    | (extract_lets -underBinder +onlyGivenNames -merge x; with_reducible refine Keeps.cut (pq := pq) x ?_ (fun _ => ?_); rotate_left; clear_value x; rotate_left; subst x)
    | (extract_lets -underBinder +onlyGivenNames -merge x; subst x)
    | with_reducible apply State.unitErr_keeps
    | with_reducible apply State.endCcw_keeps
    | with_reducible apply State.advanceTo_keeps
    | split
    | simp only [Keeps.upd]

theorem State.ccwRetry_keeps {pq : List Instr} {s : State} {c : Nat} (hs : State.Keeps pq s) :
    State.Keeps pq (State.ccwRetry s c) := by
  unfold State.ccwRetry
  repeat' first
    | with_reducible assumption
    | with_reducible apply State.beginTransfer_keeps
    | split
    | simp only [Keeps.upd]

theorem State.lineStuck_keeps {pq : List Instr} {s : State} {u : Nat} (hs : State.Keeps pq s) :
    State.Keeps pq (State.lineStuck s u) := by
  unfold State.lineStuck
  repeat' first
    | with_reducible assumption
    | (rename_i e; with_reducible refine Keeps.ofSnd (pq := pq) e ?_ (fun _ => ?_) <;> clear e)
    | (rename_i e; with_reducible refine Keeps.ofFst (pq := pq) e ?_ (fun _ => ?_) <;> clear e)
    | (extract_lets -underBinder +onlyGivenNames -merge x; with_reducible refine Keeps.cut (pq := pq) x ?_ (fun _ => ?_); rotate_left; clear_value x; rotate_left; subst x)
    | (extract_lets -underBinder +onlyGivenNames -merge x; subst x)
    | with_reducible apply State.lineFault_keeps
    | with_reducible apply State.unitErr_keeps
    | split
    | simp only [Keeps.upd]

theorem State.busFault_keeps {pq : List Instr} {s : State} {k : Nat} {levels : BitVec 2} (hs : State.Keeps pq s) :
    State.Keeps pq (State.busFault s k levels) := by
  unfold State.busFault
  repeat' first
    | with_reducible assumption
    | (extract_lets -underBinder +onlyGivenNames -merge x; with_reducible refine Keeps.cut (pq := pq) x ?_ (fun _ => ?_); rotate_left; clear_value x; rotate_left; subst x)
    | (extract_lets -underBinder +onlyGivenNames -merge x; subst x)
    | with_reducible apply State.lineFault_keeps
    | with_reducible apply State.unitErr_keeps
    | split
    | simp only [Keeps.upd]

theorem State.gpioEdge_keeps {pq : List Instr} {s : State} {pin : Nat} {rising : Bool} (hs : State.Keeps pq s) :
    State.Keeps pq (State.gpioEdge s pin rising) := by
  unfold State.gpioEdge
  repeat' first
    | with_reducible assumption
    | (extract_lets -underBinder +onlyGivenNames -merge x; with_reducible refine Keeps.cut (pq := pq) x ?_ (fun _ => ?_); rotate_left; clear_value x; rotate_left; subst x)
    | (extract_lets -underBinder +onlyGivenNames -merge x; subst x)
    | with_reducible apply State.setEvents_keeps
    | split
    | simp only [Keeps.upd]

theorem State.ccwSense_keeps {pq : List Instr} {s : State} {c : Nat} {w : List Byte} {pages : List DWord} (hs : State.Keeps pq s) :
    State.Keeps pq (State.ccwSense s c w pages) := by
  unfold State.ccwSense
  repeat' first
    | with_reducible assumption
    | (extract_lets -underBinder +onlyGivenNames -merge x; with_reducible refine Keeps.cut (pq := pq) x ?_ (fun _ => ?_); rotate_left; clear_value x; rotate_left; subst x)
    | (extract_lets -underBinder +onlyGivenNames -merge x; subst x)
    | with_reducible apply State.scatter_keeps
    | with_reducible apply State.runCcw_keeps
    | with_reducible apply State.failCcw_keeps
    | with_reducible apply State.endCcw_keeps
    | with_reducible apply State.takeSubch_keepsP
    | (with_reducible refine State.takeSubch_keepsE (by with_reducible assumption) ?_)
    | intro _
    | split
    | simp only [Keeps.upd]

theorem State.ccwOrder_keeps {pq : List Instr} {s : State} {c : Nat} {w order : List Byte} {kind : PKind} {code : Nat} {f : State → Nat → List Byte → State} (hs : State.Keeps pq s) (hf : ∀ (x0 : State) (x1 : Nat) (x2 : List Byte), State.Keeps pq x0 → State.Keeps pq (f x0 x1 x2)) :
    State.Keeps pq (State.ccwOrder s c w order kind code f) := by
  unfold State.ccwOrder
  repeat' first
    | with_reducible assumption
    | (extract_lets -underBinder +onlyGivenNames -merge x; with_reducible refine Keeps.cut (pq := pq) x ?_ (fun _ => ?_); rotate_left; clear_value x; rotate_left; subst x)
    | (extract_lets -underBinder +onlyGivenNames -merge x; subst x)
    | with_reducible apply hf
    | with_reducible apply State.unitErr_keeps
    | with_reducible apply State.runCcw_keeps
    | with_reducible apply State.failCcw_keeps
    | with_reducible apply State.takeSubch_keepsP
    | (with_reducible refine State.takeSubch_keepsE (by with_reducible assumption) ?_)
    | with_reducible apply State.readAreas_keepsP
    | (with_reducible refine State.readAreas_keepsE (by with_reducible assumption) ?_)
    | intro _
    | split
    | simp only [Keeps.upd]

theorem State.orderDone_keeps {pq : List Instr} {s : State} {c : Nat} (hs : State.Keeps pq s) :
    State.Keeps pq (State.orderDone s c) := by
  unfold State.orderDone
  repeat' first
    | with_reducible assumption
    | (extract_lets -underBinder +onlyGivenNames -merge x; with_reducible refine Keeps.cut (pq := pq) x ?_ (fun _ => ?_); rotate_left; clear_value x; rotate_left; subst x)
    | (extract_lets -underBinder +onlyGivenNames -merge x; subst x)
    | with_reducible apply State.endCcw_keeps
    | split
    | simp only [Keeps.upd]

theorem State.orderConfig_keeps {pq : List Instr} {s : State} {c u : Nat} {blk : List Byte} (hs : State.Keeps pq s) :
    State.Keeps pq (State.orderConfig s c u blk) := by
  unfold State.orderConfig
  repeat' first
    | with_reducible assumption
    | with_reducible apply State.orderDone_keeps
    | simp only [Keeps.upd]

theorem State.orderBreak_keeps {pq : List Instr} {s : State} {c u : Nat} {blk : List Byte} (hs : State.Keeps pq s) :
    State.Keeps pq (State.orderBreak s c u blk) := by
  unfold State.orderBreak
  repeat' first
    | with_reducible assumption
    | with_reducible apply State.beginTransfer_keeps
    | with_reducible apply State.emit_keeps

theorem State.orderBusClear_keeps {pq : List Instr} {s : State} {c u : Nat} {held : Bool} (hs : State.Keeps pq s) :
    State.Keeps pq (State.orderBusClear s c u held) := by
  unfold State.orderBusClear
  repeat' first
    | with_reducible assumption
    | (extract_lets -underBinder +onlyGivenNames -merge x; with_reducible refine Keeps.cut (pq := pq) x ?_ (fun _ => ?_); rotate_left; clear_value x; rotate_left; subst x)
    | (extract_lets -underBinder +onlyGivenNames -merge x; subst x)
    | with_reducible apply State.orderDone_keeps
    | with_reducible apply State.lineFault_keeps
    | with_reducible apply State.unitErr_keeps
    | with_reducible apply State.emit_keeps
    | split

theorem State.orderFilter_keeps {pq : List Instr} {s : State} {c u : Nat} {blk : List Byte} (hs : State.Keeps pq s) :
    State.Keeps pq (State.orderFilter s c u blk) := by
  unfold State.orderFilter
  repeat' first
    | with_reducible assumption
    | with_reducible apply State.orderDone_keeps
    | simp only [Keeps.upd]

theorem State.orderRecover_keeps {pq : List Instr} {s : State} {c u : Nat} (hs : State.Keeps pq s) :
    State.Keeps pq (State.orderRecover s c u) := by
  unfold State.orderRecover
  repeat' first
    | with_reducible assumption
    | with_reducible apply State.orderDone_keeps
    | simp only [Keeps.upd]

theorem State.orderDrive_keeps {pq : List Instr} {s : State} {c : Nat} {blk : List Byte} (hs : State.Keeps pq s) :
    State.Keeps pq (State.orderDrive s c blk) := by
  unfold State.orderDrive
  repeat' first
    | with_reducible assumption
    | with_reducible apply State.orderDone_keeps
    | simp only [Keeps.upd]

theorem State.orderDirection_keeps {pq : List Instr} {s : State} {c : Nat} {blk : List Byte} (hs : State.Keeps pq s) :
    State.Keeps pq (State.orderDirection s c blk) := by
  unfold State.orderDirection
  repeat' first
    | with_reducible assumption
    | with_reducible apply State.orderDone_keeps
    | simp only [Keeps.upd]

theorem State.orderPulse_keeps {pq : List Instr} {s : State} {c : Nat} {blk : List Byte} (hs : State.Keeps pq s) :
    State.Keeps pq (State.orderPulse s c blk) := by
  unfold State.orderPulse
  repeat' first
    | with_reducible assumption
    | with_reducible apply State.orderDone_keeps
    | intro _
    | simp only [Keeps.upd]

theorem State.orderEvent_keeps {pq : List Instr} {s : State} {c u : Nat} {blk : List Byte} (hs : State.Keeps pq s) :
    State.Keeps pq (State.orderEvent s c u blk) := by
  unfold State.orderEvent
  repeat' first
    | with_reducible assumption
    | (rename_i e; with_reducible refine Keeps.ofSnd (pq := pq) e ?_ (fun _ => ?_) <;> clear e)
    | (rename_i e; with_reducible refine Keeps.ofFst (pq := pq) e ?_ (fun _ => ?_) <;> clear e)
    | (extract_lets -underBinder +onlyGivenNames -merge x; with_reducible refine Keeps.cut (pq := pq) x ?_ (fun _ => ?_); rotate_left; clear_value x; rotate_left; subst x)
    | (extract_lets -underBinder +onlyGivenNames -merge x; subst x)
    | with_reducible apply State.orderDone_keeps
    | with_reducible apply State.unitErr_keeps
    | split
    | simp only [Keeps.upd]

theorem State.ccwStatusRing_keeps {pq : List Instr} {s : State} {c : Nat} {w order : List Byte} (hs : State.Keeps pq s) :
    State.Keeps pq (State.ccwStatusRing s c w order) := by
  unfold State.ccwStatusRing
  repeat' first
    | with_reducible assumption
    | (rename_i e; with_reducible refine Keeps.ofSnd (pq := pq) e ?_ (fun _ => ?_) <;> clear e)
    | (rename_i e; with_reducible refine Keeps.ofFst (pq := pq) e ?_ (fun _ => ?_) <;> clear e)
    | (extract_lets -underBinder +onlyGivenNames -merge x; with_reducible refine Keeps.cut (pq := pq) x ?_ (fun _ => ?_); rotate_left; clear_value x; rotate_left; subst x)
    | (extract_lets -underBinder +onlyGivenNames -merge x; subst x)
    | with_reducible apply State.orderDone_keeps
    | with_reducible apply State.runCcw_keeps
    | with_reducible apply State.failCcw_keeps
    | with_reducible apply State.setChan_keeps
    | with_reducible apply State.readAreas_keepsP
    | (with_reducible refine State.readAreas_keepsE (by with_reducible assumption) ?_)
    | intro _
    | split
    | simp only [Keeps.upd]

theorem State.canRx_keeps {pq : List Instr} {s : State} {k : Nat} {frame : List Byte} (hs : State.Keeps pq s) :
    State.Keeps pq (State.canRx s k frame) := by
  unfold State.canRx
  repeat' first
    | with_reducible assumption
    | (extract_lets -underBinder +onlyGivenNames -merge x; with_reducible refine Keeps.cut (pq := pq) x ?_ (fun _ => ?_); rotate_left; clear_value x; rotate_left; subst x)
    | (extract_lets -underBinder +onlyGivenNames -merge x; subst x)
    | intro _
    | split
    | simp only [Keeps.upd]

theorem State.rtResult_keeps {pq : List Instr} {s : State} {r : Nat} (hs : State.Keeps pq s) :
    State.Keeps pq (State.rtResult s r) := by
  unfold State.rtResult
  repeat' first
    | with_reducible assumption
    | simp only [Keeps.upd]

theorem State.routineLoad_keeps {pq : List Instr} {s : State} (hs : State.Keeps pq s) :
    State.Keeps pq (State.routineLoad s) := by
  unfold State.routineLoad
  repeat' first
    | with_reducible assumption
    | (rename_i e; with_reducible refine Keeps.ofSnd (pq := pq) e ?_ (fun _ => ?_) <;> clear e)
    | (rename_i e; with_reducible refine Keeps.ofFst (pq := pq) e ?_ (fun _ => ?_) <;> clear e)
    | (extract_lets -underBinder +onlyGivenNames -merge x; with_reducible refine Keeps.cut (pq := pq) x ?_ (fun _ => ?_); rotate_left; clear_value x; rotate_left; subst x)
    | (extract_lets -underBinder +onlyGivenNames -merge x; subst x)
    | with_reducible apply State.rtResult_keeps
    | split
    | simp only [Keeps.upd]

theorem State.routineUnload_keeps {pq : List Instr} {s : State} (hs : State.Keeps pq s) :
    State.Keeps pq (State.routineUnload s) := by
  unfold State.routineUnload
  repeat' first
    | with_reducible assumption
    | (extract_lets -underBinder +onlyGivenNames -merge x; with_reducible refine Keeps.cut (pq := pq) x ?_ (fun _ => ?_); rotate_left; clear_value x; rotate_left; subst x)
    | (extract_lets -underBinder +onlyGivenNames -merge x; subst x)
    | with_reducible apply State.rtResult_keeps
    | split
    | simp only [Keeps.upd]

theorem execCcwWrite_keeps {pq : List Instr} {c : Fin 64} {w : List Byte} {pages : List DWord} {data : List Byte} {s : State} (hs : State.Keeps pq s) :
    KeepsO pq (execCcwWrite c w pages data s) := by
  unfold execCcwWrite
  repeat' first
    | with_reducible assumption
    | with_reducible apply KeepsO.mk
    | with_reducible apply State.ccwMove_keeps

theorem execCcwRead_keeps {pq : List Instr} {c : Fin 64} {w : List Byte} {pages : List DWord} {s : State} (hs : State.Keeps pq s) :
    KeepsO pq (execCcwRead c w pages s) := by
  unfold execCcwRead
  repeat' first
    | with_reducible assumption
    | with_reducible apply KeepsO.mk
    | with_reducible apply State.ccwMove_keeps

theorem execCcwSense_keeps {pq : List Instr} {c : Fin 64} {w : List Byte} {pages : List DWord} {s : State} (hs : State.Keeps pq s) :
    KeepsO pq (execCcwSense c w pages s) := by
  unfold execCcwSense
  repeat' first
    | with_reducible assumption
    | with_reducible apply KeepsO.mk
    | with_reducible apply State.ccwSense_keeps

theorem execStatusRing_keeps {pq : List Instr} {c : Fin 64} {w order : List Byte} {s : State} (hs : State.Keeps pq s) :
    KeepsO pq (execStatusRing c w order s) := by
  unfold execStatusRing
  repeat' first
    | with_reducible assumption
    | with_reducible apply KeepsO.mk
    | with_reducible apply State.ccwStatusRing_keeps

theorem execUartConfig_keeps {pq : List Instr} {c : Fin 64} {w order : List Byte} {s : State} (hs : State.Keeps pq s) :
    KeepsO pq (execUartConfig c w order s) := by
  unfold execUartConfig
  repeat' first
    | with_reducible assumption
    | with_reducible apply KeepsO.mk
    | with_reducible apply State.orderConfig_keeps
    | with_reducible apply State.ccwOrder_keeps
    | intro _

theorem execUartBreak_keeps {pq : List Instr} {c : Fin 64} {w order : List Byte} {s : State} (hs : State.Keeps pq s) :
    KeepsO pq (execUartBreak c w order s) := by
  unfold execUartBreak
  repeat' first
    | with_reducible assumption
    | with_reducible apply KeepsO.mk
    | with_reducible apply State.orderBreak_keeps
    | with_reducible apply State.ccwOrder_keeps
    | intro _

theorem execSpiConfig_keeps {pq : List Instr} {c : Fin 64} {w order : List Byte} {s : State} (hs : State.Keeps pq s) :
    KeepsO pq (execSpiConfig c w order s) := by
  unfold execSpiConfig
  repeat' first
    | with_reducible assumption
    | with_reducible apply KeepsO.mk
    | with_reducible apply State.orderConfig_keeps
    | with_reducible apply State.ccwOrder_keeps
    | intro _

theorem execI2cConfig_keeps {pq : List Instr} {c : Fin 64} {w order : List Byte} {s : State} (hs : State.Keeps pq s) :
    KeepsO pq (execI2cConfig c w order s) := by
  unfold execI2cConfig
  repeat' first
    | with_reducible assumption
    | with_reducible apply KeepsO.mk
    | with_reducible apply State.orderConfig_keeps
    | with_reducible apply State.ccwOrder_keeps
    | intro _

theorem execBusClear_keeps {pq : List Instr} {c : Fin 64} {w order : List Byte} {held : Bool} {s : State} (hs : State.Keeps pq s) :
    KeepsO pq (execBusClear c w order held s) := by
  unfold execBusClear
  repeat' first
    | with_reducible assumption
    | with_reducible apply KeepsO.mk
    | with_reducible apply State.orderBusClear_keeps
    | with_reducible apply State.ccwOrder_keeps
    | intro _

theorem execCanConfig_keeps {pq : List Instr} {c : Fin 64} {w order : List Byte} {s : State} (hs : State.Keeps pq s) :
    KeepsO pq (execCanConfig c w order s) := by
  unfold execCanConfig
  repeat' first
    | with_reducible assumption
    | with_reducible apply KeepsO.mk
    | with_reducible apply State.orderConfig_keeps
    | with_reducible apply State.ccwOrder_keeps
    | intro _

theorem execCanFilter_keeps {pq : List Instr} {c : Fin 64} {w order : List Byte} {s : State} (hs : State.Keeps pq s) :
    KeepsO pq (execCanFilter c w order s) := by
  unfold execCanFilter
  repeat' first
    | with_reducible assumption
    | with_reducible apply KeepsO.mk
    | with_reducible apply State.orderFilter_keeps
    | with_reducible apply State.ccwOrder_keeps
    | intro _

theorem execCanRecover_keeps {pq : List Instr} {c : Fin 64} {w order : List Byte} {s : State} (hs : State.Keeps pq s) :
    KeepsO pq (execCanRecover c w order s) := by
  unfold execCanRecover
  repeat' first
    | with_reducible assumption
    | with_reducible apply KeepsO.mk
    | with_reducible apply State.orderRecover_keeps
    | with_reducible apply State.ccwOrder_keeps
    | intro _

theorem execI2sConfig_keeps {pq : List Instr} {c : Fin 64} {w order : List Byte} {s : State} (hs : State.Keeps pq s) :
    KeepsO pq (execI2sConfig c w order s) := by
  unfold execI2sConfig
  repeat' first
    | with_reducible assumption
    | with_reducible apply KeepsO.mk
    | with_reducible apply State.orderConfig_keeps
    | with_reducible apply State.ccwOrder_keeps
    | intro _

theorem execGpioDrive_keeps {pq : List Instr} {c : Fin 64} {w order : List Byte} {s : State} (hs : State.Keeps pq s) :
    KeepsO pq (execGpioDrive c w order s) := by
  unfold execGpioDrive
  repeat' first
    | with_reducible assumption
    | with_reducible apply KeepsO.mk
    | with_reducible apply State.orderDrive_keeps
    | with_reducible apply State.ccwOrder_keeps
    | intro _

theorem execGpioDirection_keeps {pq : List Instr} {c : Fin 64} {w order : List Byte} {s : State} (hs : State.Keeps pq s) :
    KeepsO pq (execGpioDirection c w order s) := by
  unfold execGpioDirection
  repeat' first
    | with_reducible assumption
    | with_reducible apply KeepsO.mk
    | with_reducible apply State.orderDirection_keeps
    | with_reducible apply State.ccwOrder_keeps
    | intro _

theorem execGpioPulse_keeps {pq : List Instr} {c : Fin 64} {w order : List Byte} {s : State} (hs : State.Keeps pq s) :
    KeepsO pq (execGpioPulse c w order s) := by
  unfold execGpioPulse
  repeat' first
    | with_reducible assumption
    | with_reducible apply KeepsO.mk
    | with_reducible apply State.orderPulse_keeps
    | with_reducible apply State.ccwOrder_keeps
    | intro _

theorem execGpioEvent_keeps {pq : List Instr} {c : Fin 64} {w order : List Byte} {s : State} (hs : State.Keeps pq s) :
    KeepsO pq (execGpioEvent c w order s) := by
  unfold execGpioEvent
  repeat' first
    | with_reducible assumption
    | with_reducible apply KeepsO.mk
    | with_reducible apply State.orderEvent_keeps
    | with_reducible apply State.ccwOrder_keeps
    | intro _

theorem execGpioEdge_keeps {pq : List Instr} {pin : Fin 48} {rising : Bool} {s : State} (hs : State.Keeps pq s) :
    KeepsO pq (execGpioEdge pin rising s) := by
  unfold execGpioEdge
  repeat' first
    | with_reducible assumption
    | with_reducible apply KeepsO.mk
    | with_reducible apply State.gpioEdge_keeps
    | split

theorem execCanFrameRx_keeps {pq : List Instr} {k : Fin 2} {frame : List Byte} {s : State} (hs : State.Keeps pq s) :
    KeepsO pq (execCanFrameRx k frame s) := by
  unfold execCanFrameRx
  repeat' first
    | with_reducible assumption
    | with_reducible apply KeepsO.mk
    | with_reducible apply State.canRx_keeps
    | split

theorem execPeripheralTransferEnd_keeps {pq : List Instr} {c : Fin 64} {e : TransferEnd} {s : State} (hs : State.Keeps pq s) :
    KeepsO pq (execPeripheralTransferEnd c e s) := by
  unfold execPeripheralTransferEnd
  repeat' first
    | with_reducible assumption
    | with_reducible apply KeepsO.mk
    | with_reducible apply State.transferEnd_keeps
    | split

theorem execReadTimeout_keeps {pq : List Instr} {c : Fin 64} {s : State} (hs : State.Keeps pq s) :
    KeepsO pq (execReadTimeout c s) := by
  unfold execReadTimeout
  repeat' first
    | with_reducible assumption
    | with_reducible apply KeepsO.mk
    | with_reducible apply State.readTimeout_keeps
    | split

theorem execCcwRetry_keeps {pq : List Instr} {c : Fin 64} {s : State} (hs : State.Keeps pq s) :
    KeepsO pq (execCcwRetry c s) := by
  unfold execCcwRetry
  repeat' first
    | with_reducible assumption
    | with_reducible apply KeepsO.mk
    | with_reducible apply State.ccwRetry_keeps
    | split

theorem execLineStuck_keeps {pq : List Instr} {u : Fin 8} {s : State} (hs : State.Keeps pq s) :
    KeepsO pq (execLineStuck u s) := by
  unfold execLineStuck
  repeat' first
    | with_reducible assumption
    | with_reducible apply KeepsO.mk
    | with_reducible apply State.lineStuck_keeps
    | split

theorem execBusFault_keeps {pq : List Instr} {k : Fin 4} {levels : BitVec 2} {s : State} (hs : State.Keeps pq s) :
    KeepsO pq (execBusFault k levels s) := by
  unfold execBusFault
  repeat' first
    | with_reducible assumption
    | with_reducible apply KeepsO.mk
    | with_reducible apply State.busFault_keeps
    | split

theorem execLmpChEventWrite_keeps {pq : List Instr} {m : Master} {c : Fin 64} {v : Word} {s : State} (hs : State.Keeps pq s) :
    KeepsO pq (execLmpChEventWrite m c v s) := by
  unfold execLmpChEventWrite
  repeat' first
    | with_reducible assumption
    | with_reducible apply KeepsO.mk
    | with_reducible apply State.setEvents_keeps
    | split

theorem execRoutineLoad_keeps {pq : List Instr} {m : Master} {v : Word} {s : State} (hs : State.Keeps pq s) :
    KeepsO pq (execRoutineLoad m v s) := by
  unfold execRoutineLoad
  repeat' first
    | with_reducible assumption
    | with_reducible apply KeepsO.mk
    | with_reducible apply State.routineLoad_keeps
    | split

theorem execRoutineUnload_keeps {pq : List Instr} {m : Master} {v : Word} {s : State} (hs : State.Keeps pq s) :
    KeepsO pq (execRoutineUnload m v s) := by
  unfold execRoutineUnload
  repeat' first
    | with_reducible assumption
    | with_reducible apply KeepsO.mk
    | with_reducible apply State.routineUnload_keeps
    | split

theorem State.readEffect_keeps {pq : List Instr} {s : State} {r : RegAt} (hs : State.Keeps pq s) :
    State.Keeps pq (State.readEffect s r) := by
  unfold State.readEffect
  repeat' first
    | with_reducible assumption
    | (extract_lets -underBinder +onlyGivenNames -merge x; with_reducible refine Keeps.cut (pq := pq) x ?_ (fun _ => ?_); rotate_left; clear_value x; rotate_left; subst x)
    | (extract_lets -underBinder +onlyGivenNames -merge x; subst x)
    | with_reducible apply State.icuClaim_keeps
    | with_reducible apply State.updCounts_keeps
    | with_reducible apply State.setBind_keeps
    | intro _
    | split
    | simp only [Keeps.upd]

theorem State.deny_keeps {pq : List Instr} {s : State} {n : Nat} {d : Deny} (hs : State.Keeps pq s) :
    State.Keeps pq (State.deny s n d) := by
  unfold State.deny
  repeat' first
    | with_reducible assumption
    | with_reducible apply State.finish_keeps

theorem State.acceptEntry_keeps {pq : List Instr} {s : State} {k : Nat} (hs : State.Keeps pq s) :
    State.Keeps pq (State.acceptEntry s k) := by
  unfold State.acceptEntry
  repeat' first
    | with_reducible assumption
    | (rename_i e; with_reducible refine Keeps.ofSnd (pq := pq) e ?_ (fun _ => ?_) <;> clear e)
    | (rename_i e; with_reducible refine Keeps.ofFst (pq := pq) e ?_ (fun _ => ?_) <;> clear e)
    | (extract_lets -underBinder +onlyGivenNames -merge x; with_reducible refine Keeps.cut (pq := pq) x ?_ (fun _ => ?_); rotate_left; clear_value x; rotate_left; subst x)
    | (extract_lets -underBinder +onlyGivenNames -merge x; subst x)
    | with_reducible apply State.deny_keeps
    | with_reducible apply State.finish_keeps
    | with_reducible apply State.slotsCheck_keeps
    | with_reducible apply State.setSlot_keeps
    | with_reducible apply State.setSq_keeps
    | with_reducible apply State.fault_keeps
    | with_reducible apply State.raise_keeps
    | intro _
    | split
    | simp only [Keeps.upd]

theorem State.dispatchNext_keeps {pq : List Instr} {s : State} (hs : State.Keeps pq s) :
    State.Keeps pq (State.dispatchNext s) := by
  unfold State.dispatchNext
  repeat' first
    | with_reducible assumption
    | (rename_i e; with_reducible refine Keeps.ofSnd (pq := pq) e ?_ (fun _ => ?_) <;> clear e)
    | (rename_i e; with_reducible refine Keeps.ofFst (pq := pq) e ?_ (fun _ => ?_) <;> clear e)
    | with_reducible apply State.acceptEntry_keeps
    | split
    | simp only [Keeps.upd]

theorem execEntryDispatch_keeps {pq : List Instr} {s : State} (hs : State.Keeps pq s) :
    KeepsO pq (execEntryDispatch s) := by
  unfold execEntryDispatch
  repeat' first
    | with_reducible assumption
    | with_reducible apply KeepsO.mk
    | with_reducible apply State.dispatchNext_keeps

theorem State.command_keeps {pq : List Instr} {s : State} {n op : Nat} {checks : Slot → List (Bool × Deny)} {f : Slot → State} (hs : State.Keeps pq s) (hf : ∀ (x0 : Slot), State.Keeps pq (f x0)) :
    State.Keeps pq (State.command s n op checks f) := by
  unfold State.command
  repeat' first
    | with_reducible assumption
    | with_reducible apply hf
    | with_reducible apply State.deny_keeps
    | split
    | simp only [Keeps.upd]

theorem State.identifyEntry_keeps {pq : List Instr} {s : State} {n : Nat} (hs : State.Keeps pq s) :
    State.Keeps pq (State.identifyEntry s n) := by
  unfold State.identifyEntry
  repeat' first
    | with_reducible assumption
    | with_reducible apply State.command_keeps
    | with_reducible apply State.finish_keeps
    | with_reducible apply State.hostWrite_keeps
    | intro _
    | split

theorem State.createRing_keeps {pq : List Instr} {s : State} {n : Nat} (hs : State.Keeps pq s) :
    State.Keeps pq (State.createRing s n) := by
  unfold State.createRing
  repeat' first
    | with_reducible assumption
    | with_reducible apply State.command_keeps
    | with_reducible apply State.finish_keeps
    | with_reducible apply State.setCq_keeps
    | intro _
    | simp only [Keeps.upd]

theorem State.createQueue_keeps {pq : List Instr} {s : State} {n : Nat} (hs : State.Keeps pq s) :
    State.Keeps pq (State.createQueue s n) := by
  unfold State.createQueue
  repeat' first
    | with_reducible assumption
    | (extract_lets -underBinder +onlyGivenNames -merge x; with_reducible refine Keeps.cut (pq := pq) x ?_ (fun _ => ?_); rotate_left; clear_value x; rotate_left; subst x)
    | (extract_lets -underBinder +onlyGivenNames -merge x; subst x)
    | with_reducible apply State.command_keeps
    | with_reducible apply State.finish_keeps
    | with_reducible apply State.setSq_keeps
    | intro _
    | simp only [Keeps.upd]

theorem State.deleteRing_keeps {pq : List Instr} {s : State} {n : Nat} (hs : State.Keeps pq s) :
    State.Keeps pq (State.deleteRing s n) := by
  unfold State.deleteRing
  repeat' first
    | with_reducible assumption
    | (extract_lets -underBinder +onlyGivenNames -merge x; with_reducible refine Keeps.cut (pq := pq) x ?_ (fun _ => ?_); rotate_left; clear_value x; rotate_left; subst x)
    | (extract_lets -underBinder +onlyGivenNames -merge x; subst x)
    | with_reducible apply State.command_keeps
    | with_reducible apply State.finish_keeps
    | with_reducible apply State.slotsCheck_keeps
    | with_reducible apply State.setSlot_keeps
    | with_reducible apply State.setCq_keeps
    | (with_reducible refine forEach_keeps ?_ (fun _ _ _ => ?_))
    | intro _

theorem State.deleteQueue_keeps {pq : List Instr} {s : State} {n : Nat} (hs : State.Keeps pq s) :
    State.Keeps pq (State.deleteQueue s n) := by
  unfold State.deleteQueue
  repeat' first
    | with_reducible assumption
    | (rename_i e; with_reducible refine Keeps.ofSnd (pq := pq) e ?_ (fun _ => ?_) <;> clear e)
    | (rename_i e; with_reducible refine Keeps.ofFst (pq := pq) e ?_ (fun _ => ?_) <;> clear e)
    | (extract_lets -underBinder +onlyGivenNames -merge x; with_reducible refine Keeps.cut (pq := pq) x ?_ (fun _ => ?_); rotate_left; clear_value x; rotate_left; subst x)
    | (extract_lets -underBinder +onlyGivenNames -merge x; subst x)
    | with_reducible apply State.command_keeps
    | with_reducible apply State.stopEntry_keeps
    | with_reducible apply State.waitFor_keeps
    | with_reducible apply State.settleQueue_keeps
    | with_reducible apply State.setSq_keeps
    | (with_reducible refine forEach_keeps ?_ (fun _ _ _ => ?_))
    | intro _
    | simp only [Keeps.upd]

theorem State.getFeatureEntry_keeps {pq : List Instr} {s : State} {n : Nat} (hs : State.Keeps pq s) :
    State.Keeps pq (State.getFeatureEntry s n) := by
  unfold State.getFeatureEntry
  repeat' first
    | with_reducible assumption
    | (extract_lets -underBinder +onlyGivenNames -merge x; with_reducible refine Keeps.cut (pq := pq) x ?_ (fun _ => ?_); rotate_left; clear_value x; rotate_left; subst x)
    | (extract_lets -underBinder +onlyGivenNames -merge x; subst x)
    | with_reducible apply State.command_keeps
    | with_reducible apply State.finish_keeps
    | intro _

theorem State.setFeature_keeps {pq : List Instr} {s : State} {n feature : Nat} {f : Slot → State} (hs : State.Keeps pq s) (hf : ∀ (x0 : Slot), State.Keeps pq (f x0)) :
    State.Keeps pq (State.setFeature s n feature f) := by
  unfold State.setFeature
  repeat' first
    | with_reducible assumption
    | with_reducible apply hf
    | with_reducible apply State.command_keeps
    | split
    | simp only [Keeps.upd]

theorem State.setArb_keeps {pq : List Instr} {s : State} {n : Nat} (hs : State.Keeps pq s) :
    State.Keeps pq (State.setArb s n) := by
  unfold State.setArb
  repeat' first
    | with_reducible assumption
    | (extract_lets -underBinder +onlyGivenNames -merge x; with_reducible refine Keeps.cut (pq := pq) x ?_ (fun _ => ?_); rotate_left; clear_value x; rotate_left; subst x)
    | (extract_lets -underBinder +onlyGivenNames -merge x; subst x)
    | with_reducible apply State.setFeature_keeps
    | with_reducible apply State.finish_keeps
    | with_reducible apply State.setSq_keeps
    | intro _
    | simp only [Keeps.upd]

theorem State.setAgg_keeps {pq : List Instr} {s : State} {n : Nat} (hs : State.Keeps pq s) :
    State.Keeps pq (State.setAgg s n) := by
  unfold State.setAgg
  repeat' first
    | with_reducible assumption
    | (rename_i e; with_reducible refine Keeps.ofSnd (pq := pq) e ?_ (fun _ => ?_) <;> clear e)
    | (rename_i e; with_reducible refine Keeps.ofFst (pq := pq) e ?_ (fun _ => ?_) <;> clear e)
    | (extract_lets -underBinder +onlyGivenNames -merge x; with_reducible refine Keeps.cut (pq := pq) x ?_ (fun _ => ?_); rotate_left; clear_value x; rotate_left; subst x)
    | (extract_lets -underBinder +onlyGivenNames -merge x; subst x)
    | with_reducible apply State.setFeature_keeps
    | with_reducible apply State.keepOrder_keeps
    | with_reducible apply State.conflict_keeps
    | with_reducible apply State.finish_keeps
    | with_reducible apply State.setCq_keeps
    | with_reducible apply State.contest_keepsP
    | (with_reducible refine State.contest_keepsE (by with_reducible assumption) ?_)
    | intro _
    | split
    | simp only [Keeps.upd]

theorem State.setMode_keeps {pq : List Instr} {s : State} {n : Nat} (hs : State.Keeps pq s) :
    State.Keeps pq (State.setMode s n) := by
  unfold State.setMode
  repeat' first
    | with_reducible assumption
    | with_reducible apply State.setFeature_keeps
    | with_reducible apply State.command_keeps
    | with_reducible apply State.requestMode_keeps
    | with_reducible apply State.start_keeps
    | intro _

theorem State.setSharesEntry_keeps {pq : List Instr} {s : State} {n : Nat} (hs : State.Keeps pq s) :
    State.Keeps pq (State.setSharesEntry s n) := by
  unfold State.setSharesEntry
  repeat' first
    | with_reducible assumption
    | (extract_lets -underBinder +onlyGivenNames -merge x; with_reducible refine Keeps.cut (pq := pq) x ?_ (fun _ => ?_); rotate_left; clear_value x; rotate_left; subst x)
    | (extract_lets -underBinder +onlyGivenNames -merge x; subst x)
    | with_reducible apply State.command_keeps
    | with_reducible apply State.finish_keeps
    | intro _
    | simp only [Keeps.upd]

theorem State.stageCommand_keeps {pq : List Instr} {s : State} {n subop : Nat} {checks : Slot → List (Bool × Deny)} {f : Slot → State} (hs : State.Keeps pq s) (hf : ∀ (x0 : Slot), State.Keeps pq (f x0)) :
    State.Keeps pq (State.stageCommand s n subop checks f) := by
  unfold State.stageCommand
  repeat' first
    | with_reducible assumption
    | (rename_i e; with_reducible refine Keeps.ofSnd (pq := pq) e ?_ (fun _ => ?_) <;> clear e)
    | (rename_i e; with_reducible refine Keeps.ofFst (pq := pq) e ?_ (fun _ => ?_) <;> clear e)
    | with_reducible apply hf
    | with_reducible apply State.command_keeps
    | intro _
    | split
    | simp only [Keeps.upd]

theorem State.claimEntry_keeps {pq : List Instr} {s : State} {n : Nat} (hs : State.Keeps pq s) :
    State.Keeps pq (State.claimEntry s n) := by
  unfold State.claimEntry
  repeat' first
    | with_reducible assumption
    | (rename_i e; with_reducible refine Keeps.ofSnd (pq := pq) e ?_ (fun _ => ?_) <;> clear e)
    | (rename_i e; with_reducible refine Keeps.ofFst (pq := pq) e ?_ (fun _ => ?_) <;> clear e)
    | with_reducible apply State.stageCommand_keeps
    | with_reducible apply State.conflict_keeps
    | with_reducible apply State.finish_keeps
    | with_reducible apply State.claim_keepsP
    | (with_reducible refine State.claim_keepsE (by with_reducible assumption) ?_)
    | intro _
    | split
    | simp only [Keeps.upd]

theorem State.putPairs_keeps {pq : List Instr} {s : State} {l : List (Nat × Nat)} (hs : State.Keeps pq s) :
    State.Keeps pq (State.putPairs s l) := by
  unfold State.putPairs
  repeat' first
    | with_reducible assumption
    | with_reducible apply State.putStaged_keeps
    | (with_reducible refine forEach_keeps ?_ (fun _ _ _ => ?_))
    | intro _
    | split
    | simp only [Keeps.upd]

theorem State.stageWriteEntry_keeps {pq : List Instr} {s : State} {n : Nat} (hs : State.Keeps pq s) :
    State.Keeps pq (State.stageWriteEntry s n) := by
  unfold State.stageWriteEntry
  repeat' first
    | with_reducible assumption
    | (rename_i e; with_reducible refine Keeps.ofSnd (pq := pq) e ?_ (fun _ => ?_) <;> clear e)
    | (rename_i e; with_reducible refine Keeps.ofFst (pq := pq) e ?_ (fun _ => ?_) <;> clear e)
    | (extract_lets -underBinder +onlyGivenNames -merge x; with_reducible refine Keeps.cut (pq := pq) x ?_ (fun _ => ?_); rotate_left; clear_value x; rotate_left; subst x)
    | (extract_lets -underBinder +onlyGivenNames -merge x; subst x)
    | with_reducible apply State.putPairs_keeps
    | with_reducible apply State.stageCommand_keeps
    | with_reducible apply State.finish_keeps
    | with_reducible apply State.stagingWrite_keepsP
    | (with_reducible refine State.stagingWrite_keepsE (by with_reducible assumption) ?_)
    | intro _

theorem State.stageCheckEntry_keeps {pq : List Instr} {s : State} {n : Nat} (hs : State.Keeps pq s) :
    State.Keeps pq (State.stageCheckEntry s n) := by
  unfold State.stageCheckEntry
  repeat' first
    | with_reducible assumption
    | with_reducible apply State.stageCommand_keeps
    | with_reducible apply State.checkBegin_keeps
    | with_reducible apply State.start_keeps
    | intro _

theorem State.stageApplyEntry_keeps {pq : List Instr} {s : State} {n : Nat} (hs : State.Keeps pq s) :
    State.Keeps pq (State.stageApplyEntry s n) := by
  unfold State.stageApplyEntry
  repeat' first
    | with_reducible assumption
    | (rename_i e; with_reducible refine Keeps.ofSnd (pq := pq) e ?_ (fun _ => ?_) <;> clear e)
    | (rename_i e; with_reducible refine Keeps.ofFst (pq := pq) e ?_ (fun _ => ?_) <;> clear e)
    | (extract_lets -underBinder +onlyGivenNames -merge x; with_reducible refine Keeps.cut (pq := pq) x ?_ (fun _ => ?_); rotate_left; clear_value x; rotate_left; subst x)
    | (extract_lets -underBinder +onlyGivenNames -merge x; subst x)
    | with_reducible apply State.stageCommand_keeps
    | with_reducible apply State.start_keeps
    | with_reducible apply State.finish_keeps
    | with_reducible apply State.applyOrder_keepsP
    | (with_reducible refine State.applyOrder_keepsE (by with_reducible assumption) ?_)
    | intro _
    | split
    | simp only [Keeps.upd]

theorem State.stageCancelEntry_keeps {pq : List Instr} {s : State} {n : Nat} (hs : State.Keeps pq s) :
    State.Keeps pq (State.stageCancelEntry s n) := by
  unfold State.stageCancelEntry
  repeat' first
    | with_reducible assumption
    | with_reducible apply State.stageCommand_keeps
    | with_reducible apply State.stageCancel_keeps
    | with_reducible apply State.finish_keeps
    | intro _

theorem State.stageStatusEntry_keeps {pq : List Instr} {s : State} {n : Nat} (hs : State.Keeps pq s) :
    State.Keeps pq (State.stageStatusEntry s n) := by
  unfold State.stageStatusEntry
  repeat' first
    | with_reducible assumption
    | with_reducible apply State.stageCommand_keeps
    | with_reducible apply State.finish_keeps
    | intro _

theorem State.abortEntry_keeps {pq : List Instr} {s : State} {n : Nat} (hs : State.Keeps pq s) :
    State.Keeps pq (State.abortEntry s n) := by
  unfold State.abortEntry
  repeat' first
    | with_reducible assumption
    | (rename_i e; with_reducible refine Keeps.ofSnd (pq := pq) e ?_ (fun _ => ?_) <;> clear e)
    | (rename_i e; with_reducible refine Keeps.ofFst (pq := pq) e ?_ (fun _ => ?_) <;> clear e)
    | (extract_lets -underBinder +onlyGivenNames -merge x; with_reducible refine Keeps.cut (pq := pq) x ?_ (fun _ => ?_); rotate_left; clear_value x; rotate_left; subst x)
    | (extract_lets -underBinder +onlyGivenNames -merge x; subst x)
    | with_reducible apply State.command_keeps
    | with_reducible apply State.stopEntry_keeps
    | with_reducible apply State.waitFor_keeps
    | (with_reducible refine forEach_keeps ?_ (fun _ _ _ => ?_))
    | intro _
    | split
    | simp only [Keeps.upd]

theorem State.nvsUpdateEntry_keeps {pq : List Instr} {s : State} {n : Nat} (hs : State.Keeps pq s) :
    State.Keeps pq (State.nvsUpdateEntry s n) := by
  unfold State.nvsUpdateEntry
  repeat' first
    | with_reducible assumption
    | (rename_i e; with_reducible refine Keeps.ofSnd (pq := pq) e ?_ (fun _ => ?_) <;> clear e)
    | (rename_i e; with_reducible refine Keeps.ofFst (pq := pq) e ?_ (fun _ => ?_) <;> clear e)
    | with_reducible apply State.command_keeps
    | with_reducible apply State.updateBegin_keeps
    | with_reducible apply State.start_keeps
    | intro _
    | simp only [Keeps.upd]

theorem State.microcodeRejected_keeps {pq : List Instr} {s : State} {i : Fin 3} (hs : State.Keeps pq s) :
    State.Keeps pq (State.microcodeRejected s i) := by
  unfold State.microcodeRejected
  repeat' first
    | with_reducible assumption
    | with_reducible apply State.raise_keeps
    | intro _
    | split
    | simp only [Keeps.upd]

theorem State.imagePending_keeps {pq : List Instr} {s : State} {i : Fin 3} {v : Word} (hs : State.Keeps pq s) :
    State.Keeps pq (State.imagePending s i v) := by
  unfold State.imagePending
  repeat' first
    | with_reducible assumption
    | with_reducible apply State.updateEnd_keeps
    | with_reducible apply State.bootControl_keeps
    | with_reducible apply State.setImage_keeps
    | intro _
    | split
    | simp only [Keeps.upd]

theorem State.imageEnds_keeps {pq : List Instr} {s : State} {i : Fin 3} {e : ImageEnd} (hs : State.Keeps pq s) :
    State.Keeps pq (State.imageEnds s i e) := by
  unfold State.imageEnds
  repeat' first
    | with_reducible assumption
    | (rename_i e; with_reducible refine Keeps.ofSnd (pq := pq) e ?_ (fun _ => ?_) <;> clear e)
    | (rename_i e; with_reducible refine Keeps.ofFst (pq := pq) e ?_ (fun _ => ?_) <;> clear e)
    | (extract_lets -underBinder +onlyGivenNames -merge x; with_reducible refine Keeps.cut (pq := pq) x ?_ (fun _ => ?_); rotate_left; clear_value x; rotate_left; subst x)
    | (extract_lets -underBinder +onlyGivenNames -merge x; subst x)
    | with_reducible apply State.imagePending_keeps
    | with_reducible apply State.microcodeRejected_keeps
    | with_reducible apply State.updateEnd_keeps
    | with_reducible apply State.fault_keeps
    | with_reducible apply State.raise_keeps
    | intro _
    | split
    | simp only [Keeps.upd]

theorem State.nvsUpdateEnds_keeps {pq : List Instr} {s : State} {i : Fin 3} {e : ImageEnd} (hs : State.Keeps pq s) :
    State.Keeps pq (State.nvsUpdateEnds s i e) := by
  unfold State.nvsUpdateEnds
  repeat' first
    | with_reducible assumption
    | with_reducible apply State.imageEnds_keeps
    | with_reducible apply State.outcome_keeps
    | split
    | simp only [Keeps.upd]

theorem State.logReadEntry_keeps {pq : List Instr} {s : State} {n : Nat} (hs : State.Keeps pq s) :
    State.Keeps pq (State.logReadEntry s n) := by
  unfold State.logReadEntry
  repeat' first
    | with_reducible assumption
    | (rename_i e; with_reducible refine Keeps.ofSnd (pq := pq) e ?_ (fun _ => ?_) <;> clear e)
    | (rename_i e; with_reducible refine Keeps.ofFst (pq := pq) e ?_ (fun _ => ?_) <;> clear e)
    | (extract_lets -underBinder +onlyGivenNames -merge x; with_reducible refine Keeps.cut (pq := pq) x ?_ (fun _ => ?_); rotate_left; clear_value x; rotate_left; subst x)
    | (extract_lets -underBinder +onlyGivenNames -merge x; subst x)
    | with_reducible apply State.command_keeps
    | with_reducible apply State.finish_keeps
    | with_reducible apply State.hostWrite_keeps
    | intro _
    | split
    | simp only [Keeps.upd]

theorem execIdentify_keeps {pq : List Instr} {n : Fin 4096} {s : State} (hs : State.Keeps pq s) :
    KeepsO pq (execIdentify n s) := by
  unfold execIdentify
  repeat' first
    | with_reducible assumption
    | with_reducible apply KeepsO.mk
    | with_reducible apply State.identifyEntry_keeps

theorem execCreateCq_keeps {pq : List Instr} {n : Fin 4096} {s : State} (hs : State.Keeps pq s) :
    KeepsO pq (execCreateCq n s) := by
  unfold execCreateCq
  repeat' first
    | with_reducible assumption
    | with_reducible apply KeepsO.mk
    | with_reducible apply State.createRing_keeps

theorem execDeleteCq_keeps {pq : List Instr} {n : Fin 4096} {s : State} (hs : State.Keeps pq s) :
    KeepsO pq (execDeleteCq n s) := by
  unfold execDeleteCq
  repeat' first
    | with_reducible assumption
    | with_reducible apply KeepsO.mk
    | with_reducible apply State.deleteRing_keeps

theorem execCreateSq_keeps {pq : List Instr} {n : Fin 4096} {s : State} (hs : State.Keeps pq s) :
    KeepsO pq (execCreateSq n s) := by
  unfold execCreateSq
  repeat' first
    | with_reducible assumption
    | with_reducible apply KeepsO.mk
    | with_reducible apply State.createQueue_keeps

theorem execDeleteSq_keeps {pq : List Instr} {n : Fin 4096} {s : State} (hs : State.Keeps pq s) :
    KeepsO pq (execDeleteSq n s) := by
  unfold execDeleteSq
  repeat' first
    | with_reducible assumption
    | with_reducible apply KeepsO.mk
    | with_reducible apply State.deleteQueue_keeps

theorem execGetFeature_keeps {pq : List Instr} {n : Fin 4096} {s : State} (hs : State.Keeps pq s) :
    KeepsO pq (execGetFeature n s) := by
  unfold execGetFeature
  repeat' first
    | with_reducible assumption
    | with_reducible apply KeepsO.mk
    | with_reducible apply State.getFeatureEntry_keeps

theorem execSetQueueArb_keeps {pq : List Instr} {n : Fin 4096} {s : State} (hs : State.Keeps pq s) :
    KeepsO pq (execSetQueueArb n s) := by
  unfold execSetQueueArb
  repeat' first
    | with_reducible assumption
    | with_reducible apply KeepsO.mk
    | with_reducible apply State.setArb_keeps

theorem execSetCompletionAgg_keeps {pq : List Instr} {n : Fin 4096} {s : State} (hs : State.Keeps pq s) :
    KeepsO pq (execSetCompletionAgg n s) := by
  unfold execSetCompletionAgg
  repeat' first
    | with_reducible assumption
    | with_reducible apply KeepsO.mk
    | with_reducible apply State.setAgg_keeps

theorem execSetModeRequest_keeps {pq : List Instr} {n : Fin 4096} {s : State} (hs : State.Keeps pq s) :
    KeepsO pq (execSetModeRequest n s) := by
  unfold execSetModeRequest
  repeat' first
    | with_reducible assumption
    | with_reducible apply KeepsO.mk
    | with_reducible apply State.setMode_keeps

theorem execSetShares_keeps {pq : List Instr} {n : Fin 4096} {s : State} (hs : State.Keeps pq s) :
    KeepsO pq (execSetShares n s) := by
  unfold execSetShares
  repeat' first
    | with_reducible assumption
    | with_reducible apply KeepsO.mk
    | with_reducible apply State.setSharesEntry_keeps

theorem execStageClaim_keeps {pq : List Instr} {n : Fin 4096} {s : State} (hs : State.Keeps pq s) :
    KeepsO pq (execStageClaim n s) := by
  unfold execStageClaim
  repeat' first
    | with_reducible assumption
    | with_reducible apply KeepsO.mk
    | with_reducible apply State.claimEntry_keeps

theorem execStageWrite_keeps {pq : List Instr} {n : Fin 4096} {s : State} (hs : State.Keeps pq s) :
    KeepsO pq (execStageWrite n s) := by
  unfold execStageWrite
  repeat' first
    | with_reducible assumption
    | with_reducible apply KeepsO.mk
    | with_reducible apply State.stageWriteEntry_keeps

theorem execStageCheck_keeps {pq : List Instr} {n : Fin 4096} {s : State} (hs : State.Keeps pq s) :
    KeepsO pq (execStageCheck n s) := by
  unfold execStageCheck
  repeat' first
    | with_reducible assumption
    | with_reducible apply KeepsO.mk
    | with_reducible apply State.stageCheckEntry_keeps

theorem execStageApply_keeps {pq : List Instr} {n : Fin 4096} {s : State} (hs : State.Keeps pq s) :
    KeepsO pq (execStageApply n s) := by
  unfold execStageApply
  repeat' first
    | with_reducible assumption
    | with_reducible apply KeepsO.mk
    | with_reducible apply State.stageApplyEntry_keeps

theorem execStageCancel_keeps {pq : List Instr} {n : Fin 4096} {s : State} (hs : State.Keeps pq s) :
    KeepsO pq (execStageCancel n s) := by
  unfold execStageCancel
  repeat' first
    | with_reducible assumption
    | with_reducible apply KeepsO.mk
    | with_reducible apply State.stageCancelEntry_keeps

theorem execStageStatus_keeps {pq : List Instr} {n : Fin 4096} {s : State} (hs : State.Keeps pq s) :
    KeepsO pq (execStageStatus n s) := by
  unfold execStageStatus
  repeat' first
    | with_reducible assumption
    | with_reducible apply KeepsO.mk
    | with_reducible apply State.stageStatusEntry_keeps

theorem execAbort_keeps {pq : List Instr} {n : Fin 4096} {s : State} (hs : State.Keeps pq s) :
    KeepsO pq (execAbort n s) := by
  unfold execAbort
  repeat' first
    | with_reducible assumption
    | with_reducible apply KeepsO.mk
    | with_reducible apply State.abortEntry_keeps

theorem execNvsUpdate_keeps {pq : List Instr} {n : Fin 4096} {s : State} (hs : State.Keeps pq s) :
    KeepsO pq (execNvsUpdate n s) := by
  unfold execNvsUpdate
  repeat' first
    | with_reducible assumption
    | with_reducible apply KeepsO.mk
    | with_reducible apply State.nvsUpdateEntry_keeps

theorem execNvsUpdateEnd_keeps {pq : List Instr} {image : Fin 3} {e : ImageEnd} {s : State} (hs : State.Keeps pq s) :
    KeepsO pq (execNvsUpdateEnd image e s) := by
  unfold execNvsUpdateEnd
  repeat' first
    | with_reducible assumption
    | with_reducible apply KeepsO.mk
    | with_reducible apply State.nvsUpdateEnds_keeps

theorem execLogRead_keeps {pq : List Instr} {n : Fin 4096} {s : State} (hs : State.Keeps pq s) :
    KeepsO pq (execLogRead n s) := by
  unfold execLogRead
  repeat' first
    | with_reducible assumption
    | with_reducible apply KeepsO.mk
    | with_reducible apply State.logReadEntry_keeps

theorem State.putMail_keeps {pq : List Instr} {s : State} {l : List Byte} (hs : State.Keeps pq s) :
    State.Keeps pq (State.putMail s l) := by
  unfold State.putMail
  repeat' first
    | with_reducible assumption
    | (extract_lets -underBinder +onlyGivenNames -merge x; with_reducible refine Keeps.cut (pq := pq) x ?_ (fun _ => ?_); rotate_left; clear_value x; rotate_left; subst x)
    | (extract_lets -underBinder +onlyGivenNames -merge x; subst x)
    | with_reducible apply State.setReg_keeps
    | (with_reducible refine forEach_keeps ?_ (fun _ _ _ => ?_))
    | intro _

theorem State.mailEnd_keeps {pq : List Instr} {s : State} {st : Status} {reply : List Byte} (hs : State.Keeps pq s) :
    State.Keeps pq (State.mailEnd s st reply) := by
  unfold State.mailEnd
  repeat' first
    | with_reducible assumption
    | (extract_lets -underBinder +onlyGivenNames -merge x; with_reducible refine Keeps.cut (pq := pq) x ?_ (fun _ => ?_); rotate_left; clear_value x; rotate_left; subst x)
    | (extract_lets -underBinder +onlyGivenNames -merge x; subst x)
    | with_reducible apply State.putMail_keeps
    | with_reducible apply State.raise_keeps
    | simp only [Keeps.upd]

theorem State.mailGo_keeps {pq : List Instr} {s : State} {cmd len : Nat} (hs : State.Keeps pq s) :
    State.Keeps pq (State.mailGo s cmd len) := by
  unfold State.mailGo
  repeat' first
    | with_reducible assumption
    | (extract_lets -underBinder +onlyGivenNames -merge x; with_reducible refine Keeps.cut (pq := pq) x ?_ (fun _ => ?_); rotate_left; clear_value x; rotate_left; subst x)
    | (extract_lets -underBinder +onlyGivenNames -merge x; subst x)
    | with_reducible apply State.mailEnd_keeps
    | split
    | simp only [Keeps.upd]

theorem State.mailRun_keeps {pq : List Instr} {s : State} {cmd : Nat} {f : State → State} (hs : State.Keeps pq s) (hf : ∀ (x0 : State), State.Keeps pq x0 → State.Keeps pq (f x0)) :
    State.Keeps pq (State.mailRun s cmd f) := by
  unfold State.mailRun
  repeat' first
    | with_reducible assumption
    | with_reducible apply hf
    | split

theorem State.readSensors_keeps {pq : List Instr} {s : State} (hs : State.Keeps pq s) :
    State.Keeps pq (State.readSensors s) := by
  unfold State.readSensors
  repeat' first
    | with_reducible assumption
    | (extract_lets -underBinder +onlyGivenNames -merge x; with_reducible refine Keeps.cut (pq := pq) x ?_ (fun _ => ?_); rotate_left; clear_value x; rotate_left; subst x)
    | (extract_lets -underBinder +onlyGivenNames -merge x; subst x)
    | with_reducible apply State.mailEnd_keeps
    | intro _

theorem State.debugChallenge_keeps {pq : List Instr} {s : State} {nonce : List Byte} (hs : State.Keeps pq s) :
    State.Keeps pq (State.debugChallenge s nonce) := by
  unfold State.debugChallenge
  repeat' first
    | with_reducible assumption
    | (extract_lets -underBinder +onlyGivenNames -merge x; with_reducible refine Keeps.cut (pq := pq) x ?_ (fun _ => ?_); rotate_left; clear_value x; rotate_left; subst x)
    | (extract_lets -underBinder +onlyGivenNames -merge x; subst x)
    | with_reducible apply State.mailEnd_keeps
    | simp only [Keeps.upd]

theorem State.debugUnlock_keeps {pq : List Instr} {s : State} {good : Bool} (hs : State.Keeps pq s) :
    State.Keeps pq (State.debugUnlock s good) := by
  unfold State.debugUnlock
  repeat' first
    | with_reducible assumption
    | (rename_i e; with_reducible refine Keeps.ofSnd (pq := pq) e ?_ (fun _ => ?_) <;> clear e)
    | (rename_i e; with_reducible refine Keeps.ofFst (pq := pq) e ?_ (fun _ => ?_) <;> clear e)
    | (extract_lets -underBinder +onlyGivenNames -merge x; with_reducible refine Keeps.cut (pq := pq) x ?_ (fun _ => ?_); rotate_left; clear_value x; rotate_left; subst x)
    | (extract_lets -underBinder +onlyGivenNames -merge x; subst x)
    | with_reducible apply State.mailEnd_keeps
    | with_reducible apply State.raise_keeps
    | with_reducible apply State.logRecord_keeps
    | with_reducible apply State.drawFree_keepsP
    | (with_reducible refine State.drawFree_keepsE (by with_reducible assumption) ?_)
    | split
    | simp only [Keeps.upd]

theorem State.nvsReadMail_keeps {pq : List Instr} {s : State} (hs : State.Keeps pq s) :
    State.Keeps pq (State.nvsReadMail s) := by
  unfold State.nvsReadMail
  repeat' first
    | with_reducible assumption
    | (rename_i e; with_reducible refine Keeps.ofSnd (pq := pq) e ?_ (fun _ => ?_) <;> clear e)
    | (rename_i e; with_reducible refine Keeps.ofFst (pq := pq) e ?_ (fun _ => ?_) <;> clear e)
    | (extract_lets -underBinder +onlyGivenNames -merge x; with_reducible refine Keeps.cut (pq := pq) x ?_ (fun _ => ?_); rotate_left; clear_value x; rotate_left; subst x)
    | (extract_lets -underBinder +onlyGivenNames -merge x; subst x)
    | with_reducible apply State.mailEnd_keeps
    | intro _
    | split
    | simp only [Keeps.upd]

theorem execReadSensors_keeps {pq : List Instr} {s : State} (hs : State.Keeps pq s) :
    KeepsO pq (execReadSensors s) := by
  unfold execReadSensors
  repeat' first
    | with_reducible assumption
    | with_reducible apply KeepsO.mk
    | with_reducible apply State.readSensors_keeps
    | with_reducible apply State.mailRun_keeps

theorem execDebugChallenge_keeps {pq : List Instr} {nonce : List Byte} {s : State} (hs : State.Keeps pq s) :
    KeepsO pq (execDebugChallenge nonce s) := by
  unfold execDebugChallenge
  repeat' first
    | with_reducible assumption
    | with_reducible apply KeepsO.mk
    | with_reducible apply State.debugChallenge_keeps
    | with_reducible apply State.mailRun_keeps
    | intro _

theorem execDebugUnlock_keeps {pq : List Instr} {good : Bool} {s : State} (hs : State.Keeps pq s) :
    KeepsO pq (execDebugUnlock good s) := by
  unfold execDebugUnlock
  repeat' first
    | with_reducible assumption
    | with_reducible apply KeepsO.mk
    | with_reducible apply State.debugUnlock_keeps
    | with_reducible apply State.mailRun_keeps
    | intro _

theorem execNvsRead_keeps {pq : List Instr} {s : State} (hs : State.Keeps pq s) :
    KeepsO pq (execNvsRead s) := by
  unfold execNvsRead
  repeat' first
    | with_reducible assumption
    | with_reducible apply KeepsO.mk
    | with_reducible apply State.nvsReadMail_keeps
    | with_reducible apply State.mailRun_keeps

end Sys2Proof.Machine
end

