-- ==== Sys2Proof/Laws/KeepsRegs.lean ====
section
/-! SUPPORT. What each operation keeps (see `State.Keeps`): register writes, management, ticks and boot. -/

set_option maxRecDepth 4000

namespace Sys2Proof.Machine

theorem State.putRw_keeps {pq : List Instr} {s : State} {r : RegAt} {v : Nat} (hs : State.Keeps pq s) :
    State.Keeps pq (State.putRw s r v) := by
  unfold State.putRw
  repeat' first
    | with_reducible assumption
    | (extract_lets -underBinder +onlyGivenNames -merge x; with_reducible refine Keeps.cut (pq := pq) x ?_ (fun _ => ?_); rotate_left; clear_value x; rotate_left; subst x)
    | (extract_lets -underBinder +onlyGivenNames -merge x; subst x)
    | with_reducible apply State.setReg_keeps
    | split

theorem State.putIcu_keeps {pq : List Instr} {s : State} {r : RegAt} {v : Nat} (hs : State.Keeps pq s) :
    State.Keeps pq (State.putIcu s r v) := by
  unfold State.putIcu
  repeat' first
    | with_reducible assumption
    | with_reducible apply State.putRw_keeps
    | with_reducible apply State.hostCheck_keeps

theorem State.putPersistent_keeps {pq : List Instr} {s : State} {r : RegAt} {v : Nat} (hs : State.Keeps pq s) :
    State.Keeps pq (State.putPersistent s r v) := by
  unfold State.putPersistent
  repeat' first
    | with_reducible assumption
    | with_reducible apply State.putRw_keeps
    | with_reducible apply State.persist_keeps

theorem State.putTimeout_keeps {pq : List Instr} {s : State} {f key v : Nat} (hs : State.Keeps pq s) :
    State.Keeps pq (State.putTimeout s f key v) := by
  unfold State.putTimeout
  repeat' first
    | with_reducible assumption
    | (extract_lets -underBinder +onlyGivenNames -merge x; with_reducible refine Keeps.cut (pq := pq) x ?_ (fun _ => ?_); rotate_left; clear_value x; rotate_left; subst x)
    | (extract_lets -underBinder +onlyGivenNames -merge x; subst x)
    | with_reducible apply State.beat_keeps
    | with_reducible apply State.setReg_keeps
    | split

theorem State.writeTime_keeps {pq : List Instr} {s : State} {m : Master} {r : RegAt} {v : Word} (hs : State.Keeps pq s) :
    State.Keeps pq (State.writeTime s m r v) := by
  unfold State.writeTime
  repeat' first
    | with_reducible assumption
    | with_reducible apply State.putRw_keeps
    | with_reducible apply State.timeSet_keeps
    | with_reducible apply State.refsReconfigured_keeps
    | with_reducible apply State.sysCancel_keeps
    | with_reducible apply State.sysApply_keeps
    | with_reducible apply State.sysCheck_keeps
    | with_reducible apply State.sysClaim_keeps
    | split
    | simp only [Keeps.upd]

theorem State.writeQmgr_keeps {pq : List Instr} {s : State} {r : RegAt} {v : Word} (hs : State.Keeps pq s) :
    State.Keeps pq (State.writeQmgr s r v) := by
  unfold State.writeQmgr
  repeat' first
    | with_reducible assumption
    | with_reducible apply State.putTimeout_keeps
    | with_reducible apply State.putRw_keeps
    | with_reducible apply State.adminDisable_keeps
    | with_reducible apply State.adminEnable_keeps
    | with_reducible apply State.beat_keeps
    | split
    | simp only [Keeps.upd]

theorem State.writeIcu_keeps {pq : List Instr} {s : State} {m : Master} {r : RegAt} {v : Word} (hs : State.Keeps pq s) :
    State.Keeps pq (State.writeIcu s m r v) := by
  unfold State.writeIcu
  repeat' first
    | with_reducible assumption
    | (extract_lets -underBinder +onlyGivenNames -merge x; with_reducible refine Keeps.cut (pq := pq) x ?_ (fun _ => ?_); rotate_left; clear_value x; rotate_left; subst x)
    | (extract_lets -underBinder +onlyGivenNames -merge x; subst x)
    | with_reducible apply State.putIcu_keeps
    | with_reducible apply State.putRw_keeps
    | with_reducible apply State.icuBits_keeps
    | with_reducible apply State.icuCompleteWrite_keeps
    | with_reducible apply State.snufRetest_keeps
    | with_reducible apply State.snufHalt_keeps
    | split
    | simp only [Keeps.upd]

theorem State.writeMail_keeps {pq : List Instr} {s : State} {r : RegAt} {v : Word} (hs : State.Keeps pq s) :
    State.Keeps pq (State.writeMail s r v) := by
  unfold State.writeMail
  repeat' first
    | with_reducible assumption
    | (extract_lets -underBinder +onlyGivenNames -merge x; with_reducible refine Keeps.cut (pq := pq) x ?_ (fun _ => ?_); rotate_left; clear_value x; rotate_left; subst x)
    | (extract_lets -underBinder +onlyGivenNames -merge x; subst x)
    | with_reducible apply State.putRw_keeps
    | with_reducible apply State.mailGo_keeps
    | split

theorem State.writePwr_keeps {pq : List Instr} {s : State} {m : Master} {r : RegAt} {v : Word} (hs : State.Keeps pq s) :
    State.Keeps pq (State.writePwr s m r v) := by
  unfold State.writePwr
  repeat' first
    | with_reducible assumption
    | with_reducible apply State.writeMail_keeps
    | with_reducible apply State.putPersistent_keeps
    | with_reducible apply State.putRw_keeps
    | with_reducible apply State.requestMode_keeps
    | split
    | simp only [Keeps.upd]

theorem State.writeBpm_keeps {pq : List Instr} {s : State} {r : RegAt} {v : Word} (hs : State.Keeps pq s) :
    State.Keeps pq (State.writeBpm s r v) := by
  unfold State.writeBpm
  repeat' first
    | with_reducible assumption
    | (extract_lets -underBinder +onlyGivenNames -merge x; with_reducible refine Keeps.cut (pq := pq) x ?_ (fun _ => ?_); rotate_left; clear_value x; rotate_left; subst x)
    | (extract_lets -underBinder +onlyGivenNames -merge x; subst x)
    | with_reducible apply State.putRw_keeps
    | with_reducible apply State.auditRelease_keeps
    | with_reducible apply State.dmaClear_keeps
    | with_reducible apply State.dmaStop_keeps
    | with_reducible apply State.dmaStart_keeps
    | split
    | simp only [Keeps.upd]

theorem State.writeSwc_keeps {pq : List Instr} {s : State} {m : Master} {r : RegAt} {v : Word} (hs : State.Keeps pq s) :
    State.Keeps pq (State.writeSwc s m r v) := by
  unfold State.writeSwc
  repeat' first
    | with_reducible assumption
    | (extract_lets -underBinder +onlyGivenNames -merge x; with_reducible refine Keeps.cut (pq := pq) x ?_ (fun _ => ?_); rotate_left; clear_value x; rotate_left; subst x)
    | (extract_lets -underBinder +onlyGivenNames -merge x; subst x)
    | with_reducible apply State.putRw_keeps
    | with_reducible apply State.routineUnload_keeps
    | with_reducible apply State.routineLoad_keeps
    | with_reducible apply State.histSnap_keeps
    | with_reducible apply State.trfTblRead_keeps
    | with_reducible apply State.trfTblWrite_keeps
    | with_reducible apply State.tblInvalidate_keeps
    | with_reducible apply State.tblRead_keeps
    | with_reducible apply State.tblWrite_keeps
    | with_reducible apply State.handover_keeps
    | with_reducible apply State.setEvents_keeps
    | with_reducible apply State.setChan_keeps
    | split
    | simp only [Keeps.upd]

theorem State.writeTest_keeps {pq : List Instr} {s : State} {m : Master} {r : RegAt} {v : Word} (hs : State.Keeps pq s) :
    State.Keeps pq (State.writeTest s m r v) := by
  unfold State.writeTest
  repeat' first
    | with_reducible assumption
    | (extract_lets -underBinder +onlyGivenNames -merge x; with_reducible refine Keeps.cut (pq := pq) x ?_ (fun _ => ?_); rotate_left; clear_value x; rotate_left; subst x)
    | (extract_lets -underBinder +onlyGivenNames -merge x; subst x)
    | with_reducible apply State.putRw_keeps
    | with_reducible apply State.testInject_keeps
    | with_reducible apply State.testTouched_keeps
    | with_reducible apply State.testUnlock_keeps
    | split
    | simp only [Keeps.upd]

theorem State.liveWrite_keeps {pq : List Instr} {s : State} {m : Master} {off : Nat} {v : Word} (hs : State.Keeps pq s) :
    State.Keeps pq (State.liveWrite s m off v) := by
  unfold State.liveWrite
  repeat' first
    | with_reducible assumption
    | with_reducible apply State.writeTest_keeps
    | with_reducible apply State.writeSwc_keeps
    | with_reducible apply State.writeBpm_keeps
    | with_reducible apply State.writePwr_keeps
    | with_reducible apply State.writeIcu_keeps
    | with_reducible apply State.writeQmgr_keeps
    | with_reducible apply State.writeTime_keeps
    | with_reducible apply State.putRw_keeps
    | with_reducible apply State.testTouched_keeps
    | split
    | simp only [Keeps.upd]

theorem State.doorbellWrite_keeps {pq : List Instr} {s : State} {off : Nat} {v : Word} (hs : State.Keeps pq s) :
    State.Keeps pq (State.doorbellWrite s off v) := by
  unfold State.doorbellWrite
  repeat' first
    | with_reducible assumption
    | (extract_lets -underBinder +onlyGivenNames -merge x; with_reducible refine Keeps.cut (pq := pq) x ?_ (fun _ => ?_); rotate_left; clear_value x; rotate_left; subst x)
    | (extract_lets -underBinder +onlyGivenNames -merge x; subst x)
    | with_reducible apply State.cqDoorbell_keeps
    | with_reducible apply State.sqDoorbell_keeps
    | split

theorem State.noteWrite_keeps {pq : List Instr} {s : State} {m : Master} {off : Nat} (hs : State.Keeps pq s) :
    State.Keeps pq (State.noteWrite s m off) := by
  unfold State.noteWrite
  repeat' first
    | with_reducible assumption
    | intro _
    | split
    | simp only [Keeps.upd]

theorem State.writeReg_keeps {pq : List Instr} {s : State} {m : Master} {off : Nat} {v : Word} (hs : State.Keeps pq s) :
    State.Keeps pq (State.writeReg s m off v) := by
  unfold State.writeReg
  repeat' first
    | with_reducible assumption
    | with_reducible apply State.noteWrite_keeps
    | with_reducible apply State.doorbellWrite_keeps
    | with_reducible apply State.liveWrite_keeps
    | with_reducible apply State.stagingView_keeps
    | intro _
    | split
    | simp only [Keeps.upd]

theorem State.vfDoorbell_keeps {pq : List Instr} {s : State} {f off : Nat} {v : Word} (hs : State.Keeps pq s) :
    State.Keeps pq (State.vfDoorbell s f off v) := by
  unfold State.vfDoorbell
  repeat' first
    | with_reducible assumption
    | with_reducible apply State.cqDoorbell_keeps
    | with_reducible apply State.sqDoorbell_keeps
    | intro _
    | split
    | simp only [Keeps.upd]

theorem State.vfWrite_keeps {pq : List Instr} {s : State} {f off : Nat} {v : Word} (hs : State.Keeps pq s) :
    State.Keeps pq (State.vfWrite s f off v) := by
  unfold State.vfWrite
  repeat' first
    | with_reducible assumption
    | (rename_i e; with_reducible refine Keeps.ofSnd (pq := pq) e ?_ (fun _ => ?_) <;> clear e)
    | (rename_i e; with_reducible refine Keeps.ofFst (pq := pq) e ?_ (fun _ => ?_) <;> clear e)
    | (extract_lets -underBinder +onlyGivenNames -merge x; with_reducible refine Keeps.cut (pq := pq) x ?_ (fun _ => ?_); rotate_left; clear_value x; rotate_left; subst x)
    | (extract_lets -underBinder +onlyGivenNames -merge x; subst x)
    | with_reducible apply State.vfDoorbell_keeps
    | with_reducible apply State.putTimeout_keeps
    | with_reducible apply State.adminDisable_keeps
    | with_reducible apply State.adminEnable_keeps
    | with_reducible apply State.vfBeat_keeps
    | with_reducible apply State.setReg_keeps
    | intro _
    | split
    | simp only [Keeps.upd]

theorem execRegisterWrite_keeps {pq : List Instr} {m : Master} {off : Nat} {v : Word} {s : State} (hs : State.Keeps pq s) :
    KeepsO pq (execRegisterWrite m off v s) := by
  unfold execRegisterWrite
  repeat' first
    | with_reducible assumption
    | with_reducible apply KeepsO.mk
    | with_reducible apply State.vfWrite_keeps
    | with_reducible apply State.writeReg_keeps
    | split
    | simp only [Keeps.upd]

theorem State.busRead_keepsP {pq : List Instr} {s : State} {m : Master} {off : Nat} {peek : Bool} (hs : State.Keeps pq s) :
    State.Keeps pq (State.busRead s m off peek).2 := by
  unfold State.busRead
  repeat' first
    | with_reducible assumption
    | (rename_i e; with_reducible refine Keeps.ofSnd (pq := pq) e ?_ (fun _ => ?_) <;> clear e)
    | (rename_i e; with_reducible refine Keeps.ofFst (pq := pq) e ?_ (fun _ => ?_) <;> clear e)
    | (extract_lets -underBinder +onlyGivenNames -merge x; with_reducible refine Keeps.cut (pq := pq) x ?_ (fun _ => ?_); rotate_left; clear_value x; rotate_left; subst x)
    | (extract_lets -underBinder +onlyGivenNames -merge x; subst x)
    | with_reducible apply State.readEffect_keeps
    | with_reducible apply State.icuClaim_keeps
    | with_reducible apply State.testTouched_keeps
    | intro _
    | split
    | simp only [Keeps.upd]
theorem State.busRead_keepsE {pq : List Instr} {s : State} {m : Master} {off : Nat} {peek : Bool} {tv2 v1} (e : State.busRead s m off peek = (v1, tv2)) (hs : State.Keeps pq s) :
    State.Keeps pq tv2 := by
  have h := State.busRead_keepsP (s := s) (m := m) (off := off) (peek := peek) hs 
  rw [e] at h; exact h

theorem State.busWrite_keeps {pq : List Instr} {s : State} {m : Master} {off : Nat} {v : Word} (hs : State.Keeps pq s) :
    State.Keeps pq (State.busWrite s m off v) := by
  unfold State.busWrite
  repeat' first
    | with_reducible assumption
    | with_reducible apply State.writeReg_keeps

theorem State.mctpReply_keeps {pq : List Instr} {s : State} {cmd code : Byte} {data : List Byte} (hs : State.Keeps pq s) :
    State.Keeps pq (State.mctpReply s cmd code data) := by
  unfold State.mctpReply
  repeat' first
    | with_reducible assumption
    | with_reducible apply State.emit_keeps

theorem State.pldmReply_keeps {pq : List Instr} {s : State} {type cmd code : Byte} {data : List Byte} (hs : State.Keeps pq s) :
    State.Keeps pq (State.pldmReply s type cmd code data) := by
  unfold State.pldmReply
  repeat' first
    | with_reducible assumption
    | with_reducible apply State.emit_keeps

theorem State.serve_keeps {pq : List Instr} {s : State} {f : State → State} (hs : State.Keeps pq s) (hf : ∀ (x0 : State), State.Keeps pq x0 → State.Keeps pq (f x0)) :
    State.Keeps pq (State.serve s f) := by
  unfold State.serve
  repeat' first
    | with_reducible assumption
    | with_reducible apply hf
    | split

theorem State.setEid_keeps {pq : List Instr} {s : State} {op : Fin 4} {eid : Byte} (hs : State.Keeps pq s) :
    State.Keeps pq (State.setEid s op eid) := by
  unfold State.setEid
  repeat' first
    | with_reducible assumption
    | with_reducible apply State.mctpReply_keeps
    | split
    | simp only [Keeps.upd]

theorem State.mctpVersion_keeps {pq : List Instr} {s : State} {msgType : Byte} (hs : State.Keeps pq s) :
    State.Keeps pq (State.mctpVersion s msgType) := by
  unfold State.mctpVersion
  repeat' first
    | with_reducible assumption
    | with_reducible apply State.mctpReply_keeps
    | split
    | simp only [Keeps.upd]

theorem execSetEndpointId_keeps {pq : List Instr} {op : Fin 4} {eid : Byte} {s : State} (hs : State.Keeps pq s) :
    KeepsO pq (execSetEndpointId op eid s) := by
  unfold execSetEndpointId
  repeat' first
    | with_reducible assumption
    | with_reducible apply KeepsO.mk
    | with_reducible apply State.setEid_keeps
    | with_reducible apply State.serve_keeps
    | intro _

theorem execGetEndpointId_keeps {pq : List Instr} {s : State} (hs : State.Keeps pq s) :
    KeepsO pq (execGetEndpointId s) := by
  unfold execGetEndpointId
  repeat' first
    | with_reducible assumption
    | with_reducible apply KeepsO.mk
    | with_reducible apply State.serve_keeps
    | with_reducible apply State.mctpReply_keeps
    | intro _

theorem execGetEndpointUuid_keeps {pq : List Instr} {s : State} (hs : State.Keeps pq s) :
    KeepsO pq (execGetEndpointUuid s) := by
  unfold execGetEndpointUuid
  repeat' first
    | with_reducible assumption
    | with_reducible apply KeepsO.mk
    | with_reducible apply State.serve_keeps
    | with_reducible apply State.mctpReply_keeps
    | intro _

theorem execGetMctpVersionSupport_keeps {pq : List Instr} {msgType : Byte} {s : State} (hs : State.Keeps pq s) :
    KeepsO pq (execGetMctpVersionSupport msgType s) := by
  unfold execGetMctpVersionSupport
  repeat' first
    | with_reducible assumption
    | with_reducible apply KeepsO.mk
    | with_reducible apply State.mctpVersion_keeps
    | with_reducible apply State.serve_keeps
    | intro _

theorem execGetMessageTypeSupport_keeps {pq : List Instr} {s : State} (hs : State.Keeps pq s) :
    KeepsO pq (execGetMessageTypeSupport s) := by
  unfold execGetMessageTypeSupport
  repeat' first
    | with_reducible assumption
    | with_reducible apply KeepsO.mk
    | with_reducible apply State.serve_keeps
    | with_reducible apply State.mctpReply_keeps
    | intro _

theorem State.takeTid_keeps {pq : List Instr} {s : State} {tid : Byte} (hs : State.Keeps pq s) :
    State.Keeps pq (State.takeTid s tid) := by
  unfold State.takeTid
  repeat' first
    | with_reducible assumption
    | with_reducible apply State.pldmReply_keeps
    | split
    | simp only [Keeps.upd]

theorem State.pldmVersion_keeps {pq : List Instr} {s : State} {type : Byte} (hs : State.Keeps pq s) :
    State.Keeps pq (State.pldmVersion s type) := by
  unfold State.pldmVersion
  repeat' first
    | with_reducible assumption
    | (extract_lets -underBinder +onlyGivenNames -merge x; with_reducible refine Keeps.cut (pq := pq) x ?_ (fun _ => ?_); rotate_left; clear_value x; rotate_left; subst x)
    | (extract_lets -underBinder +onlyGivenNames -merge x; subst x)
    | with_reducible apply State.pldmReply_keeps
    | split

theorem State.pldmCommandList_keeps {pq : List Instr} {s : State} {type : Byte} (hs : State.Keeps pq s) :
    State.Keeps pq (State.pldmCommandList s type) := by
  unfold State.pldmCommandList
  repeat' first
    | with_reducible assumption
    | with_reducible apply State.pldmReply_keeps
    | split
    | simp only [Keeps.upd]

theorem execSetTid_keeps {pq : List Instr} {tid : Byte} {s : State} (hs : State.Keeps pq s) :
    KeepsO pq (execSetTid tid s) := by
  unfold execSetTid
  repeat' first
    | with_reducible assumption
    | with_reducible apply KeepsO.mk
    | with_reducible apply State.takeTid_keeps
    | with_reducible apply State.serve_keeps
    | intro _

theorem execGetTid_keeps {pq : List Instr} {s : State} (hs : State.Keeps pq s) :
    KeepsO pq (execGetTid s) := by
  unfold execGetTid
  repeat' first
    | with_reducible assumption
    | with_reducible apply KeepsO.mk
    | with_reducible apply State.serve_keeps
    | with_reducible apply State.pldmReply_keeps
    | intro _

theorem execGetPldmVersion_keeps {pq : List Instr} {type : Byte} {s : State} (hs : State.Keeps pq s) :
    KeepsO pq (execGetPldmVersion type s) := by
  unfold execGetPldmVersion
  repeat' first
    | with_reducible assumption
    | with_reducible apply KeepsO.mk
    | with_reducible apply State.pldmVersion_keeps
    | with_reducible apply State.serve_keeps
    | intro _

theorem execGetPldmTypes_keeps {pq : List Instr} {s : State} (hs : State.Keeps pq s) :
    KeepsO pq (execGetPldmTypes s) := by
  unfold execGetPldmTypes
  repeat' first
    | with_reducible assumption
    | with_reducible apply KeepsO.mk
    | with_reducible apply State.serve_keeps
    | with_reducible apply State.pldmReply_keeps
    | intro _

theorem execGetPldmCommands_keeps {pq : List Instr} {type : Byte} {s : State} (hs : State.Keeps pq s) :
    KeepsO pq (execGetPldmCommands type s) := by
  unfold execGetPldmCommands
  repeat' first
    | with_reducible assumption
    | with_reducible apply KeepsO.mk
    | with_reducible apply State.pldmCommandList_keeps
    | with_reducible apply State.serve_keeps
    | intro _

theorem State.pdrInfo_keeps {pq : List Instr} {s : State} (hs : State.Keeps pq s) :
    State.Keeps pq (State.pdrInfo s) := by
  unfold State.pdrInfo
  repeat' first
    | with_reducible assumption
    | with_reducible apply State.pldmReply_keeps
    | (with_reducible refine foldl_keeps ?_ (fun _ _ _ => ?_))

theorem State.pdr_keeps {pq : List Instr} {s : State} {handle : Word} (hs : State.Keeps pq s) :
    State.Keeps pq (State.pdr s handle) := by
  unfold State.pdr
  repeat' first
    | with_reducible assumption
    | (extract_lets -underBinder +onlyGivenNames -merge x; with_reducible refine Keeps.cut (pq := pq) x ?_ (fun _ => ?_); rotate_left; clear_value x; rotate_left; subst x)
    | (extract_lets -underBinder +onlyGivenNames -merge x; subst x)
    | with_reducible apply State.pldmReply_keeps
    | split
    | simp only [Keeps.upd]

theorem State.sensorReading_keeps {pq : List Instr} {s : State} {id : BitVec 16} (hs : State.Keeps pq s) :
    State.Keeps pq (State.sensorReading s id) := by
  unfold State.sensorReading
  repeat' first
    | with_reducible assumption
    | (rename_i e; with_reducible refine Keeps.ofSnd (pq := pq) e ?_ (fun _ => ?_) <;> clear e)
    | (rename_i e; with_reducible refine Keeps.ofFst (pq := pq) e ?_ (fun _ => ?_) <;> clear e)
    | with_reducible apply State.pldmReply_keeps
    | split
    | simp only [Keeps.upd]

theorem State.stateReading_keeps {pq : List Instr} {s : State} {id : BitVec 16} (hs : State.Keeps pq s) :
    State.Keeps pq (State.stateReading s id) := by
  unfold State.stateReading
  repeat' first
    | with_reducible assumption
    | (extract_lets -underBinder +onlyGivenNames -merge x; with_reducible refine Keeps.cut (pq := pq) x ?_ (fun _ => ?_); rotate_left; clear_value x; rotate_left; subst x)
    | (extract_lets -underBinder +onlyGivenNames -merge x; subst x)
    | with_reducible apply State.pldmReply_keeps
    | split
    | simp only [Keeps.upd]

theorem State.setState_keeps {pq : List Instr} {s : State} {id : BitVec 16} {state : Byte} (hs : State.Keeps pq s) :
    State.Keeps pq (State.setState s id state) := by
  unfold State.setState
  repeat' first
    | with_reducible assumption
    | with_reducible apply State.pldmReply_keeps
    | with_reducible apply State.requestMode_keeps
    | split

theorem State.setPcap_keeps {pq : List Instr} {s : State} {id : BitVec 16} {v : Word} (hs : State.Keeps pq s) :
    State.Keeps pq (State.setPcap s id v) := by
  unfold State.setPcap
  repeat' first
    | with_reducible assumption
    | (extract_lets -underBinder +onlyGivenNames -merge x; with_reducible refine Keeps.cut (pq := pq) x ?_ (fun _ => ?_); rotate_left; clear_value x; rotate_left; subst x)
    | (extract_lets -underBinder +onlyGivenNames -merge x; subst x)
    | with_reducible apply State.pldmReply_keeps
    | with_reducible apply State.persist_keeps
    | with_reducible apply State.setReg_keeps
    | split

theorem State.getPcap_keeps {pq : List Instr} {s : State} {id : BitVec 16} (hs : State.Keeps pq s) :
    State.Keeps pq (State.getPcap s id) := by
  unfold State.getPcap
  repeat' first
    | with_reducible assumption
    | (extract_lets -underBinder +onlyGivenNames -merge x; with_reducible refine Keeps.cut (pq := pq) x ?_ (fun _ => ?_); rotate_left; clear_value x; rotate_left; subst x)
    | (extract_lets -underBinder +onlyGivenNames -merge x; subst x)
    | with_reducible apply State.pldmReply_keeps
    | split

theorem State.setReceiver_keeps {pq : List Instr} {s : State} {enable addr : Byte} (hs : State.Keeps pq s) :
    State.Keeps pq (State.setReceiver s enable addr) := by
  unfold State.setReceiver
  repeat' first
    | with_reducible assumption
    | with_reducible apply State.pldmReply_keeps
    | split
    | simp only [Keeps.upd]

theorem execGetPdrRepositoryInfo_keeps {pq : List Instr} {s : State} (hs : State.Keeps pq s) :
    KeepsO pq (execGetPdrRepositoryInfo s) := by
  unfold execGetPdrRepositoryInfo
  repeat' first
    | with_reducible assumption
    | with_reducible apply KeepsO.mk
    | with_reducible apply State.pdrInfo_keeps
    | with_reducible apply State.serve_keeps

theorem execGetPdr_keeps {pq : List Instr} {handle : Word} {s : State} (hs : State.Keeps pq s) :
    KeepsO pq (execGetPdr handle s) := by
  unfold execGetPdr
  repeat' first
    | with_reducible assumption
    | with_reducible apply KeepsO.mk
    | with_reducible apply State.pdr_keeps
    | with_reducible apply State.serve_keeps
    | intro _

theorem execGetSensorReading_keeps {pq : List Instr} {id : BitVec 16} {s : State} (hs : State.Keeps pq s) :
    KeepsO pq (execGetSensorReading id s) := by
  unfold execGetSensorReading
  repeat' first
    | with_reducible assumption
    | with_reducible apply KeepsO.mk
    | with_reducible apply State.sensorReading_keeps
    | with_reducible apply State.serve_keeps
    | intro _

theorem execGetStateSensorReadings_keeps {pq : List Instr} {id : BitVec 16} {s : State} (hs : State.Keeps pq s) :
    KeepsO pq (execGetStateSensorReadings id s) := by
  unfold execGetStateSensorReadings
  repeat' first
    | with_reducible assumption
    | with_reducible apply KeepsO.mk
    | with_reducible apply State.stateReading_keeps
    | with_reducible apply State.serve_keeps
    | intro _

theorem execSetStateEffecterStates_keeps {pq : List Instr} {id : BitVec 16} {state : Byte} {s : State} (hs : State.Keeps pq s) :
    KeepsO pq (execSetStateEffecterStates id state s) := by
  unfold execSetStateEffecterStates
  repeat' first
    | with_reducible assumption
    | with_reducible apply KeepsO.mk
    | with_reducible apply State.setState_keeps
    | with_reducible apply State.serve_keeps
    | intro _

theorem execSetNumericEffecterValue_keeps {pq : List Instr} {id : BitVec 16} {v : Word} {s : State} (hs : State.Keeps pq s) :
    KeepsO pq (execSetNumericEffecterValue id v s) := by
  unfold execSetNumericEffecterValue
  repeat' first
    | with_reducible assumption
    | with_reducible apply KeepsO.mk
    | with_reducible apply State.setPcap_keeps
    | with_reducible apply State.serve_keeps
    | intro _

theorem execGetNumericEffecterValue_keeps {pq : List Instr} {id : BitVec 16} {s : State} (hs : State.Keeps pq s) :
    KeepsO pq (execGetNumericEffecterValue id s) := by
  unfold execGetNumericEffecterValue
  repeat' first
    | with_reducible assumption
    | with_reducible apply KeepsO.mk
    | with_reducible apply State.getPcap_keeps
    | with_reducible apply State.serve_keeps
    | intro _

theorem execSetEventReceiver_keeps {pq : List Instr} {enable addr : Byte} {s : State} (hs : State.Keeps pq s) :
    KeepsO pq (execSetEventReceiver enable addr s) := by
  unfold execSetEventReceiver
  repeat' first
    | with_reducible assumption
    | with_reducible apply KeepsO.mk
    | with_reducible apply State.setReceiver_keeps
    | with_reducible apply State.serve_keeps
    | intro _

theorem State.fwReply_keeps {pq : List Instr} {s : State} {cmd code : Byte} {data : List Byte} (hs : State.Keeps pq s) :
    State.Keeps pq (State.fwReply s cmd code data) := by
  unfold State.fwReply
  repeat' first
    | with_reducible assumption
    | with_reducible apply State.pldmReply_keeps

theorem State.wrongPhase_keeps {pq : List Instr} {s : State} {cmd : Byte} (hs : State.Keeps pq s) :
    State.Keeps pq (State.wrongPhase s cmd) := by
  unfold State.wrongPhase
  repeat' first
    | with_reducible assumption
    | with_reducible apply State.fwReply_keeps
    | with_reducible apply idle_keeps
    | split

theorem State.setPhase_keeps {pq : List Instr} {s : State} {p : PldmPhase} (hs : State.Keeps pq s) :
    State.Keeps pq (State.setPhase s p) := by
  unfold State.setPhase
  repeat' first
    | with_reducible assumption
    | simp only [Keeps.upd]

theorem State.deviceIds_keeps {pq : List Instr} {s : State} (hs : State.Keeps pq s) :
    State.Keeps pq (State.deviceIds s) := by
  unfold State.deviceIds
  repeat' first
    | with_reducible assumption
    | (extract_lets -underBinder +onlyGivenNames -merge x; with_reducible refine Keeps.cut (pq := pq) x ?_ (fun _ => ?_); rotate_left; clear_value x; rotate_left; subst x)
    | (extract_lets -underBinder +onlyGivenNames -merge x; subst x)
    | with_reducible apply State.fwReply_keeps

theorem State.fwParameters_keeps {pq : List Instr} {s : State} (hs : State.Keeps pq s) :
    State.Keeps pq (State.fwParameters s) := by
  unfold State.fwParameters
  repeat' first
    | with_reducible assumption
    | (extract_lets -underBinder +onlyGivenNames -merge x; with_reducible refine Keeps.cut (pq := pq) x ?_ (fun _ => ?_); rotate_left; clear_value x; rotate_left; subst x)
    | (extract_lets -underBinder +onlyGivenNames -merge x; subst x)
    | with_reducible apply State.fwReply_keeps
    | intro _

theorem State.fwRequest_keeps {pq : List Instr} {s : State} (hs : State.Keeps pq s) :
    State.Keeps pq (State.fwRequest s) := by
  unfold State.fwRequest
  repeat' first
    | with_reducible assumption
    | with_reducible apply State.setPhase_keeps
    | with_reducible apply State.fwReply_keeps
    | with_reducible apply State.learn_keeps
    | with_reducible apply idle_keeps
    | split

theorem State.fwTable_keeps {pq : List Instr} {s : State} {cls comp : BitVec 16} (hs : State.Keeps pq s) :
    State.Keeps pq (State.fwTable s cls comp) := by
  unfold State.fwTable
  repeat' first
    | with_reducible assumption
    | with_reducible apply State.setPhase_keeps
    | with_reducible apply State.wrongPhase_keeps
    | with_reducible apply State.fwReply_keeps
    | with_reducible apply State.learn_keeps
    | split

theorem State.fwComponent_keeps {pq : List Instr} {s : State} {cls comp : BitVec 16} {size : Word} (hs : State.Keeps pq s) :
    State.Keeps pq (State.fwComponent s cls comp size) := by
  unfold State.fwComponent
  repeat' first
    | with_reducible assumption
    | (rename_i e; with_reducible refine Keeps.ofSnd (pq := pq) e ?_ (fun _ => ?_) <;> clear e)
    | (rename_i e; with_reducible refine Keeps.ofFst (pq := pq) e ?_ (fun _ => ?_) <;> clear e)
    | (extract_lets -underBinder +onlyGivenNames -merge x; with_reducible refine Keeps.cut (pq := pq) x ?_ (fun _ => ?_); rotate_left; clear_value x; rotate_left; subst x)
    | (extract_lets -underBinder +onlyGivenNames -merge x; subst x)
    | with_reducible apply State.wrongPhase_keeps
    | with_reducible apply State.fwReply_keeps
    | with_reducible apply State.updateBegin_keeps
    | split
    | simp only [Keeps.upd]

theorem State.fwAbort_keeps {pq : List Instr} {s : State} (hs : State.Keeps pq s) :
    State.Keeps pq (State.fwAbort s) := by
  unfold State.fwAbort
  repeat' first
    | with_reducible assumption
    | with_reducible apply State.updateAbort_keeps
    | intro _
    | split
    | simp only [Keeps.upd]

theorem State.fwData_keeps {pq : List Instr} {s : State} {data : List Byte} (hs : State.Keeps pq s) :
    State.Keeps pq (State.fwData s data) := by
  unfold State.fwData
  repeat' first
    | with_reducible assumption
    | (extract_lets -underBinder +onlyGivenNames -merge x; with_reducible refine Keeps.cut (pq := pq) x ?_ (fun _ => ?_); rotate_left; clear_value x; rotate_left; subst x)
    | (extract_lets -underBinder +onlyGivenNames -merge x; subst x)
    | with_reducible apply State.setUpdate_keeps
    | split
    | simp only [Keeps.upd]

theorem State.fwTransfer_keeps {pq : List Instr} {s : State} {ok : Bool} (hs : State.Keeps pq s) :
    State.Keeps pq (State.fwTransfer s ok) := by
  unfold State.fwTransfer
  repeat' first
    | with_reducible assumption
    | with_reducible apply State.fwAbort_keeps
    | with_reducible apply State.setPhase_keeps
    | intro _
    | split

theorem State.fwVerify_keeps {pq : List Instr} {s : State} {e : ImageEnd} (hs : State.Keeps pq s) :
    State.Keeps pq (State.fwVerify s e) := by
  unfold State.fwVerify
  repeat' first
    | with_reducible assumption
    | (rename_i e; with_reducible refine Keeps.ofSnd (pq := pq) e ?_ (fun _ => ?_) <;> clear e)
    | (rename_i e; with_reducible refine Keeps.ofFst (pq := pq) e ?_ (fun _ => ?_) <;> clear e)
    | (extract_lets -underBinder +onlyGivenNames -merge x; with_reducible refine Keeps.cut (pq := pq) x ?_ (fun _ => ?_); rotate_left; clear_value x; rotate_left; subst x)
    | (extract_lets -underBinder +onlyGivenNames -merge x; subst x)
    | with_reducible apply State.setPhase_keeps
    | with_reducible apply State.imageEnds_keeps
    | with_reducible apply State.setImage_keeps
    | intro _
    | split
    | simp only [Keeps.upd]

theorem State.fwApply_keeps {pq : List Instr} {s : State} {ok : Bool} (hs : State.Keeps pq s) :
    State.Keeps pq (State.fwApply s ok) := by
  unfold State.fwApply
  repeat' first
    | with_reducible assumption
    | (rename_i e; with_reducible refine Keeps.ofSnd (pq := pq) e ?_ (fun _ => ?_) <;> clear e)
    | (rename_i e; with_reducible refine Keeps.ofFst (pq := pq) e ?_ (fun _ => ?_) <;> clear e)
    | (extract_lets -underBinder +onlyGivenNames -merge x; with_reducible refine Keeps.cut (pq := pq) x ?_ (fun _ => ?_); rotate_left; clear_value x; rotate_left; subst x)
    | (extract_lets -underBinder +onlyGivenNames -merge x; subst x)
    | with_reducible apply State.fwAbort_keeps
    | with_reducible apply State.setPhase_keeps
    | with_reducible apply State.imagePending_keeps
    | intro _
    | split
    | simp only [Keeps.upd]

theorem State.fwActivate_keeps {pq : List Instr} {s : State} {selfContained : Bool} (hs : State.Keeps pq s) :
    State.Keeps pq (State.fwActivate s selfContained) := by
  unfold State.fwActivate
  repeat' first
    | with_reducible assumption
    | with_reducible apply State.setPhase_keeps
    | with_reducible apply State.wrongPhase_keeps
    | with_reducible apply State.fwReply_keeps
    | with_reducible apply idle_keeps
    | split

theorem State.fwStatus_keeps {pq : List Instr} {s : State} (hs : State.Keeps pq s) :
    State.Keeps pq (State.fwStatus s) := by
  unfold State.fwStatus
  repeat' first
    | with_reducible assumption
    | (extract_lets -underBinder +onlyGivenNames -merge x; with_reducible refine Keeps.cut (pq := pq) x ?_ (fun _ => ?_); rotate_left; clear_value x; rotate_left; subst x)
    | (extract_lets -underBinder +onlyGivenNames -merge x; subst x)
    | with_reducible apply State.fwReply_keeps
    | split
    | simp only [Keeps.upd]

theorem State.fwCancelComponent_keeps {pq : List Instr} {s : State} (hs : State.Keeps pq s) :
    State.Keeps pq (State.fwCancelComponent s) := by
  unfold State.fwCancelComponent
  repeat' first
    | with_reducible assumption
    | with_reducible apply State.fwAbort_keeps
    | with_reducible apply State.setPhase_keeps
    | with_reducible apply State.wrongPhase_keeps
    | with_reducible apply State.fwReply_keeps
    | split

theorem State.fwCancel_keeps {pq : List Instr} {s : State} (hs : State.Keeps pq s) :
    State.Keeps pq (State.fwCancel s) := by
  unfold State.fwCancel
  repeat' first
    | with_reducible assumption
    | with_reducible apply State.fwAbort_keeps
    | with_reducible apply State.setPhase_keeps
    | with_reducible apply State.wrongPhase_keeps
    | with_reducible apply State.fwReply_keeps
    | with_reducible apply idle_keeps
    | split

theorem execQueryDeviceIdentifiers_keeps {pq : List Instr} {s : State} (hs : State.Keeps pq s) :
    KeepsO pq (execQueryDeviceIdentifiers s) := by
  unfold execQueryDeviceIdentifiers
  repeat' first
    | with_reducible assumption
    | with_reducible apply KeepsO.mk
    | with_reducible apply State.deviceIds_keeps
    | with_reducible apply State.serve_keeps

theorem execGetFirmwareParameters_keeps {pq : List Instr} {s : State} (hs : State.Keeps pq s) :
    KeepsO pq (execGetFirmwareParameters s) := by
  unfold execGetFirmwareParameters
  repeat' first
    | with_reducible assumption
    | with_reducible apply KeepsO.mk
    | with_reducible apply State.fwParameters_keeps
    | with_reducible apply State.serve_keeps

theorem execRequestUpdate_keeps {pq : List Instr} {s : State} (hs : State.Keeps pq s) :
    KeepsO pq (execRequestUpdate s) := by
  unfold execRequestUpdate
  repeat' first
    | with_reducible assumption
    | with_reducible apply KeepsO.mk
    | with_reducible apply State.fwRequest_keeps
    | with_reducible apply State.serve_keeps

theorem execPassComponentTable_keeps {pq : List Instr} {cls comp : BitVec 16} {s : State} (hs : State.Keeps pq s) :
    KeepsO pq (execPassComponentTable cls comp s) := by
  unfold execPassComponentTable
  repeat' first
    | with_reducible assumption
    | with_reducible apply KeepsO.mk
    | with_reducible apply State.fwTable_keeps
    | with_reducible apply State.serve_keeps
    | intro _

theorem execUpdateComponent_keeps {pq : List Instr} {cls comp : BitVec 16} {size : Word} {s : State} (hs : State.Keeps pq s) :
    KeepsO pq (execUpdateComponent cls comp size s) := by
  unfold execUpdateComponent
  repeat' first
    | with_reducible assumption
    | with_reducible apply KeepsO.mk
    | with_reducible apply State.fwComponent_keeps
    | with_reducible apply State.serve_keeps
    | intro _

theorem execRequestFirmwareData_keeps {pq : List Instr} {data : List Byte} {s : State} (hs : State.Keeps pq s) :
    KeepsO pq (execRequestFirmwareData data s) := by
  unfold execRequestFirmwareData
  repeat' first
    | with_reducible assumption
    | with_reducible apply KeepsO.mk
    | with_reducible apply State.fwData_keeps
    | with_reducible apply State.serve_keeps
    | intro _

theorem execTransferComplete_keeps {pq : List Instr} {ok : Bool} {s : State} (hs : State.Keeps pq s) :
    KeepsO pq (execTransferComplete ok s) := by
  unfold execTransferComplete
  repeat' first
    | with_reducible assumption
    | with_reducible apply KeepsO.mk
    | with_reducible apply State.fwTransfer_keeps
    | with_reducible apply State.serve_keeps
    | intro _

theorem execVerifyComplete_keeps {pq : List Instr} {e : ImageEnd} {s : State} (hs : State.Keeps pq s) :
    KeepsO pq (execVerifyComplete e s) := by
  unfold execVerifyComplete
  repeat' first
    | with_reducible assumption
    | with_reducible apply KeepsO.mk
    | with_reducible apply State.fwVerify_keeps
    | with_reducible apply State.serve_keeps
    | intro _

theorem execApplyComplete_keeps {pq : List Instr} {ok : Bool} {s : State} (hs : State.Keeps pq s) :
    KeepsO pq (execApplyComplete ok s) := by
  unfold execApplyComplete
  repeat' first
    | with_reducible assumption
    | with_reducible apply KeepsO.mk
    | with_reducible apply State.fwApply_keeps
    | with_reducible apply State.serve_keeps
    | intro _

theorem execActivateFirmware_keeps {pq : List Instr} {selfContained : Bool} {s : State} (hs : State.Keeps pq s) :
    KeepsO pq (execActivateFirmware selfContained s) := by
  unfold execActivateFirmware
  repeat' first
    | with_reducible assumption
    | with_reducible apply KeepsO.mk
    | with_reducible apply State.fwActivate_keeps
    | with_reducible apply State.serve_keeps
    | intro _

theorem execGetStatus_keeps {pq : List Instr} {s : State} (hs : State.Keeps pq s) :
    KeepsO pq (execGetStatus s) := by
  unfold execGetStatus
  repeat' first
    | with_reducible assumption
    | with_reducible apply KeepsO.mk
    | with_reducible apply State.fwStatus_keeps
    | with_reducible apply State.serve_keeps

theorem execCancelUpdateComponent_keeps {pq : List Instr} {s : State} (hs : State.Keeps pq s) :
    KeepsO pq (execCancelUpdateComponent s) := by
  unfold execCancelUpdateComponent
  repeat' first
    | with_reducible assumption
    | with_reducible apply KeepsO.mk
    | with_reducible apply State.fwCancelComponent_keeps
    | with_reducible apply State.serve_keeps

theorem execCancelUpdate_keeps {pq : List Instr} {s : State} (hs : State.Keeps pq s) :
    KeepsO pq (execCancelUpdate s) := by
  unfold execCancelUpdate
  repeat' first
    | with_reducible assumption
    | with_reducible apply KeepsO.mk
    | with_reducible apply State.fwCancel_keeps
    | with_reducible apply State.serve_keeps

theorem State.releaseFrames_keeps {pq : List Instr} {s : State} {g : Fin 4} {k : Int} (hs : State.Keeps pq s) :
    State.Keeps pq (State.releaseFrames s g k) := by
  unfold State.releaseFrames
  repeat' first
    | with_reducible assumption
    | (rename_i e; with_reducible refine Keeps.ofSnd (pq := pq) e ?_ (fun _ => ?_) <;> clear e)
    | (rename_i e; with_reducible refine Keeps.ofFst (pq := pq) e ?_ (fun _ => ?_) <;> clear e)
    | with_reducible apply State.missSends_keeps
    | with_reducible apply State.runSendQ_keeps
    | with_reducible apply State.setSendQ_keeps
    | (with_reducible refine forEach_keeps ?_ (fun _ _ _ => ?_))
    | intro _
    | split
    | simp only [Keeps.upd]

theorem State.tickA_keeps {pq : List Instr} {s : State} {k : Int} (hs : State.Keeps pq s) :
    State.Keeps pq (State.tickA s k) := by
  unfold State.tickA
  repeat' first
    | with_reducible assumption
    | with_reducible apply State.auditSnapshot_keeps
    | with_reducible apply State.coresReturn_keeps
    | intro _
    | split
    | simp only [Keeps.upd]

theorem State.tickNumbers_keeps {pq : List Instr} {s : State} {l : List (Fin 4)} (hs : State.Keeps pq s) :
    State.Keeps pq (State.tickNumbers s l) := by
  unfold State.tickNumbers
  repeat' first
    | with_reducible assumption
    | (rename_i e; with_reducible refine Keeps.ofSnd (pq := pq) e ?_ (fun _ => ?_) <;> clear e)
    | (rename_i e; with_reducible refine Keeps.ofFst (pq := pq) e ?_ (fun _ => ?_) <;> clear e)
    | (with_reducible refine forEach_keeps ?_ (fun _ _ _ => ?_))
    | intro _
    | split
    | simp only [Keeps.upd]

theorem State.tickOne_keeps {pq : List Instr} {s : State} {g : Fin 4} {k : Int} (hs : State.Keeps pq s) :
    State.Keeps pq (State.tickOne s g k) := by
  unfold State.tickOne
  repeat' first
    | with_reducible assumption
    | (rename_i e; with_reducible refine Keeps.ofSnd (pq := pq) e ?_ (fun _ => ?_) <;> clear e)
    | (rename_i e; with_reducible refine Keeps.ofFst (pq := pq) e ?_ (fun _ => ?_) <;> clear e)
    | (extract_lets -underBinder +onlyGivenNames -merge x; with_reducible refine Keeps.cut (pq := pq) x ?_ (fun _ => ?_); rotate_left; clear_value x; rotate_left; subst x)
    | (extract_lets -underBinder +onlyGivenNames -merge x; subst x)
    | with_reducible apply State.tickA_keeps
    | with_reducible apply State.releaseFrames_keeps
    | with_reducible apply State.stageTick_keeps
    | with_reducible apply State.flipGroup_keeps
    | with_reducible apply State.presentTick_keeps
    | with_reducible apply State.missCodec_keeps
    | with_reducible apply State.runSendQs_keeps
    | with_reducible apply State.releaseTick_keeps
    | with_reducible apply State.raise_keeps
    | intro _
    | split
    | simp only [Keeps.upd]

theorem State.afterTickA_keeps {pq : List Instr} {s : State} (hs : State.Keeps pq s) :
    State.Keeps pq (State.afterTickA s) := by
  unfold State.afterTickA
  repeat' first
    | with_reducible assumption
    | with_reducible apply State.takeHandover_keeps
    | with_reducible apply State.modeTick_keeps

theorem State.tick_keeps {pq : List Instr} {s : State} {g : Fin 4} (hs : State.Keeps pq s) :
    State.Keeps pq (State.tick s g) := by
  unfold State.tick
  repeat' first
    | with_reducible assumption
    | (rename_i e; with_reducible refine Keeps.ofSnd (pq := pq) e ?_ (fun _ => ?_) <;> clear e)
    | (rename_i e; with_reducible refine Keeps.ofFst (pq := pq) e ?_ (fun _ => ?_) <;> clear e)
    | (extract_lets -underBinder +onlyGivenNames -merge x; with_reducible refine Keeps.cut (pq := pq) x ?_ (fun _ => ?_); rotate_left; clear_value x; rotate_left; subst x)
    | (extract_lets -underBinder +onlyGivenNames -merge x; subst x)
    | with_reducible apply State.afterTickA_keeps
    | with_reducible apply State.tickOne_keeps
    | with_reducible apply State.tickNumbers_keeps
    | with_reducible apply State.stepAtTick_keeps
    | with_reducible apply State.advanceToDts_keeps
    | (with_reducible refine forEach_keeps ?_ (fun _ _ _ => ?_))
    | intro _
    | split
    | simp only [Keeps.upd]

theorem execTick_keeps {pq : List Instr} {g : Fin 4} {s : State} (hs : State.Keeps pq s) :
    KeepsO pq (execTick g s) := by
  unfold execTick
  repeat' first
    | with_reducible assumption
    | with_reducible apply KeepsO.mk
    | with_reducible apply State.tick_keeps

theorem State.toStep_keeps {pq : List Instr} {s : State} {n : Nat} (hs : State.Keeps pq s) :
    State.Keeps pq (State.toStep s n) := by
  unfold State.toStep
  repeat' first
    | with_reducible assumption
    | simp only [Keeps.upd]

theorem State.bootStep2_keeps {pq : List Instr} {s : State} {b : BootFacts} (hs : State.Keeps pq s) :
    State.Keeps pq (State.bootStep2 s b) := by
  unfold State.bootStep2
  repeat' first
    | with_reducible assumption
    | (rename_i e; with_reducible refine Keeps.ofSnd (pq := pq) e ?_ (fun _ => ?_) <;> clear e)
    | (rename_i e; with_reducible refine Keeps.ofFst (pq := pq) e ?_ (fun _ => ?_) <;> clear e)
    | (extract_lets -underBinder +onlyGivenNames -merge x; with_reducible refine Keeps.cut (pq := pq) x ?_ (fun _ => ?_); rotate_left; clear_value x; rotate_left; subst x)
    | (extract_lets -underBinder +onlyGivenNames -merge x; subst x)
    | with_reducible apply State.toStep_keeps
    | with_reducible apply State.keepRecord_keeps
    | with_reducible apply State.logRecord_keeps
    | split
    | simp only [Keeps.upd]

theorem State.bootStep3_keeps {pq : List Instr} {s : State} {b : BootFacts} (hs : State.Keeps pq s) :
    State.Keeps pq (State.bootStep3 s b) := by
  unfold State.bootStep3
  repeat' first
    | with_reducible assumption
    | (extract_lets -underBinder +onlyGivenNames -merge x; with_reducible refine Keeps.cut (pq := pq) x ?_ (fun _ => ?_); rotate_left; clear_value x; rotate_left; subst x)
    | (extract_lets -underBinder +onlyGivenNames -merge x; subst x)
    | with_reducible apply State.toStep_keeps
    | with_reducible apply State.spareRow_keeps
    | with_reducible apply State.setCoreSt_keeps
    | (with_reducible refine forEach_keeps ?_ (fun _ _ _ => ?_))
    | intro _
    | split
    | simp only [Keeps.upd]

theorem State.bootStep4_keeps {pq : List Instr} {s : State} {b : BootFacts} (hs : State.Keeps pq s) :
    State.Keeps pq (State.bootStep4 s b) := by
  unfold State.bootStep4
  repeat' first
    | with_reducible assumption
    | (rename_i e; with_reducible refine Keeps.ofSnd (pq := pq) e ?_ (fun _ => ?_) <;> clear e)
    | (rename_i e; with_reducible refine Keeps.ofFst (pq := pq) e ?_ (fun _ => ?_) <;> clear e)
    | (extract_lets -underBinder +onlyGivenNames -merge x; with_reducible refine Keeps.cut (pq := pq) x ?_ (fun _ => ?_); rotate_left; clear_value x; rotate_left; subst x)
    | (extract_lets -underBinder +onlyGivenNames -merge x; subst x)
    | with_reducible apply State.toStep_keeps
    | with_reducible apply State.accept_keeps
    | with_reducible apply State.spareChannel_keeps
    | with_reducible apply State.fault_keeps
    | (with_reducible refine forEach_keeps ?_ (fun _ _ _ => ?_))
    | intro _
    | split
    | simp only [Keeps.upd]

theorem State.verifyPending_keeps {pq : List Instr} {s : State} {b : BootFacts} {i : Fin 3} (hs : State.Keeps pq s) :
    State.Keeps pq (State.verifyPending s b i) := by
  unfold State.verifyPending
  repeat' first
    | with_reducible assumption
    | (rename_i e; with_reducible refine Keeps.ofSnd (pq := pq) e ?_ (fun _ => ?_) <;> clear e)
    | (rename_i e; with_reducible refine Keeps.ofFst (pq := pq) e ?_ (fun _ => ?_) <;> clear e)
    | (extract_lets -underBinder +onlyGivenNames -merge x; with_reducible refine Keeps.cut (pq := pq) x ?_ (fun _ => ?_); rotate_left; clear_value x; rotate_left; subst x)
    | (extract_lets -underBinder +onlyGivenNames -merge x; subst x)
    | with_reducible apply State.microcodeRejected_keeps
    | with_reducible apply State.bootControl_keeps
    | with_reducible apply State.setImage_keeps
    | with_reducible apply State.fault_keeps
    | with_reducible apply State.raise_keeps
    | intro _
    | split
    | simp only [Keeps.upd]

theorem State.loadCores_keeps {pq : List Instr} {s : State} (hs : State.Keeps pq s) :
    State.Keeps pq (State.loadCores s) := by
  unfold State.loadCores
  repeat' first
    | with_reducible assumption
    | with_reducible apply State.loadCore_keeps
    | with_reducible apply State.setCoreSt_keeps
    | (with_reducible refine forEach_keeps ?_ (fun _ _ _ => ?_))
    | intro _
    | split
    | simp only [Keeps.upd]

theorem State.loadMicrocode_keeps {pq : List Instr} {s : State} {b : BootFacts} (hs : State.Keeps pq s) :
    State.Keeps pq (State.loadMicrocode s b) := by
  unfold State.loadMicrocode
  repeat' first
    | with_reducible assumption
    | (rename_i e; with_reducible refine Keeps.ofSnd (pq := pq) e ?_ (fun _ => ?_) <;> clear e)
    | (rename_i e; with_reducible refine Keeps.ofFst (pq := pq) e ?_ (fun _ => ?_) <;> clear e)
    | (extract_lets -underBinder +onlyGivenNames -merge x; with_reducible refine Keeps.cut (pq := pq) x ?_ (fun _ => ?_); rotate_left; clear_value x; rotate_left; subst x)
    | (extract_lets -underBinder +onlyGivenNames -merge x; subst x)
    | with_reducible apply State.loadCores_keeps
    | with_reducible apply State.fault_keeps
    | with_reducible apply State.raise_keeps
    | intro _
    | split
    | simp only [Keeps.upd]

theorem State.bootStep5_keeps {pq : List Instr} {s : State} {b : BootFacts} (hs : State.Keeps pq s) :
    State.Keeps pq (State.bootStep5 s b) := by
  unfold State.bootStep5
  repeat' first
    | with_reducible assumption
    | with_reducible apply State.loadMicrocode_keeps
    | with_reducible apply State.loadCores_keeps
    | with_reducible apply State.verifyPending_keeps
    | with_reducible apply State.toStep_keeps
    | (with_reducible refine forEach_keeps ?_ (fun _ _ _ => ?_))
    | intro _
    | split

theorem State.stageBlob_keeps {pq : List Instr} {s : State} {l : List (Nat × Word)} (hs : State.Keeps pq s) :
    State.Keeps pq (State.stageBlob s l) := by
  unfold State.stageBlob
  repeat' first
    | with_reducible assumption
    | with_reducible apply State.stageReg_keeps
    | with_reducible apply State.claim_keepsP
    | (with_reducible refine State.claim_keepsE (by with_reducible assumption) ?_)
    | (with_reducible refine forEach_keeps ?_ (fun _ _ _ => ?_))
    | intro _

theorem State.heldView_keeps {pq : List Instr} {s : State} {l : List (Nat × Word)} (hs : State.Keeps pq s) :
    State.Keeps pq (State.heldView s l) := by
  unfold State.heldView
  repeat' first
    | with_reducible assumption
    | with_reducible apply State.setReg_keeps
    | (with_reducible refine forEach_keeps ?_ (fun _ _ _ => ?_))
    | intro _
    | split
    | simp only [Keeps.upd]

theorem State.applyPairs_keeps {pq : List Instr} {s : State} {l : List (Nat × Word)} (hs : State.Keeps pq s) :
    State.Keeps pq (State.applyPairs s l) := by
  unfold State.applyPairs
  repeat' first
    | with_reducible assumption
    | (extract_lets -underBinder +onlyGivenNames -merge x; with_reducible refine Keeps.cut (pq := pq) x ?_ (fun _ => ?_); rotate_left; clear_value x; rotate_left; subst x)
    | (extract_lets -underBinder +onlyGivenNames -merge x; subst x)
    | with_reducible apply State.stageBlob_keeps
    | with_reducible apply State.liveWrite_keeps
    | with_reducible apply State.stageApply_keeps
    | (with_reducible refine forEach_keeps ?_ (fun _ _ _ => ?_))
    | intro _
    | split

theorem State.timeRegsReset_keeps {pq : List Instr} {s : State} (hs : State.Keeps pq s) :
    State.Keeps pq (State.timeRegsReset s) := by
  unfold State.timeRegsReset
  repeat' first
    | with_reducible assumption
    | with_reducible apply State.refsReconfigured_keeps
    | with_reducible apply State.clearRegs_keeps

theorem State.timeRegsWarm_keeps {pq : List Instr} {s : State} (hs : State.Keeps pq s) :
    State.Keeps pq (State.timeRegsWarm s) := by
  unfold State.timeRegsWarm
  repeat' first
    | with_reducible assumption
    | with_reducible apply State.refsChanged_keeps
    | with_reducible apply State.clearRegs_keeps
    | intro _
    | split
    | simp only [Keeps.upd]

theorem State.bootStep6_keeps {pq : List Instr} {s : State} {b : BootFacts} (hs : State.Keeps pq s) :
    State.Keeps pq (State.bootStep6 s b) := by
  unfold State.bootStep6
  repeat' first
    | with_reducible assumption
    | (extract_lets -underBinder +onlyGivenNames -merge x; with_reducible refine Keeps.cut (pq := pq) x ?_ (fun _ => ?_); rotate_left; clear_value x; rotate_left; subst x)
    | (extract_lets -underBinder +onlyGivenNames -merge x; subst x)
    | with_reducible apply State.applyPairs_keeps
    | with_reducible apply State.endAcquisition_keeps
    | split
    | simp only [Keeps.upd]

theorem State.timeWaitExpiry_keeps {pq : List Instr} {s : State} (hs : State.Keeps pq s) :
    State.Keeps pq (State.timeWaitExpiry s) := by
  unfold State.timeWaitExpiry
  repeat' first
    | with_reducible assumption
    | (extract_lets -underBinder +onlyGivenNames -merge x; with_reducible refine Keeps.cut (pq := pq) x ?_ (fun _ => ?_); rotate_left; clear_value x; rotate_left; subst x)
    | (extract_lets -underBinder +onlyGivenNames -merge x; subst x)
    | with_reducible apply State.endAcquisition_keeps
    | with_reducible apply State.enterHoldover_keeps
    | with_reducible apply State.advanceTo_keeps
    | intro _
    | split
    | simp only [Keeps.upd]

theorem State.applyBlob_keeps {pq : List Instr} {s : State} {b : BootFacts} (hs : State.Keeps pq s) :
    State.Keeps pq (State.applyBlob s b) := by
  unfold State.applyBlob
  repeat' first
    | with_reducible assumption
    | (extract_lets -underBinder +onlyGivenNames -merge x; with_reducible refine Keeps.cut (pq := pq) x ?_ (fun _ => ?_); rotate_left; clear_value x; rotate_left; subst x)
    | (extract_lets -underBinder +onlyGivenNames -merge x; subst x)
    | with_reducible apply State.timeRegsReset_keeps
    | with_reducible apply State.applyPairs_keeps
    | with_reducible apply State.fault_keeps
    | with_reducible apply State.raise_keeps
    | with_reducible apply State.clearRegs_keeps
    | intro _
    | split
    | simp only [Keeps.upd]

theorem State.bootRecord_keeps {pq : List Instr} {s : State} (hs : State.Keeps pq s) :
    State.Keeps pq (State.bootRecord s) := by
  unfold State.bootRecord
  repeat' first
    | with_reducible assumption
    | (extract_lets -underBinder +onlyGivenNames -merge x; with_reducible refine Keeps.cut (pq := pq) x ?_ (fun _ => ?_); rotate_left; clear_value x; rotate_left; subst x)
    | (extract_lets -underBinder +onlyGivenNames -merge x; subst x)
    | with_reducible apply State.logRecord_keeps
    | split

theorem State.warmReset_keeps {pq : List Instr} {s0 : State} (hs_s0 : State.Keeps pq s0) :
    State.Keeps pq (State.warmReset s0) := by
  unfold State.warmReset
  repeat' first
    | with_reducible assumption
    | (rename_i e; with_reducible refine Keeps.ofSnd (pq := pq) e ?_ (fun _ => ?_) <;> clear e)
    | (rename_i e; with_reducible refine Keeps.ofFst (pq := pq) e ?_ (fun _ => ?_) <;> clear e)
    | (extract_lets -underBinder +onlyGivenNames -merge x; with_reducible refine Keeps.cut (pq := pq) x ?_ (fun _ => ?_); rotate_left; clear_value x; rotate_left; subst x)
    | (extract_lets -underBinder +onlyGivenNames -merge x; subst x)
    | with_reducible apply State.timeRegsWarm_keeps
    | with_reducible apply State.abortChange_keeps
    | with_reducible apply State.abortUpdates_keeps
    | with_reducible apply State.wickReset_keeps
    | with_reducible apply State.stageReset_keeps
    | with_reducible apply idle_keeps
    | with_reducible apply State.pass_keeps
    | (with_reducible refine forEach_keeps ?_ (fun _ _ _ => ?_))
    | intro _
    | split
    | simp only [Keeps.upd]

theorem State.warmAssert_keeps {pq : List Instr} {s0 : State} (hs0 : State.Keeps pq s0) :
    State.Keeps pq (State.warmAssert s0) := by
  unfold State.warmAssert
  repeat' first
    | with_reducible assumption
    | (extract_lets -underBinder +onlyGivenNames -merge x; with_reducible refine Keeps.cut (pq := pq) x ?_ (fun _ => ?_); rotate_left; clear_value x; rotate_left; subst x)
    | (extract_lets -underBinder +onlyGivenNames -merge x; subst x)
    | with_reducible apply State.warmReset_keeps
    | split
    | simp only [Keeps.upd]

theorem State.warmRelease_keeps {pq : List Instr} {s0 : State} (hs0 : State.Keeps pq s0) :
    State.Keeps pq (State.warmRelease s0) := by
  unfold State.warmRelease
  repeat' first
    | with_reducible assumption
    | (extract_lets -underBinder +onlyGivenNames -merge x; with_reducible refine Keeps.cut (pq := pq) x ?_ (fun _ => ?_); rotate_left; clear_value x; rotate_left; subst x)
    | (extract_lets -underBinder +onlyGivenNames -merge x; subst x)
    | with_reducible apply State.warmReset_keeps
    | with_reducible apply State.logMode_keeps
    | split
    | simp only [Keeps.upd]

theorem State.enterProvision_keeps {pq : List Instr} {s : State} (hs : State.Keeps pq s) :
    State.Keeps pq (State.enterProvision s) := by
  unfold State.enterProvision
  repeat' first
    | with_reducible assumption
    | (extract_lets -underBinder +onlyGivenNames -merge x; with_reducible refine Keeps.cut (pq := pq) x ?_ (fun _ => ?_); rotate_left; clear_value x; rotate_left; subst x)
    | (extract_lets -underBinder +onlyGivenNames -merge x; subst x)
    | with_reducible apply State.enterMode_keeps
    | with_reducible apply State.startGroup_keeps
    | with_reducible apply State.portStart_keeps
    | (with_reducible refine forEach_keeps ?_ (fun _ _ _ => ?_))
    | intro _
    | simp only [Keeps.upd]

theorem State.bootStep7_keeps {pq : List Instr} {s : State} {b : BootFacts} (hs : State.Keeps pq s) :
    State.Keeps pq (State.bootStep7 s b) := by
  unfold State.bootStep7
  repeat' first
    | with_reducible assumption
    | (extract_lets -underBinder +onlyGivenNames -merge x; with_reducible refine Keeps.cut (pq := pq) x ?_ (fun _ => ?_); rotate_left; clear_value x; rotate_left; subst x)
    | (extract_lets -underBinder +onlyGivenNames -merge x; subst x)
    | with_reducible apply State.enterProvision_keeps
    | with_reducible apply State.warmAssert_keeps
    | with_reducible apply State.bootRecord_keeps
    | with_reducible apply State.applyBlob_keeps
    | with_reducible apply State.raise_keeps
    | split

theorem State.stepEnd_keeps {pq : List Instr} {s : State} {b : BootFacts} (hs : State.Keeps pq s) :
    State.Keeps pq (State.stepEnd s b) := by
  unfold State.stepEnd
  repeat' first
    | with_reducible assumption
    | with_reducible apply State.bootStep7_keeps
    | with_reducible apply State.bootStep6_keeps
    | with_reducible apply State.bootStep5_keeps
    | with_reducible apply State.bootStep4_keeps
    | with_reducible apply State.bootStep3_keeps
    | with_reducible apply State.bootStep2_keeps
    | with_reducible apply State.toStep_keeps
    | split
    | simp only [Keeps.upd]

theorem execBootStepEnd_keeps {pq : List Instr} {b : BootFacts} {s : State} (hs : State.Keeps pq s) :
    KeepsO pq (execBootStepEnd b s) := by
  unfold execBootStepEnd
  repeat' first
    | with_reducible assumption
    | with_reducible apply KeepsO.mk
    | with_reducible apply State.stepEnd_keeps

theorem execTimeWaitExpiry_keeps {pq : List Instr} {s : State} (hs : State.Keeps pq s) :
    KeepsO pq (execTimeWaitExpiry s) := by
  unfold execTimeWaitExpiry
  repeat' first
    | with_reducible assumption
    | with_reducible apply KeepsO.mk
    | with_reducible apply State.timeWaitExpiry_keeps

theorem execWarmRstNAssert_keeps {pq : List Instr} {s : State} (hs : State.Keeps pq s) :
    KeepsO pq (execWarmRstNAssert s) := by
  unfold execWarmRstNAssert
  repeat' first
    | with_reducible assumption
    | with_reducible apply KeepsO.mk
    | with_reducible apply State.warmAssert_keeps

theorem execWarmRstNRelease_keeps {pq : List Instr} {s : State} (hs : State.Keeps pq s) :
    KeepsO pq (execWarmRstNRelease s) := by
  unfold execWarmRstNRelease
  repeat' first
    | with_reducible assumption
    | with_reducible apply KeepsO.mk
    | with_reducible apply State.warmRelease_keeps

end Sys2Proof.Machine
end

