-- ==== Sys2Proof/Laws/KeepsJobs.lean ====
section
/-! SUPPORT. What each operation keeps (see `State.Keeps`): streams, jobs and channel orders. -/

set_option maxRecDepth 4000

namespace Sys2Proof.Machine

theorem State.takeBytes_keepsP {pq : List Instr} {s : State} {a : DWord} {n : Nat} {host : List Byte} (hs : State.Keeps pq s) :
    State.Keeps pq (State.takeBytes s a n host).2.2 := by
  unfold State.takeBytes
  repeat' first
    | with_reducible assumption
    | with_reducible apply State.devRead_keeps
    | (with_reducible refine State.poolEarmark_keepsE (by with_reducible assumption) ?_)
    | (rename_i e; with_reducible refine Keeps.ofTrip (pq := pq) e ?_ (fun _ => ?_) <;> clear e)
    | intro _
    | split
theorem State.takeBytes_keepsE {pq : List Instr} {s : State} {a : DWord} {n : Nat} {host : List Byte} {tv3 v1 v2} (e : State.takeBytes s a n host = (v1, (v2, tv3))) (hs : State.Keeps pq s) :
    State.Keeps pq tv3 := by
  have h := State.takeBytes_keepsP (s := s) (a := a) (n := n) (host := host) hs 
  rw [e] at h; exact h

theorem State.opened_keeps {pq : List Instr} {s : State} {n h : Nat} (hs : State.Keeps pq s) :
    State.Keeps pq (State.opened s n h) := by
  unfold State.opened
  repeat' first
    | with_reducible assumption
    | with_reducible apply State.finish_keeps
    | (with_reducible refine State.poolEarmark_keepsE (by with_reducible assumption) ?_)
    | (rename_i e; with_reducible refine Keeps.ofTrip (pq := pq) e ?_ (fun _ => ?_) <;> clear e)

theorem State.poolEarmark_keepsE {pq : List Instr} {s t : State} {o n p : Nat} {q : Option Nat}
    (e : q.bind (fun p => (s.earmark p o n).map (fun t => (p, t))) = some (p, t)) (hs : State.Keeps pq s) :
    State.Keeps pq t := by
  cases q with
  | none => cases e
  | some k =>
    simp only [Option.bind_some] at e
    cases h : s.earmark k o n with
    | none => rw [h] at e; cases e
    | some x => rw [h] at e; cases e; exact State.earmark_keepsE h hs

theorem Keeps.ofTrip {α β : Type} {pq : List Instr} {x : α × β × State} {a : α} {b : β} {t : State} {G : Prop} (e : x = (a, b, t))
    (h : State.Keeps pq x.2.2) (k : State.Keeps pq t → G) : G := k (by rw [e] at h; exact h)

theorem State.openDec_keeps {pq : List Instr} {s : State} {n pick : Nat} {x : Slot} (hs : State.Keeps pq s) :
    State.Keeps pq (State.openDec s n pick x) := by
  unfold State.openDec
  repeat' first
    | with_reducible assumption
    | (rename_i e; with_reducible refine Keeps.ofSnd (pq := pq) e ?_ (fun _ => ?_) <;> clear e)
    | (rename_i e; with_reducible refine Keeps.ofFst (pq := pq) e ?_ (fun _ => ?_) <;> clear e)
    | (extract_lets -underBinder +onlyGivenNames -merge x; with_reducible refine Keeps.cut (pq := pq) x ?_ (fun _ => ?_); rotate_left; clear_value x; rotate_left; subst x)
    | (extract_lets -underBinder +onlyGivenNames -merge x; subst x)
    | with_reducible apply State.opened_keeps
    | with_reducible apply State.deny_keeps
    | with_reducible apply State.setDec_keeps
    | (with_reducible refine State.poolEarmark_keepsE (by with_reducible assumption) ?_)
    | intro _
    | split
    | simp only [Keeps.upd]

theorem State.earmarkAll_keepsE {pq : List Instr} {s : State} {o k : Nat} {a0 : List (Option Nat)} {t : State}
    (e : State.earmarkAll s o k a0 = some t) (hs : State.Keeps pq s) : State.Keeps pq t := by
  induction a0 generalizing s with
  | nil => unfold State.earmarkAll at e; cases e; exact hs
  | cons x l ih =>
    unfold State.earmarkAll at e
    split at e
    · cases e; exact hs
    · cases e
    · rename_i h; injection h with h1 h2; subst h1 h2
      split at e
      · rename_i h3; exact ih e (State.earmark_keepsE h3 hs)
      · cases e

theorem State.openEnc_keeps {pq : List Instr} {s : State} {n pick : Nat} {params : List Byte} {x : Slot} (hs : State.Keeps pq s) :
    State.Keeps pq (State.openEnc s n pick params x) := by
  unfold State.openEnc
  repeat' first
    | with_reducible assumption
    | (rename_i e; with_reducible refine Keeps.ofSnd (pq := pq) e ?_ (fun _ => ?_) <;> clear e)
    | (rename_i e; with_reducible refine Keeps.ofFst (pq := pq) e ?_ (fun _ => ?_) <;> clear e)
    | (extract_lets -underBinder +onlyGivenNames -merge x; with_reducible refine Keeps.cut (pq := pq) x ?_ (fun _ => ?_); rotate_left; clear_value x; rotate_left; subst x)
    | (extract_lets -underBinder +onlyGivenNames -merge x; subst x)
    | with_reducible apply State.opened_keeps
    | with_reducible apply State.deny_keeps
    | with_reducible apply State.setEnc_keeps
    | with_reducible apply State.earmarkAll_keepsP
    | (with_reducible refine State.earmarkAll_keepsE (by with_reducible assumption) ?_)
    | with_reducible apply State.takeBytes_keepsP
    | (with_reducible refine State.takeBytes_keepsE (by with_reducible assumption) ?_)
    | (with_reducible refine State.poolEarmark_keepsE (by with_reducible assumption) ?_)
    | (rename_i e; with_reducible refine Keeps.ofTrip (pq := pq) e ?_ (fun _ => ?_) <;> clear e)
    | intro _
    | split
    | simp only [Keeps.upd]

theorem State.openOut_keeps {pq : List Instr} {s : State} {n pick : Nat} {x : Slot} (hs : State.Keeps pq s) :
    State.Keeps pq (State.openOut s n pick x) := by
  unfold State.openOut
  repeat' first
    | with_reducible assumption
    | (rename_i e; with_reducible refine Keeps.ofSnd (pq := pq) e ?_ (fun _ => ?_) <;> clear e)
    | (rename_i e; with_reducible refine Keeps.ofFst (pq := pq) e ?_ (fun _ => ?_) <;> clear e)
    | (extract_lets -underBinder +onlyGivenNames -merge x; with_reducible refine Keeps.cut (pq := pq) x ?_ (fun _ => ?_); rotate_left; clear_value x; rotate_left; subst x)
    | (extract_lets -underBinder +onlyGivenNames -merge x; subst x)
    | with_reducible apply State.opened_keeps
    | with_reducible apply State.deny_keeps
    | with_reducible apply State.settleNight_keeps
    | with_reducible apply State.updCounts_keeps
    | with_reducible apply State.setOut_keeps
    | with_reducible apply State.earmark_keepsP
    | (with_reducible refine State.earmark_keepsE (by with_reducible assumption) ?_)
    | with_reducible apply State.drawFree_keepsP
    | (with_reducible refine State.drawFree_keepsE (by with_reducible assumption) ?_)
    | (with_reducible refine State.poolEarmark_keepsE (by with_reducible assumption) ?_)
    | (rename_i e; with_reducible refine Keeps.ofTrip (pq := pq) e ?_ (fun _ => ?_) <;> clear e)
    | intro _
    | split
    | simp only [Keeps.upd]

theorem State.openSendQ_keeps {pq : List Instr} {s : State} {n pick : Nat} {x : Slot} (hs : State.Keeps pq s) :
    State.Keeps pq (State.openSendQ s n pick x) := by
  unfold State.openSendQ
  repeat' first
    | with_reducible assumption
    | (rename_i e; with_reducible refine Keeps.ofSnd (pq := pq) e ?_ (fun _ => ?_) <;> clear e)
    | (rename_i e; with_reducible refine Keeps.ofFst (pq := pq) e ?_ (fun _ => ?_) <;> clear e)
    | (extract_lets -underBinder +onlyGivenNames -merge x; with_reducible refine Keeps.cut (pq := pq) x ?_ (fun _ => ?_); rotate_left; clear_value x; rotate_left; subst x)
    | (extract_lets -underBinder +onlyGivenNames -merge x; subst x)
    | with_reducible apply State.opened_keeps
    | with_reducible apply State.deny_keeps
    | with_reducible apply State.setSendQ_keeps
    | intro _
    | split
    | simp only [Keeps.upd]

theorem State.openEntry_keeps {pq : List Instr} {s : State} {n pick : Nat} {params : List Byte} (hs : State.Keeps pq s) :
    State.Keeps pq (State.openEntry s n pick params) := by
  unfold State.openEntry
  repeat' first
    | with_reducible assumption
    | with_reducible apply State.openSendQ_keeps
    | with_reducible apply State.openOut_keeps
    | with_reducible apply State.openEnc_keeps
    | with_reducible apply State.openDec_keeps
    | (with_reducible refine State.poolEarmark_keepsE (by with_reducible assumption) ?_)
    | (rename_i e; with_reducible refine Keeps.ofTrip (pq := pq) e ?_ (fun _ => ?_) <;> clear e)
    | split
    | simp only [Keeps.upd]

theorem State.closeEntry_keeps {pq : List Instr} {s : State} {n : Nat} (hs : State.Keeps pq s) :
    State.Keeps pq (State.closeEntry s n) := by
  unfold State.closeEntry
  repeat' first
    | with_reducible assumption
    | (rename_i e; with_reducible refine Keeps.ofSnd (pq := pq) e ?_ (fun _ => ?_) <;> clear e)
    | (rename_i e; with_reducible refine Keeps.ofFst (pq := pq) e ?_ (fun _ => ?_) <;> clear e)
    | (extract_lets -underBinder +onlyGivenNames -merge x; with_reducible refine Keeps.cut (pq := pq) x ?_ (fun _ => ?_); rotate_left; clear_value x; rotate_left; subst x)
    | (extract_lets -underBinder +onlyGivenNames -merge x; subst x)
    | with_reducible apply State.command_keeps
    | with_reducible apply State.closeSendQ_keeps
    | with_reducible apply State.closeEnc_keeps
    | with_reducible apply State.closeDec_keeps
    | with_reducible apply State.freeChannel_keeps
    | with_reducible apply State.genNext_keeps
    | with_reducible apply State.closeOut_keeps
    | with_reducible apply State.waitFor_keeps
    | with_reducible apply State.start_keeps
    | with_reducible apply State.finish_keeps
    | (with_reducible refine State.poolEarmark_keepsE (by with_reducible assumption) ?_)
    | (rename_i e; with_reducible refine Keeps.ofTrip (pq := pq) e ?_ (fun _ => ?_) <;> clear e)
    | intro _
    | split
    | simp only [Keeps.upd]

theorem execOpenObject_keeps {pq : List Instr} {n : Fin 4096} {pick : Nat} {params : List Byte} {s : State} (hs : State.Keeps pq s) :
    KeepsO pq (execOpenObject n pick params s) := by
  unfold execOpenObject
  repeat' first
    | with_reducible assumption
    | with_reducible apply KeepsO.mk
    | with_reducible apply State.openEntry_keeps
    | (with_reducible refine State.poolEarmark_keepsE (by with_reducible assumption) ?_)
    | (rename_i e; with_reducible refine Keeps.ofTrip (pq := pq) e ?_ (fun _ => ?_) <;> clear e)

theorem execClose_keeps {pq : List Instr} {n : Fin 4096} {s : State} (hs : State.Keeps pq s) :
    KeepsO pq (execClose n s) := by
  unfold execClose
  repeat' first
    | with_reducible assumption
    | with_reducible apply KeepsO.mk
    | with_reducible apply State.closeEntry_keeps
    | (with_reducible refine State.poolEarmark_keepsE (by with_reducible assumption) ?_)
    | (rename_i e; with_reducible refine Keeps.ofTrip (pq := pq) e ?_ (fun _ => ?_) <;> clear e)

def KeepsA (pq : List Instr) (r : Asked) : Prop :=
  match r with
  | .ok t => State.Keeps pq t
  | .error (_, t) => State.Keeps pq t
theorem KeepsA.mkOk {pq : List Instr} {t : State} (h : State.Keeps pq t) : KeepsA pq (.ok t) := h
theorem KeepsA.mkErr {pq : List Instr} {t : State} {d : Deny} (h : State.Keeps pq t) : KeepsA pq (.error (d, t)) := h
theorem KeepsA.ok {pq : List Instr} {x : Asked} {t : State} {G : Prop} (e : x = .ok t)
    (h : KeepsA pq x) (k : State.Keeps pq t → G) : G := k (by rw [e] at h; exact h)
theorem KeepsA.err {pq : List Instr} {x : Asked} {d : Deny} {t : State} {G : Prop} (e : x = .error (d, t))
    (h : KeepsA pq x) (k : State.Keeps pq t → G) : G := k (by rw [e] at h; exact h)
theorem State.askDecode_keeps {pq : List Instr} {s : State} {a : Ask} (hs : State.Keeps pq s) :
    KeepsA pq (State.askDecode s a) := by
  unfold State.askDecode
  repeat' first
    | with_reducible assumption
    | with_reducible apply State.submitDecode_keeps
    | with_reducible apply KeepsA.mkOk
    | with_reducible apply KeepsA.mkErr
    | (rename_i e; with_reducible refine KeepsA.ok (pq := pq) e ?_ (fun _ => ?_) <;> clear e)
    | (rename_i e; with_reducible refine KeepsA.err (pq := pq) e ?_ (fun _ => ?_) <;> clear e)
    | split
    | simp only [Keeps.upd]

theorem State.askEncode_keeps {pq : List Instr} {s : State} {a : Ask} (hs : State.Keeps pq s) :
    KeepsA pq (State.askEncode s a) := by
  unfold State.askEncode
  repeat' first
    | with_reducible assumption
    | with_reducible apply State.submitEncode_keeps
    | with_reducible apply KeepsA.mkOk
    | with_reducible apply KeepsA.mkErr
    | (rename_i e; with_reducible refine KeepsA.ok (pq := pq) e ?_ (fun _ => ?_) <;> clear e)
    | (rename_i e; with_reducible refine KeepsA.err (pq := pq) e ?_ (fun _ => ?_) <;> clear e)
    | split
    | simp only [Keeps.upd]

theorem State.askSend_keeps {pq : List Instr} {s : State} {a : Ask} {data : List Byte} (hs : State.Keeps pq s) :
    KeepsA pq (State.askSend s a data) := by
  unfold State.askSend
  repeat' first
    | with_reducible assumption
    | (rename_i e; with_reducible refine Keeps.ofSnd (pq := pq) e ?_ (fun _ => ?_) <;> clear e)
    | (rename_i e; with_reducible refine Keeps.ofFst (pq := pq) e ?_ (fun _ => ?_) <;> clear e)
    | (extract_lets -underBinder +onlyGivenNames -merge x; with_reducible refine Keeps.cut (pq := pq) x ?_ (fun _ => ?_); rotate_left; clear_value x; rotate_left; subst x)
    | (extract_lets -underBinder +onlyGivenNames -merge x; subst x)
    | with_reducible apply State.tick_keeps
    | with_reducible apply State.countSendMiss_keeps
    | with_reducible apply State.overrun_keeps
    | with_reducible apply State.placeFrame_keeps
    | with_reducible apply State.jobDone_keeps
    | with_reducible apply State.takeBytes_keepsP
    | (with_reducible refine State.takeBytes_keepsE (by with_reducible assumption) ?_)
    | with_reducible apply KeepsA.mkOk
    | with_reducible apply KeepsA.mkErr
    | (rename_i e; with_reducible refine KeepsA.ok (pq := pq) e ?_ (fun _ => ?_) <;> clear e)
    | (rename_i e; with_reducible refine KeepsA.err (pq := pq) e ?_ (fun _ => ?_) <;> clear e)
    | split
    | simp only [Keeps.upd]

theorem State.readStill_keepsE {pq : List Instr} {s : State} {a : Ask} {x : PlaneData} {tv2 v1} (e : State.readStill s a x = (Except.error (v1, tv2))) (hs : State.Keeps pq s) :
    State.Keeps pq tv2 := by
  unfold State.readStill at e
  (try dsimp only at e)
  repeat' (split at e)
  all_goals first
    | (cases e <;> (
       repeat' first
         | with_reducible assumption
         | (rename_i e; with_reducible refine Keeps.ofSnd (pq := pq) e ?_ (fun _ => ?_) <;> clear e)
         | (rename_i e; with_reducible refine Keeps.ofFst (pq := pq) e ?_ (fun _ => ?_) <;> clear e)
         | (extract_lets -underBinder +onlyGivenNames -merge x; with_reducible refine Keeps.cut (pq := pq) x ?_ (fun _ => ?_); rotate_left; clear_value x; rotate_left; subst x)
         | (extract_lets -underBinder +onlyGivenNames -merge x; subst x)
         | with_reducible apply State.takeBytes_keepsP
         | (with_reducible refine State.takeBytes_keepsE (by with_reducible assumption) ?_)
         | intro _
         | split
         | simp only [Keeps.upd]
       done))
    | (
       repeat' first
         | with_reducible assumption
         | (rename_i e; with_reducible refine Keeps.ofSnd (pq := pq) e ?_ (fun _ => ?_) <;> clear e)
         | (rename_i e; with_reducible refine Keeps.ofFst (pq := pq) e ?_ (fun _ => ?_) <;> clear e)
         | (extract_lets -underBinder +onlyGivenNames -merge x; with_reducible refine Keeps.cut (pq := pq) x ?_ (fun _ => ?_); rotate_left; clear_value x; rotate_left; subst x)
         | (extract_lets -underBinder +onlyGivenNames -merge x; subst x)
         | with_reducible apply State.takeBytes_keepsP
         | (with_reducible refine State.takeBytes_keepsE (by with_reducible assumption) ?_)
         | intro _
         | split
         | simp only [Keeps.upd]
       done)
theorem State.readStill_keepsE1 {pq : List Instr} {s : State} {a : Ask} {x : PlaneData} {tv4 v3} (e : State.readStill s a x = (Except.ok (v3, tv4))) (hs : State.Keeps pq s) :
    State.Keeps pq tv4 := by
  unfold State.readStill at e
  (try dsimp only at e)
  repeat' (split at e)
  all_goals first
    | (cases e <;> (
       repeat' first
         | with_reducible assumption
         | (rename_i e; with_reducible refine Keeps.ofSnd (pq := pq) e ?_ (fun _ => ?_) <;> clear e)
         | (rename_i e; with_reducible refine Keeps.ofFst (pq := pq) e ?_ (fun _ => ?_) <;> clear e)
         | (extract_lets -underBinder +onlyGivenNames -merge x; with_reducible refine Keeps.cut (pq := pq) x ?_ (fun _ => ?_); rotate_left; clear_value x; rotate_left; subst x)
         | (extract_lets -underBinder +onlyGivenNames -merge x; subst x)
         | with_reducible apply State.takeBytes_keepsP
         | (with_reducible refine State.takeBytes_keepsE (by with_reducible assumption) ?_)
         | intro _
         | split
         | simp only [Keeps.upd]
       done))
    | (
       repeat' first
         | with_reducible assumption
         | (rename_i e; with_reducible refine Keeps.ofSnd (pq := pq) e ?_ (fun _ => ?_) <;> clear e)
         | (rename_i e; with_reducible refine Keeps.ofFst (pq := pq) e ?_ (fun _ => ?_) <;> clear e)
         | (extract_lets -underBinder +onlyGivenNames -merge x; with_reducible refine Keeps.cut (pq := pq) x ?_ (fun _ => ?_); rotate_left; clear_value x; rotate_left; subst x)
         | (extract_lets -underBinder +onlyGivenNames -merge x; subst x)
         | with_reducible apply State.takeBytes_keepsP
         | (with_reducible refine State.takeBytes_keepsE (by with_reducible assumption) ?_)
         | intro _
         | split
         | simp only [Keeps.upd]
       done)

theorem State.readAtlas_keepsE {pq : List Instr} {s : State} {at_ : DWord} {x : PlaneData} {tv2 v1} (e : State.readAtlas s at_ x = (Except.error (v1, tv2))) (hs : State.Keeps pq s) :
    State.Keeps pq tv2 := by
  unfold State.readAtlas at e
  (try dsimp only at e)
  repeat' (split at e)
  all_goals first
    | (cases e <;> (
       repeat' first
         | with_reducible assumption
         | (rename_i e; with_reducible refine Keeps.ofSnd (pq := pq) e ?_ (fun _ => ?_) <;> clear e)
         | (rename_i e; with_reducible refine Keeps.ofFst (pq := pq) e ?_ (fun _ => ?_) <;> clear e)
         | with_reducible apply State.takeBytes_keepsP
         | (with_reducible refine State.takeBytes_keepsE (by with_reducible assumption) ?_)
         | intro _
         | split
         | simp only [Keeps.upd]
       done))
    | (
       repeat' first
         | with_reducible assumption
         | (rename_i e; with_reducible refine Keeps.ofSnd (pq := pq) e ?_ (fun _ => ?_) <;> clear e)
         | (rename_i e; with_reducible refine Keeps.ofFst (pq := pq) e ?_ (fun _ => ?_) <;> clear e)
         | with_reducible apply State.takeBytes_keepsP
         | (with_reducible refine State.takeBytes_keepsE (by with_reducible assumption) ?_)
         | intro _
         | split
         | simp only [Keeps.upd]
       done)
theorem State.readAtlas_keepsE1 {pq : List Instr} {s : State} {at_ : DWord} {x : PlaneData} {tv4 v3} (e : State.readAtlas s at_ x = (Except.ok (v3, tv4))) (hs : State.Keeps pq s) :
    State.Keeps pq tv4 := by
  unfold State.readAtlas at e
  (try dsimp only at e)
  repeat' (split at e)
  all_goals first
    | (cases e <;> (
       repeat' first
         | with_reducible assumption
         | (rename_i e; with_reducible refine Keeps.ofSnd (pq := pq) e ?_ (fun _ => ?_) <;> clear e)
         | (rename_i e; with_reducible refine Keeps.ofFst (pq := pq) e ?_ (fun _ => ?_) <;> clear e)
         | with_reducible apply State.takeBytes_keepsP
         | (with_reducible refine State.takeBytes_keepsE (by with_reducible assumption) ?_)
         | intro _
         | split
         | simp only [Keeps.upd]
       done))
    | (
       repeat' first
         | with_reducible assumption
         | (rename_i e; with_reducible refine Keeps.ofSnd (pq := pq) e ?_ (fun _ => ?_) <;> clear e)
         | (rename_i e; with_reducible refine Keeps.ofFst (pq := pq) e ?_ (fun _ => ?_) <;> clear e)
         | with_reducible apply State.takeBytes_keepsP
         | (with_reducible refine State.takeBytes_keepsE (by with_reducible assumption) ?_)
         | intro _
         | split
         | simp only [Keeps.upd]
       done)

theorem State.readText_keepsE {pq : List Instr} {s : State} {a : Ask} {x : PlaneData} {tv2 v1} (e : State.readText s a x = (Except.error (v1, tv2))) (hs : State.Keeps pq s) :
    State.Keeps pq tv2 := by
  unfold State.readText at e
  (try dsimp only at e)
  repeat' (split at e)
  all_goals first
    | (cases e <;> (
       repeat' first
         | with_reducible assumption
         | (rename_i e; with_reducible refine Keeps.ofSnd (pq := pq) e ?_ (fun _ => ?_) <;> clear e)
         | (rename_i e; with_reducible refine Keeps.ofFst (pq := pq) e ?_ (fun _ => ?_) <;> clear e)
         | (extract_lets -underBinder +onlyGivenNames -merge x; with_reducible refine Keeps.cut (pq := pq) x ?_ (fun _ => ?_); rotate_left; clear_value x; rotate_left; subst x)
         | (extract_lets -underBinder +onlyGivenNames -merge x; subst x)
         | with_reducible apply State.readAtlas_keepsP
         | (with_reducible refine State.readAtlas_keepsE (by with_reducible assumption) ?_)
         | (with_reducible refine State.readAtlas_keepsE1 (by with_reducible assumption) ?_)
         | with_reducible apply State.takeBytes_keepsP
         | (with_reducible refine State.takeBytes_keepsE (by with_reducible assumption) ?_)
         | intro _
         | split
         | simp only [Keeps.upd]
       done))
    | (
       repeat' first
         | with_reducible assumption
         | (rename_i e; with_reducible refine Keeps.ofSnd (pq := pq) e ?_ (fun _ => ?_) <;> clear e)
         | (rename_i e; with_reducible refine Keeps.ofFst (pq := pq) e ?_ (fun _ => ?_) <;> clear e)
         | (extract_lets -underBinder +onlyGivenNames -merge x; with_reducible refine Keeps.cut (pq := pq) x ?_ (fun _ => ?_); rotate_left; clear_value x; rotate_left; subst x)
         | (extract_lets -underBinder +onlyGivenNames -merge x; subst x)
         | with_reducible apply State.readAtlas_keepsP
         | (with_reducible refine State.readAtlas_keepsE (by with_reducible assumption) ?_)
         | (with_reducible refine State.readAtlas_keepsE1 (by with_reducible assumption) ?_)
         | with_reducible apply State.takeBytes_keepsP
         | (with_reducible refine State.takeBytes_keepsE (by with_reducible assumption) ?_)
         | intro _
         | split
         | simp only [Keeps.upd]
       done)
theorem State.readText_keepsE1 {pq : List Instr} {s : State} {a : Ask} {x : PlaneData} {tv4 v3} (e : State.readText s a x = (Except.ok (v3, tv4))) (hs : State.Keeps pq s) :
    State.Keeps pq tv4 := by
  unfold State.readText at e
  (try dsimp only at e)
  repeat' (split at e)
  all_goals first
    | (cases e <;> (
       repeat' first
         | with_reducible assumption
         | (rename_i e; with_reducible refine Keeps.ofSnd (pq := pq) e ?_ (fun _ => ?_) <;> clear e)
         | (rename_i e; with_reducible refine Keeps.ofFst (pq := pq) e ?_ (fun _ => ?_) <;> clear e)
         | (extract_lets -underBinder +onlyGivenNames -merge x; with_reducible refine Keeps.cut (pq := pq) x ?_ (fun _ => ?_); rotate_left; clear_value x; rotate_left; subst x)
         | (extract_lets -underBinder +onlyGivenNames -merge x; subst x)
         | with_reducible apply State.readAtlas_keepsP
         | (with_reducible refine State.readAtlas_keepsE (by with_reducible assumption) ?_)
         | (with_reducible refine State.readAtlas_keepsE1 (by with_reducible assumption) ?_)
         | with_reducible apply State.takeBytes_keepsP
         | (with_reducible refine State.takeBytes_keepsE (by with_reducible assumption) ?_)
         | intro _
         | split
         | simp only [Keeps.upd]
       done))
    | (
       repeat' first
         | with_reducible assumption
         | (rename_i e; with_reducible refine Keeps.ofSnd (pq := pq) e ?_ (fun _ => ?_) <;> clear e)
         | (rename_i e; with_reducible refine Keeps.ofFst (pq := pq) e ?_ (fun _ => ?_) <;> clear e)
         | (extract_lets -underBinder +onlyGivenNames -merge x; with_reducible refine Keeps.cut (pq := pq) x ?_ (fun _ => ?_); rotate_left; clear_value x; rotate_left; subst x)
         | (extract_lets -underBinder +onlyGivenNames -merge x; subst x)
         | with_reducible apply State.readAtlas_keepsP
         | (with_reducible refine State.readAtlas_keepsE (by with_reducible assumption) ?_)
         | (with_reducible refine State.readAtlas_keepsE1 (by with_reducible assumption) ?_)
         | with_reducible apply State.takeBytes_keepsP
         | (with_reducible refine State.takeBytes_keepsE (by with_reducible assumption) ?_)
         | intro _
         | split
         | simp only [Keeps.upd]
       done)

theorem State.readSource_keepsE {pq : List Instr} {s : State} {a : Ask} {x : PlaneData} {tv2 v1} (e : State.readSource s a x = (Except.error (v1, tv2))) (hs : State.Keeps pq s) :
    State.Keeps pq tv2 := by
  unfold State.readSource at e
  (try dsimp only at e)
  repeat' (split at e)
  all_goals first
    | (cases e <;> (
       repeat' first
         | with_reducible assumption
         | (rename_i e; with_reducible refine Keeps.ofSnd (pq := pq) e ?_ (fun _ => ?_) <;> clear e)
         | (rename_i e; with_reducible refine Keeps.ofFst (pq := pq) e ?_ (fun _ => ?_) <;> clear e)
         | with_reducible apply State.readText_keepsP
         | (with_reducible refine State.readText_keepsE (by with_reducible assumption) ?_)
         | (with_reducible refine State.readText_keepsE1 (by with_reducible assumption) ?_)
         | with_reducible apply State.readStill_keepsP
         | (with_reducible refine State.readStill_keepsE (by with_reducible assumption) ?_)
         | (with_reducible refine State.readStill_keepsE1 (by with_reducible assumption) ?_)
         | intro _
         | split
         | simp only [Keeps.upd]
       done))
    | (
       repeat' first
         | with_reducible assumption
         | (rename_i e; with_reducible refine Keeps.ofSnd (pq := pq) e ?_ (fun _ => ?_) <;> clear e)
         | (rename_i e; with_reducible refine Keeps.ofFst (pq := pq) e ?_ (fun _ => ?_) <;> clear e)
         | with_reducible apply State.readText_keepsP
         | (with_reducible refine State.readText_keepsE (by with_reducible assumption) ?_)
         | (with_reducible refine State.readText_keepsE1 (by with_reducible assumption) ?_)
         | with_reducible apply State.readStill_keepsP
         | (with_reducible refine State.readStill_keepsE (by with_reducible assumption) ?_)
         | (with_reducible refine State.readStill_keepsE1 (by with_reducible assumption) ?_)
         | intro _
         | split
         | simp only [Keeps.upd]
       done)
theorem State.readSource_keepsE1 {pq : List Instr} {s : State} {a : Ask} {x : PlaneData} {tv4 v3} (e : State.readSource s a x = (Except.ok (v3, tv4))) (hs : State.Keeps pq s) :
    State.Keeps pq tv4 := by
  unfold State.readSource at e
  (try dsimp only at e)
  repeat' (split at e)
  all_goals first
    | (cases e <;> (
       repeat' first
         | with_reducible assumption
         | (rename_i e; with_reducible refine Keeps.ofSnd (pq := pq) e ?_ (fun _ => ?_) <;> clear e)
         | (rename_i e; with_reducible refine Keeps.ofFst (pq := pq) e ?_ (fun _ => ?_) <;> clear e)
         | with_reducible apply State.readText_keepsP
         | (with_reducible refine State.readText_keepsE (by with_reducible assumption) ?_)
         | (with_reducible refine State.readText_keepsE1 (by with_reducible assumption) ?_)
         | with_reducible apply State.readStill_keepsP
         | (with_reducible refine State.readStill_keepsE (by with_reducible assumption) ?_)
         | (with_reducible refine State.readStill_keepsE1 (by with_reducible assumption) ?_)
         | intro _
         | split
         | simp only [Keeps.upd]
       done))
    | (
       repeat' first
         | with_reducible assumption
         | (rename_i e; with_reducible refine Keeps.ofSnd (pq := pq) e ?_ (fun _ => ?_) <;> clear e)
         | (rename_i e; with_reducible refine Keeps.ofFst (pq := pq) e ?_ (fun _ => ?_) <;> clear e)
         | with_reducible apply State.readText_keepsP
         | (with_reducible refine State.readText_keepsE (by with_reducible assumption) ?_)
         | (with_reducible refine State.readText_keepsE1 (by with_reducible assumption) ?_)
         | with_reducible apply State.readStill_keepsP
         | (with_reducible refine State.readStill_keepsE (by with_reducible assumption) ?_)
         | (with_reducible refine State.readStill_keepsE1 (by with_reducible assumption) ?_)
         | intro _
         | split
         | simp only [Keeps.upd]
       done)

theorem State.undoUpdate_keeps {pq : List Instr} {s : State} {o : Nat} {u : PlaneUpdate} (hs : State.Keeps pq s) :
    State.Keeps pq (State.undoUpdate s o u) := by
  unfold State.undoUpdate
  repeat' first
    | with_reducible assumption
    | (rename_i e; with_reducible refine Keeps.ofSnd (pq := pq) e ?_ (fun _ => ?_) <;> clear e)
    | (rename_i e; with_reducible refine Keeps.ofFst (pq := pq) e ?_ (fun _ => ?_) <;> clear e)
    | (extract_lets -underBinder +onlyGivenNames -merge x; with_reducible refine Keeps.cut (pq := pq) x ?_ (fun _ => ?_); rotate_left; clear_value x; rotate_left; subst x)
    | (extract_lets -underBinder +onlyGivenNames -merge x; subst x)
    | with_reducible apply State.tick_keeps
    | with_reducible apply State.setAt_keeps
    | with_reducible apply State.takePictures_keeps
    | with_reducible apply State.dropContent_keeps
    | with_reducible apply State.updOut_keeps
    | with_reducible apply State.setOut_keeps
    | intro _
    | split
    | simp only [Keeps.upd]

theorem State.dropUpdate_keeps {pq : List Instr} {s : State} {o id : Nat} (hs : State.Keeps pq s) :
    State.Keeps pq (State.dropUpdate s o id) := by
  unfold State.dropUpdate
  repeat' first
    | with_reducible assumption
    | (rename_i e; with_reducible refine Keeps.ofSnd (pq := pq) e ?_ (fun _ => ?_) <;> clear e)
    | (rename_i e; with_reducible refine Keeps.ofFst (pq := pq) e ?_ (fun _ => ?_) <;> clear e)
    | with_reducible apply State.undoUpdate_keeps
    | with_reducible apply State.conflict_keeps
    | with_reducible apply State.endUpdate_keeps
    | intro _
    | split
    | simp only [Keeps.upd]

theorem State.composeRoom_keepsE {pq : List Instr} {s : State} {a : Ask} {f : Found} {tv2 v1} (e : State.composeRoom s a f = (Except.error (v1, tv2))) (hs : State.Keeps pq s) :
    State.Keeps pq tv2 := by
  unfold State.composeRoom at e
  (try dsimp only at e)
  repeat' (split at e)
  all_goals first
    | (cases e <;> (
       repeat' first
         | with_reducible assumption
         | (rename_i e; with_reducible refine Keeps.ofSnd (pq := pq) e ?_ (fun _ => ?_) <;> clear e)
         | (rename_i e; with_reducible refine Keeps.ofFst (pq := pq) e ?_ (fun _ => ?_) <;> clear e)
         | with_reducible apply State.useAtlas_keeps
         | with_reducible apply State.devWrite_keeps
         | with_reducible apply State.raise_keeps
         | with_reducible apply State.request_keepsP
         | (with_reducible refine State.request_keepsE (by with_reducible assumption) ?_)
         | intro _
         | split
         | simp only [Keeps.upd]
       done))
    | (
       repeat' first
         | with_reducible assumption
         | (rename_i e; with_reducible refine Keeps.ofSnd (pq := pq) e ?_ (fun _ => ?_) <;> clear e)
         | (rename_i e; with_reducible refine Keeps.ofFst (pq := pq) e ?_ (fun _ => ?_) <;> clear e)
         | with_reducible apply State.useAtlas_keeps
         | with_reducible apply State.devWrite_keeps
         | with_reducible apply State.raise_keeps
         | with_reducible apply State.request_keepsP
         | (with_reducible refine State.request_keepsE (by with_reducible assumption) ?_)
         | intro _
         | split
         | simp only [Keeps.upd]
       done)
theorem State.composeRoom_keepsE1 {pq : List Instr} {s : State} {a : Ask} {f : Found} {tv4 v3} (e : State.composeRoom s a f = (Except.ok (v3, tv4))) (hs : State.Keeps pq s) :
    State.Keeps pq tv4 := by
  unfold State.composeRoom at e
  (try dsimp only at e)
  repeat' (split at e)
  all_goals first
    | (cases e <;> (
       repeat' first
         | with_reducible assumption
         | (rename_i e; with_reducible refine Keeps.ofSnd (pq := pq) e ?_ (fun _ => ?_) <;> clear e)
         | (rename_i e; with_reducible refine Keeps.ofFst (pq := pq) e ?_ (fun _ => ?_) <;> clear e)
         | with_reducible apply State.useAtlas_keeps
         | with_reducible apply State.devWrite_keeps
         | with_reducible apply State.raise_keeps
         | with_reducible apply State.request_keepsP
         | (with_reducible refine State.request_keepsE (by with_reducible assumption) ?_)
         | intro _
         | split
         | simp only [Keeps.upd]
       done))
    | (
       repeat' first
         | with_reducible assumption
         | (rename_i e; with_reducible refine Keeps.ofSnd (pq := pq) e ?_ (fun _ => ?_) <;> clear e)
         | (rename_i e; with_reducible refine Keeps.ofFst (pq := pq) e ?_ (fun _ => ?_) <;> clear e)
         | with_reducible apply State.useAtlas_keeps
         | with_reducible apply State.devWrite_keeps
         | with_reducible apply State.raise_keeps
         | with_reducible apply State.request_keepsP
         | (with_reducible refine State.request_keepsE (by with_reducible assumption) ?_)
         | intro _
         | split
         | simp only [Keeps.upd]
       done)

theorem State.askCompose_keeps {pq : List Instr} {s : State} {a : Ask} {x : PlaneData} (hs : State.Keeps pq s) :
    KeepsA pq (State.askCompose s a x) := by
  unfold State.askCompose
  repeat' first
    | with_reducible assumption
    | (rename_i e; with_reducible refine Keeps.ofSnd (pq := pq) e ?_ (fun _ => ?_) <;> clear e)
    | (rename_i e; with_reducible refine Keeps.ofFst (pq := pq) e ?_ (fun _ => ?_) <;> clear e)
    | (extract_lets -underBinder +onlyGivenNames -merge x; with_reducible refine Keeps.cut (pq := pq) x ?_ (fun _ => ?_); rotate_left; clear_value x; rotate_left; subst x)
    | (extract_lets -underBinder +onlyGivenNames -merge x; subst x)
    | with_reducible apply State.dropUpdate_keeps
    | with_reducible apply State.keepOrder_keeps
    | with_reducible apply State.conflict_keeps
    | with_reducible apply State.submitCompose_keeps
    | with_reducible apply State.composeRoom_keepsP
    | (with_reducible refine State.composeRoom_keepsE (by with_reducible assumption) ?_)
    | (with_reducible refine State.composeRoom_keepsE1 (by with_reducible assumption) ?_)
    | with_reducible apply State.readSource_keepsP
    | (with_reducible refine State.readSource_keepsE (by with_reducible assumption) ?_)
    | (with_reducible refine State.readSource_keepsE1 (by with_reducible assumption) ?_)
    | with_reducible apply State.contest_keepsP
    | (with_reducible refine State.contest_keepsE (by with_reducible assumption) ?_)
    | with_reducible apply KeepsA.mkOk
    | with_reducible apply KeepsA.mkErr
    | (rename_i e; with_reducible refine KeepsA.ok (pq := pq) e ?_ (fun _ => ?_) <;> clear e)
    | (rename_i e; with_reducible refine KeepsA.err (pq := pq) e ?_ (fun _ => ?_) <;> clear e)
    | intro _
    | split
    | simp only [Keeps.upd]

theorem State.askEntry_keeps {pq : List Instr} {s : State} {n op : Nat} {f : State → Ask → Asked} (hs : State.Keeps pq s) (hf : ∀ (x0 : State) (x1 : Ask), State.Keeps pq x0 → KeepsA pq (f x0 x1)) :
    State.Keeps pq (State.askEntry s n op f) := by
  unfold State.askEntry
  repeat' first
    | with_reducible assumption
    | (rename_i e; with_reducible refine Keeps.ofSnd (pq := pq) e ?_ (fun _ => ?_) <;> clear e)
    | (rename_i e; with_reducible refine Keeps.ofFst (pq := pq) e ?_ (fun _ => ?_) <;> clear e)
    | with_reducible apply hf
    | with_reducible apply State.deny_keeps
    | with_reducible apply State.start_keeps
    | with_reducible apply KeepsA.mkOk
    | with_reducible apply KeepsA.mkErr
    | (rename_i e; with_reducible refine KeepsA.ok (pq := pq) e ?_ (fun _ => ?_) <;> clear e)
    | (rename_i e; with_reducible refine KeepsA.err (pq := pq) e ?_ (fun _ => ?_) <;> clear e)
    | split
    | simp only [Keeps.upd]

theorem execDecode_keeps {pq : List Instr} {n : Fin 4096} {s : State} (hs : State.Keeps pq s) :
    KeepsO pq (execDecode n s) := by
  unfold execDecode
  repeat' first
    | with_reducible assumption
    | with_reducible apply KeepsO.mk
    | with_reducible apply State.askEntry_keeps
    | with_reducible apply State.askDecode_keeps
    | intro _

theorem execEncode_keeps {pq : List Instr} {n : Fin 4096} {s : State} (hs : State.Keeps pq s) :
    KeepsO pq (execEncode n s) := by
  unfold execEncode
  repeat' first
    | with_reducible assumption
    | with_reducible apply KeepsO.mk
    | with_reducible apply State.askEntry_keeps
    | with_reducible apply State.askEncode_keeps
    | intro _

theorem execCompose_keeps {pq : List Instr} {n : Fin 4096} {x : PlaneData} {s : State} (hs : State.Keeps pq s) :
    KeepsO pq (execCompose n x s) := by
  unfold execCompose
  repeat' first
    | with_reducible assumption
    | with_reducible apply KeepsO.mk
    | with_reducible apply State.askEntry_keeps
    | with_reducible apply State.askCompose_keeps
    | intro _

theorem execSend_keeps {pq : List Instr} {n : Fin 4096} {data : List Byte} {s : State} (hs : State.Keeps pq s) :
    KeepsO pq (execSend n data s) := by
  unfold execSend
  repeat' first
    | with_reducible assumption
    | with_reducible apply KeepsO.mk
    | with_reducible apply State.askEntry_keeps
    | with_reducible apply State.askSend_keeps
    | intro _

theorem State.ccwUnit_keeps {pq : List Instr} {s : State} {c : Nat} {w : List Byte} {op : Nat} {f : State → Ask → Asked} (hs : State.Keeps pq s) (hf : ∀ (x0 : State) (x1 : Ask), State.Keeps pq x0 → KeepsA pq (f x0 x1)) :
    State.Keeps pq (State.ccwUnit s c w op f) := by
  unfold State.ccwUnit
  repeat' first
    | with_reducible assumption
    | (rename_i e; with_reducible refine Keeps.ofSnd (pq := pq) e ?_ (fun _ => ?_) <;> clear e)
    | (rename_i e; with_reducible refine Keeps.ofFst (pq := pq) e ?_ (fun _ => ?_) <;> clear e)
    | (extract_lets -underBinder +onlyGivenNames -merge x; with_reducible refine Keeps.cut (pq := pq) x ?_ (fun _ => ?_); rotate_left; clear_value x; rotate_left; subst x)
    | (extract_lets -underBinder +onlyGivenNames -merge x; subst x)
    | with_reducible apply hf
    | with_reducible apply State.runCcw_keeps
    | with_reducible apply State.failCcw_keeps
    | with_reducible apply State.endCcw_keeps
    | with_reducible apply State.setChan_keeps
    | with_reducible apply KeepsA.mkOk
    | with_reducible apply KeepsA.mkErr
    | (rename_i e; with_reducible refine KeepsA.ok (pq := pq) e ?_ (fun _ => ?_) <;> clear e)
    | (rename_i e; with_reducible refine KeepsA.err (pq := pq) e ?_ (fun _ => ?_) <;> clear e)
    | intro _
    | split
    | simp only [Keeps.upd]

theorem execCcwDecode_keeps {pq : List Instr} {c : Fin 64} {w : List Byte} {s : State} (hs : State.Keeps pq s) :
    KeepsO pq (execCcwDecode c w s) := by
  unfold execCcwDecode
  repeat' first
    | with_reducible assumption
    | with_reducible apply KeepsO.mk
    | with_reducible apply State.ccwUnit_keeps
    | with_reducible apply State.askDecode_keeps
    | intro _

theorem execCcwEncode_keeps {pq : List Instr} {c : Fin 64} {w : List Byte} {s : State} (hs : State.Keeps pq s) :
    KeepsO pq (execCcwEncode c w s) := by
  unfold execCcwEncode
  repeat' first
    | with_reducible assumption
    | with_reducible apply KeepsO.mk
    | with_reducible apply State.ccwUnit_keeps
    | with_reducible apply State.askEncode_keeps
    | intro _

theorem execCcwCompose_keeps {pq : List Instr} {c : Fin 64} {w : List Byte} {x : PlaneData} {s : State} (hs : State.Keeps pq s) :
    KeepsO pq (execCcwCompose c w x s) := by
  unfold execCcwCompose
  repeat' first
    | with_reducible assumption
    | with_reducible apply KeepsO.mk
    | with_reducible apply State.ccwUnit_keeps
    | with_reducible apply State.askCompose_keeps
    | intro _

theorem execCcwSend_keeps {pq : List Instr} {c : Fin 64} {w : List Byte} {data : List Byte} {s : State} (hs : State.Keeps pq s) :
    KeepsO pq (execCcwSend c w data s) := by
  unfold execCcwSend
  repeat' first
    | with_reducible assumption
    | with_reducible apply KeepsO.mk
    | with_reducible apply State.ccwUnit_keeps
    | with_reducible apply State.askSend_keeps
    | intro _

theorem State.channelCommand_keeps {pq : List Instr} {s : State} {n action : Nat} {checks : Slot → List (Bool × Deny)} {f : Slot → State} (hs : State.Keeps pq s) (hf : ∀ (x0 : Slot), State.Keeps pq (f x0)) :
    State.Keeps pq (State.channelCommand s n action checks f) := by
  unfold State.channelCommand
  repeat' first
    | with_reducible assumption
    | with_reducible apply hf
    | with_reducible apply State.command_keeps
    | split
    | simp only [Keeps.upd]

theorem State.allocateEntry_keeps {pq : List Instr} {s : State} {n pick : Nat} (hs : State.Keeps pq s) :
    State.Keeps pq (State.allocateEntry s n pick) := by
  unfold State.allocateEntry
  repeat' first
    | with_reducible assumption
    | (rename_i e; with_reducible refine Keeps.ofSnd (pq := pq) e ?_ (fun _ => ?_) <;> clear e)
    | (rename_i e; with_reducible refine Keeps.ofFst (pq := pq) e ?_ (fun _ => ?_) <;> clear e)
    | (extract_lets -underBinder +onlyGivenNames -merge x; with_reducible refine Keeps.cut (pq := pq) x ?_ (fun _ => ?_); rotate_left; clear_value x; rotate_left; subst x)
    | (extract_lets -underBinder +onlyGivenNames -merge x; subst x)
    | with_reducible apply State.channelCommand_keeps
    | with_reducible apply State.opened_keeps
    | with_reducible apply State.deny_keeps
    | with_reducible apply State.setChan_keeps
    | with_reducible apply idle_keeps
    | intro _
    | split
    | simp only [Keeps.upd]

theorem State.channelOn_keeps {pq : List Instr} {s : State} {n action : Nat} {extra : Slot → List (Bool × Deny)} {from_ : ChSt → Bool} {f : State → Fin 64 → Channel → Slot → State} (hs : State.Keeps pq s) (hf : ∀ (x0 : State) (x1 : Fin 64) (x2 : Channel) (x3 : Slot), State.Keeps pq x0 → State.Keeps pq (f x0 x1 x2 x3)) :
    State.Keeps pq (State.channelOn s n action extra from_ f) := by
  unfold State.channelOn
  repeat' first
    | with_reducible assumption
    | (rename_i e; with_reducible refine Keeps.ofSnd (pq := pq) e ?_ (fun _ => ?_) <;> clear e)
    | (rename_i e; with_reducible refine Keeps.ofFst (pq := pq) e ?_ (fun _ => ?_) <;> clear e)
    | with_reducible apply hf
    | with_reducible apply State.channelCommand_keeps
    | intro _
    | simp only [Keeps.upd]

theorem State.startEntry_keeps {pq : List Instr} {s : State} {n : Nat} (hs : State.Keeps pq s) :
    State.Keeps pq (State.startEntry s n) := by
  unfold State.startEntry
  repeat' first
    | with_reducible assumption
    | with_reducible apply State.channelOn_keeps
    | with_reducible apply State.setChan_keeps
    | with_reducible apply State.start_keeps
    | with_reducible apply idle_keeps
    | intro _
    | simp only [Keeps.upd]

theorem State.suspendEntry_keeps {pq : List Instr} {s : State} {n : Nat} (hs : State.Keeps pq s) :
    State.Keeps pq (State.suspendEntry s n) := by
  unfold State.suspendEntry
  repeat' first
    | with_reducible assumption
    | (extract_lets -underBinder +onlyGivenNames -merge x; with_reducible refine Keeps.cut (pq := pq) x ?_ (fun _ => ?_); rotate_left; clear_value x; rotate_left; subst x)
    | (extract_lets -underBinder +onlyGivenNames -merge x; subst x)
    | with_reducible apply State.channelOn_keeps
    | with_reducible apply State.suspendNow_keeps
    | with_reducible apply State.setChan_keeps
    | with_reducible apply State.start_keeps
    | with_reducible apply State.finish_keeps
    | intro _
    | split
    | simp only [Keeps.upd]

theorem State.resumeEntry_keeps {pq : List Instr} {s : State} {n : Nat} (hs : State.Keeps pq s) :
    State.Keeps pq (State.resumeEntry s n) := by
  unfold State.resumeEntry
  repeat' first
    | with_reducible assumption
    | with_reducible apply State.channelOn_keeps
    | with_reducible apply State.setChan_keeps
    | with_reducible apply State.finish_keeps
    | intro _
    | simp only [Keeps.upd]

theorem State.haltEntry_keeps {pq : List Instr} {s : State} {n : Nat} (hs : State.Keeps pq s) :
    State.Keeps pq (State.haltEntry s n) := by
  unfold State.haltEntry
  repeat' first
    | with_reducible assumption
    | with_reducible apply State.channelOn_keeps
    | with_reducible apply State.haltChannel_keeps
    | with_reducible apply State.setChan_keeps
    | with_reducible apply State.start_keeps
    | with_reducible apply State.finish_keeps
    | with_reducible apply idle_keeps
    | intro _
    | split
    | simp only [Keeps.upd]

theorem State.clearEntry_keeps {pq : List Instr} {s : State} {n : Nat} (hs : State.Keeps pq s) :
    State.Keeps pq (State.clearEntry s n) := by
  unfold State.clearEntry
  repeat' first
    | with_reducible assumption
    | (extract_lets -underBinder +onlyGivenNames -merge x; with_reducible refine Keeps.cut (pq := pq) x ?_ (fun _ => ?_); rotate_left; clear_value x; rotate_left; subst x)
    | (extract_lets -underBinder +onlyGivenNames -merge x; subst x)
    | with_reducible apply State.channelOn_keeps
    | with_reducible apply State.haltChannel_keeps
    | with_reducible apply State.dropChannelSession_keeps
    | with_reducible apply State.setChan_keeps
    | with_reducible apply State.start_keeps
    | with_reducible apply State.finish_keeps
    | with_reducible apply idle_keeps
    | intro _
    | split
    | simp only [Keeps.upd]

theorem execChannelAllocate_keeps {pq : List Instr} {n : Fin 4096} {pick : Nat} {s : State} (hs : State.Keeps pq s) :
    KeepsO pq (execChannelAllocate n pick s) := by
  unfold execChannelAllocate
  repeat' first
    | with_reducible assumption
    | with_reducible apply KeepsO.mk
    | with_reducible apply State.allocateEntry_keeps

theorem execChannelStart_keeps {pq : List Instr} {n : Fin 4096} {s : State} (hs : State.Keeps pq s) :
    KeepsO pq (execChannelStart n s) := by
  unfold execChannelStart
  repeat' first
    | with_reducible assumption
    | with_reducible apply KeepsO.mk
    | with_reducible apply State.startEntry_keeps

theorem execChannelSuspend_keeps {pq : List Instr} {n : Fin 4096} {s : State} (hs : State.Keeps pq s) :
    KeepsO pq (execChannelSuspend n s) := by
  unfold execChannelSuspend
  repeat' first
    | with_reducible assumption
    | with_reducible apply KeepsO.mk
    | with_reducible apply State.suspendEntry_keeps

theorem execChannelResume_keeps {pq : List Instr} {n : Fin 4096} {s : State} (hs : State.Keeps pq s) :
    KeepsO pq (execChannelResume n s) := by
  unfold execChannelResume
  repeat' first
    | with_reducible assumption
    | with_reducible apply KeepsO.mk
    | with_reducible apply State.resumeEntry_keeps

theorem execChannelHalt_keeps {pq : List Instr} {n : Fin 4096} {s : State} (hs : State.Keeps pq s) :
    KeepsO pq (execChannelHalt n s) := by
  unfold execChannelHalt
  repeat' first
    | with_reducible assumption
    | with_reducible apply KeepsO.mk
    | with_reducible apply State.haltEntry_keeps

theorem execChannelClear_keeps {pq : List Instr} {n : Fin 4096} {s : State} (hs : State.Keeps pq s) :
    KeepsO pq (execChannelClear n s) := by
  unfold execChannelClear
  repeat' first
    | with_reducible assumption
    | with_reducible apply KeepsO.mk
    | with_reducible apply State.clearEntry_keeps

theorem State.endStageCcw_keeps {pq : List Instr} {s : State} {c : Nat} {st : Status} (hs : State.Keeps pq s) :
    State.Keeps pq (State.endStageCcw s c st) := by
  unfold State.endStageCcw
  repeat' first
    | with_reducible assumption
    | with_reducible apply State.orderDone_keeps
    | with_reducible apply State.failCcw_keeps
    | split

theorem State.channelWrite_keeps {pq : List Instr} {s : State} {c : Nat} {b pairs : List Byte} (hs : State.Keeps pq s) :
    State.Keeps pq (State.channelWrite s c b pairs) := by
  unfold State.channelWrite
  repeat' first
    | with_reducible assumption
    | (rename_i e; with_reducible refine Keeps.ofSnd (pq := pq) e ?_ (fun _ => ?_) <;> clear e)
    | (rename_i e; with_reducible refine Keeps.ofFst (pq := pq) e ?_ (fun _ => ?_) <;> clear e)
    | (extract_lets -underBinder +onlyGivenNames -merge x; with_reducible refine Keeps.cut (pq := pq) x ?_ (fun _ => ?_); rotate_left; clear_value x; rotate_left; subst x)
    | (extract_lets -underBinder +onlyGivenNames -merge x; subst x)
    | with_reducible apply State.endStageCcw_keeps
    | with_reducible apply State.putPairs_keeps
    | with_reducible apply State.failCcw_keeps
    | with_reducible apply State.readAreas_keepsP
    | (with_reducible refine State.readAreas_keepsE (by with_reducible assumption) ?_)
    | with_reducible apply State.stagingWrite_keepsP
    | (with_reducible refine State.stagingWrite_keepsE (by with_reducible assumption) ?_)
    | intro _
    | split
    | simp only [Keeps.upd]

theorem State.channelStage_keeps {pq : List Instr} {s : State} {c : Nat} {b : List Byte} (hs : State.Keeps pq s) :
    State.Keeps pq (State.channelStage s c b) := by
  unfold State.channelStage
  repeat' first
    | with_reducible assumption
    | (rename_i e; with_reducible refine Keeps.ofSnd (pq := pq) e ?_ (fun _ => ?_) <;> clear e)
    | (rename_i e; with_reducible refine Keeps.ofFst (pq := pq) e ?_ (fun _ => ?_) <;> clear e)
    | (extract_lets -underBinder +onlyGivenNames -merge x; with_reducible refine Keeps.cut (pq := pq) x ?_ (fun _ => ?_); rotate_left; clear_value x; rotate_left; subst x)
    | (extract_lets -underBinder +onlyGivenNames -merge x; subst x)
    | with_reducible apply State.endStageCcw_keeps
    | with_reducible apply State.checkBegin_keeps
    | with_reducible apply State.stageCancel_keeps
    | with_reducible apply State.conflict_keeps
    | with_reducible apply State.endCcw_keeps
    | with_reducible apply State.setChan_keeps
    | with_reducible apply State.applyOrder_keepsP
    | (with_reducible refine State.applyOrder_keepsE (by with_reducible assumption) ?_)
    | with_reducible apply State.claim_keepsP
    | (with_reducible refine State.claim_keepsE (by with_reducible assumption) ?_)
    | split
    | simp only [Keeps.upd]

theorem State.ccwStage_keeps {pq : List Instr} {s : State} {c : Nat} {w pairs : List Byte} (hs : State.Keeps pq s) :
    State.Keeps pq (State.ccwStage s c w pairs) := by
  unfold State.ccwStage
  repeat' first
    | with_reducible assumption
    | with_reducible apply State.channelStage_keeps
    | with_reducible apply State.channelWrite_keeps
    | with_reducible apply State.runCcw_keeps
    | intro _
    | split

theorem execCcwControlStage_keeps {pq : List Instr} {c : Fin 64} {w pairs : List Byte} {s : State} (hs : State.Keeps pq s) :
    KeepsO pq (execCcwControlStage c w pairs s) := by
  unfold execCcwControlStage
  repeat' first
    | with_reducible assumption
    | with_reducible apply KeepsO.mk
    | with_reducible apply State.ccwStage_keeps

end Sys2Proof.Machine
end

