-- ==== Sys2Proof/Laws/KeepsWick.lean ====
section
/-! SUPPORT. What each operation keeps (see `State.Keeps`): Wick instructions, the debug module and the fabric. -/

set_option maxRecDepth 4000

namespace Sys2Proof.Machine

def KeepsW (pq : List Instr) (r : WResult) : Prop :=
  match r with
  | .ok d => State.Keeps pq d.s
  | .error (_, t) => State.Keeps pq t
theorem KeepsW.mkOk {pq : List Instr} {t : State} {j : Option Word} {l : Option (Fin 32 × Word)} (h : State.Keeps pq t) :
    KeepsW pq (.ok ⟨t, j, l⟩) := h
theorem KeepsW.mkGo {pq : List Instr} {t : State} (h : State.Keeps pq t) : KeepsW pq (.ok (WDone.go t)) := h
theorem KeepsW.mkErr {pq : List Instr} {t : State} {x : WExc} (h : State.Keeps pq t) : KeepsW pq (.error (x, t)) := h
theorem KeepsW.mkPure {pq : List Instr} {t : State} {j : Option Word} {l : Option (Fin 32 × Word)} (h : State.Keeps pq t) :
    KeepsW pq (pure ⟨t, j, l⟩) := h
theorem KeepsW.mkPureGo {pq : List Instr} {t : State} (h : State.Keeps pq t) : KeepsW pq (pure (WDone.go t)) := h
theorem KeepsW.bindPair {α : Type} {pq : List Instr} {x : Except (WExc × State) (α × State)} {k : α × State → WResult}
    (he : ∀ e t, x = .error (e, t) → State.Keeps pq t) (hk : ∀ a t, x = .ok (a, t) → KeepsW pq (k (a, t))) :
    KeepsW pq (x >>= k) := by
  cases x with
  | error e => exact he e.1 e.2 rfl
  | ok a => exact hk a.1 a.2 rfl
theorem KeepsW.bind {pq : List Instr} {x : Except (WExc × State) State} {k : State → WResult}
    (he : ∀ e t, x = .error (e, t) → State.Keeps pq t) (hk : ∀ t, x = .ok t → KeepsW pq (k t)) :
    KeepsW pq (x >>= k) := by
  cases x with
  | error e => exact he e.1 e.2 rfl
  | ok a => exact hk a rfl
theorem KeepsW.mkThrow {pq : List Instr} {t : State} {x : WExc} (h : State.Keeps pq t) : KeepsW pq (throw (x, t)) := h
theorem KeepsW.throwBind {α : Type} {pq : List Instr} {t : State} {x : WExc} {k : α → WResult} (h : State.Keeps pq t) :
    KeepsW pq ((throw (x, t) : Except (WExc × State) α) >>= k) := h
theorem KeepsW.ok {pq : List Instr} {x : WResult} {d : WDone} {G : Prop} (e : x = .ok d)
    (h : KeepsW pq x) (k : State.Keeps pq d.s → G) : G := k (by rw [e] at h; exact h)
theorem KeepsW.err {pq : List Instr} {x : WResult} {d : WExc} {t : State} {G : Prop} (e : x = .error (d, t))
    (h : KeepsW pq x) (k : State.Keeps pq t → G) : G := k (by rw [e] at h; exact h)
theorem State.wRegRead_keepsP {pq : List Instr} {s : State} {c : Fin 13} {a : Nat} {peek : Bool} (hs : State.Keeps pq s) :
    State.Keeps pq (State.wRegRead s c a peek).2 := by
  unfold State.wRegRead
  repeat' first
    | with_reducible assumption
    | with_reducible apply State.busRead_keepsP
    | (with_reducible refine State.busRead_keepsE (by with_reducible assumption) ?_)
    | with_reducible apply KeepsW.mkGo
    | with_reducible apply KeepsW.mkPureGo
    | with_reducible apply KeepsW.mkOk
    | with_reducible apply KeepsW.mkPure
    | with_reducible apply KeepsW.mkErr
    | with_reducible apply KeepsW.mkThrow
    | with_reducible apply KeepsW.throwBind
    | with_reducible apply KeepsW.bindPair
    | with_reducible apply KeepsW.bind
    | intro _
theorem State.wRegRead_keepsE {pq : List Instr} {s : State} {c : Fin 13} {a : Nat} {peek : Bool} {tv2 v1} (e : State.wRegRead s c a peek = (v1, tv2)) (hs : State.Keeps pq s) :
    State.Keeps pq tv2 := by
  have h := State.wRegRead_keepsP (s := s) (c := c) (a := a) (peek := peek) hs 
  rw [e] at h; exact h

theorem State.wRegBytes_keepsP {pq : List Instr} {s : State} {c : Fin 13} {a n : Nat} (hs : State.Keeps pq s) :
    State.Keeps pq (State.wRegBytes s c a n).2 := by
  induction n generalizing s a with
  | zero => exact hs
  | succ n ih => exact ih (State.wRegRead_keepsP hs)

theorem State.wRegPut_keeps {pq : List Instr} {s : State} {c : Fin 13} {a n : Nat} {bs : List Byte} (hs : State.Keeps pq s) :
    State.Keeps pq (State.wRegPut s c a bs n) := by
  induction n generalizing s a bs with
  | zero => exact hs
  | succ n ih => exact ih (State.busWrite_keeps hs)

theorem State.wRead_keepsE {pq : List Instr} {s : State} {c : Fin 13} {kernel : Bool} {a n : Nat} {cache : Bool} {tv2 v1} (e : State.wRead s c kernel a n cache = (Except.error (v1, tv2))) (hs : State.Keeps pq s) :
    State.Keeps pq tv2 := by
  unfold State.wRead at e
  (try dsimp only at e)
  repeat' (split at e)
  all_goals first
    | (cases e <;> (
       repeat' first
         | with_reducible assumption
         | (rename_i e; with_reducible refine Keeps.ofSnd (pq := pq) e ?_ (fun _ => ?_) <;> clear e)
         | (rename_i e; with_reducible refine Keeps.ofFst (pq := pq) e ?_ (fun _ => ?_) <;> clear e)
         | (extract_lets -underBinder +onlyGivenNames -merge x; with_reducible refine Keeps.cut (pq := pq) x ?_ (fun _ => ?_); rotate_left; clear_value x; rotate_left; subst x)
         | (extract_lets -underBinder +onlyGivenNames -merge x; subst x)
         | with_reducible apply State.wHave_keeps
         | with_reducible apply State.devRead_keeps
         | with_reducible apply State.wRegRead_keepsP
         | with_reducible apply State.wRegBytes_keepsP
         | with_reducible apply State.wRegPut_keeps
         | (with_reducible refine State.wRegRead_keepsE (by with_reducible assumption) ?_)
         | with_reducible apply State.drawFree_keepsP
         | (with_reducible refine State.drawFree_keepsE (by with_reducible assumption) ?_)
         | with_reducible apply KeepsW.mkGo
         | with_reducible apply KeepsW.mkPureGo
         | with_reducible apply KeepsW.mkOk
         | with_reducible apply KeepsW.mkPure
         | with_reducible apply KeepsW.mkErr
         | with_reducible apply KeepsW.mkThrow
         | with_reducible apply KeepsW.throwBind
         | with_reducible apply KeepsW.bindPair
         | with_reducible apply KeepsW.bind
         | (with_reducible refine forEach_keeps ?_ (fun _ _ _ => ?_))
         | intro _
         | split
         | simp only [Keeps.upd]
       done))
    | (
       repeat' first
         | with_reducible assumption
         | (rename_i e; with_reducible refine Keeps.ofSnd (pq := pq) e ?_ (fun _ => ?_) <;> clear e)
         | (rename_i e; with_reducible refine Keeps.ofFst (pq := pq) e ?_ (fun _ => ?_) <;> clear e)
         | (extract_lets -underBinder +onlyGivenNames -merge x; with_reducible refine Keeps.cut (pq := pq) x ?_ (fun _ => ?_); rotate_left; clear_value x; rotate_left; subst x)
         | (extract_lets -underBinder +onlyGivenNames -merge x; subst x)
         | with_reducible apply State.wHave_keeps
         | with_reducible apply State.devRead_keeps
         | with_reducible apply State.wRegRead_keepsP
         | with_reducible apply State.wRegBytes_keepsP
         | with_reducible apply State.wRegPut_keeps
         | (with_reducible refine State.wRegRead_keepsE (by with_reducible assumption) ?_)
         | with_reducible apply State.drawFree_keepsP
         | (with_reducible refine State.drawFree_keepsE (by with_reducible assumption) ?_)
         | with_reducible apply KeepsW.mkGo
         | with_reducible apply KeepsW.mkPureGo
         | with_reducible apply KeepsW.mkOk
         | with_reducible apply KeepsW.mkPure
         | with_reducible apply KeepsW.mkErr
         | with_reducible apply KeepsW.mkThrow
         | with_reducible apply KeepsW.throwBind
         | with_reducible apply KeepsW.bindPair
         | with_reducible apply KeepsW.bind
         | (with_reducible refine forEach_keeps ?_ (fun _ _ _ => ?_))
         | intro _
         | split
         | simp only [Keeps.upd]
       done)
theorem State.wRead_keepsE1 {pq : List Instr} {s : State} {c : Fin 13} {kernel : Bool} {a n : Nat} {cache : Bool} {tv4 v3} (e : State.wRead s c kernel a n cache = (Except.ok (v3, tv4))) (hs : State.Keeps pq s) :
    State.Keeps pq tv4 := by
  unfold State.wRead at e
  (try dsimp only at e)
  repeat' (split at e)
  all_goals first
    | (cases e <;> (
       repeat' first
         | with_reducible assumption
         | (rename_i e; with_reducible refine Keeps.ofSnd (pq := pq) e ?_ (fun _ => ?_) <;> clear e)
         | (rename_i e; with_reducible refine Keeps.ofFst (pq := pq) e ?_ (fun _ => ?_) <;> clear e)
         | (extract_lets -underBinder +onlyGivenNames -merge x; with_reducible refine Keeps.cut (pq := pq) x ?_ (fun _ => ?_); rotate_left; clear_value x; rotate_left; subst x)
         | (extract_lets -underBinder +onlyGivenNames -merge x; subst x)
         | with_reducible apply State.wHave_keeps
         | with_reducible apply State.devRead_keeps
         | with_reducible apply State.wRegRead_keepsP
         | with_reducible apply State.wRegBytes_keepsP
         | with_reducible apply State.wRegPut_keeps
         | (with_reducible refine State.wRegRead_keepsE (by with_reducible assumption) ?_)
         | with_reducible apply State.drawFree_keepsP
         | (with_reducible refine State.drawFree_keepsE (by with_reducible assumption) ?_)
         | with_reducible apply KeepsW.mkGo
         | with_reducible apply KeepsW.mkPureGo
         | with_reducible apply KeepsW.mkOk
         | with_reducible apply KeepsW.mkPure
         | with_reducible apply KeepsW.mkErr
         | with_reducible apply KeepsW.mkThrow
         | with_reducible apply KeepsW.throwBind
         | with_reducible apply KeepsW.bindPair
         | with_reducible apply KeepsW.bind
         | (with_reducible refine forEach_keeps ?_ (fun _ _ _ => ?_))
         | intro _
         | split
         | simp only [Keeps.upd]
       done))
    | (
       repeat' first
         | with_reducible assumption
         | (rename_i e; with_reducible refine Keeps.ofSnd (pq := pq) e ?_ (fun _ => ?_) <;> clear e)
         | (rename_i e; with_reducible refine Keeps.ofFst (pq := pq) e ?_ (fun _ => ?_) <;> clear e)
         | (extract_lets -underBinder +onlyGivenNames -merge x; with_reducible refine Keeps.cut (pq := pq) x ?_ (fun _ => ?_); rotate_left; clear_value x; rotate_left; subst x)
         | (extract_lets -underBinder +onlyGivenNames -merge x; subst x)
         | with_reducible apply State.wHave_keeps
         | with_reducible apply State.devRead_keeps
         | with_reducible apply State.wRegRead_keepsP
         | with_reducible apply State.wRegBytes_keepsP
         | with_reducible apply State.wRegPut_keeps
         | (with_reducible refine State.wRegRead_keepsE (by with_reducible assumption) ?_)
         | with_reducible apply State.drawFree_keepsP
         | (with_reducible refine State.drawFree_keepsE (by with_reducible assumption) ?_)
         | with_reducible apply KeepsW.mkGo
         | with_reducible apply KeepsW.mkPureGo
         | with_reducible apply KeepsW.mkOk
         | with_reducible apply KeepsW.mkPure
         | with_reducible apply KeepsW.mkErr
         | with_reducible apply KeepsW.mkThrow
         | with_reducible apply KeepsW.throwBind
         | with_reducible apply KeepsW.bindPair
         | with_reducible apply KeepsW.bind
         | (with_reducible refine forEach_keeps ?_ (fun _ _ _ => ?_))
         | intro _
         | split
         | simp only [Keeps.upd]
       done)

theorem State.wWrite_keepsE {pq : List Instr} {s : State} {c : Fin 13} {kernel : Bool} {a : Nat} {bs : List Byte} {cache : Bool} {tv2 v1} (e : State.wWrite s c kernel a bs cache = (Except.error (v1, tv2))) (hs : State.Keeps pq s) :
    State.Keeps pq tv2 := by
  unfold State.wWrite at e
  (try dsimp only at e)
  repeat' (split at e)
  all_goals first
    | (cases e <;> (
       repeat' first
         | with_reducible assumption
         | (extract_lets -underBinder +onlyGivenNames -merge x; with_reducible refine Keeps.cut (pq := pq) x ?_ (fun _ => ?_); rotate_left; clear_value x; rotate_left; subst x)
         | (extract_lets -underBinder +onlyGivenNames -merge x; subst x)
         | with_reducible apply State.busWrite_keeps
         | with_reducible apply State.wHave_keeps
         | with_reducible apply State.wPut_keeps
         | with_reducible apply State.setWc_keeps
         | with_reducible apply State.hostWrite_keeps
         | with_reducible apply State.devWrite_keeps
         | with_reducible apply State.wRegRead_keepsP
         | with_reducible apply State.wRegBytes_keepsP
         | with_reducible apply State.wRegPut_keeps
         | (with_reducible refine State.wRegRead_keepsE (by with_reducible assumption) ?_)
         | with_reducible apply KeepsW.mkGo
         | with_reducible apply KeepsW.mkPureGo
         | with_reducible apply KeepsW.mkOk
         | with_reducible apply KeepsW.mkPure
         | with_reducible apply KeepsW.mkErr
         | with_reducible apply KeepsW.mkThrow
         | with_reducible apply KeepsW.throwBind
         | with_reducible apply KeepsW.bindPair
         | with_reducible apply KeepsW.bind
         | (with_reducible refine forEach_keeps ?_ (fun _ _ _ => ?_))
         | intro _
         | split
         | simp only [Keeps.upd]
       done))
    | (
       repeat' first
         | with_reducible assumption
         | (extract_lets -underBinder +onlyGivenNames -merge x; with_reducible refine Keeps.cut (pq := pq) x ?_ (fun _ => ?_); rotate_left; clear_value x; rotate_left; subst x)
         | (extract_lets -underBinder +onlyGivenNames -merge x; subst x)
         | with_reducible apply State.busWrite_keeps
         | with_reducible apply State.wHave_keeps
         | with_reducible apply State.wPut_keeps
         | with_reducible apply State.setWc_keeps
         | with_reducible apply State.hostWrite_keeps
         | with_reducible apply State.devWrite_keeps
         | with_reducible apply State.wRegRead_keepsP
         | with_reducible apply State.wRegBytes_keepsP
         | with_reducible apply State.wRegPut_keeps
         | (with_reducible refine State.wRegRead_keepsE (by with_reducible assumption) ?_)
         | with_reducible apply KeepsW.mkGo
         | with_reducible apply KeepsW.mkPureGo
         | with_reducible apply KeepsW.mkOk
         | with_reducible apply KeepsW.mkPure
         | with_reducible apply KeepsW.mkErr
         | with_reducible apply KeepsW.mkThrow
         | with_reducible apply KeepsW.throwBind
         | with_reducible apply KeepsW.bindPair
         | with_reducible apply KeepsW.bind
         | (with_reducible refine forEach_keeps ?_ (fun _ _ _ => ?_))
         | intro _
         | split
         | simp only [Keeps.upd]
       done)
theorem State.wWrite_keepsE1 {pq : List Instr} {s : State} {c : Fin 13} {kernel : Bool} {a : Nat} {bs : List Byte} {cache : Bool} {tv3} (e : State.wWrite s c kernel a bs cache = (Except.ok tv3)) (hs : State.Keeps pq s) :
    State.Keeps pq tv3 := by
  unfold State.wWrite at e
  (try dsimp only at e)
  repeat' (split at e)
  all_goals first
    | (cases e <;> (
       repeat' first
         | with_reducible assumption
         | (extract_lets -underBinder +onlyGivenNames -merge x; with_reducible refine Keeps.cut (pq := pq) x ?_ (fun _ => ?_); rotate_left; clear_value x; rotate_left; subst x)
         | (extract_lets -underBinder +onlyGivenNames -merge x; subst x)
         | with_reducible apply State.busWrite_keeps
         | with_reducible apply State.wHave_keeps
         | with_reducible apply State.wPut_keeps
         | with_reducible apply State.setWc_keeps
         | with_reducible apply State.hostWrite_keeps
         | with_reducible apply State.devWrite_keeps
         | with_reducible apply State.wRegRead_keepsP
         | with_reducible apply State.wRegBytes_keepsP
         | with_reducible apply State.wRegPut_keeps
         | (with_reducible refine State.wRegRead_keepsE (by with_reducible assumption) ?_)
         | with_reducible apply KeepsW.mkGo
         | with_reducible apply KeepsW.mkPureGo
         | with_reducible apply KeepsW.mkOk
         | with_reducible apply KeepsW.mkPure
         | with_reducible apply KeepsW.mkErr
         | with_reducible apply KeepsW.mkThrow
         | with_reducible apply KeepsW.throwBind
         | with_reducible apply KeepsW.bindPair
         | with_reducible apply KeepsW.bind
         | (with_reducible refine forEach_keeps ?_ (fun _ _ _ => ?_))
         | intro _
         | split
         | simp only [Keeps.upd]
       done))
    | (
       repeat' first
         | with_reducible assumption
         | (extract_lets -underBinder +onlyGivenNames -merge x; with_reducible refine Keeps.cut (pq := pq) x ?_ (fun _ => ?_); rotate_left; clear_value x; rotate_left; subst x)
         | (extract_lets -underBinder +onlyGivenNames -merge x; subst x)
         | with_reducible apply State.busWrite_keeps
         | with_reducible apply State.wHave_keeps
         | with_reducible apply State.wPut_keeps
         | with_reducible apply State.setWc_keeps
         | with_reducible apply State.hostWrite_keeps
         | with_reducible apply State.devWrite_keeps
         | with_reducible apply State.wRegRead_keepsP
         | with_reducible apply State.wRegBytes_keepsP
         | with_reducible apply State.wRegPut_keeps
         | (with_reducible refine State.wRegRead_keepsE (by with_reducible assumption) ?_)
         | with_reducible apply KeepsW.mkGo
         | with_reducible apply KeepsW.mkPureGo
         | with_reducible apply KeepsW.mkOk
         | with_reducible apply KeepsW.mkPure
         | with_reducible apply KeepsW.mkErr
         | with_reducible apply KeepsW.mkThrow
         | with_reducible apply KeepsW.throwBind
         | with_reducible apply KeepsW.bindPair
         | with_reducible apply KeepsW.bind
         | (with_reducible refine forEach_keeps ?_ (fun _ _ _ => ?_))
         | intro _
         | split
         | simp only [Keeps.upd]
       done)

theorem State.wWatch_keeps {pq : List Instr} {s : State} {c : Fin 13} {seg : Fin 8} {o n : Nat} {store : Bool} (hs : State.Keeps pq s) :
    State.Keeps pq (State.wWatch s c seg o n store) := by
  unfold State.wWatch
  repeat' first
    | with_reducible assumption
    | with_reducible apply State.setWc_keeps
    | with_reducible apply State.store_keeps
    | with_reducible apply KeepsW.mkGo
    | with_reducible apply KeepsW.mkPureGo
    | with_reducible apply KeepsW.mkOk
    | with_reducible apply KeepsW.mkPure
    | with_reducible apply KeepsW.mkErr
    | with_reducible apply KeepsW.mkThrow
    | with_reducible apply KeepsW.throwBind
    | with_reducible apply KeepsW.bindPair
    | with_reducible apply KeepsW.bind
    | split
    | simp only [Keeps.upd]

theorem State.wLoad_keepsE {pq : List Instr} {s : State} {c : Fin 13} {seg : Fin 8} {o : Word} {n al : Nat} {tv2 v1} (e : State.wLoad s c seg o n al = (Except.error (v1, tv2))) (hs : State.Keeps pq s) :
    State.Keeps pq tv2 := by
  unfold State.wLoad at e
  (try dsimp only at e)
  repeat' (split at e)
  all_goals first
    | (cases e <;> (
       repeat' first
         | with_reducible assumption
         | (rename_i e; with_reducible refine Keeps.ofSnd (pq := pq) e ?_ (fun _ => ?_) <;> clear e)
         | (rename_i e; with_reducible refine Keeps.ofFst (pq := pq) e ?_ (fun _ => ?_) <;> clear e)
         | (extract_lets -underBinder +onlyGivenNames -merge x; with_reducible refine Keeps.cut (pq := pq) x ?_ (fun _ => ?_); rotate_left; clear_value x; rotate_left; subst x)
         | (extract_lets -underBinder +onlyGivenNames -merge x; subst x)
         | with_reducible apply State.wWatch_keeps
         | with_reducible apply State.wRead_keepsP
         | (with_reducible refine State.wRead_keepsE (by with_reducible assumption) ?_)
         | (with_reducible refine State.wRead_keepsE1 (by with_reducible assumption) ?_)
         | with_reducible apply KeepsW.mkGo
         | with_reducible apply KeepsW.mkPureGo
         | with_reducible apply KeepsW.mkOk
         | with_reducible apply KeepsW.mkPure
         | with_reducible apply KeepsW.mkErr
         | with_reducible apply KeepsW.mkThrow
         | with_reducible apply KeepsW.throwBind
         | with_reducible apply KeepsW.bindPair
         | with_reducible apply KeepsW.bind
         | intro _
         | split
         | simp only [Keeps.upd]
       done))
    | (
       repeat' first
         | with_reducible assumption
         | (rename_i e; with_reducible refine Keeps.ofSnd (pq := pq) e ?_ (fun _ => ?_) <;> clear e)
         | (rename_i e; with_reducible refine Keeps.ofFst (pq := pq) e ?_ (fun _ => ?_) <;> clear e)
         | (extract_lets -underBinder +onlyGivenNames -merge x; with_reducible refine Keeps.cut (pq := pq) x ?_ (fun _ => ?_); rotate_left; clear_value x; rotate_left; subst x)
         | (extract_lets -underBinder +onlyGivenNames -merge x; subst x)
         | with_reducible apply State.wWatch_keeps
         | with_reducible apply State.wRead_keepsP
         | (with_reducible refine State.wRead_keepsE (by with_reducible assumption) ?_)
         | (with_reducible refine State.wRead_keepsE1 (by with_reducible assumption) ?_)
         | with_reducible apply KeepsW.mkGo
         | with_reducible apply KeepsW.mkPureGo
         | with_reducible apply KeepsW.mkOk
         | with_reducible apply KeepsW.mkPure
         | with_reducible apply KeepsW.mkErr
         | with_reducible apply KeepsW.mkThrow
         | with_reducible apply KeepsW.throwBind
         | with_reducible apply KeepsW.bindPair
         | with_reducible apply KeepsW.bind
         | intro _
         | split
         | simp only [Keeps.upd]
       done)
theorem State.wLoad_keepsE1 {pq : List Instr} {s : State} {c : Fin 13} {seg : Fin 8} {o : Word} {n al : Nat} {tv4 v3} (e : State.wLoad s c seg o n al = (Except.ok (v3, tv4))) (hs : State.Keeps pq s) :
    State.Keeps pq tv4 := by
  unfold State.wLoad at e
  (try dsimp only at e)
  repeat' (split at e)
  all_goals first
    | (cases e <;> (
       repeat' first
         | with_reducible assumption
         | (rename_i e; with_reducible refine Keeps.ofSnd (pq := pq) e ?_ (fun _ => ?_) <;> clear e)
         | (rename_i e; with_reducible refine Keeps.ofFst (pq := pq) e ?_ (fun _ => ?_) <;> clear e)
         | (extract_lets -underBinder +onlyGivenNames -merge x; with_reducible refine Keeps.cut (pq := pq) x ?_ (fun _ => ?_); rotate_left; clear_value x; rotate_left; subst x)
         | (extract_lets -underBinder +onlyGivenNames -merge x; subst x)
         | with_reducible apply State.wWatch_keeps
         | with_reducible apply State.wRead_keepsP
         | (with_reducible refine State.wRead_keepsE (by with_reducible assumption) ?_)
         | (with_reducible refine State.wRead_keepsE1 (by with_reducible assumption) ?_)
         | with_reducible apply KeepsW.mkGo
         | with_reducible apply KeepsW.mkPureGo
         | with_reducible apply KeepsW.mkOk
         | with_reducible apply KeepsW.mkPure
         | with_reducible apply KeepsW.mkErr
         | with_reducible apply KeepsW.mkThrow
         | with_reducible apply KeepsW.throwBind
         | with_reducible apply KeepsW.bindPair
         | with_reducible apply KeepsW.bind
         | intro _
         | split
         | simp only [Keeps.upd]
       done))
    | (
       repeat' first
         | with_reducible assumption
         | (rename_i e; with_reducible refine Keeps.ofSnd (pq := pq) e ?_ (fun _ => ?_) <;> clear e)
         | (rename_i e; with_reducible refine Keeps.ofFst (pq := pq) e ?_ (fun _ => ?_) <;> clear e)
         | (extract_lets -underBinder +onlyGivenNames -merge x; with_reducible refine Keeps.cut (pq := pq) x ?_ (fun _ => ?_); rotate_left; clear_value x; rotate_left; subst x)
         | (extract_lets -underBinder +onlyGivenNames -merge x; subst x)
         | with_reducible apply State.wWatch_keeps
         | with_reducible apply State.wRead_keepsP
         | (with_reducible refine State.wRead_keepsE (by with_reducible assumption) ?_)
         | (with_reducible refine State.wRead_keepsE1 (by with_reducible assumption) ?_)
         | with_reducible apply KeepsW.mkGo
         | with_reducible apply KeepsW.mkPureGo
         | with_reducible apply KeepsW.mkOk
         | with_reducible apply KeepsW.mkPure
         | with_reducible apply KeepsW.mkErr
         | with_reducible apply KeepsW.mkThrow
         | with_reducible apply KeepsW.throwBind
         | with_reducible apply KeepsW.bindPair
         | with_reducible apply KeepsW.bind
         | intro _
         | split
         | simp only [Keeps.upd]
       done)

theorem State.wStore_keepsE {pq : List Instr} {s : State} {c : Fin 13} {seg : Fin 8} {o : Word} {bs : List Byte} {al : Nat} {tv2 v1} (e : State.wStore s c seg o bs al = (Except.error (v1, tv2))) (hs : State.Keeps pq s) :
    State.Keeps pq tv2 := by
  unfold State.wStore at e
  (try dsimp only at e)
  repeat' (split at e)
  all_goals first
    | (cases e <;> (
       repeat' first
         | with_reducible assumption
         | (rename_i e; with_reducible refine Keeps.ofSnd (pq := pq) e ?_ (fun _ => ?_) <;> clear e)
         | (rename_i e; with_reducible refine Keeps.ofFst (pq := pq) e ?_ (fun _ => ?_) <;> clear e)
         | (extract_lets -underBinder +onlyGivenNames -merge x; with_reducible refine Keeps.cut (pq := pq) x ?_ (fun _ => ?_); rotate_left; clear_value x; rotate_left; subst x)
         | (extract_lets -underBinder +onlyGivenNames -merge x; subst x)
         | with_reducible apply State.wWatch_keeps
         | with_reducible apply State.wWrite_keepsP
         | (with_reducible refine State.wWrite_keepsE (by with_reducible assumption) ?_)
         | (with_reducible refine State.wWrite_keepsE1 (by with_reducible assumption) ?_)
         | with_reducible apply KeepsW.mkGo
         | with_reducible apply KeepsW.mkPureGo
         | with_reducible apply KeepsW.mkOk
         | with_reducible apply KeepsW.mkPure
         | with_reducible apply KeepsW.mkErr
         | with_reducible apply KeepsW.mkThrow
         | with_reducible apply KeepsW.throwBind
         | with_reducible apply KeepsW.bindPair
         | with_reducible apply KeepsW.bind
         | intro _
         | split
         | simp only [Keeps.upd]
       done))
    | (
       repeat' first
         | with_reducible assumption
         | (rename_i e; with_reducible refine Keeps.ofSnd (pq := pq) e ?_ (fun _ => ?_) <;> clear e)
         | (rename_i e; with_reducible refine Keeps.ofFst (pq := pq) e ?_ (fun _ => ?_) <;> clear e)
         | (extract_lets -underBinder +onlyGivenNames -merge x; with_reducible refine Keeps.cut (pq := pq) x ?_ (fun _ => ?_); rotate_left; clear_value x; rotate_left; subst x)
         | (extract_lets -underBinder +onlyGivenNames -merge x; subst x)
         | with_reducible apply State.wWatch_keeps
         | with_reducible apply State.wWrite_keepsP
         | (with_reducible refine State.wWrite_keepsE (by with_reducible assumption) ?_)
         | (with_reducible refine State.wWrite_keepsE1 (by with_reducible assumption) ?_)
         | with_reducible apply KeepsW.mkGo
         | with_reducible apply KeepsW.mkPureGo
         | with_reducible apply KeepsW.mkOk
         | with_reducible apply KeepsW.mkPure
         | with_reducible apply KeepsW.mkErr
         | with_reducible apply KeepsW.mkThrow
         | with_reducible apply KeepsW.throwBind
         | with_reducible apply KeepsW.bindPair
         | with_reducible apply KeepsW.bind
         | intro _
         | split
         | simp only [Keeps.upd]
       done)
theorem State.wStore_keepsE1 {pq : List Instr} {s : State} {c : Fin 13} {seg : Fin 8} {o : Word} {bs : List Byte} {al : Nat} {tv3} (e : State.wStore s c seg o bs al = (Except.ok tv3)) (hs : State.Keeps pq s) :
    State.Keeps pq tv3 := by
  unfold State.wStore at e
  (try dsimp only at e)
  repeat' (split at e)
  all_goals first
    | (cases e <;> (
       repeat' first
         | with_reducible assumption
         | (rename_i e; with_reducible refine Keeps.ofSnd (pq := pq) e ?_ (fun _ => ?_) <;> clear e)
         | (rename_i e; with_reducible refine Keeps.ofFst (pq := pq) e ?_ (fun _ => ?_) <;> clear e)
         | (extract_lets -underBinder +onlyGivenNames -merge x; with_reducible refine Keeps.cut (pq := pq) x ?_ (fun _ => ?_); rotate_left; clear_value x; rotate_left; subst x)
         | (extract_lets -underBinder +onlyGivenNames -merge x; subst x)
         | with_reducible apply State.wWatch_keeps
         | with_reducible apply State.wWrite_keepsP
         | (with_reducible refine State.wWrite_keepsE (by with_reducible assumption) ?_)
         | (with_reducible refine State.wWrite_keepsE1 (by with_reducible assumption) ?_)
         | with_reducible apply KeepsW.mkGo
         | with_reducible apply KeepsW.mkPureGo
         | with_reducible apply KeepsW.mkOk
         | with_reducible apply KeepsW.mkPure
         | with_reducible apply KeepsW.mkErr
         | with_reducible apply KeepsW.mkThrow
         | with_reducible apply KeepsW.throwBind
         | with_reducible apply KeepsW.bindPair
         | with_reducible apply KeepsW.bind
         | intro _
         | split
         | simp only [Keeps.upd]
       done))
    | (
       repeat' first
         | with_reducible assumption
         | (rename_i e; with_reducible refine Keeps.ofSnd (pq := pq) e ?_ (fun _ => ?_) <;> clear e)
         | (rename_i e; with_reducible refine Keeps.ofFst (pq := pq) e ?_ (fun _ => ?_) <;> clear e)
         | (extract_lets -underBinder +onlyGivenNames -merge x; with_reducible refine Keeps.cut (pq := pq) x ?_ (fun _ => ?_); rotate_left; clear_value x; rotate_left; subst x)
         | (extract_lets -underBinder +onlyGivenNames -merge x; subst x)
         | with_reducible apply State.wWatch_keeps
         | with_reducible apply State.wWrite_keepsP
         | (with_reducible refine State.wWrite_keepsE (by with_reducible assumption) ?_)
         | (with_reducible refine State.wWrite_keepsE1 (by with_reducible assumption) ?_)
         | with_reducible apply KeepsW.mkGo
         | with_reducible apply KeepsW.mkPureGo
         | with_reducible apply KeepsW.mkOk
         | with_reducible apply KeepsW.mkPure
         | with_reducible apply KeepsW.mkErr
         | with_reducible apply KeepsW.mkThrow
         | with_reducible apply KeepsW.throwBind
         | with_reducible apply KeepsW.bindPair
         | with_reducible apply KeepsW.bind
         | intro _
         | split
         | simp only [Keeps.upd]
       done)

theorem State.wEmergency_keeps {pq : List Instr} {s : State} {c : Fin 13} {e : WExc} {pc : Word} (hs : State.Keeps pq s) :
    State.Keeps pq (State.wEmergency s c e pc) := by
  unfold State.wEmergency
  repeat' first
    | with_reducible assumption
    | (extract_lets -underBinder +onlyGivenNames -merge x; with_reducible refine Keeps.cut (pq := pq) x ?_ (fun _ => ?_); rotate_left; clear_value x; rotate_left; subst x)
    | (extract_lets -underBinder +onlyGivenNames -merge x; subst x)
    | with_reducible apply State.wickLock_keeps
    | with_reducible apply State.setWc_keeps
    | with_reducible apply KeepsW.mkGo
    | with_reducible apply KeepsW.mkPureGo
    | with_reducible apply KeepsW.mkOk
    | with_reducible apply KeepsW.mkPure
    | with_reducible apply KeepsW.mkErr
    | with_reducible apply KeepsW.mkThrow
    | with_reducible apply KeepsW.throwBind
    | with_reducible apply KeepsW.bindPair
    | with_reducible apply KeepsW.bind
    | split
    | simp only [Keeps.upd]

theorem State.wEnter_keeps {pq : List Instr} {s : State} {c : Fin 13} {e : WExc} {pc : Word} (hs : State.Keeps pq s) :
    State.Keeps pq (State.wEnter s c e pc) := by
  unfold State.wEnter
  repeat' first
    | with_reducible assumption
    | (rename_i e; with_reducible refine Keeps.ofSnd (pq := pq) e ?_ (fun _ => ?_) <;> clear e)
    | (rename_i e; with_reducible refine Keeps.ofFst (pq := pq) e ?_ (fun _ => ?_) <;> clear e)
    | (extract_lets -underBinder +onlyGivenNames -merge x; with_reducible refine Keeps.cut (pq := pq) x ?_ (fun _ => ?_); rotate_left; clear_value x; rotate_left; subst x)
    | (extract_lets -underBinder +onlyGivenNames -merge x; subst x)
    | with_reducible apply State.wEmergency_keeps
    | with_reducible apply State.setWc_keeps
    | with_reducible apply State.wWrite_keepsP
    | (with_reducible refine State.wWrite_keepsE (by with_reducible assumption) ?_)
    | (with_reducible refine State.wWrite_keepsE1 (by with_reducible assumption) ?_)
    | with_reducible apply KeepsW.mkGo
    | with_reducible apply KeepsW.mkPureGo
    | with_reducible apply KeepsW.mkOk
    | with_reducible apply KeepsW.mkPure
    | with_reducible apply KeepsW.mkErr
    | with_reducible apply KeepsW.mkThrow
    | with_reducible apply KeepsW.throwBind
    | with_reducible apply KeepsW.bindPair
    | with_reducible apply KeepsW.bind
    | split
    | simp only [Keeps.upd]

theorem State.wRaise_keeps {pq : List Instr} {s : State} {c : Fin 13} {e : WExc} {pc : Word} (hs : State.Keeps pq s) :
    State.Keeps pq (State.wRaise s c e pc) := by
  unfold State.wRaise
  repeat' first
    | with_reducible assumption
    | (extract_lets -underBinder +onlyGivenNames -merge x; with_reducible refine Keeps.cut (pq := pq) x ?_ (fun _ => ?_); rotate_left; clear_value x; rotate_left; subst x)
    | (extract_lets -underBinder +onlyGivenNames -merge x; subst x)
    | with_reducible apply State.wEnter_keeps
    | with_reducible apply State.callFault_keeps
    | with_reducible apply State.callReturn_keeps
    | with_reducible apply KeepsW.mkGo
    | with_reducible apply KeepsW.mkPureGo
    | with_reducible apply KeepsW.mkOk
    | with_reducible apply KeepsW.mkPure
    | with_reducible apply KeepsW.mkErr
    | with_reducible apply KeepsW.mkThrow
    | with_reducible apply KeepsW.throwBind
    | with_reducible apply KeepsW.bindPair
    | with_reducible apply KeepsW.bind
    | split

theorem State.wWake_keeps {pq : List Instr} {s : State} {c : Fin 13} (hs : State.Keeps pq s) :
    State.Keeps pq (State.wWake s c) := by
  unfold State.wWake
  repeat' first
    | with_reducible assumption
    | (extract_lets -underBinder +onlyGivenNames -merge x; with_reducible refine Keeps.cut (pq := pq) x ?_ (fun _ => ?_); rotate_left; clear_value x; rotate_left; subst x)
    | (extract_lets -underBinder +onlyGivenNames -merge x; subst x)
    | with_reducible apply State.setWc_keeps
    | with_reducible apply KeepsW.mkGo
    | with_reducible apply KeepsW.mkPureGo
    | with_reducible apply KeepsW.mkOk
    | with_reducible apply KeepsW.mkPure
    | with_reducible apply KeepsW.mkErr
    | with_reducible apply KeepsW.mkThrow
    | with_reducible apply KeepsW.throwBind
    | with_reducible apply KeepsW.bindPair
    | with_reducible apply KeepsW.bind
    | split
    | simp only [Keeps.upd]

theorem State.wFetch_keepsE {pq : List Instr} {s : State} {c : Fin 13} {tv2 v1} (e : State.wFetch s c = (Except.error (v1, tv2))) (hs : State.Keeps pq s) :
    State.Keeps pq tv2 := by
  unfold State.wFetch at e
  (try dsimp only at e)
  repeat' (split at e)
  all_goals first
    | (cases e <;> (
       repeat' first
         | with_reducible assumption
         | (rename_i e; with_reducible refine Keeps.ofSnd (pq := pq) e ?_ (fun _ => ?_) <;> clear e)
         | (rename_i e; with_reducible refine Keeps.ofFst (pq := pq) e ?_ (fun _ => ?_) <;> clear e)
         | (extract_lets -underBinder +onlyGivenNames -merge x; with_reducible refine Keeps.cut (pq := pq) x ?_ (fun _ => ?_); rotate_left; clear_value x; rotate_left; subst x)
         | (extract_lets -underBinder +onlyGivenNames -merge x; subst x)
         | with_reducible apply State.setWc_keeps
         | with_reducible apply State.devRead_keeps
         | with_reducible apply State.wRegRead_keepsP
         | with_reducible apply State.drawFree_keepsP
         | (with_reducible refine State.drawFree_keepsE (by with_reducible assumption) ?_)
         | with_reducible apply KeepsW.mkGo
         | with_reducible apply KeepsW.mkPureGo
         | with_reducible apply KeepsW.mkOk
         | with_reducible apply KeepsW.mkPure
         | with_reducible apply KeepsW.mkErr
         | with_reducible apply KeepsW.mkThrow
         | with_reducible apply KeepsW.throwBind
         | with_reducible apply KeepsW.bindPair
         | with_reducible apply KeepsW.bind
         | intro _
         | split
         | simp only [Keeps.upd]
       done))
    | (
       repeat' first
         | with_reducible assumption
         | (rename_i e; with_reducible refine Keeps.ofSnd (pq := pq) e ?_ (fun _ => ?_) <;> clear e)
         | (rename_i e; with_reducible refine Keeps.ofFst (pq := pq) e ?_ (fun _ => ?_) <;> clear e)
         | (extract_lets -underBinder +onlyGivenNames -merge x; with_reducible refine Keeps.cut (pq := pq) x ?_ (fun _ => ?_); rotate_left; clear_value x; rotate_left; subst x)
         | (extract_lets -underBinder +onlyGivenNames -merge x; subst x)
         | with_reducible apply State.setWc_keeps
         | with_reducible apply State.devRead_keeps
         | with_reducible apply State.wRegRead_keepsP
         | with_reducible apply State.drawFree_keepsP
         | (with_reducible refine State.drawFree_keepsE (by with_reducible assumption) ?_)
         | with_reducible apply KeepsW.mkGo
         | with_reducible apply KeepsW.mkPureGo
         | with_reducible apply KeepsW.mkOk
         | with_reducible apply KeepsW.mkPure
         | with_reducible apply KeepsW.mkErr
         | with_reducible apply KeepsW.mkThrow
         | with_reducible apply KeepsW.throwBind
         | with_reducible apply KeepsW.bindPair
         | with_reducible apply KeepsW.bind
         | intro _
         | split
         | simp only [Keeps.upd]
       done)
theorem State.wFetch_keepsE1 {pq : List Instr} {s : State} {c : Fin 13} {tv3} (e : State.wFetch s c = (Except.ok tv3)) (hs : State.Keeps pq s) :
    State.Keeps pq tv3 := by
  unfold State.wFetch at e
  (try dsimp only at e)
  repeat' (split at e)
  all_goals first
    | (cases e <;> (
       repeat' first
         | with_reducible assumption
         | (rename_i e; with_reducible refine Keeps.ofSnd (pq := pq) e ?_ (fun _ => ?_) <;> clear e)
         | (rename_i e; with_reducible refine Keeps.ofFst (pq := pq) e ?_ (fun _ => ?_) <;> clear e)
         | (extract_lets -underBinder +onlyGivenNames -merge x; with_reducible refine Keeps.cut (pq := pq) x ?_ (fun _ => ?_); rotate_left; clear_value x; rotate_left; subst x)
         | (extract_lets -underBinder +onlyGivenNames -merge x; subst x)
         | with_reducible apply State.setWc_keeps
         | with_reducible apply State.devRead_keeps
         | with_reducible apply State.wRegRead_keepsP
         | with_reducible apply State.drawFree_keepsP
         | (with_reducible refine State.drawFree_keepsE (by with_reducible assumption) ?_)
         | with_reducible apply KeepsW.mkGo
         | with_reducible apply KeepsW.mkPureGo
         | with_reducible apply KeepsW.mkOk
         | with_reducible apply KeepsW.mkPure
         | with_reducible apply KeepsW.mkErr
         | with_reducible apply KeepsW.mkThrow
         | with_reducible apply KeepsW.throwBind
         | with_reducible apply KeepsW.bindPair
         | with_reducible apply KeepsW.bind
         | intro _
         | split
         | simp only [Keeps.upd]
       done))
    | (
       repeat' first
         | with_reducible assumption
         | (rename_i e; with_reducible refine Keeps.ofSnd (pq := pq) e ?_ (fun _ => ?_) <;> clear e)
         | (rename_i e; with_reducible refine Keeps.ofFst (pq := pq) e ?_ (fun _ => ?_) <;> clear e)
         | (extract_lets -underBinder +onlyGivenNames -merge x; with_reducible refine Keeps.cut (pq := pq) x ?_ (fun _ => ?_); rotate_left; clear_value x; rotate_left; subst x)
         | (extract_lets -underBinder +onlyGivenNames -merge x; subst x)
         | with_reducible apply State.setWc_keeps
         | with_reducible apply State.devRead_keeps
         | with_reducible apply State.wRegRead_keepsP
         | with_reducible apply State.drawFree_keepsP
         | (with_reducible refine State.drawFree_keepsE (by with_reducible assumption) ?_)
         | with_reducible apply KeepsW.mkGo
         | with_reducible apply KeepsW.mkPureGo
         | with_reducible apply KeepsW.mkOk
         | with_reducible apply KeepsW.mkPure
         | with_reducible apply KeepsW.mkErr
         | with_reducible apply KeepsW.mkThrow
         | with_reducible apply KeepsW.throwBind
         | with_reducible apply KeepsW.bindPair
         | with_reducible apply KeepsW.bind
         | intro _
         | split
         | simp only [Keeps.upd]
       done)

theorem wFinish_keeps {pq : List Instr} {c : Fin 13} {d : WDone} {ac : Nat} {l : Option (Fin 32 × Word)} {pc : Word}
    (h : State.Keeps pq d.s) : State.Keeps pq (wFinish c d ac l pc) := by
  unfold wFinish
  extract_lets src0 k k1 r src1 k2 s1
  clear_value k2
  have hs : State.Keeps pq s1 := State.setWc_keeps h
  clear_value s1
  split
  · exact State.wRaise_keeps hs
  · split
    · split
      · exact State.setWc_keeps hs
      · split
        · exact State.setWc_keeps hs
        · exact hs
    · exact hs

theorem State.wRun_keeps {pq : List Instr} {s : State} {c : Fin 13} {kernelOnly : Bool} {f : State → WickCore → WResult} (hs : State.Keeps pq s) (hf : ∀ (x0 : State) (x1 : WickCore), State.Keeps pq x0 → KeepsW pq (f x0 x1)) :
    State.Keeps pq (State.wRun s c kernelOnly f) := by
  unfold State.wRun
  repeat' first
    | with_reducible assumption
    | (rename_i e; with_reducible refine Keeps.ofSnd (pq := pq) e ?_ (fun _ => ?_) <;> clear e)
    | (rename_i e; with_reducible refine Keeps.ofFst (pq := pq) e ?_ (fun _ => ?_) <;> clear e)
    | (extract_lets -underBinder +onlyGivenNames -merge x; with_reducible refine Keeps.cut (pq := pq) x ?_ (fun _ => ?_); rotate_left; clear_value x; rotate_left; subst x)
    | (extract_lets -underBinder +onlyGivenNames -merge x; subst x)
    | with_reducible apply hf
    | with_reducible apply State.wWake_keeps
    | with_reducible apply State.wRaise_keeps
    | with_reducible apply State.setWc_keeps
    | with_reducible apply State.raise_keeps
    | with_reducible apply State.wFetch_keepsP
    | (with_reducible refine State.wFetch_keepsE (by with_reducible assumption) ?_)
    | (with_reducible refine State.wFetch_keepsE1 (by with_reducible assumption) ?_)
    | with_reducible apply wFinish_keeps
    | (rename_i e; with_reducible refine KeepsW.ok (pq := pq) e ?_ (fun _ => ?_) <;> clear e)
    | (rename_i e; with_reducible refine KeepsW.err (pq := pq) e ?_ (fun _ => ?_) <;> clear e)
    | with_reducible apply KeepsW.mkGo
    | with_reducible apply KeepsW.mkPureGo
    | with_reducible apply KeepsW.mkOk
    | with_reducible apply KeepsW.mkPure
    | with_reducible apply KeepsW.mkErr
    | with_reducible apply KeepsW.mkThrow
    | with_reducible apply KeepsW.throwBind
    | with_reducible apply KeepsW.bindPair
    | with_reducible apply KeepsW.bind
    | intro _
    | split
    | simp only [Keeps.upd]

theorem State.wAlu_keeps {pq : List Instr} {s : State} {c : Fin 13} {rd : Fin 32} {f : WickCore → Word} (hs : State.Keeps pq s) :
    State.Keeps pq (State.wAlu s c rd f) := by
  unfold State.wAlu
  repeat' first
    | with_reducible assumption
    | with_reducible apply State.wRun_keeps
    | with_reducible apply State.setWc_keeps
    | with_reducible apply State.setReg_keeps
    | with_reducible apply KeepsW.mkGo
    | with_reducible apply KeepsW.mkPureGo
    | with_reducible apply KeepsW.mkOk
    | with_reducible apply KeepsW.mkPure
    | with_reducible apply KeepsW.mkErr
    | with_reducible apply KeepsW.mkThrow
    | with_reducible apply KeepsW.throwBind
    | with_reducible apply KeepsW.bindPair
    | with_reducible apply KeepsW.bind
    | intro _

theorem State.wBranch_keeps {pq : List Instr} {s : State} {c : Fin 13} {off : BitVec 16} {taken : WickCore → Bool} (hs : State.Keeps pq s) :
    State.Keeps pq (State.wBranch s c off taken) := by
  unfold State.wBranch
  repeat' first
    | with_reducible assumption
    | (rename_i e; with_reducible refine Keeps.ofSnd (pq := pq) e ?_ (fun _ => ?_) <;> clear e)
    | (rename_i e; with_reducible refine Keeps.ofFst (pq := pq) e ?_ (fun _ => ?_) <;> clear e)
    | with_reducible apply State.wRun_keeps
    | with_reducible apply KeepsW.mkGo
    | with_reducible apply KeepsW.mkPureGo
    | with_reducible apply KeepsW.mkOk
    | with_reducible apply KeepsW.mkPure
    | with_reducible apply KeepsW.mkErr
    | with_reducible apply KeepsW.mkThrow
    | with_reducible apply KeepsW.throwBind
    | with_reducible apply KeepsW.bindPair
    | with_reducible apply KeepsW.bind
    | intro _
    | split
    | simp only [Keeps.upd]

theorem State.wLoadInstr_keeps {pq : List Instr} {s : State} {c : Fin 13} {rd rs : Fin 32} {seg : Fin 8} {imm : BitVec 13} {n : Nat} {ext : Nat → Word} (hs : State.Keeps pq s) :
    State.Keeps pq (State.wLoadInstr s c rd rs seg imm n ext) := by
  unfold State.wLoadInstr
  repeat' first
    | with_reducible assumption
    | (rename_i e; with_reducible refine Keeps.ofSnd (pq := pq) e ?_ (fun _ => ?_) <;> clear e)
    | (rename_i e; with_reducible refine Keeps.ofFst (pq := pq) e ?_ (fun _ => ?_) <;> clear e)
    | (extract_lets -underBinder +onlyGivenNames -merge x; with_reducible refine Keeps.cut (pq := pq) x ?_ (fun _ => ?_); rotate_left; clear_value x; rotate_left; subst x)
    | (extract_lets -underBinder +onlyGivenNames -merge x; subst x)
    | with_reducible apply State.wRun_keeps
    | with_reducible apply State.wLoad_keepsP
    | (with_reducible refine State.wLoad_keepsE (by with_reducible assumption) ?_)
    | (with_reducible refine State.wLoad_keepsE1 (by with_reducible assumption) ?_)
    | with_reducible apply KeepsW.mkGo
    | with_reducible apply KeepsW.mkPureGo
    | with_reducible apply KeepsW.mkOk
    | with_reducible apply KeepsW.mkPure
    | with_reducible apply KeepsW.mkErr
    | with_reducible apply KeepsW.mkThrow
    | with_reducible apply KeepsW.throwBind
    | with_reducible apply KeepsW.bindPair
    | with_reducible apply KeepsW.bind
    | intro _
    | simp only [Keeps.upd]

theorem State.wStoreInstr_keeps {pq : List Instr} {s : State} {c : Fin 13} {rd rs : Fin 32} {seg : Fin 8} {imm : BitVec 13} {n : Nat} (hs : State.Keeps pq s) :
    State.Keeps pq (State.wStoreInstr s c rd rs seg imm n) := by
  unfold State.wStoreInstr
  repeat' first
    | with_reducible assumption
    | (extract_lets -underBinder +onlyGivenNames -merge x; with_reducible refine Keeps.cut (pq := pq) x ?_ (fun _ => ?_); rotate_left; clear_value x; rotate_left; subst x)
    | (extract_lets -underBinder +onlyGivenNames -merge x; subst x)
    | with_reducible apply State.wRun_keeps
    | with_reducible apply State.wStore_keepsP
    | (with_reducible refine State.wStore_keepsE (by with_reducible assumption) ?_)
    | (with_reducible refine State.wStore_keepsE1 (by with_reducible assumption) ?_)
    | with_reducible apply KeepsW.mkGo
    | with_reducible apply KeepsW.mkPureGo
    | with_reducible apply KeepsW.mkOk
    | with_reducible apply KeepsW.mkPure
    | with_reducible apply KeepsW.mkErr
    | with_reducible apply KeepsW.mkThrow
    | with_reducible apply KeepsW.throwBind
    | with_reducible apply KeepsW.bindPair
    | with_reducible apply KeepsW.bind
    | intro _

theorem State.wPushReturn_keepsE {pq : List Instr} {s : State} {c : Fin 13} {k : WickCore} {tv2 v1} (e : State.wPushReturn s c k = (Except.error (v1, tv2))) (hs : State.Keeps pq s) :
    State.Keeps pq tv2 := by
  unfold State.wPushReturn at e
  (try dsimp only at e)
  repeat' (split at e)
  all_goals first
    | (cases e <;> (
       repeat' first
         | with_reducible assumption
         | (rename_i e; with_reducible refine Keeps.ofSnd (pq := pq) e ?_ (fun _ => ?_) <;> clear e)
         | (rename_i e; with_reducible refine Keeps.ofFst (pq := pq) e ?_ (fun _ => ?_) <;> clear e)
         | (extract_lets -underBinder +onlyGivenNames -merge x; with_reducible refine Keeps.cut (pq := pq) x ?_ (fun _ => ?_); rotate_left; clear_value x; rotate_left; subst x)
         | (extract_lets -underBinder +onlyGivenNames -merge x; subst x)
         | with_reducible apply State.setWc_keeps
         | with_reducible apply State.wWrite_keepsP
         | (with_reducible refine State.wWrite_keepsE (by with_reducible assumption) ?_)
         | (with_reducible refine State.wWrite_keepsE1 (by with_reducible assumption) ?_)
         | with_reducible apply KeepsW.mkGo
         | with_reducible apply KeepsW.mkPureGo
         | with_reducible apply KeepsW.mkOk
         | with_reducible apply KeepsW.mkPure
         | with_reducible apply KeepsW.mkErr
         | with_reducible apply KeepsW.mkThrow
         | with_reducible apply KeepsW.throwBind
         | with_reducible apply KeepsW.bindPair
         | with_reducible apply KeepsW.bind
         | intro _
         | split
         | simp only [Keeps.upd]
       done))
    | (
       repeat' first
         | with_reducible assumption
         | (rename_i e; with_reducible refine Keeps.ofSnd (pq := pq) e ?_ (fun _ => ?_) <;> clear e)
         | (rename_i e; with_reducible refine Keeps.ofFst (pq := pq) e ?_ (fun _ => ?_) <;> clear e)
         | (extract_lets -underBinder +onlyGivenNames -merge x; with_reducible refine Keeps.cut (pq := pq) x ?_ (fun _ => ?_); rotate_left; clear_value x; rotate_left; subst x)
         | (extract_lets -underBinder +onlyGivenNames -merge x; subst x)
         | with_reducible apply State.setWc_keeps
         | with_reducible apply State.wWrite_keepsP
         | (with_reducible refine State.wWrite_keepsE (by with_reducible assumption) ?_)
         | (with_reducible refine State.wWrite_keepsE1 (by with_reducible assumption) ?_)
         | with_reducible apply KeepsW.mkGo
         | with_reducible apply KeepsW.mkPureGo
         | with_reducible apply KeepsW.mkOk
         | with_reducible apply KeepsW.mkPure
         | with_reducible apply KeepsW.mkErr
         | with_reducible apply KeepsW.mkThrow
         | with_reducible apply KeepsW.throwBind
         | with_reducible apply KeepsW.bindPair
         | with_reducible apply KeepsW.bind
         | intro _
         | split
         | simp only [Keeps.upd]
       done)
theorem State.wPushReturn_keepsE1 {pq : List Instr} {s : State} {c : Fin 13} {k : WickCore} {tv3} (e : State.wPushReturn s c k = (Except.ok tv3)) (hs : State.Keeps pq s) :
    State.Keeps pq tv3 := by
  unfold State.wPushReturn at e
  (try dsimp only at e)
  repeat' (split at e)
  all_goals first
    | (cases e <;> (
       repeat' first
         | with_reducible assumption
         | (rename_i e; with_reducible refine Keeps.ofSnd (pq := pq) e ?_ (fun _ => ?_) <;> clear e)
         | (rename_i e; with_reducible refine Keeps.ofFst (pq := pq) e ?_ (fun _ => ?_) <;> clear e)
         | (extract_lets -underBinder +onlyGivenNames -merge x; with_reducible refine Keeps.cut (pq := pq) x ?_ (fun _ => ?_); rotate_left; clear_value x; rotate_left; subst x)
         | (extract_lets -underBinder +onlyGivenNames -merge x; subst x)
         | with_reducible apply State.setWc_keeps
         | with_reducible apply State.wWrite_keepsP
         | (with_reducible refine State.wWrite_keepsE (by with_reducible assumption) ?_)
         | (with_reducible refine State.wWrite_keepsE1 (by with_reducible assumption) ?_)
         | with_reducible apply KeepsW.mkGo
         | with_reducible apply KeepsW.mkPureGo
         | with_reducible apply KeepsW.mkOk
         | with_reducible apply KeepsW.mkPure
         | with_reducible apply KeepsW.mkErr
         | with_reducible apply KeepsW.mkThrow
         | with_reducible apply KeepsW.throwBind
         | with_reducible apply KeepsW.bindPair
         | with_reducible apply KeepsW.bind
         | intro _
         | split
         | simp only [Keeps.upd]
       done))
    | (
       repeat' first
         | with_reducible assumption
         | (rename_i e; with_reducible refine Keeps.ofSnd (pq := pq) e ?_ (fun _ => ?_) <;> clear e)
         | (rename_i e; with_reducible refine Keeps.ofFst (pq := pq) e ?_ (fun _ => ?_) <;> clear e)
         | (extract_lets -underBinder +onlyGivenNames -merge x; with_reducible refine Keeps.cut (pq := pq) x ?_ (fun _ => ?_); rotate_left; clear_value x; rotate_left; subst x)
         | (extract_lets -underBinder +onlyGivenNames -merge x; subst x)
         | with_reducible apply State.setWc_keeps
         | with_reducible apply State.wWrite_keepsP
         | (with_reducible refine State.wWrite_keepsE (by with_reducible assumption) ?_)
         | (with_reducible refine State.wWrite_keepsE1 (by with_reducible assumption) ?_)
         | with_reducible apply KeepsW.mkGo
         | with_reducible apply KeepsW.mkPureGo
         | with_reducible apply KeepsW.mkOk
         | with_reducible apply KeepsW.mkPure
         | with_reducible apply KeepsW.mkErr
         | with_reducible apply KeepsW.mkThrow
         | with_reducible apply KeepsW.throwBind
         | with_reducible apply KeepsW.bindPair
         | with_reducible apply KeepsW.bind
         | intro _
         | split
         | simp only [Keeps.upd]
       done)

theorem State.wPopReturn_keepsE {pq : List Instr} {s : State} {c : Fin 13} {k : WickCore} {tv2 v1} (e : State.wPopReturn s c k = (Except.error (v1, tv2))) (hs : State.Keeps pq s) :
    State.Keeps pq tv2 := by
  unfold State.wPopReturn at e
  (try dsimp only at e)
  repeat' (split at e)
  all_goals first
    | (cases e <;> (
       repeat' first
         | with_reducible assumption
         | (rename_i e; with_reducible refine Keeps.ofSnd (pq := pq) e ?_ (fun _ => ?_) <;> clear e)
         | (rename_i e; with_reducible refine Keeps.ofFst (pq := pq) e ?_ (fun _ => ?_) <;> clear e)
         | (extract_lets -underBinder +onlyGivenNames -merge x; with_reducible refine Keeps.cut (pq := pq) x ?_ (fun _ => ?_); rotate_left; clear_value x; rotate_left; subst x)
         | (extract_lets -underBinder +onlyGivenNames -merge x; subst x)
         | with_reducible apply State.setWc_keeps
         | with_reducible apply State.wRead_keepsP
         | (with_reducible refine State.wRead_keepsE (by with_reducible assumption) ?_)
         | (with_reducible refine State.wRead_keepsE1 (by with_reducible assumption) ?_)
         | with_reducible apply KeepsW.mkGo
         | with_reducible apply KeepsW.mkPureGo
         | with_reducible apply KeepsW.mkOk
         | with_reducible apply KeepsW.mkPure
         | with_reducible apply KeepsW.mkErr
         | with_reducible apply KeepsW.mkThrow
         | with_reducible apply KeepsW.throwBind
         | with_reducible apply KeepsW.bindPair
         | with_reducible apply KeepsW.bind
         | intro _
         | split
         | simp only [Keeps.upd]
       done))
    | (
       repeat' first
         | with_reducible assumption
         | (rename_i e; with_reducible refine Keeps.ofSnd (pq := pq) e ?_ (fun _ => ?_) <;> clear e)
         | (rename_i e; with_reducible refine Keeps.ofFst (pq := pq) e ?_ (fun _ => ?_) <;> clear e)
         | (extract_lets -underBinder +onlyGivenNames -merge x; with_reducible refine Keeps.cut (pq := pq) x ?_ (fun _ => ?_); rotate_left; clear_value x; rotate_left; subst x)
         | (extract_lets -underBinder +onlyGivenNames -merge x; subst x)
         | with_reducible apply State.setWc_keeps
         | with_reducible apply State.wRead_keepsP
         | (with_reducible refine State.wRead_keepsE (by with_reducible assumption) ?_)
         | (with_reducible refine State.wRead_keepsE1 (by with_reducible assumption) ?_)
         | with_reducible apply KeepsW.mkGo
         | with_reducible apply KeepsW.mkPureGo
         | with_reducible apply KeepsW.mkOk
         | with_reducible apply KeepsW.mkPure
         | with_reducible apply KeepsW.mkErr
         | with_reducible apply KeepsW.mkThrow
         | with_reducible apply KeepsW.throwBind
         | with_reducible apply KeepsW.bindPair
         | with_reducible apply KeepsW.bind
         | intro _
         | split
         | simp only [Keeps.upd]
       done)
theorem State.wPopReturn_keepsE1 {pq : List Instr} {s : State} {c : Fin 13} {k : WickCore} {tv4 v3} (e : State.wPopReturn s c k = (Except.ok (v3, tv4))) (hs : State.Keeps pq s) :
    State.Keeps pq tv4 := by
  unfold State.wPopReturn at e
  (try dsimp only at e)
  repeat' (split at e)
  all_goals first
    | (cases e <;> (
       repeat' first
         | with_reducible assumption
         | (rename_i e; with_reducible refine Keeps.ofSnd (pq := pq) e ?_ (fun _ => ?_) <;> clear e)
         | (rename_i e; with_reducible refine Keeps.ofFst (pq := pq) e ?_ (fun _ => ?_) <;> clear e)
         | (extract_lets -underBinder +onlyGivenNames -merge x; with_reducible refine Keeps.cut (pq := pq) x ?_ (fun _ => ?_); rotate_left; clear_value x; rotate_left; subst x)
         | (extract_lets -underBinder +onlyGivenNames -merge x; subst x)
         | with_reducible apply State.setWc_keeps
         | with_reducible apply State.wRead_keepsP
         | (with_reducible refine State.wRead_keepsE (by with_reducible assumption) ?_)
         | (with_reducible refine State.wRead_keepsE1 (by with_reducible assumption) ?_)
         | with_reducible apply KeepsW.mkGo
         | with_reducible apply KeepsW.mkPureGo
         | with_reducible apply KeepsW.mkOk
         | with_reducible apply KeepsW.mkPure
         | with_reducible apply KeepsW.mkErr
         | with_reducible apply KeepsW.mkThrow
         | with_reducible apply KeepsW.throwBind
         | with_reducible apply KeepsW.bindPair
         | with_reducible apply KeepsW.bind
         | intro _
         | split
         | simp only [Keeps.upd]
       done))
    | (
       repeat' first
         | with_reducible assumption
         | (rename_i e; with_reducible refine Keeps.ofSnd (pq := pq) e ?_ (fun _ => ?_) <;> clear e)
         | (rename_i e; with_reducible refine Keeps.ofFst (pq := pq) e ?_ (fun _ => ?_) <;> clear e)
         | (extract_lets -underBinder +onlyGivenNames -merge x; with_reducible refine Keeps.cut (pq := pq) x ?_ (fun _ => ?_); rotate_left; clear_value x; rotate_left; subst x)
         | (extract_lets -underBinder +onlyGivenNames -merge x; subst x)
         | with_reducible apply State.setWc_keeps
         | with_reducible apply State.wRead_keepsP
         | (with_reducible refine State.wRead_keepsE (by with_reducible assumption) ?_)
         | (with_reducible refine State.wRead_keepsE1 (by with_reducible assumption) ?_)
         | with_reducible apply KeepsW.mkGo
         | with_reducible apply KeepsW.mkPureGo
         | with_reducible apply KeepsW.mkOk
         | with_reducible apply KeepsW.mkPure
         | with_reducible apply KeepsW.mkErr
         | with_reducible apply KeepsW.mkThrow
         | with_reducible apply KeepsW.throwBind
         | with_reducible apply KeepsW.bindPair
         | with_reducible apply KeepsW.bind
         | intro _
         | split
         | simp only [Keeps.upd]
       done)

theorem State.specialRead_keeps {pq : List Instr} {s : State} {c : Fin 13} {sr : Nat} (hs : State.Keeps pq s) :
    State.Keeps pq (State.specialRead s c sr) := by
  unfold State.specialRead
  repeat' first
    | with_reducible assumption
    | with_reducible apply State.setWc_keeps
    | with_reducible apply KeepsW.mkGo
    | with_reducible apply KeepsW.mkPureGo
    | with_reducible apply KeepsW.mkOk
    | with_reducible apply KeepsW.mkPure
    | with_reducible apply KeepsW.mkErr
    | with_reducible apply KeepsW.mkThrow
    | with_reducible apply KeepsW.throwBind
    | with_reducible apply KeepsW.bindPair
    | with_reducible apply KeepsW.bind
    | split
    | simp only [Keeps.upd]

theorem State.wInvalidate_keeps {pq : List Instr} {s : State} {c : Fin 13} {line : Nat} (hs : State.Keeps pq s) :
    State.Keeps pq (State.wInvalidate s c line) := by
  unfold State.wInvalidate
  repeat' first
    | with_reducible assumption
    | (extract_lets -underBinder +onlyGivenNames -merge x; with_reducible refine Keeps.cut (pq := pq) x ?_ (fun _ => ?_); rotate_left; clear_value x; rotate_left; subst x)
    | (extract_lets -underBinder +onlyGivenNames -merge x; subst x)
    | with_reducible apply State.setDir_keeps
    | with_reducible apply State.setWc_keeps
    | with_reducible apply KeepsW.mkGo
    | with_reducible apply KeepsW.mkPureGo
    | with_reducible apply KeepsW.mkOk
    | with_reducible apply KeepsW.mkPure
    | with_reducible apply KeepsW.mkErr
    | with_reducible apply KeepsW.mkThrow
    | with_reducible apply KeepsW.throwBind
    | with_reducible apply KeepsW.bindPair
    | with_reducible apply KeepsW.bind
    | split
    | simp only [Keeps.upd]

theorem State.dregWrite_keepsE {pq : List Instr} {s : State} {c : Fin 13} {v : Word} {tv1} (e : State.dregWrite s c v = (some tv1)) (hs : State.Keeps pq s) :
    State.Keeps pq tv1 := by
  unfold State.dregWrite at e
  (try dsimp only at e)
  repeat' (split at e)
  all_goals first
    | (cases e <;> (
       repeat' first
         | with_reducible assumption
         | (extract_lets -underBinder +onlyGivenNames -merge x; with_reducible refine Keeps.cut (pq := pq) x ?_ (fun _ => ?_); rotate_left; clear_value x; rotate_left; subst x)
         | (extract_lets -underBinder +onlyGivenNames -merge x; subst x)
         | with_reducible apply State.setWc_keeps
         | with_reducible apply State.setReg_keeps
         | intro _
         | split
         | simp only [Keeps.upd]
       done))
    | (
       repeat' first
         | with_reducible assumption
         | (extract_lets -underBinder +onlyGivenNames -merge x; with_reducible refine Keeps.cut (pq := pq) x ?_ (fun _ => ?_); rotate_left; clear_value x; rotate_left; subst x)
         | (extract_lets -underBinder +onlyGivenNames -merge x; subst x)
         | with_reducible apply State.setWc_keeps
         | with_reducible apply State.setReg_keeps
         | intro _
         | split
         | simp only [Keeps.upd]
       done)

theorem State.dmemNext_keeps {pq : List Instr} {s : State} {c : Fin 13} (hs : State.Keeps pq s) :
    State.Keeps pq (State.dmemNext s c) := by
  unfold State.dmemNext
  repeat' first
    | with_reducible assumption
    | (extract_lets -underBinder +onlyGivenNames -merge x; with_reducible refine Keeps.cut (pq := pq) x ?_ (fun _ => ?_); rotate_left; clear_value x; rotate_left; subst x)
    | (extract_lets -underBinder +onlyGivenNames -merge x; subst x)
    | with_reducible apply State.setWc_keeps
    | split
    | simp only [Keeps.upd]

theorem State.dmemRead_keepsP {pq : List Instr} {s : State} {c : Fin 13} (hs : State.Keeps pq s) :
    State.Keeps pq (State.dmemRead s c).2.2 := by
  unfold State.dmemRead
  repeat' first
    | with_reducible assumption
    | (extract_lets -underBinder +onlyGivenNames -merge x; with_reducible refine Keeps.cut (pq := pq) x ?_ (fun _ => ?_); rotate_left; clear_value x; rotate_left; subst x)
    | (extract_lets -underBinder +onlyGivenNames -merge x; subst x)
    | with_reducible apply State.dmemNext_keeps
    | with_reducible apply State.wRegRead_keepsP
    | with_reducible apply State.wRegBytes_keepsP
    | with_reducible apply State.wRegPut_keeps
    | (with_reducible refine State.wRegRead_keepsE (by with_reducible assumption) ?_)
    | with_reducible apply State.drawFree_keepsP
    | (with_reducible refine State.drawFree_keepsE (by with_reducible assumption) ?_)
    | intro _
    | split
    | simp only [Keeps.upd]
theorem State.dmemRead_keepsE {pq : List Instr} {s : State} {c : Fin 13} {tv3 v1 v2} (e : State.dmemRead s c = (v1, (v2, tv3))) (hs : State.Keeps pq s) :
    State.Keeps pq tv3 := by
  have h := State.dmemRead_keepsP (s := s) (c := c) hs 
  rw [e] at h; exact h

theorem State.clusterDebugWrite_keeps {pq : List Instr} {s : State} {a : Nat} {v : Word} (hs : State.Keeps pq s) :
    State.Keeps pq (State.clusterDebugWrite s a v) := by
  unfold State.clusterDebugWrite
  repeat' first
    | with_reducible assumption
    | (extract_lets -underBinder +onlyGivenNames -merge x; with_reducible refine Keeps.cut (pq := pq) x ?_ (fun _ => ?_); rotate_left; clear_value x; rotate_left; subst x)
    | (extract_lets -underBinder +onlyGivenNames -merge x; subst x)
    | with_reducible apply State.forRequesters_keeps
    | with_reducible apply State.setDir_keeps
    | with_reducible apply State.wPut_keeps
    | intro _
    | split
    | simp only [Keeps.upd]

theorem State.dmemWrite_keepsP {pq : List Instr} {s : State} {c : Fin 13} {v : Word} (hs : State.Keeps pq s) :
    State.Keeps pq (State.dmemWrite s c v).2 := by
  unfold State.dmemWrite
  repeat' first
    | with_reducible assumption
    | (extract_lets -underBinder +onlyGivenNames -merge x; with_reducible refine Keeps.cut (pq := pq) x ?_ (fun _ => ?_); rotate_left; clear_value x; rotate_left; subst x)
    | (extract_lets -underBinder +onlyGivenNames -merge x; subst x)
    | with_reducible apply State.clusterDebugWrite_keeps
    | with_reducible apply State.dmemNext_keeps
    | with_reducible apply State.busWrite_keeps
    | with_reducible apply State.wPut_keeps
    | with_reducible apply State.setWc_keeps
    | with_reducible apply State.hostWrite_keeps
    | with_reducible apply State.devWrite_keeps
    | intro _
    | split
    | simp only [Keeps.upd]
theorem State.dmemWrite_keepsE {pq : List Instr} {s : State} {c : Fin 13} {v : Word} {tv2 v1} (e : State.dmemWrite s c v = (v1, tv2)) (hs : State.Keeps pq s) :
    State.Keeps pq tv2 := by
  have h := State.dmemWrite_keepsP (s := s) (c := c) (v := v) hs 
  rw [e] at h; exact h

theorem State.haltRequest_keeps {pq : List Instr} {s : State} {c : Fin 13} (hs : State.Keeps pq s) :
    State.Keeps pq (State.haltRequest s c) := by
  unfold State.haltRequest
  repeat' first
    | with_reducible assumption
    | (extract_lets -underBinder +onlyGivenNames -merge x; with_reducible refine Keeps.cut (pq := pq) x ?_ (fun _ => ?_); rotate_left; clear_value x; rotate_left; subst x)
    | (extract_lets -underBinder +onlyGivenNames -merge x; subst x)
    | with_reducible apply State.setWc_keeps
    | split
    | simp only [Keeps.upd]

theorem State.debugHalt_keeps {pq : List Instr} {s : State} {c : Fin 13} (hs : State.Keeps pq s) :
    State.Keeps pq (State.debugHalt s c) := by
  unfold State.debugHalt
  repeat' first
    | with_reducible assumption
    | (extract_lets -underBinder +onlyGivenNames -merge x; with_reducible refine Keeps.cut (pq := pq) x ?_ (fun _ => ?_); rotate_left; clear_value x; rotate_left; subst x)
    | (extract_lets -underBinder +onlyGivenNames -merge x; subst x)
    | with_reducible apply State.setWc_keeps
    | split

theorem State.debugResume_keeps {pq : List Instr} {s : State} {c : Fin 13} (hs : State.Keeps pq s) :
    State.Keeps pq (State.debugResume s c) := by
  unfold State.debugResume
  repeat' first
    | with_reducible assumption
    | (extract_lets -underBinder +onlyGivenNames -merge x; with_reducible refine Keeps.cut (pq := pq) x ?_ (fun _ => ?_); rotate_left; clear_value x; rotate_left; subst x)
    | (extract_lets -underBinder +onlyGivenNames -merge x; subst x)
    | with_reducible apply State.setWc_keeps
    | split
    | simp only [Keeps.upd]

theorem State.debugStep_keeps {pq : List Instr} {s : State} {c : Fin 13} (hs : State.Keeps pq s) :
    State.Keeps pq (State.debugStep s c) := by
  unfold State.debugStep
  repeat' first
    | with_reducible assumption
    | (extract_lets -underBinder +onlyGivenNames -merge x; with_reducible refine Keeps.cut (pq := pq) x ?_ (fun _ => ?_); rotate_left; clear_value x; rotate_left; subst x)
    | (extract_lets -underBinder +onlyGivenNames -merge x; subst x)
    | with_reducible apply State.setWc_keeps
    | split
    | simp only [Keeps.upd]

theorem State.dregTouched_keeps {pq : List Instr} {s : State} {c : Fin 13} (hs : State.Keeps pq s) :
    State.Keeps pq (State.dregTouched s c) := by
  unfold State.dregTouched
  repeat' first
    | with_reducible assumption
    | (extract_lets -underBinder +onlyGivenNames -merge x; subst x)
    | with_reducible apply State.specialRead_keeps
    | split
    | simp only [Keeps.upd]

theorem State.dbgRead_keepsP {pq : List Instr} {s : State} {c : Fin 13} {addr : Nat} (hs : State.Keeps pq s) :
    State.Keeps pq (State.dbgRead s c addr).2.2 := by
  unfold State.dbgRead
  repeat' first
    | with_reducible assumption
    | with_reducible apply State.dregTouched_keeps
    | (extract_lets -underBinder +onlyGivenNames -merge x; with_reducible refine Keeps.cut (pq := pq) x ?_ (fun _ => ?_); rotate_left; clear_value x; rotate_left; subst x)
    | (extract_lets -underBinder +onlyGivenNames -merge x; subst x)
    | with_reducible apply State.dmemRead_keepsP
    | (with_reducible refine State.dmemRead_keepsE (by with_reducible assumption) ?_)
    | intro _
    | split
    | simp only [Keeps.upd]
theorem State.dbgRead_keepsE {pq : List Instr} {s : State} {c : Fin 13} {addr : Nat} {tv3 v1 v2} (e : State.dbgRead s c addr = (v1, (v2, tv3))) (hs : State.Keeps pq s) :
    State.Keeps pq tv3 := by
  have h := State.dbgRead_keepsP (s := s) (c := c) (addr := addr) hs 
  rw [e] at h; exact h

theorem State.dctrlWrite_keeps {pq : List Instr} {s : State} {c : Fin 13} {v : Word} (hs : State.Keeps pq s) :
    State.Keeps pq (State.dctrlWrite s c v) := by
  unfold State.dctrlWrite
  repeat' first
    | with_reducible assumption
    | (extract_lets -underBinder +onlyGivenNames -merge x; with_reducible refine Keeps.cut (pq := pq) x ?_ (fun _ => ?_); rotate_left; clear_value x; rotate_left; subst x)
    | (extract_lets -underBinder +onlyGivenNames -merge x; subst x)
    | with_reducible apply State.debugStep_keeps
    | with_reducible apply State.debugResume_keeps
    | with_reducible apply State.haltRequest_keeps
    | with_reducible apply State.setWc_keeps
    | split
    | simp only [Keeps.upd]

theorem State.dbgWrite_keepsP {pq : List Instr} {s : State} {c : Fin 13} {addr : Nat} {v : Word} (hs : State.Keeps pq s) :
    State.Keeps pq (State.dbgWrite s c addr v).2 := by
  unfold State.dbgWrite
  repeat' first
    | with_reducible assumption
    | (extract_lets -underBinder +onlyGivenNames -merge x; with_reducible refine Keeps.cut (pq := pq) x ?_ (fun _ => ?_); rotate_left; clear_value x; rotate_left; subst x)
    | (extract_lets -underBinder +onlyGivenNames -merge x; subst x)
    | with_reducible apply State.dctrlWrite_keeps
    | with_reducible apply State.setWc_keeps
    | with_reducible apply State.dmemWrite_keepsP
    | (with_reducible refine State.dmemWrite_keepsE (by with_reducible assumption) ?_)
    | with_reducible apply State.dregWrite_keepsP
    | (with_reducible refine State.dregWrite_keepsE (by with_reducible assumption) ?_)
    | intro _
    | split
    | simp only [Keeps.upd]
theorem State.dbgWrite_keepsE {pq : List Instr} {s : State} {c : Fin 13} {addr : Nat} {v : Word} {tv2 v1} (e : State.dbgWrite s c addr v = (v1, tv2)) (hs : State.Keeps pq s) :
    State.Keeps pq tv2 := by
  have h := State.dbgWrite_keepsP (s := s) (c := c) (addr := addr) (v := v) hs 
  rw [e] at h; exact h

theorem State.dbgDone_keeps {pq : List Instr} {s : State} {status : Nat} {v : Word} (hs : State.Keeps pq s) :
    State.Keeps pq (State.dbgDone s status v) := by
  unfold State.dbgDone
  repeat' first
    | with_reducible assumption
    | simp only [Keeps.upd]

theorem State.dbgAccess_keeps {pq : List Instr} {s : State} {core addr : Nat} {write : Bool} {v : Word} (hs : State.Keeps pq s) :
    State.Keeps pq (State.dbgAccess s core addr write v) := by
  unfold State.dbgAccess
  repeat' first
    | with_reducible assumption
    | (rename_i e; with_reducible refine Keeps.ofSnd (pq := pq) e ?_ (fun _ => ?_) <;> clear e)
    | (rename_i e; with_reducible refine Keeps.ofFst (pq := pq) e ?_ (fun _ => ?_) <;> clear e)
    | (extract_lets -underBinder +onlyGivenNames -merge x; with_reducible refine Keeps.cut (pq := pq) x ?_ (fun _ => ?_); rotate_left; clear_value x; rotate_left; subst x)
    | (extract_lets -underBinder +onlyGivenNames -merge x; subst x)
    | with_reducible apply State.dbgDone_keeps
    | with_reducible apply State.dbgWrite_keepsP
    | (with_reducible refine State.dbgWrite_keepsE (by with_reducible assumption) ?_)
    | with_reducible apply State.dbgRead_keepsP
    | (with_reducible refine State.dbgRead_keepsE (by with_reducible assumption) ?_)
    | split
    | simp only [Keeps.upd]

theorem execDbgAccess_keeps {pq : List Instr} {d : BitVec 46} {s : State} (hs : State.Keeps pq s) :
    KeepsO pq (execDbgAccess d s) := by
  unfold execDbgAccess
  repeat' first
    | with_reducible assumption
    | (extract_lets -underBinder +onlyGivenNames -merge x; with_reducible refine Keeps.cut (pq := pq) x ?_ (fun _ => ?_); rotate_left; clear_value x; rotate_left; subst x)
    | (extract_lets -underBinder +onlyGivenNames -merge x; subst x)
    | with_reducible apply KeepsO.mk
    | with_reducible apply State.dbgAccess_keeps
    | with_reducible apply State.dbgDone_keeps
    | with_reducible apply State.emit_keeps
    | split

theorem execHaltReq_keeps {pq : List Instr} {c : Fin 13} {s : State} (hs : State.Keeps pq s) :
    KeepsO pq (execHaltReq c s) := by
  unfold execHaltReq
  repeat' first
    | with_reducible assumption
    | with_reducible apply KeepsO.mk
    | with_reducible apply State.dbgDone_keeps
    | with_reducible apply State.haltRequest_keeps
    | split

theorem execDebugHalt_keeps {pq : List Instr} {c : Fin 13} {s : State} (hs : State.Keeps pq s) :
    KeepsO pq (execDebugHalt c s) := by
  unfold execDebugHalt
  repeat' first
    | with_reducible assumption
    | with_reducible apply KeepsO.mk
    | with_reducible apply State.debugHalt_keeps

theorem execDebugResume_keeps {pq : List Instr} {c : Fin 13} {s : State} (hs : State.Keeps pq s) :
    KeepsO pq (execDebugResume c s) := by
  unfold execDebugResume
  repeat' first
    | with_reducible assumption
    | with_reducible apply KeepsO.mk
    | with_reducible apply State.dbgDone_keeps
    | with_reducible apply State.debugResume_keeps
    | split

theorem execDebugStep_keeps {pq : List Instr} {c : Fin 13} {s : State} (hs : State.Keeps pq s) :
    KeepsO pq (execDebugStep c s) := by
  unfold execDebugStep
  repeat' first
    | with_reducible assumption
    | with_reducible apply KeepsO.mk
    | with_reducible apply State.dbgDone_keeps
    | with_reducible apply State.debugStep_keeps
    | split

theorem execDregDataAccess_keeps {pq : List Instr} {c : Fin 13} {write : Bool} {v : Word} {s : State} (hs : State.Keeps pq s) :
    KeepsO pq (execDregDataAccess c write v s) := by
  unfold execDregDataAccess
  repeat' first
    | with_reducible assumption
    | with_reducible apply KeepsO.mk
    | with_reducible apply State.dbgAccess_keeps

theorem execDmemDataAccess_keeps {pq : List Instr} {c : Fin 13} {write : Bool} {v : Word} {s : State} (hs : State.Keeps pq s) :
    KeepsO pq (execDmemDataAccess c write v s) := by
  unfold execDmemDataAccess
  repeat' first
    | with_reducible assumption
    | with_reducible apply KeepsO.mk
    | with_reducible apply State.dbgAccess_keeps

theorem State.fabricRecord_keeps {pq : List Instr} {s : State} {domain master a : Nat} (hs : State.Keeps pq s) :
    State.Keeps pq (State.fabricRecord s domain master a) := by
  unfold State.fabricRecord
  repeat' first
    | with_reducible assumption
    | simp only [Keeps.upd]

theorem State.fabricWick_keeps {pq : List Instr} {s : State} {c : Fin 13} (hs : State.Keeps pq s) :
    State.Keeps pq (State.fabricWick s c) := by
  unfold State.fabricWick
  repeat' first
    | with_reducible assumption
    | (rename_i e; with_reducible refine Keeps.ofSnd (pq := pq) e ?_ (fun _ => ?_) <;> clear e)
    | (rename_i e; with_reducible refine Keeps.ofFst (pq := pq) e ?_ (fun _ => ?_) <;> clear e)
    | (extract_lets -underBinder +onlyGivenNames -merge x; with_reducible refine Keeps.cut (pq := pq) x ?_ (fun _ => ?_); rotate_left; clear_value x; rotate_left; subst x)
    | (extract_lets -underBinder +onlyGivenNames -merge x; subst x)
    | with_reducible apply State.wRaise_keeps
    | with_reducible apply State.drawFree_keepsP
    | (with_reducible refine State.drawFree_keepsE (by with_reducible assumption) ?_)
    | split
    | simp only [Keeps.upd]

theorem State.fabricError_keeps {pq : List Instr} {s : State} {master : Fin 4} {index : Nat} (hs : State.Keeps pq s) :
    State.Keeps pq (State.fabricError s master index) := by
  unfold State.fabricError
  repeat' first
    | with_reducible assumption
    | (rename_i e; with_reducible refine Keeps.ofSnd (pq := pq) e ?_ (fun _ => ?_) <;> clear e)
    | (rename_i e; with_reducible refine Keeps.ofFst (pq := pq) e ?_ (fun _ => ?_) <;> clear e)
    | with_reducible apply State.fabricWick_keeps
    | with_reducible apply State.dmaFail_keeps
    | with_reducible apply State.setRd_keeps
    | with_reducible apply State.emit_keeps
    | split
    | simp only [Keeps.upd]

theorem State.fabricTimeout_keeps {pq : List Instr} {s : State} {domain : Nat} {m : Fin 4} {index a : Nat} (hs : State.Keeps pq s) :
    State.Keeps pq (State.fabricTimeout s domain m index a) := by
  unfold State.fabricTimeout
  repeat' first
    | with_reducible assumption
    | with_reducible apply State.fabricError_keeps
    | with_reducible apply State.fabricRecord_keeps
    | with_reducible apply State.fault_keeps
    | split

theorem execFabricAccessTimeout_keeps {pq : List Instr} {domain : Fin 9} {master : Fin 4} {index : Nat} {a : Nat} {s : State} (hs : State.Keeps pq s) :
    KeepsO pq (execFabricAccessTimeout domain master index a s) := by
  unfold execFabricAccessTimeout
  repeat' first
    | with_reducible assumption
    | with_reducible apply KeepsO.mk
    | with_reducible apply State.fabricTimeout_keeps

theorem execSysFabricCntRead_keeps {pq : List Instr} {s : State} (hs : State.Keeps pq s) :
    KeepsO pq (execSysFabricCntRead s) := by
  unfold execSysFabricCntRead
  repeat' first
    | with_reducible assumption
    | with_reducible apply KeepsO.mk
    | with_reducible apply State.setRd_keeps
    | split
    | simp only [Keeps.upd]

theorem State.wDiv_keeps {pq : List Instr} {s : State} {c : Fin 13} {rd rs rt : Fin 32} {f : Word → Word → Word} (hs : State.Keeps pq s) :
    State.Keeps pq (State.wDiv s c rd rs rt f) := by
  unfold State.wDiv
  repeat' first
    | with_reducible assumption
    | with_reducible apply State.wRun_keeps
    | with_reducible apply State.setWc_keeps
    | with_reducible apply State.setReg_keeps
    | with_reducible apply KeepsW.mkGo
    | with_reducible apply KeepsW.mkPureGo
    | with_reducible apply KeepsW.mkOk
    | with_reducible apply KeepsW.mkPure
    | with_reducible apply KeepsW.mkErr
    | with_reducible apply KeepsW.mkThrow
    | with_reducible apply KeepsW.throwBind
    | with_reducible apply KeepsW.bindPair
    | with_reducible apply KeepsW.bind
    | intro _
    | split

theorem execAdd_keeps {pq : List Instr} {c : Fin 13} {rd rs rt : Fin 32} {s : State} (hs : State.Keeps pq s) :
    KeepsO pq (execAdd c rd rs rt s) := by
  unfold execAdd
  repeat' first
    | with_reducible assumption
    | with_reducible apply KeepsO.mk
    | with_reducible apply State.wAlu_keeps
    | with_reducible apply KeepsW.mkGo
    | with_reducible apply KeepsW.mkPureGo
    | with_reducible apply KeepsW.mkOk
    | with_reducible apply KeepsW.mkPure
    | with_reducible apply KeepsW.mkErr
    | with_reducible apply KeepsW.mkThrow
    | with_reducible apply KeepsW.throwBind
    | with_reducible apply KeepsW.bindPair
    | with_reducible apply KeepsW.bind
    | intro _

theorem execSub_keeps {pq : List Instr} {c : Fin 13} {rd rs rt : Fin 32} {s : State} (hs : State.Keeps pq s) :
    KeepsO pq (execSub c rd rs rt s) := by
  unfold execSub
  repeat' first
    | with_reducible assumption
    | with_reducible apply KeepsO.mk
    | with_reducible apply State.wAlu_keeps
    | with_reducible apply KeepsW.mkGo
    | with_reducible apply KeepsW.mkPureGo
    | with_reducible apply KeepsW.mkOk
    | with_reducible apply KeepsW.mkPure
    | with_reducible apply KeepsW.mkErr
    | with_reducible apply KeepsW.mkThrow
    | with_reducible apply KeepsW.throwBind
    | with_reducible apply KeepsW.bindPair
    | with_reducible apply KeepsW.bind
    | intro _

theorem execAnd_keeps {pq : List Instr} {c : Fin 13} {rd rs rt : Fin 32} {s : State} (hs : State.Keeps pq s) :
    KeepsO pq (execAnd c rd rs rt s) := by
  unfold execAnd
  repeat' first
    | with_reducible assumption
    | with_reducible apply KeepsO.mk
    | with_reducible apply State.wAlu_keeps
    | with_reducible apply KeepsW.mkGo
    | with_reducible apply KeepsW.mkPureGo
    | with_reducible apply KeepsW.mkOk
    | with_reducible apply KeepsW.mkPure
    | with_reducible apply KeepsW.mkErr
    | with_reducible apply KeepsW.mkThrow
    | with_reducible apply KeepsW.throwBind
    | with_reducible apply KeepsW.bindPair
    | with_reducible apply KeepsW.bind
    | intro _

theorem execOr_keeps {pq : List Instr} {c : Fin 13} {rd rs rt : Fin 32} {s : State} (hs : State.Keeps pq s) :
    KeepsO pq (execOr c rd rs rt s) := by
  unfold execOr
  repeat' first
    | with_reducible assumption
    | with_reducible apply KeepsO.mk
    | with_reducible apply State.wAlu_keeps
    | with_reducible apply KeepsW.mkGo
    | with_reducible apply KeepsW.mkPureGo
    | with_reducible apply KeepsW.mkOk
    | with_reducible apply KeepsW.mkPure
    | with_reducible apply KeepsW.mkErr
    | with_reducible apply KeepsW.mkThrow
    | with_reducible apply KeepsW.throwBind
    | with_reducible apply KeepsW.bindPair
    | with_reducible apply KeepsW.bind
    | intro _

theorem execXor_keeps {pq : List Instr} {c : Fin 13} {rd rs rt : Fin 32} {s : State} (hs : State.Keeps pq s) :
    KeepsO pq (execXor c rd rs rt s) := by
  unfold execXor
  repeat' first
    | with_reducible assumption
    | with_reducible apply KeepsO.mk
    | with_reducible apply State.wAlu_keeps
    | with_reducible apply KeepsW.mkGo
    | with_reducible apply KeepsW.mkPureGo
    | with_reducible apply KeepsW.mkOk
    | with_reducible apply KeepsW.mkPure
    | with_reducible apply KeepsW.mkErr
    | with_reducible apply KeepsW.mkThrow
    | with_reducible apply KeepsW.throwBind
    | with_reducible apply KeepsW.bindPair
    | with_reducible apply KeepsW.bind
    | intro _

theorem execNor_keeps {pq : List Instr} {c : Fin 13} {rd rs rt : Fin 32} {s : State} (hs : State.Keeps pq s) :
    KeepsO pq (execNor c rd rs rt s) := by
  unfold execNor
  repeat' first
    | with_reducible assumption
    | with_reducible apply KeepsO.mk
    | with_reducible apply State.wAlu_keeps
    | with_reducible apply KeepsW.mkGo
    | with_reducible apply KeepsW.mkPureGo
    | with_reducible apply KeepsW.mkOk
    | with_reducible apply KeepsW.mkPure
    | with_reducible apply KeepsW.mkErr
    | with_reducible apply KeepsW.mkThrow
    | with_reducible apply KeepsW.throwBind
    | with_reducible apply KeepsW.bindPair
    | with_reducible apply KeepsW.bind
    | intro _

theorem execSlt_keeps {pq : List Instr} {c : Fin 13} {rd rs rt : Fin 32} {s : State} (hs : State.Keeps pq s) :
    KeepsO pq (execSlt c rd rs rt s) := by
  unfold execSlt
  repeat' first
    | with_reducible assumption
    | with_reducible apply KeepsO.mk
    | with_reducible apply State.wAlu_keeps
    | with_reducible apply KeepsW.mkGo
    | with_reducible apply KeepsW.mkPureGo
    | with_reducible apply KeepsW.mkOk
    | with_reducible apply KeepsW.mkPure
    | with_reducible apply KeepsW.mkErr
    | with_reducible apply KeepsW.mkThrow
    | with_reducible apply KeepsW.throwBind
    | with_reducible apply KeepsW.bindPair
    | with_reducible apply KeepsW.bind
    | intro _

theorem execSltu_keeps {pq : List Instr} {c : Fin 13} {rd rs rt : Fin 32} {s : State} (hs : State.Keeps pq s) :
    KeepsO pq (execSltu c rd rs rt s) := by
  unfold execSltu
  repeat' first
    | with_reducible assumption
    | with_reducible apply KeepsO.mk
    | with_reducible apply State.wAlu_keeps
    | with_reducible apply KeepsW.mkGo
    | with_reducible apply KeepsW.mkPureGo
    | with_reducible apply KeepsW.mkOk
    | with_reducible apply KeepsW.mkPure
    | with_reducible apply KeepsW.mkErr
    | with_reducible apply KeepsW.mkThrow
    | with_reducible apply KeepsW.throwBind
    | with_reducible apply KeepsW.bindPair
    | with_reducible apply KeepsW.bind
    | intro _

theorem execSll_keeps {pq : List Instr} {c : Fin 13} {rd rs rt : Fin 32} {s : State} (hs : State.Keeps pq s) :
    KeepsO pq (execSll c rd rs rt s) := by
  unfold execSll
  repeat' first
    | with_reducible assumption
    | with_reducible apply KeepsO.mk
    | with_reducible apply State.wAlu_keeps
    | with_reducible apply KeepsW.mkGo
    | with_reducible apply KeepsW.mkPureGo
    | with_reducible apply KeepsW.mkOk
    | with_reducible apply KeepsW.mkPure
    | with_reducible apply KeepsW.mkErr
    | with_reducible apply KeepsW.mkThrow
    | with_reducible apply KeepsW.throwBind
    | with_reducible apply KeepsW.bindPair
    | with_reducible apply KeepsW.bind
    | intro _

theorem execSrl_keeps {pq : List Instr} {c : Fin 13} {rd rs rt : Fin 32} {s : State} (hs : State.Keeps pq s) :
    KeepsO pq (execSrl c rd rs rt s) := by
  unfold execSrl
  repeat' first
    | with_reducible assumption
    | with_reducible apply KeepsO.mk
    | with_reducible apply State.wAlu_keeps
    | with_reducible apply KeepsW.mkGo
    | with_reducible apply KeepsW.mkPureGo
    | with_reducible apply KeepsW.mkOk
    | with_reducible apply KeepsW.mkPure
    | with_reducible apply KeepsW.mkErr
    | with_reducible apply KeepsW.mkThrow
    | with_reducible apply KeepsW.throwBind
    | with_reducible apply KeepsW.bindPair
    | with_reducible apply KeepsW.bind
    | intro _

theorem execSra_keeps {pq : List Instr} {c : Fin 13} {rd rs rt : Fin 32} {s : State} (hs : State.Keeps pq s) :
    KeepsO pq (execSra c rd rs rt s) := by
  unfold execSra
  repeat' first
    | with_reducible assumption
    | with_reducible apply KeepsO.mk
    | with_reducible apply State.wAlu_keeps
    | with_reducible apply KeepsW.mkGo
    | with_reducible apply KeepsW.mkPureGo
    | with_reducible apply KeepsW.mkOk
    | with_reducible apply KeepsW.mkPure
    | with_reducible apply KeepsW.mkErr
    | with_reducible apply KeepsW.mkThrow
    | with_reducible apply KeepsW.throwBind
    | with_reducible apply KeepsW.bindPair
    | with_reducible apply KeepsW.bind
    | intro _

theorem execMul_keeps {pq : List Instr} {c : Fin 13} {rd rs rt : Fin 32} {s : State} (hs : State.Keeps pq s) :
    KeepsO pq (execMul c rd rs rt s) := by
  unfold execMul
  repeat' first
    | with_reducible assumption
    | with_reducible apply KeepsO.mk
    | with_reducible apply State.wAlu_keeps
    | with_reducible apply KeepsW.mkGo
    | with_reducible apply KeepsW.mkPureGo
    | with_reducible apply KeepsW.mkOk
    | with_reducible apply KeepsW.mkPure
    | with_reducible apply KeepsW.mkErr
    | with_reducible apply KeepsW.mkThrow
    | with_reducible apply KeepsW.throwBind
    | with_reducible apply KeepsW.bindPair
    | with_reducible apply KeepsW.bind
    | intro _

theorem execMulh_keeps {pq : List Instr} {c : Fin 13} {rd rs rt : Fin 32} {s : State} (hs : State.Keeps pq s) :
    KeepsO pq (execMulh c rd rs rt s) := by
  unfold execMulh
  repeat' first
    | with_reducible assumption
    | with_reducible apply KeepsO.mk
    | with_reducible apply State.wAlu_keeps
    | with_reducible apply KeepsW.mkGo
    | with_reducible apply KeepsW.mkPureGo
    | with_reducible apply KeepsW.mkOk
    | with_reducible apply KeepsW.mkPure
    | with_reducible apply KeepsW.mkErr
    | with_reducible apply KeepsW.mkThrow
    | with_reducible apply KeepsW.throwBind
    | with_reducible apply KeepsW.bindPair
    | with_reducible apply KeepsW.bind
    | intro _

theorem execMulhu_keeps {pq : List Instr} {c : Fin 13} {rd rs rt : Fin 32} {s : State} (hs : State.Keeps pq s) :
    KeepsO pq (execMulhu c rd rs rt s) := by
  unfold execMulhu
  repeat' first
    | with_reducible assumption
    | with_reducible apply KeepsO.mk
    | with_reducible apply State.wAlu_keeps
    | with_reducible apply KeepsW.mkGo
    | with_reducible apply KeepsW.mkPureGo
    | with_reducible apply KeepsW.mkOk
    | with_reducible apply KeepsW.mkPure
    | with_reducible apply KeepsW.mkErr
    | with_reducible apply KeepsW.mkThrow
    | with_reducible apply KeepsW.throwBind
    | with_reducible apply KeepsW.bindPair
    | with_reducible apply KeepsW.bind
    | intro _

theorem execDivu_keeps {pq : List Instr} {c : Fin 13} {rd rs rt : Fin 32} {s : State} (hs : State.Keeps pq s) :
    KeepsO pq (execDivu c rd rs rt s) := by
  unfold execDivu
  repeat' first
    | with_reducible assumption
    | with_reducible apply KeepsO.mk
    | with_reducible apply State.wDiv_keeps
    | with_reducible apply KeepsW.mkGo
    | with_reducible apply KeepsW.mkPureGo
    | with_reducible apply KeepsW.mkOk
    | with_reducible apply KeepsW.mkPure
    | with_reducible apply KeepsW.mkErr
    | with_reducible apply KeepsW.mkThrow
    | with_reducible apply KeepsW.throwBind
    | with_reducible apply KeepsW.bindPair
    | with_reducible apply KeepsW.bind
    | intro _

theorem execRemu_keeps {pq : List Instr} {c : Fin 13} {rd rs rt : Fin 32} {s : State} (hs : State.Keeps pq s) :
    KeepsO pq (execRemu c rd rs rt s) := by
  unfold execRemu
  repeat' first
    | with_reducible assumption
    | with_reducible apply KeepsO.mk
    | with_reducible apply State.wDiv_keeps
    | with_reducible apply KeepsW.mkGo
    | with_reducible apply KeepsW.mkPureGo
    | with_reducible apply KeepsW.mkOk
    | with_reducible apply KeepsW.mkPure
    | with_reducible apply KeepsW.mkErr
    | with_reducible apply KeepsW.mkThrow
    | with_reducible apply KeepsW.throwBind
    | with_reducible apply KeepsW.bindPair
    | with_reducible apply KeepsW.bind
    | intro _

theorem execSlli_keeps {pq : List Instr} {c : Fin 13} {rd rs : Fin 32} {sh : Fin 32} {s : State} (hs : State.Keeps pq s) :
    KeepsO pq (execSlli c rd rs sh s) := by
  unfold execSlli
  repeat' first
    | with_reducible assumption
    | with_reducible apply KeepsO.mk
    | with_reducible apply State.wAlu_keeps
    | with_reducible apply KeepsW.mkGo
    | with_reducible apply KeepsW.mkPureGo
    | with_reducible apply KeepsW.mkOk
    | with_reducible apply KeepsW.mkPure
    | with_reducible apply KeepsW.mkErr
    | with_reducible apply KeepsW.mkThrow
    | with_reducible apply KeepsW.throwBind
    | with_reducible apply KeepsW.bindPair
    | with_reducible apply KeepsW.bind
    | intro _

theorem execSrli_keeps {pq : List Instr} {c : Fin 13} {rd rs : Fin 32} {sh : Fin 32} {s : State} (hs : State.Keeps pq s) :
    KeepsO pq (execSrli c rd rs sh s) := by
  unfold execSrli
  repeat' first
    | with_reducible assumption
    | with_reducible apply KeepsO.mk
    | with_reducible apply State.wAlu_keeps
    | with_reducible apply KeepsW.mkGo
    | with_reducible apply KeepsW.mkPureGo
    | with_reducible apply KeepsW.mkOk
    | with_reducible apply KeepsW.mkPure
    | with_reducible apply KeepsW.mkErr
    | with_reducible apply KeepsW.mkThrow
    | with_reducible apply KeepsW.throwBind
    | with_reducible apply KeepsW.bindPair
    | with_reducible apply KeepsW.bind
    | intro _

theorem execSrai_keeps {pq : List Instr} {c : Fin 13} {rd rs : Fin 32} {sh : Fin 32} {s : State} (hs : State.Keeps pq s) :
    KeepsO pq (execSrai c rd rs sh s) := by
  unfold execSrai
  repeat' first
    | with_reducible assumption
    | with_reducible apply KeepsO.mk
    | with_reducible apply State.wAlu_keeps
    | with_reducible apply KeepsW.mkGo
    | with_reducible apply KeepsW.mkPureGo
    | with_reducible apply KeepsW.mkOk
    | with_reducible apply KeepsW.mkPure
    | with_reducible apply KeepsW.mkErr
    | with_reducible apply KeepsW.mkThrow
    | with_reducible apply KeepsW.throwBind
    | with_reducible apply KeepsW.bindPair
    | with_reducible apply KeepsW.bind
    | intro _

theorem execClz_keeps {pq : List Instr} {c : Fin 13} {rd rs : Fin 32} {s : State} (hs : State.Keeps pq s) :
    KeepsO pq (execClz c rd rs s) := by
  unfold execClz
  repeat' first
    | with_reducible assumption
    | with_reducible apply KeepsO.mk
    | with_reducible apply State.wAlu_keeps
    | with_reducible apply KeepsW.mkGo
    | with_reducible apply KeepsW.mkPureGo
    | with_reducible apply KeepsW.mkOk
    | with_reducible apply KeepsW.mkPure
    | with_reducible apply KeepsW.mkErr
    | with_reducible apply KeepsW.mkThrow
    | with_reducible apply KeepsW.throwBind
    | with_reducible apply KeepsW.bindPair
    | with_reducible apply KeepsW.bind
    | intro _

theorem execBswap_keeps {pq : List Instr} {c : Fin 13} {rd rs : Fin 32} {s : State} (hs : State.Keeps pq s) :
    KeepsO pq (execBswap c rd rs s) := by
  unfold execBswap
  repeat' first
    | with_reducible assumption
    | with_reducible apply KeepsO.mk
    | with_reducible apply State.wAlu_keeps
    | with_reducible apply KeepsW.mkGo
    | with_reducible apply KeepsW.mkPureGo
    | with_reducible apply KeepsW.mkOk
    | with_reducible apply KeepsW.mkPure
    | with_reducible apply KeepsW.mkErr
    | with_reducible apply KeepsW.mkThrow
    | with_reducible apply KeepsW.throwBind
    | with_reducible apply KeepsW.bindPair
    | with_reducible apply KeepsW.bind
    | intro _

theorem execAddi_keeps {pq : List Instr} {c : Fin 13} {rd rs : Fin 32} {imm : BitVec 16} {s : State} (hs : State.Keeps pq s) :
    KeepsO pq (execAddi c rd rs imm s) := by
  unfold execAddi
  repeat' first
    | with_reducible assumption
    | with_reducible apply KeepsO.mk
    | with_reducible apply State.wAlu_keeps
    | with_reducible apply KeepsW.mkGo
    | with_reducible apply KeepsW.mkPureGo
    | with_reducible apply KeepsW.mkOk
    | with_reducible apply KeepsW.mkPure
    | with_reducible apply KeepsW.mkErr
    | with_reducible apply KeepsW.mkThrow
    | with_reducible apply KeepsW.throwBind
    | with_reducible apply KeepsW.bindPair
    | with_reducible apply KeepsW.bind
    | intro _

theorem execAndi_keeps {pq : List Instr} {c : Fin 13} {rd rs : Fin 32} {imm : BitVec 16} {s : State} (hs : State.Keeps pq s) :
    KeepsO pq (execAndi c rd rs imm s) := by
  unfold execAndi
  repeat' first
    | with_reducible assumption
    | with_reducible apply KeepsO.mk
    | with_reducible apply State.wAlu_keeps
    | with_reducible apply KeepsW.mkGo
    | with_reducible apply KeepsW.mkPureGo
    | with_reducible apply KeepsW.mkOk
    | with_reducible apply KeepsW.mkPure
    | with_reducible apply KeepsW.mkErr
    | with_reducible apply KeepsW.mkThrow
    | with_reducible apply KeepsW.throwBind
    | with_reducible apply KeepsW.bindPair
    | with_reducible apply KeepsW.bind
    | intro _

theorem execOri_keeps {pq : List Instr} {c : Fin 13} {rd rs : Fin 32} {imm : BitVec 16} {s : State} (hs : State.Keeps pq s) :
    KeepsO pq (execOri c rd rs imm s) := by
  unfold execOri
  repeat' first
    | with_reducible assumption
    | with_reducible apply KeepsO.mk
    | with_reducible apply State.wAlu_keeps
    | with_reducible apply KeepsW.mkGo
    | with_reducible apply KeepsW.mkPureGo
    | with_reducible apply KeepsW.mkOk
    | with_reducible apply KeepsW.mkPure
    | with_reducible apply KeepsW.mkErr
    | with_reducible apply KeepsW.mkThrow
    | with_reducible apply KeepsW.throwBind
    | with_reducible apply KeepsW.bindPair
    | with_reducible apply KeepsW.bind
    | intro _

theorem execXori_keeps {pq : List Instr} {c : Fin 13} {rd rs : Fin 32} {imm : BitVec 16} {s : State} (hs : State.Keeps pq s) :
    KeepsO pq (execXori c rd rs imm s) := by
  unfold execXori
  repeat' first
    | with_reducible assumption
    | with_reducible apply KeepsO.mk
    | with_reducible apply State.wAlu_keeps
    | with_reducible apply KeepsW.mkGo
    | with_reducible apply KeepsW.mkPureGo
    | with_reducible apply KeepsW.mkOk
    | with_reducible apply KeepsW.mkPure
    | with_reducible apply KeepsW.mkErr
    | with_reducible apply KeepsW.mkThrow
    | with_reducible apply KeepsW.throwBind
    | with_reducible apply KeepsW.bindPair
    | with_reducible apply KeepsW.bind
    | intro _

theorem execSlti_keeps {pq : List Instr} {c : Fin 13} {rd rs : Fin 32} {imm : BitVec 16} {s : State} (hs : State.Keeps pq s) :
    KeepsO pq (execSlti c rd rs imm s) := by
  unfold execSlti
  repeat' first
    | with_reducible assumption
    | with_reducible apply KeepsO.mk
    | with_reducible apply State.wAlu_keeps
    | with_reducible apply KeepsW.mkGo
    | with_reducible apply KeepsW.mkPureGo
    | with_reducible apply KeepsW.mkOk
    | with_reducible apply KeepsW.mkPure
    | with_reducible apply KeepsW.mkErr
    | with_reducible apply KeepsW.mkThrow
    | with_reducible apply KeepsW.throwBind
    | with_reducible apply KeepsW.bindPair
    | with_reducible apply KeepsW.bind
    | intro _

theorem execSltiu_keeps {pq : List Instr} {c : Fin 13} {rd rs : Fin 32} {imm : BitVec 16} {s : State} (hs : State.Keeps pq s) :
    KeepsO pq (execSltiu c rd rs imm s) := by
  unfold execSltiu
  repeat' first
    | with_reducible assumption
    | with_reducible apply KeepsO.mk
    | with_reducible apply State.wAlu_keeps
    | with_reducible apply KeepsW.mkGo
    | with_reducible apply KeepsW.mkPureGo
    | with_reducible apply KeepsW.mkOk
    | with_reducible apply KeepsW.mkPure
    | with_reducible apply KeepsW.mkErr
    | with_reducible apply KeepsW.mkThrow
    | with_reducible apply KeepsW.throwBind
    | with_reducible apply KeepsW.bindPair
    | with_reducible apply KeepsW.bind
    | intro _

theorem execLui_keeps {pq : List Instr} {c : Fin 13} {rd : Fin 32} {imm : BitVec 16} {s : State} (hs : State.Keeps pq s) :
    KeepsO pq (execLui c rd imm s) := by
  unfold execLui
  repeat' first
    | with_reducible assumption
    | with_reducible apply KeepsO.mk
    | with_reducible apply State.wAlu_keeps
    | with_reducible apply KeepsW.mkGo
    | with_reducible apply KeepsW.mkPureGo
    | with_reducible apply KeepsW.mkOk
    | with_reducible apply KeepsW.mkPure
    | with_reducible apply KeepsW.mkErr
    | with_reducible apply KeepsW.mkThrow
    | with_reducible apply KeepsW.throwBind
    | with_reducible apply KeepsW.bindPair
    | with_reducible apply KeepsW.bind
    | intro _

theorem execLb_keeps {pq : List Instr} {c : Fin 13} {rd rs : Fin 32} {seg : Fin 8} {imm : BitVec 13} {s : State} (hs : State.Keeps pq s) :
    KeepsO pq (execLb c rd rs seg imm s) := by
  unfold execLb
  repeat' first
    | with_reducible assumption
    | with_reducible apply KeepsO.mk
    | with_reducible apply State.wLoadInstr_keeps
    | with_reducible apply KeepsW.mkGo
    | with_reducible apply KeepsW.mkPureGo
    | with_reducible apply KeepsW.mkOk
    | with_reducible apply KeepsW.mkPure
    | with_reducible apply KeepsW.mkErr
    | with_reducible apply KeepsW.mkThrow
    | with_reducible apply KeepsW.throwBind
    | with_reducible apply KeepsW.bindPair
    | with_reducible apply KeepsW.bind
    | intro _

theorem execLbu_keeps {pq : List Instr} {c : Fin 13} {rd rs : Fin 32} {seg : Fin 8} {imm : BitVec 13} {s : State} (hs : State.Keeps pq s) :
    KeepsO pq (execLbu c rd rs seg imm s) := by
  unfold execLbu
  repeat' first
    | with_reducible assumption
    | with_reducible apply KeepsO.mk
    | with_reducible apply State.wLoadInstr_keeps
    | with_reducible apply KeepsW.mkGo
    | with_reducible apply KeepsW.mkPureGo
    | with_reducible apply KeepsW.mkOk
    | with_reducible apply KeepsW.mkPure
    | with_reducible apply KeepsW.mkErr
    | with_reducible apply KeepsW.mkThrow
    | with_reducible apply KeepsW.throwBind
    | with_reducible apply KeepsW.bindPair
    | with_reducible apply KeepsW.bind

theorem execLh_keeps {pq : List Instr} {c : Fin 13} {rd rs : Fin 32} {seg : Fin 8} {imm : BitVec 13} {s : State} (hs : State.Keeps pq s) :
    KeepsO pq (execLh c rd rs seg imm s) := by
  unfold execLh
  repeat' first
    | with_reducible assumption
    | with_reducible apply KeepsO.mk
    | with_reducible apply State.wLoadInstr_keeps
    | with_reducible apply KeepsW.mkGo
    | with_reducible apply KeepsW.mkPureGo
    | with_reducible apply KeepsW.mkOk
    | with_reducible apply KeepsW.mkPure
    | with_reducible apply KeepsW.mkErr
    | with_reducible apply KeepsW.mkThrow
    | with_reducible apply KeepsW.throwBind
    | with_reducible apply KeepsW.bindPair
    | with_reducible apply KeepsW.bind
    | intro _

theorem execLhu_keeps {pq : List Instr} {c : Fin 13} {rd rs : Fin 32} {seg : Fin 8} {imm : BitVec 13} {s : State} (hs : State.Keeps pq s) :
    KeepsO pq (execLhu c rd rs seg imm s) := by
  unfold execLhu
  repeat' first
    | with_reducible assumption
    | with_reducible apply KeepsO.mk
    | with_reducible apply State.wLoadInstr_keeps
    | with_reducible apply KeepsW.mkGo
    | with_reducible apply KeepsW.mkPureGo
    | with_reducible apply KeepsW.mkOk
    | with_reducible apply KeepsW.mkPure
    | with_reducible apply KeepsW.mkErr
    | with_reducible apply KeepsW.mkThrow
    | with_reducible apply KeepsW.throwBind
    | with_reducible apply KeepsW.bindPair
    | with_reducible apply KeepsW.bind

theorem execLw_keeps {pq : List Instr} {c : Fin 13} {rd rs : Fin 32} {seg : Fin 8} {imm : BitVec 13} {s : State} (hs : State.Keeps pq s) :
    KeepsO pq (execLw c rd rs seg imm s) := by
  unfold execLw
  repeat' first
    | with_reducible assumption
    | with_reducible apply KeepsO.mk
    | with_reducible apply State.wLoadInstr_keeps
    | with_reducible apply KeepsW.mkGo
    | with_reducible apply KeepsW.mkPureGo
    | with_reducible apply KeepsW.mkOk
    | with_reducible apply KeepsW.mkPure
    | with_reducible apply KeepsW.mkErr
    | with_reducible apply KeepsW.mkThrow
    | with_reducible apply KeepsW.throwBind
    | with_reducible apply KeepsW.bindPair
    | with_reducible apply KeepsW.bind

theorem execLdx_keeps {pq : List Instr} {c : Fin 13} {rd rs : Fin 32} {seg : Fin 8} {imm : BitVec 13} {s : State} (hs : State.Keeps pq s) :
    KeepsO pq (execLdx c rd rs seg imm s) := by
  unfold execLdx
  repeat' first
    | with_reducible assumption
    | (rename_i e; with_reducible refine Keeps.ofSnd (pq := pq) e ?_ (fun _ => ?_) <;> clear e)
    | (rename_i e; with_reducible refine Keeps.ofFst (pq := pq) e ?_ (fun _ => ?_) <;> clear e)
    | (extract_lets -underBinder +onlyGivenNames -merge x; with_reducible refine Keeps.cut (pq := pq) x ?_ (fun _ => ?_); rotate_left; clear_value x; rotate_left; subst x)
    | (extract_lets -underBinder +onlyGivenNames -merge x; subst x)
    | with_reducible apply KeepsO.mk
    | with_reducible apply State.wRun_keeps
    | with_reducible apply State.setWc_keeps
    | with_reducible apply State.wLoad_keepsP
    | (with_reducible refine State.wLoad_keepsE (by with_reducible assumption) ?_)
    | (with_reducible refine State.wLoad_keepsE1 (by with_reducible assumption) ?_)
    | with_reducible apply KeepsW.mkGo
    | with_reducible apply KeepsW.mkPureGo
    | with_reducible apply KeepsW.mkOk
    | with_reducible apply KeepsW.mkPure
    | with_reducible apply KeepsW.mkErr
    | with_reducible apply KeepsW.mkThrow
    | with_reducible apply KeepsW.throwBind
    | with_reducible apply KeepsW.bindPair
    | with_reducible apply KeepsW.bind
    | intro _
    | split
    | simp only [Keeps.upd]

theorem execSb_keeps {pq : List Instr} {c : Fin 13} {rd rs : Fin 32} {seg : Fin 8} {imm : BitVec 13} {s : State} (hs : State.Keeps pq s) :
    KeepsO pq (execSb c rd rs seg imm s) := by
  unfold execSb
  repeat' first
    | with_reducible assumption
    | with_reducible apply KeepsO.mk
    | with_reducible apply State.wStoreInstr_keeps
    | with_reducible apply KeepsW.mkGo
    | with_reducible apply KeepsW.mkPureGo
    | with_reducible apply KeepsW.mkOk
    | with_reducible apply KeepsW.mkPure
    | with_reducible apply KeepsW.mkErr
    | with_reducible apply KeepsW.mkThrow
    | with_reducible apply KeepsW.throwBind
    | with_reducible apply KeepsW.bindPair
    | with_reducible apply KeepsW.bind

theorem execSh_keeps {pq : List Instr} {c : Fin 13} {rd rs : Fin 32} {seg : Fin 8} {imm : BitVec 13} {s : State} (hs : State.Keeps pq s) :
    KeepsO pq (execSh c rd rs seg imm s) := by
  unfold execSh
  repeat' first
    | with_reducible assumption
    | with_reducible apply KeepsO.mk
    | with_reducible apply State.wStoreInstr_keeps
    | with_reducible apply KeepsW.mkGo
    | with_reducible apply KeepsW.mkPureGo
    | with_reducible apply KeepsW.mkOk
    | with_reducible apply KeepsW.mkPure
    | with_reducible apply KeepsW.mkErr
    | with_reducible apply KeepsW.mkThrow
    | with_reducible apply KeepsW.throwBind
    | with_reducible apply KeepsW.bindPair
    | with_reducible apply KeepsW.bind

theorem execSw_keeps {pq : List Instr} {c : Fin 13} {rd rs : Fin 32} {seg : Fin 8} {imm : BitVec 13} {s : State} (hs : State.Keeps pq s) :
    KeepsO pq (execSw c rd rs seg imm s) := by
  unfold execSw
  repeat' first
    | with_reducible assumption
    | with_reducible apply KeepsO.mk
    | with_reducible apply State.wStoreInstr_keeps
    | with_reducible apply KeepsW.mkGo
    | with_reducible apply KeepsW.mkPureGo
    | with_reducible apply KeepsW.mkOk
    | with_reducible apply KeepsW.mkPure
    | with_reducible apply KeepsW.mkErr
    | with_reducible apply KeepsW.mkThrow
    | with_reducible apply KeepsW.throwBind
    | with_reducible apply KeepsW.bindPair
    | with_reducible apply KeepsW.bind

theorem State.wStx_keeps {pq : List Instr} {s : State} {c : Fin 13} {rd rs : Fin 32} {seg : Fin 8} {imm : BitVec 13} (hs : State.Keeps pq s) :
    State.Keeps pq (State.wStx s c rd rs seg imm) := by
  unfold State.wStx
  repeat' first
    | with_reducible assumption
    | (rename_i e; with_reducible refine Keeps.ofSnd (pq := pq) e ?_ (fun _ => ?_) <;> clear e)
    | (rename_i e; with_reducible refine Keeps.ofFst (pq := pq) e ?_ (fun _ => ?_) <;> clear e)
    | (extract_lets -underBinder +onlyGivenNames -merge x; with_reducible refine Keeps.cut (pq := pq) x ?_ (fun _ => ?_); rotate_left; clear_value x; rotate_left; subst x)
    | (extract_lets -underBinder +onlyGivenNames -merge x; subst x)
    | with_reducible apply State.wRun_keeps
    | with_reducible apply State.setWc_keeps
    | with_reducible apply State.setReg_keeps
    | with_reducible apply State.wStore_keepsP
    | (with_reducible refine State.wStore_keepsE (by with_reducible assumption) ?_)
    | (with_reducible refine State.wStore_keepsE1 (by with_reducible assumption) ?_)
    | with_reducible apply KeepsW.mkGo
    | with_reducible apply KeepsW.mkPureGo
    | with_reducible apply KeepsW.mkOk
    | with_reducible apply KeepsW.mkPure
    | with_reducible apply KeepsW.mkErr
    | with_reducible apply KeepsW.mkThrow
    | with_reducible apply KeepsW.throwBind
    | with_reducible apply KeepsW.bindPair
    | with_reducible apply KeepsW.bind
    | intro _
    | split
    | simp only [Keeps.upd]

theorem execStx_keeps {pq : List Instr} {c : Fin 13} {rd rs : Fin 32} {seg : Fin 8} {imm : BitVec 13} {s : State} (hs : State.Keeps pq s) :
    KeepsO pq (execStx c rd rs seg imm s) := by
  unfold execStx
  repeat' first
    | with_reducible assumption
    | with_reducible apply KeepsO.mk
    | with_reducible apply State.wStx_keeps
    | with_reducible apply KeepsW.mkGo
    | with_reducible apply KeepsW.mkPureGo
    | with_reducible apply KeepsW.mkOk
    | with_reducible apply KeepsW.mkPure
    | with_reducible apply KeepsW.mkErr
    | with_reducible apply KeepsW.mkThrow
    | with_reducible apply KeepsW.throwBind
    | with_reducible apply KeepsW.bindPair
    | with_reducible apply KeepsW.bind

theorem execLseg_keeps {pq : List Instr} {c : Fin 13} {user : Bool} {n : Fin 8} {rs : Fin 32} {seg : Fin 8} {imm : BitVec 13} {s : State} (hs : State.Keeps pq s) :
    KeepsO pq (execLseg c user n rs seg imm s) := by
  unfold execLseg
  repeat' first
    | with_reducible assumption
    | (rename_i e; with_reducible refine Keeps.ofSnd (pq := pq) e ?_ (fun _ => ?_) <;> clear e)
    | (rename_i e; with_reducible refine Keeps.ofFst (pq := pq) e ?_ (fun _ => ?_) <;> clear e)
    | (extract_lets -underBinder +onlyGivenNames -merge x; with_reducible refine Keeps.cut (pq := pq) x ?_ (fun _ => ?_); rotate_left; clear_value x; rotate_left; subst x)
    | (extract_lets -underBinder +onlyGivenNames -merge x; subst x)
    | with_reducible apply KeepsO.mk
    | with_reducible apply State.wRun_keeps
    | with_reducible apply State.setWc_keeps
    | with_reducible apply State.wLoad_keepsP
    | (with_reducible refine State.wLoad_keepsE (by with_reducible assumption) ?_)
    | (with_reducible refine State.wLoad_keepsE1 (by with_reducible assumption) ?_)
    | with_reducible apply KeepsW.mkGo
    | with_reducible apply KeepsW.mkPureGo
    | with_reducible apply KeepsW.mkOk
    | with_reducible apply KeepsW.mkPure
    | with_reducible apply KeepsW.mkErr
    | with_reducible apply KeepsW.mkThrow
    | with_reducible apply KeepsW.throwBind
    | with_reducible apply KeepsW.bindPair
    | with_reducible apply KeepsW.bind
    | intro _
    | split
    | simp only [Keeps.upd]

theorem execSseg_keeps {pq : List Instr} {c : Fin 13} {user : Bool} {n : Fin 8} {rs : Fin 32} {seg : Fin 8} {imm : BitVec 13} {s : State} (hs : State.Keeps pq s) :
    KeepsO pq (execSseg c user n rs seg imm s) := by
  unfold execSseg
  repeat' first
    | with_reducible assumption
    | (extract_lets -underBinder +onlyGivenNames -merge x; with_reducible refine Keeps.cut (pq := pq) x ?_ (fun _ => ?_); rotate_left; clear_value x; rotate_left; subst x)
    | (extract_lets -underBinder +onlyGivenNames -merge x; subst x)
    | with_reducible apply KeepsO.mk
    | with_reducible apply State.wRun_keeps
    | with_reducible apply State.wStore_keepsP
    | (with_reducible refine State.wStore_keepsE (by with_reducible assumption) ?_)
    | (with_reducible refine State.wStore_keepsE1 (by with_reducible assumption) ?_)
    | with_reducible apply KeepsW.mkGo
    | with_reducible apply KeepsW.mkPureGo
    | with_reducible apply KeepsW.mkOk
    | with_reducible apply KeepsW.mkPure
    | with_reducible apply KeepsW.mkErr
    | with_reducible apply KeepsW.mkThrow
    | with_reducible apply KeepsW.throwBind
    | with_reducible apply KeepsW.bindPair
    | with_reducible apply KeepsW.bind
    | intro _
    | split

theorem execBeq_keeps {pq : List Instr} {c : Fin 13} {ra rb : Fin 32} {off : BitVec 16} {s : State} (hs : State.Keeps pq s) :
    KeepsO pq (execBeq c ra rb off s) := by
  unfold execBeq
  repeat' first
    | with_reducible assumption
    | with_reducible apply KeepsO.mk
    | with_reducible apply State.wBranch_keeps
    | with_reducible apply KeepsW.mkGo
    | with_reducible apply KeepsW.mkPureGo
    | with_reducible apply KeepsW.mkOk
    | with_reducible apply KeepsW.mkPure
    | with_reducible apply KeepsW.mkErr
    | with_reducible apply KeepsW.mkThrow
    | with_reducible apply KeepsW.throwBind
    | with_reducible apply KeepsW.bindPair
    | with_reducible apply KeepsW.bind
    | intro _

theorem execBne_keeps {pq : List Instr} {c : Fin 13} {ra rb : Fin 32} {off : BitVec 16} {s : State} (hs : State.Keeps pq s) :
    KeepsO pq (execBne c ra rb off s) := by
  unfold execBne
  repeat' first
    | with_reducible assumption
    | with_reducible apply KeepsO.mk
    | with_reducible apply State.wBranch_keeps
    | with_reducible apply KeepsW.mkGo
    | with_reducible apply KeepsW.mkPureGo
    | with_reducible apply KeepsW.mkOk
    | with_reducible apply KeepsW.mkPure
    | with_reducible apply KeepsW.mkErr
    | with_reducible apply KeepsW.mkThrow
    | with_reducible apply KeepsW.throwBind
    | with_reducible apply KeepsW.bindPair
    | with_reducible apply KeepsW.bind
    | intro _

theorem execBlt_keeps {pq : List Instr} {c : Fin 13} {ra rb : Fin 32} {off : BitVec 16} {s : State} (hs : State.Keeps pq s) :
    KeepsO pq (execBlt c ra rb off s) := by
  unfold execBlt
  repeat' first
    | with_reducible assumption
    | with_reducible apply KeepsO.mk
    | with_reducible apply State.wBranch_keeps
    | with_reducible apply KeepsW.mkGo
    | with_reducible apply KeepsW.mkPureGo
    | with_reducible apply KeepsW.mkOk
    | with_reducible apply KeepsW.mkPure
    | with_reducible apply KeepsW.mkErr
    | with_reducible apply KeepsW.mkThrow
    | with_reducible apply KeepsW.throwBind
    | with_reducible apply KeepsW.bindPair
    | with_reducible apply KeepsW.bind
    | intro _

theorem execBge_keeps {pq : List Instr} {c : Fin 13} {ra rb : Fin 32} {off : BitVec 16} {s : State} (hs : State.Keeps pq s) :
    KeepsO pq (execBge c ra rb off s) := by
  unfold execBge
  repeat' first
    | with_reducible assumption
    | with_reducible apply KeepsO.mk
    | with_reducible apply State.wBranch_keeps
    | with_reducible apply KeepsW.mkGo
    | with_reducible apply KeepsW.mkPureGo
    | with_reducible apply KeepsW.mkOk
    | with_reducible apply KeepsW.mkPure
    | with_reducible apply KeepsW.mkErr
    | with_reducible apply KeepsW.mkThrow
    | with_reducible apply KeepsW.throwBind
    | with_reducible apply KeepsW.bindPair
    | with_reducible apply KeepsW.bind
    | intro _

theorem execBltu_keeps {pq : List Instr} {c : Fin 13} {ra rb : Fin 32} {off : BitVec 16} {s : State} (hs : State.Keeps pq s) :
    KeepsO pq (execBltu c ra rb off s) := by
  unfold execBltu
  repeat' first
    | with_reducible assumption
    | with_reducible apply KeepsO.mk
    | with_reducible apply State.wBranch_keeps
    | with_reducible apply KeepsW.mkGo
    | with_reducible apply KeepsW.mkPureGo
    | with_reducible apply KeepsW.mkOk
    | with_reducible apply KeepsW.mkPure
    | with_reducible apply KeepsW.mkErr
    | with_reducible apply KeepsW.mkThrow
    | with_reducible apply KeepsW.throwBind
    | with_reducible apply KeepsW.bindPair
    | with_reducible apply KeepsW.bind
    | intro _

theorem execBgeu_keeps {pq : List Instr} {c : Fin 13} {ra rb : Fin 32} {off : BitVec 16} {s : State} (hs : State.Keeps pq s) :
    KeepsO pq (execBgeu c ra rb off s) := by
  unfold execBgeu
  repeat' first
    | with_reducible assumption
    | with_reducible apply KeepsO.mk
    | with_reducible apply State.wBranch_keeps
    | with_reducible apply KeepsW.mkGo
    | with_reducible apply KeepsW.mkPureGo
    | with_reducible apply KeepsW.mkOk
    | with_reducible apply KeepsW.mkPure
    | with_reducible apply KeepsW.mkErr
    | with_reducible apply KeepsW.mkThrow
    | with_reducible apply KeepsW.throwBind
    | with_reducible apply KeepsW.bindPair
    | with_reducible apply KeepsW.bind
    | intro _

theorem execJ_keeps {pq : List Instr} {c : Fin 13} {off : BitVec 26} {s : State} (hs : State.Keeps pq s) :
    KeepsO pq (execJ c off s) := by
  unfold execJ
  repeat' first
    | with_reducible assumption
    | (rename_i e; with_reducible refine Keeps.ofSnd (pq := pq) e ?_ (fun _ => ?_) <;> clear e)
    | (rename_i e; with_reducible refine Keeps.ofFst (pq := pq) e ?_ (fun _ => ?_) <;> clear e)
    | with_reducible apply KeepsO.mk
    | with_reducible apply State.wRun_keeps
    | with_reducible apply KeepsW.mkGo
    | with_reducible apply KeepsW.mkPureGo
    | with_reducible apply KeepsW.mkOk
    | with_reducible apply KeepsW.mkPure
    | with_reducible apply KeepsW.mkErr
    | with_reducible apply KeepsW.mkThrow
    | with_reducible apply KeepsW.throwBind
    | with_reducible apply KeepsW.bindPair
    | with_reducible apply KeepsW.bind
    | intro _
    | simp only [Keeps.upd]

theorem execCall_keeps {pq : List Instr} {c : Fin 13} {off : BitVec 26} {s : State} (hs : State.Keeps pq s) :
    KeepsO pq (execCall c off s) := by
  unfold execCall
  repeat' first
    | with_reducible assumption
    | (rename_i e; with_reducible refine Keeps.ofSnd (pq := pq) e ?_ (fun _ => ?_) <;> clear e)
    | (rename_i e; with_reducible refine Keeps.ofFst (pq := pq) e ?_ (fun _ => ?_) <;> clear e)
    | (extract_lets -underBinder +onlyGivenNames -merge x; with_reducible refine Keeps.cut (pq := pq) x ?_ (fun _ => ?_); rotate_left; clear_value x; rotate_left; subst x)
    | (extract_lets -underBinder +onlyGivenNames -merge x; subst x)
    | with_reducible apply KeepsO.mk
    | with_reducible apply State.wRun_keeps
    | with_reducible apply State.wPushReturn_keepsP
    | (with_reducible refine State.wPushReturn_keepsE (by with_reducible assumption) ?_)
    | (with_reducible refine State.wPushReturn_keepsE1 (by with_reducible assumption) ?_)
    | with_reducible apply KeepsW.mkGo
    | with_reducible apply KeepsW.mkPureGo
    | with_reducible apply KeepsW.mkOk
    | with_reducible apply KeepsW.mkPure
    | with_reducible apply KeepsW.mkErr
    | with_reducible apply KeepsW.mkThrow
    | with_reducible apply KeepsW.throwBind
    | with_reducible apply KeepsW.bindPair
    | with_reducible apply KeepsW.bind
    | intro _
    | simp only [Keeps.upd]

theorem execJr_keeps {pq : List Instr} {c : Fin 13} {rs : Fin 32} {s : State} (hs : State.Keeps pq s) :
    KeepsO pq (execJr c rs s) := by
  unfold execJr
  repeat' first
    | with_reducible assumption
    | (rename_i e; with_reducible refine Keeps.ofSnd (pq := pq) e ?_ (fun _ => ?_) <;> clear e)
    | (rename_i e; with_reducible refine Keeps.ofFst (pq := pq) e ?_ (fun _ => ?_) <;> clear e)
    | with_reducible apply KeepsO.mk
    | with_reducible apply State.wRun_keeps
    | with_reducible apply KeepsW.mkGo
    | with_reducible apply KeepsW.mkPureGo
    | with_reducible apply KeepsW.mkOk
    | with_reducible apply KeepsW.mkPure
    | with_reducible apply KeepsW.mkErr
    | with_reducible apply KeepsW.mkThrow
    | with_reducible apply KeepsW.throwBind
    | with_reducible apply KeepsW.bindPair
    | with_reducible apply KeepsW.bind
    | intro _
    | simp only [Keeps.upd]

theorem execCallr_keeps {pq : List Instr} {c : Fin 13} {rs : Fin 32} {s : State} (hs : State.Keeps pq s) :
    KeepsO pq (execCallr c rs s) := by
  unfold execCallr
  repeat' first
    | with_reducible assumption
    | (rename_i e; with_reducible refine Keeps.ofSnd (pq := pq) e ?_ (fun _ => ?_) <;> clear e)
    | (rename_i e; with_reducible refine Keeps.ofFst (pq := pq) e ?_ (fun _ => ?_) <;> clear e)
    | (extract_lets -underBinder +onlyGivenNames -merge x; with_reducible refine Keeps.cut (pq := pq) x ?_ (fun _ => ?_); rotate_left; clear_value x; rotate_left; subst x)
    | (extract_lets -underBinder +onlyGivenNames -merge x; subst x)
    | with_reducible apply KeepsO.mk
    | with_reducible apply State.wRun_keeps
    | with_reducible apply State.wPushReturn_keepsP
    | (with_reducible refine State.wPushReturn_keepsE (by with_reducible assumption) ?_)
    | (with_reducible refine State.wPushReturn_keepsE1 (by with_reducible assumption) ?_)
    | with_reducible apply KeepsW.mkGo
    | with_reducible apply KeepsW.mkPureGo
    | with_reducible apply KeepsW.mkOk
    | with_reducible apply KeepsW.mkPure
    | with_reducible apply KeepsW.mkErr
    | with_reducible apply KeepsW.mkThrow
    | with_reducible apply KeepsW.throwBind
    | with_reducible apply KeepsW.bindPair
    | with_reducible apply KeepsW.bind
    | intro _
    | simp only [Keeps.upd]

theorem State.wLoop_keeps {pq : List Instr} {s : State} {c : Fin 13} {n : WickCore → Word} {off : BitVec 16} (hs : State.Keeps pq s) :
    State.Keeps pq (State.wLoop s c n off) := by
  unfold State.wLoop
  repeat' first
    | with_reducible assumption
    | (rename_i e; with_reducible refine Keeps.ofSnd (pq := pq) e ?_ (fun _ => ?_) <;> clear e)
    | (rename_i e; with_reducible refine Keeps.ofFst (pq := pq) e ?_ (fun _ => ?_) <;> clear e)
    | with_reducible apply State.wRun_keeps
    | with_reducible apply State.setWc_keeps
    | with_reducible apply KeepsW.mkGo
    | with_reducible apply KeepsW.mkPureGo
    | with_reducible apply KeepsW.mkOk
    | with_reducible apply KeepsW.mkPure
    | with_reducible apply KeepsW.mkErr
    | with_reducible apply KeepsW.mkThrow
    | with_reducible apply KeepsW.throwBind
    | with_reducible apply KeepsW.bindPair
    | with_reducible apply KeepsW.bind
    | intro _
    | split
    | simp only [Keeps.upd]

theorem execLoop_keeps {pq : List Instr} {c : Fin 13} {rs : Fin 32} {off : BitVec 16} {s : State} (hs : State.Keeps pq s) :
    KeepsO pq (execLoop c rs off s) := by
  unfold execLoop
  repeat' first
    | with_reducible assumption
    | with_reducible apply KeepsO.mk
    | with_reducible apply State.wLoop_keeps
    | with_reducible apply KeepsW.mkGo
    | with_reducible apply KeepsW.mkPureGo
    | with_reducible apply KeepsW.mkOk
    | with_reducible apply KeepsW.mkPure
    | with_reducible apply KeepsW.mkErr
    | with_reducible apply KeepsW.mkThrow
    | with_reducible apply KeepsW.throwBind
    | with_reducible apply KeepsW.bindPair
    | with_reducible apply KeepsW.bind
    | intro _

theorem execLoopi_keeps {pq : List Instr} {c : Fin 13} {count : BitVec 10} {off : BitVec 16} {s : State} (hs : State.Keeps pq s) :
    KeepsO pq (execLoopi c count off s) := by
  unfold execLoopi
  repeat' first
    | with_reducible assumption
    | with_reducible apply KeepsO.mk
    | with_reducible apply State.wLoop_keeps
    | with_reducible apply State.count_keeps
    | with_reducible apply KeepsW.mkGo
    | with_reducible apply KeepsW.mkPureGo
    | with_reducible apply KeepsW.mkOk
    | with_reducible apply KeepsW.mkPure
    | with_reducible apply KeepsW.mkErr
    | with_reducible apply KeepsW.mkThrow
    | with_reducible apply KeepsW.throwBind
    | with_reducible apply KeepsW.bindPair
    | with_reducible apply KeepsW.bind
    | intro _

theorem execRet_keeps {pq : List Instr} {c : Fin 13} {s : State} (hs : State.Keeps pq s) :
    KeepsO pq (execRet c s) := by
  unfold execRet
  repeat' first
    | with_reducible assumption
    | (rename_i e; with_reducible refine Keeps.ofSnd (pq := pq) e ?_ (fun _ => ?_) <;> clear e)
    | (rename_i e; with_reducible refine Keeps.ofFst (pq := pq) e ?_ (fun _ => ?_) <;> clear e)
    | (extract_lets -underBinder +onlyGivenNames -merge x; with_reducible refine Keeps.cut (pq := pq) x ?_ (fun _ => ?_); rotate_left; clear_value x; rotate_left; subst x)
    | (extract_lets -underBinder +onlyGivenNames -merge x; subst x)
    | with_reducible apply KeepsO.mk
    | with_reducible apply State.wRun_keeps
    | with_reducible apply State.wPopReturn_keepsP
    | (with_reducible refine State.wPopReturn_keepsE (by with_reducible assumption) ?_)
    | (with_reducible refine State.wPopReturn_keepsE1 (by with_reducible assumption) ?_)
    | with_reducible apply KeepsW.mkGo
    | with_reducible apply KeepsW.mkPureGo
    | with_reducible apply KeepsW.mkOk
    | with_reducible apply KeepsW.mkPure
    | with_reducible apply KeepsW.mkErr
    | with_reducible apply KeepsW.mkThrow
    | with_reducible apply KeepsW.throwBind
    | with_reducible apply KeepsW.bindPair
    | with_reducible apply KeepsW.bind
    | intro _
    | simp only [Keeps.upd]

theorem State.wEret_keeps {pq : List Instr} {s : State} {c : Fin 13} (hs : State.Keeps pq s) :
    State.Keeps pq (State.wEret s c) := by
  unfold State.wEret
  repeat' first
    | with_reducible assumption
    | (rename_i e; with_reducible refine Keeps.ofSnd (pq := pq) e ?_ (fun _ => ?_) <;> clear e)
    | (rename_i e; with_reducible refine Keeps.ofFst (pq := pq) e ?_ (fun _ => ?_) <;> clear e)
    | (extract_lets -underBinder +onlyGivenNames -merge x; with_reducible refine Keeps.cut (pq := pq) x ?_ (fun _ => ?_); rotate_left; clear_value x; rotate_left; subst x)
    | (extract_lets -underBinder +onlyGivenNames -merge x; subst x)
    | with_reducible apply State.wRun_keeps
    | with_reducible apply State.setWc_keeps
    | with_reducible apply State.wRead_keepsP
    | (with_reducible refine State.wRead_keepsE (by with_reducible assumption) ?_)
    | (with_reducible refine State.wRead_keepsE1 (by with_reducible assumption) ?_)
    | with_reducible apply KeepsW.mkGo
    | with_reducible apply KeepsW.mkPureGo
    | with_reducible apply KeepsW.mkOk
    | with_reducible apply KeepsW.mkPure
    | with_reducible apply KeepsW.mkErr
    | with_reducible apply KeepsW.mkThrow
    | with_reducible apply KeepsW.throwBind
    | with_reducible apply KeepsW.bindPair
    | with_reducible apply KeepsW.bind
    | intro _
    | split
    | simp only [Keeps.upd]

theorem execEret_keeps {pq : List Instr} {c : Fin 13} {s : State} (hs : State.Keeps pq s) :
    KeepsO pq (execEret c s) := by
  unfold execEret
  repeat' first
    | with_reducible assumption
    | with_reducible apply KeepsO.mk
    | with_reducible apply State.wEret_keeps
    | with_reducible apply KeepsW.mkGo
    | with_reducible apply KeepsW.mkPureGo
    | with_reducible apply KeepsW.mkOk
    | with_reducible apply KeepsW.mkPure
    | with_reducible apply KeepsW.mkErr
    | with_reducible apply KeepsW.mkThrow
    | with_reducible apply KeepsW.throwBind
    | with_reducible apply KeepsW.bindPair
    | with_reducible apply KeepsW.bind

theorem execTrap_keeps {pq : List Instr} {c : Fin 13} {code : BitVec 15} {s : State} (hs : State.Keeps pq s) :
    KeepsO pq (execTrap c code s) := by
  unfold execTrap
  repeat' first
    | with_reducible assumption
    | (rename_i e; with_reducible refine Keeps.ofSnd (pq := pq) e ?_ (fun _ => ?_) <;> clear e)
    | (rename_i e; with_reducible refine Keeps.ofFst (pq := pq) e ?_ (fun _ => ?_) <;> clear e)
    | with_reducible apply KeepsO.mk
    | with_reducible apply State.wRun_keeps
    | with_reducible apply KeepsW.mkGo
    | with_reducible apply KeepsW.mkPureGo
    | with_reducible apply KeepsW.mkOk
    | with_reducible apply KeepsW.mkPure
    | with_reducible apply KeepsW.mkErr
    | with_reducible apply KeepsW.mkThrow
    | with_reducible apply KeepsW.throwBind
    | with_reducible apply KeepsW.bindPair
    | with_reducible apply KeepsW.bind
    | intro _
    | simp only [Keeps.upd]

theorem execBrk_keeps {pq : List Instr} {c : Fin 13} {s : State} (hs : State.Keeps pq s) :
    KeepsO pq (execBrk c s) := by
  unfold execBrk
  repeat' first
    | with_reducible assumption
    | with_reducible apply KeepsO.mk
    | with_reducible apply State.wRun_keeps
    | with_reducible apply State.setWc_keeps
    | with_reducible apply KeepsW.mkGo
    | with_reducible apply KeepsW.mkPureGo
    | with_reducible apply KeepsW.mkOk
    | with_reducible apply KeepsW.mkPure
    | with_reducible apply KeepsW.mkErr
    | with_reducible apply KeepsW.mkThrow
    | with_reducible apply KeepsW.throwBind
    | with_reducible apply KeepsW.bindPair
    | with_reducible apply KeepsW.bind
    | intro _
    | split
    | simp only [Keeps.upd]

theorem execWait_keeps {pq : List Instr} {c : Fin 13} {s : State} (hs : State.Keeps pq s) :
    KeepsO pq (execWait c s) := by
  unfold execWait
  repeat' first
    | with_reducible assumption
    | with_reducible apply KeepsO.mk
    | with_reducible apply State.wRun_keeps
    | with_reducible apply State.setWc_keeps
    | with_reducible apply KeepsW.mkGo
    | with_reducible apply KeepsW.mkPureGo
    | with_reducible apply KeepsW.mkOk
    | with_reducible apply KeepsW.mkPure
    | with_reducible apply KeepsW.mkErr
    | with_reducible apply KeepsW.mkThrow
    | with_reducible apply KeepsW.throwBind
    | with_reducible apply KeepsW.bindPair
    | with_reducible apply KeepsW.bind
    | intro _
    | split
    | simp only [Keeps.upd]

theorem execAtom_keeps {pq : List Instr} {c : Fin 13} {n : Fin 16} {s : State} (hs : State.Keeps pq s) :
    KeepsO pq (execAtom c n s) := by
  unfold execAtom
  repeat' first
    | with_reducible assumption
    | with_reducible apply KeepsO.mk
    | with_reducible apply State.wRun_keeps
    | with_reducible apply State.setWc_keeps
    | with_reducible apply KeepsW.mkGo
    | with_reducible apply KeepsW.mkPureGo
    | with_reducible apply KeepsW.mkOk
    | with_reducible apply KeepsW.mkPure
    | with_reducible apply KeepsW.mkErr
    | with_reducible apply KeepsW.mkThrow
    | with_reducible apply KeepsW.throwBind
    | with_reducible apply KeepsW.bindPair
    | with_reducible apply KeepsW.bind
    | intro _
    | split
    | simp only [Keeps.upd]

theorem execPush_keeps {pq : List Instr} {c : Fin 13} {rs : Fin 32} {s : State} (hs : State.Keeps pq s) :
    KeepsO pq (execPush c rs s) := by
  unfold execPush
  repeat' first
    | with_reducible assumption
    | (extract_lets -underBinder +onlyGivenNames -merge x; with_reducible refine Keeps.cut (pq := pq) x ?_ (fun _ => ?_); rotate_left; clear_value x; rotate_left; subst x)
    | (extract_lets -underBinder +onlyGivenNames -merge x; subst x)
    | with_reducible apply KeepsO.mk
    | with_reducible apply State.wRun_keeps
    | with_reducible apply State.setWc_keeps
    | with_reducible apply State.wStore_keepsP
    | (with_reducible refine State.wStore_keepsE (by with_reducible assumption) ?_)
    | (with_reducible refine State.wStore_keepsE1 (by with_reducible assumption) ?_)
    | with_reducible apply KeepsW.mkGo
    | with_reducible apply KeepsW.mkPureGo
    | with_reducible apply KeepsW.mkOk
    | with_reducible apply KeepsW.mkPure
    | with_reducible apply KeepsW.mkErr
    | with_reducible apply KeepsW.mkThrow
    | with_reducible apply KeepsW.throwBind
    | with_reducible apply KeepsW.bindPair
    | with_reducible apply KeepsW.bind
    | intro _

theorem execPop_keeps {pq : List Instr} {c : Fin 13} {rd : Fin 32} {s : State} (hs : State.Keeps pq s) :
    KeepsO pq (execPop c rd s) := by
  unfold execPop
  repeat' first
    | with_reducible assumption
    | (rename_i e; with_reducible refine Keeps.ofSnd (pq := pq) e ?_ (fun _ => ?_) <;> clear e)
    | (rename_i e; with_reducible refine Keeps.ofFst (pq := pq) e ?_ (fun _ => ?_) <;> clear e)
    | (extract_lets -underBinder +onlyGivenNames -merge x; with_reducible refine Keeps.cut (pq := pq) x ?_ (fun _ => ?_); rotate_left; clear_value x; rotate_left; subst x)
    | (extract_lets -underBinder +onlyGivenNames -merge x; subst x)
    | with_reducible apply KeepsO.mk
    | with_reducible apply State.wRun_keeps
    | with_reducible apply State.setWc_keeps
    | with_reducible apply State.wLoad_keepsP
    | (with_reducible refine State.wLoad_keepsE (by with_reducible assumption) ?_)
    | (with_reducible refine State.wLoad_keepsE1 (by with_reducible assumption) ?_)
    | with_reducible apply KeepsW.mkGo
    | with_reducible apply KeepsW.mkPureGo
    | with_reducible apply KeepsW.mkOk
    | with_reducible apply KeepsW.mkPure
    | with_reducible apply KeepsW.mkErr
    | with_reducible apply KeepsW.mkThrow
    | with_reducible apply KeepsW.throwBind
    | with_reducible apply KeepsW.bindPair
    | with_reducible apply KeepsW.bind
    | intro _
    | simp only [Keeps.upd]

theorem execMfs_keeps {pq : List Instr} {c : Fin 13} {rd : Fin 32} {sr : Fin 32} {s : State} (hs : State.Keeps pq s) :
    KeepsO pq (execMfs c rd sr s) := by
  unfold execMfs
  repeat' first
    | with_reducible assumption
    | (extract_lets -underBinder +onlyGivenNames -merge x; with_reducible refine Keeps.cut (pq := pq) x ?_ (fun _ => ?_); rotate_left; clear_value x; rotate_left; subst x)
    | (extract_lets -underBinder +onlyGivenNames -merge x; subst x)
    | with_reducible apply KeepsO.mk
    | with_reducible apply State.specialRead_keeps
    | with_reducible apply State.wRun_keeps
    | with_reducible apply State.setWc_keeps
    | with_reducible apply State.setReg_keeps
    | with_reducible apply KeepsW.mkGo
    | with_reducible apply KeepsW.mkPureGo
    | with_reducible apply KeepsW.mkOk
    | with_reducible apply KeepsW.mkPure
    | with_reducible apply KeepsW.mkErr
    | with_reducible apply KeepsW.mkThrow
    | with_reducible apply KeepsW.throwBind
    | with_reducible apply KeepsW.bindPair
    | with_reducible apply KeepsW.bind
    | intro _
    | split

theorem execMts_keeps {pq : List Instr} {c : Fin 13} {sr : Fin 32} {rs : Fin 32} {s : State} (hs : State.Keeps pq s) :
    KeepsO pq (execMts c sr rs s) := by
  unfold execMts
  repeat' first
    | with_reducible assumption
    | with_reducible apply KeepsO.mk
    | with_reducible apply State.wRun_keeps
    | with_reducible apply State.setWc_keeps
    | with_reducible apply KeepsW.mkGo
    | with_reducible apply KeepsW.mkPureGo
    | with_reducible apply KeepsW.mkOk
    | with_reducible apply KeepsW.mkPure
    | with_reducible apply KeepsW.mkErr
    | with_reducible apply KeepsW.mkThrow
    | with_reducible apply KeepsW.throwBind
    | with_reducible apply KeepsW.bindPair
    | with_reducible apply KeepsW.bind
    | intro _
    | split

theorem execLbrk_keeps {pq : List Instr} {c : Fin 13} {s : State} (hs : State.Keeps pq s) :
    KeepsO pq (execLbrk c s) := by
  unfold execLbrk
  repeat' first
    | with_reducible assumption
    | with_reducible apply KeepsO.mk
    | with_reducible apply State.wRun_keeps
    | with_reducible apply State.setWc_keeps
    | with_reducible apply KeepsW.mkGo
    | with_reducible apply KeepsW.mkPureGo
    | with_reducible apply KeepsW.mkOk
    | with_reducible apply KeepsW.mkPure
    | with_reducible apply KeepsW.mkErr
    | with_reducible apply KeepsW.mkThrow
    | with_reducible apply KeepsW.throwBind
    | with_reducible apply KeepsW.bindPair
    | with_reducible apply KeepsW.bind
    | intro _
    | simp only [Keeps.upd]

theorem execFence_keeps {pq : List Instr} {c : Fin 13} {s : State} (hs : State.Keeps pq s) :
    KeepsO pq (execFence c s) := by
  unfold execFence
  repeat' first
    | with_reducible assumption
    | with_reducible apply KeepsO.mk
    | with_reducible apply State.wRun_keeps
    | with_reducible apply KeepsW.mkGo
    | with_reducible apply KeepsW.mkPureGo
    | with_reducible apply KeepsW.mkOk
    | with_reducible apply KeepsW.mkPure
    | with_reducible apply KeepsW.mkErr
    | with_reducible apply KeepsW.mkThrow
    | with_reducible apply KeepsW.throwBind
    | with_reducible apply KeepsW.bindPair
    | with_reducible apply KeepsW.bind
    | intro _

theorem execCwb_keeps {pq : List Instr} {c : Fin 13} {rs : Fin 32} {seg : Fin 8} {s : State} (hs : State.Keeps pq s) :
    KeepsO pq (execCwb c rs seg s) := by
  unfold execCwb
  repeat' first
    | with_reducible assumption
    | with_reducible apply KeepsO.mk
    | with_reducible apply State.wRun_keeps
    | with_reducible apply State.wWriteBack_keeps
    | with_reducible apply KeepsW.mkGo
    | with_reducible apply KeepsW.mkPureGo
    | with_reducible apply KeepsW.mkOk
    | with_reducible apply KeepsW.mkPure
    | with_reducible apply KeepsW.mkErr
    | with_reducible apply KeepsW.mkThrow
    | with_reducible apply KeepsW.throwBind
    | with_reducible apply KeepsW.bindPair
    | with_reducible apply KeepsW.bind
    | intro _

theorem execCinv_keeps {pq : List Instr} {c : Fin 13} {rs : Fin 32} {seg : Fin 8} {s : State} (hs : State.Keeps pq s) :
    KeepsO pq (execCinv c rs seg s) := by
  unfold execCinv
  repeat' first
    | with_reducible assumption
    | with_reducible apply KeepsO.mk
    | with_reducible apply State.wInvalidate_keeps
    | with_reducible apply State.wRun_keeps
    | with_reducible apply KeepsW.mkGo
    | with_reducible apply KeepsW.mkPureGo
    | with_reducible apply KeepsW.mkOk
    | with_reducible apply KeepsW.mkPure
    | with_reducible apply KeepsW.mkErr
    | with_reducible apply KeepsW.mkThrow
    | with_reducible apply KeepsW.throwBind
    | with_reducible apply KeepsW.bindPair
    | with_reducible apply KeepsW.bind
    | intro _

theorem execIinv_keeps {pq : List Instr} {c : Fin 13} {s : State} (hs : State.Keeps pq s) :
    KeepsO pq (execIinv c s) := by
  unfold execIinv
  repeat' first
    | with_reducible assumption
    | with_reducible apply KeepsO.mk
    | with_reducible apply State.wRun_keeps
    | with_reducible apply State.setWc_keeps
    | with_reducible apply KeepsW.mkGo
    | with_reducible apply KeepsW.mkPureGo
    | with_reducible apply KeepsW.mkOk
    | with_reducible apply KeepsW.mkPure
    | with_reducible apply KeepsW.mkErr
    | with_reducible apply KeepsW.mkThrow
    | with_reducible apply KeepsW.throwBind
    | with_reducible apply KeepsW.bindPair
    | with_reducible apply KeepsW.bind
    | intro _
    | simp only [Keeps.upd]

theorem State.wInterrupt_keeps {pq : List Instr} {s : State} {c : Fin 13} (hs : State.Keeps pq s) :
    State.Keeps pq (State.wInterrupt s c) := by
  unfold State.wInterrupt
  repeat' first
    | with_reducible assumption
    | (rename_i e; with_reducible refine Keeps.ofSnd (pq := pq) e ?_ (fun _ => ?_) <;> clear e)
    | (rename_i e; with_reducible refine Keeps.ofFst (pq := pq) e ?_ (fun _ => ?_) <;> clear e)
    | (extract_lets -underBinder +onlyGivenNames -merge x; with_reducible refine Keeps.cut (pq := pq) x ?_ (fun _ => ?_); rotate_left; clear_value x; rotate_left; subst x)
    | (extract_lets -underBinder +onlyGivenNames -merge x; subst x)
    | with_reducible apply State.wWake_keeps
    | with_reducible apply State.wRaise_keeps
    | with_reducible apply KeepsW.mkGo
    | with_reducible apply KeepsW.mkPureGo
    | with_reducible apply KeepsW.mkOk
    | with_reducible apply KeepsW.mkPure
    | with_reducible apply KeepsW.mkErr
    | with_reducible apply KeepsW.mkThrow
    | with_reducible apply KeepsW.throwBind
    | with_reducible apply KeepsW.bindPair
    | with_reducible apply KeepsW.bind
    | split
    | simp only [Keeps.upd]

theorem execInterruptEntry_keeps {pq : List Instr} {c : Fin 13} {s : State} (hs : State.Keeps pq s) :
    KeepsO pq (execInterruptEntry c s) := by
  unfold execInterruptEntry
  repeat' first
    | with_reducible assumption
    | with_reducible apply KeepsO.mk
    | with_reducible apply State.wInterrupt_keeps
    | with_reducible apply KeepsW.mkGo
    | with_reducible apply KeepsW.mkPureGo
    | with_reducible apply KeepsW.mkOk
    | with_reducible apply KeepsW.mkPure
    | with_reducible apply KeepsW.mkErr
    | with_reducible apply KeepsW.mkThrow
    | with_reducible apply KeepsW.throwBind
    | with_reducible apply KeepsW.bindPair
    | with_reducible apply KeepsW.bind

end Sys2Proof.Machine
end

