-- ==== Sys2Proof/Laws/Slots.lean ====
section
/-! SUPPORT. What carrying out a command of a ring comes to: the entry that is ready, its checks, its completion, and the parts
of the state that a completion leaves alone. -/

namespace Sys2Proof.Machine

theorem State.ready_spec {s : State} {n op : Nat} {x : Slot} (h : s.ready n op = some x) :
    s.slot n = some x ∧ x.phase = .accepted ∧ x.op = op ∧ s.live = true := by
  unfold State.ready at h
  split at h
  · split at h
    · rename_i hc
      injection h with h
      subst h
      simp only [Bool.and_eq_true, beq_iff_eq] at hc
      exact ⟨by assumption, hc.1.1.1, hc.1.1.2, hc.1.2⟩
    · cases h
  · cases h

theorem State.command_passes {s : State} {n op : Nat} {x : Slot} {checks : Slot → List (Bool × Deny)} {f : Slot → State}
    (h : s.ready n op = some x) (hp : Passes (checks x)) : s.command n op checks f = f x := by
  unfold State.command
  rw [h]
  simp only
  rw [show firstDeny (checks x) = none from hp]

theorem State.command_denied {s : State} {n op : Nat} {x : Slot} {d : Deny} {checks : Slot → List (Bool × Deny)}
    {f : Slot → State} (h : s.ready n op = some x) (hp : firstDeny (checks x) = some d) :
    s.command n op checks f = s.deny n d := by
  unfold State.command
  rw [h]
  simp only
  rw [hp]

theorem State.setFeature_passes {s : State} {n k : Nat} {x : Slot} {f : Slot → State} (h : s.ready n 0x07 = some x)
    (hk : x.field 16 1 = k) (hp : Passes (s.featureChecks x)) : s.setFeature n k f = f x := by
  unfold State.setFeature
  rw [h]
  simp only [hk, if_true]
  exact State.command_passes h hp

theorem State.stageCommand_passes {s : State} {n k : Nat} {x : Slot} {checks : Slot → List (Bool × Deny)} {f : Slot → State}
    (h : s.ready n 0x09 = some x) (hk : x.field 16 1 = k) (hp : Passes (checks x)) :
    s.stageCommand n k checks f = f x := by
  unfold State.stageCommand
  rw [h]
  simp only [hk, if_true]
  exact State.command_passes h hp

theorem passes_append {a b : List (Bool × Deny)} : Passes (a ++ b) ↔ Passes a ∧ Passes b := by
  unfold Passes
  induction a with
  | nil => simp [firstDeny]
  | cons e t ih =>
    obtain ⟨c, d⟩ := e
    cases c
    · simpa [firstDeny] using ih
    · simp [firstDeny]

theorem passes_cons {c : Bool} {d : Deny} {t : List (Bool × Deny)} : Passes ((c, d) :: t) ↔ c = false ∧ Passes t := by
  unfold Passes
  cases c <;> simp [firstDeny]

theorem passes_nil : Passes [] := rfl

theorem State.channelOn_passes {s : State} {n k : Nat} {x : Slot} {extra : Slot → List (Bool × Deny)} {from_ : ChSt → Bool}
    {f : State → Fin 64 → Channel → Slot → State} (h : s.ready n 0x26 = some x) (hk : x.field 16 1 = k)
    (hp : Passes (extra x ++ [s.handleBad x.fn x.handle 5 8])) (hf : from_ (s.chan x.channel).st = true) :
    s.channelOn n k extra from_ f = f s (Fin.ofNat 64 x.channel) (s.chan x.channel) x := by
  unfold State.channelOn State.channelCommand
  rw [h]
  simp only [hk, if_true]
  rw [State.command_passes h]
  obtain ⟨p1, p2⟩ := passes_append.mp hp
  refine passes_append.mpr ⟨p1, ?_⟩
  have p3 : Passes ([s.handleBad x.fn x.handle 5 8] ++ [(!from_ (s.chan x.channel).st, (⟨.busy, none⟩ : Deny))]) :=
    passes_append.mpr ⟨p2, passes_cons.mpr ⟨by simp [hf], passes_nil⟩⟩
  simpa using p3

theorem State.runCcw_ok {s t : State} {c : Nat} {w b : List Byte} {mine : Nat → Bool} {f : State → List Byte → State}
    (h : s.beginCcw c w mine = .ok (t, b)) : s.runCcw c w mine f = f t b := by
  unfold State.runCcw
  rw [h]

/-- A CONTROL order on a peripheral that is granted, allowed and free is carried out. -/
theorem State.ccwOrder_ok {s t : State} {c : Nat} {w b order : List Byte} {kind : PKind} {code : Nat} {l : List (DWord × Nat)}
    {f : State → Nat → List Byte → State} (h1 : periph (ccwSubch (s.nextCcw c w)) = some kind)
    (h2 : fieldLe (s.orderBlock (s.nextCcw c w) order) 0 1 = code) (h3 : orderOk kind (s.orderBlock (s.nextCcw c w) order) = true)
    (h4 : s.beginCcw c w (· == 0x03) = .ok (t, b)) (h5 : t.subGranted c (ccwSubch (s.nextCcw c w)) = true)
    (h6 : ccwExtFields (ccwSubch (s.nextCcw c w)) b = true) (h7 : ccwCount b ≤ 16777215)
    (h8 : t.ccwAreas b 32 [ccwAddr b] = .ok l) (h9 : (t.takeSubch c (ccwSubch (s.nextCcw c w))).2 = true)
    (h10 : (isDevice (ccwAddr b) && t.poisonIn (spaceOff (ccwAddr b)) 32 != []) = false) :
    s.ccwOrder c w order kind code f =
      f (t.takeSubch c (ccwSubch (s.nextCcw c w))).1 (ccwSubch (s.nextCcw c w)) (s.orderBlock (s.nextCcw c w) order) := by
  unfold State.ccwOrder
  have h7' : ¬ (16777215 < ccwCount b) := by omega
  simp only [h1, h2, beq_self_eq_true, Bool.true_and, Bool.true_or, Bool.not_true, Bool.false_eq_true, if_false]
  rw [State.runCcw_ok h4]
  simp only [h5, h6, h7', h8, h9, h10, h3, Option.isNone_some, Bool.not_true, Bool.false_eq_true, if_false, or_self]

@[simp] theorem State.slot_setSlot {s : State} {n : Nat} {y : Slot} : (s.setSlot n (some y)).slot n = some y := by
  simp [State.slot, State.setSlot, Table.get_set_some]

@[simp] theorem State.sq_setSlot {s : State} {n k : Nat} {y : Option Slot} : (s.setSlot n y).sq k = s.sq k := rfl
@[simp] theorem State.cq_setSlot {s : State} {n k : Nat} {y : Option Slot} : (s.setSlot n y).cq k = s.cq k := rfl
@[simp] theorem State.slot_setSq {s : State} {n k : Nat} {y : Sq} : (s.setSq k y).slot n = s.slot n := rfl
@[simp] theorem State.slot_setCq {s : State} {n k : Nat} {y : Cq} : (s.setCq k y).slot n = s.slot n := rfl
@[simp] theorem State.slot_hostWrite {s : State} {n a : Nat} {l : List Byte} : (s.hostWrite a l).slot n = s.slot n := rfl

/-- What raising a source changes: the interrupt controller and the messages that leave. -/
theorem State.hostCheck_frame {s : State} : ∃ i o, s.hostCheck = { s with icu := i, out := o } := by
  unfold State.hostCheck
  extract_lets a s1 v
  split
  · exact ⟨_, _, rfl⟩
  · exact ⟨_, _, rfl⟩

theorem State.raise_frame {s : State} {n : Nat} : ∃ i o, s.raise n = { s with icu := i, out := o } := by
  unfold State.raise
  split
  · obtain ⟨i, o, h⟩ := State.hostCheck_frame (s := { s with icu.pend := s.icu.pend ||| BitVec.ofNat 1024 (1 <<< n) })
    exact ⟨i, o, h⟩
  · exact ⟨_, _, rfl⟩

@[simp] theorem State.slot_raise {s : State} {n a : Nat} : (s.raise a).slot n = s.slot n := by
  obtain ⟨i, o, h⟩ := State.raise_frame (s := s) (n := a)
  rw [h]; rfl

theorem State.sq_setSq_same {s : State} {k : Nat} {y : Sq} (h : y.state ≠ .absent) : (s.setSq k y).sq k = y := by
  have : y ≠ Sq.absent := fun e => h (by rw [e]; rfl)
  simp [State.sq, State.setSq, Table.get_set_some this]

theorem State.cq_setCq_same {s : State} {k : Nat} {y : Cq} (h : y.state ≠ .absent) : (s.setCq k y).cq k = y := by
  have : y ≠ Cq.absent := fun e => h (by rw [e]; rfl)
  simp [State.cq, State.setCq, Table.get_set_some this]

/-- A command that is accepted or runs finishes. -/
theorem State.finished_finish {s : State} {n : Nat} {x : Slot} {st : Status} {r0 r1 : Nat} {d : Option Nat}
    (h : s.slot n = some x) (hp : x.phase = .accepted ∨ x.phase = .running) : Finished (s.finish n st r0 r1 d) n st r0 r1 := by
  unfold State.finish
  rw [h]
  rcases hp with hp | hp <;> simp only [hp] <;> exact ⟨_, State.slot_setSlot, rfl, rfl, rfl, rfl⟩

/-- What a completion changes: the slots and the number of completions that have been held. -/
theorem State.finish_frame {s : State} {n : Nat} {st : Status} {r0 r1 : Nat} {d : Option Nat} :
    ∃ sl k, s.finish n st r0 r1 d = { s with qm.slots := sl, qm.finishNo := k } := by
  unfold State.finish
  split
  · exact ⟨_, _, rfl⟩
  · split
    · exact ⟨_, _, rfl⟩
    · exact ⟨_, _, rfl⟩
    · exact ⟨_, _, rfl⟩

@[simp] theorem State.finish_sq {s : State} {n k : Nat} {st : Status} {r0 r1 : Nat} {d : Option Nat} :
    (s.finish n st r0 r1 d).sq k = s.sq k := by
  obtain ⟨a, b, h⟩ := State.finish_frame (s := s) (n := n) (st := st) (r0 := r0) (r1 := r1) (d := d)
  rw [h]; rfl
@[simp] theorem State.finish_cq {s : State} {n k : Nat} {st : Status} {r0 r1 : Nat} {d : Option Nat} :
    (s.finish n st r0 r1 d).cq k = s.cq k := by
  obtain ⟨a, b, h⟩ := State.finish_frame (s := s) (n := n) (st := st) (r0 := r0) (r1 := r1) (d := d)
  rw [h]; rfl
@[simp] theorem State.finish_host {s : State} {n : Nat} {st : Status} {r0 r1 : Nat} {d : Option Nat} :
    (s.finish n st r0 r1 d).host = s.host := by
  obtain ⟨a, b, h⟩ := State.finish_frame (s := s) (n := n) (st := st) (r0 := r0) (r1 := r1) (d := d)
  rw [h]
@[simp] theorem State.finish_stage {s : State} {n : Nat} {st : Status} {r0 r1 : Nat} {d : Option Nat} :
    (s.finish n st r0 r1 d).stage = s.stage := by
  obtain ⟨a, b, h⟩ := State.finish_frame (s := s) (n := n) (st := st) (r0 := r0) (r1 := r1) (d := d)
  rw [h]
@[simp] theorem State.finish_codec {s : State} {n : Nat} {st : Status} {r0 r1 : Nat} {d : Option Nat} :
    (s.finish n st r0 r1 d).codec = s.codec := by
  obtain ⟨a, b, h⟩ := State.finish_frame (s := s) (n := n) (st := st) (r0 := r0) (r1 := r1) (d := d)
  rw [h]
@[simp] theorem State.finish_cmp {s : State} {n : Nat} {st : Status} {r0 r1 : Nat} {d : Option Nat} :
    (s.finish n st r0 r1 d).cmp = s.cmp := by
  obtain ⟨a, b, h⟩ := State.finish_frame (s := s) (n := n) (st := st) (r0 := r0) (r1 := r1) (d := d)
  rw [h]

end Sys2Proof.Machine
end

