-- ==== Sys2Proof/Laws/Wick.lean ====
section
/-! SUPPORT. What an instruction of a Wick core comes to, once for all instructions: the end that its meaning gives, or its
exception. -/

namespace Sys2Proof.Machine

theorem State.wRun_ok {s t : State} {c : Fin 13} {kernel : Bool} {f : State → WickCore → WResult} {d : WDone}
    (h : Executes s c kernel t) (hf : f t (t.wc c) = .ok d) : s.wRun c kernel f = ended s c d := by
  obtain ⟨h1, h2, h3, h4, h5, h6, h7, h8⟩ := h
  unfold State.wRun ended
  have h9 : (kernel && ((s.wWake c).wc c).u) = false := by
    cases kernel
    · rfl
    · simpa using h8 rfl
  extract_lets s0 k s1 raise
  have g1 : (!s.wickUp c || k.halted || k.locked || k.waiting || (k.haltReq && k.boundary && !k.stepping)) = false := by
    rw [h1, h2, h3, h4, h5]; rfl
  rw [g1, h6]
  simp only [Bool.false_eq_true, if_false]
  have g7 : s1.wFetch c = .ok t := h7
  rw [g7, h9]
  simp only [Bool.false_eq_true, if_false]
  rw [hf]

theorem State.wRun_error {s t u : State} {c : Fin 13} {kernel : Bool} {f : State → WickCore → WResult} {e : WExc}
    (h : Executes s c kernel t) (hf : f t (t.wc c) = .error (e, u)) : s.wRun c kernel f = raised s u c e := by
  obtain ⟨h1, h2, h3, h4, h5, h6, h7, h8⟩ := h
  unfold State.wRun raised
  have h9 : (kernel && ((s.wWake c).wc c).u) = false := by
    cases kernel
    · rfl
    · simpa using h8 rfl
  extract_lets s0 k s1 raise
  have g1 : (!s.wickUp c || k.halted || k.locked || k.waiting || (k.haltReq && k.boundary && !k.stepping)) = false := by
    rw [h1, h2, h3, h4, h5]; rfl
  rw [g1, h6]
  simp only [Bool.false_eq_true, if_false]
  have g7 : s1.wFetch c = .ok t := h7
  rw [g7, h9]
  simp only [Bool.false_eq_true, if_false]
  rw [hf]

end Sys2Proof.Machine
end

