-- ==== Sys2Proof/WellFormed.lean ====
section
/-!
DEFINITION. WellFormed.lean: which terms of `Instr` spell a command or an event that can occur: the sizes of the byte strings
that the spec fixes, register offsets within BAR0, and the numbers of units that an operand's type does not bound.
`exec` gives every term a meaning; this says which terms the outside world can form.
-/
namespace Sys2Proof

/-- A register's offset: a word of BAR0's 8 MiB (R31), as the live or the staging view (R18). -/
def okOffset (off : Nat) : Bool := off % 4 == 0 && decide (off < 0x800000)

/-- A CCW: 16 bytes, or 32 to 80 bytes with its extension (R251). -/
def okCcw (w : List Byte) : Bool := decide (16 ≤ w.length) && decide (w.length ≤ 80) && w.length % 16 == 0

/-- Bytes of submission slots: whole slots of 16 bytes (R64). -/
def okSlots (b : List Byte) : Bool := decide (b.length ≠ 0) && b.length % 16 == 0

/-- A resource whose numbers lie within the device's: 16 banks and their rows, DRAM, and the sources of Table 14-2. -/
def okResource : Resource → Bool
  | .core _ | .lane _ | .pseudoChannel _ _ => true
  | .sramRow _ row => decide (row < 8192)
  | .dramRow a => decide (a < 0x800000000)
  | .isolated source index => decide (source < 1024) && decide (index < 64)

/-- A reading of the 14 temperature sensors and the 10 rails (R447). -/
def okReading (r : SensorReading) : Bool := r.temps.length == 14 && r.rails.length == 10

/-- What a start finds: one entry for each of the three images, and offsets of blob pairs within the live view. -/
def okBoot (b : BootFacts) : Bool := b.images.length == 3 && b.blobPairs.all (fun p => okOffset p.1)

/-- What a fetch returned: whole slots. -/
def okFetch : FetchResult → Bool
  | .data b | .poisoned b => okSlots b
  | .failed => true

/-- Ledger errors name one of the laws' units (R393): at most 65,536 instances of a law. -/
def okErrs (l : List LedgerErr) : Bool := l.all (fun e => decide (e.index < 196608))

/-- The terms that spell a command or event which can occur. -/
def wellFormed : Instr → Bool
  | .registerWrite _ off _ | .stagingWrite _ off _ => okOffset off
  | .entryFetched _ _ r => okFetch r
  | .sensorSample r => okReading r
  | .bootStepEnd b => okBoot b
  | .selfTestEnd r _ => okResource r
  | .debugChallenge nonce => nonce.length == 32
  | .frameHeadLookup _ h => decide (1 ≤ h.length) && decide (h.length ≤ 128)
  | .ccwWrite _ w _ _ | .ccwRead _ w _ | .ccwSense _ w _ => okCcw w
  | .ccwNop _ w | .ccwTic _ w | .ccwWaitTick _ w | .ccwWaitEvent _ w | .ccwSetTimer _ w | .ccwPost _ w | .ccwCall _ w
  | .ccwDecode _ w | .ccwEncode _ w | .ccwCompose _ w _ | .ccwSend _ w _ | .ccwControlStage _ w _ => okCcw w
  | .statusRing _ w _ | .uartConfig _ w _ | .uartBreak _ w _ | .spiConfig _ w _ | .i2cConfig _ w _ | .busClear _ w _ _
  | .canConfig _ w _ | .canFilter _ w _ | .canRecover _ w _ | .i2sConfig _ w _ | .gpioDrive _ w _ | .gpioDirection _ w _
  | .gpioPulse _ w _ | .gpioEvent _ w _ => okCcw w
  | .patrolScrub _ a => a % 8 == 0 && decide (a < 0x1000800000)
  | .auditEnd errs => okErrs errs
  | .fabricAccessTimeout _ _ _ a => decide (a < 2 ^ 64)
  | _ => true

end Sys2Proof
end

