-- ==== Sys2Proof/Tests/Slice0.lean ====
section
/-!
SUPPORT. Tests/Slice0.lean: the smoke test of WellFormed; and for each obligation with hypotheses a theorem that shows a state
and operands that meet them, clause by clause, with what the command then leaves. Each is a check of one step on a small state.
-/
namespace Sys2Proof.Tests
open Sys2Proof Sys2Proof.Machine
set_option Elab.async false

/-! ### Helpers -/

/-- Stored register words by offset. -/
def words (l : List (Nat × Nat)) : Table (Option Word) := l.map (fun e => (e.1, some (BitVec.ofNat 32 e.2)))

/-- A device in SERVICE, 1 s after its start, with no queue and no object. -/
def up : State :=
  let r := State.reset
  { r with
    pwr := { r.pwr with mode := .service, bootStep := 8, provisioned := true }
    time := { r.time with osc := 16000000000, run := 16000000000, dts := 16000000000 } }

/-- The state after a command. -/
def nx (c : Instr) (s : State) : State :=
  match exec c s with
  | .next t => t
  | _ => s

/-- Two states agree on a part, decided. -/
def partDec (p : Part) (s t : State) : Decidable (p.same s t) := by
  cases p <;> unfold Part.same <;> infer_instance

/-- Every part. -/
def allParts : List Part :=
  [.time, .stage, .queues, .codec, .compositor, .channels, .wick, .switch, .traffic, .pools, .dma, .audit, .icu, .snuffer,
    .power, .nvs, .updates, .management, .mailbox, .host, .dev, .ecc, .regs, .rd, .out, .free]

/-- From `s` to `t` only the listed parts change. -/
def only (l : List Part) (s t : State) : Bool :=
  decide (t.pending = s.pending) && allParts.all (fun p => l.contains p || @decide (p.same s t) (partDec p s t))

/-- Every check of a list holds. -/
def all (l : List Bool) : Bool := l.all id

/-! ### WellFormed: a term that each check refuses -/

theorem test_wellFormed_refuses :
    wellFormed (.registerWrite .lantern 2 0) = false ∧ wellFormed (.registerWrite .lantern 0x800000 0) = false ∧
    wellFormed (.stagingWrite .lantern 0x7FFFFE 0) = false ∧
    wellFormed (.entryFetched 0 0 (.data [])) = false ∧ wellFormed (.entryFetched 0 0 (.poisoned (List.replicate 17 0))) = false ∧
    wellFormed (.sensorSample ⟨[], 0, 0, 0, []⟩) = false ∧
    wellFormed (.bootStepEnd ⟨true, [], [], [], [], true, 0, []⟩) = false ∧
    wellFormed (.bootStepEnd ⟨true, [], [], List.replicate 3 (true, 0, true, 0), [], true, 0, [(2, 0)]⟩) = false ∧
    wellFormed (.selfTestEnd (.sramRow 0 8192) true) = false ∧ wellFormed (.selfTestEnd (.dramRow 0x800000000) true) = false ∧
    wellFormed (.selfTestEnd (.isolated 1024 0) true) = false ∧ wellFormed (.debugChallenge []) = false ∧
    wellFormed (.frameHeadLookup 0 []) = false ∧ wellFormed (.frameHeadLookup 0 (List.replicate 129 0)) = false ∧
    wellFormed (.ccwNop 0 []) = false ∧ wellFormed (.ccwNop 0 (List.replicate 96 0)) = false ∧
    wellFormed (.ccwNop 0 (List.replicate 24 0)) = false ∧ wellFormed (.patrolScrub none 4) = false ∧
    wellFormed (.patrolScrub none 0x1000800000) = false ∧ wellFormed (.auditEnd [⟨0, 196608, 1, false⟩]) = false ∧
    wellFormed (.fabricAccessTimeout 0 0 0 (2 ^ 64)) = false := by decide +kernel

theorem test_wellFormed_accepts :
    wellFormed (.registerWrite .lantern 0x7FFFFC 0) = true ∧ wellFormed (.ccwNop 63 (List.replicate 80 0)) = true ∧
    wellFormed (.frameHeadLookup 16 (List.replicate 128 0)) = true ∧ wellFormed (.selfTestEnd (.sramRow 15 8191) false) = true := by
  decide +kernel

/-! ### The machine, staging and registers -/

theorem test_step : all [
  (match step { up with pending := [.timeDtsLoRead, .clk10mInEdge] } with
  | .next t => t == nx .timeDtsLoRead { up with pending := [.clk10mInEdge] } && t.rd == 16000000000 % 2 ^ 32
  | _ => false),
  (match step up with | .next t => t.time.osc == 16000000001 && only [.time] up t | _ => false),
  State.reset.host.wf, State.reset.dev.wf,
  (match step { up with pending := [.clk10mInEdge] } with | .next t => t.host.wf | _ => false)] = true := by decide +kernel

/-- A session that master `m` has claimed, in a state. -/
def claimed (m : Master) (st : StageSt) : State :=
  let t := nx (.sysStageClaim m 1) up
  { t with stage := { t.stage with st := st } }

theorem test_claim : all [
  (up.stageReach (.fn 1) && (1 : Word).getLsbD 0) = false,
  nx (.sysStageClaim (.fn 1) 1) up = up,
  up.stageReach .lantern,
  up.stage.holder = none,
  (claimed .lantern .opened).stage.holder = some (.lantern, .reg),
  nx (.sysStageClaim .lantern 1) (claimed .lantern .opened) = claimed .lantern .opened,
  (let s := claimed .lantern .opened
  let t := nx (.sysStageClaim (.fn 0) 1) s
  decide (masterRank .lantern < masterRank (.fn 0)) && s.stageReach (.fn 0) && t.stage.winner == some .lantern &&
    t.stage.loser == some (.fn 0) && t.icu.pend.getLsbD 287 && only [.stage, .nvs, .icu, .out] s t),
  (let s := nx (.stagingWrite (.fn 0) 0xA8004 1) (claimed (.fn 0) .opened)
  let t := nx (.sysStageClaim .lantern 1) s
  s.stage.holder == some (.fn 0, .reg) && t.stage.holder == some (.lantern, .reg) && t.stage.regs == [] &&
    t.stage.st == .opened)] = true := by decide +kernel

theorem test_staging : all [
  (stagedAt 0xA0400).isSome, stagedAt 0x10030 = none,
  (let t := nx (.stagingWrite .lantern 0xA8400 1) up
  t.stage.holder == some (.lantern, .reg) && t.regs == up.regs && t.stage.regs != []),
  (let s := claimed .lantern .checked
  s.holds .lantern .reg && (nx (.stagingWrite .lantern 0xA8400 1) s).stage.st == .opened),
  nx (.stagingWrite .lantern 0xA8400 1) (claimed .lantern .armed) = claimed .lantern .armed,
  nx (.stagingWrite .lantern 0x18030 1) up = up] = true := by decide +kernel

theorem test_check_apply_cancel : all [
  (let s := claimed .lantern .opened
  let t := nx (.sysStageCheck .lantern 1) s
  t.stage.st == .checking && nx (.sysStageCheck .lantern 1) t == t && nx (.sysStageCheck (.fn 0) 1) s == s &&
    t.stageFail == none && (nx .stageCheckEnd t).stage.st == .checked && (nx .stageCheckEnd t).stage.code == .pass),
  (nx (.sysStageApply .lantern 1) (claimed .lantern .opened)).stage.code = .notChecked,
  (let s := { claimed .lantern .checked with regs := words [(0x1010, 16000159999 % 2 ^ 32), (0x1014, 3)] }
  decide (s.untilDts (BitVec.ofNat 64 16000159999) < 160000) && (nx (.sysStageApply .lantern 3) s).stage.code == .late),
  (let s := { claimed .lantern .checked with regs := words [(0x1010, 16000160000 % 2 ^ 32), (0x1014, 3)] }
  let t := nx (.sysStageApply .lantern 3) s
  t.stage.st == .armed && t.stage.armed == some (.dts 16000160000) && only [.stage, .regs] s t &&
    (nx .stagedChangeApplyAtDts t).stage.st == .applied && (nx .stagedChangeApplyAtDts t).stage.holder == none &&
    (nx .stagedChangeApplyAtDts t).icu.pend.getLsbD 287),
  (let s := nx (.sysStageCheck .lantern 1) (nx (.stagingWrite .lantern 0x188000 7169) up)
  let t := nx .stageCheckEnd s
  s.stageFail.any (fun f => f.code == .range && f.addr == 0x180000) && t.stage.st == .failed && t.stage.code == .range &&
    t.stage.failAddr == 0x180000 && t.icu.pend.getLsbD 287),
  up.groupEn 1 = false, (nx (.sysStageApply .lantern 5) (claimed .lantern .checked)).stage.code = .range,
  up.groupEn 0, (nx (.sysStageApply .lantern 1) (claimed .lantern .checked)).stage.st = .armed,
  (let t := nx (.sysStageCancel .lantern 1) (claimed .lantern .opened)
  t.stage.st == .cancelled && t.stage.holder == none && t.icu.pend.getLsbD 287)] = true := by decide +kernel

theorem test_registers : all [
  up.access (.fn 0) 0x1010, State.reset.access (.fn 0) 0x10030 = false, (regFind 0x1010).isSome,
  regFind 0x10FF0 = none, nx (.registerWrite .lantern 0x10FF0 7) up = up,
  (regFind 0xA0400).any (fun r => r.spec.staged), nx (.registerWrite .lantern 0xA0400 1) up = up,
  (nx (.registerWrite .lantern 0x10030 5) up).regOr 600 0x10030 = 5] = true := by decide +kernel

/-! ### Device time -/

/-- SERVICE with every reference enabled at 0, PTP on port 0, which is UP, and a QUAL of 1 s. -/
def refs : State :=
  let x : RefState := ⟨some 0, none, none, false, false⟩
  { up with
    regs := words [(0x10020, 7), (0x1002C, 1), (0x10034, 0x6401)], swc.ports := [(0, .up)]
    time := { up.time with ptp := x, pps := x, clk10m := x } }

/-- A reference with a last event, a run and its flags. -/
def rf (last start : Option Nat) (qualified lost : Bool) : RefState := ⟨some 0, last, start, qualified, lost⟩

theorem test_time_reads_and_sets : all [
  up.bar0 0x10000,
  (let s := { up with time.dts := 0x123456789ABCDEF0 }
  let t := nx .timeDtsLoRead s
  t.rd == 0x9ABCDEF0 && t.time.hiShadow == 0x12345678 && (t.busRead .lantern 0x10004 false).1 == 0x12345678 &&
    only [.time, .rd] s t),
  nx (.timeSetGo .lantern 0) up = up,
  (let s := { refs with time.ptp := rf none none true false }
  s.anyQualified && (nx (.timeSetGo .lantern 1) s).time.setRej),
  (let s := { up with regs := words [(0x100A0, 1), (0x100A4, 0)] }
  let t := nx (.timeSetGo .lantern 1) s
  !s.anyQualified && t.time.step.any (fun p => p.delta == 1 - 16000000000 && p.cause == 1) && t.icu.pend.getLsbD 23 &&
    t.time.dts == s.time.dts && only [.time, .icu, .out] s t)] = true := by decide +kernel

theorem test_references : all [
  refs.refsRun, refs.refEn .ptp, refs.ptpPort 0, refs.portUp 0,
  (let t := nx (.announceReceived 0 ⟨6, 0x21, 0x20, 37, true, false, false⟩) refs
  t.time.ptp.lastEvent == some refs.now && t.time.gmClass == 6 && t.time.utc.toNat == 37 + 65536 &&
    Table.get .listening t.time.ptpPorts 0 == .slave && only [.time, .icu, .out] refs t),
  refs.refEn .clk10m, (nx .clk10mInEdge refs).time.clk10m.lastEvent = some refs.now, refs.refEn .pps,
  bit (refs.regOr 0 0x10020) 3 = false,
  (let s := { refs with time.pps := rf (some (16000000000 - 15999840000)) (some 5) false false }
  (nx (.ppsInEdge true) s).time.pps.runStart == some 5),
  (let s := { refs with time.pps := rf (some (16000000000 - 15999839999)) (some 5) false false }
  (nx (.ppsInEdge true) s).time.pps.runStart == some s.now),
  [TimeRef.ptp, .pps, .clk10m].all (fun r => let t := nx (.referenceLost r) refs
    refs.refEn r && !(refs.ref r).lost && (t.ref r).lost && t.icu.pend.getLsbD 21 && only [.time, .icu, .out] refs t &&
      (r != .pps || t.now == max refs.now (refs.time.pps.lastValid + 32000000000)) &&
      (r != .ptp || t.now == max refs.now (refs.time.ptp.lastValid + 3 * refs.announceInterval)))] = true := by decide +kernel

/-- A PTP reference whose run began at 0, listened to by port 0. -/
def following : State :=
  let time := refs.time
  { refs with time :=
    { time with ptp := rf (some 16000000000) (some 0) false false, ptpPorts := [(0, .slave)], ptpSync := some 1 } }

/-- The outputs of a PTP interval: what it announced of the clock, and `n` frames of port 0. -/
def sentPtp (n : Nat) (e : OutMsg) (t : State) : Bool :=
  t.out.take 1 == [e] && t.out.length == n + 1 && (t.out.drop 1).all (fun x => match x with | .frame 0 _ _ => true | _ => false)

theorem test_servo_and_holdover : all [
  (let s := { following with time.holdover := true }
  let t := nx (.referenceQualified .ptp 15999 3) s
  t.time.ptp.qualified && t.time.selected == 1 && t.time.traceable && t.time.freqAdj == 3 && t.time.slewLeft == 15999 &&
    !t.time.holdover),
  (let t := nx (.referenceQualified .ptp 16000001 3) following
  following.pwr.mode == .service && t.time.step.any (fun p => p.delta == 16000001) && !t.time.slewing),
  (let x := rf (some 7) none false true
  let s := { refs with time := { refs.time with ptp := x, pps := x, clk10m := x } }
  let t := nx .holdoverSet s
  t.time.holdover && t.time.holdoverAt == t.now && t.icu.pend.getLsbD 20 && only [.time, .icu, .out] s t &&
    decide (7 + 3 * s.announceInterval ≤ t.now)),
  (let s := { refs with time := { refs.time with holdover := true, traceable := true } }
  let t := nx .hoSpecExpired s
  s.clockQuality == (7, none, 0xA0) && t.clockQuality == (52, some 0xFE, 0xA0) && only [.time] s t &&
    decide (second * 600 < t.now)),
  (let s := { refs with
    regs := words [(0x10020, 7), (0x10024, 0xD00005)], time := { refs.time with holdover := true, traceable := true } }
  bits s.ptpCfg 1 0 == 1 && (nx .hoSpecExpired s).clockQuality == (248, some 0xFE, 0xA0)),
  (let s := { refs with time := { refs.time with slewing := true, slewLeft := 16000, holdover := true, ptp := rf none none true false } }
  let t := nx .slewDone s
  s.timeKept && !t.time.slewing && !t.time.holdover && t.icu.pend.getLsbD 22 && decide (t.time.slewLeft.natAbs < 16000)),
  up.ppsRuns,
  (let t := nx .ppsOutPulse up
  t.out == .ppsOut t.time.dts :: up.out && t.time.ppsSecond == 1 && t.fullTime == second && only [.time, .out] up t &&
    t.time.ppsHigh == some (t.now + 16000 * 100000)),
  (let s := { refs with time := { refs.time with ptpPorts := [(0, .master)], traceable := true, selected := 3 } }
  let t := nx (.ptpIntervalExpiry 0 1) s
  sentPtp 2 (.ptp 0 1 6 0x21 0x90) t && only [.time, .out, .free] s t),
  (let t := nx (.ptpIntervalExpiry 0 0) refs
  Table.get .listening t.time.ptpPorts 0 == .master && sentPtp 1 (.ptp 0 0 248 0xFE 0xA0) t)] = true := by decide +kernel

/-! ### Rings -/

/-- Queue 1 and ring 1 of function 0, both of 4 entries, the ring in host memory at 0x1000, with the link up. -/
def rings : State :=
  { up with qm := { up.qm with
    linkUp := true
    sqs := [(1, { Sq.absent with state := .active, size := 4, cq := 1, weight := 1, burst := 1, base := 0x8000 })]
    cqs := [(1, { Cq.absent with state := .active, size := 4, base := 0x1000, vector := 5, aggTime := 2 })] } }

/-- A used slot of queue 1. -/
def used (ph : Phase) (bytes : List Byte) : Slot :=
  ⟨0, 1, 1, 77, 9, false, bytes, ph, ⟨.ok, 1, 2, none, 3⟩, 0, 0, true, 0, false, ph == .posted⟩

/-- A CHANNEL entry, opcode 0x26, of `n` slots: its header, and zeros. -/
def nopEntry (n : Nat) : List Byte := [0x26, 0] ++ leBytes 2 n ++ leBytes 4 77 ++ List.replicate (16 * n - 8) 0

theorem test_doorbells : all [
  (let t := nx (.submissionDoorbell 0 1 4) rings
  rings.qmRuns && t.qm == { rings.qm with dbErr := 1, dbErrFn := 0, dbErrCq := false, dbErrQ := 1 } && t.icu.pend.getLsbD 289),
  nx (.submissionDoorbell 1 1024 1) rings = rings,
  (let s := rings.setSq 1 { rings.sq 1 with state := .draining }
  nx (.submissionDoorbell 0 1 1) s == s),
  (let t := nx (.submissionDoorbell 0 1 (3 + 2 ^ 16)) rings
  t == rings.setSq 1 { rings.sq 1 with tail := 3 }),
  (let s := { rings with regs := words [(0x400060, 1 + 2 ^ 16 * 500)] }
  let t := nx (.submissionDoorbell 0 1 3) s
  let u := nx (.submissionDoorbell 0 1 4) s
  t.now == s.now + 8000000 && t == (s.bellArrives 0).setSq 1 { s.sq 1 with tail := 3 } && s.bellArrives 1 == s &&
    only [.time] s (s.bellArrives 0) && u.qm.dbErr == 1),
  (let s := { rings.setCq 1 { rings.cq 1 with tail := 2, unsignalled := 2, oldestAt := some 1 } with
    qm.slots := [(4, some { used .posted [] with ringPos := 0 }), (5, some { used .posted [] with ringPos := 1 })] }
  let t := nx (.completionDoorbell 0 1 1) s
  let u := nx (.completionDoorbell 0 1 2) s
  (t.cq 1).head == 1 && t.slot 4 == none && t.slot 5 != none && (u.cq 1).unsignalled == 0 && (u.cq 1).oldestAt == none &&
    u.slot 5 == none && only [.queues, .icu, .out] s u),
  (let s := { up with qm := { up.qm with dbErr := 65535, dbErrFn := 15, dbErrCq := true } }
  let t := nx .qmgrDbErrRead s
  s.bar0 0x20030 && t.rd.toNat == 65535 + 2 ^ 16 * 15 + 2 ^ 20 && t.qm == { s.qm with dbErr := 0 } &&
    only [.queues, .rd] s t)] = true := by decide +kernel

theorem test_entries : all [
  (let s := rings.setSq 1 { rings.sq 1 with tail := 3 }
  let t := nx (.entryFetched 0 1 (.data (nopEntry 3))) s
  s.mayFetch 0 1 && t == s.setSq 1 { s.sq 1 with cache := [⟨0, 3, nopEntry 3, false, false, false⟩] }),
  (let s := rings.setSq 1 { rings.sq 1 with tail := 3 }
  nx (.entryFetched 0 1 (.data (0 :: (nopEntry 3).drop 1))) s == s.setSq 1 { s.sq 1 with head := 3 }),
  (let t := nx (.entryFetched 0 1 .failed) rings
  t.sq 1 == { rings.sq 1 with state := .error } && t.icu.pend.getLsbD 290 && only [.queues, .icu, .out] rings t),
  (let t := nx (.fetchCompletionTimeout 0 1) rings
  t.sq 1 == { rings.sq 1 with retried := true } && t.out == [.aer 1] && ((nx (.fetchCompletionTimeout 0 1) t).sq 1).state == .error &&
    (nx (.fetchCompletionTimeout 0 1) t).icu.pend.getLsbD 290),
  (let s := rings.setSq 1 { rings.sq 1 with tail := 2, cache := [⟨0, 2, nopEntry 2, false, false, false⟩] }
  let t := nx .entryDispatch s
  (s.arbNext s.qm.arb 8).any (fun e => e.1 == 1) && s.entryDeny 0 1 (nopEntry 2) == none &&
    (t.slot 0).any (fun y => y.phase == .accepted && y.cid == 77 && y.sq == 1 && y.cq == 1) && (t.sq 1).seq == 1),
  (let b := (0x20 : Byte) :: 4 :: (nopEntry 1).drop 2
  let s := rings.setSq 1 { rings.sq 1 with tail := 1, cache := [⟨0, 1, b, false, false, false⟩] }
  (s.entryDeny 0 1 b).isSome && ((nx .entryDispatch s).slot 0).any (fun y =>
    y.phase == .finished && some y.completion.status == (s.entryDeny 0 1 b).map (fun d => d.st))),
  (let s := rings.setSq 1 { rings.sq 1 with tail := 1, cache := [⟨0, 1, nopEntry 1, false, true, false⟩] }
  let t := nx .entryDispatch s
  (t.slot 0).any (fun y => y.phase == .finished && y.completion.status == .invalidField) && (t.sq 1).state == .error)] =
    true := by decide +kernel

theorem test_completions : all [
  (let s := { rings.setCq 1 { rings.cq 1 with tail := 3, head := 2 } with qm.slots := [(4, some (used .finished (nopEntry 1)))] }
  let t := nx (.completionPost 0 1 true) s
  (s.nextPost 0 1).any (fun e => e.1 == 4) && (t.slot 4).any (fun y => y.phase == .posted && y.ringPos == 3 && y.ringPhase &&
    t.host == s.host.setBytes (0x1000 + 96) (completionBytes y)) && (t.cq 1).tail == 0 && !(t.cq 1).phase && (t.cq 1).head == 2),
  (let s := { rings.setCq 1 { rings.cq 1 with repost := [4] } with qm.slots := [(4, some { used .posted [] with ringPos := 2 })] }
  let t := nx (.completionRepost 0 1 true) s
  let u := nx (.completionRepost 0 1 false) s
  t.host == s.host.setBytes (0x1000 + 64) (completionBytes { used .posted [] with ringPos := 2 }) && (t.cq 1).repost == [] &&
    (t.slot 4).any (fun y => y.written) && only [.time, .queues, .audit, .host, .out] s t && (u.cq 1).state == .frozen && (u.cq 1).writeFrozen && u.icu.pend.getLsbD 290),
  (let s := rings.setCq 1 { rings.cq 1 with oldestAt := some 16000000000, unsignalled := 1 }
  let t := nx (.aggTimeExpiry 0 1) s
  t.out == [.msix 0 5] && t.now == 16000000000 + 32000 && (t.cq 1).unsignalled == 0 && (t.cq 1).oldestAt == none)] = true := by
  decide +kernel

theorem test_hosts : all [
  (let t := nx .pcieLinkDown rings
  t.qm.hostLost && (t.sq 1).state == .frozen && (t.cq 1).state == .frozen && t.pwr.mode == .continuity && !t.qm.linkUp),
  (let t := nx .pciePerstNAssert rings
  t.qm.hostLost && !t.pwr.perstN && t.pwr.mode == .continuity),
  (let s := { rings with regs := words [(0x20024, 10)] }
  let t := nx .heartbeatTimeout s
  s.hbTime 0 == 160000000 && t.qm.hostLost && (t.sq 1).state == .frozen),
  (let s := { rings with qm.linkUp := false }
  nx (.pcieLinkUp 16 5) s == { s with qm := { s.qm with linkUp := true, linkWidth := 16, linkSpeed := 5 } }),
  (let t := nx (.qmgrHeartbeat .lantern 0) rings
  t.lastBeat 0 == rings.now && only [.queues] rings t),
  (let s := nx .pcieLinkDown rings
  (nx (.handoverResume .lantern 1) s).lmp.handover == some false && (nx (.handoverReset .lantern 2) s).lmp.handover == some true),
  nx (.handoverResume .lantern 1) rings = rings,
  (let v : Sq := { Sq.absent with state := .active, size := 4, cq := 1 }
  let s := { (rings.setSq (qKey 1 1) v).setCq (qKey 1 1) { Cq.absent with state := .active, size := 4 } with
    regs := words [(0x20024, 10), (0x1004028, 10)] }
  let t := nx (.vfHeartbeatTimeout 1) s
  let u := nx (.vfHeartbeat 1 0) t
  s.hbTime 1 != 0 && t.qm.fnLost.getLsbD 1 && t.qm.vfLost.getLsbD 1 && (t.sq (qKey 1 1)).state == .frozen &&
    (t.cq (qKey 1 1)).state == .frozen && (t.sq 1).state == .active && t.icu.pend.getLsbD 288 &&
    (u.sq (qKey 1 1)).state == .active && !u.qm.vfLost.getLsbD 1 && only [.queues] t u)] = true := by decide +kernel

theorem test_admin_queue : all [
  (let t := nx (.adminQueueEnable 0) up
  !up.aqEn 0 && up.aqIllegal 0 && t.aqEn 0 && t.qm.aqErr.getLsbD 0),
  (let s := { up with regs := words [(0x20008, 0x1000), (0x20010, 0x2000), (0x20018, 3 + 2 ^ 16 * 7)] }
  let t := nx (.adminQueueEnable 0) s
  let u := nx (.adminQueueReady 0) t
  let v := nx (.adminQueueDisable 0) u
  !s.aqIllegal 0 && t.sq 0 == { Sq.absent with state := .active, base := 0x1000, size := 4 } &&
    t.cq 0 == { Cq.absent with state := .active, base := 0x2000, size := 8 } && only [.queues, .regs] s t &&
    t.qm.aqPending.getLsbD 0 && u.qm.rdy.getLsbD 0 && u.aqEn 0 && !v.aqEn 0 &&
    [QState.draining, .absent].contains (v.sq 0).state && !(nx (.functionLevelReset 0) u).aqEn 0)] = true := by decide +kernel

/-! ### Commands -/

/-- The bytes of an entry: its opcode, `n` slots, and fields as offset, length and value. -/
def entry (op n : Nat) (fields : List (Nat × Nat × Nat)) : List Byte :=
  fields.foldl (fun b f => b.take f.1 ++ leBytes f.2.1 f.2.2 ++ b.drop (f.1 + f.2.1))
    (leBytes 2 op ++ leBytes 2 n ++ List.replicate (16 * n - 4) 0)

/-- A slot that holds an accepted entry of function 0. -/
def accepted (b : List Byte) : Slot :=
  ⟨0, if fieldLe b 0 1 < 0x20 then 0 else 1, if fieldLe b 0 1 < 0x20 then 0 else 1, 77, 9, false, b, .accepted, ⟨.ok, 0, 0, none, 0⟩,
    0, 0, true, 0, false, false⟩

/-- A state with that entry in slot 7. -/
def with7 (s : State) (b : List Byte) : State := { s with qm := { s.qm with slots := [(7, some (accepted b))] } }

/-- Slot 7 has finished with a status and results. -/
def done7 (t : State) (st : Status) (r0 r1 : Nat) : Bool :=
  (t.slot 7).any (fun y => y.phase == .finished && y.completion.status == st && y.completion.result0.toNat == r0 &&
    y.completion.result1.toNat == r1)

/-- The command of slot 7 runs. -/
def runs7 (t : State) : Bool := (t.slot 7).any (fun y => y.phase == .running)

theorem test_reports : all [
  (let s := with7 rings (entry 1 2 [(16, 1, 1), (24, 8, 0x1000)])
  let t := nx (.identify 7) s
  (s.ready 7 1).any (fun x => firstDeny (identifyChecks x) == none) && done7 t .ok 0 0 && only [.queues, .host] s t),
  (let t := nx (.identify 7) (with7 rings (entry 1 2 [(16, 1, 2)]))
  done7 t .invalidField 0 0 && t.host == []),
  (let s := with7 rings (entry 6 2 [(16, 1, 1), (18, 2, 1)])
  let t := nx (.getFeature 7) s
  (s.ready 7 6).any (fun x => firstDeny (s.featureChecks x) == none) && done7 t .ok 257 0 && only [.queues] s t),
  (let s := with7 rings (entry 9 2 [(16, 1, 5)])
  done7 (nx (.stageStatus 7) s) .ok (s.sysField .sysStageStatus) 0),
  (let s := with7 { rings with nvs.log := [⟨2, 0, 1, 5, [1, 2, 3, 4, 5, 6, 7, 8], 0⟩] } (entry 12 3 [(16, 8, 0x40), (24, 4, 128), (28, 4, 1)])
  let t := nx (.logRead 7) s
  done7 t .ok 1 2 && t.host.wf && t.host != [] && only [.queues, .host] s t)] = true := by decide +kernel

theorem test_queue_commands : all [
  (let s := with7 rings (entry 2 3 [(16, 8, 0x4000), (24, 2, 2), (26, 2, 15), (30, 1, 4), (32, 2, 9)])
  let t := nx (.createCq 7) s
  (s.ready 7 2).any (fun x => firstDeny (s.createRingChecks x) == none) && done7 t .ok 0 0 &&
    t.cq 2 == { Cq.absent with state := .active, base := 0x4000, size := 16, aggCount := 4, aggTime := 9 } && t.cq 1 == s.cq 1 &&
    only [.queues] s t),
  (let s := with7 rings (entry 4 3 [(16, 8, 0x4000), (24, 2, 4095), (26, 2, 15), (28, 2, 1), (30, 1, 3), (31, 1, 128)])
  let t := nx (.createSq 7) s
  done7 t .ok 0 0 && (t.sq 4095).state == .active && (t.sq 4095).weight == 3 && (t.sq 4095).burst == 128 && (t.sq 4095).cq == 1 &&
    only [.queues] s t),
  (let s := with7 { rings with qm.sqs := [] } (entry 3 2 [(16, 2, 1)])
  let t := nx (.deleteCq 7) s
  done7 t .ok 0 0 && t.cq 1 == Cq.absent),
  (let s := with7 rings (entry 5 2 [(16, 2, 1)])
  let t := nx (.deleteSq 7) s
  done7 t .ok 0 0 && (t.sq 1).state == .absent && only [.queues] s t),
  (let s := with7 rings (entry 5 2 [(16, 2, 1)])
  let s := { s with qm.slots := [(7, s.slot 7), (8, some (used .accepted []))] }
  let t := nx (.deleteSq 7) s
  runs7 t && (t.sq 1).state == .draining && (t.slot 8).any (fun y => y.phase == .finished && y.completion.status == .aborted)),
  (let s := with7 rings (entry 7 2 [(16, 1, 1), (18, 2, 1), (24, 1, 9), (25, 1, 8)])
  let t := nx (.setQueueArb 7) s
  done7 t .ok 0 0 && t.sq 1 == { s.sq 1 with weight := 9, burst := 8 } && only [.queues] s t),
  (let s := with7 rings (entry 7 2 [(16, 1, 2), (18, 2, 1), (24, 1, 9), (26, 2, 8)])
  let t := nx (.setCompletionAgg 7) s
  done7 t .ok 0 0 && t.cq 1 == { s.cq 1 with aggNext := some (9, 8) } && only [.stage, .queues] s t),
  (let s := with7 rings (entry 7 2 [(16, 1, 2), (18, 2, 1), (24, 1, 9), (26, 2, 8)])
  let s := { s with stage.orders := [⟨.aggregation 1, 5, .lantern, 7, 0, s.time.run, 0⟩] }
  let t := nx (.setCompletionAgg 7) s
  s.rivals (.aggregation 1) (9 + 2 ^ 16 * 8) (.fn 0) != [] && done7 t .conflict 0 0 && t.cq 1 == s.cq 1 &&
    t.stage.orders == s.stage.orders && only [.stage, .queues, .nvs, .icu, .out] s t),
  (let s := with7 rings (entry 8 2 [(16, 1, 3), (20, 4, 24000), (24, 4, 12000)])
  let t := nx (.setShares 7) s
  done7 t .ok 0 0 && Table.get 0 t.qm.decShare 3 == 24000 && Table.get 0 t.qm.encShare 3 == 12000 && only [.queues] s t)] = true := by
  decide +kernel

/-- The stage held by queue 0 of function 0. -/
def held (st : StageSt) : State :=
  { rings with stage := { rings.stage with st := st, holder := some (.fn 0, .queue 0) } }

theorem test_stage_commands : all [
  (let s := with7 rings (entry 9 2 [(16, 1, 0)])
  let t := nx (.stageClaim 7) s
  done7 t .ok 0 0 && t.stage.st == .opened && t.stage.holder == some (.fn 0, .queue 0) && only [.stage, .queues] s t),
  (let s := with7 { rings with stage.holder := some (.fn 0, .reg) } (entry 9 2 [(16, 1, 0)])
  let t := nx (.stageClaim 7) s
  done7 t .busy 0 0 && only [.queues] s t),
  (let s := with7 { rings with stage.holder := some (.lantern, .reg) } (entry 9 2 [(16, 1, 0)])
  let t := nx (.stageClaim 7) s
  done7 t .conflict 0 0 && t.stage.holder == s.stage.holder && only [.stage, .queues, .nvs, .icu, .out] s t),
  (let s := with7 { rings with stage := { rings.stage with st := .opened, holder := some (.chan 3, .channel) } } (entry 9 2 [(16, 1, 0)])
  let t := nx (.stageClaim 7) s
  decide (masterRank (.fn 0) < masterRank (.chan 3)) && done7 t .ok 0 0 && t.stage.st == .opened &&
    t.stage.holder == some (.fn 0, .queue 0) && t.stage.armed.isNone),
  (let s := with7 (held .failed) (entry 9 2 [(16, 1, 1), (17, 1, 1), (24, 4, 0xA0400), (28, 4, 1)])
  let t := nx (.stageWrite 7) s
  done7 t .ok 0 0 && t.stage.st == .opened && only [.stage, .queues] s t),
  (let s := with7 (held .opened) (entry 9 2 [(16, 1, 1), (17, 1, 1), (24, 4, 0xA0400), (28, 4, 1)])
  let t := nx (.stageWrite 7) s
  done7 t .ok 0 0 && t.stage.regs != [] && only [.stage, .queues] s t),
  (let s := with7 (held .opened) (entry 9 2 [(16, 1, 2)])
  let t := nx (.stageCheck 7) s
  t.stage.st == .checking && t.stage.checkWaiter == some (.slot 7) && runs7 t && only [.stage, .queues] s t),
  (let s := with7 (held .opened) (entry 9 2 [(16, 1, 3)])
  let t := nx (.stageApply 7) s
  done7 t .invalidField 0 0 && t.stage.code == .notChecked && only [.stage, .queues] s t),
  (let s := with7 (held .checked) (entry 9 2 [(16, 1, 3), (17, 1, 1), (24, 8, 16000160000)])
  let t := nx (.stageApply 7) s
  s.untilDts 16000160000 == 160000 && t.stage.st == .armed && t.stage.armed == some (.dts 16000160000) && runs7 t &&
    only [.stage, .queues, .regs] s t),
  (let t := nx (.stageCancel 7) (with7 (held .opened) (entry 9 2 [(16, 1, 4)]))
  done7 t .ok 0 0 && t.stage.st == .cancelled && t.stage.holder == none)] = true := by decide +kernel

/-- Pool 1 of 64 buffers of 8 MiB at 1 GiB, enabled. -/
def pools : State :=
  { rings with regs := words [(0x80120, 23 + 2 ^ 10), (0x80124, 0x40000000), (0x80128, 0), (0x8012C, 64)] }

/-- An OPEN of a decode stream, H.264, 1,280 by 720, 30 frames per second. -/
def openDec : List Byte :=
  entry 0x20 4 [(16, 1, 0), (20, 1, 0), (21, 1, 100), (22, 1, 40), (24, 2, 1280), (26, 2, 720), (28, 4, 30000), (32, 1, 8)]

/-- Pools with cores in service and shares for function 0. -/
def codecs : State :=
  { pools with
    codec := { pools.codec with cores := Vector.replicate 8 { CodecCore.reset with st := .inService } }
    qm := { pools.qm with decShare := [(0, 24000)], encShare := [(0, 12000)] } }

theorem test_open : all [
  (let s := with7 codecs openDec
  let t := nx (.openObject 7 0 []) s
  (s.ready 7 0x20).any (fun x => firstDeny (x.openDecChecks) == none) && (t.dec 0).any (fun d =>
    d.st == .active && d.width == 1280 && d.pool == 1 && d.format == 0) && done7 t .ok 65536 0 && only [.queues, .codec, .pools] s t),
  (let s := with7 codecs (entry 0x20 4 [(16, 1, 2), (24, 2, 1280), (26, 2, 720), (29, 1, 1)])
  let t := nx (.openObject 7 127 []) s
  (t.outp 127).any (fun o => o.st == .active && o.updates == [] && o.height == 720) && done7 t .ok (3 * 65536 + 127) 0),
  (let s := with7 codecs (entry 0x20 4 [(16, 1, 3), (20, 1, 0), (22, 2, 16), (24, 2, 4095), (26, 2, 16383)])
  let t := nx (.openObject 7 65535 []) s
  (t.sendQ 65535).any (fun q => q.fn == 0 && q.waiting == []) && done7 t .ok (4 * 65536 + 65535) 0 && only [.queues, .switch] s t),
  (let s := with7 codecs (entry 0x20 4 [(16, 1, 1), (20, 1, 0), (21, 1, 100), (22, 1, 40), (24, 2, 1280), (26, 2, 720), (28, 4, 30000),
    (32, 1, 8), (34, 1, 1)])
  let t := nx (.openObject 7 0 []) s
  (t.enc 0).any (fun e => e.st == .active && e.keyDue && e.width == 1280) && done7 t .ok (2 * 65536) 0 &&
    only [.queues, .codec, .pools, .free] s t),
  (let s := with7 codecs (entry 0x20 4 [(16, 1, 1), (20, 1, 3)])
  let t := nx (.openObject 7 0 []) s
  (t.slot 7).any (fun y => y.phase == .finished && y.completion.status == .invalidField) && only [.queues] s t)] = true := by
  decide +kernel

/-- Decode stream 0 and send queue 0 are open. -/
def opened : State :=
  let s := nx (.openObject 7 0 []) (with7 codecs openDec)
  nx (.openObject 7 0 []) (with7 s (entry 0x20 4 [(16, 1, 3)]))

/-- Encode stream 0 is open: 16 by 16, at constant QP. -/
def openedEnc : State :=
  nx (.openObject 7 0 []) (with7 codecs (entry 0x20 4 [(16, 1, 1), (20, 1, 0), (21, 1, 100), (22, 1, 40), (24, 2, 16), (26, 2, 16),
    (28, 4, 30000), (32, 1, 8), (33, 1, 2), (34, 1, 1)]))

/-- Output 0 is open. -/
def openedOut : State :=
  nx (.openObject 7 0 []) (with7 codecs (entry 0x20 4 [(16, 1, 2), (24, 2, 1280), (26, 2, 720), (29, 1, 1)]))

theorem test_close_and_jobs : all [
  (let t := nx (.close 7) (with7 opened (entry 0x21 2 [(8, 8, handleOf 1 0 0 0)]))
  t.dec 0 == none && done7 t .ok 0 0),
  (let t := nx (.close 7) (with7 openedEnc (entry 0x21 2 [(8, 8, handleOf 2 0 0 0)]))
  t.enc 0 == none && done7 t .ok 0 0),
  (let t := nx (.close 7) (with7 opened (entry 0x21 2 [(8, 8, handleOf 4 0 0 0)]))
  t.sendQ 0 == none && done7 t .ok 0 0),
  (let t := nx (.close 7) (with7 { opened with lmp.chans := [(3, { Channel.free with st := .idle })] }
    (entry 0x21 2 [(8, 8, handleOf 5 3 0 0)]))
  t.chan 3 == Channel.free && done7 t .ok 0 0),
  (let s := with7 opened (entry 0x22 3 [(8, 8, handleOf 1 0 0 0), (16, 8, 2 ^ 63 + 0x50000000), (24, 4, 100), (32, 8, 1000)])
  let t := nx (.decode 7) s
  !s.isPast (s.resolve 1000) && t.codec.jobs.any (fun j => !j.encode && j.stream == 0 && j.origin == .slot 7 && j.length == 100) &&
    runs7 t && only [.queues, .codec] s t),
  (let s := with7 opened (entry 0x22 3 [(8, 8, handleOf 1 0 0 0), (16, 8, 2 ^ 63 + 0x50000000), (24, 4, 100), (32, 8, 1)])
  let s := { s with time := { s.time with groups := Vector.replicate 4 ⟨9, 10⟩ } }
  let t := nx (.decode 7) s
  s.isPast (s.resolve 1) && Table.get 0 t.time.overruns 0 == 1),
  (let s := with7 opened (entry 0x22 3 [(8, 8, handleOf 1 0 0 0)])
  done7 (nx (.decode 7) s) .invalidField 0 0),
  (let s := with7 openedEnc (entry 0x23 4 [(8, 8, handleOf 2 0 0 0), (16, 8, 2 ^ 63 + 0x50000000), (24, 8, 2 ^ 63 + 0x60000000), (32, 4, 100), (40, 8, 1000)])
  let t := nx (.encode 7) s
  t.codec.jobs.any (fun j => j.encode && j.outSize == 100) && t.slot 7 == (s.slot 7).map (fun x => { x with phase := .running }) && only [.queues, .codec] s t),
  (let s := with7 openedOut (entry 0x24 4 [(8, 8, handleOf 3 0 0 0), (16, 1, 15), (17, 1, 3), (32, 2, 0), (36, 2, 64), (38, 2, 64),
    (44, 2, 64), (46, 2, 64), (48, 1, 255), (56, 8, 1000)])
  let t := nx (.compose 7 ⟨[], [], [], [], true⟩) s
  (t.outp 0).any (fun o => o.updates.length == 1 && o.updates.all (fun u => u.plane == 15 && u.origin == .slot 7))),
  (let s := with7 opened (entry 0x25 3 [(8, 8, handleOf 4 0 0 0), (16, 8, 2 ^ 63 + 0x50000000), (24, 2, 60), (32, 8, 1000)])
  let t := nx (.send 7 []) s
  (t.sendQ 0).any (fun q => q.waiting.length == 1 && q.waiting.all (fun y => y.sender == .slot 7 && !y.missed)))] = true := by
  decide +kernel

/-- Channel 3 allocated to function 0, in a state. -/
def chan3 (st : ChSt) : State := { opened with lmp.chans := [(3, { Channel.free with st := st, ccw := 2 ^ 63 })] }

/-- A CHANNEL command on it. -/
def chanCmd (op : Nat) (f : List (Nat × Nat × Nat)) : List Byte := entry 0x26 2 ([(16, 1, op), (8, 8, handleOf 5 3 0 0)] ++ f)

theorem test_abort_updates_channels : all [
  (let s := with7 rings (entry 10 2 [(16, 2, 1), (20, 4, 77)])
  let s := { s with qm.slots := [(7, s.slot 7), (8, some (used .accepted []))] }
  let t := nx (.abort 7) s
  runs7 t && (t.slot 8).any (fun y => y.phase == .finished && y.completion.status == .aborted) && t.qm.barriers == [⟨7, [8], 0, none⟩] &&
    only [.queues] s t),
  (let s := with7 rings (entry 10 2 [(16, 2, 1), (20, 4, 77)])
  done7 (nx (.abort 7) s) .ok 0 0),
  (let s := with7 rings (entry 11 3 [(16, 1, 2), (20, 4, 64)])
  let t := nx (.nvsUpdate 7) s
  let u := nx (.nvsUpdateEnd 2 (.verified 9 none)) t
  let v := nx (.nvsUpdateEnd 2 .badSignature) t
  let w := nx (.nvsUpdateEnd 2 (.writeFailed 64)) t
  runs7 t && (t.image 2).spare == .invalid && t.updateOf 2 == some ⟨false, some 7, 0, false, 64, 0, none⟩ &&
    only [.queues, .updates, .nvs] s t && (u.image 2).spare == .pending && done7 u .ok 1 9 && u.updateOf 2 == none &&
    u.icu.pend.getLsbD 283 && only [.queues, .updates, .nvs, .icu, .out] t u && done7 v .dataError 0 0 && v.image 2 == t.image 2 &&
    done7 w .mediaError 0 0 && w.icu.pend.getLsbD 282),
  (let s := with7 opened (entry 0x26 2 [(16, 1, 0), (17, 1, 63)])
  let t := nx (.channelAllocate 7 0) s
  (t.chan 63).st == .idle && done7 t .ok (5 * 65536 + 63) 0 && only [.queues, .channels] s t),
  (let s := with7 { opened with lmp.chans := (List.range 64).map (fun c => (c, { Channel.free with st := .idle })) }
    (entry 0x26 2 [(16, 1, 0), (17, 1, 255)])
  done7 (nx (.channelAllocate 7 0) s) .noResource 0 0),
  (let s := with7 (chan3 .idle) (chanCmd 1 [(24, 8, 2 ^ 63 + 16)])
  let t := nx (.channelStart 7) s
  (t.chan 3).st == .active && (t.chan 3).ccw == 2 ^ 63 + 16 && (t.chan 3).startSlot == some 7 && runs7 t && only [.queues, .channels] s t),
  done7 (nx (.channelStart 7) (with7 (chan3 .active) (chanCmd 1 [(24, 8, 2 ^ 63 + 16)]))) .busy 0 0,
  (let t := nx (.channelSuspend 7) (with7 (chan3 .active) (chanCmd 2 []))
  done7 t .ok 0 0 && (t.chan 3).st == .suspended && (t.chan 3).cswSeq == 1 && t.icu.pend.getLsbD 35),
  (let t := nx (.channelResume 7) (with7 (chan3 .suspended) (chanCmd 3 []))
  done7 t .ok 0 0 && (t.chan 3).st == .active),
  (let t := nx (.channelHalt 7) (with7 (chan3 .active) (chanCmd 4 []))
  (t.chan 3).st == .ended && (t.chan 3).result == .stopped),
  (let s := with7 (chan3 .ended) (chanCmd 5 [])
  let t := nx (.channelClear 7) s
  done7 t .ok 0 0 && t.chan 3 == { s.chan 3 with st := .idle, csw := List.replicate 32 0 } && only [.queues, .channels] s t)] = true := by
  decide +kernel

/-! ### Ticks, jobs and frames -/

/-- A picture of 16 by 16 in one slice, whose one block is decoded from the first 50 bytes. -/
def picture (o : PicOutcome) (show_ : Bool) (outs : List (Option (Fin 24))) : PicFacts where
  outcome := o
  sets := []
  refers := []
  width := 16
  height := 16
  tenBit := false
  refKind := 1
  forOutput := show_
  released := []
  converted := []
  grain := false
  order := 0
  cropXy := 0
  cropWh := 0
  colour := none
  outputs := outs
  coded := 100
  blockW := 16
  blockH := 16
  headErr := 0
  groups := false
  refs := []
  slices := [⟨0, false, 0, 10, 100, [], 0, [⟨0, 50, 100, false, []⟩], 0, 0⟩]
  collocated := []
  mono := false
  subX := 2
  subY := 2
  samples := [⟨0, 0, 0, [1, 2]⟩]
  predicted := []
  grainy := []
  raw := []
  headCycles := 10
  seamCycles := 0
  concealCycles := 0
  picType := 0
  randomAccess := true
  hostPoison := none
  statusLost := false

/-- A decode job waits, whose target is the next tick of group A; its command runs in slot 7. -/
def waiting : State :=
  nx (.decode 7) (with7 opened (entry 0x22 3 [(8, 8, handleOf 1 0 0 0), (16, 8, 2 ^ 63 + 0x50000000), (24, 4, 100), (32, 8, 0)]))

/-- The job runs. -/
def decoding : State := nx (.codecJobStart ⟨1, 1, false⟩ 16 16) waiting

/-- An encode job runs. -/
def encoding : State :=
  nx (.codecJobStart ⟨1, 1, false⟩ 16 16) (nx (.encode 7) (with7 openedEnc
    (entry 0x23 4 [(8, 8, handleOf 2 0 0 0), (16, 8, 2 ^ 63 + 0x50000000), (24, 8, 2 ^ 63 + 0x60000000), (32, 4, 100), (40, 8, 0)])))

/-- What the encoder says of a key frame of one rung whose bitstream is `n` bytes. -/
def coded (n : Nat) : EncFacts :=
  ⟨[⟨0, 0, [], 30, [⟨30, [100], [], [List.replicate (n - 17) 1], []⟩], [[1], [2]], []⟩], [], false, false⟩

theorem test_ticks : all [
  nx (.tick 1) up = up,
  (let s := { up with regs := words [(0x10054, 11)], time.groups := #v[⟨0, 1000⟩, ⟨0, 77⟩, ⟨0, 1000⟩, ⟨0, 1000⟩] }
  let t := nx (.tick 1) s
  let k := s.nextTick 1
  s.groupEn 1 && s.stage.armed == none && (s.advanceToDts (s.tickTime 1 k)).groupsAt (s.tickTime 1 k) == [1] &&
    t.time.groups[1] == ⟨tick62 k, k + 1⟩ && t.time.groups[0] == s.time.groups[0] && t.icu.pend.getLsbD 17)] = true := by decide +kernel

theorem test_jobs : all [
  waiting.codecRuns, waiting.idleCores != [], waiting.select.isSome,
  waiting.codec.jobs.all (fun k => k.phase == .waiting && k.cores == []),
  (let t := decoding
  t.codec.jobs.all (fun k => k.phase == .running && k.cores.length == 1 && k.cores.all (fun c =>
    waiting.idleCores.contains c && (t.core c).job == some k.id && (t.core c).upc == 0 && !(t.core c).ustopped))),
  (decoding.core 0).job.isSome, (decoding.dec 0).any (fun d => d.entries.length == 24),
  decoding.codec.jobs.all (fun j => j.entry.isSome),
  (let t := nx (.pictureEnd 0 { picture .picture false [] with sets := [⟨1, true, 16, 16, false⟩], refers := [1] }) decoding
  (t.core 0).job == none && (t.slot 7).any (fun y => y.phase == .finished && y.completion.status == .dataError &&
    y.completion.result0 == 0xFFFFFFFF)),
  (let t := nx (.pictureEnd 0 { picture .picture false [] with slices := [] }) decoding
  (t.slot 7).any (fun y => y.phase == .finished && y.completion.status == .okConcealed)),
  (let t := nx (.pictureEnd 0 (picture .picture false [])) decoding
  (t.slot 7).any (fun y => y.phase == .finished && y.completion.status == .ok && y.completion.result0 == 0xFFFFFFFF) &&
    (t.dec 0).any (fun d => d.decoded == 1 && d.curW == 16 && (d.entry 0).refShort)),
  (let t := nx (.pictureEnd 0 (picture .picture true [none])) decoding
  (t.slot 7).any (fun y => y.phase == .finished && y.completion.status == .ok && y.completion.result0 != 0xFFFFFFFF)),
  (let t := nx (.encodeFrameEnd 0 (coded 100)) encoding
  (encoding.core 0).job.isSome && (encoding.enc 0).any (fun e => !e.newer && e.ck.rungs.length == 1 &&
    encoding.codec.jobs.all (fun j => !encoding.encTooLate j e)) && (t.enc 0).any (fun e => e.newer && !e.keyDue) &&
    (t.slot 7).any (fun y => y.phase == .finished && y.completion.status == .ok && y.completion.result0 == 100)),
  (let t := nx (.encodeFrameEnd 0 (coded 101)) encoding
  (t.enc 0).any (fun e => !e.newer) && (t.slot 7).any (fun y => y.phase == .finished && y.completion.status == .noResource)),
  (let s := { openedEnc with codec.paced := [⟨0, 0, 0, 0, [], none, 17000000000⟩] }
  let t := nx (.encodePacketRelease 0) s
  t.codec.paced == [] && t.now == 17000000000),
  (let t := nx (.budgetAbort 0) decoding
  t.codec.jobs.all (fun j => j.budgetAbort) && (t.core 0).ustopped && only [.codec] decoding t)] = true := by decide +kernel

/-- Core 0 runs a job with a micro-store, at address 0. -/
def micro (w : Nat) (stack : List (BitVec 14)) (bad : List (Bool × Nat)) : State :=
  decoding.setCore 0 { decoding.core 0 with microStore := [(0, BitVec.ofNat 32 w)], nanoStore := [(3, 5)], ustack := stack, badParity := bad }

/-- A microword: nanoword 3, a condition, a target and its SEQ. -/
def uword (cond target seq : Nat) : Nat := 3 + cond * 2 ^ 12 + target * 2 ^ 16 + seq * 2 ^ 30

/-- The micro address and stack of core 0 after its next microword under conditions. -/
def uafter (s : State) (cond : BitVec 16) : BitVec 14 × List (BitVec 14) × Bool :=
  let x := (nx (.microword 0 ⟨false, false, cond⟩) s).core 0
  (x.upc, x.ustack, x.ustopped)

theorem test_microwords : all [
  decoding.loaded, (decoding.core 0).ustopped = false,
  (nx (.microword 0 ⟨false, false, 0⟩) (micro (uword 1 9 0) [] [])).core 0 =
    { (micro (uword 1 9 0) [] []).core 0 with upc := 9, issued := 5 },
  uafter (micro (uword 2 9 0) [] []) 4 = (9, [], false), uafter (micro (uword 2 9 0) [] []) 0 = (1, [], false),
  uafter (micro (uword 0 9 0) [] []) 1 = (1, [], false),
  uafter (micro (uword 1 9 1) [1, 2, 3] []) 0 = (9, [1, 1, 2, 3], false),
  uafter (micro (uword 1 9 1) [1, 2, 3, 4] []) 0 = (0, [1, 2, 3, 4], true),
  uafter (micro (uword 1 9 2) [7] []) 0 = (7, [], false), uafter (micro (uword 1 9 2) [] []) 0 = (0, [], true),
  uafter (micro (uword 5 9 3) [] []) 0 = (0, [], false), uafter (micro (uword 5 9 3) [] []) 32 = (1, [], false),
  ((nx (.microword 0 ⟨true, false, 0⟩) (micro (uword 1 9 1) [1, 2, 3, 4] [])).core 0).ustack = [1],
  ((nx (.microword 0 ⟨false, false, 0⟩) (micro (uword 1 9 0) [] [(false, 0)])).core 0).fault = 4,
  (let x := (nx (.microword 0 ⟨false, true, 0⟩) (micro (uword 1 9 0) [] [])).core 0
  x.fault == 4 && x.ustopped && x.upc == 0)] = true := by decide +kernel

theorem test_cores : all [
  (let t := nx (.sequencerWatchdog 0) decoding
  (t.core 0).ustopped && (t.core 0).fault == 5 && t.snuf.queue.length == 1 && only [.codec, .snuffer, .icu, .out] decoding t),
  decoding.poolUnits + 3000 ≤ 3000 * decoding.coresUp,
  (let t := nx (.coreLeavesService 0 true) decoding
  (t.core 0).st == .retired && t.snuf.retiredCores == 1 && t.codec.jobs.all (fun j => j.phase == .redo && j.redone && j.cores == [])),
  (let t := nx (.coreLeavesService 0 false) decoding
  let u := nx (.coreResetEnd 0 true) t
  let v := nx (.coreResetEnd 0 false) t
  (t.core 0).st == .resetting && t.snuf.resets == [.codec 0] && u.codec.returning == 1 && (u.core 0).st == .resetting &&
    u.snuf.resets == [] && u.icu.pend.getLsbD 6 && (v.core 0).st == .retired && v.snuf.retiredCores == 1),
  (let s := { codecs with pwr.mode := .night }
  let t := nx (.nightCoreClockGate 7) s
  t.pwr == { s.pwr with nightGated := 128 } && only [.power] s t)] = true := by decide +kernel

theorem test_compositor : all [
  (let s := { openedOut with cmp.group := some 1 }
  (nx (.frameBegin 0) s).cmp.waiting == [0]),
  openedOut.composes, openedOut.outsOf 0 = [0], (openedOut.outBuffers 0).length < 6,
  (openedOut.outp 0).any (fun x => openedOut.poolServes x.fn 16 x.pool && x.frame.isNone && x.updates == []),
  (let t := nx (.frameBegin 0) openedOut
  t.cmp.group == some 0 && (t.outp 0).any (fun y => y.frame.any (fun f => f.tick == openedOut.nextTick 0 && f.all && !f.ended))),
  (let s := nx (.frameBegin 0) openedOut
  let t := nx (.composeFrameEnd 0 0 0) s
  s.composing.head? == some 0 && (t.outp 0).any (fun y => y.frame.any (fun f => f.ended))),
  -- a frame of the background alone over the same picture: the comparison finds its block equal, and over another one not
  (let small := (nx (.frameBegin 0) openedOut).updOut 0 (fun x => { x with
    width := 2, height := 2, onShow := some 0, frame := x.frame.map (fun f => { f with all := false, dirty := 1 }) })
  let show_ := fun (y : Byte) => { small with
    dev := ((small.dev.setBytes (small.bufAddr 0) [y, 16]).setBytes (small.bufAddr 0 + 256) [16, 16]).setBytes (small.bufAddr 0 + 16384) [128, 128] }
  let damage := fun (y : Byte) => ((nx (.composeFrameEnd 0 0 0) (show_ y)).outp 0).bind (fun y => y.frame.map OutFrame.damage)
  damage 16 == some 0 && damage 17 == some 1),
  (let f : StFrame := ⟨0, 5, 0, 2, some 0⟩
  let s := { openedOut with cmp.outputs := [(0, (openedOut.outp 0).map (fun o => { o with st2110 := [f, f], stQueue := some 0, stSeq := 41 }))] }
  let t := nx (.st2110PacketSend 0 []) s
  (t.outp 0).any (fun y => y.stSeq == 42 && y.st2110 == [{ f with sent := 1 }, f]))] = true := by decide +kernel

theorem test_counts : all [
  (let s := { up with codec.evictions := 3 }
  let t := nx .cdcPoolEvictRead s
  s.bar0 0x10400C && t.rd == 3 && t.codec.evictions == 0 && only [.codec, .rd] s t),
  (let s := { up with cmp.lateCnt := 3 }
  let t := nx .cmpLateCntRead s
  t.rd == 3 && t.cmp.lateCnt == 0 && only [.compositor, .rd] s t),
  (let s := { up with swc.peak := 9 }
  let t := nx .swcBufPeakRead s
  t.rd == 9 && t.swc.peak == 0 && only [.switch, .rd] s t),
  (let s := { up with swc.counters := [(32 * 16 + 3, 0x100000002)] }
  let t := nx (.swcCntLowRead 16 3) s
  t.rd == 2 && t.swc.cntLatch == 1 && only [.switch, .rd] s t),
  (let s := { up with trf := { up.trf with gateDrop := [(16, 4)], redDrop := 5 } }
  let t := nx (.trfGateDropRead 16) s
  let u := nx .trfRedDropRead s
  t.rd == 4 && Table.get 0 t.trf.gateDrop 16 == 0 && u.rd == 5 && u.trf.redDrop == 0),
  (let s := { up with pool := { up.pool with refused := [(15, 7)], fallbacks := [(1, 8)] } }
  (nx (.bpmPoolRefusedRead 15) s).rd == 7 && (nx (.bpmPoolFallbacksRead 1) s).rd == 8),
  (nx .bpmAudViolRead { up with audit.viol := 2 }).rd = 2, (nx .snufCorrectedRead { up with snuf.corrected := 2 }).rd = 2,
  (nx .sysFabricCntRead { up with pwr.fabricCnt := 2 }).rd = 2, (nx .pwrPinPeakRead { up with pwr.pinPeak := 2 }).rd = 2,
  (let s := { up with cmp.counts := [(127, ⟨0, 1, 0, 2⟩)] }
  (nx (.cmpOutMissedRead 127) s).rd == 1 && (nx (.cmpOutStSkipRead 127) s).rd == 2),
  (let s := { up with swc.runs := [(1, { BindRun.fresh with full := 1, gaps := 2 })] }
  (nx (.swcRbDropRead 1) s).rd == 1 + 2 ^ 17)] = true := by decide +kernel

/-! ### CCWs -/

/-- The bytes of a CCW: FLAGS, SUBCH, COUNT, ADDRESS and an extension. -/
def cc (op flags sub count addr : Nat) (ext : List Byte := []) : List Byte :=
  [BitVec.ofNat 8 op, BitVec.ofNat 8 flags] ++ leBytes 2 sub ++ leBytes 4 count ++ leBytes 8 addr ++ ext

/-- A channel that is ACTIVE and about to fetch at host address 0x1000. -/
def ch : Channel := { Channel.free with st := .active, ccw := 0x1000 }

/-- Every subchannel granted to function 0, four Lamplighter cores in service, channels 3 (ACTIVE) and 4. -/
def chans : State :=
  { up with
    regs := words ((List.range 128).map (fun u => (0xE0100 + 4 * u, 16)) ++ [(0x10054, 10 * 2 + 1)])
    lmp.cores := 0xF, lmp.chans := [(3, ch), (4, { ch with st := .idle, ccw := 0x2000 })] }

/-- `chans` with channel 3 changed. -/
def with3 (f : Channel → Channel) : State := { chans with lmp.chans := [(3, f ch), (4, { ch with st := .idle, ccw := 0x2000 })] }

/-- A CCW begins on channel 3: each condition of CcwStarts holds. -/
def startsIn (s : State) (w : List Byte) (op : Nat) : Bool :=
  let x := s.chan 3
  let b := ccwAhead s 3 w
  x.st == .active && x.cur.isNone && !x.skip && x.suspend.isNone && s.ccwsGoOn && s.chansRun && (s.fetchCheck x.ccw w).isNone
    && !ccwFlag b 3 && ccwOp b == op && (ccwFlagCheck b).isNone
/-- The same, and the state in which it has begun is ccwBegun. -/
def beginsIn (s : State) (w : List Byte) (op : Nat) : Bool :=
  startsIn s w op &&
  match s.beginCcw 3 w (· == op) with
  | .ok (t, a) => decide (t = ccwBegun s 3 w) && a == ccwAhead s 3 w
  | .error _ => false

/-- The state in which the CCW has begun. -/
def begun (s : State) (w : List Byte) (op : Nat) : State :=
  match s.beginCcw 3 w (· == op) with
  | .ok (t, _) => t
  | .error t => t

/-- A command answers exactly a state. -/
def gives (c : Instr) (s t : State) : Bool :=
  match exec c s with
  | .next u => decide (u = t)
  | _ => false

theorem test_ccw_begins : all [
  beginsIn chans (cc 0x05 1 0 0 0) 0x05, beginsIn chans (cc 0x08 1 0 0 0x3000) 0x08, beginsIn chans (cc 0x09 1 1 4 0) 0x09,
  beginsIn chans (cc 0x0A 1 0 7 2) 0x0A, beginsIn chans (cc 0x0B 1 0 7 0) 0x0B, beginsIn chans (cc 0x0C 1 4 3 0) 0x0C,
  (let t := begun chans (cc 0x05 1 0 0 0) 0x05
  (t.chan 3).cur.isSome && (t.chan 3).st != .halting && (t.chan 3).suspend.isNone),
  (let t := nx (.ccwNop 3 (cc 0x05 1 0 0 0)) chans
  (t.chan 3).st == .active && (t.chan 3).ccw == 0x1010 && (t.chan 3).cur.isNone),
  (let t := nx (.ccwNop 3 (cc 0x05 0 0 0 0)) chans
  (t.chan 3).st == .ended && (t.chan 3).result == .ok && (t.chan 3).cswSeq == 1)] = true := by decide +kernel

theorem test_basic_ccws : all [
  (let w := cc 0x08 1 0 0 0x3000
  let t := begun chans w 0x08
  gives (.ccwTic 3 w) chans (t.setChan 3 { t.chan 3 with cur := none, ccw := 0x3000, ticked := true })),
  (let s := with3 (fun x => { x with ticked := true })
  let w := cc 0x08 1 0 0 0x3000
  beginsIn s w 0x08 && gives (.ccwTic 3 w) s ((begun s w 0x08).failCcw 3 .programError .ticTic 0)),
  (let w := cc 0x09 1 1 65535 0
  let t := begun chans w 0x09
  t.groupEn 1 && gives (.ccwWaitTick 3 w) chans (t.setChan 3 { t.chan 3 with st := .waiting, wait := .ticks 1 65535 })),
  (let s := with3 (fun x => { x with events := 6 })
  let t := nx (.ccwWaitEvent 3 (cc 0x0A 1 0 7 2)) s
  beginsIn s (cc 0x0A 1 0 7 2) 0x0A && (t.chan 3).events == 4 && (t.chan 3).ccw == 0x1010),
  (let t := nx (.ccwWaitEvent 3 (cc 0x0A 1 0 0 2)) chans
  (t.chan 3).skip && (t.chan 3).ccw == 0x1010),
  (let t := nx (.ccwWaitEvent 3 (cc 0x0A 1 0 7 2)) chans
  (t.chan 3).wait == .event 2 (some (chans.time.run + 7 * microsecond)) && (t.chan 3).st == .waiting),
  (let t := nx (.ccwWaitEvent 3 (cc 0x0A 1 0 0xFFFFFFFF 2)) chans
  (t.chan 3).wait == .event 2 none),
  (let t := nx (.ccwSetTimer 3 (cc 0x0B 1 0 7 0)) chans
  (t.chan 3).timer == some (chans.time.run + 7 * microsecond)),
  (let t := nx (.ccwPost 3 (cc 0x0C 1 4 0xFFFFFF 0)) chans
  (t.chan 4).events == 0xFFFFFF && (t.chan 3).ccw == 0x1010),
  (let t := nx (.ccwPost 3 (cc 0x0C 1 3 5 0)) chans
  beginsIn chans (cc 0x0C 1 3 5 0) 0x0C && (t.chan 3).events == 5 && (t.chan 3).ccw == 0x1010),
  (let t := nx (.ccwPost 3 (cc 0x0C 1 63 1 0)) chans
  (t.chan 3).result == .accessError && (t.chan 3).st == .ended && (chans.chan 63).st == .free)] = true := by decide +kernel

theorem test_events : all [
  chans.live, chans.access .lantern (0xE100C + 64 * 3),
  (let t := nx (.lmpChEventWrite .lantern 3 0xFF000005) chans
  t.chan 3 == { ch with events := 5 } && only [.channels] chans t),
  (let k : CurCcw := ⟨0x1000, cc 0x0A 1 0 7 4, [], [], []⟩
  let s := with3 (fun x => { x with st := .waiting, wait := .event 4 (some (chans.time.run + 5)), cur := some k })
  let t := nx (.lmpChEventWrite .lantern 3 5) s
  let u := nx (.waitEventTimeout 3) s
  (t.chan 3).events == 1 && (t.chan 3).st == .active && (t.chan 3).ccw == 0x1010 && !(t.chan 3).skip &&
    (u.chan 3).skip && u.time.run == chans.time.run + 5 && (u.chan 3).ccw == 0x1010),
  (let s := with3 (fun x => { x with timer := some (chans.time.run + 3) })
  let t := nx (.channelTimerExpiry 3) s
  t.chan 3 == { ch with events := 0x80000000 } && t.time.run == chans.time.run + 3 && only [.channels, .time] s t),
  (let k : CurCcw := ⟨0x1000, cc 0x0D 0x81 0x2000 7 4, [], [], []⟩
  let s0 := with3 (fun x => { x with wait := .call 2 (chans.time.run + 5), cur := some k })
  let w0 := s0.wc 8
  let s := s0.setWc 8 { w0 with call := some ⟨3, 0x40, false, 0, 0, 0⟩, u := true, pc := 0x80 }
  let t := nx (.routineTimeout 3) s
  (s.chan 3).st == .active && (t.chan 3).code == .routineTimeout && (t.chan 3).st == .ended && (t.wc 8).call.isNone &&
    (t.wc 8).pc == 0x40 && !(t.wc 8).u)] = true := by decide +kernel

/-- The header of a routine of 8 bytes of code and 4 of data, and its first code bytes, at device address 0x50000000. -/
def image : Mem :=
  Mem.setBytes [] 0x50000000 (leBytes 4 0x4C5A5254 ++ leBytes 4 8 ++ leBytes 4 4 ++ leBytes 4 0 ++ leBytes 4 4 ++ leBytes 2 1 ++ leBytes 2 7
    ++ List.replicate 40 0 ++ [1, 2, 3, 4, 5, 6, 7, 8])

/-- `chans` with routine 2 selected for loading from that image. -/
def loader : State := { chans with dev := image, regs := words [(0xE0010, 2), (0xE0014, 0x50000000), (0xE0100, 16)] }

theorem test_routines : all [
  loader.access .lantern 0xE001C, loader.live, routineHeaderOk (loader.dev.bytes 0x50000000 64), loader.poisonIn 0x50000000 72 = [],
  inDevice 0x50000000 72,
  (let t := nx (.routineLoad .lantern 1) loader
  t.lmp.rtResult == 0 && t.routine 2 == some ⟨0, 8, 4, 4, 1, 7⟩ && only [.channels, .wick] loader t &&
    t.wick.cluster.bytes 0x1C0000 12 == [1, 2, 3, 4, 5, 6, 7, 8, 0, 0, 0, 0] &&
    gives (.routineLoad .lantern 1) t (t.rtResult 4)),
  (let s := { loader with dev := [] }
  !routineHeaderOk (s.dev.bytes 0x50000000 64) && gives (.routineLoad .lantern 1) s (s.rtResult 3)),
  (let s := { loader with lmp := { loader.lmp with routines := [(0, some ⟨0, 0x40000, 0, 0, 0, 0⟩)] } }
  routineGap 12 s.routineSpace 0 == none && gives (.routineLoad .lantern 1) s (s.rtResult 2)),
  (let s := nx (.routineLoad .lantern 1) loader
  let t := nx (.routineUnload .lantern 2) s
  let b := s.setChan 3 { ch with wait := .call 2 5 }
  !s.routineBusy 2 && t.routine 2 == none && t.lmp.rtResult == 0 && only [.channels] s t &&
    b.routineBusy 2 && gives (.routineUnload .lantern 2) b (b.rtResult 1)),
  (let s := nx (.routineLoad .lantern 1) loader
  let w := cc 0x0D 0x81 0x2000 9 (2 ^ 63 + 0x60000000) ([2, 0, 0, 0] ++ leBytes 4 77 ++ leBytes 8 0)
  let t := nx (.ccwCall 3 w) s
  beginsIn s w 0x0D && (s.areaCheck (BitVec.ofNat 64 (2 ^ 63 + 0x60000000)) 9) == none &&
    (t.chan 3).wait == .call 2 (s.time.run + microsecond * 1000) &&
    (t.wc 8).pc == 4 && (t.wc 8).u && (t.wc 8).reg 1 == 9 && (t.wc 8).reg 2 == 77 && (t.wc 8).call.any (fun k => k.channel == 3)),
  (let s := (nx (.routineLoad .lantern 1) loader).setChan 3 { ch with fn := 2 }
  let w := cc 0x0D 0x81 0x2000 9 (2 ^ 63 + 0x60000000) ([2, 0, 0, 0] ++ leBytes 12 0)
  beginsIn s w 0x0D && gives (.ccwCall 3 w) s ((begun s w 0x0D).failCcw 3 .accessError .protection 0))] = true := by decide +kernel

/-- What a transfer ended with. -/
def ended (sense : Fin 11) (rx : List Byte) (moved : Nat) : TransferEnd := ⟨rx, moved, sense, false, false, false⟩

/-- A WRITE of 4 bytes to UART 1 is under way on channel 3. -/
def writing : State := nx (.ccwWrite 3 (cc 0x01 1 1 4 0x8000) [] [1, 2, 3, 4]) chans
/-- A READ of 4 bytes from SPI 0 to host address 0x8000 is under way on channel 3, with a time-out and one retry. -/
def reading : State := nx (.ccwRead 3 (cc 0x02 0x81 0x2008 4 0x8000 ([1, 0, 0, 0] ++ leBytes 4 500 ++ leBytes 8 0)) []) chans

theorem test_transfers : all [
  beginsIn chans (cc 0x01 1 1 4 0x8000) 0x01, (chans.subCheck 3 1 0x01).isNone, (chans.subCheck 3 8 0x02).isNone,
  (writing.chan 3).cur.any (fun k => k.data == [1, 2, 3, 4] && k.areas == [(some 0x8000, 4)]), (writing.chan 3).wait == .transfer 1 none,
  (reading.chan 3).cur.any (fun k => k.data == [] && k.areas == [(some 0x8000, 4)]),
  (reading.chan 3).wait == .transfer 8 (some (chans.now + microsecond * 500)),
  (let t := nx (.ccwWrite 3 (cc 0x01 3 1 4 0x8000) [] [1, 2, 3, 4]) chans
  (t.chan 3).spanning && (t.chan 3).ccw == 0x1010),
  (let t := nx (.ccwRead 3 (cc 0x02 5 8 4 0x8000) []) chans
  (t.chan 3).cur.any (fun k => k.areas == [(none, 4)])),
  (let w := cc 0x04 1 8 32 0x8000
  let t := nx (.ccwSense 3 w []) chans
  beginsIn chans w 0x04 && (t.chan 3).result == .ok && (t.chan 3).st == .active && (t.host.bytes 0x8000 32) == chans.senseBytes 3 8),
  (let t := nx (.ccwSense 3 (cc 0x04 1 8 31 0x8000) []) chans
  (t.chan 3).result == .lengthError && (t.chan 3).st == .ended),
  (let t := nx (.peripheralTransferEnd 3 (ended 0 [] 4)) writing
  t.out.contains (.peripheral 1 [1, 2, 3, 4]) && (t.chan 3).st == .active && (t.chan 3).ccw == 0x1010 && (t.chan 3).result == .ok),
  (let t := nx (.peripheralTransferEnd 3 (ended 0 [9, 8, 7, 6, 5] 4)) reading
  t.host.bytes 0x8000 5 == [9, 8, 7, 6, 0] && (t.chan 3).st == .active && (t.chan 3).result == .ok && (t.chan 3).residual == 0),
  (let t := nx (.peripheralTransferEnd 3 (ended 0 [9, 8, 7, 6] 4)) reading
  t.out.contains (.peripheral 8 [0xFF, 0xFF, 0xFF, 0xFF])),
  -- a UART in RS-485 with the terminator 7: the driver is enabled around a WRITE, and a READ stops at the terminator
  (let cfg : List Byte := leBytes 4 1 ++ leBytes 4 115200 ++ [0x10, 1, 3, 2] ++ leBytes 2 100 ++ [4, 7] ++ List.replicate 16 0
  let s := { writing with lmp.config := [(1, cfg)] }
  (nx (.peripheralTransferEnd 3 (ended 0 [] 4)) s).out.contains (.driveEnable 1 3 2) && s.untilTerm 1 [9, 8, 7, 6, 7] == [9, 8, 7] &&
    s.untilTerm 1 [9, 8] == [9, 8] && s.untilTerm 2 [7, 6] == [7, 6]),
  (let t := nx (.peripheralTransferEnd 3 (ended 0 [9] 1)) reading
  t.host.bytes 0x8000 2 == [9, 0] && (t.chan 3).st == .ended && (t.chan 3).result == .lengthError && (t.chan 3).residual == 3),
  (let t := nx (.peripheralTransferEnd 3 ⟨[], 0, 0, false, false, true⟩) writing
  (t.chan 3).st == .ended && (t.chan 3).result == .unitLost),
  (let t := nx (.readTimeout 3) reading
  (t.chan 3).wait == .retry 8 t.now && (t.chan 3).retriesUsed == 1 && t.now == chans.now + microsecond * 500),
  (let s := reading.setChan 3 { reading.chan 3 with retriesUsed := 1 }
  let t := nx (.readTimeout 3) s
  (t.chan 3).st == .ended && (t.chan 3).result == .unitError && (t.chan 3).detail == 6 && (Table.get ⟨0, 0, 0, 0⟩ t.lmp.sense 8).code == 6),
  (let x := writing.chan 3
  let s := writing.setChan 3 { x with wait := .retry 1 77 }
  gives (.ccwRetry 3) s (s.setChan 3 { x with wait := .transfer 1 none }))] = true := by decide +kernel

/-- Channel 3 is ACTIVE in a state. -/
def on3 (s : State) : State := { s with lmp := { s.lmp with cores := 0xF, chans := [(3, ch)] } }

/-- The CCW begins, is not a program error, and its order is under way: `f` is what the unit answers. -/
def unitRuns (s : State) (w : List Byte) (op : Nat) (i : Instr) (f : State → Ask → Asked) (async : Bool) : Bool :=
  match s.beginCcw 3 w (· == op) with
  | .error _ => false
  | .ok (t, b) =>
    let x := t.chan 3
    let t1 := if async then t else t.setChan 3 { x with st := .waiting, wait := .job }
    ccwAsync b == async && (t.unitCcwBad x.fn b).isNone &&
    match f t1 ⟨b, x.fn, .chan 3, .channel 3 async⟩ with
    | .ok t2 => gives i s (if async then t2.endCcw 3 .ok .none 0 0 else t2)
    | .error _ => false

theorem test_unit_ccws : all [
  (let s := on3 opened
  let w := cc 0x20 0x81 (0x3000 + 0x200) 0 (handleOf 1 0 0 0) (leBytes 8 (2 ^ 63 + 0x50000000) ++ leBytes 4 100 ++ leBytes 4 0 ++ leBytes 8 1000 ++ leBytes 8 0)
  unitRuns s w 0x20 (.ccwDecode 3 w) (fun t a => t.askDecode a) false),
  (let s := on3 opened
  let w := cc 0x20 0x81 (0x3000 + 0x600) 0 (handleOf 1 0 0 0) (leBytes 8 (2 ^ 63 + 0x50000000) ++ leBytes 4 100 ++ leBytes 4 0 ++ leBytes 8 1000 ++ leBytes 8 0)
  unitRuns s w 0x20 (.ccwDecode 3 w) (fun t a => t.askDecode a) true),
  (let s := on3 openedEnc
  let w := cc 0x21 0x81 (0x3000 + 0x100) 0 (handleOf 2 0 0 0) (leBytes 8 (2 ^ 63 + 0x50000000) ++ leBytes 8 (2 ^ 63 + 0x60000000) ++ leBytes 8 100 ++ leBytes 8 1000)
  startsIn s w 0x21 && (s.unitCcwBad 0 w).isNone && ((nx (.ccwEncode 3 w) s).chan 3).wait == .job),
  (let s := on3 openedOut
  let w := cc 0x22 0x81 (0x4000 + 0x080) 0 (handleOf 3 0 0 0) ((entry 0x24 4 [(16, 1, 15), (17, 1, 3), (32, 2, 0), (36, 2, 64), (38, 2, 64),
    (44, 2, 64), (46, 2, 64), (48, 1, 255), (56, 8, 1000)]).drop 16)
  startsIn s w 0x22 && (s.unitCcwBad 0 w).isNone && ((nx (.ccwCompose 3 w ⟨[], [], [], [], true⟩) s).chan 3).wait == .job),
  (let s := on3 opened
  let w := cc 0x23 0x81 (0x3000 + 0x020) 0 (handleOf 4 0 0 0) (leBytes 8 (2 ^ 63 + 0x50000000) ++ leBytes 8 60 ++ leBytes 8 1000 ++ leBytes 8 0)
  unitRuns s w 0x23 (.ccwSend 3 w []) (fun t a => t.askSend a []) false),
  (let s := on3 opened
  let w := cc 0x23 0x81 (0x3000 + 0x020) 0 (handleOf 4 0 0 0) (leBytes 8 (2 ^ 63 + 0x50000000) ++ leBytes 8 59 ++ leBytes 8 1000 ++ leBytes 8 0)
  let t := nx (.ccwSend 3 w []) s
  (s.unitCcwBad 0 w).isNone && (t.chan 3).result == .unitError && (t.chan 3).detail == BitVec.ofNat 8 Status.invalidField.code),
  (let s := on3 opened
  let w := cc 0x23 0x81 (0x3000 + 0x021) 0 (handleOf 4 0 0 0) (leBytes 32 0)
  beginsIn s w 0x23 && s.unitCcwBad 0 w == some .invalidSubchannel && (s.unitCcwBad 0 (cc 0x23 0x81 0x3020 0 (handleOf 4 9 0 0) (leBytes 32 0))) == some .protection)] = true := by
  decide +kernel

/-! ### Peripherals -/

/-- A CAN record with an identifier. -/
def canFrame (id : Nat) : List Byte := leBytes 4 id ++ List.replicate 76 7
/-- An enabled filter on an identifier. -/
def canFilterOn (id mask : Nat) : List Byte := leBytes 4 2 ++ leBytes 4 id ++ leBytes 4 mask ++ [2] ++ List.replicate 19 0

theorem test_lines : all [
  chans.live && !chans.pwr.brownOut,
  (let t := nx (.lineStuck 7) chans
  t.nvs.log.head?.any (fun r => r.type == 6 && r.payload == leBytes 2 7 ++ [1, 0] ++ leBytes 4 0) && t.lmp == { chans.lmp with stuck := 0x80 } &&
    only [.channels, .nvs] chans t),
  (let t := nx (.lineStuck 1) writing
  writing.transferOn 1 == some 3 && (Table.get ⟨0, 0, 0, 0⟩ t.lmp.sense 1).code == 1 && t.lmp.stuck == 0),
  (let t := nx (.busFault 3 1) chans
  chans.transferOn 15 == none && t.nvs.log.head?.any (fun r => r.payload == leBytes 2 15 ++ [2, 1] ++ leBytes 4 0) && only [.nvs] chans t),
  (let s := nx (.ccwWrite 3 (cc 0x01 1 0x0C 4 0x8000) [] [1, 2, 3, 4]) chans
  let t := nx (.busFault 0 2) s
  s.transferOn 0x0C == some 3 && (Table.get ⟨0, 0, 0, 0⟩ t.lmp.sense 0x0C).code == 2 && (Table.get ⟨0, 0, 0, 0⟩ t.lmp.sense 0x0C).levels == 2),
  (let s := { chans with lmp := { chans.lmp with canFilters := [(32 + 31, canFilterOn 0x155 0x7FF)] } }
  let t := nx (.canFrameRx 1 (canFrame 0x155)) s
  filterPasses (canFilterOn 0x155 0x7FF) (canFrame 0x155) &&
    Table.get [] t.lmp.canRx 1 == [(canFrame 0x155).take 8 ++ leBytes 8 s.time.dts.toNat ++ (canFrame 0x155).drop 16] &&
    only [.channels] s t && gives (.canFrameRx 1 (canFrame 0x154)) s s),
  (let s := { chans with lmp := { chans.lmp with gpioDrive := 1, gpioEvents := [(47, some ⟨3, 23, 2⟩)] } }
  let t := nx (.gpioEdge 47 false) s
  let u := nx (.gpioEdge 46 true) s
  gives (.gpioEdge 0 true) s s && (t.chan 3).events == 1 <<< 23 && !t.lmp.gpioIn.getLsbD 47 && u.lmp.gpioIn == 1 <<< 46 &&
    u.lmp.chans == s.lmp.chans && only [.channels] s u),
  (let s := { chans with lmp := { chans.lmp with cores := 0xF } }
  s.chansRun && s.lmp.cores.getLsbD 3 && gives (.lamplighterStall 3 3) s (s.fault 0x053 3 0))] = true := by decide +kernel

/-- An order block. -/
def block (fields : List (Nat × Nat × Nat)) : List Byte :=
  fields.foldl (fun b f => b.take f.1 ++ leBytes f.2.1 f.2.2 ++ b.drop (f.1 + f.2.1)) (List.replicate 32 0)

/-- A CONTROL on a subchannel of channel 3 begins with an order that is carried out: each condition of OrderRuns holds. -/
def orders (kind : PKind) (u : Nat) (blk : List Byte) : Bool :=
  let w := cc 0x03 1 u 32 0x8000
  let t := ccwBegun chans 3 w
  beginsIn chans w 0x03 && orderOk kind blk && chans.orderBlock w blk == blk && periph u == some kind && t.subGranted 3 u
    && ccwExtFields u w && decide (ccwCount w ≤ 16777215) && (match t.ccwAreas w 32 [ccwAddr w] with | .ok _ => true | .error _ => false)
    && [none, some 3].contains (Table.get none chans.lmp.busy u) && !(isDevice (ccwAddr w))

theorem test_orders : all [
  (let k := block [(0, 1, 1), (4, 4, 300), (12, 2, 1000), (14, 1, 1)]
  let t := nx (.uartConfig 3 (cc 0x03 1 7 32 0x8000) k) chans
  orders .uart 7 k && t.periphConfig 7 == k && (t.chan 3).ccw == 0x1010 && (t.chan 3).result == .ok),
  (let k := block [(0, 1, 2), (4, 4, 1000000)]
  let t := nx (.uartBreak 3 (cc 0x03 1 0 32 0x8000) k) chans
  orders .uart 0 k && t.out == .line 0 1000000 :: chans.out && (t.chan 3).wait == .transfer 0 none),
  (let k := block [(0, 1, 1), (4, 4, 50000000), (8, 1, 3)]
  orders .spi 0x0B k && (nx (.spiConfig 3 (cc 0x03 1 0x0B 32 0x8000) k) chans).periphConfig 0x0B == k),
  (let k := block [(0, 1, 1), (4, 4, 400000)]
  orders .i2c 0x0C k && (nx (.i2cConfig 3 (cc 0x03 1 0x0C 32 0x8000) k) chans).periphConfig 0x0C == k),
  (let k := block [(0, 1, 2)]
  let t := nx (.busClear 3 (cc 0x03 1 0x0C 32 0x8000) k false) chans
  let u := nx (.busClear 3 (cc 0x03 1 0x0C 32 0x8000) k true) chans
  orders .i2c 0x0C k && t.out == .line 0x0C 9 :: chans.out && (t.chan 3).result == .ok && (u.chan 3).result == .unitError &&
    (Table.get ⟨0, 0, 0, 0⟩ u.lmp.sense 0x0C).code == 2),
  (let k := block [(0, 1, 1), (4, 4, 125000), (8, 4, 8000000), (12, 1, 7)]
  orders .can 0x11 k && (nx (.canConfig 3 (cc 0x03 1 0x11 32 0x8000) k) chans).periphConfig 0x11 == k),
  (let k := block [(0, 1, 2), (1, 1, 31), (4, 4, 5), (12, 1, 2)]
  orders .can 0x11 k && Table.get [] (nx (.canFilter 3 (cc 0x03 1 0x11 32 0x8000) k) chans).lmp.canFilters 63 == k),
  (let k := block [(0, 1, 3)]
  let s := { chans with lmp := { chans.lmp with busOff := 3 } }
  orders .can 0x11 k && (nx (.canRecover 3 (cc 0x03 1 0x11 32 0x8000) k) s).lmp.busOff == 1),
  (let k := block [(0, 1, 1), (4, 4, 48000), (8, 1, 32), (9, 1, 8)]
  orders .i2s 0x15 k && (nx (.i2sConfig 3 (cc 0x03 1 0x15 32 0x8000) k) chans).periphConfig 0x15 == k),
  (let k := block [(0, 1, 1), (8, 8, 2 ^ 47 + 1), (16, 8, 3)]
  let s := { chans with lmp := { chans.lmp with gpioOut := 6 } }
  orders .gpio 0x16 k && (nx (.gpioDrive 3 (cc 0x03 1 0x16 32 0x8000) k) s).lmp.gpioOut == BitVec.ofNat 48 (2 ^ 47 + 5)),
  (let k := block [(0, 1, 2), (8, 8, 2 ^ 48 - 1)]
  orders .gpio 0x16 k && (nx (.gpioDirection 3 (cc 0x03 1 0x16 32 0x8000) k) chans).lmp.gpioDrive == BitVec.ofNat 48 (2 ^ 48 - 1)),
  (let k := block [(0, 1, 3), (4, 4, 1000000), (8, 8, 5)]
  orders .gpio 0x16 k && (nx (.gpioPulse 3 (cc 0x03 1 0x16 32 0x8000) k) chans).lmp.gpioPulses == [(5, chans.now + microsecond * 1000000)]),
  (let k := block [(0, 1, 4), (1, 1, 47), (2, 1, 4), (3, 1, 23), (4, 1, 3)]
  orders .gpio 0x16 k && Table.get .none (nx (.gpioEvent 3 (cc 0x03 1 0x16 32 0x8000) k) chans).lmp.gpioEvents 47 == some ⟨4, 23, 3⟩),
  (let k := block [(0, 1, 1), (4, 2, 4), (6, 2, 0xFFFF), (8, 8, 0x20000)]
  let w := cc 0x03 1 0x22 32 0x8000
  let t := nx (.statusRing 3 w k) chans
  beginsIn chans w 0x03 && chans.ringOrderOk 0 k && (t.chan 3).ring == some ⟨0x20000, 4, 0xFFFF, 0⟩ && (t.chan 3).result == .ok)] = true := by
  decide +kernel

/-- A STAGE sub-operation of channel 3. -/
def stageCcw (sub : Nat) (ext : List Byte) (count : Nat := 0) (op : Nat := 0) : List Byte :=
  cc 0x03 0x81 (0x2000 + 0x21 + sub) count 0x8000 ([BitVec.ofNat 8 op] ++ ext)

/-- Channel 3 holds the open session. -/
def chanStage (st : StageSt) : State := { chans with stage := { chans.stage with st := st, holder := some (.chan 3, .channel) } }

theorem test_channel_stage : all [
  beginsIn chans (stageCcw 0 (leBytes 15 0)) 0x03, (chanStage .opened).holds (.chan 3) .channel,
  (let t := nx (.ccwControlStage 3 (stageCcw 0 (leBytes 15 0)) []) chans
  t.stage.st == .opened && t.stage.holder == some (.chan 3, .channel) && (t.chan 3).result == .ok && (t.chan 3).ccw == 0x1020),
  (let t := nx (.ccwControlStage 3 (stageCcw 0 (leBytes 15 0) 8 1) (leBytes 4 0x80124 ++ leBytes 4 9)) (chanStage .opened)
  Table.get none t.stage.regs 0x80124 == some 9 && (t.chan 3).result == .ok),
  (let t := nx (.ccwControlStage 3 (stageCcw 0 (leBytes 15 0) 8 1) (leBytes 4 0x80124 ++ leBytes 4 9))
    { chans with stage := { chans.stage with st := .opened, holder := some (.lantern, .reg) } }
  (t.chan 3).result == .unitError),
  (let t := nx (.ccwControlStage 3 (stageCcw 0 (leBytes 15 0) 0 2) []) chans
  (t.chan 3).result == .unitError && (t.chan 3).detail == BitVec.ofNat 8 Status.notPermitted.code),
  (let t := nx (.ccwControlStage 3 (stageCcw 0 (leBytes 15 0) 0 2) []) (chanStage .opened)
  t.stage.st == .checking && (t.chan 3).wait == .job),
  (let t := nx (.ccwControlStage 3 (stageCcw 0x400 (leBytes 15 0) 0 2) []) (chanStage .opened)
  t.stage.st == .checking && (t.chan 3).result == .ok && (t.chan 3).ccw == 0x1020),
  (let t := nx (.ccwControlStage 3 (stageCcw 0 (leBytes 15 0) 0 4) []) (chanStage .opened)
  t.stage.st == .cancelled && (t.chan 3).result == .ok),
  (let t := nx (.ccwControlStage 3 (stageCcw 0 (leBytes 15 0) 0 5) []) chans
  (t.chan 3).result == .ok),
  (let s := { chans with stage := { chans.stage with st := .opened, holder := some (.chan 3, .reg) } }
  let t := nx (.ccwControlStage 3 (stageCcw 0 (leBytes 15 0)) []) s
  (t.chan 3).result == .unitError && (t.chan 3).detail == BitVec.ofNat 8 Status.busy.code && t.stage == s.stage),
  (let s := { chans with stage := { chans.stage with st := .opened, holder := some (.lantern, .reg) } }
  let t := nx (.ccwControlStage 3 (stageCcw 0 (leBytes 15 0)) []) s
  decide (masterRank .lantern < masterRank (.chan 3)) && (t.chan 3).result == .unitError &&
    (t.chan 3).detail == BitVec.ofNat 8 Status.conflict.code && t.stage.holder == s.stage.holder),
  (let t := nx (.ccwControlStage 3 (stageCcw 0 (leBytes 15 0) 0 3) []) (chanStage .opened)
  (t.chan 3).result == .unitError && (t.chan 3).detail == BitVec.ofNat 8 Status.invalidField.code && t.stage.code == .notChecked),
  (let s := chanStage .checked
  let t := nx (.ccwControlStage 3 (stageCcw 0 ([1] ++ leBytes 6 0 ++ leBytes 8 16000160000) 0 3) []) s
  s.untilDts 16000160000 == 160000 && t.stage.armed == some (.dts 16000160000) && t.stage.st == .armed && (t.chan 3).wait == .job),
  (let t := nx (.ccwControlStage 3 (stageCcw 0 (leBytes 15 0) 0 3) []) (chanStage .checked)
  t.stage.st == .armed && (t.chan 3).wait == .job)] = true := by decide +kernel

/-! ### Modes, power and the start -/

/-- A device in a mode. -/
def inMode (m : Mode) : State := { rings with pwr := { rings.pwr with mode := m } }
/-- The device with a changed power state. -/
def pw (s : State) (f : PwrState → PwrState) : State := { s with pwr := f s.pwr }
/-- SET_FEATURE MODE in slot 7. -/
def setMode (s : State) (n : Nat) : State := with7 s (entry 7 2 [(16, 1, 5), (24, 1, n)])

theorem test_modes_by_command : all [
  (setMode rings 4).ready 7 7 == some (accepted (entry 7 2 [(16, 1, 5), (24, 1, 4)])),
  ((setMode rings 4).rivals .mode 4 (.fn 0)).isEmpty,
  (let s := setMode rings 4
  let t := nx (.setModeRequest 7) s
  done7 t .ok 4 0 && t.pwr == s.pwr && only [.queues, .stage] s t),
  (let s := pw (setMode rings 3) (fun p => { p with change := some ⟨none, .request, none, none, 5, 0, true⟩ })
  let t := nx (.setModeRequest 7) s
  s.changing && done7 t .busy 0 0 && t.pwr == s.pwr),
  (let s := setMode rings 15
  let t := nx (.setModeRequest 7) s
  done7 t .notPermitted 0 0 && t.pwr == s.pwr),
  (let s := setMode rings 5
  let t := nx (.setModeRequest 7) s
  t.pwr.change.any (fun c => c.target == none && c.requester == some (.command 7) && c.asked == 5 && c.dueAt == s.now && c.atTick) &&
    t.pwr.base == .night && runs7 t),
  (let s := setMode rings 1
  let t := nx (.setModeRequest 7) s
  done7 t .ok 1 0 && t.pwr.change.any (fun c => c.target == some .pilot && c.dueAt == s.now + 100 * millisecond && !c.atTick))] = true := by
  decide +kernel

theorem test_modes_by_register : all [
  rings.access .lantern 0x60004,
  (let t := nx (.pwrModeReq .lantern 4) rings
  t.pwr == { rings.pwr with resCode := .ok, resMode := 4 } && only [.power, .queues, .stage] rings t),
  (let s := pw rings (fun p => { p with change := some ⟨none, .request, none, none, 5, 0, true⟩ })
  let t := nx (.pwrModeReq .lantern 3) s
  t.pwr == { s.pwr with resCode := .busy, resMode := 3 } && only [.power, .queues] s t),
  (let t := nx (.pwrModeReq .lantern 15) rings
  t.pwr == { rings.pwr with resCode := .notPermitted, resMode := 15 } && only [.power, .queues] rings t),
  (let s := inMode .provision
  let t := nx (.pwrModeReq .lantern 4) s
  t.pwr.change.any (fun c => c.target == none && c.requester == some (.register .lantern) && c.atTick) && t.pwr.base == .service),
  (let s := pw (inMode .service) (fun p => { p with change := some ⟨some .standby, .request, some (.register .lantern), none, 8, p.bootStep + 20000000000, false⟩ })
  let t := nx .modeTransitionEnd s
  t.pwr.mode == .standby && t.now == 20000000008 && t.pwr.change == none && t.icu.pend.getLsbD 280 && t.pwr.resCode == .ok && t.pwr.resMode == 8),
  (let s := pw (inMode .service) (fun p => { p with change := some ⟨some .pilot, .request, none, none, 1, 0, false⟩ })
  let t := nx .modeTransitionEnd s
  t.pwr.mode == .pilot && shutdownCause t.nvs.shutdown == 1 && t.qm == QmState.reset && t.dev == [] && t.host == s.host)] = true := by
  decide +kernel

/-- A reading of every sensor at one temperature. -/
def reading_ (t : Int) (pin : Nat) : SensorReading := ⟨List.replicate 14 (some t), 3300, 1000, pin, []⟩

theorem test_sensors : all [
  up.sensorsRun, (up.takeReading (reading_ 100 3000)).pwr.tj < 460,
  (let t := nx (.sensorSample (reading_ 100 3000)) up
  t.pwr.vin == 3300 && t.pwr.iin == 1000 && t.pwr.pin == 3000 && t.pwr.pinPeak == 3000 && t.temp 13 == (100, false) && !t.pwr.thermalCap),
  (let t := nx (.sensorSample (reading_ 400 3000)) up
  t.pwr.thermalCap && t.pwr.mode == .limited && t.icu.pend.getLsbD 276),
  (let t := nx (.sensorSample (reading_ 460 3000)) up
  t.pwr.mode == .pilot && t.pwr.wakesFrom == 60 * second + up.now && shutdownCause t.nvs.shutdown == 3),
  (let s := pw codecs (fun p => { p with mode := .limited, thermalCap := true, thermalBelow := some 16000000000, gated := 128 })
  let t := nx .capEnd s
  s.capDue true == some (10 * second + 16000000000) && !t.pwr.thermalCap && t.pwr.gated == 0 && t.now == 26 * 16000000000 - 15 * 16000000000 && t.icu.pend.getLsbD 276),
  (let s := pw codecs (fun p => { p with mode := .limited, thermalCap := true, capStep := 16000000000, gated := 128 })
  let t := nx .capGateMore s
  s.gateable.head? == some 6 && s.gatedCount == 1 && t.pwr.gated == 192 && t.now == second + 16000000000 && t.pwr.capStep == t.now)] = true := by
  decide +kernel

theorem test_supply : all [
  gives (.railFault 9 0) up ((up.fault 0x002 1 9).raise 278),
  (let t := nx (.railFault 9 2) up
  t.pwr.mode == .pilot && shutdownCause t.nvs.shutdown == 4),
  (let t := nx .brownOut up
  t.pwr.brownOut && t.pwr.change.any (fun c => c.target == some .pilot && c.dueAt == 100 * millisecond + up.now) && shutdownCause t.nvs.shutdown == 2 &&
    gives .brownOut { t with pwr := { t.pwr with vinBack := true } } t &&
    gives .vinGood t { t with pwr := { t.pwr with vinBack := true } }),
  (let t := nx .vinLoss up
  t.pwr.mode == .off && t.nvs == up.nvs && t.qm == QmState.reset && t.dev == []),
  (let s := up.logRecord 6 0xFF (List.replicate 8 0)
  let t := nx .vinLoss s
  s.nvs.writes.length == 1 && s.nvs.writes.all (fun w => w.area == 3 && decide (s.now < w.ends)) && s.nvs.log.length == 1 &&
    t.nvs.log == [] && t.nvs.writes == []),
  (let s := pw State.reset (fun p => { p with mode := .off, porstN := false })
  let t := nx .vinGood s
  t.pwr.mode == .pilot && t.pwr.pilotAt == t.now && t.now == s.now + 5 * millisecond),
  (let s := pw State.reset (fun p => { p with mode := .off, porstN := true, releaseHeld := some 5 })
  let t := nx .vinGood s
  t.pwr.mode == .boot && t.pwr.bootStep == 1 && t.pwr.cold && t.pwr.straps == 5)] = true := by decide +kernel

/-- A start at a boot step. -/
def booting (n : Nat) : State := pw State.reset (fun p => { p with mode := .boot, bootStep := n, porstN := true, warmRstN := true })
/-- A microcode base of version 7 with a word at micro address 5 (Table 07-6). -/
def baseImage : McImage :=
  ⟨leBytes 4 0x4C5A434D ++ [0, 1, 0, 0] ++ leBytes 2 7 ++ List.replicate 6 0 ++ leBytes 4 98304 ++ List.replicate 44 0,
    ⟨98304, [(20, [0x34, 0x12, 0, 0])]⟩⟩
/-- A patch of level 2 for version 7: one record with one word for micro address 6. -/
def patchImage : McImage :=
  ⟨leBytes 4 0x4C5A434D ++ [1, 1, 0, 0] ++ leBytes 2 1 ++ [2, 0] ++ leBytes 2 7 ++ leBytes 2 1 ++ leBytes 4 8 ++ List.replicate 44 0,
    ⟨8, [(0, leBytes 4 (6 + 2 ^ 16) ++ [0x78, 0x56, 0, 0])]⟩⟩

/-- What a good start finds. -/
def good : BootFacts := ⟨true, [], [], [(true, 1, true, 1), (true, 1, true, 1), (true, 1, true, 1)],
  [(0, false, baseImage), (1, false, patchImage)], true, 33, []⟩

theorem test_boot : all [
  gives (.bootStepEnd good) (booting 1) (pw (booting 1) (fun p => { p with clk32kLost := false, bootStep := 2 })),
  (let t := nx (.bootStepEnd { good with ok := false }) (booting 2)
  t.pwr == { (booting 2).pwr with romBad := true } && !t.snuf.flicker),
  (let t := nx (.bootStepEnd good) (booting 2)
  t.pwr.bootStep == 3 && t.nvs.shutdown == 0),
  (let t := nx (.bootStepEnd good) (pw (booting 2) (fun p => { p with warm := true }))
  t.pwr.bootStep == 5),
  (let s := booting 3
  let t := nx (.bootStepEnd good) s
  t.pwr.bootStep == 4 && t.snuf == { s.snuf with flickerAt := s.now, lastAccept := s.now }),
  gives (.bootStepEnd good) (booting 4) (pw (booting 4) (fun p => { p with bootStep := 5 })),
  (let s := booting 5
  let s := { s with codec := { s.codec with cores := s.codec.cores.set 7 { CodecCore.reset with st := .retired } } }
  let t := nx (.bootStepEnd good) s
  s.pwr.gated == 0 && !s.pwr.warm && t.pwr.bootStep == 6 && t.codec.copyLoaded && t.codec.copyBase == 7 && t.codec.copyPatch == 2 &&
    (t.core 0).st == .inService && (t.core 0).mcBase == 7 && (t.core 7).st == .retired && (s.image 2).spare != .pending &&
    Table.get 0 (t.core 0).microStore 5 == 0x1234 && Table.get 0 (t.core 7).microStore 6 == 0x5678),
  (let s := booting 6
  let t := nx (.bootStepEnd good) s
  !s.anyQualified && t.pwr.timeWaitEnd == some (s.now + s.timeWait) && t.pwr.bootStep == 6),
  (let s := pw (booting 6) (fun p => { p with timeWaitEnd := some 77 })
  let t := nx .timeWaitExpiry s
  t.pwr.bootStep == 7 && t.pwr.timeWaitEnd == none && t.now == 77),
  (let s := booting 7
  let t := nx (.bootStepEnd good) s
  s.pairsPass [] && t.pwr.mode == .provision && t.pwr.provisioned && !t.pwr.cold && t.pwr.blobVersion == 33 && t.icu.pend.getLsbD 280)] = true := by
  decide +kernel

/-- A device in PILOT with the four wakes selected. -/
def pilot : State :=
  { State.reset with
    pwr := { State.reset.pwr with mode := .pilot, porstN := true, pilotTiming := true, perstN := false }
    regs := words [(0x600F0, 5)], icu := { State.reset.icu with pilotSel := [272, 273, 274, 275] } }

theorem test_wakes : all [
  pilot.pwr.wakesFrom ≤ pilot.now, pilot.pilotTimer == 5,
  [Instr.pilotWake false, .pilotTimer, .smbWake, .pciePerstNRelease].all (fun i =>
    let t := nx i pilot
    let u := nx i (pw pilot (fun p => { p with clocksLost := 1 }))
    t.pwr.mode == .boot && t.pwr.bootStep == 2 && t.pwr.cold && t.icu.pilotCause.isSome && u.pwr.mode == .pilot && u.pwr.wakeHeld),
  gives .smbWake up (up.raise 274),
  (let t := nx .porstNAssert up
  t.pwr.mode == .pilot && !t.pwr.porstN && shutdownCause t.nvs.shutdown == 6 && t.qm == QmState.reset),
  (let s := pw pilot (fun p => { p with porstN := false })
  let t := nx (.porstNRelease 9) s
  t.pwr.mode == .boot && t.pwr.bootStep == 1 && t.pwr.straps == 9 && t.pwr.porstN && t.pwr.cold),
  (let t := nx (.porstNRelease 9) (pw State.reset (fun p => { p with mode := .off, porstN := false }))
  t.pwr.mode == .off && t.pwr.releaseHeld == some 9)] = true := by decide +kernel

theorem test_warm_reset_and_clocks : all [
  rings.live && rings.snuf.halt.isNone,
  (let t := nx .warmRstNAssert rings
  let u := nx .warmRstNRelease t
  t.pwr.inWarmReset && !t.pwr.warmRstN && t.qm.sqs == [] && t.icu.pend == 0 && t.icu.mask == BitVec.allOnes 1024 && t.dev == rings.dev &&
    t.time.dts == rings.time.dts && t.snuf.halt == none && (t.core 7).job == none &&
    u.pwr.mode == .boot && u.pwr.bootStep == 2 && u.pwr.warm && !u.pwr.inWarmReset && only [.power, .nvs] t u),
  (let t := nx .refclkSysLoss up
  t.pwr.mode == .pilot && t.pwr.clocksLost == 1 && shutdownCause t.nvs.shutdown == 5),
  up.collectorRuns && up.snuf.queue.length < 256,
  [(RefClock.eth0, 1, 5), (.eth1, 2, 6), (.pcie, 3, 4)].all (fun e =>
    let t := nx (.refclkLoss e.1) up
    let u := nx (.refclkReturn e.1) t
    t.pwr.clocksLost.getLsbD e.2.1 && t.snuf.queue.contains ⟨0x0C0, 4, BitVec.ofNat 48 e.2.2, up.time.dts, false, up.snuf.lostSince⟩ &&
      gives (.refclkLoss e.1) t t && !u.pwr.clocksLost.getLsbD e.2.1 && gives (.refclkReturn e.1) up up),
  gives .smbStuck up (up.fault 0x001 3 0), !pilot.pcieUp, gives (.jtagInstructionLoad 0x10) pilot pilot,
  gives (.jtagInstructionLoad 0x10) up (pw up (fun p => { p with tap := 0x10 })),
  gives (.jtagInstructionLoad 0x05) up (pw up (fun p => { p with tap := 0x3F })),
  (let t := nx (.jtagInstructionLoad 0x03) up
  t.pwr.tap == 3 && t.snuf.halt == some .jtag && t.pwr.change == none)] = true := by decide +kernel

/-! ### The Wick processor -/

/-- A kernel core: code in uncached DRAM, DRAM data in segment 1, local memory in segments 2, 6 and 7. -/
def wcore : WickCore :=
  { WickCore.reset with
    pc := 0x100, vbr := 0x2000, kdsp := 0x200, kcsp := 0x300
    ksegs := #v[⟨0x50000000, 0x10000, false, false, true, false⟩, ⟨0x60000000, 0x1000, true, true, false, false⟩,
      ⟨0x3000000000, 0x4000, true, true, false, false⟩, ⟨0x60000000, 0x1000, false, false, false, false⟩, WSeg.none, WSeg.none,
      ⟨0x3000000000, 0x1000, true, true, false, false⟩, ⟨0x3000001000, 0x1000, true, true, false, false⟩]
    regs := [(1, 0x80000005), (2, 7), (3, 0x10), (4, 33)] }

/-- A device in which core 8 is such a core. -/
def wick (f : WickCore → WickCore := id) : State :=
  { up with lmp.cores := 0xF, wick.cores := up.wick.cores.set 8 (f wcore), dev := Mem.setBytes [] 0x60000010 [0xFE, 0x81, 3, 4] }

/-- The state after the fetch of core 8. -/
def fetched (s : State) : State :=
  match (s.wWake 8).wFetch 8 with
  | .ok t => t
  | .error (_, t) => t

/-- Core 8 executes. -/
def runs8 (s : State) : Bool :=
  let k := (s.wWake 8).wc 8
  s.wickUp 8 && !k.halted && !k.locked && !k.waiting && !(k.haltReq && k.boundary && !k.stepping) && !k.breaks &&
    match (s.wWake 8).wFetch 8 with
    | .ok _ => true
    | .error _ => false

/-- An instruction leaves a value in g5 of core 8, and PC 0x104. -/
def computes (i : Instr) (v : Word) : Bool :=
  let t := nx i (wick)
  (t.wc 8).reg 5 == v && (t.wc 8).pc == 0x104 && ((t.wc 8).setReg 5 0) == { (fetched wick).wc 8 with pc := 0x104 }

/-- An instruction raises an exception: its vector, its segment and FADDR. -/
def traps (i : Instr) (s : State) (v seg : Nat) (addr : Word) : Bool :=
  let k := (nx i s).wc 8
  k.pc == 0x2000 + BitVec.ofNat 32 (16 * v) && (k.cause.toNat % 256 == v) && (k.cause.toNat / 256 % 8 == seg) && k.faddr == addr && !k.ie

theorem test_wick_runs : runs8 wick = true ∧ (wick.wc 8).stepping = false ∧ (wick.wc 8).due = none := by decide +kernel

theorem test_wick_computes : all [
  computes (.add 8 5 1 2) 0x8000000C, computes (.sub 8 5 2 1) 0x80000002, computes (.and 8 5 1 2) 5, computes (.or 8 5 1 2) 0x80000007,
  computes (.xor 8 5 1 2) 0x80000002, computes (.nor 8 5 1 2) 0x7FFFFFF8, computes (.slt 8 5 1 2) 1, computes (.sltu 8 5 1 2) 0,
  computes (.sll 8 5 1 4) 10, computes (.srl 8 5 1 4) 0x40000002, computes (.sra 8 5 1 4) 0xC0000002, computes (.slli 8 5 1 31) 0x80000000,
  computes (.srli 8 5 1 31) 1, computes (.srai 8 5 1 31) 0xFFFFFFFF, computes (.mul 8 5 1 2) 0x80000023, computes (.mulh 8 5 1 2) 0xFFFFFFFC,
  computes (.mulhu 8 5 1 2) 3, computes (.divu 8 5 1 2) 0x12492493, computes (.remu 8 5 1 2) 0, computes (.clz 8 5 2) 29,
  computes (.clz 8 5 0) 32, computes (.bswap 8 5 1) 0x05000080, computes (.addi 8 5 2 0xFFFF) 6, computes (.andi 8 5 1 0xFFFF) 5,
  computes (.ori 8 5 2 0x8000) 0x8007, computes (.xori 8 5 2 0xFFFF) 0xFFF8, computes (.slti 8 5 1 0x8000) 1, computes (.sltiu 8 5 2 0xFFFF) 1,
  computes (.lui 8 5 0x8001) 0x80010000, traps (.divu 8 5 1 0) wick 8 0 0x100, traps (.remu 8 5 1 0) wick 8 0 0x100,
  (nx (.add 8 0 1 2) wick).wc 8 == { (fetched wick).wc 8 with pc := 0x104 }] = true := by decide +kernel

theorem test_wick_ends : all [
  (let s := wick (fun k => { k with load := some (9, 77), ac := 3 })
  let t := nx (.add 8 5 9 9) s
  (t.wc 8).reg 5 == 0 && (t.wc 8).reg 9 == 77 && (t.wc 8).ac == 2 && (t.wc 8).load == none),
  (let s := wick (fun k => { k with ld := 1, le := k.le.set 0 0x100, ls := k.ls.set 0 0xC0, lc := k.lc.set 0 2 })
  let t := nx (.add 8 5 1 1) s
  (t.wc 8).pc == 0xC0 && (t.wc 8).lc[0] == 1 && (t.wc 8).ld == 1),
  (let s := wick (fun k => { k with ld := 1, le := k.le.set 0 0x100, ls := k.ls.set 0 0xC0, lc := k.lc.set 0 1 })
  let t := nx (.add 8 5 1 1) s
  (t.wc 8).pc == 0x104 && (t.wc 8).ld == 0),
  (let s := wick (fun k => { k with ld := 4, le := k.le.set 3 0x104 })
  ((nx (.add 8 5 1 1) s).wc 8).pc == 0x104)] = true := by decide +kernel

/-- A load of g6 from segment 1 at an offset of g3 + imm waits in the load slot with a value. -/
def loads (i : Instr) (v : Word) : Bool := let k := (nx i wick).wc 8; k.load == some (6, v) && k.reg 6 == 0 && k.pc == 0x104

theorem test_wick_memory : all [
  loads (.lb 8 6 3 1 0) 0xFFFFFFFE, loads (.lbu 8 6 3 1 0) 0xFE, loads (.lh 8 6 3 1 0) 0xFFFF81FE, loads (.lhu 8 6 3 1 0) 0x81FE,
  loads (.lw 8 6 3 1 0) 0x040381FE, loads (.lw 8 6 3 1 0x1FF0) 0,
  traps (.lh 8 6 3 1 1) wick 6 1 0x11, traps (.lw 8 6 3 1 0xFF0) wick 4 1 0x1000, traps (.lw 8 6 3 3 0) wick 5 3 0x10,
  (let t := nx (.sh 8 1 3 1 2) wick
  t.dev.bytes 0x60000010 6 == [0xFE, 0x81, 5, 0, 0, 0] && t.host == wick.host && (wick.wc 8).watched 1 0x12 2 true == false),
  traps (.sw 8 1 3 1 2) wick 6 1 0x12, traps (.sb 8 1 3 1 0xFF0) wick 4 1 0x1000, traps (.sb 8 1 3 3 0) wick 5 3 0x10,
  (let t := nx (.ldx 8 6 3 2 0) wick
  (t.wc 8).reservation == some (0x3000000000 / 64) && (t.wc 8).load == some (6, 0)),
  (let s := wick (fun k => { k with reservation := some (0x3000000000 / 64) })
  let t := nx (.stx 8 1 3 2 0) s
  (t.wc 8).reg 1 == 1 && (t.wc 8).reservation == none && (t.wc 8).mem.bytes 0x10 4 == [5, 0, 0, 0x80]),
  (let t := nx (.stx 8 1 3 2 0) wick
  (t.wc 8).reg 1 == 0 && (t.wc 8).mem.bytes 0x10 4 == [0, 0, 0, 0]),
  (let t := nx (.sseg 8 false 1 3 2 0) wick
  let u := nx (.lseg 8 true 5 3 2 0) { t with wick.cores := t.wick.cores.set 8 { t.wc 8 with pc := 0x100 } }
  (t.wc 8).mem.bytes 0x10 16 == segBytes (wcore.ksegs[1]) && (u.wc 8).usegs[5] == wcore.ksegs[1]),
  (let s := wick (fun k => { k with mem := Mem.setBytes [] 0x10 [0, 0, 0, 0, 0, 0, 1] })
  traps (.lseg 8 false 5 3 2 0) s 13 2 0x10)] = true := by decide +kernel

/-- A transfer of control goes to an address. -/
def goes (i : Instr) (a : Word) : Bool := ((nx i wick).wc 8).pc == a

theorem test_wick_control : all [
  goes (.beq 8 1 1 0xFFFF) 0x100, goes (.beq 8 1 2 0xFFFF) 0x104, goes (.bne 8 1 2 3) 0x110, goes (.blt 8 1 2 3) 0x110, goes (.bge 8 2 1 3) 0x110,
  goes (.bltu 8 2 1 3) 0x110, goes (.bgeu 8 1 2 3) 0x110, goes (.bgeu 8 1 1 3) 0x110, goes (.j 8 0x3FFFFFF) 0x100, goes (.jr 8 3) 0x10,
  (let t := nx (.call 8 3) wick
  (t.wc 8).pc == 0x110 && (t.wc 8).kcsp == 0x2FC && (t.wc 8).mem.bytes 0x12FC 4 == [4, 1, 0, 0]),
  (let t := nx (.callr 8 3) wick
  (t.wc 8).pc == 0x10 && (t.wc 8).kcsp == 0x2FC),
  ((nx (.call 8 3) (wick (fun k => { k with kcsp := 0 }))).wc 8).ed == 1,
  (let s := wick (fun k => { k with kcsp := 0x2FC, mem := Mem.setBytes [] 0x12FC [4, 1, 0, 0] })
  let t := nx (.ret 8) s
  (t.wc 8).pc == 0x104 && (t.wc 8).kcsp == 0x300),
  ((nx (.ret 8) (wick (fun k => { k with kcsp := 0x1000 }))).wc 8).cause.toNat % 256 == 1,
  (let k := (nx (.loop 8 2 3) wick).wc 8
  k.ld == 1 && k.ls[0] == 0x104 && k.le[0] == 0x110 && k.lc[0] == 7),
  (let k := (nx (.loopi 8 1023 0xFFFF) (wick (fun k => { k with ld := 3 }))).wc 8
  k.ld == 4 && k.le[3] == 0x40100 && k.lc[3] == 1023),
  goes (.loop 8 0 3) 0x114, traps (.loopi 8 1 3) (wick (fun k => { k with ld := 4 })) 7 0 0x100,
  ((nx (.lbrk 8) (wick (fun k => { k with ld := 4 }))).wc 8).ld == 3, ((nx (.lbrk 8) wick).wc 8).ld == 0,
  (let t := nx (.push 8 1) wick
  (t.wc 8).kdsp == 0x1FC && (t.wc 8).mem.bytes 0x1FC 4 == [5, 0, 0, 0x80]),
  traps (.push 8 1) (wick (fun k => { k with kdsp := 0 })) 4 6 0xFFFFFFFC,
  (let t := nx (.pop 8 5) wick
  (t.wc 8).kdsp == 0x204 && (t.wc 8).load == some (5, 0))] = true := by decide +kernel

/-- The same core in user mode. -/
def user (f : WickCore → WickCore := id) : State := wick (fun k => f { k with u := true, usegs := k.ksegs })

theorem test_wick_system : all [
  runs8 user,
  [Instr.lseg 8 true 0 3 2 0, .sseg 8 true 0 3 2 0, .eret 8, .wait 8, .cinv 8 3 1, .iinv 8].all (fun i => traps i user 3 0 0x100),
  (let s := wick (fun k => { k with ed := 1, mem := Mem.setBytes [] 0 (leBytes 4 0x40 ++ leBytes 4 3 ++ leBytes 4 0x111 ++ leBytes 4 9) })
  let k := (nx (.eret 8) s).wc 8
  k.pc == 0x40 && k.u && k.ie && k.kcsp == 0x111 && k.ed == 0),
  (let s := wick (fun k => { k with mem := Mem.setBytes [] 0x1300 (leBytes 4 0x40 ++ leBytes 4 3) })
  let k := (nx (.eret 8) s).wc 8
  k.pc == 0x40 && k.u && k.ie && k.kcsp == 0x308),
  !(wick.wPending 8) && ((nx (.wait 8) wick).wc 8).waiting && ((nx (.wait 8) wick).wc 8).pc == 0x100,
  (let s := { wick with icu := { wick.icu with pend := 1 <<< 280, mask := 0 }, regs := words [(0x40000 + 4 * 280, 2 ^ 31 + 8)] }
  let t := nx (.wait 8) s
  s.wPending 8 == false || (t.wc 8).pc == 0x104),
  traps (.wait 8) (wick (fun k => { k with ac := 2 })) 2 0 0x100, traps (.trap 8 0x7FFF) wick 11 0 0x100,
  ((nx (.trap 8 0x7FFF) wick).wc 8).cause.toNat / 65536 == 0x7FFF, traps (.brk 8) wick 12 0 0x100,
  ((nx (.brk 8) (wick (fun k => { k with brkHalt := true }))).wc 8).halted,
  ((nx (.atom 8 8) wick).wc 8).ac == 8, traps (.atom 8 0) wick 2 0 0x100, traps (.atom 8 9) wick 2 0 0x100,
  traps (.mfs 8 5 23) wick 2 0 0x100, traps (.mts 8 31 5) wick 2 0 0x100, traps (.mfs 8 5 27) user 3 0 0x100, traps (.mts 8 0 5) user 3 0 0x100,
  ((nx (.mfs 8 5 6) user).wc 8).reg 5 == 8, ((nx (.mts 8 19 2) user).wc 8).lc[3] == 7,
  (let k := (nx (.mfs 8 5 20) wick).wc 8
  k.reg 5 == wick.time.dts.truncate 32 && k.dtsh == (wick.time.dts >>> 32).truncate 32),
  gives (.fence 8) wick (nx (.cwb 8 3 1) wick), ((nx (.iinv 8) wick).wc 8).icache == [], ((nx (.cinv 8 3 1) wick).wc 8).pc == 0x104,
  gives (.interruptEntry 8) wick wick] = true := by decide +kernel

theorem test_wick_exceptions : all [
  (let s := wick (fun k => { k with kcsp := 4, ie := true })
  let k := (s.wEnter 8 ⟨5, 3, true, 0, 0x77⟩ 0x100).wc 8
  k.pc == 0x2010 && k.ed == 1 && k.mem.bytes 0 16 == leBytes 4 0x100 ++ leBytes 4 2 ++ leBytes 4 4 ++ leBytes 4 (5 + 0x300 + 0x800) &&
    k.cause == BitVec.ofNat 32 (1 + 0x300 + 0x800 + 0x1000) && k.faddr == 0x77),
  (let s := wick (fun k => { k with ie := true })
  let k := (s.wEnter 8 ⟨5, 3, false, 9, 0x77⟩ 0x100).wc 8
  k.pc == 0x2050 && k.ed == 0 && k.kcsp == 0x2F8 && k.mem.bytes 0x12F8 8 == leBytes 4 0x100 ++ leBytes 4 2 && k.cause == BitVec.ofNat 32 (5 + 0x300 + 0x90000)),
  wRegion 8 true 0x30000012F8 8 == some .local_,
  (let k := ((wick (fun k => { k with ed := 4 })).wEnter 8 ⟨5, 3, false, 9, 0x77⟩ 0x100).wc 8
  k.locked && k.pc == 0x100 && k.regs == wcore.regs)] = true := by decide +kernel

/-- `wick` with an interrupt pending for core 8, which accepts interrupts. -/
def interrupted : State :=
  let s := wick (fun k => { k with ie := true })
  { s with icu := { s.icu with pend := 1 <<< 280, mask := 0 }, regs := words [(0x41000 + 4 * 280, 8)] }

theorem test_wick_interrupts : all [
  interrupted.wPending 8, ((nx (.wait 8) interrupted).wc 8).pc == 0x104 && !((nx (.wait 8) interrupted).wc 8).waiting,
  traps (.interruptEntry 8) interrupted 15 0 0x100] = true := by decide +kernel

/-! ### The debug module and the directory -/

/-- The debug unlock stands, the TAP selects DBG, and core 8 is halted. -/
def dbgState (f : WickCore → WickCore := fun k => { k with halted := true }) : State :=
  let s := wick f
  { s with mail := { s.mail with unlocked := true }, pwr := { s.pwr with tap := 0x10 } }

/-- A DBG access: core, register, write, data. -/
def dbg (core reg : Nat) (write : Bool) (v : Nat) : BitVec 46 := BitVec.ofNat 46 (v + 2 ^ 32 * reg + 2 ^ 40 * core + 2 ^ 44 * (if write then 1 else 0))

theorem test_debug : all [
  gives (.dbgAccess (dbg 8 1 false 0)) wick wick,
  (let s := { dbgState with mail := wick.mail }
  let t := nx (.dbgAccess (dbg 8 1 false 0)) s
  t.wick.dbgStatus == 2 && t.out == .debug 8 0 :: s.out &&
    [Instr.haltReq 8, .debugResume 8, .debugStep 8].all (fun i => gives i s { s with wick := { s.wick with dbgData := 0, dbgStatus := 2 } })),
  (nx (.dbgAccess (dbg 13 1 false 0)) dbgState).wick.dbgStatus == 2,
  (let t := nx (.dbgAccess (dbg 8 11 true 77)) dbgState
  (t.wc 8).bps[3] == 77 && t.wick.dbgStatus == 0 && only [.wick, .out] dbgState t),
  (let t := nx (.dbgAccess (dbg 8 1 false 0)) dbgState
  t.wick.dbgData == 1 && t.wick.dbgStatus == 0 && t.wick.cores == dbgState.wick.cores && only [.wick, .out] dbgState t),
  (let s := dbgState id
  gives (.haltReq 8) s (s.setWc 8 { s.wc 8 with haltReq := true }) && gives (.haltReq 8) dbgState dbgState),
  (let s := dbgState (fun k => { k with haltReq := true })
  let t := nx (.debugHalt 8) s
  (t.wc 8).halted && !(t.wc 8).haltReq && (t.wc 8).reason == 0),
  (let s := dbgState (fun k => { k with haltReq := true, ac := 1 })
  gives (.debugHalt 8) s s),
  gives (.debugResume 8) dbgState (dbgState.setWc 8 { dbgState.wc 8 with halted := false }),
  gives (.debugStep 8) dbgState (dbgState.setWc 8 { dbgState.wc 8 with halted := false, stepping := true }),
  (nx (.dregDataAccess 8 false 5) (dbgState id)).wick.dbgStatus == 2,
  (let s := dbgState (fun k => { k with halted := true, dregSel := 1 })
  let t := nx (.dregDataAccess 8 false 5) s
  let u := nx (.dregDataAccess 8 true 5) s
  t.wick.dbgData == 0x80000005 && t.wick.dbgStatus == 0 && (u.wc 8).reg 1 == 5 && only [.wick] s t),
  (let s := dbgState (fun k => { k with halted := true, dregSel := 84, peek := false })
  let t := nx (.dregDataAccess 8 false 0) s
  let u := nx (.dregDataAccess 8 false 0) (dbgState (fun k => { k with halted := true, dregSel := 84 }))
  t.wick.dbgData == s.time.dts.truncate 32 && (t.wc 8).dtsh == 3 && (u.wc 8).dtsh == 0),
  (match (wick id).wWrite 8 true 0x50000A0042 [1, 2, 3, 4, 5, 6, 7, 8] false with
  | .ok t => t.swc.tblData == [(0, 0x02010000), (1, 0x06050403), (2, 0x0807)] &&
    (match t.wRead 8 true 0x50000A0040 12 false with | .ok (b, _) => b == [0, 0, 1, 2, 3, 4, 5, 6, 7, 8, 0, 0] | _ => false)
  | _ => false),
  (let s := dbgState (fun k => { k with halted := true, dmemHi := 0xFFFF, dmemLo := 0xFFFFFFFC })
  let t := nx (.dmemDataAccess 0 true 5) (s.setWc 0 (s.wc 8))
  wRegion 0 true (s.wc 8).dmem 4 == none && t.wick.dbgStatus == 2),
  (let s := dbgState (fun k => { k with halted := true, dmemLo := 0x60000010, autoinc := true, reservation := some (0x60000010 / 64) })
  let t := nx (.dmemDataAccess 8 false 0) s
  let u := nx (.dmemDataAccess 8 true 9) s
  wRegion 8 true (s.wc 8).dmem 4 == some .dram && t.wick.dbgData == 0x040381FE && (t.wc 8).dmem == 0x60000014 && only [.wick] s t &&
    u.dev.bytes 0x60000010 4 == [9, 0, 0, 0] && (u.wc 8).reservation == none)] = true := by decide +kernel

/-- What a requester's cache holds of the last cluster line. -/
def holds (t : State) (q : Fin 5) : Option CacheLine := (t.wc (requesterCore q)).cached (clusterLine 32767)

theorem test_directory : all [
  (let s := { up with wick.cluster := Mem.setBytes [] (64 * 32767) (List.replicate 64 3) }
  let l := List.replicate 64 (3 : Byte)
  let t := nx (.dirRead 4 32767 []) s
  let u := nx (.dirOwn 1 32767 []) t
  let v := nx (.dirRead 0 32767 []) u
  let w := nx (.dirOwn 2 32767 []) u
  s.dir 32767 == .unowned && t.dir 32767 == .shared 16 && holds t 4 == some ⟨clusterLine 32767, l, false⟩ && only [.wick] s t &&
    u.dir 32767 == .owned 1 && holds u 1 == some ⟨clusterLine 32767, l, true⟩ && holds u 4 == none &&
    v.dir 32767 == .shared 3 && holds v 0 == some ⟨clusterLine 32767, l, false⟩ && holds v 1 == some ⟨clusterLine 32767, l, false⟩ &&
    w.dir 32767 == .owned 2 && holds w 1 == none && holds w 2 == some ⟨clusterLine 32767, l, true⟩ &&
    (nx (.dirRead 1 32767 []) t).dir 32767 == .shared 18 && gives (.dirWb 4 32767 []) u u),
  (let s := nx (.dirOwn 3 0 []) up
  let t := nx (.dirWb 3 0 []) s
  s.dir 0 == .owned 3 && t.dir 0 == .unowned && (t.wc 11).cached (clusterLine 0) == none),
  (let t := nx (.dirOwn 4 0 [(1, .own)]) up
  t.dir 0 == .owned 1 && Table.get 0 t.wick.retries 4 == 1),
  up.powered && !up.halted,
  (let t := nx (.fabricAccessTimeout 8 0 0 77) up
  t.pwr.fabricDomain == 8 && t.pwr.fabricMaster == 0 && t.pwr.fabricAddr == 77 && t.pwr.fabricCnt == 1 && t.rd == 0xFFFFFFFF && t.out.contains (.aer 0) &&
    t.snuf.queue.contains ⟨0x0C0, 1, 77, up.time.dts, false, up.snuf.lostSince⟩),
  (let t := nx (.fabricAccessTimeout 0 3 0 77) up
  t.wick.dbgData == 0xFFFFFFFF && t.wick.dbgStatus == 2)] = true := by decide +kernel

/-! ### The switch core -/

/-- Ports 0, 2 and 16 are up, and VLAN 1 with its ports 0 and 2 is valid and learns. -/
def switch : State :=
  { up with swc := { up.swc with
    ports := [(0, .up), (2, .up), (16, .up)], vlan := [(1, 5 + 2 ^ 28 + 2 ^ 29)] } }

/-- The first 64 bytes of an untagged frame. -/
def head_ (dst src type : Nat) : List Byte := leBytes 6 dst ++ leBytes 6 src ++ beBytes 2 type ++ List.replicate 50 0
/-- A destination of one station. -/
def station : Nat := 0x020000000002
/-- `switch` knows that station at port 2. -/
def known : State := { switch with swc := { switch.swc with mac := [(macBucket 1 station * 4, some ⟨station, 1, 2, false, false, false, false, 0, 0⟩)] } }

theorem test_head_known : known.macFind 1 station = some (macBucket 1 station * 4, ⟨station, 1, 2, false, false, false, false, 0, 0⟩) := by
  simp [State.macFind, known, List.range, List.range.loop, Table.get]

theorem test_heads : all [
  switch.switches, switch.portUp 0, switch.portUp 2, switch.portUp 16,
  gives (.frameHeadLookup 16 [1, 2, 3]) switch (((switch.count 16 4 1).count 16 0 1).count 16 1 3),
  (let h := beBytes 6 0x0180C2000001 ++ (head_ 0 0x0A0000000002 0x8808).drop 6
  let t := nx (.frameHeadLookup 0 h) switch
  isPause h && t.swc.frames.length == 1 && t.swc.frames.all (fun f => f.copies == [] && f.id == 0 && !f.whole) && t.swc.mac == switch.swc.mac &&
    Table.get 0 t.swc.counters 9 == 1),
  (let h := head_ station 0x0A0000000002 0x0800
  !isPause h && !isReserved h && !isPtp (bits (known.regOr 0xD00004 0x10024) 1 0) h && !hasTag h && dstMac h == station &&
    bits (known.regOr 1 0xA0404) 13 12 == 0 && bits (known.regOr 1 0xA0404) 11 0 == 1 && bit (known.vlanEntry 1) 28 && bit (known.vlanEntry 1) 0 &&
    bit (known.vlanEntry 1) 2 && known.cellGranted 16 && bits (known.regOr 0xFAC688 0xA040C) 2 0 == 0 && bit (known.vlanEntry 1) 29 &&
    !isMulticast (srcMac h))] = true := by decide +kernel

/-- A frame that is being received on port 0, with a copy for port 2. -/
def frame_ (bytes : List Byte) (whole : Bool) (copies : List Copy) : Frame :=
  { id := 5, ingress := 0, maxLen := 1522, bytes := bytes, whole := whole, bad := false, cells := 1, vid := 1, pcp := 0, arrival := 7
    sender := .received, stampWanted := false, stamp := none, binding := none, meter := none, copies := copies, sent := 0, dropped := 0, media := 0 }
/-- `switch` with such a frame. -/
def holding (f : Frame) : State := { switch with swc := { switch.swc with frames := [f], frameSeq := 6, use := [(16, 1)], allocated := 1 } }
/-- 64 bytes with a good check sequence. -/
def good64 : List Byte := (head_ station 0x0A0000000002 0x0800).take 60 ++ fcsOf ((head_ station 0x0A0000000002 0x0800).take 60)
/-- Nothing more arrives. -/
def tail_ : TailFacts := ⟨[], false, false, 0, false, 0, false, none⟩

theorem test_tails_and_copies : all [
  (let f := frame_ good64 false [⟨16, false, 1, false, false, 1⟩]
  let s := holding f
  let t := nx (.frameTail 0 tail_) s
  s.receiving 0 == some f && badCounter good64 false false == none && t.swc.frames == [{ f with whole := true }]),
  (let f := frame_ (head_ station 1 0x0800) false [⟨16, false, 1, false, false, 1⟩]
  let t := nx (.frameTail 0 tail_) (holding f)
  badCounter f.bytes false false == some 2 && t.swc.frames == [] && Table.get 0 t.swc.counters 2 == 1),
  (let f := frame_ good64 true [⟨8 * 27 + 3, false, 1, false, false, 0⟩]
  let s := holding f
  let t := nx (.egressSelect 27) s
  s.sendingOn 27 == none && (s.queued (8 * 27 + 3)).length == 1 && t.swc.frames == [{ f with copies := [⟨8 * 27 + 3, true, 1, false, false, 0⟩] }] &&
    only [.switch] s t &&
    (let u := { s with regs := words [(0x400040, 2 ^ 27), (0x400044, 100 + 2 ^ 16 * 100)] }
    u.egressStalled 27 && !u.egressStalled 26 && nx (.egressSelect 27) u == u)),
  (let k : Copy := ⟨16, true, 1, false, false, 1⟩
  let f := frame_ good64 true [k]
  let s := holding f
  let t := nx (.copyTransmitEnd 2 false) s
  let u := nx (.copyTransmitEnd 2 true) s
  s.sendingOn 2 == some (f, k) && t.out == .frame 2 (copyBody f k ++ fcsOf (copyBody f k)) s.time.dts :: s.out && t.qUse 16 == 0 && t.swc.frames == [] &&
    u.out.contains (.badFrame 2 (copyBody f k ++ stompOf (copyBody f k))) && u.qUse 16 == 0),
  (let s := { switch with swc := { switch.swc with mac := [(3, some ⟨9, 1, 2, false, false, false, false, 0, 1⟩), (4, some ⟨8, 1, 2, true, false, false, false, 0, 1⟩)], lastAging := 400 } }
  let t := nx .macAgingPass s
  t.swc.mac.map Prod.fst == [4] && t.now == 401 * second && only [.time, .switch] s t)] = true := by decide +kernel

theorem test_frame_sender : all [
  (let k : Copy := ⟨16, true, 1, false, false, 0⟩
  let f := { frame_ good64 true [k] with sender := .slot 7 }
  let s := { holding f with qm := { rings.qm with slots := [(7, some { accepted (entry 0x25 3 []) with phase := .running })] } }
  let t := nx (.copyTransmitEnd 2 false) s
  (t.slot 7).any (fun y => y.phase == .finished && y.completion.status == .ok))] = true := by decide +kernel

/-- `switch` with the ports in a state, due at 20 ms after the start of time. -/
def portsAre (x : PortSt) : State :=
  { switch with regs := words [(0xA0400, 1)]
                swc := { switch.swc with ports := (List.range 17).map (fun p => (p, x)), portDue := [(0, 17000000000), (16, 17000000000)] } }

theorem test_ports : all [
  (let s := portsAre .training
  let t := nx (.portLock 16) s
  let u := nx (.trainingRetry 16) s
  s.portSt 16 == .training && s.carriesPorts 16 && s.laneClock 16 && t.portSt 16 == .up && t.icu.pend.getLsbD 192 && t.portSt 0 == .training &&
    u.now == 17000000000 && Table.get 0 u.swc.portDue 16 == 100 * millisecond + u.now && only [.time, .switch] s u),
  (let t := nx (.linkDown 0) switch
  t.portSt 0 == .down && Table.get 0 t.swc.portDue 0 == 100 * millisecond + switch.now && t.snuf.queue.contains ⟨0x020, 4, 0, switch.time.dts, false, switch.snuf.lostSince⟩),
  (let s := portsAre .down
  let t := nx (.downRetrain 0) s
  s.carriesPorts 0 && s.laneClock 0 && t.portSt 0 == .training && t.now == 17000000000),
  (let s := portsAre .up
  s.lanePort 0 == some 0 && gives (.laneFault 0) s (s.fault 0x020 2 0))] = true := by decide +kernel

/-- The last VLAN entry is selected, and a value is in the data registers. -/
def select (i v : Nat) : State :=
  { switch with regs := words [(0xA0020, 16 * i)], swc := { switch.swc with tblData := [(0, BitVec.ofNat 32 v), (1, BitVec.ofNat 32 (v / 2 ^ 32))] } }

theorem test_tables : all [
  masterDirect .lantern && switch.access .lantern 0xA0024,
  (let s := select 4095 (2 ^ 28 + 3)
  let t := nx (.tblWrite .lantern 1) s
  let u := nx (.tblRead .lantern 2) t
  let v := nx (.tblInvalidate .lantern 4) t
  (vlanCheck (dataBytes s.swc.tblData 8)).isNone && t.vlanEntry 4095 == 2 ^ 28 + 3 && !t.swc.tblErr && t.icu.pend.getLsbD 196 &&
    only [.switch, .icu, .out] s t && Table.get 0 u.swc.tblData 0 == BitVec.ofNat 32 (2 ^ 28 + 3) && v.vlanEntry 4095 == 0 && v.vlanEntry 1 == s.vlanEntry 1),
  (let s := select 4096 3
  let t := nx (.tblWrite .lantern 1) s
  t.swc == { s.swc with tblErr := true } && t.icu.pend.getLsbD 196),
  (let s := select 1 (2 ^ 60)
  (vlanCheck (dataBytes s.swc.tblData 8)).isSome && (nx (.tblWrite .lantern 1) s).swc.tblErr)] = true := by decide +kernel

/-! ### The traffic unit -/

/-- A shaper of 1 Gbit/s (at the rate of R360) and 64 bytes that was last refilled at the start. -/
def shaper_ (tokens : Int) : Shaper := { Shaper.reset with rate := 1000000000, burst := 64, en := true, rateNow := 1000, bucket := { Bucket.start 0 with tokens := tokens } }

theorem test_traffic : all [
  (let s := { switch with trf := { switch.trf with shapers := [(3, shaper_ (-5000000000))], wheel := [(3, 125000010), (4, 125000099)] } }
  let t := nx .wheelTick s
  t.trf.wheelPos == s.wheelNext && decide (s.wheelNext * 128 ≤ t.now) && t.trf.wheel.all (fun e => decide (s.wheelNext < e.2))),
  (let s := { switch with trf := { switch.trf with shapers := [(3, shaper_ (-5)), (16536, shaper_ 0)] } }
  let t := nx .bucketSweep s
  (t.shaper 3).bucket.tokens == min 64000000000 (-5 + 125000000 * 1000) && (t.shaper 3).last == s.trfTick && (t.shaper 3).rateNow == 1000000000 &&
    t.trf.sweepLast == s.trfTick && only [.traffic] s t),
  (let l : GateList := ⟨0, 1000, 2, true, [(0, (300, 1)), (1, (300, 255))]⟩
  let s := { switch with trf := { switch.trf with gates := [(16, ⟨l, l, none, 0, false⟩)] } }
  let t := nx (.gateEntryChange 16) s
  l.governs && (t.portGates 16).entry == (l.entryAt (gateTick t.fullTime)).1 && decide (s.now < t.now) && only [.time, .traffic] s t &&
    gives (.gateEntryChange 15) s s),
  (let s := { holding (frame_ good64 true [⟨16, false, 1, false, false, 0⟩]) with regs := words [(0xC0004, 100 + 2 ^ 10 + 3 * 2 ^ 11)] }
  s.live && bit (s.regOr 0x30064 0xC0004) 10 && s.qUse 16 == 1),
  (let s := { switch with trf := { switch.trf with hists := [(32, ⟨[(3, 1)], 9, 7, 1⟩)] } }
  let t := nx (.histSnap .lantern (BitVec.ofNat 32 (16 + 2 ^ 9 + 2 ^ 10))) s
  s.access .lantern 0xC0400 && t.trf.snap == s.hist 32 && t.hist 32 == Hist.empty && only [.traffic, .regs] s t),
  (let b := Shaper.bytes { shaper_ 0 with ovh := 20 }
  let s := { switch with regs := words [(0xC0010, 2 + 16 * 16)], trf := { switch.trf with tblData := putData [] (b.take 16 ++ List.replicate 16 0) } }
  let t := nx (.trfTblWrite .lantern 1) s
  let u := nx (.trfTblRead .lantern 2) t
  switch.access .lantern 0xC0014 && (shaperCheck (dataBytes s.trf.tblData 32) false).isNone && (t.shaper (portShaper 16)).rate == 1000000000 &&
    (t.shaper (portShaper 16)).burst == 64 && (t.shaper (portShaper 16)).en && t.icu.pend.getLsbD 211 && only [.traffic, .icu, .out] s t &&
    Table.get 0 u.trf.tblData 2 == 64),
  (let s := { switch with regs := words [(0xC0010, 2 + 16 * 28)] }
  let t := nx (.trfTblWrite .lantern 1) s
  t.trf == { s.trf with tblErr := true } && t.icu.pend.getLsbD 211)] = true := by decide +kernel

theorem test_hist_add : (Hist.empty.add 3 9 7).samples = 1 := by decide +kernel

/-! ### Buffer pools, DMA and the auditor -/

/-- Pools 1 and 2 of 64 buffers of 2 and 4 KiB, the first falling back to the second. -/
def buffers (bufs : Table (Option Buf)) (use : Table Nat) : State :=
  { up with
    regs := words [(0x80120, 11 + 2 * 2 ^ 6 + 2 ^ 10), (0x80124, 0x40000000), (0x8012C, 64), (0x80140, 12 + 2 ^ 10), (0x80144, 0x50000000), (0x8014C, 64)]
    pool := { up.pool with bufs := bufs, use := use } }

theorem test_buffers : all [
  (let s := buffers [(bufKey 1 0, some ⟨1, 0⟩)] [(32, 1)]
  let t := nx (.bufferRequest 1 31) s
  s.live && s.poolGrants 1 31 && s.poolFirst 1 == 1 && t.rd == 0x40000800 && Table.get .none t.pool.bufs (bufKey 1 1) == some ⟨1, 31⟩ &&
    t.ownUse 1 31 == 1 && only [.pools, .icu, .out, .rd] s t),
  (let s := buffers [] [(32 * 2, 64)]
  let t := nx (.bufferRequest 2 3) s
  !s.poolGrants 2 3 && s.poolFallback 2 == 0 && t.rd == 0 && t.icu.pend.getLsbD 257 && Table.get 0 t.pool.refused 2 == 1 && only [.pools, .icu, .out, .rd] s t),
  (let s := buffers [] [(32, 64)]
  let t := nx (.bufferRequest 1 3) s
  !s.poolGrants 1 3 && s.poolGrants 2 3 && t.rd == 0x50000000 && Table.get 0 t.pool.fallbacks 2 == 1 && t.ownUse 2 3 == 1),
  (let s := buffers [] []
  s.bufAt 0x40000001 == none && gives (.bufferTake 0x40000001) s ((s.fault 0x040 1 0x40000001).raise 260) && gives (.bufferDrop 0x40000001) s ((s.fault 0x040 1 0x40000001).raise 260) &&
    s.bufAt 0x4001F800 == some (bufKey 1 63) && gives (.bufferTake 0x4001F800) s ((s.fault 0x040 1 0x4001F800).raise 260)),
  (let s := buffers [(bufKey 1 63, some ⟨65535, 3⟩)] [(35, 1)]
  let t := nx (.bufferDrop 0x4001F800) s
  gives (.bufferTake 0x4001F800) s ((s.fault 0x040 2 0x4001F800).raise 260) && Table.get .none t.pool.bufs (bufKey 1 63) == some ⟨65534, 3⟩ && only [.pools] s t),
  (let s := buffers [(bufKey 1 63, some ⟨0, 3⟩)] [(35, 1)]
  gives (.bufferDrop 0x4001F800) s ((s.fault 0x040 3 0x4001F800).raise 260)),
  (let s := buffers [(bufKey 1 63, some ⟨1, 3⟩)] [(35, 1)]
  let t := nx (.bufferTake 0x4001F800) s
  let u := nx (.bufferDrop 0x4001F800) s
  !s.fencedBuf (bufKey 1 63) && Table.get .none t.pool.bufs (bufKey 1 63) == some ⟨2, 3⟩ && t.pool.use == s.pool.use &&
    u.pool.bufs == [] && u.ownUse 1 3 == 0 && only [.pools] s u),
  (let s0 := buffers [(bufKey 1 0, some ⟨1, 3⟩)] [(35, 1)]
  let s := { s0 with regs := words [(0x80120, 11 + 2 ^ 10), (0x80124, 0), (0x80128, 16), (0x8012C, 64)], snuf := { s0.snuf with fences := [(14, 0)] } }
  let u := nx (.bufferDrop 0x1000000000) s
  s.fencedBuf (bufKey 1 0) && Table.get .none u.pool.bufs (bufKey 1 0) == some ⟨1, 16⟩ && only [.pools] s u)] = true := by decide +kernel

/-- DMA channel 63, with its descriptor register at host address 0x2000. -/
def dma (x : DmaCh) : State := { up with dma := Table.set DmaCh.idle [] 63 x, regs := words [(0x90008 + 64 * 63, 0x2000)] }
/-- A running channel whose next descriptor is at host address 0x2000. -/
def fetching : DmaCh := { DmaCh.idle with st := .running, cur := 0x2000 }
/-- The bytes of a descriptor of 5,000 bytes from 0x100 to 0xFF8. -/
def desc_ (flags : Nat) : List Byte := leBytes 8 0x100 ++ leBytes 8 0xFF8 ++ leBytes 4 5000 ++ leBytes 4 flags ++ leBytes 8 0
/-- The channel within that descriptor. -/
def moving (d : DmaDesc) (resid : Nat) : DmaCh := { fetching with desc := some d, resid := resid }

theorem test_dma : all [
  up.access .lantern (0x90000 + 64 * 63) && up.live && !up.dmaGranted 63,
  (let s := dma DmaCh.idle
  let t := nx (.dmaStart .lantern 63 1) s
  t.dmaCh 63 == fetching && only [.dma] s t && gives (.dmaStart .lantern 7 1) s { s with dmaReject := true } &&
    gives (.dmaStart .lantern 63 1) t { t with dmaReject := true }),
  (let s := dma fetching
  let t := nx (.dmaStop .lantern 63 2) s
  (t.dmaCh 63).st == .stopped && (t.dmaCh 63).code == 0 && t.icu.pend.getLsbD 191 && only [.dma, .icu, .out] s t &&
    (nx (.dmaClear .lantern 63 4) t).dmaCh 63 == { t.dmaCh 63 with st := .idle }),
  (let x := moving ⟨0x100, 0xFF8, 5000, true, false, 0x3000⟩ 5000
  gives (.dmaStop .lantern 63 2) (dma x) (dma { x with st := .stopping })),
  (let s := dma { DmaCh.idle with isolated := true }
  gives (.dmaClear .lantern 63 4) s { s with dmaReject := true }),
  (let s := dma fetching
  let t := nx (.dmaDescriptorFetch 63 (.data (desc_ 0))) s
  dmaReach 63 0x2000 32 && dmaDescOk (desc_ 0) && !s.dmaByCcw 63 && (t.dmaCh 63).desc == some ⟨0x100, 0xFF8, 5000, false, false, 0⟩ && (t.dmaCh 63).resid == 5000),
  (let s := dma fetching
  let t := nx (.dmaDescriptorFetch 63 (.data (desc_ 4))) s
  !dmaDescOk (desc_ 4) && (t.dmaCh 63).st == .error && (t.dmaCh 63).code == 0x11 && t.icu.pend.getLsbD 191 &&
    t.snuf.queue.contains ⟨0x041, 3, 63, s.time.dts, false, s.snuf.lostSince⟩),
  (let s := dma fetching
  let t := nx (.dmaDescriptorFetch 63 .failed) s
  let u := nx (.dmaRetry 63) t
  let v := nx (.dmaDescriptorFetch 63 .failed) (dma { fetching with retrying := true, retries := 3 })
  s.dmaRetryMax 63 == 3 && (t.dmaCh 63).retryAt == some (16000 + s.now) && (t.dmaCh 63).retries == 1 && only [.dma] s t &&
    u.now == 16000 + s.now && (u.dmaCh 63).retryAt == none && only [.time, .dma] t u && (v.dmaCh 63).st == .error && (v.dmaCh 63).code == 0x32)] = true := by
  decide +kernel

theorem test_dma_blocks : all [
  (let s := dma (moving ⟨0x100, 0xFF8, 5000, false, false, 0⟩ 5000)
  let t := nx (.dmaBlockEnd 63 (.data [1, 2, 3, 4, 5, 6, 7, 8, 9]) false) s
  t.host.bytes 0xFF8 9 == [1, 2, 3, 4, 5, 6, 7, 8, 0] && (t.dmaCh 63).resid == 4992 && (t.dmaCh 63).bytes == 8 && (t.dmaCh 63).st == .running &&
    only [.dma, .host, .icu, .out] s t),
  (let s := dma (moving ⟨0x04030201, 0xFF8, 5000, false, true, 0⟩ 2)
  let t := nx (.dmaBlockEnd 63 (.data []) false) s
  t.host.bytes (0xFF8 + 4998) 3 == [3, 4, 0] && (t.dmaCh 63).st == .done && (t.dmaCh 63).descs == 1 && t.icu.pend.getLsbD 191),
  (let s := dma { moving ⟨0x100, 0xFF8, 5000, true, false, 0x4000⟩ 8 with st := .stopping }
  let t := nx (.dmaBlockEnd 63 (.data [1]) false) s
  (t.dmaCh 63).st == .stopped && (t.dmaCh 63).cur == 0x4000 && (t.dmaCh 63).desc == none),
  (let s := dma (moving ⟨0x100, 0xFF8, 5000, true, false, 0x4000⟩ 8)
  ((nx (.dmaBlockEnd 63 (.data [1]) false) s).dmaCh 63).st == .running),
  (let s := dma (moving ⟨0x100, 0xFF8, 5000, false, false, 0⟩ 5000)
  let t := nx (.dmaBlockEnd 63 (.poisoned [1, 2] 0) false) s
  (t.dmaCh 63).st == .error && (t.dmaCh 63).code == 0x31 && (t.dmaCh 63).resid == 4992 && t.host.bytes 0xFF8 3 == [1, 2, 0] &&
    t.snuf.queue.contains ⟨0x041, 2, 63, s.time.dts, false, s.snuf.lostSince⟩)] = true := by decide +kernel

/-- An audit of two ledgers of law 1 is pending; `b` is the second one's last term. -/
def auditing (b : Int) : State :=
  { up with
    regs := words [(0x84000, 1)]
    audit := { up.audit with pending := some ⟨5, 7, [⟨1, 0, 13, [1, 2, 3], false, false⟩, ⟨1, 1, 13, [1, 2, b], false, false⟩]⟩ } }

theorem test_audit : all [
  (auditing 3).audits,
  (let s := auditing 3
  let t := nx (.auditEnd []) s
  t.audit.pending == none && t.audit.pass == 1 && t.audit.failLaws == 0 && t.audit.lastTick == 5 && only [.audit] s t),
  (let s := auditing 4
  let t := nx (.auditEnd []) s
  t.audit.pending == none && t.audit.pass == 0 && t.icu.pend.getLsbD 258 && t.audit.frozen.isSome && t.audit.firstLaw == 1 && t.audit.firstUnit == 13 &&
    t.audit.firstIndex == 1 && t.snuf.queue.contains ⟨0x0D0, 1, 1, s.time.dts, false, s.snuf.lostSince⟩ && only [.audit, .snuffer, .icu, .out] s t),
  (let s := { auditing 4 with audit := { (auditing 4).audit with frozen := some (⟨1, 1, []⟩, none), firstLaw := 6 } }
  let t := nx (.auditEnd []) s
  let u := nx (.auditRelease .lantern 2) s
  t.audit.frozen == s.audit.frozen && t.audit.firstLaw == 6 && up.access .lantern 0x84000 && u.audit == { s.audit with frozen := none, firstLaw := 0 } &&
    u.regOr 1 0x84000 == 0 && only [.audit, .regs] s u),
  (let s := { auditing 4 with audit := { (auditing 4).audit with lost := [(1, 1)] } }
  let t := nx (.auditEnd []) s
  t.audit.pass == 1),
  (let s := { auditing 4 with audit := { (auditing 4).audit with struck := [(1, 1)] } }
  let t := nx (.auditEnd []) s
  t.audit.lost == [(1, 1)] && t.audit.struck == [] && t.icu.pend.getLsbD 259 && t.audit.pass == 1),
  (let t := nx (.auditEnd [⟨0, 1, 0, true⟩]) (auditing 4)
  t.audit.lost == [(1, 1)] && t.icu.pend.getLsbD 259 && t.audit.pass == 1)] = true := by decide +kernel

/-! ### Faults, tests and interrupts -/

/-- A Snuffer with a queue of messages, and the windows of some sources. -/
def messages (l : List FaultMsg) (wins : Table SrcWin := []) : State := { up with snuf := { up.snuf with queue := l, wins := wins } }
/-- Its changed Snuffer. -/
def sn (s : State) (f : SnufState → SnufState) : State := { s with snuf := f s.snuf }
/-- A message of now. -/
def msg (src kind addr : Nat) : FaultMsg := ⟨BitVec.ofNat 10 src, BitVec.ofNat 8 kind, BitVec.ofNat 48 addr, up.time.dts, false, false⟩

theorem test_messages : all [
  up.collectorRuns && !up.halted && !up.pwr.inWarmReset,
  (let m := msg 0x0B0 1 9
  let s := messages [msg 0x0C0 1 0, m]
  let t := nx (.faultMessage none) s
  headMessage s.snuf.queue == some m && (s.countFault m).reactionTo m 0 == 1 && s.implicated 0x0B0 1 9 == none &&
    t.snuf.queue == [msg 0x0C0 1 0] && (t.win 0x0B0).events == 1 && (t.win 0x0B0).count == 1 && (t.win 0x0B0).start == some up.time.dts &&
    t.icu.pend.getLsbD 0 && t.icu.pend.getLsbD 2 && t.snuf.first.isSome && t.snuf.seq == 1 && t.snuf.lastAccept == s.now &&
    t.snuf.hist.map (fun h => (h.address, h.source, h.kind, h.reaction)) == [(9, 0x0B0, 1, 1)]),
  (let m := msg 0x072 1 5120
  let s := messages [m] [(0x072, ⟨some (up.time.dts - 5), 15, false, 30⟩)]
  let t := nx (.faultMessage none) s
  (s.countFault m).reactionTo m 0 == 1 && s.implicated 0x072 1 5120 == some (.sramRow 2 5) && !s.tested (.sramRow 2 5) &&
    t.win 0x072 == ⟨some (up.time.dts - 5), 16, true, 31⟩ && t.icu.pend.getLsbD 1 &&
    t.snuf.tests == [⟨.sramRow 2 5, some m, s.now, false⟩] && t.snuf.corrected == 1),
  (let m := msg 0x072 1 5120
  let s := messages [m]
  let t := nx (.faultMessage none) s
  (s.countFault m).reactionTo m 0 == 0 && t.icu.pend.getLsbD 0 == false && t.snuf.first.isNone),
  gives (.faultMessage (some ⟨0x0C0, 1, 7⟩)) up (nx (.faultMessage none) (up.fault 0x0C0 1 7)),
  (let s := { up with
      swc := { up.swc with vlan := [(5, 2 ^ 28 + 3), (6, 2 ^ 28)] }
      trf := { up.trf with shapers := [(5, { Shaper.reset with en := true, rate := 9, burst := 7, bucket := ⟨4, 1, 5, 2, 0⟩ })] } }
  let t := nx (.faultMessage (some ⟨0x01F, 0x40, 0x50⟩)) s
  let u := nx (.faultMessage (some ⟨0x030, 1, 0x50⟩)) s
  let v := nx (.faultMessage (some ⟨0x030, 1, 0x105⟩)) s
  t.vlanEntry 5 == 3 && t.vlanEntry 6 == 2 ^ 28 && only [.switch, .snuffer, .icu, .out, .nvs, .time] s t &&
    u.shaper 5 == { s.shaper 5 with bucket := ⟨0, 0, 0, 0, 0⟩ } && u.audit.struck == [(4, 5)] &&
    only [.traffic, .audit, .snuffer, .icu, .out, .nvs, .time] s u && (v.portGates 16).struck && v.audit.struck == []),
  (let s := (up.logRecord 6 0xFF (List.replicate 8 0)).logRecord 7 0xFF (List.replicate 16 0)
  let t := nx (.faultMessage (some ⟨0x090, 2, 0x1000040⟩)) s
  let u := nx (.faultMessage (some ⟨0x090, 2, 0x1000080⟩)) s
  (s.nvs.recordAt 3 64).any (fun r => r.type == 6) && !t.nvs.log.any (fun r => r.type == 6) && t.nvs.log.any (fun r => r.type == 7) &&
    t.icu.pend.getLsbD 282 && u.nvs.log.any (fun r => r.type == 6) && !u.nvs.log.any (fun r => r.type == 7)),
  (let s := messages [] [(5, ⟨some (up.time.dts - 5), 15, true, 30⟩), (6, ⟨some 7, 1, false, 1⟩)]
  let t := nx (.severityWindowEnd 5) s
  t.snuf.wins == [(5, ⟨none, 0, false, 30⟩), (6, ⟨some 7, 1, false, 1⟩)] && only [.time, .snuffer] s t)] = true := by decide +kernel

/-- A test of a resource that runs. -/
def testing (r : Resource) (m : Option FaultMsg) (f : SnufState → SnufState := id) : State :=
  sn up (fun x => f { x with tests := [⟨r, m, 0, false⟩, ⟨.lane 3, none, 5, true⟩] })

theorem test_tests_end : all [
  (let s := testing (.sramRow 2 5) (some (msg 0x072 1 5120))
  let t := nx (.selfTestEnd (.sramRow 2 5) true) s
  s.testsRun && (s.testOf (.sramRow 2 5)).isSome && t.snuf.tests.length == 1 && t.icu.pend.getLsbD 3 &&
    t.snuf.hist.map (fun h => (h.kind, h.flags.getLsbD 2)) == [(0xF0, true)] && only [.time, .snuffer, .icu, .out, .nvs] s t),
  (let s := testing (.sramRow 2 5) (some (msg 0x072 1 5120)) (fun x => { x with spareRows := [(2, 31)] })
  let t := nx (.selfTestEnd (.sramRow 2 5) false) s
  !s.outOfService (.sramRow 2 5) && t.snuf.spareRows == [(2, 32)] && t.snuf.sparedRows == [(2, 5)] && t.icu.pend.getLsbD 3 && t.icu.pend.getLsbD 4),
  (let s := testing (.sramRow 2 5) none (fun x => { x with fences := [(2, 5)], retest := some (.sramRow 2 5), passes := [(.sramRow 2 5, 1)] })
  let t := nx (.selfTestEnd (.sramRow 2 5) false) s
  t.passesOf (.sramRow 2 5) == 0 && t.snuf.fences == [(2, 5)] && t.snuf.retestResult == 3 && t.snuf.retest == none),
  (let s := testing (.sramRow 2 5) none (fun x => { x with fences := [(2, 5)], retest := some (.sramRow 2 5) })
  let t := nx (.selfTestEnd (.sramRow 2 5) true) s
  bits (s.regOr 0x218 0x50008) 11 8 == 2 && t.passesOf (.sramRow 2 5) == 1 && t.snuf.fences == [(2, 5)] && t.snuf.retestResult == 2),
  (let s := testing (.sramRow 2 5) none (fun x => { x with fences := [(2, 5)], passes := [(.sramRow 2 5, 1)], degrading := [.sramRow 2 5] })
  let t := nx (.selfTestEnd (.sramRow 2 5) true) s
  t.passesOf (.sramRow 2 5) == 0 && t.snuf.fences == [] && t.snuf.degrading == []),
  (let s := sn up (fun x => { x with fences := [(2, 5)] })
  let t := nx (.snufRetest .lantern 0x80000002) s
  up.access .lantern 0x50090 && s.retestOf 2 0 == some (.sramRow 2 5) && s.retestOf 2 1 == none &&
    gives (.snufRetest .lantern 0x80000006) s { s with snuf := { s.snuf with retestResult := 0, retest := none } } &&
    t.snuf.retest == some (.sramRow 2 5) && t.snuf.retestResult == 1 && t.snuf.tests == [⟨.sramRow 2 5, none, s.now, false⟩] && only [.snuffer] s t),
  (let s := sn up (fun x => { x with copyingPcs := [(1, 31)] })
  let t := nx (.pseudoChannelSpared 1 31) s
  t.snuf.sparedPcs == [(1, 31)] && t.snuf.copyingPcs == [] && t.icu.pend.getLsbD 4 && t.snuf.hist.map (fun h => h.kind) == [0xF4] &&
    only [.snuffer, .icu, .out, .nvs] s t),
  (let s := sn up (fun x => { x with resets := [.lantern, .lamplighter 2], flickerFrozen := true, live := 7 })
  let t := nx (.unitResetEnd .lantern) s
  let u := nx (.unitResetEnd (.lamplighter 2)) { s with lmp.cores := 0xB }
  t.snuf.resets == [.lamplighter 2] && t.icu.pend.getLsbD 6 && !t.snuf.flickerFrozen && t.snuf.live == 15 && only [.snuffer, .icu, .out] s t &&
    t.snuf.queue.contains (msg 0x0C0 3 3) && u.lmp.cores == 0xF && u.snuf.resets == [.lantern] &&
    (nx (.unitResetEnd .dma) (sn up (fun x => { x with resets := [.dma] }))).snuf.queue == [])] = true := by decide +kernel

/-- The device in RECOVERY since the start, entered from another mode. -/
def recovering (m : Mode) : State := sn (pw up (fun p => { p with mode := .recovery, recFrom := m })) (fun x => { x with recoveryAt := some 4 })

theorem test_recovery : all [
  (let s := recovering .service
  let t := nx .recoveryEnd s
  s.afterRecovery == .service && s.pwr.change.isNone && t.pwr.change == some ⟨none, .reaction, none, none, 0, s.now, true⟩ && only [.power] s t),
  (let s := recovering .standby
  let t := nx .recoveryEnd s
  s.afterRecovery == .standby && t.pwr.mode == .standby && t.snuf.recoveryAt == none && t.snuf.recoveryEnded == some t.now),
  (let s := { recovering .service with qm := { up.qm with hostLost := true } }
  s.afterRecovery == .continuity && (nx .recoveryEnd s).pwr.mode == .continuity),
  (let s := pw (recovering .night) (fun p => { p with thermalCap := true })
  s.afterRecovery == .limited && (nx .recoveryEnd s).pwr.mode == .limited),
  (let t := nx .recoveryTimeout (recovering .service)
  t.snuf.halt == some .ordered && decide (1000 * millisecond + 4 ≤ t.now)),
  (let s := sn up (fun x => { x with live := 15 })
  let t := nx (.snufHalt .lantern 1) s
  up.access .lantern 0x50004 && t.snuf.halt == some .ordered && t.snuf.live == 7 &&
    t.snuf.hist.map (fun h => (h.source, h.kind, h.reaction)) == [(0, 2, 7)]),
  (let s := sn up (fun x => { x with live := 15 })
  let t := nx .lanternWatchdog s
  t.snuf.live == 7 && t.snuf.flickerFrozen && t.icu.pend.getLsbD 8 && t.snuf.queue == [msg 1 1 0] && only [.snuffer, .icu, .out] s t),
  (let t := nx .flickerToggle up
  let u := up.advanceTo (millisecond + up.snuf.flickerAt)
  t.snuf.live == u.liveChecks && t.snuf.flickerAt == t.now && t.time == u.time && t.snuf.flicker == (u.liveChecks == 15) &&
    only [.time, .snuffer, .icu, .out] up t),
  (let s := sn (messages [msg 0x0C0 1 0]) (fun x => { x with live := 15 })
  let t := nx .flickerToggle s
  !t.snuf.live.getLsbD 2 && t.icu.pend.getLsbD 8 && !t.snuf.flicker),
  (let s := sn up (fun x => { x with first := some ⟨0, 0, 0, 0, 0, 0, 0, 0⟩ })
  up.access .lantern 0x50060 && gives (.snufFirstClear .lantern 1) s { s with snuf.first := none }),
  (let s := { up with correctable := [32, 33], poison := [33] }
  let t := nx (.patrolScrub none 263) s
  t.correctable == [33] && t.poison == [33] && t.snuf.queue == [msg 0x081 1 256] && only [.ecc, .snuffer, .icu, .out] s t)] = true := by decide +kernel

/-- The device in TEST, the sequence of keys some way along. -/
def perturbed (n : Nat) (un : Bool) : State := sn (pw up (fun p => { p with mode := .test })) (fun x => { x with unlockPos := n, unlocked := un })

theorem test_perturbation : all [
  (perturbed 0 false).access .lantern 0x400000 && (perturbed 0 false).access .lantern 0x400070,
  gives (.testUnlock .lantern 0x4C5A) (perturbed 0 false) (perturbed 1 false), gives (.testUnlock .lantern 0x9E3B) (perturbed 1 false) (perturbed 2 false),
  (let t := nx (.testUnlock .lantern 0x7F10) (perturbed 2 false)
  t.snuf.unlocked && t.snuf.unlockPos == 0 && t.icu.pend.getLsbD 10),
  gives (.testUnlock .lantern 0x4C5A) (perturbed 2 true) (perturbed 1 false), gives (.testUnlock .lantern 5) (perturbed 1 true) (perturbed 0 false),
  (let s := { perturbed 1 true with regs := words [(0x400074, 7), (0x400078, 0x10002)] }
  let t := nx (.testInjGo .lantern (BitVec.ofNat 32 (2 ^ 31 + 0x0C0 + 3 * 2 ^ 10))) s
  t.regOr 0 0x400070 == 0x0C0 + 3 * 2 ^ 10 && t.snuf.unlockPos == 0 && t.snuf.queue == [msg 0x0C0 3 (7 + 2 * 2 ^ 32)] && only [.snuffer, .regs, .icu, .out] s t),
  (let s := perturbed 1 true
  let t := nx (.testInjGo .lantern 0x0C0) s
  t.snuf == { s.snuf with unlockPos := 0 })] = true := by decide +kernel

/-- Source 1023 or another stands for the target 2, with the target's stack. -/
def standing (pend : BitVec 1024) (stack : List Nat) : State :=
  { up with
    regs := words [(0x41000 + 4 * 1023, 0x102), (0x41000, 0x8002)]
    icu := { up.icu with pend := pend, mask := 0, claims := up.icu.claims.set 2 stack } }

theorem test_interrupts : all [
  up.icuOpen && up.readySource 2 == none && gives (.icuClaimRead 2) up { up with rd := 0x80000000 },
  (let s := standing 1 []
  let t := nx (.icuClaimRead 2) s
  s.readySource 2 == some 0 && t.rd == 0 && t.icu.pend == 0 && t.icu.claims == up.icu.claims.set 2 [0] && only [.icu, .out, .rd] s t),
  (let s := standing (1 ||| (1 : BitVec 1024) <<< 1023) [0]
  let t := nx (.icuClaimRead 2) s
  s.readySource 2 == some 1023 && t.rd == 1023 && t.icu.pend == 1 && t.icu.claims == up.icu.claims.set 2 [1023, 0]),
  (let s := { up with icu := { up.icu with claims := up.icu.claims.set 13 [1023], wanted := false } }
  let t := nx (.icuComplete 13 1023) s
  t.icu.claims == up.icu.claims && !t.icu.grouped[13] && t.icu.pend == s.icu.pend && only [.icu, .out] s t),
  (let s := { up with icu := { up.icu with claims := up.icu.claims.set 13 [1023, 7], wanted := false } }
  let t := nx (.icuComplete 13 1023) s
  t.icu.claims == up.icu.claims.set 13 [7] && t.icu.grouped[13]),
  (let s := { up with icu := { up.icu with claims := up.icu.claims.set 13 [1023] } }
  let t := nx (.icuComplete 13 7) s
  t.icu.orderErr && t.icu.claims == s.icu.claims && t.icu.pend.getLsbD 9 && t.snuf.queue == [msg 0x0B0 1 (7 + 65536 * 13)] &&
    only [.icu, .snuffer, .out] s t),
  (let t := nx (.icuPendSet 31 0x80000001) up
  t.icu.pend == ((1 : BitVec 1024) <<< 1023 ||| (1 : BitVec 1024) <<< 992) && t.icu.mask == up.icu.mask && only [.icu, .out] up t &&
    (nx (.icuPendClr 31 1) t).icu.pend == (1 : BitVec 1024) <<< 1023),
  (let t := nx (.icuMaskClr 0 5) up
  !t.icu.mask.getLsbD 0 && t.icu.mask.getLsbD 1 && !t.icu.mask.getLsbD 2 && t.icu.pend == up.icu.pend && only [.icu, .out] up t &&
    (nx (.icuMaskSet 0 4) t).icu.mask.getLsbD 2)] = true := by decide +kernel

/-! ### The mailbox and out-of-band management -/

/-- A mailbox command that runs, and the first words of LMB_DATA. -/
def mailing (cmd : Nat) (data : List Nat) : State :=
  { up with
    regs := words ((List.range data.length).map (fun k => (mailData + 4 * k, data.getD k 0)))
    mail := { up.mail with busy := true, cmd := cmd } }

theorem test_mailbox : all [
  (let s := pw (mailing 1 []) (fun p => { p with temps := [(13, (-160, false))], vin := 3312 })
  let t := nx .readSensors s
  !t.mail.busy && t.mail.status == .ok && t.mail.rlen == 148 && t.regOr 0 (mailData + 4 * 13) == s.pwrField .pwrTemp 13 % 2 ^ 32 &&
    t.regOr 0 (mailData + 4 * 14) == 3312 && t.icu.pend.getLsbD 281 && only [.mailbox, .regs, .icu, .out] s t),
  (let s := mailing 3 []
  let t := nx (.debugUnlock true) { s with mail := { s.mail with nonce := some [1, 2] } }
  let u := nx (.debugUnlock true) s
  t.mail.nonce == none && t.mail.unlocked && t.mail.status == .ok && t.icu.pend.getLsbD 284 && t.icu.pend.getLsbD 281 &&
    !u.mail.unlocked && u.mail.status == .dataError),
  (let t := nx .nvsRead (mailing 4 [0, 257])
  t.mail == { (mailing 4 []).mail with busy := false, status := .invalidField } && t.icu.pend.getLsbD 281),
  (let s := mailing 4 [0x8000, 256]
  let t := nx .nvsRead s
  s.nvsArea 0x8000 256 == none && t.mail == { s.mail with busy := false, status := .notPermitted }),
  (let r : LogRec := ⟨7, 0, 9, 5, [0xAB], 0⟩
  let s0 := mailing 4 [0x10000000 / 16 + 8, 4]
  let s := { s0 with nvs := { s0.nvs with log := [r] } }
  let t := nx .nvsRead s
  s.nvsArea 0x1000008 4 == some ([r], 0x1000000) && t.mail.status == .ok && t.mail.rlen == 4 && t.mailBytes 4 == (r.bytes.drop 8).take 4 &&
    only [.mailbox, .regs, .icu, .out] s t)] = true := by decide +kernel

theorem test_challenge :
    (let t := nx (.debugChallenge [9, 8]) (mailing 2 [])
    t.mail.nonce == some (zeroFill 32 [9, 8]) && !t.mail.busy && t.mail.status == .ok && t.mailBytes 32 == zeroFill 32 [9, 8]) = true := by
  decide +kernel

theorem test_endpoint : all [
  up.managed, gives (.setEndpointId 1 0x1D) up ({ up with mgmt.eid := 0x1D }.emit (.mgmt [0, 0, 1, 0, 0, 0x1D, 0])),
  gives (.setEndpointId 1 0xFF) up (up.emit (.mgmt [0, 0, 1, 2])), gives (.setEndpointId 2 0x1D) up (up.emit (.mgmt [0, 0, 1, 2])),
  gives .getEndpointId up (up.emit (.mgmt [0, 0, 2, 0, up.mgmt.eid, 0, 0])),
  gives (.getMctpVersionSupport 2) up (up.emit (.mgmt [0, 0, 4, 0x80])), gives .getMessageTypeSupport up (up.emit (.mgmt [0, 0, 5, 0, 1, 1])),
  gives (.setTid 0xFE) up ({ up with mgmt.tid := 0xFE }.emit (.mgmt [0, 0, 1, 0])), gives (.setTid 0) up (up.emit (.mgmt [0, 0, 1, 2])),
  gives (.getPldmVersion 3) up (up.emit (.mgmt [0, 0, 3, 0x83])), gives (.getPldmCommands 3) up (up.emit (.mgmt [0, 0, 5, 0x83])),
  gives .getPldmTypes up (up.emit (.mgmt [0, 0, 4, 0, 0x25, 0, 0, 0, 0, 0, 0, 0])),
  pldmCommands 0 == some 0x3E && gives (.getPldmCommands 0) up (up.emit (.mgmt ([0, 0, 5, 0, 0x3E] ++ List.replicate 31 0)))] = true := by
  decide +kernel

theorem test_monitoring : all [
  gives (.getPdr 42) up (up.emit (.mgmt [0, 2, 0x51, 0x82])), pdrList[40]? == some (9, 201),
  up.numericSensor 23 == none && gives (.getSensorReading 23) up (up.emit (.mgmt [0, 2, 0x11, 0x80])),
  (up.numericSensor 49).isSome && (match exec (.getSensorReading 49) up with | .next t => t.out.length == 1 | _ => false),
  gives (.getStateSensorReadings 100) up (up.emit (.mgmt [0, 2, 0x21, 0, 1, 0, BitVec.ofNat 8 up.pwr.mode.code, 0, BitVec.ofNat 8 up.pwr.mode.code])),
  gives (.setStateEffecterStates 201 5) up (up.emit (.mgmt [0, 2, 0x39, 0x80])),
  gives (.setStateEffecterStates 200 4) up ((up.requestMode 4 .outOfBand).emit (.mgmt [0, 2, 0x39, 0])),
  gives (.setNumericEffecterValue 201 128) up (up.emit (.mgmt [0, 2, 0x31, 2])),
  (let s := { up with regs := words [(0x60010, 0x12345600)] }
  let t := nx (.setNumericEffecterValue 201 127) s
  t.regOr 1109 0x60010 == 0x1234567F && Table.get .none t.nvs.persisted 0x60010 == some 0x1234567F && only [.regs, .nvs, .out] s t &&
    gives (.getNumericEffecterValue 201) t (t.emit (.mgmt [0, 2, 0x32, 0, 0, 1, 0x7F, 0x7F]))),
  gives (.setEventReceiver 1 9) up ({ up with mgmt.receiver := some 9 }.emit (.mgmt [0, 2, 4, 0])),
  gives (.setEventReceiver 2 9) up (up.emit (.mgmt [0, 2, 4, 0x82]))] = true := by decide +kernel

/-- A PLDM update in a phase, of image 1. -/
def phased (p : PldmPhase) (u : Option Update) : State :=
  { up with mgmt := { up.mgmt with phase := p, component := some 1 }, updates := Table.set .none [] 1 u }
/-- 70 of 100 bytes have come. -/
def part_ (n : Nat) : Update := ⟨true, none, 0, false, 100, n, none⟩
/-- The phase after a command. -/
def goesOn (c : Instr) (s : State) (p : PldmPhase) : Bool := decide ((nx c s).mgmt.phase = p)

theorem test_firmware : all [
  gives .requestUpdate (phased .idle none) ((phased .learn none).emit (.mgmt [0, 5, 0x10, 0, 0, 0, 0])),
  gives .requestUpdate (phased .ready none) ((phased .ready none).emit (.mgmt [0, 5, 0x10, 0x81])),
  gives (.passComponentTable 0xFFFF 3) (phased .learn none) ((phased .ready none).emit (.mgmt [0, 5, 0x13, 0, 0, 0])),
  gives (.passComponentTable 0 3) (phased .ready none) ((phased .ready none).emit (.mgmt [0, 5, 0x13, 0, 1, 6])),
  gives (.passComponentTable 0 3) (phased .idle none) ((phased .idle none).emit (.mgmt [0, 5, 0x13, 0x80])),
  gives (.updateComponent 0xFFFF 2 9) (phased .verify none) ((phased .verify none).emit (.mgmt [0, 5, 0x14, 0x84])),
  gives (.updateComponent 0xFFFF 2 9) (phased .ready (some (part_ 7))) ((phased .ready (some (part_ 7))).emit (.mgmt [0, 5, 0x14, 0x81])),
  gives (.updateComponent 0xFFFF 2 0x100001) (phased .ready none) ((phased .ready none).emit (.mgmt [0, 5, 0x14, 0, 1, 6, 0, 0, 0, 0, 0, 0])),
  (let s := phased .ready none
  let t := nx (.updateComponent 0xFFFF 2 0x100000) s
  componentOf 0xFFFF 2 == some 1 && t.mgmt.phase == .download && t.updateOf 1 == some ⟨true, none, 0, false, 0x100000, 0, none⟩ &&
    (t.image 1).spare == .invalid && t.image 2 == s.image 2 && only [.management, .updates, .nvs, .out] s t),
  (let s := phased .download (some (part_ 70))
  let t := nx (.requestFirmwareData (List.replicate 40 1)) s
  t.updateOf 1 == some (part_ 100) && t.mgmt.offset == 100 && only [.management, .updates] s t && goesOn (.transferComplete true) t .verify),
  gives (.requestFirmwareData [1]) (phased .ready none) (phased .ready none),
  (let t := nx (.verifyComplete (.verified 77 (some patchImage))) (phased .verify (some (part_ 100)))
  t.mgmt.phase == .apply && (t.image 1).spareVersion == 77),
  (let s := phased .verify (some (part_ 100))
  goesOn (.verifyComplete .badSignature) s .ready && ((nx (.verifyComplete .badSignature) s).image 1).spare == (s.image 1).spare),
  (let t := nx (.applyComplete true) (phased .apply (some (part_ 100)))
  t.mgmt.phase == .ready && (t.image 1).spare == .pending),
  gives (.activateFirmware false) (phased .ready none) ((phased .idle none).emit (.mgmt [0, 5, 0x1A, 0, 0, 0])),
  gives (.activateFirmware true) (phased .ready none) ((phased .ready none).emit (.mgmt [0, 5, 0x1A, 0x8C])),
  gives (.activateFirmware false) (phased .idle none) ((phased .idle none).emit (.mgmt [0, 5, 0x1A, 0x80])),
  goesOn .cancelUpdateComponent (phased .download (some (part_ 1))) .ready, goesOn .cancelUpdate (phased .apply (some (part_ 100))) .idle,
  gives .cancelUpdateComponent (phased .ready none) ((phased .ready none).emit (.mgmt [0, 5, 0x1C, 0x84])),
  gives .cancelUpdate (phased .idle none) ((phased .idle none).emit (.mgmt [0, 5, 0x1D, 0x80])),
  (nx .cancelUpdate (phased .ready none)).updates == [] && goesOn .cancelUpdate (phased .ready none) .idle] = true := by decide +kernel

theorem test_table_has_no_words : decodeTableWord 32 5 = none ∧ up.withFetchWord 32 5 = up := by decide +kernel

end Sys2Proof.Tests
end

namespace Sys2Proof.Machine

/-! ### What the units' own work leaves of the session, the registers, the mode and the pending sources

A job, a flip or a port that changes state writes its own unit and may raise sources; it never writes the staging session, a
register or the power state, and it never takes back a source that pends. `Steady b s` says this of a state `s` that work has
reached from `b`; each operation has one lemma, named after it. -/

/-- `s` has the staging session, the registers and the power state of `b`, and what pends in `b` pends in `s`. -/
def Steady (b s : State) : Prop :=
  s.stage = b.stage ∧ s.regs = b.regs ∧ s.pwr = b.pwr ∧ ∀ n, b.icu.pend.getLsbD n = true → s.icu.pend.getLsbD n = true

namespace Steady
variable {b s t : State}

theorem refl (s : State) : Steady s s := ⟨rfl, rfl, rfl, fun _ h => h⟩

theorem stage (h : Steady b s) : s.stage = b.stage := h.1
theorem regs (h : Steady b s) : s.regs = b.regs := h.2.1
theorem pwr (h : Steady b s) : s.pwr = b.pwr := h.2.2.1
theorem pends {n : Nat} (h : Steady b s) (hn : b.icu.pend.getLsbD n = true) : s.icu.pend.getLsbD n = true := h.2.2.2 n hn

/-- An operation that writes none of the four keeps them by definition. -/
theorem of_eq (h : Steady b s) (e : (t.stage, t.regs, t.pwr, t.icu.pend) = (s.stage, s.regs, s.pwr, s.icu.pend)) :
    Steady b t := by
  injection e with h1 e
  injection e with h2 e
  injection e with h3 h4
  unfold Steady
  rw [h1, h2, h3, h4]
  exact h

theorem ite {c : Prop} [Decidable c] (h : Steady b s) (k : Steady b t) : Steady b (if c then s else t) := by
  split <;> assumption

theorem snd {α : Type} {x : α × State} {a : α} (h : Steady b x.2) (e : x = (a, t)) : Steady b t := by
  rw [e] at h
  exact h

theorem fst {α : Type} {x : State × α} {a : α} (h : Steady b x.1) (e : x = (t, a)) : Steady b t := by
  rw [e] at h
  exact h

theorem fold {α : Type} {l : List α} {f : State → α → State} (h : Steady b s)
    (hf : ∀ t x, Steady b t → Steady b (f t x)) : Steady b (l.foldl f s) := by
  induction l generalizing s with
  | nil => exact h
  | cons a l ih => exact ih (hf s a h)

theorem each {α : Type} {l : List α} {f : α → State → State} (h : Steady b s)
    (hf : ∀ x t, Steady b t → Steady b (f x t)) : Steady b (forEach l s f) :=
  h.fold (fun t x => hf x t)

/-! #### Sources, messages and memories -/

theorem hostCheck (h : Steady b s) : Steady b s.hostCheck := by
  unfold State.hostCheck
  exact ite (h.of_eq (by rfl)) (h.of_eq (by rfl))

theorem raise {n : Nat} (h : Steady b s) : Steady b (s.raise n) := by
  obtain ⟨h1, h2, h3, h4⟩ := h
  unfold State.raise
  split
  · have pending : Steady b { s with icu := { s.icu with pend := s.icu.pend ||| (1 <<< n) } } :=
      ⟨h1, h2, h3, fun m hm => by simp [h4 m hm]⟩
    exact pending.hostCheck
  · exact ⟨h1, h2, h3, h4⟩

theorem faultPart {p : Bool} {src kind a : Nat} (h : Steady b s) : Steady b (s.faultPart p src kind a) := by
  unfold State.faultPart
  exact ite (ite (h.of_eq (by rfl)) (h.of_eq (by rfl)).raise) h

theorem fault {src kind a : Nat} (h : Steady b s) : Steady b (s.fault src kind a) := h.faultPart

theorem eccFaults {p : Bool} {kind : Nat} {ws : List Nat} (h : Steady b s) : Steady b (s.eccFaults p kind ws) :=
  h.each (fun _ _ ht => ht.faultPart)

theorem devWrite {a : Nat} {bs : List Byte} (h : Steady b s) : Steady b (s.devWrite a bs) :=
  (h.of_eq (by rfl)).eccFaults.eccFaults

theorem devRead {a n : Nat} (h : Steady b s) : Steady b (s.devRead a n) := (h.of_eq (by rfl)).eccFaults.eccFaults

theorem spaceWrite {a : DWord} {bs : List Byte} (h : Steady b s) : Steady b (s.spaceWrite a bs) :=
  ite h.devWrite (h.of_eq (by rfl))

/-! #### Completions and channels -/

theorem finish {n r0 r1 : Nat} {st : Status} {d : Option Nat} (h : Steady b s) : Steady b (s.finish n st r0 r1 d) := by
  obtain ⟨sl, k, e⟩ := State.finish_frame (s := s) (n := n) (st := st) (r0 := r0) (r1 := r1) (d := d)
  rw [e]
  exact h.of_eq rfl

theorem finishAll {l : List Nat} {st : Status} (h : Steady b s) : Steady b (s.finishAll l st) :=
  h.each (fun _ _ ht => ht.finish)

theorem ringCsw {c : Nat} {csw : List Byte} (h : Steady b s) : Steady b (s.ringCsw c csw) := by
  unfold State.ringCsw
  dsimp only
  split
  · exact h
  · exact ite h (ite (h.spaceWrite.of_eq (by rfl)) (h.spaceWrite.of_eq (by rfl)))

theorem postCsw {c kind : Nat} {d : Byte} (h : Steady b s) : Steady b (s.postCsw c kind d) :=
  (h.of_eq (by rfl)).ringCsw.raise

theorem freeSubch {u : Nat} (h : Steady b s) : Steady b (s.freeSubch u) := by
  unfold State.freeSubch
  split <;> exact h.of_eq rfl

theorem freeSubchsOf {c : Nat} (h : Steady b s) : Steady b (s.freeSubchsOf c) :=
  (h.of_eq (by rfl)).each (fun _ _ ht => ht.freeSubch)

theorem endProgram {c : Nat} {r : CcwResult} {code : CcwCode} {d : Byte} (h : Steady b s) :
    Steady b (s.endProgram c r code d) := by
  unfold State.endProgram
  extract_lets x x1 s1 s2 s3 y
  have h1 : Steady b s1 := (h.of_eq (by rfl)).freeSubchsOf.postCsw
  have h2 : Steady b s2 := by
    unfold s2
    split
    · exact h1.finish
    · exact h1
  exact h2.finishAll.finishAll.of_eq rfl

theorem suspendNow {c : Nat} {k : SuspendKind} (h : Steady b s) : Steady b (s.suspendNow c k) :=
  (h.of_eq (by rfl)).postCsw.finishAll

theorem endCcw {c m : Nat} {r : CcwResult} {code : CcwCode} {d : Byte} (h : Steady b s) :
    Steady b (s.endCcw c r code d m) := by
  unfold State.endCcw
  dsimp only
  split
  · exact h
  · have freed {x : Channel} : Steady b ((s.setChan c x).freeSubchsOf c) := (h.of_eq (by rfl)).freeSubchsOf
    refine ite freed.endProgram (ite freed.endProgram ?_)
    split
    · exact (freed.of_eq (by rfl)).suspendNow
    · exact freed.of_eq rfl

theorem failCcw {c d : Nat} {r : CcwResult} {code : CcwCode} (h : Steady b s) : Steady b (s.failCcw c r code d) := h.endCcw

theorem setEvents {c : Nat} {m : Word} (h : Steady b s) : Steady b (s.setEvents c m) := by
  unfold State.setEvents
  dsimp only
  refine ite h ?_
  split
  · exact ite (h.of_eq (by rfl)) (h.of_eq (by rfl)).endCcw
  · exact h.of_eq rfl

theorem chanJobDone {c : Nat} {a : Bool} {st : Status} (h : Steady b s) : Steady b (s.chanJobDone c a st) := by
  unfold State.chanJobDone
  dsimp only
  refine ite h (ite (ite (h.of_eq (by rfl)).setEvents (h.of_eq (by rfl)).setEvents.postCsw) ?_)
  split
  · exact ite (h.of_eq (by rfl)) (ite h.endCcw h.failCcw)
  · exact h

theorem jobDone {o : JobOrigin} {st : Status} {r0 r1 : Nat} {d : Option Nat} (h : Steady b s) :
    Steady b (s.jobDone o st r0 r1 d) := by
  cases o with
  | slot n => exact h.finish
  | channel c a => exact h.chanJobDone
  | flip => exact h

theorem waiterEnd {w : Option Waiter} {st : Status} {r0 r1 : Nat} {d : Option Nat} (h : Steady b s) :
    Steady b (s.waiterEnd w st r0 r1 d) := by
  rcases w with _ | _ | _
  · exact h
  · exact h.finish
  · exact h.chanJobDone

/-! #### Buffers -/

theorem lowMark {o : State} {p : Nat} (h : Steady b s) : Steady b (s.lowMark o p) := ite h.raise h

theorem grant {k o : Nat} (h : Steady b s) : Steady b (s.grant k o) := (h.of_eq (by rfl)).lowMark

theorem requestFrom {o first fuel p : Nat} (h : Steady b s) : Steady b (s.requestFrom o first fuel p).2 := by
  induction fuel generalizing s p with
  | zero => exact h
  | succ fuel ih =>
    unfold State.requestFrom
    split
    · exact h
    · split
      · exact (ite h (h.of_eq (by rfl))).grant
      · exact ih (h.of_eq (by rfl))

theorem request {p o : Nat} (h : Steady b s) : Steady b (s.request p o).2 := by
  unfold State.request
  split
  next e => exact h.requestFrom.snd e
  next e => exact (h.requestFrom.snd e).raise

theorem takeBuf {k : Nat} (h : Steady b s) : Steady b (s.takeBuf k) := by
  unfold State.takeBuf
  split
  · exact h.fault.raise
  · exact ite h.fault.raise (h.of_eq (by rfl))

theorem dropBuf {k : Nat} (h : Steady b s) : Steady b (s.dropBuf k) := by
  unfold State.dropBuf
  split
  · exact h.fault.raise
  · exact ite h.fault.raise (ite (h.of_eq (by rfl)) (ite (h.of_eq (by rfl)) (h.of_eq (by rfl))))

theorem dropOpt {k : Option Nat} (h : Steady b s) : Steady b (s.dropOpt k) := by
  cases k with
  | none => exact h
  | some k => exact h.dropBuf

/-! #### The switch and the traffic unit -/

theorem setPort {p : Nat} {x : PortSt} (h : Steady b s) : Steady b (s.setPort p x) := ite h (h.of_eq (by rfl)).raise

theorem frameDone {f : Frame} (h : Steady b s) : Steady b (s.frameDone f) := by
  unfold State.frameDone
  dsimp only
  split
  · exact h.jobDone
  · exact h.jobDone
  · exact h

theorem putFrame {f : Frame} (h : Steady b s) : Steady b (s.putFrame f) :=
  ite (ite (h.of_eq (by rfl)).frameDone (h.of_eq (by rfl))) (h.of_eq (by rfl))

theorem dropCopies {f : Frame} {sel : Copy → Bool} {c : Nat} (h : Steady b s) : Steady b (s.dropCopies f sel c).1 :=
  h.each (fun _ _ ht => ht.of_eq rfl)

theorem endUnit {k : Nat} {m f : Bool} (h : Steady b s) : Steady b (s.endUnit k m f) := by
  unfold State.endUnit
  extract_lets r e idle ring slot tail s1 s2 s3 s4 s5 c
  have h4 : Steady b s4 := h.spaceWrite.spaceWrite.spaceWrite.of_eq rfl
  have h5 : Steady b s5 := ite h4.raise h4
  exact ite h (ite (h.of_eq (by rfl)) (ite (h.of_eq (by rfl)).fault.raise (ite h5.setEvents h5)))

theorem beginUnit {k head : Nat} {r : Rtp} {gap : Bool} (h : Steady b s) : Steady b (s.beginUnit k r gap head) :=
  ite (h.of_eq (by rfl)).raise (h.of_eq (by rfl))

theorem addPacket {k : Nat} {r : Rtp} {gap m : Bool} {d : DWord} (h : Steady b s) : Steady b (s.addPacket k r gap m d) :=
  ite (h.of_eq (by rfl)) (h.of_eq (by rfl))

theorem takePacket {k head : Nat} {body : List Byte} {d : DWord} {m f : Bool} (h : Steady b s) :
    Steady b (s.takePacket k body d m f head) := by
  unfold State.takePacket
  split
  · exact h
  next r _ =>
    extract_lets r0 s1 r1 gap s2 ring dev head s3 s4
    have h1 : Steady b s1 := ite h.endUnit h
    have h2 : Steady b s2 := ite (h1.of_eq (by rfl)) h1
    have h3 : Steady b s3 := ite h2 (ite h2.devRead h2).beginUnit
    exact ite h3.addPacket.endUnit h3.addPacket

theorem meterFrame {k n : Nat} {c : Colour} (h : Steady b s) : Steady b (s.meterFrame k c n).2 := by
  unfold State.meterFrame
  split
  extract_lets out s1 s2
  have h2 : Steady b s2 := ite (h.of_eq (by rfl)).raise (h.of_eq (by rfl))
  split
  · exact h2.of_eq rfl
  · exact h2

theorem flowMeter {k n : Nat} (h : Steady b s) : Steady b (s.flowMeter k n).2 := by
  unfold State.flowMeter
  split
  · exact h
  · split
    next e => exact h.meterFrame.snd e
    next e =>
      have first := h.meterFrame.snd e
      dsimp only
      split
      · exact first.meterFrame
      · exact first

theorem reclass {f : Frame} {tc : Nat} (h : Steady b s) : Steady b (s.reclass f tc).1 :=
  h.each (fun _ _ ht => ht.of_eq rfl)

theorem frameWhole {f : Frame} {bad : Bool} {x : TailFacts} (h : Steady b s) : Steady b (s.frameWhole f bad x) := by
  unfold State.frameWhole
  split
  · exact h.dropCopies.putFrame
  · extract_lets f0
    split
    next m s1 e =>
    have h1 : Steady b s1 := by
      split at e
      · exact h.flowMeter.snd e
      · exact snd h e
    split
    · exact (h1.each (fun _ _ hu => hu.of_eq (by rfl))).putFrame
    · split
      next s2 f2 e =>
      have h2 : Steady b s2 := by
        split at e
        · exact h1.reclass.fst e
        · exact fst h1 e
      split
      · exact h2.putFrame
      · refine ite ?_ h2.putFrame
        have freed {l : List Copy} : Steady b (forEach l s2 (fun k s => s.releaseCells k)) :=
          h2.each (fun _ _ hu => hu.of_eq rfl)
        exact (ite (freed.of_eq (by rfl)).raise (freed.of_eq (by rfl))).takePacket.putFrame

theorem cutReception {p : Nat} (h : Steady b s) : Steady b (s.cutReception p) := by
  unfold State.cutReception
  split
  · exact h
  · exact (h.of_eq (by rfl)).frameWhole

theorem dropPort {p : Nat} (h : Steady b s) : Steady b (s.dropPort p) := by
  refine h.each (fun i u hu => ?_)
  split
  · exact hu
  · exact ite hu.dropCopies.putFrame hu

theorem leaveUp {p : Nat} {x : PortSt} (h : Steady b s) : Steady b (s.leaveUp p x) := by
  unfold State.leaveUp
  extract_lets s2 s3 s1
  have h2 : Steady b s2 := h.setPort.cutReception.dropPort
  have h3 : Steady b s3 := ite (h2.of_eq (by rfl)) h2
  have h1 : Steady b s1 := ite (ite h3.fault h3.fault) h.setPort
  split <;> exact h1.of_eq rfl

theorem portStart {p : Nat} (h : Steady b s) : Steady b (s.portStart p) := by
  unfold State.portStart
  dsimp only
  split
  · exact ite h (ite h.leaveUp h.leaveUp)
  · exact ite h.leaveUp h
  · exact ite h.leaveUp (ite h.leaveUp h)

theorem portReconfigured {p old : Nat} (h : Steady b s) : Steady b (s.portReconfigured p old) :=
  ite (ite h.leaveUp h).portStart.portStart h

theorem cellsCheck (h : Steady b s) : Steady b s.cellsCheck := ite (h.of_eq (by rfl)).raise (h.of_eq (by rfl))

theorem slotsCheck (h : Steady b s) : Steady b s.slotsCheck := ite (h.of_eq (by rfl)).raise (h.of_eq (by rfl))

theorem putMac {l : List Byte} (h : Steady b s) : Steady b (s.putMac l).1 := by
  unfold State.putMac
  dsimp only
  split
  · exact h.of_eq rfl
  · split
    · exact h
    · split
      · exact h.of_eq rfl
      · exact h

theorem putSwc {k i : Nat} {l : List Byte} (h : Steady b s) : Steady b (s.putSwc k i l).1 := by
  unfold State.putSwc
  split
  case h_4 => exact h.putMac
  all_goals exact h.of_eq rfl

theorem putTrf {k i : Nat} {l : List Byte} (h : Steady b s) : Steady b (s.putTrf k i l) := by
  unfold State.putTrf
  split
  case h_1 | h_2 | h_5 => exact ite (h.of_eq (by rfl)) h
  all_goals exact h.of_eq rfl

theorem armGates {p : Nat} {l : GateList} (h : Steady b s) : Steady b (s.armGates p l) :=
  ite (h.of_eq (by rfl)) (h.of_eq (by rfl)).raise

/-! #### The compositor -/

theorem updOut {o : Nat} {f : Output → Output} (h : Steady b s) : Steady b (s.updOut o f) := by
  unfold State.updOut
  split
  · exact h.of_eq rfl
  · exact h

theorem updEntry {i n : Nat} {f : PicEntry → PicEntry} (h : Steady b s) : Steady b (s.updEntry i n f) := by
  unfold State.updEntry
  split
  · exact h
  · exact ite (h.of_eq (by rfl)).dropOpt (h.of_eq (by rfl))

theorem holdEntry {i n : Nat} (h : Steady b s) : Steady b (s.holdEntry i n) := by
  unfold State.holdEntry
  split
  · exact h
  · split
    · exact h
    · exact h.takeBuf.updEntry

theorem dropContent {p : Plane} (h : Steady b s) : Steady b (s.dropContent p) := by
  unfold State.dropContent
  dsimp only
  split
  · exact (h.of_eq (by rfl)).dropOpt
  · exact h.dropOpt

theorem applyUpdate {o : Nat} {u : PlaneUpdate} (h : Steady b s) : Steady b (s.applyUpdate o u) := by
  unfold State.applyUpdate
  split
  · exact h
  · exact h.of_eq rfl

theorem takePictures {o : Nat} {l : List (Nat × HeldPicture)} (h : Steady b s) : Steady b (s.takePictures o l) := by
  refine h.each (fun x u hu => ?_)
  split
  · exact hu
  · exact ite hu hu.holdEntry.updOut

theorem endUpdate {o : Nat} {u : PlaneUpdate} {st : Status} {k : Option Target} (h : Steady b s) :
    Steady b (s.endUpdate o u st k) := by
  unfold State.endUpdate
  extract_lets r now up freed s1 s2
  have h2 : Steady b s2 := by
    unfold s2
    split
    · exact h.updOut.dropContent
    · exact h.updOut
  exact h2.jobDone

theorem endSuperseded {o id : Nat} (h : Steady b s) : Steady b (s.endSuperseded o id) := by
  unfold State.endSuperseded
  split
  · exact h
  · exact h.each (fun _ _ hu => ite (ite hu hu.dropContent).endUpdate hu)

theorem endReplaced {o : Nat} {l : List PlaneUpdate} (h : Steady b s) : Steady b (s.endReplaced o l) :=
  h.each (fun _ _ hu => ite hu.endSuperseded hu.endSuperseded.endUpdate)

theorem beginFrame {o : Nat} {k : Int} (h : Steady b s) : Steady b (s.beginFrame o k) := by
  unfold State.beginFrame
  split
  · exact h
  · refine ite h (ite h ?_)
    split
    next e => exact h.request.snd e
    next e =>
      have taken {l : List PlaneUpdate} : Steady b (forEach l _ (fun u s => s.applyUpdate o u)) :=
        (h.request.snd e).each (fun _ _ hu => hu.applyUpdate)
      dsimp only
      split
      · exact taken
      · exact (taken.of_eq (by rfl)).takePictures.endReplaced

theorem setDues {l : List Nat} {d : Nat} (h : Steady b s) : Steady b (s.setDues l d) := by
  induction l generalizing s d with
  | nil => exact h
  | cons o l ih =>
    unfold State.setDues
    split
    · exact ih h
    · split
      · exact ih h
      · exact ih (h.of_eq (by rfl))

theorem beginGroup {g : Fin 4} (h : Steady b s) : Steady b (s.beginGroup g) := by
  unfold State.beginGroup
  extract_lets k before free s1 begun glyph
  have h1 : Steady b s1 := h.each (fun _ _ hu => hu.beginFrame)
  exact ite h1 (h1.setDues.of_eq (by rfl))

theorem settleGroup (h : Steady b s) : Steady b s.settleGroup := by
  unfold State.settleGroup
  refine ite h ?_
  split
  · exact h.of_eq rfl
  · exact (h.of_eq (by rfl)).beginGroup

theorem stopFrame {o : Nat} (h : Steady b s) : Steady b (s.stopFrame o) := by
  unfold State.stopFrame
  split
  · exact h
  · split
    · exact h
    · exact (h.of_eq (by rfl)).dropBuf

theorem outOff {o : Nat} (h : Steady b s) : Steady b (s.outOff o) :=
  (h.stopFrame.updOut.each (fun _ _ hu => hu.dropBuf)).settleGroup

theorem keyNextOf {o : Nat} (h : Steady b s) : Steady b (s.keyNextOf o) := h.each (fun _ _ hu => hu.of_eq rfl)

theorem settleNight (h : Steady b s) : Steady b s.settleNight := by
  refine h.each (fun e u hu => ?_)
  dsimp only
  split
  · exact ite hu.outOff hu
  · exact ite hu hu.updOut.keyNextOf
  · exact hu

/-! #### A change takes effect (R25) -/

theorem overEntry {e : EntryKey × List Byte} (h : Steady b s) : Steady b (s.overEntry e) := ite h.putSwc h.putTrf

theorem applyEntries {l : List (EntryKey × List Byte)} (h : Steady b s) : Steady b (s.applyEntries l) :=
  (h.fold (fun _ _ hu => hu.overEntry)).each (fun _ _ hu => hu.armGates)

theorem applyGroups {o : State} (h : Steady b s) : Steady b (s.applyGroups o) :=
  h.each (fun _ _ hu => ite (hu.of_eq (by rfl)) hu)

theorem applyPools {o : State} (h : Steady b s) : Steady b (s.applyPools o) :=
  h.each (fun _ _ hu => ite (hu.of_eq (by rfl)) hu)

theorem applyOutputs {o : State} (h : Steady b s) : Steady b (s.applyOutputs o) :=
  (h.each (fun _ _ hu => ite hu.updOut hu)).settleNight

theorem applyEffects {o : State} (h : Steady b s) : Steady b (s.applyEffects o) := by
  unfold State.applyEffects
  extract_lets s1 s2 s3 trf s4
  have h2 : Steady b s2 := h.applyGroups.applyPools.each (fun _ _ hu => ite hu.portReconfigured hu)
  have h3 : Steady b s3 := h2.applyOutputs
  clear_value s3
  have h4 : Steady b s4 := ite (h3.of_eq (by rfl)) h3
  exact h4.cellsCheck.slotsCheck

theorem advanceToDts {d : Int} (h : Steady b s) : Steady b (s.advanceToDts d) :=
  ite (ite (h.of_eq (by rfl)) (h.of_eq (by rfl))) h

end Steady

/-! ### Sources -/

theorem State.collectorRuns_congr {s t : State} (h : t.pwr = s.pwr) : t.collectorRuns = s.collectorRuns := by
  unfold State.collectorRuns
  rw [h]

/-- Where the units work the collectors run (R431). -/
theorem State.collectorRuns_of_live {s : State} (h : s.live = true) : s.collectorRuns = true := by
  unfold State.live at h
  unfold State.collectorRuns
  split
  case h_4 => rfl
  all_goals
    next mode => simp [mode, Mode.dark] at h

theorem State.raise_pends {s : State} {n : Nat} (h : s.collectorRuns = true) (hn : n < 1024) :
    (s.raise n).icu.pend.getLsbD n = true := by
  unfold State.raise
  rw [if_pos h]
  refine (Steady.refl _).hostCheck.pends ?_
  simp [BitVec.getLsbD_or, BitVec.getLsbD_ofNat, hn, -BitVec.getLsbD_eq_getElem]

/-! ### The end of a check and the end of a session -/

theorem State.stageTo_steady (s : State) (st : StageSt) : Steady { s with stage.st := st } (s.stageTo st) :=
  (Steady.refl _).raise

@[simp] theorem State.stageTo_stage (s : State) (st : StageSt) : (s.stageTo st).stage = { s.stage with st := st } :=
  (s.stageTo_steady st).stage

@[simp] theorem State.stageTo_regs (s : State) (st : StageSt) : (s.stageTo st).regs = s.regs := (s.stageTo_steady st).regs

theorem State.stageTo_pends {s : State} {st : StageSt} (h : s.collectorRuns = true) :
    (s.stageTo st).icu.pend.getLsbD 287 = true :=
  State.raise_pends h (by decide)

/-- A session that ends leaves no staged value, no holder and no waiting command (R19). -/
theorem State.stageEnd_stage (s : State) (target : StageSt) (code : StageCode) (st : Status) (r0 r1 : Nat) :
    (s.stageEnd target code st r0 r1).stage = { s.stage with
      st := target, code := code, holder := none, armed := none, regs := [], entries := [], checkWaiter := none
      applyWaiter := none } :=
  (State.stageTo_steady _ target).waiterEnd.waiterEnd.stage

theorem State.stageEnd_regs (s : State) (target : StageSt) (code : StageCode) (st : Status) (r0 r1 : Nat) :
    (s.stageEnd target code st r0 r1).regs = s.regs :=
  (State.stageTo_steady _ target).waiterEnd.waiterEnd.regs

/-- The end of a session raises source 287 (R30). -/
theorem State.stageEnd_pends {s : State} {target : StageSt} {code : StageCode} {st : Status} {r0 r1 : Nat}
    (h : s.collectorRuns = true) : (s.stageEnd target code st r0 r1).icu.pend.getLsbD 287 = true :=
  (Steady.refl _).waiterEnd.waiterEnd.pends (State.stageTo_pends h)

/-- The settings that a change puts in force leave the power state alone. -/
theorem State.stageApply_ends (s : State) : ∃ u : State, u.pwr = s.pwr ∧
    s.stageApply = u.stageEnd .applied .pass .ok (bits s.time.dts.toNat 31 0) (bits s.time.dts.toNat 63 32) := by
  unfold State.stageApply
  extract_lets l waits stage s0 s1 s2
  have settled : Steady s0.overRegs s2 := (Steady.refl _).applyEntries.applyEffects
  exact ⟨s2, settled.pwr, rfl⟩

theorem State.checkEnd_passes {s : State} (hc : s.stage.st = .checking) (hf : s.stageFail = none) :
    Steady { s with stage := { s.stage with
      st := .checked, code := .pass, failAddr := 0, failItem := 0, checkWaiter := none } } s.checkEnd := by
  unfold State.checkEnd
  simp only [hc, hf, ne_eq, not_true_eq_false, if_false]
  exact (Steady.refl _).waiterEnd

theorem State.checkEnd_fails {s : State} {f : Failing} (hc : s.stage.st = .checking) (hf : s.stageFail = some f) :
    Steady (({ s with stage := { s.stage with
      code := f.code, failAddr := BitVec.ofNat 23 f.addr, failItem := BitVec.ofNat 16 f.item
      checkWaiter := none } } : State).stageTo .failed) s.checkEnd := by
  unfold State.checkEnd
  simp only [hc, hf, ne_eq, not_true_eq_false, if_false]
  exact (Steady.refl _).waiterEnd


/-! ### A register that was written -/

theorem State.regOr_setReg_same {s : State} {d off : Nat} {v : Word} : (s.setReg off v).regOr d off = v.toNat := by
  simp [State.regOr, Table.get_set_same]

theorem State.regOr_setReg_ne {s : State} {d off k : Nat} {v : Word} (h : k ≠ off) :
    (s.setReg off v).regOr d k = s.regOr d k := by
  simp [State.regOr, Table.get_set_ne h]

/-! ### Arming (R22 to R24) -/

theorem State.setAt_onlyIn (s : State) (t : Int) : OnlyIn [.regs] s (s.setAt t) :=
  (setReg_onlyIn s _ _).trans (setReg_onlyIn _ _ _)

theorem State.arm_onlyIn (s : State) (a : Armed) (t : Int) (w : Option Waiter) : OnlyIn [.stage, .regs] s (s.arm a t w) :=
  ((s.setAt_onlyIn t).mono (by simp)).trans
    ⟨rfl, fun p hp => by cases p <;> first | exact rfl | exact ⟨rfl, rfl⟩ | exact (hp (by simp)).elim⟩

/-- SYS_STAGE_AT_LO holds the low half of the instant (R23). -/
theorem State.arm_atLo (s : State) (a : Armed) (t : Int) (w : Option Waiter) :
    (s.arm a t w).regOr 0 0x1010 = (t % (2 ^ 64 : Nat)).toNat % 2 ^ 32 := by
  change (s.setAt t).regOr 0 0x1010 = _
  unfold State.setAt
  rw [State.regOr_setReg_ne (by decide), State.regOr_setReg_same, BitVec.toNat_ofNat]

/-- SYS_STAGE_AT_HI holds its high half (R23). -/
theorem State.arm_atHi (s : State) (a : Armed) (t : Int) (w : Option Waiter) :
    (s.arm a t w).regOr 0 0x1014 = (t % (2 ^ 64 : Nat)).toNat / 2 ^ 32 := by
  change (s.setAt t).regOr 0 0x1014 = _
  unfold State.setAt
  rw [State.regOr_setReg_same, BitVec.toNat_ofNat, Nat.mod_eq_of_lt (by omega)]

/-- The two words are the instant as a 64-bit device time. -/
theorem State.arm_at (s : State) (a : Armed) (t : Int) (w : Option Waiter) :
    ((s.arm a t w).regOr 0 0x1010 + 2 ^ 32 * (s.arm a t w).regOr 0 0x1014 : Nat) = t % 2 ^ 64 := by
  rw [State.arm_atLo, State.arm_atHi]
  omega

section
variable {s : State} {g : Fin 4} {d : DWord} {w : Option Waiter}

theorem State.applyOrder_notChecked {b : Bool} (h : s.stage.st ≠ .checked) :
    s.applyOrder b g d w = (.notChecked, s.stageCode .notChecked) :=
  if_pos h

theorem State.applyOrder_late (h : s.stage.st = .checked) (hd : s.untilDts d < 160000) :
    s.applyOrder true g d w = (.late, s.stageCode .late) := by
  have gap : s.untilDts d < armGap := hd
  simp [State.applyOrder, h, gap]

theorem State.applyOrder_atDts (h : s.stage.st = .checked) (hd : 160000 ≤ s.untilDts d) :
    s.applyOrder true g d w = (.armed, s.arm (.dts d) (d.toNat : Nat) w) := by
  have gap : ¬ s.untilDts d < armGap := Int.not_lt.mpr hd
  simp [State.applyOrder, h, gap]

theorem State.applyOrder_noTick (h : s.stage.st = .checked) (hg : s.groupEn g.val = false) :
    s.applyOrder false g d w = (.noTick, s.stageCode .range) := by
  simp [State.applyOrder, h, hg]

/-- In tick mode the change is armed for the next tick that is at least 10 µs away (R24). -/
theorem State.applyOrder_atTick (h : s.stage.st = .checked) (hg : s.groupEn g.val = true) :
    ∃ k, s.applyOrder false g d w = (.armed, s.arm (.tick g k) (s.tickTime g.val k) w) ∧
      (160000 ≤ s.tickTime g.val (s.nextTick g) - s.fullTime → k = s.nextTick g) ∧
      (s.tickTime g.val (s.nextTick g) - s.fullTime < 160000 → k = s.nextTick g + 1) := by
  have gap : armGap = 160000 := rfl
  refine ⟨if s.tickTime g.val (s.nextTick g) - s.fullTime < armGap then s.nextTick g + 1 else s.nextTick g, ?_, ?_, ?_⟩
  · simp [State.applyOrder, h, hg]
  · intro far
    rw [if_neg (by omega)]
  · intro near
    rw [if_pos (by omega)]

end

/-! ### The registers of the stage block (R22, R33, R490) -/

section
variable {s : State} {m : Master} {v : Word}

theorem State.sysCheck_begins (hr : s.stageReach m = true) (hv : v.getLsbD 0 = true) (hh : s.holds m .reg = true)
    (hst : s.stage.st ∈ [StageSt.opened, .checked, .failed]) : s.sysCheck m v = s.checkBegin none := by
  unfold State.sysCheck
  rw [hr, hv, hh]
  simp only [List.mem_cons, List.not_mem_nil, or_false] at hst
  rcases hst with hst | hst | hst <;> rw [hst] <;> rfl

theorem State.sysCheck_ignored (h : s.stage.st ∈ [StageSt.checking, .armed] ∨ s.holds m .reg = false) :
    s.sysCheck m v = s := by
  unfold State.sysCheck
  split
  next held =>
    simp only [Bool.and_eq_true] at held
    simp only [held.2, List.mem_cons, List.not_mem_nil, or_false, Bool.true_eq_false] at h
    rcases h with h | h <;> rw [h]
  next => rfl

/-- The order that a write of SYS_STAGE_APPLY gives. -/
theorem State.sysApply_order (hr : s.stageReach m = true) (hv : v.getLsbD 0 = true)
    (h : s.holds m .reg = true ∨ s.stage.st ≠ .checked) :
    s.sysApply m v = (s.applyOrder (v.getLsbD 1) (Fin.ofNat 4 (bits v.toNat 3 2))
      (BitVec.ofNat 64 (s.regOr 0 0x1010 + 2 ^ 32 * s.regOr 0 0x1014)) none).2 := by
  unfold State.sysApply
  rw [if_pos (by rw [hr, hv]; rfl), if_pos (by simpa using h)]

theorem State.sysApply_ignored (hs : s.stage.st = .checked) (hh : s.holds m .reg = false) : s.sysApply m v = s := by
  simp [State.sysApply, hs, hh]

theorem State.sysCancel_holder (hr : s.stageReach m = true) (hv : v.getLsbD 0 = true) (hh : s.holds m .reg = true) :
    s.sysCancel m v = s.stageCancel := by
  simp [State.sysCancel, hr, hv, hh]

end

theorem State.stageAtDts_armed {s : State} {d : DWord} (h : s.stage.armed = some (.dts d)) :
    s.stageAtDts = (s.advanceToDts (s.fullTime + s.untilDts d)).stageApply := by
  unfold State.stageAtDts
  rw [h]

/-! ### The session's states -/

/-- Settles O7. The clauses on the registers are the cases of `sysCheck`, `applyOrder` and `sysCancel`. Those on the end of a
check and of a session follow since whoever waits learns of it without a change to the session or to a pending source
(`Steady`), and since a change in force leaves the mode, so that source 287 is still collected. -/
theorem checkApplyAndCancelDriveTheSession : Obligations.CheckApplyAndCancelDriveTheSession := by
  unfold Obligations.CheckApplyAndCancelDriveTheSession
  refine ⟨⟨fun m v s hr hv => ⟨fun hh hst => ?check, fun hi => ?checkIgnored⟩, fun s hl hc => ?checkEnd⟩,
    fun m v s hr hv => ?apply, fun m v s hr hv hh => ?cancel, fun d s hl ha => ?atDts⟩
  case check => exact congrArg _ (State.sysCheck_begins hr hv hh hst)
  case checkIgnored => exact congrArg _ (State.sysCheck_ignored hi)
  case checkEnd =>
    have row : exec .stageCheckEnd s = .next s.checkEnd := congrArg _ (if_pos hl)
    refine ⟨_, row, ?_⟩
    cases hf : s.stageFail with
    | none =>
      have passed := State.checkEnd_passes hc hf
      simp [passed.stage, passed.regs]
    | some f =>
      have failed := State.checkEnd_fails hc hf
      have source : s.checkEnd.icu.pend.getLsbD 287 = true :=
        failed.pends (State.stageTo_pends (State.collectorRuns_of_live hl))
      simp [failed.stage, failed.regs, source]
  case apply =>
    intro g at_ code
    have row {u : State} (e : s.sysApply m v = u) : exec (.sysStageApply m v) s = .next u := congrArg _ e
    have order (h : s.holds m .reg = true ∨ s.stage.st ≠ .checked) :
        s.sysApply m v = (s.applyOrder (v.getLsbD 1) g at_ none).2 := State.sysApply_order hr hv h
    refine ⟨fun hs => row ?notChecked, fun hs hh => row (State.sysApply_ignored hs hh), fun hh hs hb near => row ?late,
      fun hh hs hb hg => row ?noTick, fun hh hs hb far => ?armedDts, fun hh hs hb hg => ?armedTick⟩
    case notChecked => rw [order (.inr hs), State.applyOrder_notChecked hs]; rfl
    case late => rw [order (.inl hh), hb, State.applyOrder_late hs near]; rfl
    case noTick => rw [order (.inl hh), hb, State.applyOrder_noTick hs hg]; rfl
    case armedDts =>
      have armed : s.sysApply m v = s.arm (.dts at_) (at_.toNat : Nat) none := by
        rw [order (.inl hh), hb, State.applyOrder_atDts hs far]
      have whole : ((at_.toNat : Int) % (2 ^ 64 : Nat)).toNat = at_.toNat := by
        have := at_.isLt
        omega
      refine ⟨_, row armed, rfl, ?_, ?_, s.arm_onlyIn _ _ _⟩
      · rw [State.arm_atLo, whole]
      · rw [State.arm_atHi, whole]
    case armedTick =>
      obtain ⟨k, hk, far, near⟩ := State.applyOrder_atTick (d := at_) (w := none) hs hg
      have armed : s.sysApply m v = s.arm (.tick g k) (s.tickTime g.val k) none := by
        rw [order (.inl hh), hb, hk]
      exact ⟨_, k, row armed, rfl, far, near, s.arm_at _ _ _, s.arm_onlyIn _ _ _⟩
  case cancel =>
    have row : exec (.sysStageCancel m v) s = .next s.stageCancel := congrArg _ (State.sysCancel_holder hr hv hh)
    refine ⟨_, row, ?_⟩
    unfold State.stageCancel
    simp only [State.stageEnd_stage, State.stageEnd_regs, true_and]
    exact State.stageEnd_pends
  case atDts =>
    have row : exec .stagedChangeApplyAtDts s = .next s.stageAtDts := congrArg _ (if_pos hl)
    refine ⟨_, row, ?_⟩
    rw [State.stageAtDts_armed ha]
    obtain ⟨u, hu, e⟩ := State.stageApply_ends (s.advanceToDts (s.fullTime + s.untilDts d))
    have kept : u.pwr = s.pwr := hu.trans (Steady.refl s).advanceToDts.pwr
    have collects : u.collectorRuns = true := (State.collectorRuns_congr kept).trans (State.collectorRuns_of_live hl)
    rw [e]
    simp only [State.stageEnd_stage, true_and]
    exact State.stageEnd_pends collects

end Sys2Proof.Machine

namespace Sys2Proof.Machine

/-! ### A read of device time (R37) -/

/-- The row of TIME_DTS_HI in Table 02-8. -/
def timeDtsHiAt : RegAt := ⟨⟨.timeDtsHi, 0x10004, [], false, [⟨0, 32, .ro, 0⟩]⟩, 0, 0⟩

theorem regFind_timeDtsHi : regFind 0x10004 = some timeDtsHiAt := by decide

/-- TIME_DTS_HI has no field to write, so it reads as the shadow alone. -/
theorem State.regWord_timeDtsHi (s : State) : s.regWord timeDtsHiAt = s.time.hiShadow.toNat := by
  have readOnly : timeDtsHiAt.rwMask = 0 := by decide
  have field : s.regField timeDtsHiAt = s.time.hiShadow.toNat := rfl
  rw [State.regWord, readOnly, Nat.and_zero, Nat.zero_or, field]

theorem State.peekReg_timeDtsHi (s : State) : s.peekReg 0x10004 = s.time.hiShadow.toNat := by
  have live : bit 0x10004 15 = false := by decide
  have notCounter : swcCntHigh 0x10004 = false := by decide
  simp only [State.peekReg, live, notCounter, Bool.false_eq_true, if_false, regFind_timeDtsHi, State.regWord_timeDtsHi]

/-- The Lantern core reads the shadow at TIME_DTS_HI. -/
theorem State.busRead_timeDtsHi {s : State} (h : s.powered = true) :
    (s.busRead .lantern 0x10004 false).1 = s.time.hiShadow := by
  have reached : (!s.access .lantern 0x10004 || decide (0x800000 ≤ 0x10004) ||
      (decide (0x200000 ≤ 0x10004) && decide (0x10004 < 0x400000))) = false := by simp [State.access, h]
  have live : bit 0x10004 15 = false := by decide
  have notClaim : timeDtsHiAt.spec.id ≠ .icuClaim := by decide
  simp only [State.busRead, reached, live, notClaim, Bool.false_eq_true, if_false, regFind_timeDtsHi,
    State.peekReg_timeDtsHi, BitVec.ofNat_toNat, BitVec.setWidth_eq]

theorem ofNat_bits_high (d : DWord) : BitVec.ofNat 32 (bits d.toNat 63 32) = (d >>> 32).setWidth 32 := by
  apply BitVec.eq_of_toNat_eq
  simp [bits, Nat.shiftRight_eq_div_pow]

theorem bits_low (n : Nat) : bits n 31 0 = n % 2 ^ 32 := by
  simp [bits]

/-- The high half of DTS fits the shadow. -/
theorem toNat_high (d : DWord) : ((d >>> 32).setWidth 32 : Word).toNat = d.toNat / 2 ^ 32 := by
  have fits : d.toNat / 2 ^ 32 < 2 ^ 32 := Nat.div_lt_of_lt_mul d.isLt
  rw [BitVec.toNat_setWidth, BitVec.toNat_ushiftRight, Nat.shiftRight_eq_div_pow, Nat.mod_eq_of_lt fits]

/-- The state after a read of TIME_DTS_LO that reaches the register (R37). -/
def State.dtsLatched (s : State) : State :=
  { s.setRd (s.time.dts.toNat % 2 ^ 32) with
    time := { s.time with hiShadow := (s.time.dts >>> 32).setWidth 32 } }

theorem exec_timeDtsLoRead {s : State} (h : s.bar0 0x10000 = true) : exec .timeDtsLoRead s = .next s.dtsLatched := by
  have row : exec .timeDtsLoRead s = execTimeDtsLoRead s := rfl
  rw [row, execTimeDtsLoRead, if_pos h, bits_low, ofNat_bits_high]
  rfl

theorem State.dtsLatched_rd (s : State) : s.dtsLatched.rd.toNat = s.time.dts.toNat % 2 ^ 32 := by
  change (BitVec.ofNat 64 (s.time.dts.toNat % 2 ^ 32)).toNat = _
  rw [BitVec.toNat_ofNat]
  omega

theorem State.dtsLatched_onlyIn (s : State) : OnlyIn [.time, .rd] s s.dtsLatched := by
  refine ((setRd_onlyIn s (s.time.dts.toNat % 2 ^ 32)).mono (by simp)).trans ⟨rfl, fun p hp => ?_⟩
  cases p with
  | time => exact absurd List.mem_cons_self hp
  | dma | ecc => exact ⟨rfl, rfl⟩
  | _ => rfl

/-- Settles O9. The read leaves `dtsLatched`; it does not touch the power state, so the Lantern core still reaches the registers
and finds the high half in the shadow. -/
theorem dtsReadReturnsLowAndLatchesHigh : Obligations.DtsReadReturnsLowAndLatchesHigh := by
  unfold Obligations.DtsReadReturnsLowAndLatchesHigh
  intro s h
  have powered : s.dtsLatched.powered = true := ((Bool.and_eq_true _ _).mp h).1
  have high : (s.dtsLatched.busRead .lantern 0x10004 false).1.toNat = s.time.dts.toNat / 2 ^ 32 := by
    rw [State.busRead_timeDtsHi powered]
    exact toNat_high s.time.dts
  exact ⟨s.dtsLatched, exec_timeDtsLoRead h, s.dtsLatched_rd, rfl, high, s.dtsLatched_onlyIn⟩

end Sys2Proof.Machine

namespace Sys2Proof.Machine

/-! ### An instruction that begins with an access -/

section
variable {α : Type} {s t u : State} {c : Fin 13} {kernel : Bool} {x : State → WickCore → Except (WExc × State) α}
  {g : State → WickCore → α → WResult}

/-- What follows the access decides how the instruction ends. -/
theorem State.wRun_bind_ok {a : α} {d : WDone} (h : Executes s c kernel t) (hx : x t (t.wc c) = .ok a)
    (hg : g t (t.wc c) a = .ok d) : s.wRun c kernel (fun t k => x t k >>= g t k) = ended s c d :=
  State.wRun_ok h (by rw [hx]; exact hg)

/-- An access that fails is the exception of the instruction. -/
theorem State.wRun_bind_error {e : WExc} (h : Executes s c kernel t) (hx : x t (t.wc c) = .error (e, u)) :
    s.wRun c kernel (fun t k => x t k >>= g t k) = raised s u c e :=
  State.wRun_error h (by rw [hx]; rfl)

end

/-! ### Branches and jumps (Table 10-7) -/

section
variable {s t : State} {c : Fin 13}

/-- A branch goes to its target exactly where its condition `p` holds. -/
theorem State.wBranch_ended {off : BitVec 16} {taken : WickCore → Bool} {p : Prop} [Decidable p]
    (h : Executes s c false t) (hp : taken (t.wc c) = true ↔ p) : s.wBranch c off taken =
      ended s c ⟨t, if p then some (branchTarget (t.wc c).pc off) else none, none⟩ := by
  rw [State.wBranch, State.wRun_ok h rfl]
  simp only [hp]

end

/-! ### The call stack (R300) -/

section
variable {t t1 : State} {c : Fin 13} {k : WickCore}

theorem State.wPushReturn_ok (aligned : k.csp.toNat % 4 = 0) (above : 4 ≤ k.csp.toNat)
    (inside : k.csp.toNat ≤ (k.seg 7).limit.toNat) (r : (k.seg 7).r = true) (w : (k.seg 7).w = true)
    (written : t.wWrite c (!k.u) ((k.seg 7).base.toNat + (k.csp - 4).toNat) (leBytes 4 (k.pc + 4).toNat) (k.seg 7).c =
      .ok t1) : t.wPushReturn c k = .ok (t1.setWc c ((t1.wc c).setCsp (k.csp - 4))) := by
  have fits : ¬ (k.csp.toNat < 4 ∨ (k.seg 7).limit.toNat < k.csp.toNat ∨ (!(k.seg 7).r) = true ∨ (!(k.seg 7).w) = true) := by
    simp [r, w, above, inside]
  simp only [State.wPushReturn, aligned, ne_eq, not_true_eq_false, if_false, if_neg fits, written]

theorem State.wPushReturn_stackFault (aligned : k.csp.toNat % 4 = 0) (bad : k.csp.toNat < 4 ∨
    (k.seg 7).limit.toNat < k.csp.toNat ∨ (k.seg 7).r = false ∨ (k.seg 7).w = false) :
    t.wPushReturn c k = .error (⟨1, 7, true, 0, k.csp - 4⟩, t) := by
  simp only [← Bool.not_eq_true'] at bad
  simp only [State.wPushReturn, aligned, ne_eq, not_true_eq_false, if_false, if_pos bad]

theorem State.wPopReturn_ok {bs : List Byte} (aligned : k.csp.toNat % 4 = 0)
    (inside : k.csp.toNat + 4 ≤ (k.seg 7).limit.toNat) (r : (k.seg 7).r = true) (w : (k.seg 7).w = true)
    (read : t.wRead c (!k.u) ((k.seg 7).base.toNat + k.csp.toNat) 4 (k.seg 7).c = .ok (bs, t1)) :
    t.wPopReturn c k = .ok (BitVec.ofNat 32 (leNat bs), t1.setWc c ((t1.wc c).setCsp (k.csp + 4))) := by
  have fits : ¬ ((k.seg 7).limit.toNat < k.csp.toNat + 4 ∨ (!(k.seg 7).r) = true ∨ (!(k.seg 7).w) = true) := by
    simp [r, w, inside]
  simp only [State.wPopReturn, aligned, ne_eq, not_true_eq_false, if_false, if_neg fits, read]

theorem State.wPopReturn_stackFault (aligned : k.csp.toNat % 4 = 0) (bad : (k.seg 7).limit.toNat < k.csp.toNat + 4 ∨
    (k.seg 7).r = false ∨ (k.seg 7).w = false) : t.wPopReturn c k = .error (⟨1, 7, false, 0, k.csp⟩, t) := by
  simp only [← Bool.not_eq_true'] at bad
  simp only [State.wPopReturn, aligned, ne_eq, not_true_eq_false, if_false, if_pos bad]

end

/-- CALL and CALLR: the return address is pushed, and the core goes on at the target. -/
def State.wCallTo (s : State) (c : Fin 13) (target : WickCore → Word) : State :=
  s.wRun c false (fun t k => t.wPushReturn c k >>= fun t1 => pure ⟨t1, some (target k), none⟩)

theorem exec_call (c : Fin 13) (off : BitVec 26) (s : State) :
    exec (.call c off) s = .next (s.wCallTo c fun k => jumpTarget k.pc off) := rfl

theorem exec_callr (c : Fin 13) (rs : Fin 32) (s : State) :
    exec (.callr c rs) s = .next (s.wCallTo c fun k => k.reg rs) := rfl

section
variable {s t t1 : State} {c : Fin 13}

theorem State.wCallTo_ended {f : WickCore → Word} (h : Executes s c false t) (hp : t.wPushReturn c (t.wc c) = .ok t1) :
    s.wCallTo c f = ended s c ⟨t1, some (f (t.wc c)), none⟩ :=
  State.wRun_bind_ok h hp rfl

theorem State.wCallTo_raised {f : WickCore → Word} {e : WExc} (h : Executes s c false t)
    (hp : t.wPushReturn c (t.wc c) = .error (e, t1)) : s.wCallTo c f = raised s t1 c e :=
  State.wRun_bind_error h hp

theorem exec_ret_ended {v : Word} (h : Executes s c false t) (hp : t.wPopReturn c (t.wc c) = .ok (v, t1)) :
    exec (.ret c) s = .next (ended s c ⟨t1, some v, none⟩) :=
  congrArg Host.Outcome.next (State.wRun_bind_ok h hp rfl)

theorem exec_ret_raised {e : WExc} (h : Executes s c false t) (hp : t.wPopReturn c (t.wc c) = .error (e, t1)) :
    exec (.ret c) s = .next (raised s t1 c e) :=
  congrArg Host.Outcome.next (State.wRun_bind_error h hp)

/-! ### Loops (R307) -/

theorem WickCore.setLoop_zero (k : WickCore) (off : BitVec 16) :
    k.setLoop 0 off = .ok (k, some (k.pc + 4 + 4 * off.zeroExtend 32 + 4)) := rfl

theorem WickCore.setLoop_level {k : WickCore} {n : Word} {off : BitVec 16} {l : Fin 4} (hn : n ≠ 0) (hl : k.ld = l.val) :
    k.setLoop n off = .ok ({ k with
      ls := k.ls.set l (k.pc + 4), le := k.le.set l (k.pc + 4 + 4 * off.zeroExtend 32), lc := k.lc.set l n
      ld := l.val + 1 }, none) := by
  simp only [WickCore.setLoop, if_neg hn, hl, dif_pos l.isLt]

theorem WickCore.setLoop_full {k : WickCore} {n : Word} {off : BitVec 16} (hn : n ≠ 0) (hl : k.ld = 4) :
    k.setLoop n off = .error 7 := by
  have full : ¬ k.ld < 4 := by omega
  simp only [WickCore.setLoop, if_neg hn, dif_neg full]

theorem State.wLoop_ended {n : WickCore → Word} {off : BitVec 16} {k1 : WickCore} {jump : Option Word}
    (h : Executes s c false t) (hl : (t.wc c).setLoop (n (t.wc c)) off = .ok (k1, jump)) :
    s.wLoop c n off = ended s c ⟨t.setWc c k1, jump, none⟩ :=
  State.wRun_ok h (by rw [hl])

theorem State.wLoop_raised {n : WickCore → Word} {off : BitVec 16} {v : Nat}
    (h : Executes s c false t) (hl : (t.wc c).setLoop (n (t.wc c)) off = .error v) :
    s.wLoop c n off = raised s t c ((t.wc c).exc v) :=
  State.wRun_error h (by rw [hl])

/-- A core that is put back as it is changes nothing. -/
theorem State.setWc_wc (t : State) (c : Fin 13) : t.setWc c (t.wc c) = t := by
  have same : t.wick.cores.set c (t.wc c) = t.wick.cores := Vector.set_getElem_self _
  rw [State.setWc, same]

end

theorem exec_loop (c : Fin 13) (rs : Fin 32) (off : BitVec 16) (s : State) :
    exec (.loop c rs off) s = .next (s.wLoop c (fun k => k.reg rs) off) := rfl

theorem exec_loopi (c : Fin 13) (count : BitVec 10) (off : BitVec 16) (s : State) :
    exec (.loopi c count off) s = .next (s.wLoop c (fun _ => count.zeroExtend 32) off) := rfl

/-! ### Transfers of control -/

/-- Settles O42. A branch is `wBranch` with its condition. CALL and CALLR are one instruction but for the target, as are LOOP and
LOOPI but for the count; what they come to follows from the push of the return address and from the level that is set up. -/
theorem wickTransfersControl : Obligations.WickTransfersControl := by
  unfold Obligations.WickTransfersControl
  intro c ra rb off far s t h k a b go branch g jump
  have branches {p : Prop} [Decidable p] {taken : WickCore → Bool} (hp : taken k = true ↔ p) :
      .next (s.wBranch c off taken) = branch p := congrArg _ (State.wBranch_ended h hp)
  refine ⟨branches beq_iff_eq, branches bne_iff_ne, branches BitVec.slt_iff_toInt_lt, ?bge, branches BitVec.ult_iff_toNat_lt,
    ?bgeu, congrArg _ (State.wRun_ok h rfl), congrArg _ (State.wRun_ok h rfl), ?calls, ?ret, ?loops,
    congrArg _ (State.wRun_ok h rfl), ?push, ?pushFails, ?pop⟩
  case bge => exact branches (BitVec.sle_eq_not_slt ▸ BitVec.sle_iff_toInt_le)
  case bgeu => exact branches (BitVec.ule_eq_not_ult b a ▸ BitVec.ule_iff_toNat_le)
  case calls =>
    intro i target hi aligned
    obtain ⟨f, row, rfl⟩ : ∃ f, exec i s = .next (s.wCallTo c f) ∧ f k = target := by
      obtain ⟨rfl, rfl⟩ | ⟨rfl, rfl⟩ := hi
      · exact ⟨_, exec_call c far s, rfl⟩
      · exact ⟨_, exec_callr c ra s, rfl⟩
    rw [row]
    exact ⟨fun above inside r w t1 written =>
        congrArg _ (State.wCallTo_ended h (State.wPushReturn_ok aligned above inside r w written)),
      fun bad => congrArg _ (State.wCallTo_raised h (State.wPushReturn_stackFault aligned bad))⟩
  case ret =>
    intro aligned
    exact ⟨fun inside r w bs t1 read => exec_ret_ended h (State.wPopReturn_ok aligned inside r w read),
      fun bad => exec_ret_raised h (State.wPopReturn_stackFault aligned bad)⟩
  case loops =>
    intro i n count hi e
    obtain ⟨f, row, rfl⟩ : ∃ f, exec i s = .next (s.wLoop c f off) ∧ f k = n := by
      obtain ⟨rfl, rfl⟩ | ⟨rfl, rfl⟩ := hi
      · exact ⟨_, exec_loop c ra off s, rfl⟩
      · exact ⟨_, exec_loopi c count off s, rfl⟩
    rw [row]
    refine ⟨fun zero => congrArg _ ?_, fun l pos hl => congrArg _ (State.wLoop_ended h (WickCore.setLoop_level pos hl)),
      fun pos full => congrArg _ (State.wLoop_raised h (WickCore.setLoop_full pos full))⟩
    have skips : k.setLoop (f k) off = .ok (k, some (e + 4)) := by rw [zero]; exact k.setLoop_zero off
    rw [State.wLoop_ended h skips, State.setWc_wc]
  case push => exact fun t1 stored => congrArg Host.Outcome.next (State.wRun_bind_ok h stored rfl)
  case pushFails => exact fun e t1 refused => congrArg Host.Outcome.next (State.wRun_bind_error h refused)
  case pop => exact fun bs t1 loaded => congrArg Host.Outcome.next (State.wRun_bind_ok h loaded rfl)

end Sys2Proof.Machine

namespace Sys2Proof.Machine

/-! ### The interrupt controller's part of the state (R402, R411) -/

theorem State.setIcu_onlyIn (s : State) (i : IcuState) : OnlyIn [.icu] s { s with icu := i } := by
  refine ⟨rfl, fun p hp => ?_⟩
  cases p with
  | icu => exact absurd List.mem_cons_self hp
  | dma | ecc => exact ⟨rfl, rfl⟩
  | _ => rfl

/-- A change of the interrupt controller after which HOST is looked at (R402). -/
theorem State.setIcu_hostCheck_onlyIn (s : State) (i : IcuState) :
    OnlyIn [.icu, .out] s ({ s with icu := i } : State).hostCheck :=
  ((s.setIcu_onlyIn i).mono (by simp)).trans (hostCheck_onlyIn _)

@[simp] theorem State.hostCheck_icu (s : State) :
    s.hostCheck.icu = { s.icu with hostAsserted := (s.readySource 13).isSome } := by
  unfold State.hostCheck
  dsimp only
  split <;> rfl

/-- A raise writes no more of the interrupt controller than what pends and what HOST was. -/
theorem State.raise_icu (s : State) (n : Nat) :
    ∃ p a, (s.raise n).icu = { s.icu with pend := p, hostAsserted := a } := by
  unfold State.raise
  split
  · exact ⟨_, _, State.hostCheck_icu _⟩
  · exact ⟨_, _, rfl⟩

/-- Nor does a fault message, which raises source 7 where the Snuffer's queue is full (R414). -/
theorem State.fault_icu (s : State) (src kind a : Nat) :
    ∃ p h, (s.fault src kind a).icu = { s.icu with pend := p, hostAsserted := h } := by
  unfold State.fault State.faultPart
  split
  · split
    · exact ⟨_, _, rfl⟩
    · exact State.raise_icu _ 7
  · exact ⟨_, _, rfl⟩

theorem State.raise_snuf (s : State) (n : Nat) : (s.raise n).snuf = s.snuf :=
  (raise_onlyIn s n).2 .snuffer (by decide)

/-- A message that finds room in the Snuffer's queue joins it (R411). -/
theorem State.fault_queue {s : State} {src kind a : Nat} (hr : s.collectorRuns = true) (hq : s.snuf.queue.length < 256) :
    (s.fault src kind a).snuf.queue = s.snuf.queue ++
      [⟨BitVec.ofNat 10 src, BitVec.ofNat 8 kind, BitVec.ofNat 48 a, s.time.dts, false, s.snuf.lostSince⟩] := by
  unfold State.fault State.faultPart
  rw [if_pos hr, if_pos hq]

theorem State.collectorRuns_of_icuOpen {s : State} (h : s.icuOpen = true) : s.collectorRuns = true :=
  ((Bool.and_eq_true _ _).mp h).1

/-! ### Claims (R403) -/

/-- The interrupt controller once target `k` has claimed source `n`. -/
def IcuState.claimed (i : IcuState) (k : Fin 14) (n : Nat) : IcuState :=
  { i with pend := i.pend &&& ~~~((1 : BitVec 1024) <<< n), claims := i.claims.set k (n :: i.claims[k]) }

theorem IcuState.getLsbD_claimed_pend (i : IcuState) (k : Fin 14) (n j : Nat) :
    (i.claimed k n).pend.getLsbD j = (i.pend.getLsbD j && !decide (n = j)) := by
  by_cases hj : j < 1024
  · have single : ((1 : BitVec 1024) <<< n).getLsbD j = decide (n = j) := by
      refine (BitVec.getLsbD_twoPow n j).trans ?_
      by_cases same : n = j <;> simp [same, hj]
    rw [IcuState.claimed, BitVec.getLsbD_and, BitVec.getLsbD_not, single, decide_eq_true hj, Bool.true_and]
  · have outside : 1024 ≤ j := by omega
    rw [BitVec.getLsbD_of_ge _ _ outside, BitVec.getLsbD_of_ge _ _ outside, Bool.false_and]

theorem IcuState.claimed_pend_same (i : IcuState) (k : Fin 14) (n : Nat) : (i.claimed k n).pend.getLsbD n = false := by
  rw [IcuState.getLsbD_claimed_pend, decide_eq_true rfl, Bool.not_true, Bool.and_false]

theorem IcuState.claimed_pend_ne (i : IcuState) (k : Fin 14) {n j : Nat} (h : j ≠ n) :
    (i.claimed k n).pend.getLsbD j = i.pend.getLsbD j := by
  rw [IcuState.getLsbD_claimed_pend, decide_eq_false h.symm, Bool.not_false, Bool.and_true]

section
variable {s : State} {k : Fin 14} {n : Nat}

theorem State.icuClaim_none (h : s.readySource k = none) : s.icuClaim k = s.setRd 0x80000000 := by
  unfold State.icuClaim
  rw [h]

theorem State.icuClaim_some (h : s.readySource k = some n) :
    s.icuClaim k = ({ s with icu := s.icu.claimed k n } : State).hostCheck.setRd n := by
  unfold State.icuClaim
  rw [h]
  rfl

end

theorem exec_icuClaimRead {s : State} (k : Fin 14) (h : s.icuOpen = true) :
    exec (.icuClaimRead k) s = .next (s.icuClaim k) :=
  congrArg _ (if_pos h)

/-! ### Completions (R404, R407, R408) -/

/-- The state after an order error at target `k` that names source `n` (R408). -/
def State.orderError (s : State) (k : Fin 14) (n : Nat) : State :=
  (({ s with icu.orderErr := true } : State).fault 0x0B0 1 (n + 65536 * k.val)).raise 9

section
variable {s : State} {k : Fin 14} {v : Word}

theorem State.icuCompleteWrite_top {l : List Nat} (h : s.icu.claims[k] = bits v.toNat 9 0 :: l) :
    s.icuCompleteWrite k v = ({ s with icu.claims := s.icu.claims.set k l } : State).settleSchemes := by
  simp [State.icuCompleteWrite, h]

theorem State.icuCompleteWrite_other (h : s.icu.claims[k].head? ≠ some (bits v.toNat 9 0)) :
    s.icuCompleteWrite k v = s.orderError k (bits v.toNat 9 0) := by
  unfold State.icuCompleteWrite
  dsimp only
  split
  next top rest stack =>
    have other : top ≠ bits v.toNat 9 0 := by simpa [stack] using h
    exact if_neg other
  next => rfl

end

theorem State.settleSchemes_icu (s : State) : ∃ a, s.settleSchemes.icu = { s.icu with
    grouped := Vector.ofFn (fun t : Fin 14 => if s.icu.claims[t].isEmpty then s.icu.wanted else s.icu.grouped[t])
    hostAsserted := a } :=
  ⟨_, State.hostCheck_icu _⟩

theorem State.settleSchemes_grouped (s : State) (k : Fin 14) :
    s.settleSchemes.icu.grouped[k] = if s.icu.claims[k].isEmpty then s.icu.wanted else s.icu.grouped[k] := by
  obtain ⟨a, e⟩ := s.settleSchemes_icu
  simp [e]

theorem State.orderError_icu (s : State) (k : Fin 14) (n : Nat) :
    ∃ p a, (s.orderError k n).icu = { s.icu with orderErr := true, pend := p, hostAsserted := a } := by
  obtain ⟨p, a, fault⟩ := ({ s with icu.orderErr := true } : State).fault_icu 0x0B0 1 (n + 65536 * k.val)
  obtain ⟨q, b, raise⟩ := (({ s with icu.orderErr := true } : State).fault 0x0B0 1 (n + 65536 * k.val)).raise_icu 9
  exact ⟨q, b, raise.trans (by rw [fault])⟩

theorem State.orderError_pends {s : State} {k : Fin 14} {n : Nat} (h : s.collectorRuns = true) :
    (s.orderError k n).icu.pend.getLsbD 9 = true := by
  have kept := (Steady.refl { s with icu.orderErr := true }).fault (src := 0x0B0) (kind := 1) (a := n + 65536 * k.val)
  exact State.raise_pends ((State.collectorRuns_congr kept.pwr).trans h) (by decide)

theorem State.orderError_queue {s : State} {k : Fin 14} {n : Nat} (h : s.collectorRuns = true)
    (hq : s.snuf.queue.length < 256) : (s.orderError k n).snuf.queue = s.snuf.queue ++
      [⟨0x0B0, 1, BitVec.ofNat 48 (n + 65536 * k.val), s.time.dts, false, s.snuf.lostSince⟩] :=
  (congrArg SnufState.queue (State.raise_snuf _ 9)).trans (State.fault_queue h hq)

theorem State.orderError_onlyIn (s : State) (k : Fin 14) (n : Nat) :
    OnlyIn [.icu, .snuffer, .out] s (s.orderError k n) :=
  ((s.setIcu_onlyIn _).mono (by simp)).trans
    (((fault_onlyIn _ _ _ _).mono (by simp)).trans ((raise_onlyIn _ 9).mono (by simp)))

theorem exec_icuComplete {s : State} (k : Fin 14) (v : Word) (h : s.icuOpen = true) :
    exec (.icuComplete k v) s = .next (s.icuCompleteWrite k v) :=
  congrArg _ (if_pos h)

/-! ### Sets of sources (R409) -/

/-- Bit `b` of word `w` names source `32 * w + b` (R432). -/
theorem getLsbD_sourceSet (w : Fin 32) (v : Word) {n : Nat} (h : n < 1024) :
    (sourceSet w v).getLsbD n = (decide (n / 32 = w.val) && v.getLsbD (n % 32)) := by
  have shifted : (sourceSet w v).getLsbD n = (!decide (n < 32 * w.val) && v.getLsbD (n - 32 * w.val)) := by
    have inside : n - 32 * w.val < 1024 := by omega
    rw [sourceSet, BitVec.getLsbD_shiftLeft, BitVec.getLsbD_ofNat, BitVec.testBit_toNat, decide_eq_true h, decide_eq_true inside,
      Bool.true_and, Bool.true_and]
  rw [shifted]
  rcases Nat.lt_trichotomy (n / 32) w.val with before | at_ | after
  · have below : n < 32 * w.val := by omega
    have other : n / 32 ≠ w.val := Nat.ne_of_lt before
    rw [decide_eq_true below, decide_eq_false other, Bool.not_true, Bool.false_and, Bool.false_and]
  · have place : n - 32 * w.val = n % 32 := by omega
    have reached : ¬ n < 32 * w.val := by omega
    rw [place, decide_eq_false reached, decide_eq_true at_, Bool.not_false]
  · have outside : 32 ≤ n - 32 * w.val := by omega
    have other : n / 32 ≠ w.val := Nat.ne_of_gt after
    rw [BitVec.getLsbD_of_ge v _ outside, decide_eq_false other, Bool.and_false, Bool.false_and]

@[simp] theorem State.icuBits_pend (s : State) (f g : BitVec 1024 → BitVec 1024) :
    (s.icuBits f g).icu.pend = f s.icu.pend :=
  congrArg IcuState.pend (State.hostCheck_icu _)

@[simp] theorem State.icuBits_mask (s : State) (f g : BitVec 1024 → BitVec 1024) :
    (s.icuBits f g).icu.mask = g s.icu.mask :=
  congrArg IcuState.mask (State.hostCheck_icu _)

theorem State.icuBits_onlyIn (s : State) (f g : BitVec 1024 → BitVec 1024) : OnlyIn [.icu, .out] s (s.icuBits f g) :=
  s.setIcu_hostCheck_onlyIn _

section
variable {x : BitVec 1024} {w : Fin 32} {v : Word} {n : Nat}

theorem getLsbD_or_sourceSet (h : n < 1024) :
    (x ||| sourceSet w v).getLsbD n = (x.getLsbD n || (decide (n / 32 = w.val) && v.getLsbD (n % 32))) := by
  rw [BitVec.getLsbD_or, getLsbD_sourceSet w v h]

theorem getLsbD_and_not_sourceSet (h : n < 1024) :
    (x &&& ~~~sourceSet w v).getLsbD n = (x.getLsbD n && !(decide (n / 32 = w.val) && v.getLsbD (n % 32))) := by
  rw [BitVec.getLsbD_and, BitVec.getLsbD_not, getLsbD_sourceSet w v h, decide_eq_true h, Bool.true_and]

end

section
variable {s : State} (w : Fin 32) (v : Word) (h : s.icuOpen = true)
include h

theorem exec_icuPendSet : exec (.icuPendSet w v) s = .next (s.icuBits (· ||| sourceSet w v) id) := congrArg _ (if_pos h)
theorem exec_icuPendClr : exec (.icuPendClr w v) s = .next (s.icuBits (· &&& ~~~sourceSet w v) id) := congrArg _ (if_pos h)
theorem exec_icuMaskSet : exec (.icuMaskSet w v) s = .next (s.icuBits id (· ||| sourceSet w v)) := congrArg _ (if_pos h)
theorem exec_icuMaskClr : exec (.icuMaskClr w v) s = .next (s.icuBits id (· &&& ~~~sourceSet w v)) := congrArg _ (if_pos h)

end

/-! ### The interrupt controller's commands -/

/-- Settles O56. A claim leaves `IcuState.claimed`, a completion `settleSchemes` of the popped stack or `orderError`, and a write
of a set or clear register `icuBits` with the sources it names. What follows these writes, the look at HOST, the message and the
raise, touches neither the stacks nor the masks and takes back no source that pends. -/
theorem interruptsAreClaimedAndCompleted : Obligations.InterruptsAreClaimedAndCompleted := by
  unfold Obligations.InterruptsAreClaimedAndCompleted
  refine ⟨fun k s h => ⟨fun idle => ?none, fun n ready => ?claim⟩,
    fun k v s h => ⟨fun l top => ?complete, fun other => ?orderError⟩, fun w v s h => ?bits⟩
  case none => rw [exec_icuClaimRead k h, State.icuClaim_none idle]; rfl
  case claim =>
    refine ⟨_, by rw [exec_icuClaimRead k h, State.icuClaim_some ready], rfl, ?_⟩
    simp only [State.setRd_icu, State.hostCheck_icu]
    refine ⟨s.icu.claimed_pend_same k n, fun j hj => s.icu.claimed_pend_ne k hj, Vector.getElem_set_self _,
      fun j hj => Vector.getElem_set_ne k.isLt j.isLt (Fin.val_ne_of_ne hj.symm), rfl, ?_⟩
    exact ((s.setIcu_hostCheck_onlyIn _).mono (by simp)).trans ((setRd_onlyIn _ n).mono (by simp))
  case complete =>
    refine ⟨_, by rw [exec_icuComplete k v h, State.icuCompleteWrite_top top], ?_⟩
    have stack : (s.icu.claims.set k l)[k] = l := Vector.getElem_set_self _
    obtain ⟨a, icu⟩ := ({ s with icu.claims := s.icu.claims.set k l } : State).settleSchemes_icu
    refine ⟨by rw [icu]; exact stack, fun j hj => ?_, fun hl => ?_, fun hl => ?_, by rw [icu], ?_⟩
    · rw [icu]
      exact Vector.getElem_set_ne k.isLt j.isLt (Fin.val_ne_of_ne hj.symm)
    · rw [State.settleSchemes_grouped, stack, hl]
      rfl
    · rw [State.settleSchemes_grouped, stack, if_neg (by simpa using hl)]
    · exact ((s.setIcu_onlyIn _).mono (by simp)).trans (State.setIcu_hostCheck_onlyIn _ _)
  case orderError =>
    refine ⟨_, by rw [exec_icuComplete k v h, State.icuCompleteWrite_other other], ?_⟩
    have runs := State.collectorRuns_of_icuOpen h
    obtain ⟨p, a, icu⟩ := s.orderError_icu k (bits v.toNat 9 0)
    exact ⟨by rw [icu], by rw [icu], State.orderError_pends runs, State.orderError_queue runs, s.orderError_onlyIn _ _⟩
  case bits =>
    intro named
    have written (f g : BitVec 1024 → BitVec 1024) := State.icuBits_onlyIn s f g
    refine ⟨⟨_, exec_icuPendSet w v h, ?_, written _ _, fun n hn => ?_⟩,
      ⟨_, exec_icuPendClr w v h, ?_, written _ _, fun n hn => ?_⟩,
      ⟨_, exec_icuMaskSet w v h, ?_, written _ _, fun n hn => ?_⟩,
      ⟨_, exec_icuMaskClr w v h, ?_, written _ _, fun n hn => ?_⟩⟩
    all_goals simp only [State.icuBits_pend, State.icuBits_mask, id]
    · exact getLsbD_or_sourceSet hn
    · exact getLsbD_and_not_sourceSet hn
    · exact getLsbD_or_sourceSet hn
    · exact getLsbD_and_not_sourceSet hn

end Sys2Proof.Machine
